-- ==== Sys2Proof/Word.lean ====
section
/-! DEFINITION. The machine's word types and the sparse tables the state is made of.

R10: integers are little-endian in memory; bit 0 is the least significant bit. -/

namespace Sys2Proof

/-- A scalar register, an address or a system register (R19, R42). -/
abbrev Word := BitVec 64

/-- One byte of memory or of scratchpad (R284). -/
abbrev Byte := BitVec 8

/-- One row of a vector register: VLEN = 4,096 bits (R20). -/
abbrev Row := BitVec 4096

/-- One mask register: eight rows of 1,024 bits, row j at bits [1024j+1023 : 1024j] (R21). -/
abbrev Mask := BitVec 8192

/-- A sparse table by number: keys strictly rising; a key that is not listed has a default its reader names. -/
abbrev SMap (α : Type) := List (Nat × α)

/-- The entry of key `k`, or `d` where the table lists none. -/
def smGet {α : Type} (d : α) (k : Nat) : SMap α → α
  | [] => d
  | (j, v) :: r => if j = k then v else smGet d k r

/-- The table with `v` at key `k`, keys kept rising. -/
def smSet {α : Type} (k : Nat) (v : α) : SMap α → SMap α
  | [] => [(k, v)]
  | (j, u) :: r => if k = j then (k, v) :: r else if k < j then (k, v) :: (j, u) :: r else (j, u) :: smSet k v r

/-- The entry of key `k`, where the table lists one. -/
def smFind {α : Type} (k : Nat) : SMap α → Option α
  | [] => none
  | (j, v) :: r => if j = k then some v else smFind k r

/-- The table without key `k`. -/
def smDel {α : Type} (k : Nat) : SMap α → SMap α
  | [] => []
  | (j, v) :: r => if j = k then r else (j, v) :: smDel k r

end Sys2Proof
end

