-- ==== Sys2Proof/Machine/Sparse.lean ====
section
/-! DEFINITION. Byte memories as sorted lists of cells, in one canonical form.

A memory lists (address, byte) pairs with strictly rising addresses and no zero byte: an unlisted address reads as 0.
For device memory that is the content memory training leaves (R463); for the other memories log entries 2 and 3 name
the choice. Multi-byte values are little-endian (R10). -/

namespace Sys2Proof.Machine

/-- A byte memory: scratchpad, device memory, host memory, a controller's own memory. -/
abbrev Memory := List Host.Cell

/-- The byte at an address; an unlisted address reads as 0. -/
def readByte : Memory → Nat → Byte
  | [], _ => 0
  | (k, v) :: r, a => if a = k then v else if a < k then 0 else readByte r a

/-- The memory with one byte written; a zero removes the entry. -/
def writeByte : Memory → Nat → Byte → Memory
  | [], a, b => if b = 0 then [] else [(a, b)]
  | (k, v) :: r, a, b =>
    if a = k then (if b = 0 then r else (a, b) :: r)
    else if a < k then (if b = 0 then (k, v) :: r else (a, b) :: (k, v) :: r)
    else (k, v) :: writeByte r a b

/-- The little-endian value of `n` bytes from `a`. -/
def readLE (m : Memory) (a : Nat) : Nat → Nat
  | 0 => 0
  | n + 1 => (readByte m a).toNat + 256 * readLE m (a + 1) n

/-- The memory with the `n` low bytes of `v` written from `a`, little-endian. -/
def writeLE (m : Memory) (a : Nat) : Nat → Nat → Memory
  | 0, _ => m
  | n + 1, v => writeLE (writeByte m a (BitVec.ofNat 8 v)) (a + 1) n (v / 256)

/-- The `n` bytes from `a`, lowest address first. -/
def readBytes (m : Memory) (a : Nat) : Nat → List Byte
  | 0 => []
  | n + 1 => readByte m a :: readBytes m (a + 1) n

/-- The memory with a list of bytes written from `a`. -/
def writeBytes (m : Memory) (a : Nat) : List Byte → Memory
  | [] => m
  | b :: bs => writeBytes (writeByte m a b) (a + 1) bs

/-- The value of a list of bytes, little-endian. -/
def leValue : List Byte → Nat
  | [] => 0
  | b :: bs => b.toNat + 256 * leValue bs

/-- The `n` little-endian bytes of a value. -/
def leBytes : Nat → Nat → List Byte
  | 0, _ => []
  | n + 1, v => BitVec.ofNat 8 v :: leBytes n (v / 256)

/-- The memory whose bytes [base, base + n) are those of `img` from 0, the others as before. -/
def overlay (m : Memory) (base n : Nat) (img : Memory) : Memory :=
  m.filter (fun c => decide (c.1 < base)) ++ (img.filter fun c => decide (c.1 < n)).map (fun c => (base + c.1, c.2))
    ++ m.filter (fun c => decide (base + n ≤ c.1))

/-- Bytes [base, base + n) of a memory, from 0. -/
def sliceOf (m : Memory) (base n : Nat) : Memory :=
  (m.filter fun c => decide (base ≤ c.1) && decide (c.1 < base + n)).map fun c => (c.1 - base, c.2)

/-- Every address listed lies above `lo`, addresses rise strictly and no byte listed is zero. -/
def cellsFrom (lo : Nat) : Memory → Bool
  | [] => true
  | (k, v) :: r => decide (lo ≤ k) && decide (v ≠ 0) && cellsFrom (k + 1) r

/-- The canonical form of a memory: addresses strictly rising, no entry equal to what an unlisted address reads as. -/
def Memory.wf (m : Memory) : Bool := cellsFrom 0 m

end Sys2Proof.Machine
end

