-- ==== Sys2Proof/Syntax.lean ====
section
/-! DEFINITION. The instruction set as data: one constructor of `Instr` per row of spec/opcode_table.json.

The rows with an encoding (R76 to R83) come first, each with the fields of its word; a one-bit field is a `Bool`.
The rows without an encoding are the machine's events: what an agent, an engine, a firmware interface or the host
does at a moment the manual leaves to it. Each carries the parameters that say which agent acts and on what. -/

namespace Sys2Proof

/-- A Spray fragment as it arrives at a die's receiver (R313, R314). -/
structure Fragment where
  /-- `seq`: the message of the stream the fragment belongs to. -/
  seq : BitVec 32
  /-- Sending logical core. -/
  src : BitVec 32
  /-- Receiving logical core. -/
  dst : BitVec 32
  /-- Message descriptor. -/
  desc : BitVec 64
  /-- Message kind in [2:0], `mput` width in [4:3]. -/
  kind : BitVec 8
  /-- Fragment index, data first, then parity. -/
  index : BitVec 8
  /-- Group in [7:4], group count in [3:0]. -/
  grp : BitVec 8
  /-- Code rate. -/
  rate : BitVec 8
  /-- R313. -/
  rownib : BitVec 16
  /-- The `flen` data bytes. -/
  data : List (BitVec 8)
  /-- CRC-32C as it arrives. -/
  crc : BitVec 32
  /-- Fabric tag of the sender's context, which R363 compares (the header has no field for it). -/
  ctag : BitVec 16
  /-- Which copy of its sender a `scopyr` part belongs to (R200; the header has no field for it, log 38). -/
  copy : Nat
  deriving DecidableEq, Repr

/-- An access of the host to device memory through BAR2 or CXL.mem (R388, R397). -/
structure HostAccess where
  /-- Device physical address. -/
  pa : Nat
  /-- Bytes. -/
  size : Nat
  /-- The bytes written; none for a read. -/
  data : Option (List (BitVec 8))
  /-- The access comes over CXL.mem. -/
  cxl : Bool
  deriving DecidableEq, Repr

/-- An AtomicOp of the host on device memory (R395). -/
structure HostAtomic where
  /-- FetchAdd 0, Swap 1, CAS 2. -/
  op : BitVec 2
  /-- Bytes. -/
  size : Nat
  /-- Device physical address. -/
  pa : Nat
  /-- Addend, new value or swap value. -/
  operand : Nat
  /-- CAS comparand. -/
  compare : Nat
  deriving DecidableEq, Repr

/-- Where the patrol scrubber reads (R417). -/
inductive ScrubTarget where
  /-- An aligned 8-byte word of device memory at this physical address. -/
  | memory (pa : Nat)
  /-- An aligned 8-byte word of an L2 slice, by its physical address. -/
  | l2 (pa : Nat)
  /-- A 32-bit word of a core's scratchpad, by core and byte offset. -/
  | scratchpad (core off : Nat)
  deriving DecidableEq, Repr

/-- What the patrol scrubber finds (R417). -/
inductive ScrubFinding where
  | clean
  | corrected
  | uncorrectable
  deriving DecidableEq, Repr

/-- Why a Siphon move ends early or begins again (R429). -/
inductive AbortReason where
  /-- The spare reports an uncorrectable error or a failure, before Flip. -/
  | spareFailed
  /-- The context has become Fatal. -/
  | contextFatal
  /-- The lease has changed. -/
  | leaseChange
  deriving DecidableEq, Repr

/-- A scan of an idle site (R434, R435). -/
structure ScanPackage where
  /-- `seqno` of the package of the boot bundle that is asked for. -/
  seqno : BitVec 32
  /-- The 256-bit signature into which the site's responses compact. -/
  misr : List (BitVec 8)
  deriving DecidableEq, Repr

/-- The result of one memory-training step (R463, R464). -/
inductive TrainOutcome where
  /-- The step passed: the margin that steps 5 and 6 measure, and the lanes step 4 mapped to spares. -/
  | pass (margin : BitVec 16) (repaired : BitVec 8)
  | fail
  /-- Step 4 finds a failing lane and no spare left for it. -/
  | noSpare
  deriving DecidableEq, Repr

/-- The result of training a fabric port (R468). -/
inductive PortOutcome where
  /-- All steps passed; the peer's package identifier and port number. -/
  | up (peerpkg : BitVec 10) (peerport : BitVec 5)
  /-- Signal detect never succeeded. -/
  | noSignal
  /-- A later step failed. -/
  | failed (step : BitVec 8)
  deriving DecidableEq, Repr

/-- The result of one attempt to train the PCI Express port (R469). -/
inductive PcieOutcome where
  /-- The link is up, at this rate code and width, in Flit mode or not, running CXL or not. -/
  | up (rate : BitVec 3) (width : BitVec 5) (flit cxl : Bool)
  /-- The link returned to Detect. -/
  | detect
  deriving DecidableEq, Repr

/-- One instruction or event of the machine. -/
inductive Instr where
  /-- R99. -/
  | add (rd : BitVec 5) (rs1 : BitVec 5) (rs2 : BitVec 5)
  /-- R99. -/
  | sub (rd : BitVec 5) (rs1 : BitVec 5) (rs2 : BitVec 5)
  /-- R99. -/
  | and (rd : BitVec 5) (rs1 : BitVec 5) (rs2 : BitVec 5)
  /-- R99. -/
  | or (rd : BitVec 5) (rs1 : BitVec 5) (rs2 : BitVec 5)
  /-- R99. -/
  | xor (rd : BitVec 5) (rs1 : BitVec 5) (rs2 : BitVec 5)
  /-- R99. -/
  | sll (rd : BitVec 5) (rs1 : BitVec 5) (rs2 : BitVec 5)
  /-- R99. -/
  | srl (rd : BitVec 5) (rs1 : BitVec 5) (rs2 : BitVec 5)
  /-- R99. -/
  | sra (rd : BitVec 5) (rs1 : BitVec 5) (rs2 : BitVec 5)
  /-- R99. -/
  | slt (rd : BitVec 5) (rs1 : BitVec 5) (rs2 : BitVec 5)
  /-- R99. -/
  | sltz (rd : BitVec 5) (rs1 : BitVec 5) (rs2 : BitVec 5)
  /-- R99. -/
  | addw (rd : BitVec 5) (rs1 : BitVec 5) (rs2 : BitVec 5)
  /-- R99. -/
  | subw (rd : BitVec 5) (rs1 : BitVec 5) (rs2 : BitVec 5)
  /-- R99. -/
  | min (rd : BitVec 5) (rs1 : BitVec 5) (rs2 : BitVec 5)
  /-- R99. -/
  | max (rd : BitVec 5) (rs1 : BitVec 5) (rs2 : BitVec 5)
  /-- R99. -/
  | minz (rd : BitVec 5) (rs1 : BitVec 5) (rs2 : BitVec 5)
  /-- R99. -/
  | maxz (rd : BitVec 5) (rs1 : BitVec 5) (rs2 : BitVec 5)
  /-- R100. -/
  | mul (rd : BitVec 5) (rs1 : BitVec 5) (rs2 : BitVec 5)
  /-- R100. -/
  | mulh (rd : BitVec 5) (rs1 : BitVec 5) (rs2 : BitVec 5)
  /-- R100. -/
  | mulhz (rd : BitVec 5) (rs1 : BitVec 5) (rs2 : BitVec 5)
  /-- R100. -/
  | div (rd : BitVec 5) (rs1 : BitVec 5) (rs2 : BitVec 5)
  /-- R100. -/
  | divz (rd : BitVec 5) (rs1 : BitVec 5) (rs2 : BitVec 5)
  /-- R100. -/
  | rem (rd : BitVec 5) (rs1 : BitVec 5) (rs2 : BitVec 5)
  /-- R100. -/
  | remz (rd : BitVec 5) (rs1 : BitVec 5) (rs2 : BitVec 5)
  /-- R101. -/
  | slli (rd : BitVec 5) (rs1 : BitVec 5) (sh : BitVec 6)
  /-- R101. -/
  | srli (rd : BitVec 5) (rs1 : BitVec 5) (sh : BitVec 6)
  /-- R101. -/
  | srai (rd : BitVec 5) (rs1 : BitVec 5) (sh : BitVec 6)
  /-- R101. -/
  | rori (rd : BitVec 5) (rs1 : BitVec 5) (sh : BitVec 6)
  /-- R101. -/
  | clz (rd : BitVec 5) (rs1 : BitVec 5)
  /-- R101. -/
  | ctz (rd : BitVec 5) (rs1 : BitVec 5)
  /-- R101. -/
  | cpop (rd : BitVec 5) (rs1 : BitVec 5)
  /-- R101. -/
  | rev8 (rd : BitVec 5) (rs1 : BitVec 5)
  /-- R101. -/
  | zeqz (rd : BitVec 5) (rs1 : BitVec 5) (rs2 : BitVec 5)
  /-- R101. -/
  | znez (rd : BitVec 5) (rs1 : BitVec 5) (rs2 : BitVec 5)
  /-- R102. -/
  | addi (rd : BitVec 5) (rs1 : BitVec 5) (imm : BitVec 16)
  /-- R102. -/
  | andi (rd : BitVec 5) (rs1 : BitVec 5) (imm : BitVec 16)
  /-- R102. -/
  | ori (rd : BitVec 5) (rs1 : BitVec 5) (imm : BitVec 16)
  /-- R102. -/
  | lui (rd : BitVec 5) (imm : BitVec 21)
  /-- R102. -/
  | auipc (rd : BitVec 5) (imm : BitVec 21)
  /-- R103. -/
  | jal (rd : BitVec 5) (off : BitVec 21)
  /-- R103. -/
  | jalr (rd : BitVec 5) (rs1 : BitVec 5) (imm : BitVec 16)
  /-- R103. -/
  | beq (rs1 : BitVec 5) (rs2 : BitVec 5) (off : BitVec 16)
  /-- R103. -/
  | bne (rs1 : BitVec 5) (rs2 : BitVec 5) (off : BitVec 16)
  /-- R103. -/
  | blt (rs1 : BitVec 5) (rs2 : BitVec 5) (off : BitVec 16)
  /-- R103. -/
  | bge (rs1 : BitVec 5) (rs2 : BitVec 5) (off : BitVec 16)
  /-- R104. -/
  | bsig (imm : BitVec 21)
  /-- R105. -/
  | ld (rd : BitVec 5) (rs1 : BitVec 5) (imm : BitVec 16)
  /-- R105. -/
  | lw (rd : BitVec 5) (rs1 : BitVec 5) (imm : BitVec 16)
  /-- R105. -/
  | lwz (rd : BitVec 5) (rs1 : BitVec 5) (imm : BitVec 16)
  /-- R105. -/
  | lbz (rd : BitVec 5) (rs1 : BitVec 5) (imm : BitVec 16)
  /-- R105. -/
  | sd (rs : BitVec 5) (rs1 : BitVec 5) (imm : BitVec 16)
  /-- R105. -/
  | sw (rs : BitVec 5) (rs1 : BitVec 5) (imm : BitVec 16)
  /-- R106. -/
  | lx (rd : BitVec 5) (rs1 : BitVec 5) (rs2 : BitVec 5) (width : BitVec 3)
  /-- R106. -/
  | sx (rs : BitVec 5) (rs1 : BitVec 5) (rs2 : BitVec 5) (width : BitVec 3)
  /-- R109. -/
  | lsp (rd : BitVec 5) (rs1 : BitVec 5) (rs2 : BitVec 5) (width : BitVec 3)
  /-- R109. -/
  | ssp (rs : BitVec 5) (rs1 : BitVec 5) (rs2 : BitVec 5) (width : BitVec 3)
  /-- R112. -/
  | amoswapD (rd : BitVec 5) (rs1 : BitVec 5) (rs2 : BitVec 5) (scope : BitVec 3) (ord : BitVec 2)
  /-- R112. -/
  | amoswapW (rd : BitVec 5) (rs1 : BitVec 5) (rs2 : BitVec 5) (scope : BitVec 3) (ord : BitVec 2)
  /-- R112. -/
  | amoaddD (rd : BitVec 5) (rs1 : BitVec 5) (rs2 : BitVec 5) (scope : BitVec 3) (ord : BitVec 2)
  /-- R112. -/
  | amoaddW (rd : BitVec 5) (rs1 : BitVec 5) (rs2 : BitVec 5) (scope : BitVec 3) (ord : BitVec 2)
  /-- R112. -/
  | amoandD (rd : BitVec 5) (rs1 : BitVec 5) (rs2 : BitVec 5) (scope : BitVec 3) (ord : BitVec 2)
  /-- R112. -/
  | amoandW (rd : BitVec 5) (rs1 : BitVec 5) (rs2 : BitVec 5) (scope : BitVec 3) (ord : BitVec 2)
  /-- R112. -/
  | amoorD (rd : BitVec 5) (rs1 : BitVec 5) (rs2 : BitVec 5) (scope : BitVec 3) (ord : BitVec 2)
  /-- R112. -/
  | amoorW (rd : BitVec 5) (rs1 : BitVec 5) (rs2 : BitVec 5) (scope : BitVec 3) (ord : BitVec 2)
  /-- R112. -/
  | amoxorD (rd : BitVec 5) (rs1 : BitVec 5) (rs2 : BitVec 5) (scope : BitVec 3) (ord : BitVec 2)
  /-- R112. -/
  | amoxorW (rd : BitVec 5) (rs1 : BitVec 5) (rs2 : BitVec 5) (scope : BitVec 3) (ord : BitVec 2)
  /-- R112. -/
  | amominD (rd : BitVec 5) (rs1 : BitVec 5) (rs2 : BitVec 5) (scope : BitVec 3) (ord : BitVec 2)
  /-- R112. -/
  | amominW (rd : BitVec 5) (rs1 : BitVec 5) (rs2 : BitVec 5) (scope : BitVec 3) (ord : BitVec 2)
  /-- R112. -/
  | amomaxD (rd : BitVec 5) (rs1 : BitVec 5) (rs2 : BitVec 5) (scope : BitVec 3) (ord : BitVec 2)
  /-- R112. -/
  | amomaxW (rd : BitVec 5) (rs1 : BitVec 5) (rs2 : BitVec 5) (scope : BitVec 3) (ord : BitVec 2)
  /-- R112. -/
  | amominzD (rd : BitVec 5) (rs1 : BitVec 5) (rs2 : BitVec 5) (scope : BitVec 3) (ord : BitVec 2)
  /-- R112. -/
  | amominzW (rd : BitVec 5) (rs1 : BitVec 5) (rs2 : BitVec 5) (scope : BitVec 3) (ord : BitVec 2)
  /-- R112. -/
  | amomaxzD (rd : BitVec 5) (rs1 : BitVec 5) (rs2 : BitVec 5) (scope : BitVec 3) (ord : BitVec 2)
  /-- R112. -/
  | amomaxzW (rd : BitVec 5) (rs1 : BitVec 5) (rs2 : BitVec 5) (scope : BitVec 3) (ord : BitVec 2)
  /-- R112. -/
  | amocasD (rd : BitVec 5) (rs1 : BitVec 5) (rs2 : BitVec 5) (scope : BitVec 3) (ord : BitVec 2)
  /-- R112. -/
  | amocasW (rd : BitVec 5) (rs1 : BitVec 5) (rs2 : BitVec 5) (scope : BitVec 3) (ord : BitVec 2)
  /-- R112. -/
  | amoaddF32 (rd : BitVec 5) (rs1 : BitVec 5) (rs2 : BitVec 5) (scope : BitVec 3) (ord : BitVec 2)
  /-- R111. -/
  | ldaW (rd : BitVec 5) (rs1 : BitVec 5) (scope : BitVec 3)
  /-- R111. -/
  | ldaD (rd : BitVec 5) (rs1 : BitVec 5) (scope : BitVec 3)
  /-- R111. -/
  | staW (rs1 : BitVec 5) (rs2 : BitVec 5) (scope : BitVec 3)
  /-- R111. -/
  | staD (rs1 : BitVec 5) (rs2 : BitVec 5) (scope : BitVec 3)
  /-- R297. -/
  | fence (scope : BitVec 3) (ord : BitVec 2)
  /-- R116. -/
  | faddF64 (rd : BitVec 5) (rs1 : BitVec 5) (rs2 : BitVec 5)
  /-- R116. -/
  | fsubF64 (rd : BitVec 5) (rs1 : BitVec 5) (rs2 : BitVec 5)
  /-- R116. -/
  | fmulF64 (rd : BitVec 5) (rs1 : BitVec 5) (rs2 : BitVec 5)
  /-- R116. -/
  | fdivF64 (rd : BitVec 5) (rs1 : BitVec 5) (rs2 : BitVec 5)
  /-- R116. -/
  | fsqrtF64 (rd : BitVec 5) (rs1 : BitVec 5)
  /-- R116. -/
  | fmacF64 (rd : BitVec 5) (rs1 : BitVec 5) (rs2 : BitVec 5)
  /-- R116. -/
  | fmscF64 (rd : BitVec 5) (rs1 : BitVec 5) (rs2 : BitVec 5)
  /-- R116. -/
  | fnmacF64 (rd : BitVec 5) (rs1 : BitVec 5) (rs2 : BitVec 5)
  /-- R116. -/
  | faddF32 (rd : BitVec 5) (rs1 : BitVec 5) (rs2 : BitVec 5)
  /-- R116. -/
  | fsubF32 (rd : BitVec 5) (rs1 : BitVec 5) (rs2 : BitVec 5)
  /-- R116. -/
  | fmulF32 (rd : BitVec 5) (rs1 : BitVec 5) (rs2 : BitVec 5)
  /-- R116. -/
  | fdivF32 (rd : BitVec 5) (rs1 : BitVec 5) (rs2 : BitVec 5)
  /-- R116. -/
  | fsqrtF32 (rd : BitVec 5) (rs1 : BitVec 5)
  /-- R116. -/
  | fmacF32 (rd : BitVec 5) (rs1 : BitVec 5) (rs2 : BitVec 5)
  /-- R116. -/
  | fmscF32 (rd : BitVec 5) (rs1 : BitVec 5) (rs2 : BitVec 5)
  /-- R116. -/
  | fnmacF32 (rd : BitVec 5) (rs1 : BitVec 5) (rs2 : BitVec 5)
  /-- R117. -/
  | ftoi (rd : BitVec 5) (rs1 : BitVec 5) (single : Bool) (ty : BitVec 2)
  /-- R117. -/
  | ftrc (rd : BitVec 5) (rs1 : BitVec 5) (single : Bool) (ty : BitVec 2)
  /-- R117. -/
  | itof (rd : BitVec 5) (rs1 : BitVec 5) (single : Bool) (ty : BitVec 2)
  /-- R117. -/
  | fnarrowF32 (rd : BitVec 5) (rs1 : BitVec 5)
  /-- R117. -/
  | fnarrowF16 (rd : BitVec 5) (rs1 : BitVec 5)
  /-- R117. -/
  | fnarrowBf16 (rd : BitVec 5) (rs1 : BitVec 5)
  /-- R117. -/
  | fwidenF32 (rd : BitVec 5) (rs1 : BitVec 5)
  /-- R117. -/
  | fwidenF16 (rd : BitVec 5) (rs1 : BitVec 5)
  /-- R117. -/
  | fwidenBf16 (rd : BitVec 5) (rs1 : BitVec 5)
  /-- R118. -/
  | feq (rd : BitVec 5) (rs1 : BitVec 5) (rs2 : BitVec 5) (single : Bool)
  /-- R118. -/
  | flt (rd : BitVec 5) (rs1 : BitVec 5) (rs2 : BitVec 5) (single : Bool)
  /-- R118. -/
  | fle (rd : BitVec 5) (rs1 : BitVec 5) (rs2 : BitVec 5) (single : Bool)
  /-- R118. -/
  | fmin (rd : BitVec 5) (rs1 : BitVec 5) (rs2 : BitVec 5) (single : Bool)
  /-- R118. -/
  | fmax (rd : BitVec 5) (rs1 : BitVec 5) (rs2 : BitVec 5) (single : Bool)
  /-- R118. -/
  | fclass (rd : BitVec 5) (rs1 : BitVec 5) (single : Bool)
  /-- R23. -/
  | vshape (rd : BitVec 5) (rs1 : BitVec 5) (rs2 : BitVec 5) (sew : BitVec 3)
  /-- R125. -/
  | vmvx (vd : BitVec 5) (vs1 : BitVec 5) (vs2 : BitVec 5) (conv : Bool)
  /-- R125. -/
  | vmvxz (vd : BitVec 5) (vs1 : BitVec 5) (vs2 : BitVec 5) (conv : Bool)
  /-- R125. -/
  | vmvv (vd : BitVec 5) (vs1 : BitVec 5) (vs2 : BitVec 5) (conv : Bool)
  /-- R125. -/
  | vbcast (vd : BitVec 5) (vs1 : BitVec 5) (mask : BitVec 3) (conv : Bool)
  /-- R125. -/
  | vmv (vd : BitVec 5) (vs1 : BitVec 5) (mask : BitVec 3) (conv : Bool)
  /-- R125. -/
  | vid (vd : BitVec 5) (mask : BitVec 3) (conv : Bool)
  /-- R125. -/
  | vidr (vd : BitVec 5) (mask : BitVec 3) (conv : Bool)
  /-- R125. -/
  | vidf (vd : BitVec 5) (mask : BitVec 3) (conv : Bool)
  /-- R126. -/
  | vadd (vd : BitVec 5) (vs1 : BitVec 5) (vs2 : BitVec 5) (mask : BitVec 3) (conv : Bool) (scalar : Bool) (ty : BitVec 2)
  /-- R126. -/
  | vsub (vd : BitVec 5) (vs1 : BitVec 5) (vs2 : BitVec 5) (mask : BitVec 3) (conv : Bool) (scalar : Bool) (ty : BitVec 2)
  /-- R126. -/
  | vrsub (vd : BitVec 5) (vs1 : BitVec 5) (vs2 : BitVec 5) (mask : BitVec 3) (conv : Bool) (scalar : Bool) (ty : BitVec 2)
  /-- R126. -/
  | vmin (vd : BitVec 5) (vs1 : BitVec 5) (vs2 : BitVec 5) (mask : BitVec 3) (conv : Bool) (scalar : Bool) (ty : BitVec 2)
  /-- R126. -/
  | vminz (vd : BitVec 5) (vs1 : BitVec 5) (vs2 : BitVec 5) (mask : BitVec 3) (conv : Bool) (scalar : Bool) (ty : BitVec 2)
  /-- R126. -/
  | vmax (vd : BitVec 5) (vs1 : BitVec 5) (vs2 : BitVec 5) (mask : BitVec 3) (conv : Bool) (scalar : Bool) (ty : BitVec 2)
  /-- R126. -/
  | vmaxz (vd : BitVec 5) (vs1 : BitVec 5) (vs2 : BitVec 5) (mask : BitVec 3) (conv : Bool) (scalar : Bool) (ty : BitVec 2)
  /-- R127. -/
  | vsadd (vd : BitVec 5) (vs1 : BitVec 5) (vs2 : BitVec 5) (mask : BitVec 3) (conv : Bool) (scalar : Bool) (ty : BitVec 2)
  /-- R127. -/
  | vsaddz (vd : BitVec 5) (vs1 : BitVec 5) (vs2 : BitVec 5) (mask : BitVec 3) (conv : Bool) (scalar : Bool) (ty : BitVec 2)
  /-- R127. -/
  | vssub (vd : BitVec 5) (vs1 : BitVec 5) (vs2 : BitVec 5) (mask : BitVec 3) (conv : Bool) (scalar : Bool) (ty : BitVec 2)
  /-- R127. -/
  | vssubz (vd : BitVec 5) (vs1 : BitVec 5) (vs2 : BitVec 5) (mask : BitVec 3) (conv : Bool) (scalar : Bool) (ty : BitVec 2)
  /-- R127. -/
  | vwadd (vd : BitVec 5) (vs1 : BitVec 5) (vs2 : BitVec 5) (mask : BitVec 3) (conv : Bool) (scalar : Bool) (ty : BitVec 2)
  /-- R127. -/
  | vwaddz (vd : BitVec 5) (vs1 : BitVec 5) (vs2 : BitVec 5) (mask : BitVec 3) (conv : Bool) (scalar : Bool) (ty : BitVec 2)
  /-- R127. -/
  | vwsub (vd : BitVec 5) (vs1 : BitVec 5) (vs2 : BitVec 5) (mask : BitVec 3) (conv : Bool) (scalar : Bool) (ty : BitVec 2)
  /-- R127. -/
  | vwsubz (vd : BitVec 5) (vs1 : BitVec 5) (vs2 : BitVec 5) (mask : BitVec 3) (conv : Bool) (scalar : Bool) (ty : BitVec 2)
  /-- R127. -/
  | vext (vd : BitVec 5) (vs1 : BitVec 5) (mask : BitVec 3) (conv : Bool) (ty : BitVec 2)
  /-- R127. -/
  | vextz (vd : BitVec 5) (vs1 : BitVec 5) (mask : BitVec 3) (conv : Bool) (ty : BitVec 2)
  /-- R127. -/
  | vnarrow (vd : BitVec 5) (vs1 : BitVec 5) (mask : BitVec 3) (conv : Bool) (ty : BitVec 2)
  /-- R127. -/
  | vnsat (vd : BitVec 5) (vs1 : BitVec 5) (mask : BitVec 3) (conv : Bool) (ty : BitVec 2)
  /-- R127. -/
  | vnsatz (vd : BitVec 5) (vs1 : BitVec 5) (mask : BitVec 3) (conv : Bool) (ty : BitVec 2)
  /-- R127. -/
  | vnclampz (vd : BitVec 5) (vs1 : BitVec 5) (mask : BitVec 3) (conv : Bool) (ty : BitVec 2)
  /-- R126. -/
  | vmul (vd : BitVec 5) (vs1 : BitVec 5) (vs2 : BitVec 5) (mask : BitVec 3) (conv : Bool) (scalar : Bool) (ty : BitVec 2)
  /-- R126. -/
  | vmulh (vd : BitVec 5) (vs1 : BitVec 5) (vs2 : BitVec 5) (mask : BitVec 3) (conv : Bool) (scalar : Bool) (ty : BitVec 2)
  /-- R126. -/
  | vmulhz (vd : BitVec 5) (vs1 : BitVec 5) (vs2 : BitVec 5) (mask : BitVec 3) (conv : Bool) (scalar : Bool) (ty : BitVec 2)
  /-- R126. -/
  | vdiv (vd : BitVec 5) (vs1 : BitVec 5) (vs2 : BitVec 5) (mask : BitVec 3) (conv : Bool) (scalar : Bool) (ty : BitVec 2)
  /-- R126. -/
  | vdivz (vd : BitVec 5) (vs1 : BitVec 5) (vs2 : BitVec 5) (mask : BitVec 3) (conv : Bool) (scalar : Bool) (ty : BitVec 2)
  /-- R126. -/
  | vrem (vd : BitVec 5) (vs1 : BitVec 5) (vs2 : BitVec 5) (mask : BitVec 3) (conv : Bool) (scalar : Bool) (ty : BitVec 2)
  /-- R126. -/
  | vremz (vd : BitVec 5) (vs1 : BitVec 5) (vs2 : BitVec 5) (mask : BitVec 3) (conv : Bool) (scalar : Bool) (ty : BitVec 2)
  /-- R126. -/
  | vwmul (vd : BitVec 5) (vs1 : BitVec 5) (vs2 : BitVec 5) (mask : BitVec 3) (conv : Bool) (scalar : Bool) (ty : BitVec 2)
  /-- R126. -/
  | vwmulz (vd : BitVec 5) (vs1 : BitVec 5) (vs2 : BitVec 5) (mask : BitVec 3) (conv : Bool) (scalar : Bool) (ty : BitVec 2)
  /-- R126. -/
  | vand (vd : BitVec 5) (vs1 : BitVec 5) (vs2 : BitVec 5) (mask : BitVec 3) (conv : Bool) (scalar : Bool) (ty : BitVec 2)
  /-- R126. -/
  | vor (vd : BitVec 5) (vs1 : BitVec 5) (vs2 : BitVec 5) (mask : BitVec 3) (conv : Bool) (scalar : Bool) (ty : BitVec 2)
  /-- R126. -/
  | vxor (vd : BitVec 5) (vs1 : BitVec 5) (vs2 : BitVec 5) (mask : BitVec 3) (conv : Bool) (scalar : Bool) (ty : BitVec 2)
  /-- R126. -/
  | vandn (vd : BitVec 5) (vs1 : BitVec 5) (vs2 : BitVec 5) (mask : BitVec 3) (conv : Bool) (scalar : Bool) (ty : BitVec 2)
  /-- R126. -/
  | vsll (vd : BitVec 5) (vs1 : BitVec 5) (vs2 : BitVec 5) (mask : BitVec 3) (conv : Bool) (scalar : Bool) (ty : BitVec 2)
  /-- R126. -/
  | vsrl (vd : BitVec 5) (vs1 : BitVec 5) (vs2 : BitVec 5) (mask : BitVec 3) (conv : Bool) (scalar : Bool) (ty : BitVec 2)
  /-- R126. -/
  | vsra (vd : BitVec 5) (vs1 : BitVec 5) (vs2 : BitVec 5) (mask : BitVec 3) (conv : Bool) (scalar : Bool) (ty : BitVec 2)
  /-- R126. -/
  | vror (vd : BitVec 5) (vs1 : BitVec 5) (vs2 : BitVec 5) (mask : BitVec 3) (conv : Bool) (scalar : Bool) (ty : BitVec 2)
  /-- R129. -/
  | vseq (vd : BitVec 3) (vs1 : BitVec 5) (vs2 : BitVec 5) (mask : BitVec 3) (conv : Bool) (scalar : Bool) (ty : BitVec 2)
  /-- R129. -/
  | vsne (vd : BitVec 3) (vs1 : BitVec 5) (vs2 : BitVec 5) (mask : BitVec 3) (conv : Bool) (scalar : Bool) (ty : BitVec 2)
  /-- R129. -/
  | vslt (vd : BitVec 3) (vs1 : BitVec 5) (vs2 : BitVec 5) (mask : BitVec 3) (conv : Bool) (scalar : Bool) (ty : BitVec 2)
  /-- R129. -/
  | vsltz (vd : BitVec 3) (vs1 : BitVec 5) (vs2 : BitVec 5) (mask : BitVec 3) (conv : Bool) (scalar : Bool) (ty : BitVec 2)
  /-- R129. -/
  | vsle (vd : BitVec 3) (vs1 : BitVec 5) (vs2 : BitVec 5) (mask : BitVec 3) (conv : Bool) (scalar : Bool) (ty : BitVec 2)
  /-- R129. -/
  | vslez (vd : BitVec 3) (vs1 : BitVec 5) (vs2 : BitVec 5) (mask : BitVec 3) (conv : Bool) (scalar : Bool) (ty : BitVec 2)
  /-- R129. -/
  | vsgt (vd : BitVec 3) (vs1 : BitVec 5) (vs2 : BitVec 5) (mask : BitVec 3) (conv : Bool) (scalar : Bool) (ty : BitVec 2)
  /-- R129. -/
  | vsgtz (vd : BitVec 3) (vs1 : BitVec 5) (vs2 : BitVec 5) (mask : BitVec 3) (conv : Bool) (scalar : Bool) (ty : BitVec 2)
  /-- R130. -/
  | mand (vd : BitVec 3) (vs1 : BitVec 3) (vs2 : BitVec 3) (conv : Bool)
  /-- R130. -/
  | mor (vd : BitVec 3) (vs1 : BitVec 3) (vs2 : BitVec 3) (conv : Bool)
  /-- R130. -/
  | mxor (vd : BitVec 3) (vs1 : BitVec 3) (vs2 : BitVec 3) (conv : Bool)
  /-- R130. -/
  | mandn (vd : BitVec 3) (vs1 : BitVec 3) (vs2 : BitVec 3) (conv : Bool)
  /-- R130. -/
  | mnot (vd : BitVec 3) (vs1 : BitVec 3) (conv : Bool)
  /-- R130. -/
  | mset (vd : BitVec 3) (conv : Bool)
  /-- R130. -/
  | mclr (vd : BitVec 3) (conv : Bool)
  /-- R130. -/
  | mpop (vd : BitVec 5) (vs1 : BitVec 3) (conv : Bool)
  /-- R130. -/
  | mfirst (vd : BitVec 5) (vs1 : BitVec 3) (conv : Bool)
  /-- R130. -/
  | vmerge (vd : BitVec 5) (vs1 : BitVec 5) (vs2 : BitVec 5) (mask : BitVec 3) (conv : Bool) (scalar : Bool) (ty : BitVec 2)
  /-- R131. -/
  | vfadd (vd : BitVec 5) (vs1 : BitVec 5) (vs2 : BitVec 5) (mask : BitVec 3) (conv : Bool) (scalar : Bool) (ty : BitVec 2)
  /-- R131. -/
  | vfsub (vd : BitVec 5) (vs1 : BitVec 5) (vs2 : BitVec 5) (mask : BitVec 3) (conv : Bool) (scalar : Bool) (ty : BitVec 2)
  /-- R131. -/
  | vfrsub (vd : BitVec 5) (vs1 : BitVec 5) (vs2 : BitVec 5) (mask : BitVec 3) (conv : Bool) (scalar : Bool) (ty : BitVec 2)
  /-- R131. -/
  | vfmul (vd : BitVec 5) (vs1 : BitVec 5) (vs2 : BitVec 5) (mask : BitVec 3) (conv : Bool) (scalar : Bool) (ty : BitVec 2)
  /-- R131. -/
  | vfdiv (vd : BitVec 5) (vs1 : BitVec 5) (vs2 : BitVec 5) (mask : BitVec 3) (conv : Bool) (scalar : Bool) (ty : BitVec 2)
  /-- R131. -/
  | vfrdiv (vd : BitVec 5) (vs1 : BitVec 5) (vs2 : BitVec 5) (mask : BitVec 3) (conv : Bool) (scalar : Bool) (ty : BitVec 2)
  /-- R131. -/
  | vfsqrt (vd : BitVec 5) (vs1 : BitVec 5) (mask : BitVec 3) (conv : Bool) (ty : BitVec 2)
  /-- R131. -/
  | vfmin (vd : BitVec 5) (vs1 : BitVec 5) (vs2 : BitVec 5) (mask : BitVec 3) (conv : Bool) (scalar : Bool) (ty : BitVec 2)
  /-- R131. -/
  | vfmax (vd : BitVec 5) (vs1 : BitVec 5) (vs2 : BitVec 5) (mask : BitVec 3) (conv : Bool) (scalar : Bool) (ty : BitVec 2)
  /-- R131. -/
  | vfsgnj (vd : BitVec 5) (vs1 : BitVec 5) (vs2 : BitVec 5) (mask : BitVec 3) (conv : Bool) (scalar : Bool) (ty : BitVec 2)
  /-- R131. -/
  | vfsgnjn (vd : BitVec 5) (vs1 : BitVec 5) (vs2 : BitVec 5) (mask : BitVec 3) (conv : Bool) (scalar : Bool) (ty : BitVec 2)
  /-- R131. -/
  | vfsgnjx (vd : BitVec 5) (vs1 : BitVec 5) (vs2 : BitVec 5) (mask : BitVec 3) (conv : Bool) (scalar : Bool) (ty : BitVec 2)
  /-- R132. -/
  | vfmac (vd : BitVec 5) (vs1 : BitVec 5) (vs2 : BitVec 5) (vs3 : BitVec 5) (mask : BitVec 2) (conv : Bool) (bf16 : Bool)
  /-- R132. -/
  | vfmsc (vd : BitVec 5) (vs1 : BitVec 5) (vs2 : BitVec 5) (vs3 : BitVec 5) (mask : BitVec 2) (conv : Bool) (bf16 : Bool)
  /-- R132. -/
  | vfnmac (vd : BitVec 5) (vs1 : BitVec 5) (vs2 : BitVec 5) (vs3 : BitVec 5) (mask : BitVec 2) (conv : Bool) (bf16 : Bool)
  /-- R132. -/
  | vfnmsc (vd : BitVec 5) (vs1 : BitVec 5) (vs2 : BitVec 5) (vs3 : BitVec 5) (mask : BitVec 2) (conv : Bool) (bf16 : Bool)
  /-- R128. -/
  | vmac (vd : BitVec 5) (vs1 : BitVec 5) (vs2 : BitVec 5) (vs3 : BitVec 5) (mask : BitVec 2) (conv : Bool)
  /-- R128. -/
  | vnmac (vd : BitVec 5) (vs1 : BitVec 5) (vs2 : BitVec 5) (vs3 : BitVec 5) (mask : BitVec 2) (conv : Bool)
  /-- R128. -/
  | vwmac (vd : BitVec 5) (vs1 : BitVec 5) (vs2 : BitVec 5) (vs3 : BitVec 5) (mask : BitVec 2) (conv : Bool)
  /-- R128. -/
  | vwmacz (vd : BitVec 5) (vs1 : BitVec 5) (vs2 : BitVec 5) (vs3 : BitVec 5) (mask : BitVec 2) (conv : Bool)
  /-- R128. -/
  | vdot4 (vd : BitVec 5) (vs1 : BitVec 5) (vs2 : BitVec 5) (vs3 : BitVec 5) (mask : BitVec 2) (conv : Bool)
  /-- R128. -/
  | vdot4z (vd : BitVec 5) (vs1 : BitVec 5) (vs2 : BitVec 5) (vs3 : BitVec 5) (mask : BitVec 2) (conv : Bool)
  /-- R133. -/
  | vfeq (vd : BitVec 3) (vs1 : BitVec 5) (vs2 : BitVec 5) (mask : BitVec 3) (conv : Bool) (scalar : Bool) (ty : BitVec 2)
  /-- R133. -/
  | vfne (vd : BitVec 3) (vs1 : BitVec 5) (vs2 : BitVec 5) (mask : BitVec 3) (conv : Bool) (scalar : Bool) (ty : BitVec 2)
  /-- R133. -/
  | vflt (vd : BitVec 3) (vs1 : BitVec 5) (vs2 : BitVec 5) (mask : BitVec 3) (conv : Bool) (scalar : Bool) (ty : BitVec 2)
  /-- R133. -/
  | vfle (vd : BitVec 3) (vs1 : BitVec 5) (vs2 : BitVec 5) (mask : BitVec 3) (conv : Bool) (scalar : Bool) (ty : BitVec 2)
  /-- R133. -/
  | vfgt (vd : BitVec 3) (vs1 : BitVec 5) (vs2 : BitVec 5) (mask : BitVec 3) (conv : Bool) (scalar : Bool) (ty : BitVec 2)
  /-- R133. -/
  | vfge (vd : BitVec 3) (vs1 : BitVec 5) (vs2 : BitVec 5) (mask : BitVec 3) (conv : Bool) (scalar : Bool) (ty : BitVec 2)
  /-- R133. -/
  | vfclass (vd : BitVec 5) (vs1 : BitVec 5) (mask : BitVec 3) (conv : Bool) (ty : BitVec 2)
  /-- R134. -/
  | vcvt (vd : BitVec 5) (vs1 : BitVec 5) (mask : BitVec 3) (conv : Bool) (alt : Bool) (src : BitVec 3) (dst : BitVec 3)
  /-- R135. -/
  | vbsq (vd : BitVec 5) (vs1 : BitVec 5) (vs3 : BitVec 5) (mask : BitVec 2) (conv : Bool) (fmt : BitVec 2)
  /-- R135. -/
  | vbsdq (vd : BitVec 5) (vs1 : BitVec 5) (vs3 : BitVec 5) (mask : BitVec 2) (conv : Bool) (fmt : BitVec 2)
  /-- R136. -/
  | vslideup (vd : BitVec 5) (vs1 : BitVec 5) (vs2 : BitVec 5) (mask : BitVec 3) (conv : Bool) (ty : BitVec 2)
  /-- R136. -/
  | vslidedown (vd : BitVec 5) (vs1 : BitVec 5) (vs2 : BitVec 5) (mask : BitVec 3) (conv : Bool) (ty : BitVec 2)
  /-- R136. -/
  | vrgather (vd : BitVec 5) (vs1 : BitVec 5) (vs2 : BitVec 5) (mask : BitVec 3) (conv : Bool) (scalar : Bool) (ty : BitVec 2)
  /-- R136. -/
  | vcompress (vd : BitVec 5) (vs1 : BitVec 5) (mask : BitVec 3) (conv : Bool) (ty : BitVec 2)
  /-- R136. -/
  | vrowbc (vd : BitVec 5) (vs1 : BitVec 5) (vs2 : BitVec 5) (mask : BitVec 3) (conv : Bool) (ty : BitVec 2)
  /-- R137. -/
  | vredsum (vd : BitVec 5) (vs1 : BitVec 5) (vs2 : BitVec 5) (mask : BitVec 3) (conv : Bool) (toX : Bool) (perRow : Bool)
  /-- R137. -/
  | vredmin (vd : BitVec 5) (vs1 : BitVec 5) (vs2 : BitVec 5) (mask : BitVec 3) (conv : Bool) (toX : Bool) (perRow : Bool)
  /-- R137. -/
  | vredminz (vd : BitVec 5) (vs1 : BitVec 5) (vs2 : BitVec 5) (mask : BitVec 3) (conv : Bool) (toX : Bool) (perRow : Bool)
  /-- R137. -/
  | vredmax (vd : BitVec 5) (vs1 : BitVec 5) (vs2 : BitVec 5) (mask : BitVec 3) (conv : Bool) (toX : Bool) (perRow : Bool)
  /-- R137. -/
  | vredmaxz (vd : BitVec 5) (vs1 : BitVec 5) (vs2 : BitVec 5) (mask : BitVec 3) (conv : Bool) (toX : Bool) (perRow : Bool)
  /-- R72. -/
  | vfredo (vd : BitVec 5) (vs1 : BitVec 5) (vs2 : BitVec 5) (mask : BitVec 3) (conv : Bool)
  /-- R72. -/
  | vfredoBf16 (vd : BitVec 5) (vs1 : BitVec 5) (vs2 : BitVec 5) (mask : BitVec 3) (conv : Bool)
  /-- R73. -/
  | vfredt (vd : BitVec 5) (vs1 : BitVec 5) (vs2 : BitVec 5) (mask : BitVec 3) (conv : Bool) (toX : Bool) (perRow : Bool)
  /-- R73. -/
  | vfredtBf16 (vd : BitVec 5) (vs1 : BitVec 5) (vs2 : BitVec 5) (mask : BitVec 3) (conv : Bool) (toX : Bool) (perRow : Bool)
  /-- R137. -/
  | vfredmin (vd : BitVec 5) (vs1 : BitVec 5) (vs2 : BitVec 5) (mask : BitVec 3) (conv : Bool) (toX : Bool) (perRow : Bool)
  /-- R137. -/
  | vfredminBf16 (vd : BitVec 5) (vs1 : BitVec 5) (vs2 : BitVec 5) (mask : BitVec 3) (conv : Bool) (toX : Bool) (perRow : Bool)
  /-- R137. -/
  | vfredmax (vd : BitVec 5) (vs1 : BitVec 5) (vs2 : BitVec 5) (mask : BitVec 3) (conv : Bool) (toX : Bool) (perRow : Bool)
  /-- R137. -/
  | vfredmaxBf16 (vd : BitVec 5) (vs1 : BitVec 5) (vs2 : BitVec 5) (mask : BitVec 3) (conv : Bool) (toX : Bool) (perRow : Bool)
  /-- R138. -/
  | vexit (vd : BitVec 5) (vs1 : BitVec 3) (conv : Bool)
  /-- R139. -/
  | lsplit (rs1 : BitVec 5) (rs2 : BitVec 5) (mask : BitVec 3)
  /-- R141. -/
  | ljoin
  /-- R156. -/
  | vld (vd : BitVec 5) (base : BitVec 5) (idx : BitVec 5) (token : BitVec 3) (orient : Bool) (conv : Bool) (mask : BitVec 3) (width : BitVec 2)
  /-- R161. -/
  | vldCw (vd : BitVec 5) (base : BitVec 5) (idx : BitVec 5) (token : BitVec 3) (orient : Bool) (conv : Bool) (chunk : BitVec 3) (width : BitVec 2)
  /-- R156. -/
  | vldIndexed (vd : BitVec 5) (base : BitVec 5) (idx : BitVec 5) (token : BitVec 3) (orient : Bool) (conv : Bool) (mask : BitVec 3) (width : BitVec 2)
  /-- R161. -/
  | vldIndexedCw (vd : BitVec 5) (base : BitVec 5) (idx : BitVec 5) (token : BitVec 3) (orient : Bool) (conv : Bool) (chunk : BitVec 3) (width : BitVec 2)
  /-- R157. -/
  | vst (vs : BitVec 5) (base : BitVec 5) (idx : BitVec 5) (token : BitVec 3) (orient : Bool) (conv : Bool) (mask : BitVec 3) (unord : Bool) (width : BitVec 2)
  /-- R160. -/
  | vstm (vs : BitVec 5) (base : BitVec 5) (idx : BitVec 5) (token : BitVec 3) (conv : Bool) (mask : BitVec 3) (unord : Bool) (width : BitVec 2)
  /-- R157. -/
  | vstIndexed (vs : BitVec 5) (base : BitVec 5) (idx : BitVec 5) (token : BitVec 3) (orient : Bool) (conv : Bool) (mask : BitVec 3) (unord : Bool) (width : BitVec 2)
  /-- R160. -/
  | vstmIndexed (vs : BitVec 5) (base : BitVec 5) (idx : BitVec 5) (token : BitVec 3) (conv : Bool) (mask : BitVec 3) (unord : Bool) (width : BitVec 2)
  /-- R164. -/
  | vamoaddW (vs : BitVec 5) (base : BitVec 5) (idx : BitVec 5) (token : BitVec 3) (conv : Bool) (mask : BitVec 3)
  /-- R164. -/
  | vamoaddD (vs : BitVec 5) (base : BitVec 5) (idx : BitVec 5) (token : BitVec 3) (conv : Bool) (mask : BitVec 3)
  /-- R164. -/
  | vamominW (vs : BitVec 5) (base : BitVec 5) (idx : BitVec 5) (token : BitVec 3) (conv : Bool) (mask : BitVec 3)
  /-- R164. -/
  | vamomaxW (vs : BitVec 5) (base : BitVec 5) (idx : BitVec 5) (token : BitVec 3) (conv : Bool) (mask : BitVec 3)
  /-- R164. -/
  | vamoaddF32 (vs : BitVec 5) (base : BitVec 5) (idx : BitVec 5) (token : BitVec 3) (conv : Bool) (mask : BitVec 3)
  /-- R162. -/
  | vamoaddF16 (vs : BitVec 5) (base : BitVec 5) (idx : BitVec 5) (token : BitVec 3) (orient : Bool) (conv : Bool) (mask : BitVec 3)
  /-- R162. -/
  | vamoaddBf16 (vs : BitVec 5) (base : BitVec 5) (idx : BitVec 5) (token : BitVec 3) (orient : Bool) (conv : Bool) (mask : BitVec 3)
  /-- R165. -/
  | vamoaddWDup (vs : BitVec 5) (base : BitVec 5) (idx : BitVec 5) (token : BitVec 3) (conv : Bool) (mask : BitVec 3)
  /-- R165. -/
  | vamoaddDDup (vs : BitVec 5) (base : BitVec 5) (idx : BitVec 5) (token : BitVec 3) (conv : Bool) (mask : BitVec 3)
  /-- R165. -/
  | vamominWDup (vs : BitVec 5) (base : BitVec 5) (idx : BitVec 5) (token : BitVec 3) (conv : Bool) (mask : BitVec 3)
  /-- R165. -/
  | vamomaxWDup (vs : BitVec 5) (base : BitVec 5) (idx : BitVec 5) (token : BitVec 3) (conv : Bool) (mask : BitVec 3)
  /-- R165. -/
  | vamoaddF32Dup (vs : BitVec 5) (base : BitVec 5) (idx : BitVec 5) (token : BitVec 3) (conv : Bool) (mask : BitVec 3)
  /-- R165. -/
  | vamoaddF16Dup (vs : BitVec 5) (base : BitVec 5) (idx : BitVec 5) (token : BitVec 3) (orient : Bool) (conv : Bool) (mask : BitVec 3)
  /-- R165. -/
  | vamoaddBf16Dup (vs : BitVec 5) (base : BitVec 5) (idx : BitVec 5) (token : BitVec 3) (orient : Bool) (conv : Bool) (mask : BitVec 3)
  /-- R147. -/
  | vpin (perm : BitVec 3) (base : BitVec 5) (len : BitVec 5) (token : BitVec 3)
  /-- R148. -/
  | vunpin (token : BitVec 3)
  /-- R166. -/
  | vspill (vs : BitVec 5) (base : BitVec 5) (kind : BitVec 5) (token : BitVec 3) (conv : Bool)
  /-- R166. -/
  | vfill (vd : BitVec 5) (base : BitVec 5) (kind : BitVec 5) (token : BitVec 3) (conv : Bool)
  /-- R174. -/
  | mmul (vc : BitVec 5) (va : BitVec 5) (vb : BitVec 5) (fmt : BitVec 5) (fromSp : Bool) (orient : Bool) (conv : Bool)
  /-- R174. -/
  | mmulz (vc : BitVec 5) (va : BitVec 5) (vb : BitVec 5) (fmt : BitVec 5) (fromSp : Bool) (orient : Bool) (conv : Bool)
  /-- R174. -/
  | mmulBs (vc : BitVec 5) (va : BitVec 5) (vb : BitVec 5) (fmt : BitVec 5) (fromSp : Bool) (orient : Bool) (conv : Bool)
  /-- R174. -/
  | mmulzBs (vc : BitVec 5) (va : BitVec 5) (vb : BitVec 5) (fmt : BitVec 5) (fromSp : Bool) (orient : Bool) (conv : Bool)
  /-- R179. -/
  | mzero (vc : BitVec 5) (fmt : BitVec 5) (conv : Bool)
  /-- R180. -/
  | mcvt (vc : BitVec 5) (vd : BitVec 5) (fmt : BitVec 5) (conv : Bool)
  /-- R180. -/
  | mcvtSr (vc : BitVec 5) (vd : BitVec 5) (fmt : BitVec 5) (conv : Bool)
  /-- R182. -/
  | mdrain (vc : BitVec 5) (xc : BitVec 5) (xm : BitVec 5) (fmt : BitVec 5) (conv : Bool)
  /-- R182. -/
  | mdrainz (vc : BitVec 5) (xc : BitVec 5) (xm : BitVec 5) (fmt : BitVec 5) (conv : Bool)
  /-- R189. -/
  | msend (xo : BitVec 5) (xc : BitVec 5) (xm : BitVec 5)
  /-- R189. -/
  | mput (xv : BitVec 5) (xc : BitVec 5) (xm : BitVec 5) (width : BitVec 2)
  /-- R189. -/
  | mwake (xc : BitVec 5) (xm : BitVec 5)
  /-- R192. -/
  | mwait (rd : BitVec 5) (xe : BitVec 5) (tag : BitVec 5)
  /-- R192. -/
  | mcount (rd : BitVec 5) (tag : BitVec 5)
  /-- R194. -/
  | locq (rd : BitVec 5) (xc : BitVec 5)
  /-- R198. -/
  | scopyin (rd : BitVec 5) (xa : BitVec 5) (xp : BitVec 5) (mask : BitVec 3) (ch : BitVec 2)
  /-- R198. -/
  | scopyout (rd : BitVec 5) (xa : BitVec 5) (xp : BitVec 5) (mask : BitVec 3) (ch : BitVec 2)
  /-- R197. -/
  | scopy2inRow (rd : BitVec 5) (xa : BitVec 5) (xp : BitVec 5) (mask : BitVec 3) (ch : BitVec 2)
  /-- R197. -/
  | scopy2inCol (rd : BitVec 5) (xa : BitVec 5) (xp : BitVec 5) (mask : BitVec 3) (ch : BitVec 2)
  /-- R197. -/
  | scopy2outRow (rd : BitVec 5) (xa : BitVec 5) (xp : BitVec 5) (mask : BitVec 3) (ch : BitVec 2)
  /-- R197. -/
  | scopy2outCol (rd : BitVec 5) (xa : BitVec 5) (xp : BitVec 5) (mask : BitVec 3) (ch : BitVec 2)
  /-- R200. -/
  | scopyr (rd : BitVec 5) (xc : BitVec 5) (xp : BitVec 5) (ch : BitVec 2)
  /-- R197. -/
  | sgatherRow (rd : BitVec 5) (vi : BitVec 5) (xp : BitVec 5) (mask : BitVec 3) (ch : BitVec 2)
  /-- R197. -/
  | sgatherCol (rd : BitVec 5) (vi : BitVec 5) (xp : BitVec 5) (mask : BitVec 3) (ch : BitVec 2)
  /-- R201. -/
  | swait (rd : BitVec 5) (xt : BitVec 5) (ch : BitVec 2)
  /-- R201. -/
  | sfault (rd : BitVec 5) (xs : BitVec 5)
  /-- R201. -/
  | sreplay (rd : BitVec 5) (xt : BitVec 5) (ch : BitVec 2)
  /-- R204. -/
  | warrive (chan : BitVec 4)
  /-- R204. -/
  | wwait (chan : BitVec 4)
  /-- R204. -/
  | wtest (rd : BitVec 5) (chan : BitVec 4)
  /-- R205. -/
  | tend
  /-- R206. -/
  | thold (xv : BitVec 5) (xc : BitVec 5) (xs : BitVec 5)
  /-- R206. -/
  | tready (xv : BitVec 5) (xc : BitVec 5) (xs : BitVec 5)
  /-- R206. -/
  | tenable (xv : BitVec 5) (xc : BitVec 5) (xs : BitVec 5)
  /-- R207. -/
  | tpost (xs : BitVec 5) (xp : BitVec 5)
  /-- R208. -/
  | glaunch (rd : BitVec 5) (xs : BitVec 5)
  /-- R209. -/
  | wreserve (rd : BitVec 5) (xq : BitVec 5) (xn : BitVec 5)
  /-- R210. -/
  | wcommit (xq : BitVec 5) (xi : BitVec 5)
  /-- R217. -/
  | qpush (vs1 : BitVec 5) (xs2 : BitVec 5) (mask : BitVec 3) (conv : Bool)
  /-- R218. -/
  | qend (xs2 : BitVec 5)
  /-- R219. -/
  | pxlock (vs1 : BitVec 5) (xs2 : BitVec 5) (mask : BitVec 3) (conv : Bool)
  /-- R221. -/
  | pxunlock (vs1 : BitVec 5) (mask : BitVec 3) (conv : Bool)
  /-- R222. -/
  | pxskip (vs1 : BitVec 5) (xs2 : BitVec 5) (mask : BitVec 3) (conv : Bool)
  /-- R225. -/
  | tsample (vd : BitVec 5) (vs1 : BitVec 5) (xs2 : BitVec 5) (mask : BitVec 3) (conv : Bool) (token : BitVec 3)
  /-- R225. -/
  | tsampleLod (vd : BitVec 5) (vs1 : BitVec 5) (xs2 : BitVec 5) (mask : BitVec 3) (conv : Bool) (token : BitVec 3)
  /-- R229. -/
  | rquery (vd : BitVec 5) (vs1 : BitVec 5) (xs2 : BitVec 5) (mask : BitVec 3) (conv : Bool) (token : BitVec 3)
  /-- R229. -/
  | rqueryAny (vd : BitVec 5) (vs1 : BitVec 5) (xs2 : BitVec 5) (mask : BitVec 3) (conv : Bool) (token : BitVec 3)
  /-- R231. -/
  | sget (rd : BitVec 5) (num : BitVec 12)
  /-- R231. -/
  | sput (rs1 : BitVec 5) (num : BitVec 12)
  /-- R232. -/
  | trap (num : BitVec 12)
  /-- R233. -/
  | sret
  /-- R233. -/
  | mret
  /-- R234. -/
  | ifence
  /-- R235. -/
  | cinv (rs1 : BitVec 5)
  /-- R235. -/
  | cinvall
  /-- R235. -/
  | cwb (rs1 : BitVec 5)
  /-- R235. -/
  | cwbinv (rs1 : BitVec 5)
  /-- R236. -/
  | halt
  /-- R232. -/
  | brk (num : BitVec 12)
  /-- R84. -/
  | illegalEncoding (word : BitVec 32)
  /-- R241. -/
  | hartStateMachineCheck (hart : Nat) (coreState : Bool)
  /-- R263. -/
  | taskStart (core : Nat)
  /-- R268. -/
  | budgetExpiry (hart : Nat)
  /-- R271. -/
  | freezeMarkArrival (core : Nat) (peer : BitVec 32) (mark : Bool)
  /-- R273. -/
  | coreCompleteReport (core : Nat)
  /-- R274. -/
  | runAheadStart (core : Nat)
  /-- R278. -/
  | ownerReserve (basin : Nat)
  /-- R190. -/
  | messageDelivery (i : Nat)
  /-- R183. -/
  | drainDelivery (i : Nat)
  /-- R200. -/
  | scopyrPartDelivery (i : Nat)
  /-- R206. -/
  | taskBitMessage (i : Nat)
  /-- R194. -/
  | locqQuery (src dst : BitVec 32)
  /-- R194. -/
  | locqReply (hart : Nat) (value : BitVec 64)
  /-- R319. -/
  | fragmentArrival (die path : Nat) (f : Fragment)
  /-- R319. -/
  | reassemblyTimerExpiry (die peer : Nat) (seq : BitVec 32)
  /-- R319. -/
  | decodedPacketAccepted (die peer : Nat) (seq : BitVec 32)
  /-- R321. -/
  | sprayAck (die peer : Nat) (ack lostmap : BitVec 32)
  /-- R321. -/
  | sprayRequest (die peer : Nat) (seq : BitVec 32) (groups : List Nat)
  /-- R320. -/
  | sprayProbe (die peer : Nat) (next : BitVec 32)
  /-- R321. -/
  | probeIntervalExpiry (die peer : Nat)
  /-- R203. -/
  | weirBroadcast (chan core : Nat)
  /-- R198. -/
  | sluiceChunk (core ch : Nat) (id : BitVec 32) (chunk : Nat)
  /-- R393. -/
  | prgResponse (i : Nat) (success : Bool)
  /-- R393. -/
  | pageRequestTimeout (i : Nat)
  /-- R392. -/
  | atsInvalidate (pasid : BitVec 20) (page : Nat)
  /-- R328. -/
  | frameOpen (basin : Nat)
  /-- R329. -/
  | binRecord (basin : Nat)
  /-- R328. -/
  | qendMarkArrival (basin : Nat)
  /-- R331. -/
  | tileResolve (basin : Nat)
  /-- R334. -/
  | tileNotification (basin core : Nat)
  /-- R328. -/
  | frameComplete (basin : Nat)
  /-- R336. -/
  | pixelLockGrant (basin x y : Nat)
  /-- R362. -/
  | ctxActivate (ctx : Nat)
  /-- R382. -/
  | ctxSave (ctx : Nat)
  /-- R382. -/
  | saveRecordWrite (core : Nat)
  /-- R384. -/
  | ctxRestore (ctx : Nat)
  /-- R362. -/
  | ctxRelease (ctx : Nat)
  /-- R362. -/
  | ctxInvalidCommand (ctx : Nat) (cmd : BitVec 3)
  /-- R370. -/
  | queueEnable (queue : Nat)
  /-- R372. -/
  | queueDisable (queue : Nat)
  /-- R371. -/
  | doorbell (queue : Nat) (wr : BitVec 32)
  /-- R377. -/
  | qerrClear (queue : Nat)
  /-- R379. -/
  | gangLaunchPacket (queue : Nat)
  /-- R326. -/
  | framePacket (queue : Nat)
  /-- R376. -/
  | indirectPacket (queue : Nat)
  /-- R375. -/
  | signalPacket (queue : Nat)
  /-- R378. -/
  | loadPacket (queue : Nat)
  /-- R369. -/
  | shootdownPacket (queue : Nat)
  /-- R375. -/
  | launchCompletion (id : Nat)
  /-- R381. -/
  | poolDispatch (ctx entry : Nat)
  /-- R397. -/
  | hostDeviceMemoryAccess (a : HostAccess)
  /-- R395. -/
  | hostAtomicCompleter (a : HostAtomic)
  /-- R389. -/
  | hostBar0AccessError (offset size : Nat)
  /-- R391. -/
  | hostSnoop (addr : Nat)
  /-- R398. -/
  | biasFlipGo (toHost : Bool) (count : BitVec 16)
  /-- R399. -/
  | biasPageFlip
  /-- R396. -/
  | postAreaScan (ctx slot : Nat)
  /-- R406. -/
  | functionLevelReset
  /-- R406. -/
  | hotReset
  /-- R449. -/
  | powerOn
  /-- R473. -/
  | standbyEntry
  /-- R475. -/
  | standbyExit (results : List (Nat × BitVec 16))
  /-- R419. -/
  | correctedError (site : Nat) (src : BitVec 4) (loc : BitVec 24)
  /-- R419. -/
  | leakTick (site : Nat)
  /-- R417. -/
  | patrolScrub (target : ScrubTarget) (found : ScrubFinding)
  /-- R417. -/
  | basinHeartbeat (basin : Nat) (missed : Bool)
  /-- R417. -/
  | agentFailed (cistern : Bool) (n : Nat)
  /-- R422. -/
  | fatalSequence (ctx : Nat)
  /-- R426. -/
  | siphonHold (die : Nat)
  /-- R426. -/
  | siphonCopy (die : Nat)
  /-- R426. -/
  | siphonState (die : Nat)
  /-- R426. -/
  | siphonFlip (die : Nat)
  /-- R426. -/
  | siphonRelease (die : Nat)
  /-- R429. -/
  | siphonAbort (die : Nat) (why : AbortReason)
  /-- R432. -/
  | waitCycleWalk (hart : Nat)
  /-- R433. -/
  | waitCycleConfirm (i : Nat)
  /-- R435. -/
  | scanSite (site : Nat) (pkg : ScanPackage)
  /-- R436. -/
  | linkFlitCrcDrop (die path : Nat)
  /-- R436. -/
  | pathLeakTick (die path : Nat)
  /-- R466. -/
  | pathRetrain (die path : Nat) (passed : Bool)
  /-- R439. -/
  | leaseHeartbeatSend (die : Nat)
  /-- R439. -/
  | leaseHeartbeatReceive (die sender : Nat) (term seq : BitVec 32)
  /-- R440. -/
  | leaseLapse (die : Nat)
  /-- R440. -/
  | leaseClaim (die candidate : Nat) (term : BitVec 32)
  /-- R449. -/
  | romSidebandTimeout (die : Nat)
  /-- R456. -/
  | selfTestComplete (die : Nat) (results : List (Nat × BitVec 16))
  /-- R457. -/
  | discoveryFlood (die : Nat)
  /-- R457. -/
  | discoveryReport (die site : Nat)
  /-- R457. -/
  | discoveryTimeout (die : Nat)
  /-- R459. -/
  | multicastGo (die : Nat) (len : BitVec 19) (offset : BitVec 18)
  /-- R459. -/
  | multicastAck (die site : Nat)
  /-- R459. -/
  | multicastTimeout (die : Nat)
  /-- R458. -/
  | siteasgWrite (site : Nat) (value : BitVec 64)
  /-- R460. -/
  | sitegoGo (site : Nat) (pc : BitVec 16)
  /-- R460. -/
  | sitegoClr (site : Nat)
  /-- R461. -/
  | ncevPop (basin : Nat)
  /-- R461. -/
  | ncpost (basin : Nat) (slot target : BitVec 32)
  /-- R463. -/
  | memoryTrainingStep (die : Nat) (far : Bool) (device : Nat) (o : TrainOutcome)
  /-- R466. -/
  | ucieTraining (die module : Nat) (passed : Bool)
  /-- R468. -/
  | fabricPortTraining (die port : Nat) (o : PortOutcome)
  /-- R469. -/
  | pcieTraining (o : PcieOutcome)
  /-- R467. -/
  | pkgidWrite (value : BitVec 16)
  /-- R467. -/
  | pkgidTimeout
  /-- R474. -/
  | powerWindow (watts : BitVec 16) (tj : BitVec 8)
  /-- R454. -/
  | spdmGetVersion
  /-- R454. -/
  | spdmGetCapabilities
  /-- R454. -/
  | spdmNegotiateAlgorithms
  /-- R454. -/
  | spdmGetDigests
  /-- R454. -/
  | spdmGetCertificate (slot : Nat)
  /-- R454. -/
  | spdmChallenge (slot : Nat) (nonce : List (BitVec 8))
  /-- R455. -/
  | spdmGetMeasurements (index : Nat)
  /-- R454. -/
  | spdmUnsupported (code : BitVec 8)
  /-- R12. -/
  | registerWrite (host : Bool) (addr size : Nat) (value : BitVec 64)
  /-- R439. -/
  | leaseHeartbeatAck (die follower : Nat) (term seq : BitVec 32)
  /-- R439. -/
  | leaderLeaseExpiry (die : Nat)
  /-- R440. -/
  | claimRetry (die : Nat)
  /-- R392. -/
  | hostWriteRefusal (core i : Nat)
  /-- R469. -/
  | configurationRequest (write : Bool) (offset : Nat) (value : BitVec 32)
  /-- R107. -/
  | storePerformed (core i : Nat)
  deriving DecidableEq, Repr

end Sys2Proof
end

