-- ==== Sys2Proof/Machine/State.lean ====
section
/-! DEFINITION. The machine's state as plain data, and its value after reset.

Sparse tables are keyed by number: a core by its site key (die × 1024 + 32 × prow + pcol), a basin controller by
4096 + basin, a cistern by 4160 + die; a hart by 8 × its agent's key + its hart number (R3, R6, R42).
An absent entry holds the reset value of its type. Register values the spec gives no reset for are zero (log 1). -/

namespace Sys2Proof.Machine

/-! ## Harts -/

/-- One page that a pin captured (R146). -/
structure PinPage where
  /-- First virtual address of the page. -/
  va : Nat
  /-- Bytes. -/
  size : Nat
  /-- First physical address of the page. -/
  pa : Nat
  /-- The replica attribute (R365). -/
  replica : Bool
  deriving DecidableEq, Repr

/-- A live pin of one token (R146, R147). -/
structure Pin where
  /-- First virtual address. -/
  base : Word
  /-- Bytes. -/
  len : Nat
  /-- R in bit 0, W in bit 1, A in bit 2. -/
  perms : BitVec 3
  /-- The page translations captured by `vpin`. -/
  pages : List PinPage
  /-- Shootdowns that wait for its release (R369). -/
  holds : List Nat
  deriving DecidableEq, Repr

/-- One member of the convoy in progress (R33 to R37). -/
structure Member where
  /-- Address of the instruction. -/
  addr : Word
  /-- Units claimed: permute network 0, scratchpad port 1, global memory port 2, matrix datapath 3, Sluice command
  port 4 (R36). -/
  units : BitVec 5
  /-- Vector registers written. -/
  vregs : List Nat
  /-- Mask registers written. -/
  mregs : List Nat
  deriving DecidableEq, Repr

/-- A vector-queue instruction refused because its units are claimed: its address, the level it ran at and the convoy it was refused in, so
that its re-execution after a return is refused again (R249, log 36). -/
structure Refused where
  addr : Word
  priv : BitVec 2
  members : List Member
  deriving DecidableEq, Repr

/-- The block-signature checker of a hart (R256, R257). -/
inductive Checker where
  /-- Compares nothing until the next `bsig`. -/
  | idle
  /-- Armed by the `bsig` word at `bsig`; `ended` after the block's end word has completed. -/
  | armed (bsig : Word) (expected running : BitVec 21) (ended : Bool)
  deriving DecidableEq, Repr

/-- What a hart is doing (R236, R263, R462). -/
inductive HartRun where
  /-- Free: no task. -/
  | free
  /-- Runs a task of a channel. -/
  | task (chan : BitVec 6)
  /-- Runs firmware or boot code outside any task. -/
  | firmware
  /-- Stopped by `halt`, or by a trap at M with `mtvec` = 0. -/
  | halted
  deriving DecidableEq, Repr

/-- `status` (R47), field by field; its reserved bits read zero. -/
structure Status where
  lthr : Bool
  sigen : Bool
  mmstrong : Bool
  spp : BitVec 2
  mpp : BitVec 2
  priv : BitVec 2
  deriving DecidableEq, Repr

/-- The shape and vector-position registers (R23, R26, R32, R44). -/
structure Shape where
  vl : BitVec 10
  vrows : BitVec 4
  sew : BitVec 3
  vstart : Word
  vstop : Word
  vslip : BitVec 4
  deriving DecidableEq, Repr

/-- The other user-level registers of a hart (R43, R45). -/
structure UserRegs where
  frm : BitVec 3
  fflags : BitVec 5
  srseed : BitVec 32
  cyc : Word
  deriving DecidableEq, Repr

/-- The registers trap entry and return use (R43, R47 to R49). -/
structure TrapRegs where
  status : Status
  cause : BitVec 9
  epc : Word
  tval : Word
  restart : Word
  tvec : Word
  sscratch : Word
  mcause : BitVec 9
  mepc : Word
  mtval : Word
  mtvec : Word
  mscratch : Word
  tdeleg : BitVec 11
  deriving DecidableEq, Repr

/-- The wait word and the watchdog of a hart (R267, R269). -/
structure WaitState where
  reason : BitVec 5
  tag : BitVec 6
  peer : BitVec 32
  expired : Bool
  count : BitVec 32
  limit : BitVec 32
  /-- `budget` of the running task, reported by its first expiry (R268). -/
  budget : BitVec 32
  deriving DecidableEq, Repr

/-- One lane of a lane-threaded hart (R38, R139). -/
structure Lane where
  /-- Started by `lsplit`. -/
  started : Bool
  /-- Stopped at `ljoin`. -/
  joined : Bool
  /-- The lane's own program counter. -/
  pc : Word
  deriving DecidableEq, Repr

/-- A lane region in progress (R139). -/
structure LaneRegion where
  base : Word
  n : Nat
  lanes : Vector Lane 16
  deriving DecidableEq, Repr

/-- An asynchronous cause waiting to be taken (R245). -/
structure Pending where
  cause : BitVec 9
  tval : Word
  deriving DecidableEq, Repr

/-- One hart (R17 to R49). -/
structure Hart where
  /-- x0 to x31; entry 0 stays 0 (R19). -/
  x : Vector Word 32
  v : Vector Row 32
  /-- m0 to m7; m0 reads as all ones whatever entry 0 holds (R21). -/
  m : Vector Mask 8
  /-- k0 to k7; k0 never holds a pin (R22). -/
  pins : Vector (Option Pin) 8
  pc : Word
  shape : Shape
  user : UserRegs
  trap : TrapRegs
  /-- Members of the convoy in progress (R33). -/
  convoy : List Member
  /-- The next vector-queue instruction starts a convoy whatever its C bit (R33). -/
  fresh : Bool
  /-- At most one a level. -/
  refused : List Refused
  checker : Checker
  run : HartRun
  wait : WaitState
  lanes : Option LaneRegion
  /-- Asynchronous causes not yet taken, oldest first (R245). -/
  pending : List Pending
  /-- Counts the tasks started on the hart, so that a loss reported later finds its sending task (R322). -/
  serial : Nat
  /-- A reply a waiting instruction has received (R194, R208, R209). -/
  reply : Option Word
  /-- A request a waiting instruction has sent and that has no reply yet. -/
  asked : Bool
  deriving DecidableEq, Repr

/-! ## Cores -/

/-- One entry of the task table (R260). -/
structure TaskEntry where
  entry : Word
  budget : BitVec 32
  decl : Bool
  busy : Bool
  pending : Bool
  /-- `fhold` by pre-emption. -/
  preempt : Bool
  /-- `fhold` by Siphon (R426). -/
  siphon : Bool
  enable : Bool
  ready : Bool
  hold : Bool
  priority : BitVec 2
  s2 : BitVec 32
  s3 : BitVec 5
  s4 : BitVec 32
  s5 : BitVec 32
  deriving DecidableEq, Repr

/-- Where a global access is performed (R365, R391, R443, R448, R461). -/
inductive Loc where
  /-- Device memory, a physical address of near or far memory. -/
  | dev (pa : Nat)
  /-- Host memory, a host address. -/
  | host (h : Nat)
  /-- The local memory of the controller that accesses it. -/
  | own (off : Nat)
  /-- Control space: offset from PA 2^50. -/
  | ctl (off : Nat)
  /-- No memory (R365): an M access reads 0 and writes nothing (R367). -/
  | hole
  deriving DecidableEq, Repr

/-- A scalar store that its core sees and that is not yet performed at its home (R107, R283). -/
structure PStore where
  /-- Hart number of the writer. -/
  hart : Nat
  loc : Loc
  data : List Byte
  deriving DecidableEq, Repr

/-- One cached translation (R368). -/
structure TlbEntry where
  ctx : Nat
  /-- First virtual address of the page. -/
  va : Nat
  size : Nat
  /-- First physical address of the page. -/
  pa : Nat
  mtype : BitVec 2
  /-- Bits [5:1] of the leaf: a, u, x, w, r. -/
  perm : BitVec 5
  dirty : Bool
  deriving DecidableEq, Repr

/-- The kinds of Sluice request (R195). -/
inductive SForm where
  | copyIn
  | copyOut
  | in2Row
  | in2Col
  | out2Row
  | out2Col
  | toCore
  | gatherRow
  | gatherCol
  deriving DecidableEq, Repr

/-- What has become of one chunk of a request (R198, R201). -/
inductive ChunkState where
  /-- Not performed. -/
  | todo
  /-- Translated at this shootdown count, not yet performed. -/
  | done
  /-- A part of a `scopyr` that has been handed to the message unit and is not acknowledged (R200). -/
  | sent
  /-- A record of it is in the fault queue or was taken from it. -/
  | faulted
  /-- Its fault waits for room in the fault queue. -/
  | blocked (kind : BitVec 8) (va : Word) (cause : BitVec 16)
  /-- Its page request waits, since as many as there may be are outstanding (R393). -/
  | asking (va : Word) (cause : BitVec 16) (page : Nat)
  deriving DecidableEq, Repr

/-- A Sluice request (R195 to R200). -/
structure SluiceReq where
  id : BitVec 32
  form : SForm
  /-- Issuing hart number, the serial of its task and its level. -/
  hart : Nat
  serial : Nat
  priv : BitVec 2
  /-- X[xa], or the base of a gather. -/
  base : Word
  spoff : Nat
  len : Nat
  rows : Nat
  /-- `gpitch`, or the row pitch of a gather. -/
  pitch : Word
  token : BitVec 3
  mask : BitVec 3
  chunk0 : Nat
  /-- The row numbers of a gather. -/
  idxs : List Nat
  /-- The pin of `token` when the request was issued. -/
  pin : Option Pin
  /-- `scopyr`: receiver and message descriptor. -/
  dst : BitVec 32
  desc : Word
  chunks : List ChunkState
  deriving DecidableEq, Repr

/-- A record of the fault queue (R201). -/
structure SluiceFault where
  id : BitVec 32
  chan : BitVec 2
  hart : BitVec 3
  kind : BitVec 8
  vaddr : Word
  first : BitVec 32
  count : BitVec 32
  cause : BitVec 16
  deriving DecidableEq, Repr

/-- `lossrec` (R323). -/
structure LossRec where
  peer : BitVec 32
  kind : BitVec 3
  tag : BitVec 5
  more : Bool
  atEnd : Bool
  valid : Bool
  deriving DecidableEq, Repr

/-- A site's built-in self-test result (R456). -/
structure SiteTest where
  rtrok : Bool
  rtrspare : Bool
  fail : BitVec 8
  deriving DecidableEq, Repr

/-- `siteasg` (R458). -/
structure SiteAsg where
  valid : Bool
  spare : Bool
  coord : BitVec 32
  deriving DecidableEq, Repr

/-- `cerrwin` and `cerrlog` (R418); `req` is an evacuation request sent and not cleared. -/
structure SiteErr where
  level : BitVec 16
  thresh : BitVec 16
  leaklog : BitVec 5
  req : Bool
  total : BitVec 32
  src : BitVec 4
  loc : BitVec 24
  deriving DecidableEq, Repr

/-- What a site is used for (R424, R435). -/
inductive SitePool where
  /-- Holds a logical core, is a spare, or is not assigned, as `siteasg` says. -/
  | normal
  /-- Isolated and waiting for its scan. -/
  | scan
  /-- On the defective list. -/
  | defective
  deriving DecidableEq, Repr

/-- The mailbox of a core (R192). -/
structure Mailbox where
  counters : Vector (BitVec 32) 32
  overflow : BitVec 32
  /-- Hart numbers waiting on each counter, head first. -/
  fifos : Vector (List Nat) 32
  /-- Receiving-end losses that the next `mwait` on a tag takes: tag and `tval`, oldest first (R322). -/
  losses : List (BitVec 5 × Word)
  deriving DecidableEq, Repr

/-- A `scopyr` that arrives in parts (R200): its sender, what tells its parts from another copy's, and the parts written. -/
structure PartCopy where
  src : BitVec 32
  key : Nat
  got : List Nat
  /-- Bytes written so far. -/
  bytes : Nat
  /-- A part has been lost, and the loss is recorded. -/
  lost : Bool
  deriving DecidableEq, Repr

/-- The Weir state of a core (R203, R275). -/
structure Weir where
  wmember : BitVec 16
  gangSet : BitVec 16
  arrived : BitVec 16
  gen : Vector (BitVec 32) 16
  /-- Completions that have not reached this core yet (R203). -/
  owed : Vector Nat 16
  deriving DecidableEq, Repr

/-- The gang a core belongs to, and what its launch set (R273, R274, R364). -/
structure GangPart where
  gangid : BitVec 32
  /-- The launch, while the core belongs to its gang. -/
  launch : Option Nat
  /-- [3:0] `vslip`, [4] strong mode. -/
  lflags : BitVec 8
  /-- The basin controller's completion report stands (R273). -/
  reported : Bool
  supTvec : Word
  supScratch : Word
  supDeleg : BitVec 11
  deriving DecidableEq, Repr

/-- One channel of the Sluice engine (R198). -/
structure SChan where
  next : BitVec 32
  /-- Requests that are not complete, oldest first. -/
  reqs : List SluiceReq
  deriving DecidableEq, Repr

/-- The Sluice engine of a core (R195 to R201). -/
structure Sluice where
  chans : Vector SChan 4
  faults : List SluiceFault
  /-- Second records of refused pages that wait for room, oldest first (R201, R393). -/
  late : List SluiceFault
  deriving DecidableEq, Repr

/-- A line of the L1 instruction cache: its bytes, and its poisoned 8-byte words with their source (R234, R250). -/
structure ILine where
  bytes : List Byte
  bad : SMap (BitVec 3)
  deriving DecidableEq, Repr

/-- The caches of a core (R281, R368). -/
structure Caches where
  /-- Lines present in the scalar L1 data cache: home line numbers. A copy is the home's line overlaid with the
  core's own stores not yet performed (R283). -/
  l1d : List Nat
  /-- Lines of the L1 instruction cache (R234). -/
  l1i : SMap ILine
  /-- L1 TLB, oldest first (R368). -/
  tlb : List TlbEntry
  deriving DecidableEq, Repr

/-- One core site, or the local part of a controller (R4, R17, R281, R444, R448, R461). -/
structure Core where
  /-- Scratchpad of a core, local memory of a controller. -/
  sp : Memory
  /-- Word numbers of uncorrectable scratchpad words, rising (R145). -/
  spBad : List Nat
  tasks : SMap TaskEntry
  /-- Round-robin pointers per priority (R263). -/
  rr : Vector (BitVec 6) 4
  mail : Mailbox
  weir : Weir
  part : GangPart
  sluice : Sluice
  caches : Caches
  /-- Scalar stores not yet performed, oldest first (R107, R283). -/
  pstores : List PStore
  /-- Lane instruction buffer and its holder (R39); harts waiting for it, in `lsplit` order (R276). -/
  laneBuf : List (BitVec 32)
  laneHolder : Option Nat
  laneWait : List Nat
  coreid : BitVec 32
  asg : SiteAsg
  test : SiteTest
  err : SiteErr
  pool : SitePool
  lossrec : LossRec
  /-- Boot fetch (R460), and a `clr` written while the boot code runs. -/
  bootFetch : Bool
  clrPending : Bool
  gopc : BitVec 16
  /-- Peers whose freeze mark has reached this core (R271). -/
  marks : List (BitVec 32)
  /-- Copies from other cores of which some parts have arrived (R200). -/
  copies : List PartCopy
  deriving DecidableEq, Repr

/-! ## Messages and Spray -/

/-- A message in flight (R185, R190, R200, R206, R313). -/
structure Message where
  src : BitVec 32
  dst : BitVec 32
  /-- R185 layout. -/
  desc : Word
  /-- 0 `msend`, 1 `mput`, 2 `mwake`, 3 `mdrain`, 4 `scopyr` part, 5 task bit, 6 `locq` query. -/
  kind : BitVec 3
  /-- `mput` width. -/
  width : BitVec 2
  rownib : BitVec 16
  data : List Byte
  /-- Fabric tag of the sender's context (R363). -/
  ctag : BitVec 16
  /-- Hart key of the sender and the serial of its task (R322). -/
  hart : Nat
  serial : Nat
  /-- For a `scopyr` part: channel and identifier of its request (R200). -/
  req : Option (BitVec 2 × BitVec 32)
  /-- For a `scopyr` part: which copy of its sender it belongs to (R200, log 38). -/
  copy : Nat
  /-- Launch whose core sent it (R375). -/
  launch : Option Nat
  deriving DecidableEq, Repr

/-- A message the sending engine retains until it is acknowledged (R321). -/
structure Retained where
  seq : BitVec 32
  msg : Message
  /-- Route class and code of R313 (R311, R385). -/
  cls : BitVec 2
  rate : BitVec 8
  /-- Answered a repair request. -/
  answered : Bool
  deriving DecidableEq, Repr

/-- A stream from one die to one destination die (R312); the key is 4 × package + die of the destination. -/
structure StreamTx where
  next : BitVec 32
  retained : List Retained
  deriving DecidableEq, Repr

/-- The stream table entry of a source die (R317). -/
structure StreamRx where
  ack : BitVec 32
  high : BitVec 32
  /-- Bit i: sequence `ack` + i is finished. -/
  finished : BitVec 32
  /-- Bit i: sequence `ack` + i was lost. -/
  lost : BitVec 32
  /-- Bit b: sequence `ack` − 1 − b was lost (R320). -/
  lostmap : BitVec 32
  deriving DecidableEq, Repr

/-- States of a decode buffer (R319). -/
inductive BufState where
  | collect
  | requested
  | deliver
  deriving DecidableEq, Repr

/-- A decode buffer (R317, R319). -/
structure DecodeBuf where
  peer : Nat
  seq : BitVec 32
  st : BufState
  frags : List Fragment
  deriving DecidableEq, Repr

/-- A fragment on its way to a die, by the module or port it arrives on (R316). One for another package names the die and port it leaves by. -/
structure Flight where
  die : Nat
  path : Nat
  frag : Fragment
  deriving DecidableEq, Repr

/-- The Spray engine of a die (R311 to R325). -/
structure Spray where
  tx : SMap StreamTx
  rx : SMap StreamRx
  bufs : List DecodeBuf
  /-- `spwin0` to `spwin3`: probe, window. -/
  wins : Vector (BitVec 32 × BitVec 32) 4
  /-- `spcnt0` to `spcnt4`. -/
  cnts : Vector Word 5
  deriving DecidableEq, Repr

/-- `pathhlth` of a UCIe module or a fabric port (R436). -/
structure PathHlth where
  level : BitVec 16
  thresh : BitVec 16
  leaklog : BitVec 5
  trained : Bool
  retired : Bool
  deriving DecidableEq, Repr

/-! ## Dies -/

/-- A remap entry (R425). -/
structure RemapEntry where
  epoch : BitVec 16
  valid : Bool
  prow : BitVec 5
  pcol : BitVec 5
  deriving DecidableEq, Repr

/-- `bootst` (R451). -/
structure BootSt where
  err : BitVec 8
  phase : BitVec 4
  scanok : Bool
  owner : Bool
  idok : Bool
  ready : Bool
  deriving DecidableEq, Repr

/-- `nmtrn` or `fmtrn` of one memory (R464). -/
structure MemTrn where
  rdmarg : BitVec 16
  wrmarg : BitVec 16
  repaired : BitVec 8
  step : BitVec 8
  state : BitVec 2
  /-- Failures of the step in progress (R463). -/
  tries : Nat
  /-- Steps 5 and 6 are repeated at the end of Standby (R475). -/
  again : Bool
  deriving DecidableEq, Repr

/-- `fabport` (R468). -/
structure FabPort where
  peerpkg : BitVec 10
  peerport : BitVec 5
  step : BitVec 8
  state : BitVec 3
  /-- It has trained and is in the fabric path map (R437, R468). -/
  mapped : Bool
  deriving DecidableEq, Repr

/-- The lease state of a cistern (R438 to R440). -/
structure Lease where
  hbint : BitVec 32
  term : BitVec 32
  leader : BitVec 2
  role : BitVec 3
  /-- Sequence of the last heartbeat it sent, and who has acknowledged it. -/
  hbseq : BitVec 32
  acks : List Nat
  /-- Its lease has lapsed (R439). -/
  lapsed : Bool
  /-- Term that it claims as a candidate (R440). -/
  claim : BitVec 32
  /-- Highest term it has granted a claim of, its own included, and whether it has granted one since its lease lapsed (R440). -/
  granted : BitVec 32
  since : Bool
  /-- Grants gained as a candidate. -/
  votes : List Nat
  failed : Bool
  /-- `lseq` of the repair log it last wrote or read (R441). -/
  lseq : BitVec 32
  deriving DecidableEq, Repr

/-- States of a Siphon move (R426). -/
inductive MoveState where
  | hold
  | copy
  | state
  | flip
  | release
  deriving DecidableEq, Repr

/-- A Siphon move (R424 to R431). -/
structure Move where
  coord : BitVec 32
  /-- Site keys. -/
  old : Nat
  spare : Nat
  st : MoveState
  /-- Term of the leader that runs it (R429). -/
  term : BitVec 32
  /-- Messages diverted, oldest first (R427). -/
  diverted : List Message
  deriving DecidableEq, Repr

/-- The multicast engine and the discovery flood of a die (R457, R459). -/
structure Mcast where
  len : BitVec 19
  offset : BitVec 18
  /-- Bytes and offset of the copy in progress. -/
  runLen : Nat
  runOff : Nat
  acks : List Nat
  reports : BitVec 11
  err : Bool
  busy : Bool
  /-- A flood is running. -/
  flood : Bool
  deriving DecidableEq, Repr

/-- What a die's mask ROM has found and derived (R447, R449, R453). -/
structure Identity where
  /-- H_man: the hash of the key manifest's signed bytes. -/
  hman : List Byte
  /-- The hashes of items 3 and 4, one after the other. -/
  firmware : List Byte
  /-- `version` of items 2, 3 and 4. -/
  versions : List Byte
  /-- The alias seed; none while `idok` is 0. -/
  aliasSeed : List Byte
  /-- The device seed. -/
  deviceSeed : List Byte
  /-- The kind-8 certificate. -/
  cert : List Byte
  /-- The scan key of the bundle (R448). -/
  scanKey : List Byte
  /-- Load address, entry and body of the basin controller firmware. -/
  basinLoad : Nat
  basinEntry : Word
  basinBody : List Byte
  deriving DecidableEq, Repr

/-- One die (R3, R5, R445). -/
structure Die where
  boot : BootSt
  ident : Identity
  /-- `bootmeas0` to `bootmeas3` as one value (R450). -/
  meas : BitVec 256
  /-- `aoreg.epoch` (R472). -/
  aoreg : BitVec 32
  scrubint : BitVec 32
  hben : Bool
  memscrub : Bool
  scrub : Bool
  lease : Lease
  spray : Spray
  /-- Modules 0 to 15, then fabric ports 16 to 21. -/
  paths : Vector PathHlth 22
  nmtrn : Vector MemTrn 3
  fmtrn : Vector MemTrn 12
  fabports : Vector FabPort 6
  /-- Remap table by index (R425). -/
  remap : SMap RemapEntry
  /-- Discovery table by 32 × prow + pcol (R457). -/
  disc : SMap (BitVec 32)
  mcast : Mcast
  /-- Evacuation requests in arrival order: site keys (R424). -/
  evac : List Nat
  move : Option Move
  /-- Highest scan package `seqno` accepted since power-on (R435). -/
  scanseq : BitVec 32
  deriving DecidableEq, Repr

/-! ## Basins -/

/-- A primitive record a basin holds (R217, R329). -/
structure Prim where
  seq : BitVec 32
  data : List Byte
  deriving DecidableEq, Repr

/-- A notify register (R333) with the tile's blend list (R329) and its retired covering entries (R336). -/
structure Tile where
  prims : BitVec 16
  blends : BitVec 11
  bovf : Bool
  ovf : Bool
  state : BitVec 2
  /-- Blend records of the tile, `seq` rising. -/
  list : List Prim
  /-- (x, y, seq) of the covering entries that have retired. -/
  retired : List (Nat × Nat × Nat)
  deriving DecidableEq, Repr

/-- States of a frame in a basin (R328). -/
inductive FrameState where
  | idle
  | binning
  | resolving
  | draining
  deriving DecidableEq, Repr

/-- A frame descriptor as read (R326). -/
structure FrameDesc where
  binbuf : Word
  binbufsize : BitVec 32
  width : Nat
  height : Nat
  visbuf : Word
  basinmask : Word
  zclear : BitVec 32
  nmarks : Nat
  notifych : BitVec 6
  notifytag : BitVec 5
  shadeorg : BitVec 32
  shadecols : Nat
  shaderows : Nat
  deriving DecidableEq, Repr

/-- A request for a pixel (R219, R336). -/
structure PixReq where
  x : Nat
  y : Nat
  seq : Nat
  /-- Hart key. -/
  hart : Nat
  /-- Launch of the frame whose pixel it is (R336). -/
  launch : Nat
  /-- The `pxlock` that asked for it has completed (R219). -/
  held : Bool
  deriving DecidableEq, Repr

/-- The graphics unit of a basin (R326 to R337). -/
structure Gfx where
  st : FrameState
  ctx : Nat
  /-- Launch that opened the frame. -/
  launch : Nat
  desc : FrameDesc
  /-- The pages of both buffers as translated when the frame opened (R326). -/
  pages : List TlbEntry
  /-- Records queued, oldest first: `none` is a `qend` mark (R218, R329). -/
  queue : List (Option Prim)
  accepted : BitVec 32
  marks : BitVec 12
  dupseq : BitVec 16
  badprim : BitVec 16
  ovf : BitVec 16
  blovf : BitVec 16
  /-- Records held, `seq` rising, and the `seq` values seen twice. -/
  held : List Prim
  dups : List (BitVec 32)
  /-- Bytes of the binning space in use. -/
  used : Nat
  tiles : SMap Tile
  /-- Frames waiting for this basin: launch identifiers, oldest first. -/
  waiting : List Nat
  locks : List PixReq
  reqs : List PixReq
  deriving DecidableEq, Repr

/-- The state of one work-graph slot (R278 to R280). -/
inductive SlotState where
  | free
  /-- Reserved by the task of this serial on this hart. -/
  | reserved (hart serial : Nat)
  /-- Committed by the core with this coordinate. -/
  | committed (src : BitVec 32)
  /-- Its consumer runs on this channel of this core, or is posted there. -/
  | started (core : BitVec 32) (chan : BitVec 6)
  /-- Freed, but an older slot is not (R279). -/
  | freed
  deriving DecidableEq, Repr

/-- A work-graph queue as its owner holds it (R277); the key is context and block address. -/
structure WorkQueue where
  ctx : Nat
  block : Word
  head : BitVec 32
  tail : BitVec 32
  capacity : Nat
  /-- What the block says of the consumer: record size, channel, `place` and `target`. -/
  recsize : Nat
  channel : Nat
  place : Nat
  target : BitVec 32
  /-- Launches of the gangs that have reserved slots in it: it is held while one of them runs. -/
  gangs : List Nat
  slots : SMap SlotState
  deriving DecidableEq, Repr

/-- A reservation request on its way to its owner, or waiting there (R209, R278). -/
structure ReserveReq where
  /-- Hart key and the serial of its task. -/
  hart : Nat
  serial : Nat
  ctx : Nat
  /-- Launch of the gang that asks. -/
  launch : Option Nat
  block : Word
  /-- The block's bytes as the hart read them. -/
  data : List Byte
  count : Nat
  deriving DecidableEq, Repr

/-- A node-choice event (R461). -/
structure NcEvent where
  block : Word
  slot : BitVec 32
  kind : BitVec 8
  deriving DecidableEq, Repr

/-- One basin (R5, R6, R461). -/
structure Basin where
  tlb : List TlbEntry
  gfx : Gfx
  works : List WorkQueue
  /-- Reservation requests, in arrival order. -/
  asks : List ReserveReq
  ncev : List NcEvent
  ncpq : Word
  ncstat : BitVec 2
  /-- Heartbeats missed in a row, and whether its lockstep pair has disagreed (R417). -/
  missed : Nat
  lockstep : Bool
  deriving DecidableEq, Repr

/-! ## Contexts, queues and launches -/

/-- States of a context (R361). -/
inductive CtxState where
  | free
  | active
  | saving
  | saved
  | restoring
  | fatal
  deriving DecidableEq, Repr

/-- An entry of a pending-launch pool, held until its own gang completes (R381): its packet lies in memory at `ctxpool` + 64 × `slot`. -/
structure PoolEntry where
  slot : Nat
  /-- Launch that posted it, and the depth it will have. -/
  parent : Nat
  depth : Nat
  barrier : Bool
  /-- Launch it has become. -/
  launch : Option Nat
  deriving DecidableEq, Repr

/-- What a saved core keeps beside its record: copies of which only some parts have arrived (R200), and losses that the next `mwait`
on a tag takes (R322). -/
structure CoreSide where
  copies : List PartCopy
  losses : List (BitVec 5 × Word)
  deriving DecidableEq, Repr

/-- One context (R361, R390). -/
structure Ctx where
  root : BitVec 32
  rows : BitVec 50
  tag : BitVec 16
  reach : BitVec 45
  save : BitVec 40
  pool : BitVec 34
  rate : Vector (BitVec 3) 4
  sup : BitVec 46
  err : BitVec 8
  st : CtxState
  pasidEn : Bool
  pasid : BitVec 20
  post : BitVec 40
  lossCount : BitVec 32
  lossLast : BitVec 32
  /-- The reach bitmap as read at activate or restore (R363). -/
  reachMap : BitVec 1024
  entries : List PoolEntry
  /-- Cores whose save record has been written: 80 × row + column. -/
  savedCores : List Nat
  /-- What saved cores keep beside their records, by the same number. -/
  sides : SMap CoreSide
  /-- Frames saved, by basin (R346). -/
  frames : SMap Gfx
  /-- The first cause that makes the context Fatal, and the core, basin or die that reports it (R421, R422). -/
  fatal : Option (BitVec 9 × BitVec 32)
  deriving DecidableEq, Repr

/-- A reading position: the ring, or an indirect buffer (R376). -/
structure IbPos where
  addr : Word
  left : Nat
  /-- Launches and shootdowns its packets have dispatched, and the signal of the packet that opened it (R375). -/
  launches : List Nat
  shoots : List Nat
  sig : Option (Word × Word)
  deriving DecidableEq, Repr

/-- A packet that has been dispatched and is not complete (R375). -/
structure Dispatched where
  /-- Launches and shootdowns that have to complete first. -/
  launches : List Nat
  shoots : List Nat
  /-- `pseq` of the ring packet that holds it. -/
  pseq : BitVec 32
  sig : Option (Word × Word)
  deriving DecidableEq, Repr

/-- A queue (R370 to R377). -/
structure Queue where
  base : BitVec 52
  en : Bool
  /-- A stop waits for dispatched packets (R372). -/
  stopping : Bool
  ctx : BitVec 6
  lsize : BitVec 5
  wr : BitVec 32
  rd : BitVec 32
  seq : BitVec 32
  errSeq : BitVec 32
  errValid : Bool
  errDetail : BitVec 8
  errCode : BitVec 8
  /-- Open indirect buffers, innermost first (R376), and the ring packet that opened them. -/
  ibs : List IbPos
  ringSeq : BitVec 32
  /-- The ring packet at `rd` has failed: clearing the error passes over it (R377). -/
  skip : Bool
  running : List Dispatched
  deriving DecidableEq, Repr

/-- What a launch is (R374, R379). -/
inductive LaunchKind where
  | gang
  | frame
  deriving DecidableEq, Repr

/-- A launch that has been accepted and is not complete (R375, R380). -/
structure Launch where
  id : Nat
  ctx : Nat
  kind : LaunchKind
  /-- Host queue, or none for the pool. -/
  queue : Option Nat
  depth : Nat
  /-- Launch that posted it. -/
  parent : Option Nat
  /-- Gang: cores not yet started, cores of the gang, and what run-ahead start takes (R274). -/
  toStart : List (BitVec 32)
  cores : List (BitVec 32)
  /-- What its code handle named: `base`, `tasks` and `panes` (R378, R379). -/
  base : Word
  tasks : Nat
  panes : Nat
  wmember : BitVec 16
  gangid : BitVec 32
  lflags : BitVec 8
  /-- Frame: descriptor, basins that have not completed. -/
  desc : FrameDesc
  basins : List Nat
  /-- Its own gang has completed. -/
  done : Bool
  deriving DecidableEq, Repr

/-! ## Host interface -/

/-- `evbase` to `evstat` (R400). -/
structure EventRing where
  base : BitVec 52
  en : Bool
  vector : BitVec 8
  lsize : BitVec 5
  head : BitVec 32
  tail : BitVec 32
  seq : BitVec 32
  ovf : BitVec 32
  /-- The missed-event buffer, slots of 32 bytes (R402). -/
  missed : Memory
  /-- Events that have taken their `seq` and whose record waits for the lease holder, oldest first (R439). -/
  waiting : List (BitVec 32 × List Byte)
  deriving DecidableEq, Repr

/-- A bias flip in progress: its next page (PA div 4096), the pages left, and where they go (R399). -/
structure Flip where
  page : Nat
  left : Nat
  toHost : Bool
  deriving DecidableEq, Repr

/-- The bias registers (R398). -/
structure Bias where
  page : BitVec 40
  count : BitVec 16
  toHost : Bool
  done : BitVec 16
  err : BitVec 2
  /-- The flip in progress: `busy` reads 1. -/
  flip : Option Flip
  /-- Pages (PA div 4096) in host bias, rising. -/
  host : List Nat
  deriving DecidableEq, Repr

/-- A page request outstanding (R393). -/
structure PageReq where
  /-- Site key, channel and request. -/
  core : Nat
  chan : BitVec 2
  id : BitVec 32
  /-- The records of the request: first chunk, chunks, first failing address (R412). -/
  runs : List (Nat × Nat × Word)
  /-- First host address of the page. -/
  page : Nat
  pasid : BitVec 20
  cause : BitVec 16
  deriving DecidableEq, Repr

/-- What the host's own memory system answers for one 4 KiB page of its address spaces (R391 to R394). -/
structure HostPage where
  /-- Place in host memory, div 4096. -/
  page : Nat
  /-- Reads and writes are accepted. -/
  readOk : Bool
  writeOk : Bool
  /-- AtomicOps are accepted (R394). -/
  atomicOk : Bool
  /-- ATS returns a translation for it (R393). -/
  ats : Bool
  deriving DecidableEq, Repr

/-- The algorithms of R454. -/
inductive SpdmAlgorithm where
  | mlDsa44
  | sha3_256
  deriving DecidableEq, Repr

/-- A DOE discovery answer: vendor, protocol and next index (R387). -/
structure DoeEntry where
  vendor : BitVec 16
  protocol : BitVec 8
  next : BitVec 8
  deriving DecidableEq, Repr

/-- An SPDM answer of die 0's cistern (R454). -/
inductive SpdmReply where
  /-- Versions supported, 8.8 BCD of major and minor. -/
  | version (v : List (BitVec 16))
  | capabilities
  /-- Asymmetric algorithm and hash. -/
  | algorithms (sign hash : SpdmAlgorithm)
  | digests (d : List (List Byte))
  | certificate (slot : Nat) (c : List Byte)
  | challengeAuth (slot : Nat) (nonce meas signature : List Byte)
  | measurements (index : Nat) (block : List Byte)
  | busy
  | unspecified
  | unsupportedRequest
  | invalidRequest
  deriving DecidableEq, Repr

/-- The answer a host access receives (R389, R395, R397). -/
inductive HostReply where
  | data (d : List Byte)
  | poisoned
  | written
  | unsupported
  | retry
  /-- The answer to a snoop (R391). -/
  | rspIHitI
  deriving DecidableEq, Repr

/-- `devst`, `pcilink`, `pwrlim`, `pwrst` (R451, R469, R474). -/
structure PkgRegs where
  devErr : BitVec 8
  devDie : BitVec 2
  ready : Bool
  pciRetries : BitVec 8
  pciWidth : BitVec 5
  pciRate : BitVec 3
  pciFlit : Bool
  pciState : BitVec 2
  /-- The link runs CXL. -/
  cxl : Bool
  pwrlim : BitVec 16
  watts : BitVec 16
  tj : BitVec 8
  mhz : BitVec 24
  thermal : Bool
  power : Bool
  pwrState : BitVec 2
  /-- `pkgid` register of the management port and the identifier in force (R467). -/
  pkgid : BitVec 10
  pkgidValid : Bool
  pkgTimeout : Bool
  /-- Configuration space has been set up (R469); a reset or D3hot request held until `ready` (R471). -/
  configured : Bool
  heldFlr : Bool
  heldD3 : Bool
  hepoch : BitVec 32
  deriving DecidableEq, Repr

/-- The host side of the package (R387 to R406, R454). -/
structure HostIf where
  ring : EventRing
  bias : Bias
  regs : PkgRegs
  /-- MSI-X table (8 entries of 16 bytes) and vectors raised, newest last (R389, R401). -/
  msix : Memory
  raised : List (BitVec 8)
  /-- MSI-X pending bits (R389). -/
  pba : BitVec 8
  /-- ATS translations held: (PASID, page), oldest first (R387, R392). -/
  ats : List (BitVec 20 × Nat)
  prgs : List PageReq
  /-- How the host answers, by page; a page not listed is accepted for everything. -/
  pages : List HostPage
  /-- The port and the host advertise AtomicOp routing for 4 bytes, and for 8, as the host driver has written (R394). -/
  routing4 : Bool
  routing8 : Bool
  /-- Answers to the host's last requests, newest last. -/
  replies : List HostReply
  /-- What the host has written to configuration space, by 4-byte register (R469). -/
  config : SMap (BitVec 32)
  /-- CXL component registers by 4-byte register (R388). -/
  bar4 : SMap (BitVec 32)
  /-- Device lines the host holds, which the snoop filter tracks: line numbers, rising (R397). -/
  held : List Nat
  spdm : List SpdmReply
  /-- Answers of DOE discovery, and of the management port, newest last (R387, R467). -/
  doe : List DoeEntry
  mgmt : List Nat
  deriving DecidableEq, Repr

/-! ## The machine -/

/-- A wait edge as another package's lease holder tells it (R432). -/
structure RemoteEdge where
  core : BitVec 32
  peer : BitVec 32
  hart : Nat
  serial : Nat
  word : Nat
  cyc : Word
  deriving DecidableEq, Repr

/-- A heartbeat, or its acknowledgement, on its way between two cisterns (R439). -/
structure Beat where
  ack : Bool
  src : Nat
  dst : Nat
  term : BitVec 32
  seq : BitVec 32
  deriving DecidableEq, Repr

/-- What reaches the package from outside, or goes wrong in it, without an event of the opcode table (log 33). -/
inductive Outside where
  /-- The host stores to its own memory. -/
  | hostStore (place : Nat) (data : List Byte)
  /-- The host performs an atomic on its own memory, at `pa` (R409). -/
  | hostAtomic (a : HostAtomic)
  /-- The host answers differently for a page from now on. -/
  | hostPage (p : HostPage)
  /-- The host takes a device line into its cache, or writes the line it holds (R397). -/
  | hostLine (pa : Nat) (data : Option (List Byte))
  /-- The host gives a device line back. -/
  | hostEvict (pa : Nat)
  /-- An access over CXL.mem: `pa` is a host physical address (R397). -/
  | hdmAccess (a : HostAccess)
  /-- A read of BAR0 (R389). -/
  | bar0Read (addr size : Nat)
  /-- An access of BAR4 (R388). -/
  | bar4Access (addr size : Nat) (value : Option (BitVec 64))
  /-- A DOE discovery request for an index (R387). -/
  | doeDiscovery (index : BitVec 8)
  /-- The baseboard reads a register of the management port (R467). -/
  | mgmtRead (reg : Nat)
  /-- A read of device memory, or of an L2 slice, finds an uncorrectable error (R420). -/
  | readError (l2 : Bool) (pa : Nat)
  /-- The lockstep pair of a basin controller disagrees (R417). -/
  | lockstep (basin : Nat)
  /-- The wait edges that the lease holder of another package answers with, and its question for those of the contexts of a tag (R432). -/
  | waitAnswer (pkg : BitVec 10) (es : List RemoteEdge)
  | waitQuery (ctag : BitVec 16)
  deriving DecidableEq, Repr

/-- What the next step does. The spec fixes no order between agents, so plain data says which moves next (log 4). -/
inductive Turn where
  /-- An event of the opcode table happens. -/
  | event (i : Instr)
  /-- A hart, by its key, executes one instruction. -/
  | run (hart : Nat)
  /-- A lane thread of a lane-threaded hart executes one instruction (R276). -/
  | lane (hart lane : Nat)
  /-- Cycles pass for one hart (R43, R266). -/
  | cycles (hart n : Nat)
  /-- The asynchronous cause due at a hart strikes inside its next instruction, at the active position of this number (R244, R245). -/
  | stop (hart pos : Nat)
  /-- The hart executes its next instruction; a branch or `jalr` goes wrong and takes control to `target` (R256, R259). -/
  | upset (hart : Nat) (target : Word)
  /-- Something from outside (log 33). -/
  | outside (e : Outside)
  deriving DecidableEq, Repr

/-- Why the machine stops. -/
inductive Fault where
  /-- No meaning raises it: every condition the spec names is a trap of the hart, an error a register records or a
  free value. The constructor keeps the type inhabited. Safe. -/
  | stuck
  deriving DecidableEq, Repr

/-- Why a step has no meaning. -/
inductive Refusal where
  /-- Raised only by an arm of `exec` whose instruction has no meaning in this model yet. Safe. -/
  | notModelled (mnemonic : String)
  deriving DecidableEq, Repr

/-- One member of a candidate wait cycle: its core, its hart, the serial of its task, its wait word and its `cyc` when they were read (R432).
The hart of a member in another package is the number its package gives it. -/
structure WaitMember where
  core : BitVec 32
  hart : Nat
  serial : Nat
  word : Nat
  cyc : Word
  deriving DecidableEq, Repr

/-- A candidate wait cycle, or one that has been reported (R432, R433). -/
structure WaitCycle where
  members : List WaitMember
  /-- The harts whose edges lead from each of its cores to the next: core, hart and serial. -/
  backs : List (BitVec 32 × Nat × Nat)
  reported : Bool
  deriving DecidableEq, Repr

/-- The whole machine. -/
structure State where
  /-- Key of the hart that executes. -/
  cur : Nat
  /-- Lane thread that executes, while a lane-threaded hart's lane has the turn (R38). -/
  lane : Option Nat
  /-- The instruction word in execution, which the block-signature checker folds (R255). -/
  word : BitVec 32
  agenda : List Turn
  harts : SMap Hart
  cores : SMap Core
  dies : Vector Die 4
  basins : SMap Basin
  ctxs : SMap Ctx
  queues : SMap Queue
  launches : List Launch
  nextLaunch : Nat
  /-- Device memory by physical address (R365). -/
  mem : Memory
  /-- Poisoned 8-byte words by PA div 8, with the source s of R240. -/
  poison : SMap (BitVec 3)
  /-- Host memory by host address (R365, R391). -/
  hostMem : Memory
  hostif : HostIf
  /-- Messages on the mesh networks (R308, R310). -/
  net : List Message
  /-- Fragments in flight (R313, R316). -/
  frags : List Flight
  /-- Control fragments in flight (R320). -/
  ctls : List Flight
  /-- Fragments, control fragments among them, that have left for other packages, newest last (R316). -/
  outFrags : List Flight
  /-- Heartbeats and acknowledgements in flight (R439). -/
  beats : List Beat
  /-- Answers sent to placement queries of other packages: the asking core and the placement, newest last (R194). -/
  answers : List (BitVec 32 × Word)
  /-- Wait cycles found by the lease holder's walks (R432). -/
  walks : List WaitCycle
  /-- Edges that other packages' lease holders have told, and those told to them, newest last (R432). -/
  remote : List RemoteEdge
  told : List RemoteEdge
  /-- The boot bundle's flash (R446). -/
  flash : Memory
  /-- Counts the free values drawn. -/
  freeCtr : Nat
  deriving DecidableEq, Repr

/-! ## Reset values -/

def Status.reset : Status :=
  { lthr := false, sigen := true, mmstrong := false, spp := 0, mpp := 0, priv := 0 }

def Shape.reset : Shape := { vl := 0, vrows := 1, sew := 0, vstart := 0, vstop := 0, vslip := 0 }

def UserRegs.reset : UserRegs := { frm := 0, fflags := 0, srseed := 0, cyc := 0 }

def TrapRegs.reset : TrapRegs :=
  { status := Status.reset, cause := 0, epc := 0, tval := 0, restart := 0, tvec := 0, sscratch := 0
    mcause := 0, mepc := 0, mtval := 0, mtvec := 0, mscratch := 0, tdeleg := 0 }

def WaitState.reset : WaitState :=
  { reason := 0, tag := 0, peer := 0, expired := false, count := 0, limit := 0, budget := 0 }

/-- A core's hart before its first task (log 1). -/
def Hart.reset : Hart :=
  { x := Vector.replicate 32 0, v := Vector.replicate 32 0, m := Vector.replicate 8 0
    pins := Vector.replicate 8 none, pc := 0, shape := Shape.reset, user := UserRegs.reset, trap := TrapRegs.reset
    convoy := [], fresh := true, refused := [], checker := .idle, run := .free, wait := WaitState.reset, lanes := none
    pending := [], serial := 0, reply := none, asked := false }

/-- A controller's hart: controllers run at M (R40). -/
def Hart.resetM (r : HartRun) : Hart :=
  { Hart.reset with run := r, trap := { TrapRegs.reset with status := { Status.reset with priv := 3 } } }

/-- The hart of a key after power-on: a cistern runs its mask ROM from PA 0 (R448), a basin controller waits for its
firmware (R461), a core's hart has no task. -/
def hartAtReset (k : Nat) : Hart :=
  if 8 * 4160 ≤ k then Hart.resetM .firmware else if 8 * 4096 ≤ k then Hart.resetM .halted else Hart.reset

def TaskEntry.reset : TaskEntry :=
  { entry := 0, budget := 0, decl := false, busy := false, pending := false, preempt := false, siphon := false
    enable := false, ready := false, hold := false, priority := 0, s2 := 0, s3 := 0, s4 := 0, s5 := 0 }

def LossRec.reset : LossRec := { peer := 0, kind := 0, tag := 0, more := false, atEnd := false, valid := false }

def Mailbox.reset : Mailbox :=
  { counters := Vector.replicate 32 0, overflow := 0, fifos := Vector.replicate 32 [], losses := [] }

def Weir.reset : Weir :=
  { wmember := 0, gangSet := 0, arrived := 0, gen := Vector.replicate 16 0, owed := Vector.replicate 16 0 }

def GangPart.reset : GangPart :=
  { gangid := 0, launch := none, lflags := 0, reported := false, supTvec := 0, supScratch := 0, supDeleg := 0 }

def Sluice.reset : Sluice := { chans := Vector.replicate 4 { next := 0, reqs := [] }, faults := [], late := [] }

def Caches.reset : Caches := { l1d := [], l1i := [], tlb := [] }

def SiteErr.reset : SiteErr :=
  { level := 0, thresh := 32, leaklog := 24, req := false, total := 0, src := 0, loc := 0 }

def Core.reset : Core :=
  { sp := [], spBad := [], tasks := [], rr := Vector.replicate 4 63, mail := Mailbox.reset, weir := Weir.reset
    part := GangPart.reset, sluice := Sluice.reset, caches := Caches.reset, pstores := [], laneBuf := []
    laneHolder := none, laneWait := [], coreid := 0, asg := { valid := false, spare := false, coord := 0 }
    test := { rtrok := false, rtrspare := false, fail := 0 }, err := SiteErr.reset, pool := .normal
    lossrec := LossRec.reset, bootFetch := false, clrPending := false, gopc := 0, marks := [], copies := [] }

def StreamTx.reset : StreamTx := { next := 0, retained := [] }

def StreamRx.reset : StreamRx := { ack := 0, high := 0, finished := 0, lost := 0, lostmap := 0 }

/-- R324: windows 4,096, 4,096, 8,192 and 65,536, probes four times as long. -/
def Spray.reset : Spray :=
  { tx := [], rx := [], bufs := []
    wins := #v[(16384, 4096), (16384, 4096), (32768, 8192), (262144, 65536)]
    cnts := Vector.replicate 5 0 }

def PathHlth.reset : PathHlth := { level := 0, thresh := 1024, leaklog := 20, trained := false, retired := false }

def RemapEntry.reset : RemapEntry := { epoch := 0, valid := false, prow := 0, pcol := 0 }

def BootSt.reset : BootSt := { err := 0, phase := 0, scanok := false, owner := false, idok := false, ready := false }

def MemTrn.reset : MemTrn := { rdmarg := 0, wrmarg := 0, repaired := 0, step := 0, state := 0, tries := 0, again := false }

def FabPort.reset : FabPort := { peerpkg := 0, peerport := 0, step := 0, state := 0, mapped := false }

def Lease.reset : Lease :=
  { hbint := 65536, term := 0, leader := 0, role := 0, hbseq := 0, acks := [], lapsed := false, claim := 0, granted := 0
    since := false, votes := [], failed := false, lseq := 0 }

def Mcast.reset : Mcast :=
  { len := 0, offset := 0, runLen := 0, runOff := 0, acks := [], reports := 0, err := false, busy := false, flood := false }

def Identity.reset : Identity :=
  { hman := [], firmware := [], versions := [], aliasSeed := [], deviceSeed := [], cert := [], scanKey := [], basinLoad := 0, basinEntry := 0
    basinBody := [] }

def Die.reset : Die :=
  { boot := BootSt.reset, ident := Identity.reset, meas := 0, aoreg := 0, scrubint := 256, hben := true, memscrub := true, scrub := true
    lease := Lease.reset, spray := Spray.reset, paths := Vector.replicate 22 PathHlth.reset
    nmtrn := Vector.replicate 3 MemTrn.reset, fmtrn := Vector.replicate 12 MemTrn.reset
    fabports := Vector.replicate 6 FabPort.reset, remap := [], disc := [], mcast := Mcast.reset
    evac := [], move := none, scanseq := 0 }

def FrameDesc.reset : FrameDesc :=
  { binbuf := 0, binbufsize := 0, width := 0, height := 0, visbuf := 0, basinmask := 0, zclear := 0, nmarks := 0
    notifych := 0, notifytag := 0, shadeorg := 0, shadecols := 0, shaderows := 0 }

def Tile.reset : Tile :=
  { prims := 0, blends := 0, bovf := false, ovf := false, state := 0, list := [], retired := [] }

def Gfx.reset : Gfx :=
  { st := .idle, ctx := 0, launch := 0, desc := FrameDesc.reset, pages := [], queue := [], accepted := 0, marks := 0
    dupseq := 0, badprim := 0, ovf := 0, blovf := 0, held := [], dups := [], used := 0, tiles := [], waiting := []
    locks := [], reqs := [] }

def Basin.reset : Basin :=
  { tlb := [], gfx := Gfx.reset, works := [], asks := [], ncev := [], ncpq := 0, ncstat := 0, missed := 0, lockstep := false }

def Ctx.reset : Ctx :=
  { root := 0, rows := 0, tag := 0, reach := 0, save := 0, pool := 0, rate := Vector.replicate 4 1, sup := 0
    err := 0, st := .free, pasidEn := false, pasid := 0, post := 0, lossCount := 0, lossLast := 0, reachMap := 0
    entries := [], savedCores := [], sides := [], frames := [], fatal := none }

def Queue.reset : Queue :=
  { base := 0, en := false, stopping := false, ctx := 0, lsize := 6, wr := 0, rd := 0, seq := 0, errSeq := 0
    errValid := false, errDetail := 0, errCode := 0, ibs := [], ringSeq := 0, skip := false, running := [] }

def EventRing.reset : EventRing :=
  { base := 0, en := false, vector := 0, lsize := 6, head := 0, tail := 0, seq := 0, ovf := 0, missed := [], waiting := [] }

def Bias.reset : Bias :=
  { page := 0, count := 0, toHost := false, done := 0, err := 0, flip := none, host := [] }

def PkgRegs.reset : PkgRegs :=
  { devErr := 0, devDie := 0, ready := false, pciRetries := 0, pciWidth := 0, pciRate := 0, pciFlit := false
    pciState := 0, cxl := false, pwrlim := 3000, watts := 0, tj := 0, mhz := 1400, thermal := false, power := false
    pwrState := 0, pkgid := 0, pkgidValid := false, pkgTimeout := false, configured := false, heldFlr := false
    heldD3 := false, hepoch := 0 }

/-- The MSI-X table as PCI Express resets it: the mask bit of each entry set (log 39). -/
def msixReset : Memory := (List.range 8).map fun v => (16 * v + 12, 1)

def HostIf.reset : HostIf :=
  { ring := EventRing.reset, bias := Bias.reset, regs := PkgRegs.reset, msix := msixReset, raised := [], pba := 0, ats := [], prgs := []
    pages := [], routing4 := false, routing8 := false, replies := [], config := [], bar4 := [], held := [], spdm := []
    doe := [], mgmt := [] }

/-- The machine right after power-on: every cistern about to execute its mask ROM, every register at its reset value,
every memory with nothing listed (log 2, 3). -/
def State.reset : State :=
  { cur := 8 * 4160, lane := none, word := 0, agenda := [], harts := [], cores := []
    dies := Vector.replicate 4 Die.reset, basins := [], ctxs := [], queues := [], launches := [], nextLaunch := 1
    mem := [], poison := [], hostMem := [], hostif := HostIf.reset, net := [], frags := [], ctls := [], outFrags := []
    beats := [], answers := [], walks := [], remote := [], told := [], flash := []
    freeCtr := 0 }

end Sys2Proof.Machine
end

