-- ==== Sys2Proof/Machine/Ops.lean ====
section
/-! DEFINITION. The named operations over harts, registers and traps.

Every read and write of a register goes through the accessors here. Taking a trap (R237), retiring an instruction
with the block-signature checker (R254 to R257), waiting (R269, R270) and the returns (R233) are each one operation. -/

namespace Sys2Proof.Machine

/-- The three outcomes of a step. -/
abbrev Out := Host.Outcome State Fault Refusal

/-! ## Bit fields -/

/-- Bits [lo + len - 1 : lo] of a number (R10). -/
def bitsOf (n lo len : Nat) : Nat := n / 2 ^ lo % 2 ^ len

/-- Bit `i` of a number. -/
def bitOf (n i : Nat) : Bool := decide (n / 2 ^ i % 2 = 1)

/-- A Bool as a number. -/
def b2n (b : Bool) : Nat := if b then 1 else 0

/-- The signed value of the low `w` bits of a number. -/
def signedOf (w n : Nat) : Int :=
  if 2 ^ (w - 1) ≤ n % 2 ^ w then (n % 2 ^ w : Nat) - (2 ^ w : Nat) else (n % 2 ^ w : Nat)

/-- The low `w` bits of an integer, as a number. -/
def wrapTo (w : Nat) (i : Int) : Nat := (i % (2 ^ w : Nat)).toNat

/-- A row with bits [lo + len - 1 : lo] replaced. -/
def rowPut (r : Row) (lo len v : Nat) : Row :=
  BitVec.ofNat 4096 (r.toNat % 2 ^ lo + 2 ^ lo * (v % 2 ^ len) + 2 ^ (lo + len) * (r.toNat / 2 ^ (lo + len)))

/-! ## Harts, cores and controllers -/

/-- The hart of a key. -/
def State.hartOf (s : State) (k : Nat) : Hart := smGet (hartAtReset k) k s.harts

/-- The state with the hart of a key replaced. -/
def State.setHartOf (s : State) (k : Nat) (h : Hart) : State := { s with harts := smSet k h s.harts }

/-- The executing hart. -/
def State.h (s : State) : Hart := s.hartOf s.cur

/-- The state with the executing hart replaced. -/
def State.setH (s : State) (h : Hart) : State := s.setHartOf s.cur h

/-- The core site or controller of a key. -/
def State.coreOf (s : State) (k : Nat) : Core := smGet Core.reset k s.cores

/-- The state with the core of a key replaced. -/
def State.setCoreOf (s : State) (k : Nat) (c : Core) : State := { s with cores := smSet k c s.cores }

/-- Agent key of the executing hart. -/
def State.agent (s : State) : Nat := s.cur / 8

/-- Number of the executing hart (R42). -/
def State.hartNo (s : State) : Nat := s.cur % 8

/-- The executing core. -/
def State.c (s : State) : Core := s.coreOf s.agent

/-- The state with the executing core replaced. -/
def State.setC (s : State) (c : Core) : State := s.setCoreOf s.agent c

/-- The executing agent is a core (R40: basin controllers and cisterns run at M). -/
def State.onCore (s : State) : Bool := decide (s.agent < 4096)

/-- Current privilege level (R47). -/
def State.priv (s : State) : BitVec 2 := s.h.trap.status.priv

def State.die (s : State) (d : Nat) : Die := s.dies.get (Fin.ofNat 4 d)

def State.setDie (s : State) (d : Nat) (v : Die) : State :=
  { s with dies := s.dies.set (d % 4) v (Nat.mod_lt _ (by decide)) }

def State.basin (s : State) (b : Nat) : Basin := smGet Basin.reset b s.basins

def State.setBasin (s : State) (b : Nat) (v : Basin) : State := { s with basins := smSet b v s.basins }

def State.ctx (s : State) (n : Nat) : Ctx := smGet Ctx.reset n s.ctxs

def State.setCtx (s : State) (n : Nat) (v : Ctx) : State := { s with ctxs := smSet n v s.ctxs }

def State.queue (s : State) (n : Nat) : Queue := smGet Queue.reset n s.queues

def State.setQueue (s : State) (n : Nat) (v : Queue) : State := { s with queues := smSet n v s.queues }

/-- A channel's entry in a core's task table (R260). -/
def Core.task (c : Core) (ch : Nat) : TaskEntry := smGet TaskEntry.reset ch c.tasks

def Core.setTask (c : Core) (ch : Nat) (t : TaskEntry) : Core := { c with tasks := smSet ch t c.tasks }

/-- The die a site or controller belongs to. -/
def dieOfAgent (k : Nat) : Nat :=
  if k < 4096 then k / 1024 else if k < 4160 then (k - 4096) / 16 else (k - 4160) % 4

/-- The basin (package number) a site lies in (R6). -/
def basinOfSite (k : Nat) : Nat := 16 * (k / 1024) + 4 * (k % 1024 / 256) + k % 32 / 8

/-- Row n of a hart's vector file; a number above 31 names row n mod 32 (a group never wraps, R24). -/
def Hart.row (h : Hart) (n : Nat) : Row := h.v.get (Fin.ofNat 32 n)

def Hart.setRow (h : Hart) (n : Nat) (r : Row) : Hart :=
  { h with v := h.v.set (n % 32) r (Nat.mod_lt _ (by decide)) }

/-- A mask register; m0 reads as all ones (R21). -/
def Hart.mask (h : Hart) (n : BitVec 3) : Mask := if n = 0 then BitVec.allOnes 8192 else h.m.get n.toFin

/-- Bit i of row j of a mask register (R21). -/
def Hart.maskBit (h : Hart) (n : BitVec 3) (j i : Nat) : Bool := n = 0 || (h.m.get n.toFin).getLsbD (1024 * j + i)

def Hart.setMask (h : Hart) (n : BitVec 3) (v : Mask) : Hart :=
  if n = 0 then h else { h with m := h.m.set n.toNat v n.isLt }

/-- Scalar register `r` of the executing hart, or of the executing lane thread: lane L sees bits [64L+63:64L] of row 0
of vr (R19, R38). Register 0 reads as zero. -/
def State.x (s : State) (r : BitVec 5) : Word :=
  if r = 0 then 0 else
  match s.lane with
  | none => s.h.x.get r.toFin
  | some l => BitVec.ofNat 64 (bitsOf (s.h.row r.toNat).toNat (64 * l) 64)

/-- The hart with scalar register `r` written; writing x0 has no effect (R19). -/
def Hart.setX (h : Hart) (r : BitVec 5) (v : Word) : Hart :=
  if r = 0 then h else { h with x := h.x.set r.toNat v r.isLt }

/-- The state with scalar register `r` of the hart or lane thread written (R19, R38). -/
def State.setX (s : State) (r : BitVec 5) (v : Word) : State :=
  match s.lane with
  | none => s.setH (s.h.setX r v)
  | some l => if r = 0 then s else s.setH (s.h.setRow r.toNat (rowPut (s.h.row r.toNat) (64 * l) 64 v.toNat))

/-- The pc of the executing hart or lane thread. -/
def State.pc (s : State) : Word :=
  match s.lane, s.h.lanes with
  | some l, some r => (r.lanes.get (Fin.ofNat 16 l)).pc
  | _, _ => s.h.pc

/-- The hart with the pc of the lane or of the hart itself set. -/
def Hart.setPc (h : Hart) (lane : Option Nat) (p : Word) : Hart :=
  match lane, h.lanes with
  | some l, some r =>
    { h with lanes := some { r with lanes := r.lanes.set (l % 16) { r.lanes.get (Fin.ofNat 16 l) with pc := p }
                                                        (Nat.mod_lt _ (by decide)) } }
  | _, _ => { h with pc := p }

/-- ORs flags into `fflags` (R45). -/
def Hart.orFlags (h : Hart) (f : BitVec 5) : Hart := { h with user := { h.user with fflags := h.user.fflags ||| f } }

/-! ## Waiting (R269, R270) -/

/-- The hart shows a wait reason. -/
def Hart.waitOn (h : Hart) (reason : BitVec 5) (tag : BitVec 6) (peer : BitVec 32) : Hart :=
  { h with wait := { h.wait with reason := reason, tag := tag, peer := peer } }

/-- The hart runs: its wait word's reason, tag and peer are 0, and no reply is awaited. -/
def Hart.running (h : Hart) : Hart :=
  { h with wait := { h.wait with reason := 0, tag := 0, peer := 0 }, reply := none, asked := false }

/-- The instruction waits: it has no effect yet and the hart stays at it (R270). -/
def waiting (s : State) (reason : BitVec 5) (tag : BitVec 6) (peer : BitVec 32) : Out :=
  .next (s.setH (s.h.waitOn reason tag peer))

/-! ## Block signatures (R254 to R258) -/

/-- The projection mask of a word's format (R83, R255). -/
def sigMask (w : BitVec 32) : BitVec 32 :=
  let m := w.toNat / 2 ^ 26
  if m = 0x00 ∨ (0x1C ≤ m ∧ m ≤ 0x1F) ∨ m = 0x3F then 0xFC000000
  else if m ≤ 0x03 ∨ (0x16 ≤ m ∧ m ≤ 0x1B) ∨ (0x36 ≤ m ∧ m ≤ 0x3C) then 0xFFFFF800
  else if m = 0x07 ∨ m = 0x08 ∨ m = 0x09 ∨ m = 0x0F then 0xFFE00000
  else if m ≤ 0x15 ∨ m = 0x3E then 0xFFFF0000
  else if m = 0x28 ∨ m = 0x29 ∨ m = 0x2C then 0xFFFFFFF0
  else if m ≤ 0x2F ∨ m = 0x3D then 0xFFFFFF00
  else 0xFFFFFF38

/-- The running signature after one more word (R255). -/
def sigFold (r : BitVec 21) (w : BitVec 32) : BitVec 21 :=
  let q := w &&& sigMask w
  r.rotateLeft 3 ^^^ q.setWidth 21 ^^^ ((q >>> 21).setWidth 21 <<< 10)

/-- The checker after a word inside its block has completed: it folds the word; after the block's end word a word that
is not a `bsig` makes it idle (R256, R257, log 14). -/
def Checker.fold (w : BitVec 32) : Checker → Checker
  | .idle => .idle
  | .armed _ _ _ true => .idle
  | .armed b e r false => .armed b e (sigFold r w) false

/-- The checker compares and finds a difference. -/
def Checker.differs : Checker → Bool
  | .armed _ e r false => decide (e ≠ r)
  | _ => false

/-- Address of the checked block's `bsig` (R258). -/
def Checker.block : Checker → Word
  | .armed b _ _ _ => b
  | .idle => 0

/-- The checker after its block's end word. -/
def Checker.close : Checker → Checker
  | .armed b e r _ => .armed b e r true
  | .idle => .idle

/-- The checker follows a core's hart while `status.sigen` = 1 (R256); a lane thread is not checked and leaves its hart's checker as it is
(R140, R257). -/
def State.checking (s : State) : Bool := s.onCore && s.lane.isNone && s.h.trap.status.sigen

/-- The checker after the word in execution has completed inside its block. -/
def State.checkerNext (s : State) : Checker :=
  if s.lane.isSome then s.h.checker else if s.checking then s.h.checker.fold s.word else .idle

/-! ## Traps (R237 to R241, R245) -/

/-- A trap: its cause, its `tval`, and where poison entered, for consumed poison (R252). -/
structure Trap where
  cause : BitVec 9
  tval : Word
  restart : Option (BitVec 3 × BitVec 11)
  deriving DecidableEq, Repr

/-- What an operation answers: a value, or a trap with the state it is taken in. -/
abbrev Res (α : Type) := Except (State × Trap) α

/-- A trap that is not consumed poison. -/
def Trap.of (cause : BitVec 9) (tval : Word) : Trap := { cause := cause, tval := tval, restart := none }

/-- Illegal operand, 0x040 (R239). -/
def Trap.operand (tval : Word) : Trap := Trap.of 0x040 tval

/-- Illegal encoding: the code is the word's major, `tval` holds the word and `sub` (R84). -/
def Trap.illegal (w : BitVec 32) (sub : Nat) : Trap :=
  Trap.of (BitVec.ofNat 9 (w.toNat / 2 ^ 26)) (BitVec.ofNat 64 (w.toNat + 2 ^ 32 * sub))

/-- An element position in the layout of R44. -/
def posWord (valid : Bool) (row elem : Nat) : Word := BitVec.ofNat 64 (b2n valid * 2 ^ 63 + row * 2 ^ 16 + elem)

/-- `restart` as trap entry leaves it (R237). -/
def Trap.restartWord (t : Trap) : Word :=
  match t.restart with
  | none => 0
  | some (r, e) => posWord true r.toNat e.toNat

/-- The cause taken: poison consumed at S becomes 0x162 (R237, R241). -/
def Trap.taken (t : Trap) (priv : BitVec 2) : BitVec 9 :=
  if 0x140 ≤ t.cause.toNat ∧ t.cause.toNat < 0x160 ∧ priv = 1 then 0x162 else t.cause

/-- The trap is taken at S: its group of 32 codes is delegated and the hart is not at M (R40, R237). -/
def Hart.delegates (h : Hart) (c : BitVec 9) : Bool :=
  decide (c.toNat < 0x160) && h.trap.tdeleg.getLsbD (c.toNat / 32) && h.trap.status.priv != 3

/-- A hart without its wait, its convoy and its lane region, as trap entry leaves it: the first vector instruction of
the handler starts a convoy and the checker is idle (R237, R257). -/
def Hart.atTrap (h : Hart) : Hart :=
  { h.running with convoy := [], fresh := true, checker := .idle, lanes := none
                   trap := { h.trap with status := { h.trap.status with lthr := false } } }

/-- Trap entry at S (R237). -/
def Hart.enterS (h : Hart) (c : BitVec 9) (tval epc restart : Word) : Hart :=
  let g := h.atTrap
  { g with pc := g.trap.tvec
           trap := { g.trap with cause := c, tval := tval, epc := epc &&& ~~~3, restart := restart
                                 status := { g.trap.status with spp := h.trap.status.priv, priv := 1 } } }

/-- Trap entry at M (R237). A hart whose `mtvec` is 0 halts at once (R462). -/
def Hart.enterM (h : Hart) (c : BitVec 9) (tval epc restart : Word) : Hart :=
  let g := h.atTrap
  let g := { g with pc := g.trap.mtvec
                    trap := { g.trap with mcause := c, mtval := tval, mepc := epc &&& ~~~3, restart := restart
                                          status := { g.trap.status with mpp := h.trap.status.priv, priv := 3 } } }
  if h.trap.mtvec = 0 then { g.waitOn 0x11 0 0 with run := .halted } else g

/-- The core after a hart of it traps: the hart leaves the mailbox queues it waits in (R192) and the queue for the lane
buffer, and gives up the lane buffer its region held. -/
def Core.leaveWaits (c : Core) (h : Nat) : Core :=
  { c with mail := { c.mail with fifos := c.mail.fifos.map (List.filter (· ≠ h)) }
           laneWait := c.laneWait.filter (· ≠ h)
           laneHolder := if c.laneHolder = some h then none else c.laneHolder }

/-- A die fails with a code: `bootst.err` and `devst` keep the first failure (R451). -/
def State.failDie (s : State) (d : Nat) (code : BitVec 8) : State :=
  let v := s.die d
  let r := s.hostif.regs
  let s := s.setDie d { v with boot := { v.boot with err := if v.boot.err = 0 then code else v.boot.err } }
  { s with hostif := { s.hostif with regs := if r.devErr = 0 then { r with devErr := code, devDie := BitVec.ofNat 2 d } else r } }

/-- A cistern that halts on a trap before it has set `ready` records 0x0D (R462). -/
def State.bootTrap (s : State) : State :=
  let d := dieOfAgent s.agent
  if 4160 ≤ s.agent ∧ s.h.run = .halted ∧ (s.die d).boot.ready = false then s.failDie d 0x0D else s

/-- Boot fetch ends and the scratchpad becomes zero (R460). -/
def Core.clearBoot (c : Core) : Core := { c with sp := [], spBad := [], bootFetch := false, clrPending := false }

/-- A `clr` written while the boot code ran takes effect once hart 0 has halted (R460). -/
def State.afterHalt (s : State) : State :=
  if s.onCore && decide (s.hartNo = 0) && s.c.clrPending && decide (s.h.run = .halted) then s.setC s.c.clearBoot else s

/-- A `pxlock` that traps while it waits gives up the locks it had been granted and withdraws its requests (R213, R219). -/
def Gfx.withdraw (g : Gfx) (hart : Nat) : Gfx :=
  { g with locks := g.locks.filter fun l => l.hart ≠ hart || l.held, reqs := g.reqs.filter fun l => l.hart ≠ hart }

/-- A hart's requests to a basin are withdrawn by a trap: its instruction has had no effect (R213, R245). -/
def Basin.withdraw (b : Basin) (hart : Nat) : Basin :=
  { b with gfx := b.gfx.withdraw hart, asks := b.asks.filter fun q => q.hart ≠ hart }

/-- Every basin with a function applied. -/
def State.mapBasins (s : State) (f : Basin → Basin) : State :=
  { s with basins := s.basins.map fun e => (e.1, f e.2) }

/-- Trap entry at a given address (R237): `epc` or `mepc` names it. `forceM` takes the trap at M whatever `tdeleg` holds
(R268). A trap of lane thread L ends the region and leaves L in `vstop` (R142). -/
def takeTrapAt (s : State) (epc : Word) (t : Trap) (forceM : Bool) : State :=
  let h := match s.lane with
    | some l => { s.h with shape := { s.h.shape with vstop := posWord true 0 l } }
    | none => s.h
  let c := t.taken h.trap.status.priv
  let s := { s.setC (s.c.leaveWaits s.hartNo) with lane := none }
  let s := if h.wait.reason = 0x0C ∨ h.wait.reason = 0x10 then s.mapBasins fun b => b.withdraw s.cur else s
  if h.delegates c && !forceM then s.setH (h.enterS c t.tval epc t.restartWord)
  else (s.setH (h.enterM c t.tval epc t.restartWord)).bootTrap.afterHalt

/-- Trap entry of the instruction at the pc (R237). -/
def takeTrap (s : State) (t : Trap) : State := takeTrapAt s s.pc t false

/-- The instruction ends with a trap, its hart and memory otherwise as in `s`. -/
def raise (s : State) (t : Trap) : Out := .next (takeTrap s t)

/-! ## Retiring -/

/-- The instruction has completed: the pc advances by 4, the checker folds the word, the hart runs (R256, R269). -/
def retire (s : State) : State :=
  s.setH ({ s.h.running with checker := s.checkerNext }.setPc s.lane (s.pc + 4))

/-- The instruction completes. -/
def finish (s : State) : Out := .next (retire s)

/-- A result completes the instruction, or traps. -/
def Res.out : Res State → Out
  | .ok s => finish s
  | .error (s, t) => raise s t

/-- An end word completes and control goes to `target`: the checker folds the word, compares and, on a difference,
raises 0x160 at M with `mepc` the word after the end word (R256, R258). A lane thread's end word is not compared (R140). -/
def retireEnd (s : State) (target : Word) : State :=
  let ck := s.checkerNext
  let t := s.setH ({ s.h.running with checker := if s.lane.isSome then ck else ck.close }.setPc s.lane target)
  if s.lane.isNone && ck.differs then takeTrapAt t (s.pc + 4) (Trap.of 0x160 ck.block) true else t

/-- An end word completes. -/
def finishEnd (s : State) (target : Word) : Out := .next (retireEnd s target)

/-! ## Returns (R233) -/

/-- The refusal that a return to an address at a level meets again (R249). -/
def Hart.refusedAt (h : Hart) (priv : BitVec 2) (addr : Word) : Option Refused :=
  h.refused.find? fun r => decide (r.priv = priv) && decide (r.addr = addr)

/-- A hart that returns to an address at a level: the next vector-queue instruction starts a convoy (R33), but one that was refused there
stands in the convoy it was refused in, so that it is refused again (R249, log 36). -/
def Hart.resume (h : Hart) (priv : BitVec 2) (addr : Word) : Hart :=
  let r := h.refusedAt priv addr
  { h with pc := addr, convoy := (r.map Refused.members).getD [], fresh := r.isNone, checker := .idle
           refused := h.refused.filter fun r => decide (r.priv ≠ priv) }

/-- `sret`: to the level in `spp`, at `epc`. -/
def Hart.returnS (h : Hart) : Hart :=
  { h.resume h.trap.status.spp h.trap.epc with
    trap := { h.trap with status := { h.trap.status with priv := h.trap.status.spp, spp := 0 } } }

/-- `mret`: to the level in `mpp`, at `mepc`. -/
def Hart.returnM (h : Hart) : Hart :=
  { h.resume h.trap.status.mpp h.trap.mepc with
    trap := { h.trap with status := { h.trap.status with priv := h.trap.status.mpp, mpp := 0 } } }

end Sys2Proof.Machine
end

