-- ==== Sys2Proof/Machine/Crypto.lean ====
section
/-! DEFINITION. The hash functions of SHA-3, and the code that turns a PUF reading into a seed (R9, R448 to R453). -/

namespace Sys2Proof.Machine

/-! ## SHA-3 (FIPS 202): SHA3-256 and the two SHAKE functions -/

/-- The permutation's state: lane (x, y), both mod 5, is entry 5y + x. -/
abbrev Sponge := List (BitVec 64)

def Sponge.lane (a : Sponge) (x y : Nat) : BitVec 64 := a.getD (5 * (y % 5) + x % 5) 0

/-- The state whose lanes a function gives. -/
def Sponge.of (f : Nat → Nat → BitVec 64) : Sponge := (List.range 25).map fun i => f (i % 5) (i / 5)

/-- θ: each lane takes in the parities of two columns. -/
def Sponge.theta (a : Sponge) : Sponge :=
  let par := (List.range 5).map fun x => a.lane x 0 ^^^ a.lane x 1 ^^^ a.lane x 2 ^^^ a.lane x 3 ^^^ a.lane x 4
  let col := fun x => par.getD (x % 5) 0
  Sponge.of fun x y => a.lane x y ^^^ col (x + 4) ^^^ (col (x + 1)).rotateLeft 1

/-- The rotation of ρ: the walk from (1, 0) that goes to (y, 2x + 3y) reaches each lane but (0, 0) at one t, and turns it by
(t + 1)(t + 2) / 2. `n` steps of it are left, the walk stands at (u, v). -/
def rhoWalk (x y : Nat) : Nat → Nat → Nat → Nat
  | 0, _, _ => 0
  | n + 1, u, v => if u = x ∧ v = y then (24 - n) * (25 - n) / 2 % 64 else rhoWalk x y n v ((2 * u + 3 * v) % 5)

/-- ρ and then π: the turned lanes in their new places. -/
def Sponge.rhoPi (a : Sponge) : Sponge :=
  Sponge.of fun x y => (a.lane (x + 3 * y) x).rotateLeft (rhoWalk ((x + 3 * y) % 5) x 24 1 0)

/-- χ: the non-linear step along a row. -/
def Sponge.chi (a : Sponge) : Sponge := Sponge.of fun x y => a.lane x y ^^^ (~~~a.lane (x + 1) y &&& a.lane (x + 2) y)

/-- The shift register of ι, x^8 + x^6 + x^5 + x^4 + 1, one step on. -/
def iotaNext (r : Nat) : Nat := if 128 ≤ r then (2 * r) ^^^ 0x171 else 2 * r

/-- ι's constant from the register at its round: bit 2^j − 1 is the register's lowest bit after j steps. Answers the register seven steps on. -/
def iotaWord (r : Nat) : BitVec 64 × Nat :=
  (List.range 7).foldl (fun p j => (p.1 ||| BitVec.ofNat 64 (p.2 % 2 * 2 ^ (2 ^ j - 1)), iotaNext p.2)) (0, r)

/-- `n` rounds, ι's register at r. -/
def Sponge.rounds (a : Sponge) (r : Nat) : Nat → Sponge
  | 0 => a
  | n + 1 =>
    let c := iotaWord r
    let b := a.theta.rhoPi.chi
    Sponge.rounds ((b.headD 0 ^^^ c.1) :: b.drop 1) c.2 n

/-- Keccak-f[1600]. -/
def Sponge.perm (a : Sponge) : Sponge := a.rounds 1 24

/-- The padding of a message of n bytes to a multiple of the rate: the suffix in the first byte, the last bit of the last. -/
def spongePad (rate suffix n : Nat) : List Byte :=
  let k := rate - n % rate
  (List.range k).map fun i => BitVec.ofNat 8 ((if i = 0 then suffix else 0) + (if i + 1 = k then 128 else 0))

/-- Absorbs `n` blocks of a padded message. -/
def Sponge.absorb (rate : Nat) (a : Sponge) : Nat → List Byte → Sponge
  | 0, _ => a
  | n + 1, l =>
    let word := fun i => if 8 * i < rate then BitVec.ofNat 64 (leValue ((l.drop (8 * i)).take 8)) else 0
    Sponge.absorb rate (Sponge.of fun x y => a.lane x y ^^^ word (5 * y + x)).perm n (l.drop rate)

/-- Squeezes `n` blocks. -/
def Sponge.squeeze (rate : Nat) (a : Sponge) : Nat → List Byte
  | 0 => []
  | n + 1 => ((a.flatMap fun w => leBytes 8 w.toNat).take rate) ++ Sponge.squeeze rate a.perm n

/-- `n` bytes of the sponge of a rate and a suffix over a message. -/
def spongeHash (rate suffix : Nat) (l : List Byte) (n : Nat) : List Byte :=
  let p := l ++ spongePad rate suffix l.length
  ((Sponge.of fun _ _ => 0).absorb rate (p.length / rate) p |>.squeeze rate ((n + rate - 1) / rate)).take n

/-- SHA3-256 of a byte string: 32 bytes. -/
def sha3 (l : List Byte) : List Byte := spongeHash 136 0x06 l 32

def shake128 (l : List Byte) (n : Nat) : List Byte := spongeHash 168 0x1F l n

def shake256 (l : List Byte) (n : Nat) : List Byte := spongeHash 136 0x1F l n

/-! ## The BCH code of the PUF (R452) -/

/-- Product in GF(2^9) with field polynomial x^9 + x^4 + 1, shift and add over nine bits. -/
def gf9MulFrom (a b : Nat) : Nat → Nat
  | 0 => 0
  | n + 1 =>
    let a2 := if 256 ≤ a then (2 * a % 512) ^^^ 0x11 else 2 * a
    (if b % 2 = 1 then a else 0) ^^^ gf9MulFrom a2 (b / 2) n

def gf9Mul (a b : Nat) : Nat := gf9MulFrom a b 9

/-- α^n, α = x. -/
def gf9Exp : Nat → Nat
  | 0 => 1
  | n + 1 => gf9Mul 2 (gf9Exp n)

/-- The inverse of a non-zero element: its 510th power, by squaring (510 = 2 + 4 + … + 256). -/
def gf9Inv (a : Nat) : Nat :=
  ((List.range 8).foldl (fun (p : Nat × Nat) _ => let q := gf9Mul p.1 p.1; (q, gf9Mul p.2 q)) (a, 1)).2

/-- The value of a polynomial, lowest coefficient first, by Horner's rule. -/
def gf9Eval (p : List Nat) (x : Nat) : Nat := p.foldr (fun c v => gf9Mul v x ^^^ c) 0

/-- Syndromes S_1 to S_82 of a block of 511 bits. -/
def bchSyndromes (r : List Bool) : List Nat :=
  let p := r.map b2n
  ((List.range 82).foldl (fun (st : Nat × List Nat) _ =>
    let x := gf9Mul st.1 2
    (x, gf9Eval p x :: st.2)) (1, [])).2.reverse

/-- The state of the Berlekamp–Massey iteration. -/
structure BmState where
  /-- Connection polynomial, the one before the last length change, and that one's discrepancy. -/
  cur : List Nat
  old : List Nat
  disc : Nat
  /-- Length and the shift since the last length change. -/
  len : Nat
  shift : Nat
  deriving DecidableEq, Repr

/-- Sum of two polynomials. -/
def gf9Add : List Nat → List Nat → List Nat
  | [], q => q
  | p, [] => p
  | a :: p, b :: q => (a ^^^ b) :: gf9Add p q

/-- One iteration, at index n of the syndromes. -/
def bmStep (syn : List Nat) (st : BmState) (n : Nat) : BmState :=
  let d := (List.range (st.len + 1)).foldl (fun v i => v ^^^ gf9Mul (st.cur.getD i 0) (syn.getD (n - i) 0)) 0
  if d = 0 then { st with shift := st.shift + 1 }
  else
    let k := gf9Mul d (gf9Inv st.disc)
    let next := gf9Add st.cur (List.replicate st.shift 0 ++ st.old.map (gf9Mul k))
    if 2 * st.len ≤ n then { cur := next, old := st.cur, disc := d, len := n + 1 - st.len, shift := 1 }
    else { st with cur := next, shift := st.shift + 1 }

/-- The error locator of a list of syndromes and its length. -/
def bmLocator (syn : List Nat) : BmState :=
  (List.range syn.length).foldl (bmStep syn) { cur := [1], old := [1], disc := 1, len := 0, shift := 1 }

/-- Positions i with a root of the locator at α^(−i); α^(−1) is x^8 + x^3. -/
def bchErrors (loc : List Nat) : List Nat :=
  ((List.range 511).foldl (fun (st : Nat × List Nat) i =>
    (gf9Mul st.1 264, if gf9Eval loc st.1 = 0 then i :: st.2 else st.2)) (1, [])).2.reverse

/-- Decodes a block of 511 bits: the codeword at distance at most 41, or none (R452). -/
def bchDecode (r : List Bool) : Option (List Bool) :=
  let l := bmLocator (bchSyndromes r)
  let e := bchErrors l.cur
  let c := r.mapIdx fun i b => b ^^ e.contains i
  if l.len ≤ 41 ∧ e.length = l.len ∧ (bchSyndromes c).all (· = 0) then some c else none

/-- Bits of bytes, each byte's lowest bit first. -/
def bitsOfBytes (l : List Byte) : List Bool := l.flatMap fun b => (List.range 8).map fun i => b.getLsbD i

/-- A byte from up to eight bits, the first lowest. -/
def byteOfBits (l : List Bool) : Byte := BitVec.ofNat 8 (l.foldr (fun b v => b2n b + 2 * v) 0)

/-- The seed of a PUF reading of 1,022 bits and a helper record of 128 bytes (R452): none where a block has more than 41 errors. -/
def pufSeed (puf : List Bool) (helper : List Byte) : Option (List Byte) :=
  let hb := bitsOfBytes helper
  let block := fun i => List.zipWith (fun a b => a ^^ b) ((puf.drop (511 * i)).take 511) ((hb.drop (512 * i)).take 511)
  match bchDecode (block 0), bchDecode (block 1) with
  | some a, some b =>
    let m := a.drop 300 ++ b.drop 300
    some (sha3 ((List.range 53).map fun i => byteOfBits ((m.drop (8 * i)).take 8)))
  | _, _ => none

end Sys2Proof.Machine
end

