-- ==== Sys2Proof/Machine/Float.lean ====
section
/-! DEFINITION. Number formats and exact arithmetic (R50 to R69).

A finite value is an exact number: a sign, a natural mantissa and a power of two. Every operation forms its exact
result and rounds it once (R56). A quotient or a root that has no finite binary expansion carries a sticky bit: the
exact value lies strictly above the mantissa, by less than one unit of its last place. -/

namespace Sys2Proof.Machine

/-- The floating-point formats of R52. -/
inductive FpFmt where
  | f64 | f32 | bf16 | f16 | e5m2 | e4m3 | e2m1
  deriving DecidableEq, Repr

/-- The rounding modes of R56. -/
inductive Rnd where
  | rne | rtz | rdn | rup | rmm
  deriving DecidableEq, Repr

/-- Flags in the layout of `fflags` (R45): NV, DZ, OF, UF, NX from bit 4 down. -/
abbrev Flags := BitVec 5

/-- Invalid operation. -/
abbrev flagNV : Flags := 16
/-- Division by zero. -/
abbrev flagDZ : Flags := 8
/-- Overflow. -/
abbrev flagOF : Flags := 4
/-- Underflow. -/
abbrev flagUF : Flags := 2
/-- Inexact. -/
abbrev flagNX : Flags := 1

/-- The mode a value of `frm` selects (R43); 5 to 7 are never held. -/
def rndOf (frm : BitVec 3) : Rnd :=
  match frm with
  | 1 => .rtz
  | 2 => .rdn
  | 3 => .rup
  | 4 => .rmm
  | _ => .rne

/-- Width in bits (R52). -/
def fpWidth : FpFmt → Nat
  | .f64 => 64 | .f32 => 32 | .bf16 => 16 | .f16 => 16 | .e5m2 => 8 | .e4m3 => 8 | .e2m1 => 4

/-- Mantissa bits (R52). -/
def fpMant : FpFmt → Nat
  | .f64 => 52 | .f32 => 23 | .bf16 => 7 | .f16 => 10 | .e5m2 => 2 | .e4m3 => 3 | .e2m1 => 1

/-- Exponent bits (R52). -/
def fpExp (f : FpFmt) : Nat := fpWidth f - fpMant f - 1

/-- Exponent bias (R52). -/
def fpBias : FpFmt → Nat
  | .f64 => 1023 | .f32 => 127 | .bf16 => 127 | .f16 => 15 | .e5m2 => 15 | .e4m3 => 7 | .e2m1 => 1

/-- The format has infinities and the NaN encodings of IEEE 754 (R53). -/
def fpIeee : FpFmt → Bool
  | .e4m3 => false | .e2m1 => false | _ => true

/-- Signalling NaNs exist (R54). -/
def fpSnan : FpFmt → Bool
  | .f64 => true | .f32 => true | .bf16 => true | .f16 => true | _ => false

/-- The canonical NaN (R54); E2M1 has none and takes +0 (R64). -/
def canonNan : FpFmt → Nat
  | .f64 => 0x7FF8000000000000
  | .f32 => 0x7FC00000
  | .bf16 => 0x7FC0
  | .f16 => 0x7E00
  | .e5m2 => 0x7E
  | .e4m3 => 0x7F
  | .e2m1 => 0

/-- A decoded value: a NaN (signalling or quiet), an infinity, or the finite number (−1)^neg × m × 2^e. -/
inductive FVal where
  | nan (signalling : Bool)
  | inf (neg : Bool)
  | fin (neg : Bool) (m : Nat) (e : Int)
  deriving DecidableEq, Repr

/-- The value of an encoding (R53). -/
def fpDecode (f : FpFmt) (bits : Nat) : FVal :=
  let w := fpMant f
  let s := decide (bits / 2 ^ (fpWidth f - 1) % 2 = 1)
  let e := bits / 2 ^ w % 2 ^ fpExp f
  let m := bits % 2 ^ w
  if e = 0 then .fin s m (1 - (fpBias f : Int) - w)
  else if e = 2 ^ fpExp f - 1 ∧ fpIeee f = true then
    if m = 0 then .inf s else .nan (fpSnan f && decide (m < 2 ^ (w - 1)))
  else if e = 2 ^ fpExp f - 1 ∧ f = .e4m3 ∧ m = 7 then .nan false
  else .fin s (2 ^ w + m) ((e : Int) - fpBias f - w)

/-- The exponent of the smallest normal (R52). -/
def fpEmin (f : FpFmt) : Int := 1 - (fpBias f : Int)

/-- The largest finite magnitude as mantissa and exponent (R52). -/
def fpMax : FpFmt → Nat × Int
  | .f64 => (2 ^ 53 - 1, 971)
  | .f32 => (2 ^ 24 - 1, 104)
  | .bf16 => (2 ^ 8 - 1, 120)
  | .f16 => (2 ^ 11 - 1, 5)
  | .e5m2 => (7, 13)
  | .e4m3 => (14, 5)
  | .e2m1 => (3, 1)

/-- a × 2^ea < b × 2^eb. -/
def magLt (a : Nat) (ea : Int) (b : Nat) (eb : Int) : Bool :=
  if ea ≤ eb then decide (a < b * 2 ^ (eb - ea).toNat) else decide (a * 2 ^ (ea - eb).toNat < b)

/-- The bits of a finite magnitude r × 2^q that the format holds exactly. -/
def fpEncode (f : FpFmt) (neg : Bool) (r : Nat) (q : Int) : Nat :=
  let w := fpMant f
  let s := if neg then 2 ^ (fpWidth f - 1) else 0
  if r = 0 then s
  else
    let lg : Int := (Nat.log2 r : Int) + q
    if lg < fpEmin f then s + r * 2 ^ (q - (fpEmin f - w)).toNat / 2 ^ ((fpEmin f - w) - q).toNat
    else
      let m := if Nat.log2 r ≤ w then r * 2 ^ (w - Nat.log2 r) else r / 2 ^ (Nat.log2 r - w)
      s + (lg + fpBias f).toNat * 2 ^ w + (m - 2 ^ w)

/-- The integer nearest to m × 2^e (plus a sticky excess) in units of 2^q, in a mode, and whether it differs (R56). -/
def roundMag (mode : Rnd) (neg : Bool) (m : Nat) (e : Int) (sticky : Bool) (q : Int) : Nat × Bool :=
  let k := (q - e).toNat
  let up := (e - q).toNat
  let r := m * 2 ^ up / 2 ^ k
  let rem := m * 2 ^ up % 2 ^ k
  let half := if k = 0 then 1 else 2 ^ (k - 1)
  let gt := decide (k ≠ 0) && (decide (half < rem) || (decide (rem = half) && sticky))
  let eq := decide (k ≠ 0) && decide (rem = half) && !sticky
  let ne := decide (rem ≠ 0) || sticky
  let inc := match mode with
    | .rne => gt || (eq && decide (r % 2 = 1))
    | .rtz => false
    | .rdn => neg && ne
    | .rup => !neg && ne
    | .rmm => gt || eq
  (if inc then r + 1 else r, ne)

/-- The bits of the infinity of a format, where it has one. -/
def infBits (f : FpFmt) (neg : Bool) : Nat :=
  (if neg then 2 ^ (fpWidth f - 1) else 0) + (2 ^ fpExp f - 1) * 2 ^ fpMant f

/-- The bits of the largest finite value. -/
def maxBits (f : FpFmt) (neg : Bool) : Nat := fpEncode f neg (fpMax f).1 (fpMax f).2

/-- The zero of a sign. -/
def zeroBits (f : FpFmt) (neg : Bool) : Nat := if neg then 2 ^ (fpWidth f - 1) else 0

/-- A finite overflow under the IEEE policy (R57) or the saturating one (R64). -/
def overflowBits (f : FpFmt) (sat : Bool) (mode : Rnd) (neg : Bool) : Nat :=
  if sat || !fpIeee f then maxBits f neg
  else match mode with
    | .rne => infBits f neg
    | .rmm => infBits f neg
    | .rtz => maxBits f neg
    | .rdn => if neg then infBits f neg else maxBits f neg
    | .rup => if neg then maxBits f neg else infBits f neg

/-- An exact non-negative magnitude with its sign, rounded once to a format: bits and flags (R56 to R59). -/
def roundTo (f : FpFmt) (sat : Bool) (mode : Rnd) (neg : Bool) (m : Nat) (e : Int) (sticky : Bool) : Nat × Flags :=
  if m = 0 then (zeroBits f neg, 0)
  else
    let w := fpMant f
    let qn : Int := (Nat.log2 m : Int) + e - w
    let q := max qn (fpEmin f - w)
    let (r, ix) := roundMag mode neg m e sticky q
    if magLt (fpMax f).1 (fpMax f).2 r q then (overflowBits f sat mode neg, flagOF ||| flagNX)
    else
      let (r', _) := roundMag mode neg m e sticky qn
      let tiny := magLt r' qn 1 (fpEmin f)
      (fpEncode f neg r q, if ix then (if tiny then flagUF ||| flagNX else flagNX) else 0)

/-- A stochastic rounding of an exact magnitude by a 16-bit draw (R63). -/
def roundSr (f : FpFmt) (sat : Bool) (neg : Bool) (m : Nat) (e : Int) (draw : BitVec 16) : Nat × Flags :=
  if m = 0 then (zeroBits f neg, 0)
  else
    let w := fpMant f
    let qn : Int := (Nat.log2 m : Int) + e - w
    let q := max qn (fpEmin f - w)
    let k := (q - e).toNat
    let m' := m * 2 ^ (e - q).toNat
    let lo := m' / 2 ^ k
    let rem := m' % 2 ^ k
    let d := rem * 2 ^ 16 / 2 ^ k
    let y := if rem = 0 then lo else if 0x10000 ≤ d + draw.toNat then lo + 1 else lo
    if magLt (fpMax f).1 (fpMax f).2 y q then
      (if sat || !fpIeee f then maxBits f neg else infBits f neg, flagOF ||| flagNX)
    else
      let tiny := magLt m e 1 (fpEmin f)
      (fpEncode f neg y q, if rem = 0 then 0 else if tiny then flagUF ||| flagNX else flagNX)

/-- The draw of a stochastic rounding (R61). -/
def srDraw (seed : BitVec 32) (key : BitVec 64) (a : BitVec 32) : BitVec 16 :=
  let h := seed ^^^ key.extractLsb' 0 32 ^^^ (key.extractLsb' 32 32).rotateLeft 16
  let h := h ^^^ (a * 0x9E3779B9#32)
  let h := h ^^^ (h >>> 16)
  let h := h * 0x85EBCA6B#32
  let h := h ^^^ (h >>> 13)
  let h := h * 0xC2B2AE35#32
  let h := h ^^^ (h >>> 16)
  h.extractLsb' 16 16

/-- The signed integer m × 2^k of a finite value scaled to exponent `e0` at or below its own. -/
def scaledInt (neg : Bool) (m : Nat) (e e0 : Int) : Int :=
  let v : Int := (m * 2 ^ (e - e0).toNat : Nat)
  if neg then -v else v

/-- The exact sum of two finite values: an integer and its exponent. -/
def exactSum (na : Bool) (ma : Nat) (ea : Int) (nb : Bool) (mb : Nat) (eb : Int) : Int × Int :=
  let e0 := min ea eb
  (scaledInt na ma ea e0 + scaledInt nb mb eb e0, e0)

/-- The sign of a zero sum: that of both addends where they agree, else minus only under RDN (R58). -/
def zeroSign (mode : Rnd) (na nb : Bool) : Bool := if na = nb then na else decide (mode = .rdn)

/-- A signalling NaN operand sets NV (R60). -/
def sigFlag : FVal → Flags
  | .nan true => flagNV
  | _ => 0

/-- The operand is a NaN. -/
def isNan : FVal → Bool
  | .nan _ => true
  | _ => false

/-- The canonical NaN of a format with NV (an invalid operation, R59). -/
def invalid (f : FpFmt) : Nat × Flags := (canonNan f, flagNV)

/-- The sum of two values (R56 to R60). -/
def fAddV (f : FpFmt) (mode : Rnd) (a b : FVal) : Nat × Flags :=
  if isNan a || isNan b then (canonNan f, sigFlag a ||| sigFlag b)
  else match a, b with
    | .inf na, .inf nb => if na = nb then (infBits f na, 0) else invalid f
    | .inf na, _ => (infBits f na, 0)
    | _, .inf nb => (infBits f nb, 0)
    | .fin na ma ea, .fin nb mb eb =>
      let (s, e) := exactSum na ma ea nb mb eb
      if s = 0 then (zeroBits f (zeroSign mode na nb), 0)
      else roundTo f false mode (decide (s < 0)) s.natAbs e false
    | _, _ => invalid f

/-- The value with its sign reversed; a NaN stays as it is. -/
def fNeg : FVal → FVal
  | .nan s => .nan s
  | .inf n => .inf (!n)
  | .fin n m e => .fin (!n) m e

/-- The sum of the values two encodings hold. -/
def fAdd (f : FpFmt) (mode : Rnd) (a b : Nat) : Nat × Flags := fAddV f mode (fpDecode f a) (fpDecode f b)

/-- The difference a − b. -/
def fSub (f : FpFmt) (mode : Rnd) (a b : Nat) : Nat × Flags := fAddV f mode (fpDecode f a) (fNeg (fpDecode f b))

/-- The product (R56 to R60). -/
def fMul (f : FpFmt) (mode : Rnd) (a b : Nat) : Nat × Flags :=
  let a := fpDecode f a
  let b := fpDecode f b
  if isNan a || isNan b then (canonNan f, sigFlag a ||| sigFlag b)
  else match a, b with
    | .inf na, .inf nb => (infBits f (na != nb), 0)
    | .inf na, .fin nb mb _ => if mb = 0 then invalid f else (infBits f (na != nb), 0)
    | .fin na ma _, .inf nb => if ma = 0 then invalid f else (infBits f (na != nb), 0)
    | .fin na ma ea, .fin nb mb eb => roundTo f false mode (na != nb) (ma * mb) (ea + eb) false
    | _, _ => invalid f

/-- The correctly rounded quotient a / b (R56 to R60). -/
def fDiv (f : FpFmt) (mode : Rnd) (a b : Nat) : Nat × Flags :=
  let a := fpDecode f a
  let b := fpDecode f b
  if isNan a || isNan b then (canonNan f, sigFlag a ||| sigFlag b)
  else match a, b with
    | .inf _, .inf _ => invalid f
    | .inf na, .fin nb _ _ => (infBits f (na != nb), 0)
    | .fin na _ _, .inf nb => (zeroBits f (na != nb), 0)
    | .fin na ma ea, .fin nb mb eb =>
      if mb = 0 then (if ma = 0 then invalid f else (infBits f (na != nb), flagDZ))
      else
        let sh := fpMant f + 6 + Nat.log2 mb
        let n := ma * 2 ^ sh
        roundTo f false mode (na != nb) (n / mb) (ea - eb - sh) (decide (n % mb ≠ 0))
    | _, _ => invalid f

/-- The integer square root of `n` found bit by bit from bit `k` down, starting from `r`. -/
def isqrtFrom (n : Nat) : Nat → Nat → Nat
  | 0, r => if (r + 1) * (r + 1) ≤ n then r + 1 else r
  | k + 1, r => isqrtFrom n k (if (r + 2 ^ (k + 1)) * (r + 2 ^ (k + 1)) ≤ n then r + 2 ^ (k + 1) else r)

/-- The integer square root. -/
def isqrt (n : Nat) : Nat := isqrtFrom n (Nat.log2 n / 2 + 1) 0

/-- The correctly rounded square root; the root of −0 is −0 (R116). -/
def fSqrt (f : FpFmt) (mode : Rnd) (a : Nat) : Nat × Flags :=
  match fpDecode f a with
  | .nan s => (canonNan f, if s then flagNV else 0)
  | .inf n => if n then invalid f else (infBits f false, 0)
  | .fin n m e =>
    if m = 0 then (zeroBits f n, 0)
    else if n then invalid f
    else
      let sh := 2 * (fpMant f + 6) + ((e - 2 * (fpMant f + 6 : Nat)) % 2).toNat
      let x := m * 2 ^ sh
      let r := isqrt x
      roundTo f false mode false r ((e - sh) / 2) (decide (r * r ≠ x))

/-- The value of a product formed exactly: a NaN with its flags, an infinity or a finite number. -/
def exactMul (a b : FVal) : FVal × Flags :=
  match a, b with
  | .inf na, .inf nb => (.inf (na != nb), 0)
  | .inf na, .fin nb mb _ => if mb = 0 then (.nan false, flagNV) else (.inf (na != nb), 0)
  | .fin na ma _, .inf nb => if ma = 0 then (.nan false, flagNV) else (.inf (na != nb), 0)
  | .fin na ma ea, .fin nb mb eb => (.fin (na != nb) (ma * mb) (ea + eb), 0)
  | a, b => (.nan false, sigFlag a ||| sigFlag b)

/-- (−1)^np × a × b + (−1)^nc × c with one rounding; 0 × ∞ sets NV whatever c is (R59, R132). -/
def fFmaV (f : FpFmt) (mode : Rnd) (np nc : Bool) (a b c : FVal) : Nat × Flags :=
  let (p, fl) := exactMul a b
  let p := if np then fNeg p else p
  let c' := if nc then fNeg c else c
  let (r, fl') := fAddV f mode p c'
  (r, fl ||| sigFlag c ||| fl')

/-- The fused multiply-add of encodings of one format (R116, R132). -/
def fFma (f : FpFmt) (mode : Rnd) (np nc : Bool) (a b c : Nat) : Nat × Flags :=
  fFmaV f mode np nc (fpDecode f a) (fpDecode f b) (fpDecode f c)

/-- a < b for values that are no NaN; −0 and +0 are equal. -/
def fvLt (a b : FVal) : Bool :=
  match a, b with
  | .inf na, .inf nb => na && !nb
  | .inf na, .fin _ _ _ => na
  | .fin _ _ _, .inf nb => !nb
  | .fin na ma ea, .fin nb mb eb => decide ((exactSum na ma ea (!nb) mb eb).1 < 0)
  | _, _ => false

/-- a = b for values that are no NaN; −0 equals +0. -/
def fvEq (a b : FVal) : Bool := !isNan a && !isNan b && !fvLt a b && !fvLt b a

/-- The compares of R118 and R133. -/
inductive FCmp where
  | eq | ne | lt | le | gt | ge
  deriving DecidableEq, Repr

/-- A compare with its flags: `eq` and `ne` set NV only for a signalling NaN, the ordered ones for any NaN. -/
def fCompare (f : FpFmt) (c : FCmp) (a b : Nat) : Bool × Flags :=
  let a := fpDecode f a
  let b := fpDecode f b
  let n := isNan a || isNan b
  let sg := sigFlag a ||| sigFlag b
  let nv : Flags := if n then flagNV else 0
  match c with
  | .eq => (fvEq a b, sg)
  | .ne => (!fvEq a b, sg)
  | .lt => (!n && fvLt a b, nv)
  | .le => (!n && (fvLt a b || fvEq a b), nv)
  | .gt => (!n && fvLt b a, nv)
  | .ge => (!n && (fvLt b a || fvEq a b), nv)

/-- The sign bit of an encoding. -/
def signBit (f : FpFmt) (a : Nat) : Bool := decide (a / 2 ^ (fpWidth f - 1) % 2 = 1)

/-- The minimum or maximum of R118: −0 is below +0, one NaN returns the other operand, two the canonical NaN. -/
def fMinMax (f : FpFmt) (wantMax : Bool) (a b : Nat) : Nat × Flags :=
  let va := fpDecode f a
  let vb := fpDecode f b
  let fl := sigFlag va ||| sigFlag vb
  if isNan va && isNan vb then (canonNan f, fl)
  else if isNan va then (b, fl)
  else if isNan vb then (a, fl)
  else
    let aLess := fvLt va vb || (fvEq va vb && signBit f a && !signBit f b)
    (if aLess = wantMax then b else a, fl)

/-- The class mask of R118. -/
def fClass (f : FpFmt) (a : Nat) : Nat :=
  match fpDecode f a with
  | .inf true => 0x001
  | .inf false => 0x080
  | .nan true => 0x100
  | .nan false => 0x200
  | .fin n m e =>
    if m = 0 then (if n then 0x008 else 0x010)
    else if magLt m e 1 (fpEmin f) then (if n then 0x004 else 0x020)
    else if n then 0x002 else 0x040

/-- A conversion to an integer of `w` bits (R65): the low `w` bits of the result, and flags. -/
def fToInt (f : FpFmt) (mode : Rnd) (signed : Bool) (w : Nat) (a : Nat) : Nat × Flags :=
  let hi : Int := if signed then 2 ^ (w - 1) - 1 else 2 ^ w - 1
  let lo : Int := if signed then -(2 ^ (w - 1)) else 0
  let fit (v : Int) : Nat := (v % 2 ^ w).toNat
  match fpDecode f a with
  | .nan _ => (0, flagNV)
  | .inf n => (fit (if n then lo else hi), flagNV)
  | .fin n m e =>
    let (r, ix) := roundMag mode n m e false 0
    let v : Int := if n then -(r : Int) else r
    if hi < v then (fit hi, flagNV)
    else if v < lo then (fit lo, flagNV)
    else (fit v, if ix then flagNX else 0)

/-- A conversion from an integer (R66). -/
def fFromInt (f : FpFmt) (mode : Rnd) (v : Int) : Nat × Flags :=
  roundTo f false mode (decide (v < 0)) v.natAbs 0 false

/-- A value delivered to a destination format under R64; `sat` marks the saturating E5M2 forms, and `draw` a
stochastic rounding. -/
def fDeliver (dst : FpFmt) (sat : Bool) (mode : Rnd) (draw : Option (BitVec 16)) (v : FVal) : Nat × Flags :=
  match v with
  | .nan s => (canonNan dst, if s || decide (dst = .e2m1) then flagNV else 0)
  | .inf n => if sat || !fpIeee dst then (maxBits dst n, flagNV) else (infBits dst n, 0)
  | .fin n m e =>
    match draw with
    | none => roundTo dst sat mode n m e false
    | some d => roundSr dst sat n m e d

/-- A conversion between floating-point formats (R64). -/
def fConvert (src dst : FpFmt) (sat : Bool) (mode : Rnd) (draw : Option (BitVec 16)) (a : Nat) : Nat × Flags :=
  fDeliver dst sat mode draw (fpDecode src a)

/-- The value of a code scaled by an E8M0 block scale; a scale of 0xFF makes it a NaN that sets no flag (R68). -/
def fScale (scale : Byte) : FVal → FVal
  | .fin n m e => if scale = 0xFF then .nan false else .fin n m (e + scale.toNat - 127)
  | v => if scale = 0xFF then .nan false else v

/-- a + b rounded stochastically under the IEEE policy; an exact zero of opposite signs is +0 (R58, R162). -/
def fAddSr (f : FpFmt) (draw : BitVec 16) (a b : Nat) : Nat × Flags :=
  match fpDecode f a, fpDecode f b with
  | .fin na ma ea, .fin nb mb eb =>
    let (s, e) := exactSum na ma ea nb mb eb
    if s = 0 then (zeroBits f (na && nb), 0)
    else roundSr f false (decide (s < 0)) s.natAbs e draw
  | a, b => fAddV f .rne a b

end Sys2Proof.Machine
end

