-- ==== Sys2Proof/Machine/Flags.lean ====
section
/-! DEFINITION. Flags and rounding state of a hart: `frm`, `fflags` and `srseed` as operations use them (R43, R45, R56, R59),
and the scalar encodings of R19 and R115. -/

namespace Sys2Proof.Machine

/-- The rounding mode in `frm` (R43, R56). -/
def State.rnd (s : State) : Rnd := rndOf s.h.user.frm

/-- ORs flags into `fflags` (R45). -/
def State.orFlags (s : State) (f : Flags) : State := s.setH (s.h.orFlags f)

/-- A scalar operand in a format: its low bits (R115). -/
def fpOperand (f : FpFmt) (v : Word) : Nat := v.toNat % 2 ^ fpWidth f

/-- A scalar result in a format: the bits above it are all ones (R19, R115). -/
def fpResult (f : FpFmt) (v : Nat) : Word :=
  BitVec.ofNat 64 (v % 2 ^ fpWidth f + (2 ^ 64 - 2 ^ fpWidth f))

/-- The format of a one-bit selector: FP32 where it is set, else FP64 (R117, R118). -/
def fpSel (single : Bool) : FpFmt := if single then .f32 else .f64

end Sys2Proof.Machine
end

