-- ==== Sys2Proof/Machine/Mem.lean ====
section
/-! DEFINITION. Global memory: the address map, host events, performing stores, translation and fetch.

R281 to R283, R295, R365 to R368, R389, R391, R392, R400 to R403, R107, R108, R250. Log 7 says how the scalar L1 and the
stores on their way are held, log 8 how the TLBs replace entries. -/

namespace Sys2Proof.Machine

/-! ## The address map (R365, R443) -/

/-- The region of a physical address: near or far memory, host memory, control space or none. -/
def paLoc (pa : Nat) : Loc :=
  if pa < 2 ^ 43 then
    let o := pa % 2 ^ 41
    if o < 2 ^ 40 then (if o < 108 * 2 ^ 30 then .dev pa else .hole)
    else if o - 2 ^ 40 < 384 * 2 ^ 30 then .dev pa else .hole
  else if 2 ^ 51 ≤ pa ∧ pa < 2 ^ 52 then .host (pa - 2 ^ 51)
  else if 2 ^ 50 ≤ pa ∧ pa < 2 ^ 51 then .ctl (pa - 2 ^ 50)
  else .hole

/-- The address lies in near or far memory. -/
def isDev (pa : Nat) : Bool := match paLoc pa with | .dev _ => true | _ => false

/-- Where an M access to a physical address goes: a cistern's own memory lies below 0x80000, a basin controller's below
0x40000 (R448, R461, log 9). -/
def physLoc (agent ea : Nat) : Loc :=
  if 4160 ≤ agent ∧ ea < 0x80000 then .own ea
  else if 4096 ≤ agent ∧ agent < 4160 ∧ ea < 0x40000 then .own ea
  else paLoc ea

/-! ## Events to the host (R400 to R403) -/

/-- A record of the event ring (R403). -/
def eventRecord (seq : Nat) (type ctx queue a b c : Nat) : List Byte :=
  leBytes 4 seq ++ leBytes 1 type ++ leBytes 1 ctx ++ leBytes 2 queue ++ leBytes 8 a ++ leBytes 8 b ++ leBytes 8 c

/-- The mask bit of a vector in the MSI-X table (R389, log 39). -/
def HostIf.masked (h : HostIf) (v : BitVec 8) : Bool := (readByte h.msix (16 * (v.toNat % 8) + 12)).getLsbD 0

/-- A vector is raised; one that is masked becomes pending (R389, R401). -/
def HostIf.interrupt (h : HostIf) (v : BitVec 8) : HostIf :=
  if h.masked v then { h with pba := h.pba ||| ((1 : BitVec 8) <<< (v.toNat % 8)) } else { h with raised := h.raised ++ [v] }

/-- A pending vector that is no longer masked is raised. -/
def HostIf.unmask (h : HostIf) (v : BitVec 8) : HostIf :=
  let bit := (1 : BitVec 8) <<< (v.toNat % 8)
  if h.pba &&& bit ≠ 0 ∧ h.masked v = false then { h with pba := h.pba &&& ~~~bit, raised := h.raised ++ [v] } else h

/-- The cistern that performs the lease holder's duties (R439): the one whose role is 1. -/
def leaderDie (s : State) : Option Nat :=
  (List.range 4).find? fun d => decide ((s.die d).lease.role = 1) && !(s.die d).lease.failed

/-- The lease holder performs its duties (R439). -/
def duties (s : State) : Bool := (leaderDie s).isSome

def State.setRing (s : State) (r : EventRing) : State := { s with hostif := { s.hostif with ring := r } }

/-- The record of an event that has its `seq`: it is written to the ring when the ring is enabled and has room, else it counts in `ovf` and goes to
the missed-event buffer (R401, R402). -/
def placeRecord (s : State) (seq : BitVec 32) (bytes : List Byte) : State :=
  let r := s.hostif.ring
  if r.en ∧ (r.head - r.tail).toNat < 2 ^ r.lsize.toNat then
    let slot := r.head.toNat % 2 ^ r.lsize.toNat
    { s with hostMem := writeBytes s.hostMem (r.base.toNat * 4096 + 32 * slot) bytes
             hostif := { s.hostif.interrupt r.vector with ring := { r with head := r.head + 1 } } }
  else s.setRing { r with ovf := r.ovf + 1, missed := writeBytes r.missed (32 * (seq.toNat % 256)) bytes }

/-- An event takes the next `seq` (R401). The ring is the lease holder's: while the ring is enabled and nobody performs the duties, the record waits
(R439). -/
def State.emit (s : State) (type ctx queue a b c : Nat) : State :=
  let r := s.hostif.ring
  let bytes := eventRecord r.seq.toNat type ctx queue a b c
  let s := s.setRing { r with seq := r.seq + 1 }
  if r.en ∧ duties s = false then s.setRing { s.hostif.ring with waiting := r.waiting ++ [(r.seq, bytes)] }
  else placeRecord s r.seq bytes

/-- The records that wait are placed, oldest first (R439). -/
def placeWaiting (s : State) : State :=
  s.hostif.ring.waiting.foldl (fun s e => placeRecord s e.1 e.2) (s.setRing { s.hostif.ring with waiting := [] })

/-! ## Poison (R240, R250) -/

/-- The first poisoned 8-byte word among the `n` bytes from a physical address, with its source. -/
def poisonAt (s : State) (pa : Nat) (n : Nat) : Option (Nat × BitVec 3) :=
  (s.poison.find? fun e => decide (pa / 8 ≤ e.1) && decide (e.1 ≤ (pa + n - 1) / 8)).bind
    fun e => if n = 0 then none else some (8 * e.1, e.2)

/-- The trap of an instruction that consumes poison (R240): source s, `tval`, and where the value entered (R252). -/
def Trap.poison (src : BitVec 3) (tval : Word) (row elem : Nat) : Trap :=
  { cause := 0x140 + src.setWidth 9, tval := tval, restart := some (BitVec.ofNat 3 row, BitVec.ofNat 11 elem) }

/-! ## Performing writes (R283) -/

/-- The number of the 128-byte line of an address (R282). -/
def lineOf (a : Nat) : Nat := a / 128

/-- The slice of its home die that a line has: that of the basin of this number (R282). -/
def homeSlice (pa : Nat) : Nat := bitsOf pa 7 4 ^^^ bitsOf pa 11 4 ^^^ bitsOf pa 15 4 ^^^ bitsOf pa 19 4

/-- The home die of a device address (R365). -/
def homeDie (pa : Nat) : Nat := pa / 2 ^ 41 % 4

/-- The near stack or the far channel that holds a line (R282, R365). -/
def memDevice (pa : Nat) : Nat :=
  if pa % 2 ^ 41 < 2 ^ 40 then 3 * homeDie pa + pa % 2 ^ 41 / 128 % 3 else 12 * homeDie pa + (pa % 2 ^ 41 - 2 ^ 40) / 128 % 12

/-- The lines that `n` bytes from `a` touch. -/
def touches (a n line : Nat) : Bool := decide (lineOf a ≤ line) && decide (line ≤ lineOf (a + n - 1))

/-- Every L1 copy of the lines written is invalidated but the writing core's (R283). -/
def dropCopies (cores : SMap Core) (writer : Option Nat) (pa n : Nat) : SMap Core :=
  cores.map fun e => if writer = some e.1 then e else
    (e.1, { e.2 with caches := { e.2.caches with l1d := e.2.caches.l1d.filter fun l => !touches pa n l } })

/-- The poisoned words left after a write: a word written whole is no longer poisoned (R250). -/
def clearPoison (p : SMap (BitVec 3)) (pa n : Nat) : SMap (BitVec 3) :=
  p.filter fun e => !(decide (pa ≤ 8 * e.1) && decide (8 * e.1 + 8 ≤ pa + n))

/-- The lines written that the host holds are taken back: the snoop filter tracks them no longer (R397, log 42). -/
def HostIf.snoop (h : HostIf) (pa n : Nat) : HostIf := { h with held := h.held.filter fun l => !touches pa n l }

/-- A write is performed at its home slice (R283). `writer` is the core whose own scalar store it is. -/
def devWrite (s : State) (writer : Option Nat) (pa : Nat) (data : List Byte) : State :=
  { s with mem := writeBytes s.mem pa data
           poison := clearPoison s.poison pa data.length
           cores := dropCopies s.cores writer pa data.length
           hostif := s.hostif.snoop pa data.length }

/-- How the host answers for the page of a place in its memory; a page it does not list accepts everything (R392). -/
def hostPage (s : State) (place : Nat) : HostPage :=
  (s.hostif.pages.find? fun p => p.page = place / 4096).getD
    { page := place / 4096, readOk := true, writeOk := true, atomicOk := true, ats := true }

/-- The address is canonical: bits [63:55] are all equal (R107). -/
def canonical (ea : Word) : Bool := decide (bitsOf ea.toNat 55 9 = 0) || decide (bitsOf ea.toNat 55 9 = 511)

/-! ## Contexts of cores (R361, R363) -/

/-- A context owns rows while it is Active, Saving or Restoring (R362). -/
def CtxState.owns : CtxState → Bool
  | .active | .saving | .restoring => true
  | _ => false

/-- The row of a coordinate (R46). -/
def coordRow (c : BitVec 32) : Nat := c.toNat / 2 ^ 8 % 64

/-- The column of a coordinate (R46). -/
def coordCol (c : BitVec 32) : Nat := c.toNat % 128

/-- The package field of a coordinate (R46). -/
def coordPkg (c : BitVec 32) : Nat := c.toNat / 2 ^ 22

/-- A coordinate of this package (R46). -/
def coordOf (s : State) (col row : Nat) : BitVec 32 :=
  BitVec.ofNat 32 (s.hostif.regs.pkgid.toNat * 2 ^ 22 + row * 2 ^ 8 + col)

/-- A context and its number that a predicate on its state accepts and whose rows hold row r. -/
def ctxOfRow (s : State) (p : CtxState → Bool) (r : Nat) : Option (Nat × Ctx) :=
  s.ctxs.find? fun e => p e.2.st && e.2.rows.getLsbD r

/-- The context a core belongs to: the one whose rows hold its row (R361). -/
def ctxOfAgent (s : State) (k : Nat) : Option (Nat × Ctx) :=
  let c := s.coreOf k
  if k < 4096 ∧ c.asg.valid ∧ c.asg.spare = false then ctxOfRow s CtxState.owns (coordRow c.coreid) else none

/-- The place of host address h in host memory, by the PASID of the access: each PASID has an address space of its own, one after another
above that of the accesses without one (R391, log 40). -/
def Ctx.hostPlace (c : Ctx) (h : Nat) : Nat := if c.pasidEn then (c.pasid.toNat + 1) * 2 ^ 51 + h else h

/-- The place of a host address as an agent's accesses reach it. -/
def hostPlace (s : State) (agent h : Nat) : Nat :=
  match ctxOfAgent s agent with | some (_, c) => c.hostPlace h | none => h

/-- The host refuses an access of this context and page (R392). -/
def hostRefuses (s : State) (agent h : Nat) (write : Bool) : Bool :=
  let p := hostPage s (hostPlace s agent h)
  let noPasid := match ctxOfAgent s agent with | some (_, c) => !c.pasidEn | none => false
  noPasid || (if write then !p.writeOk else !p.readOk)

/-- A write to host memory is performed at the host, or dropped and reported as type 0x06 (R391, R392, R403). -/
def hostWrite (s : State) (agent h : Nat) (data : List Byte) : State :=
  if hostRefuses s agent h true then
    s.emit 0x06 (match ctxOfAgent s agent with | some (n, _) => n | none => 0xFF) 0xFFFF h 1 0
  else { s with hostMem := writeBytes s.hostMem (hostPlace s agent h) data }

/-! ## Stores on their way (R107, R283, R295) -/

/-- One store of a core is performed at its home. -/
def performStore (s : State) (agent : Nat) (p : PStore) : State :=
  match p.loc with
  | .dev pa => devWrite s (some agent) pa p.data
  | .host h => hostWrite s agent h p.data
  | _ => s

/-- Performs, in order, those stores of a core that `f` selects; the others stay on their way. -/
def performWhere (s : State) (agent : Nat) (f : PStore → Bool) : State :=
  let c := s.coreOf agent
  (c.pstores.filter f).foldl (fun s p => performStore s agent p)
    (s.setCoreOf agent { c with pstores := c.pstores.filter fun p => !f p })

def Loc.isDev : Loc → Bool | .dev _ => true | _ => false

/-- Every store of the core to device memory is performed: what a release of any scope but system leaves (R293). -/
def flushDev (s : State) (agent : Nat) : State := performWhere s agent fun p => p.loc.isDev

/-- Every store of the core is performed, those to the host behind them (R300). -/
def flushAll (s : State) (agent : Nat) : State := performWhere s agent fun _ => true

/-- The core's stores to the host are performed: what a read of host memory finds done, since no posted write is overtaken at the port (R282,
R300, R391). -/
def hostSync (s : State) (agent : Nat) : State := performWhere s agent fun p => !p.loc.isDev

/-- The bytes an agent reads at a host address, and their little-endian value. -/
def hostBytes (s : State) (agent h n : Nat) : List Byte := readBytes s.hostMem (hostPlace s agent h) n

def hostRead (s : State) (agent h n : Nat) : Nat := readLE s.hostMem (hostPlace s agent h) n

/-- The store writes one of `n` bytes from a device address. -/
def PStore.overlaps (p : PStore) (pa n : Nat) : Bool :=
  match p.loc with
  | .dev a => decide (a < pa + n) && decide (pa < a + p.data.length)
  | _ => false

/-- Before an access that bypasses the L1 is performed on a line, the core's own stores there are performed and its copy
is evicted (R110, R283). -/
def bypass (s : State) (agent pa n : Nat) : State :=
  let s := performWhere s agent fun p => p.overlaps (128 * lineOf pa) (128 * (lineOf (pa + n - 1) - lineOf pa) + 128)
  let c := s.coreOf agent
  s.setCoreOf agent { c with caches := { c.caches with l1d := c.caches.l1d.filter fun l => !touches pa n l } }

/-- The store's byte at a place, where it writes it. -/
def PStore.byteAt (p : PStore) (loc : Loc) : Option Byte :=
  match p.loc, loc with
  | .dev q, .dev x | .host q, .host x => if q ≤ x then p.data[x - q]? else none
  | _, _ => none

/-- The byte a core's harts see at a place: its newest store on its way, else the home's (R287, R295). -/
def coreByte (ps : List PStore) (loc : Loc) (home : Byte) : Byte :=
  ps.foldl (fun b p => (p.byteAt loc).getD b) home

/-- The little-endian value of `n` bytes of device memory as the harts of a core see them. -/
def devValue (m : Memory) (ps : List PStore) (a : Nat) : Nat → Nat
  | 0 => 0
  | n + 1 => (coreByte ps (.dev a) (readByte m a)).toNat + 256 * devValue m ps (a + 1) n

/-- The L1 data cache after a fill: the newest line last, 256 lines at most (R4). -/
def l1Fill (ls : List Nat) (l : Nat) : List Nat :=
  let ls := ls.filter (· ≠ l)
  (if ls.length < 256 then ls else ls.drop 1) ++ [l]

/-- A scalar load at U, S or M of device memory fills the L1; a fill waits until the core's stores to the line have been
performed (R107, R283). -/
def fillLine (s : State) (agent pa : Nat) : State :=
  let c := s.coreOf agent
  if c.caches.l1d.contains (lineOf pa) then s
  else
    let s := performWhere s agent fun p => p.overlaps (128 * lineOf pa) 128
    let c := s.coreOf agent
    s.setCoreOf agent { c with caches := { c.caches with l1d := l1Fill c.caches.l1d (lineOf pa) } }

/-! ## Translation (R366 to R368) -/

/-- A translated page: where it lies and what it permits. -/
structure Page where
  /-- First virtual and physical address of the page. -/
  va : Nat
  pa : Nat
  size : Nat
  mtype : BitVec 2
  /-- a, u, x, w, r in bits 4 to 0 (leaf bits [5:1]). -/
  perm : BitVec 5
  dirty : Bool
  level : Nat
  /-- Address and value of the leaf entry the walk used. -/
  eaddr : Nat
  entry : Nat
  deriving DecidableEq, Repr

/-- The sixteen leaves of a 64 KiB group agree (R366): `c64` set, bits [11:0] equal but for `acc` and `dirty`, and
consecutive page numbers. `g` is the address of the group's first entry. -/
def groupOk (m : Memory) (g : Nat) : Bool :=
  let e0 := readLE m g 8
  (List.range 16).all fun i =>
    let e := readLE m (g + 8 * i) 8
    bitOf e 9 && decide (bitsOf e 0 7 = bitsOf e0 0 7) && decide (bitsOf e 9 3 = bitsOf e0 9 3)
      && decide (bitsOf e 12 40 = bitsOf e0 12 40 + i) && decide (bitsOf e 52 12 = 0)

/-- Bit of a leaf that an access class needs: load r, store w, fetch x, atomic a (R367). -/
def needBit (acc : Nat) : Nat := if acc = 0 then 1 else if acc = 1 then 2 else if acc = 2 then 3 else 5

/-- Checks a leaf at a level (R367): the page, or the reason of the fault. -/
def checkLeaf (m : Memory) (va eaddr e level acc : Nat) (user : Bool) : Except (Nat × Nat) Page :=
  let sz := 2 ^ (12 + 9 * level)
  let ppn := bitsOf e 12 40
  let mtype := bitsOf e 10 2
  let grp := bitOf e 9
  if level = 3 ∨ mtype = 3 then .error (3, level)
  else if 0 < level ∧ (grp ∨ ppn % 2 ^ (9 * level) ≠ 0) then .error (3, level)
  else if grp ∧ groupOk m (eaddr / 128 * 128) = false then .error (3, 0)
  else
    let pa := ppn * 4096
    let bad := match paLoc pa with
      | .dev _ => decide (mtype = 1 ∧ 2 ^ 41 ≤ pa)
      | .host _ => decide (mtype = 1)
      | _ => true
    if bad then .error (3, level)
    else if user ∧ bitOf e 4 = false then .error (2, level)
    else if bitOf e (needBit acc) = false then .error (1, level)
    else .ok { va := if grp then va / 2 ^ 16 * 2 ^ 16 else va / sz * sz
               pa := if grp then pa - 4096 * (va / 4096 % 16) else pa
               size := if grp then 2 ^ 16 else sz
               mtype := BitVec.ofNat 2 mtype, perm := BitVec.ofNat 5 (bitsOf e 1 5), dirty := bitOf e 8
               level := level, eaddr := eaddr, entry := e }

/-- A walk from the table at `t` for the levels left (R367): `n` is the level above the next entry. -/
def walkFrom (m : Memory) (va acc : Nat) (user : Bool) : Nat → Nat → Except (Nat × Nat) Page
  | 0, _ => .error (0, 0)
  | n + 1, t =>
    let i := if n = 3 then bitsOf va 39 17 else bitsOf va (12 + 9 * n) 9
    let ea := t + 8 * i
    let e := readLE m ea 8
    if bitOf e 0 = false then .error (0, n)
    else if bitsOf e 52 12 ≠ 0 then .error (3, n)
    else if bitOf e 6 then checkLeaf m va ea e n acc user
    else if n = 0 ∨ bitsOf e 1 11 ≠ 0 then .error (3, n)
    else if isDev (bitsOf e 12 40 * 4096) = false then .error (3, n)
    else walkFrom m va acc user n (bitsOf e 12 40 * 4096)

/-- A walk that makes every check and no update (R367). -/
def walkCheck (s : State) (c : Ctx) (va acc : Nat) (user : Bool) : Except (Nat × Nat) Page :=
  walkFrom s.mem va acc user 4 (c.root.toNat * 2 ^ 20)

/-- The walk sets `acc`, and `dirty` when the access writes (R367). -/
def walkUpdate (s : State) (p : Page) (acc : Nat) : State :=
  let writes := acc = 1 ∨ acc = 3
  if bitOf p.entry 7 = false ∨ (writes ∧ p.dirty = false) then
    let e := p.entry ||| 2 ^ 7 ||| (if writes then 2 ^ 8 else 0)
    devWrite s none p.eaddr (leBytes 8 e)
  else s

/-- The cause of a translation fault (R98). -/
def xlatCause (acc reason level : Nat) : BitVec 9 := BitVec.ofNat 9 (0x0A0 + 16 * acc + 4 * reason + level)

/-- The entry serves the access: right context and page, permission, and `dirty` for a write (R368, log 8). -/
def TlbEntry.serves (e : TlbEntry) (ctx va acc : Nat) (user : Bool) : Bool :=
  decide (e.ctx = ctx) && decide (e.va ≤ va) && decide (va < e.va + e.size)
    && bitOf e.perm.toNat (needBit acc - 1) && (!user || bitOf e.perm.toNat 3)
    && (!(decide (acc = 1) || decide (acc = 3)) || e.dirty)

/-- A TLB with an entry added: an older entry of the page goes, and the oldest one when the TLB is full (log 8). -/
def tlbAdd (cap : Nat) (t : List TlbEntry) (e : TlbEntry) : List TlbEntry :=
  let t := t.filter fun x => !(decide (x.ctx = e.ctx) && decide (x.va = e.va))
  (if t.length < cap then t else t.drop 1) ++ [e]

/-- The translation of a page that a walk of an access class found. -/
def Page.tlb (p : Page) (ctx acc : Nat) : TlbEntry :=
  { ctx := ctx, va := p.va, size := p.size, pa := p.pa, mtype := p.mtype, perm := p.perm
    dirty := p.dirty || decide (acc = 1) || decide (acc = 3) }

/-- What a translation answers: the page of the access. -/
structure Xlat where
  loc : Loc
  /-- I/O page (R108). -/
  io : Bool
  replica : Bool
  level : Nat
  entry : TlbEntry
  deriving DecidableEq, Repr

/-- Where address `va` of a cached page lies for an agent of die d: on a replica page the die's own replica (R108, R365). -/
def TlbEntry.locate (e : TlbEntry) (d va : Nat) : Loc :=
  let pa := e.pa + (va - e.va)
  paLoc (if e.mtype = 1 then pa + d * 2 ^ 41 else pa)

/-- Level of a page by its size. -/
def sizeLevel (n : Nat) : Nat := if n = 2 ^ 30 then 2 else if n = 2 ^ 21 then 1 else 0

def Xlat.mk' (e : TlbEntry) (d va : Nat) : Xlat :=
  { loc := e.locate d va, io := decide (e.mtype = 2), replica := decide (e.mtype = 1), level := sizeLevel e.size
    entry := e }

/-- The basin that serves an agent's translations (R6, R368). -/
def basinOfAgent (k : Nat) : Nat := if k < 4096 then basinOfSite k else (k - 4096) % 64

/-- Translates an access of the core at U or S (R107, R367, R368): L1 TLB unless `l2only`, then the basin's L2 TLB, then
a walk; a core of no context has no root table. Answers the page and the state with TLBs and page-table bits
updated, or the cause. -/
def translate (s : State) (agent : Nat) (va : Word) (acc : Nat) (user l2only : Bool) :
    Except (BitVec 9) (Xlat × State) :=
  match ctxOfAgent s agent with
  | none => .error (xlatCause acc 0 3)
  | some (n, cx) =>
    let d := dieOfAgent agent
    let v := va.toNat
    let c := s.coreOf agent
    let b := basinOfAgent agent
    let hit1 := if l2only then none else c.caches.tlb.find? fun e => e.serves n v acc user
    match hit1 with
    | some e => .ok (Xlat.mk' e d v, s)
    | none =>
      let addL1 := fun (s : State) (e : TlbEntry) =>
        if l2only then s else
          let c := s.coreOf agent
          s.setCoreOf agent { c with caches := { c.caches with tlb := tlbAdd 64 c.caches.tlb e } }
      match (s.basin b).tlb.find? fun e => e.serves n v acc user with
      | some e => .ok (Xlat.mk' e d v, addL1 s e)
      | none =>
        match walkCheck s cx v acc user with
        | .error (r, l) => .error (xlatCause acc r l)
        | .ok p =>
          let s := walkUpdate s p acc
          let e := p.tlb n acc
          let bs := s.basin b
          .ok (Xlat.mk' e d v, addL1 (s.setBasin b { bs with tlb := tlbAdd 4096 bs.tlb e }) e)

/-! ## Fetch (R75, R98, R234, R367, R460) -/

/-- The word at `off` bytes of a line. -/
def lineWord (l : List Byte) (off : Nat) : BitVec 32 := BitVec.ofNat 32 (leValue ((l.drop off).take 4))

/-- The word of an instruction line at `off`: poison is consumed where it lies in a poisoned word (R250). -/
def ILine.word (l : ILine) (off : Nat) : Except (BitVec 3) (BitVec 32) :=
  match smFind (off / 8) l.bad with
  | some src => .error src
  | none => .ok (lineWord l.bytes off)

/-- A line as it is read from device memory: its bytes, and which of its words are poisoned. -/
def readLine (s : State) (line : Nat) : ILine :=
  { bytes := readBytes s.mem (128 * line) 128
    bad := (s.poison.filter fun e => decide (e.1 / 16 = line)).map fun e => (e.1 % 16, e.2) }

/-- The executing core's instruction lines become `l`. -/
def State.setLines (s : State) (l : SMap ILine) : State := s.setC { s.c with caches := { s.c.caches with l1i := l } }

/-- A fetch from device memory goes through the L1 instruction cache, which keeps the line it read until `ifence` or a launch (R234, R380); a line
of an I/O page is kept in no cache (R282). A fetch of a poisoned word consumes poison and keeps no copy of its line, so that a repaired word is
fetched anew (R240, R250, R253). -/
def fetchDev (s : State) (va : Word) (pa : Nat) (io : Bool) : Res (BitVec 32 × State) :=
  let n := lineOf pa
  let ls := s.c.caches.l1i
  let held := if io then none else smFind n ls
  let l := held.getD (readLine s n)
  match l.word (pa % 128) with
  | .error src => .error (if held.isSome then s.setLines (smDel n ls) else s, Trap.poison src va 0 0)
  | .ok w => .ok (w, if io || held.isSome then s else s.setLines (smSet n l (if ls.length < 256 then ls else ls.drop 1)))

/-- Reads the word at a place. A place without memory reads the all-zero word (R367). -/
def fetchLoc (s : State) (va : Word) (loc : Loc) (io : Bool) : Res (BitVec 32 × State) :=
  match loc with
  | .dev pa => fetchDev s va pa io
  | .own o =>
    if s.c.spBad.contains (o / 4) then .error (s, Trap.poison 3 va 0 0) else .ok (BitVec.ofNat 32 (readLE s.c.sp o 4), s)
  | .host h =>
    let s := hostSync s s.agent
    if hostRefuses s s.agent h false then .error (s, Trap.poison 4 va 0 0)
    else .ok (BitVec.ofNat 32 (hostRead s s.agent h 4), s)
  | _ => .ok (0, s)

/-- Fetches the word at an address for the executing hart. Under boot fetch an M fetch below 0x40000 reads the site's own
scratchpad (R460). -/
def fetchAt (s : State) (va : Word) : Res (BitVec 32 × State) :=
  if bitsOf va.toNat 55 9 ≠ 0 ∧ bitsOf va.toNat 55 9 ≠ 511 then .error (s, Trap.of 0x0E1 va)
  else if s.priv = 3 then
    if s.onCore && s.c.bootFetch && decide (va.toNat < 0x40000) then fetchLoc s va (.own va.toNat) false
    else fetchLoc s va (physLoc s.agent va.toNat) false
  else
    match translate s s.agent va 2 (s.priv = 0) false with
    | .error c => .error (s, Trap.of c va)
    | .ok (x, s) => fetchLoc s va x.loc x.io

/-- Fetches the word at the pc of the executing hart. -/
def fetch (s : State) : Res (BitVec 32 × State) := fetchAt s s.pc

end Sys2Proof.Machine
end

