-- ==== Sys2Proof/Machine/Operands.lean ====
section
/-! DEFINITION. Operand forms: tiles, groups, elements, masks and sweeps of the vector unit (R20 to R27, R44, R119 to R124),
convoys (R33 to R37), and the register runs, coordinates and descriptors of messages (R184 to R186). -/

namespace Sys2Proof.Machine

/-! ## Checks -/

/-- An illegal-operand condition: the trap where it does not hold. -/
def need (ok : Bool) (tval : Word) : Option Trap := if ok then none else some (Trap.operand tval)

/-- The first trap of a list of checks (R85). -/
def firstTrap (l : List (Option Trap)) : Option Trap := l.findSome? id

/-- The word in execution, as a `tval`. -/
def State.wordVal (s : State) : Word := s.word.setWidth 64

/-! ## Shape (R23 to R26) -/

def State.vl (s : State) : Nat := s.h.shape.vl.toNat

def State.vrows (s : State) : Nat := s.h.shape.vrows.toNat

/-- Element width in bits (R26). -/
def State.sew (s : State) : Nat := 8 * 2 ^ s.h.shape.sew.toNat

/-- Row and element of a position (R44). -/
def posRow (p : Word) : Nat := bitsOf p.toNat 16 3

def posElem (p : Word) : Nat := bitsOf p.toNat 0 11

/-- A non-zero `vstart` must lie in the tile, unless `vl` = 0 (R44). -/
def checkStart (s : State) : Option Trap :=
  let p := s.h.shape.vstart
  need (s.vl = 0 || p = 0 || (decide (posRow p < s.vrows) && decide (posElem p < s.vl))) p

/-- A field that names a group holds a multiple of `vrows` (R24). -/
def checkGroup (s : State) (r : BitVec 5) : Option Trap := need (r.toNat % s.vrows = 0) (r.setWidth 64)

/-- A field that names a B-operand group holds a multiple of 8 (R24). -/
def checkGroup8 (r : BitVec 5) : Option Trap := need (r.toNat % 8 = 0) (r.setWidth 64)

/-- The groups of `vrows` registers named by two fields overlap. -/
def groupsMeet (s : State) (a b : BitVec 5) : Bool :=
  decide (a.toNat < b.toNat + s.vrows) && decide (b.toNat < a.toNat + s.vrows)

/-! ## Positions (R25, R119) -/

/-- The position is not before `vstart`. -/
def notBefore (p : Word) (j i : Nat) : Bool :=
  decide (posRow p < j) || (decide (posRow p = j) && decide (posElem p ≤ i))

/-- The position lies before the bound of `vstop`, where there is one (R138). -/
def beforeStop (p : Word) (j i : Nat) : Bool :=
  !p.getLsbD 63 || decide (j < posRow p) || (decide (j = posRow p) && decide (i < posElem p))

/-- The positions of a tile in element order (R25). -/
def tile (rows vl : Nat) : List (Nat × Nat) := (List.range rows).flatMap fun j => (List.range vl).map fun i => (j, i)

/-- The positions a sweep reaches: from `vstart`, before the bound of `vstop` unless it is ignored (R119, R138). -/
def reached (s : State) (bound : Bool) : List (Nat × Nat) :=
  (tile s.vrows s.vl).filter fun p =>
    notBefore s.h.shape.vstart p.1 p.2 && (!bound || beforeStop s.h.shape.vstop p.1 p.2)

/-- The active positions under a mask register (R119). -/
def active (s : State) (mask : BitVec 3) : List (Nat × Nat) :=
  (reached s true).filter fun p => s.h.maskBit mask p.1 p.2

/-! ## Elements (R120) -/

/-- Element i, of w bits, of row j of the group whose first register is n. -/
def Hart.elem (h : Hart) (n w j i : Nat) : Nat := bitsOf (h.row (n + j)).toNat (w * i) w

/-- Element i, of w bits, of row j of the group whose first register is n, written. -/
def Hart.setElem (h : Hart) (n w j i v : Nat) : Hart := h.setRow (n + j) (rowPut (h.row (n + j)) (w * i) w v)

/-- Writes `f` at each of a list of positions of a group; the other elements are undisturbed. -/
def Hart.putElems (h : Hart) (n w : Nat) (ps : List (Nat × Nat)) (f : Nat → Nat → Nat) : Hart :=
  ps.foldl (fun g p => g.setElem n w p.1 p.2 (f p.1 p.2)) h

/-- Bit (j, i) of a mask register written (R21). -/
def Hart.setMaskBit (h : Hart) (n : BitVec 3) (j i : Nat) (b : Bool) : Hart :=
  let m := h.mask n
  let k := 1024 * j + i
  let one : Mask := (1 : Mask) <<< k
  h.setMask n (if b then m ||| one else m &&& ~~~one)

/-- Writes `f` at each of a list of positions of a mask register. -/
def Hart.putMask (h : Hart) (n : BitVec 3) (ps : List (Nat × Nat)) (f : Nat → Nat → Bool) : Hart :=
  ps.foldl (fun g p => g.setMaskBit n p.1 p.2 (f p.1 p.2)) h

/-- The flags that a list of positions raises. -/
def orFlagsAt (ps : List (Nat × Nat)) (f : Nat → Nat → Flags) : Flags :=
  ps.foldl (fun a p => a ||| f p.1 p.2) 0

/-- The registers of a group. -/
def groupRegs (s : State) (n : BitVec 5) : List Nat := (List.range s.vrows).map (n.toNat + ·)

/-! ## Convoys (R33 to R37) -/

/-- Permute network (R36). -/
def unitPermute : BitVec 5 := 1
/-- Scratchpad port. -/
def unitScratch : BitVec 5 := 2
/-- Global memory port. -/
def unitGlobal : BitVec 5 := 4
/-- Matrix datapath. -/
def unitMatrix : BitVec 5 := 8
/-- Sluice command port. -/
def unitSluice : BitVec 5 := 16

/-- What a vector-queue instruction claims, reads across groups and writes (R35, R36, R124). -/
structure Claim where
  /-- Its convoy-start bit C. -/
  conv : Bool
  units : BitVec 5
  /-- It is a cross-group reader. -/
  cross : Bool
  /-- The v and m registers it reads. -/
  rv : List Nat
  rm : List Nat
  /-- The v and m registers it writes. -/
  wv : List Nat
  wm : List Nat
  deriving DecidableEq, Repr

/-- An earlier member conflicts with an instruction: it holds a unit the instruction claims, or wrote a register that the
cross-group reader reads (R35 to R37). -/
def Member.conflicts (m : Member) (c : Claim) : Bool :=
  (m.units &&& c.units) ≠ 0 ||
    (c.cross && (m.vregs.any c.rv.contains || m.mregs.any fun r => decide (r ≠ 0) && c.rm.contains r))

/-- The members of the convoy an instruction joins: none where it starts one (R33). -/
def convoyOf (h : Hart) (c : Claim) : List Member :=
  if c.conv || h.fresh || decide (8 ≤ h.convoy.length) then [] else h.convoy

/-- Joins the convoy: the members with the instruction added, or the address of the earlier member it conflicts with. R37 speaks of one such member;
where there are several, the first in program order is named (the model's choice, log 41). -/
def joinConvoy (s : State) (c : Claim) : Except Word (List Member) :=
  let ms := convoyOf s.h c
  match ms.find? fun m => m.conflicts c with
  | some m => .error m.addr
  | none => .ok (ms ++ [{ addr := s.pc, units := c.units, vregs := c.wv, mregs := c.wm }])

/-- A vector-queue instruction that has completed: `vstart` is 0 and the convoy has one member more (R33, R44). -/
def State.vdone (s : State) (cv : List Member) : State :=
  s.setH { s.h with convoy := cv, fresh := false, shape := { s.h.shape with vstart := 0 } }

/-- An instruction refused by the earlier member of its convoy at `addr` (R37): the hart keeps the convoy, so that a return to the instruction
meets it again (R249). -/
def refuseConvoy (s : State) (addr : Word) : Out :=
  let r : Refused := { addr := s.pc, priv := s.priv, members := s.h.convoy }
  raise (s.setH { s.h with refused := r :: s.h.refused.filter fun q => decide (q.priv ≠ r.priv) }) (Trap.of 0x042 addr)

/-- A vector-queue instruction: its operand checks, then its convoy, then its effect (R85, R119). -/
def vecOp (s : State) (c : Claim) (check : Option Trap) (eff : State → State) : Out :=
  match check with
  | some t => raise s t
  | none =>
    match joinConvoy s c with
    | .error a => refuseConvoy s a
    | .ok cv => finish ((eff s).vdone cv)

/-- The second operand of a V3 form: a vector element, or the low bits of the scalar register (R120). -/
def opB (s : State) (scalar : Bool) (vs2 : BitVec 5) (w j i : Nat) : Nat :=
  if scalar then (s.x vs2).toNat % 2 ^ w else s.h.elem vs2.toNat w j i

/-- The width code of a word names `vtype.sew` (R121). -/
def checkWidth (s : State) (ty : BitVec 2) : Option Trap := need (8 * 2 ^ ty.toNat = s.sew) s.wordVal

/-- Wide elements fit a row and the narrow width is at most 32 bits (R122, R126, R127). -/
def checkWide (s : State) : Option Trap := need (decide (s.sew ≤ 32) && decide (s.vl * (2 * s.sew) ≤ 4096)) s.wordVal

/-- The format a code of R121 names, and its width as `vtype.sew` holds it. -/
def fmtCode (ty : BitVec 2) : FpFmt := if ty = 0 then .f64 else if ty = 1 then .f32 else if ty = 2 then .f16 else .bf16

def checkFmt (s : State) (f : FpFmt) : Option Trap := need (fpWidth f = s.sew) s.wordVal

/-- The format of a V4 or reduction form by SEW, or BF16 (R132, R137). -/
def fmtOfSew (s : State) (bf16 : Bool) : FpFmt :=
  if bf16 then .bf16 else if s.sew = 64 then .f64 else if s.sew = 32 then .f32 else .f16

/-- The widths a floating-point form by SEW permits. -/
def checkFpSew (s : State) (bf16 : Bool) : Option Trap :=
  need (if bf16 then s.sew = 16 else s.sew ≠ 8) s.wordVal

/-- The v registers a form reads: its groups, the second only where it is no scalar. -/
def readGroups (s : State) (vs1 : BitVec 5) (scalar : Bool) (vs2 : BitVec 5) : List Nat :=
  groupRegs s vs1 ++ (if scalar then [] else groupRegs s vs2)

/-- An elementwise claim: no unit (R36, R124). -/
def claimElem (conv : Bool) (mask : BitVec 3) (rv wv wm : List Nat) : Claim :=
  { conv := conv, units := 0, cross := false, rv := rv, rm := [mask.toNat], wv := wv, wm := wm }

/-- A width-changing claim: no unit, a cross-group reader (R124). -/
def claimCross (conv : Bool) (mask : BitVec 3) (rv wv : List Nat) : Claim :=
  { conv := conv, units := 0, cross := true, rv := rv, rm := [mask.toNat], wv := wv, wm := [] }

/-- A claim of the permute network (R124). -/
def claimPermute (conv : Bool) (rm rv wv : List Nat) : Claim :=
  { conv := conv, units := unitPermute, cross := true, rv := rv, rm := rm, wv := wv, wm := [] }

/-! ## Coordinates and descriptors (R184 to R186) -/

/-- A coordinate's form (R184): column, row and package fields in range, every other bit 0. -/
def coordOk (v : Word) : Bool :=
  decide (bitsOf v.toNat 0 7 < 80) && decide (bitsOf v.toNat 8 6 < 50) && !bitOf v.toNat 7
    && decide (bitsOf v.toNat 14 8 = 0) && decide (v.toNat / 2 ^ 32 = 0)

/-- The coordinate with this package's identifier in place of 0x3FF (R184, R269). -/
def realCoord (s : State) (v : BitVec 32) : BitVec 32 :=
  if coordPkg v = 0x3FF then BitVec.ofNat 32 (v.toNat % 2 ^ 22 + s.hostif.regs.pkgid.toNat * 2 ^ 22) else v

/-- The coordinate lies in the reach of the executing core's context; a core that runs no task reaches nothing (R363). -/
def inReach (s : State) (v : BitVec 32) : Bool :=
  match s.h.run, ctxOfAgent s s.agent with
  | .task _, some (_, cx) =>
    if coordPkg (realCoord s v) = s.hostif.regs.pkgid.toNat then cx.rows.getLsbD (coordRow v)
    else cx.reachMap.getLsbD (coordPkg v)
  | _, _ => false

/-- The fields of a message descriptor (R185). -/
def descOffset (d : Word) : Nat := bitsOf d.toNat 0 18
def descChan (d : Word) : Nat := bitsOf d.toNat 18 6
def descTag (d : Word) : Nat := bitsOf d.toNat 24 5
def descWake (d : Word) : Bool := bitOf d.toNat 29
def descLen (d : Word) : Nat := bitsOf d.toNat 32 13

/-- A descriptor's reserved bits are 0 (R185). -/
def descOk (d : Word) : Bool := decide (bitsOf d.toNat 30 2 = 0) && decide (bitsOf d.toNat 45 19 = 0)

/-- A register run of n registers from xp (R186). -/
def runOk (xp : BitVec 5) (n : Nat) : Bool := decide (xp ≠ 0) && decide (xp.toNat + n ≤ 32)

/-- Register q of a run. -/
def State.runReg (s : State) (xp : BitVec 5) (q : Nat) : Word := s.x (BitVec.ofNat 5 (xp.toNat + q))

end Sys2Proof.Machine
end

