-- ==== Sys2Proof/Machine/Raster.lean ====
section
/-! DEFINITION. Exact geometry: rationals rounded once, primitive records, coverage and depth (R56 to R58, R216, R327 to R331). -/

namespace Sys2Proof.Machine

/-! ## Exact values -/

/-- The rational a finite value stands for; a NaN or an infinity has none. -/
def FVal.rat : FVal → Option Rat
  | .fin neg m e => some (mkRat (if neg then -((m * 2 ^ e.toNat : Nat) : Int) else ((m * 2 ^ e.toNat : Nat) : Int)) (2 ^ (-e).toNat))
  | _ => none

/-- The rational of an FP32 encoding. -/
def f32Rat (bits : Nat) : Option Rat := (fpDecode .f32 bits).rat

/-- An exact value rounded once to FP32 in RNE; `negZero` says that an exact zero is −0 (R56, R58). -/
def ratToF32 (q : Rat) (negZero : Bool) : Nat :=
  let n := q.num.natAbs
  if n = 0 then zeroBits .f32 negZero
  else
    let sh := 64 + Nat.log2 q.den
    (roundTo .f32 false .rne (decide (q.num < 0)) (n * 2 ^ sh / q.den) (-(sh : Int)) (decide (n * 2 ^ sh % q.den ≠ 0))).1

/-- A little-endian field of a record. -/
def recField (l : List Byte) (off n : Nat) : Nat := leValue ((l.drop off).take n)

/-! ## Primitive records (R216) -/

/-- Value i of `vtx`: x0, y0, z0, x1, … -/
def Prim.vtx (p : Prim) (i : Nat) : Nat := recField p.data (4 * i) 4

def Prim.flags (p : Prim) : Nat := recField p.data 44 4

def Prim.primid (p : Prim) : Nat := recField p.data 40 4

/-- The record takes the blended pass. -/
def Prim.blend (p : Prim) : Bool := decide (p.flags / 4 % 2 = 1)

/-- The record a `qpush` hands over: 64 bytes. -/
def primOf (data : List Byte) : Prim := { seq := BitVec.ofNat 32 (recField data 36 4), data := data }

/-- The flags and reserved bytes that a `qpush` checks (R217). -/
def primOk (data : List Byte) : Bool :=
  decide (recField data 44 4 % 4 ≠ 3) && decide (recField data 44 4 / 8 = 0) && decide (recField data 56 8 = 0)

/-- A coordinate snapped to 1/256 (R330). -/
def snap (bits : Nat) : Int :=
  match fpDecode .f32 bits with
  | .fin neg m e =>
    let r := (roundMag .rne neg m (e + 8) false 0).1
    if neg then -(r : Int) else r
  | _ => 0

/-- A triangle in fixed point with its depths as encodings. -/
structure Tri where
  x0 : Int
  y0 : Int
  z0 : Nat
  x1 : Int
  y1 : Int
  z1 : Nat
  x2 : Int
  y2 : Int
  z2 : Nat
  deriving DecidableEq, Repr

def Prim.tri (p : Prim) : Tri :=
  { x0 := snap (p.vtx 0), y0 := snap (p.vtx 1), z0 := p.vtx 2, x1 := snap (p.vtx 3), y1 := snap (p.vtx 4), z1 := p.vtx 5
    x2 := snap (p.vtx 6), y2 := snap (p.vtx 7), z2 := p.vtx 8 }

/-- The edge function E_ab at a point (R330). -/
def edge (xa ya xb yb px py : Int) : Int := (xb - xa) * (py - ya) - (yb - ya) * (px - xa)

/-- The area A. -/
def Tri.area (t : Tri) : Int := edge t.x0 t.y0 t.x1 t.y1 t.x2 t.y2

/-- Vertices 1 and 2 exchanged where the area is negative (R330). -/
def Tri.oriented (t : Tri) : Tri :=
  if t.area < 0 then { t with x1 := t.x2, y1 := t.y2, z1 := t.z2, x2 := t.x1, y2 := t.y1, z2 := t.z1 } else t

/-- The edge from a to b is top-left (R330). -/
def topLeft (xa ya xb yb : Int) : Bool := decide (yb - ya < 0) || (decide (yb = ya) && decide (0 < xb - xa))

/-- An edge test of R330. -/
def edgeIn (xa ya xb yb px py : Int) : Bool :=
  let e := edge xa ya xb yb px py
  decide (0 < e) || (decide (e = 0) && topLeft xa ya xb yb)

/-- The record is culled: 1 back faces, 2 front faces (R330). -/
def Prim.culled (p : Prim) : Bool :=
  let a := p.tri.area
  (decide (p.flags % 4 = 1) && decide (a < 0)) || (decide (p.flags % 4 = 2) && decide (0 < a))

/-- The record draws nothing: zero area or culled (R329). -/
def Prim.empty (p : Prim) : Bool := decide (p.tri.area = 0) || p.culled

/-- The record covers a pixel inside the frame (R330). -/
def Prim.covers (p : Prim) (x y : Nat) : Bool :=
  let t := p.tri.oriented
  let px : Int := 256 * x + 128
  let py : Int := 256 * y + 128
  !p.empty && edgeIn t.x1 t.y1 t.x2 t.y2 px py && edgeIn t.x2 t.y2 t.x0 t.y0 px py && edgeIn t.x0 t.y0 t.x1 t.y1 px py

/-- The depth at a covered pixel, rounded once (R331); an exact zero is −0 where every depth is negative (R58). -/
def Prim.depthAt (p : Prim) (x y : Nat) : Nat :=
  let t := p.tri.oriented
  let px : Int := 256 * x + 128
  let py : Int := 256 * y + 128
  let a := t.area
  let term := fun (e : Int) (z : Nat) => (e : Rat) * (f32Rat z).getD 0
  let sum := term (edge t.x1 t.y1 t.x2 t.y2 px py) t.z0 + term (edge t.x2 t.y2 t.x0 t.y0 px py) t.z1
    + term (edge t.x0 t.y0 t.x1 t.y1 px py) t.z2
  ratToF32 (sum / (a : Rat)) (signBit .f32 t.z0 && signBit .f32 t.z1 && signBit .f32 t.z2)

/-- A value of a record is finite. -/
def f32Finite (bits : Nat) : Bool := (f32Rat bits).isSome

/-- A snapped coordinate is in range (R329). -/
def snapOk (v : Int) : Bool := decide (-(2 ^ 23 : Int) ≤ v) && decide (v ≤ 2 ^ 23 - 1)

/-- R329 step 1 does not apply. -/
def Prim.good (p : Prim) : Bool :=
  let t := p.tri
  ((List.range 9).all fun i => f32Finite (p.vtx i)) && snapOk t.x0 && snapOk t.y0 && snapOk t.x1 && snapOk t.y1
    && snapOk t.x2 && snapOk t.y2

/-- The pixels along one axis, inside n pixels, whose centre lies in [lo, hi]: the first and the last (R329). -/
def centreSpan (lo hi : Int) (n : Nat) : Option (Nat × Nat) :=
  let a := max 0 ((lo - 128 + 255) / 256)
  let b := min ((n : Int) - 1) ((hi - 128) / 256)
  if a ≤ b then some (a.toNat, b.toNat) else none

/-- Tile columns of a frame (R327). -/
def FrameDesc.binsx (d : FrameDesc) : Nat := (d.width + 63) / 64

def FrameDesc.binsy (d : FrameDesc) : Nat := (d.height + 63) / 64

/-- Index of the tile that holds a pixel (R327). -/
def FrameDesc.tileAt (d : FrameDesc) (x y : Nat) : Nat := y / 64 * d.binsx + x / 64

/-- Basins of the frame, ascending: the set bits of `basinmask`. -/
def FrameDesc.basinList (d : FrameDesc) : List Nat := (List.range 64).filter fun b => d.basinmask.getLsbD b

/-- The basin that owns a tile (R327). -/
def FrameDesc.owner (d : FrameDesc) (t : Nat) : Nat := d.basinList.getD (t % d.basinList.length) 0

/-- Every tile of a frame. -/
def FrameDesc.tileCount (d : FrameDesc) : Nat := d.binsx * d.binsy

/-- Tiles that a basin owns, ascending. -/
def FrameDesc.ownedBy (d : FrameDesc) (b : Nat) : List Nat := (List.range d.tileCount).filter fun t => d.owner t = b

/-- The tiles a record touches, ascending (R329). -/
def Prim.tiles (p : Prim) (d : FrameDesc) : List Nat :=
  let t := p.tri
  match centreSpan (min t.x0 (min t.x1 t.x2)) (max t.x0 (max t.x1 t.x2)) d.width,
        centreSpan (min t.y0 (min t.y1 t.y2)) (max t.y0 (max t.y1 t.y2)) d.height with
  | some (xa, xb), some (ya, yb) =>
    (List.range d.tileCount).filter fun i =>
      decide (xa / 64 ≤ i % d.binsx) && decide (i % d.binsx ≤ xb / 64) && decide (ya / 64 ≤ i / d.binsx) && decide (i / d.binsx ≤ yb / 64)
  | _, _ => []

end Sys2Proof.Machine
end

