-- ==== Sys2Proof/Machine/Units.lean ====
section
/-! DEFINITION. What a task holds in the units of the basins: pixel locks and blend entries (R219 to R222, R336), and
work-graph slots (R209 to R211, R277 to R279). -/

namespace Sys2Proof.Machine

/-! ## Work-graph slots -/

/-- `tail` moves over the run of freed slots that begins at it, one slot at a time (R279). -/
def WorkQueue.advance (q : WorkQueue) : Nat → WorkQueue
  | 0 => q
  | n + 1 =>
    let i := q.tail.toNat % q.capacity
    if q.tail ≠ q.head ∧ smGet SlotState.free i q.slots = .freed then
      WorkQueue.advance { q with tail := q.tail + 1, slots := smDel i q.slots } n
    else q

/-- The queue with a slot freed (R279). -/
def WorkQueue.freeSlot (q : WorkQueue) (i : Nat) : WorkQueue :=
  let q := { q with slots := smSet i .freed q.slots }
  q.advance (q.head - q.tail).toNat

/-- The slots a queue holds in a state that `f` accepts, lowest first. -/
def WorkQueue.slotsWhere (q : WorkQueue) (f : SlotState → Bool) : List Nat :=
  (q.slots.filter fun e => f e.2).map (·.1)

/-- A task that ends leaves its uncommitted slots void (R211), each an event of kind 3 (R461). -/
def Basin.voidSlots (b : Basin) (hart serial : Nat) : Basin :=
  let mine := fun st => decide (st = SlotState.reserved hart serial)
  { b with works := b.works.map fun q => (q.slotsWhere mine).foldl WorkQueue.freeSlot q
           ncev := b.ncev ++ (b.works.map fun q =>
             (q.slotsWhere mine).map fun i => ({ block := q.block, slot := BitVec.ofNat 32 i, kind := 3 } : NcEvent)).flatten }

/-- The consumer of a record ends: its slot is freed (R279). -/
def Basin.freeStarted (b : Basin) (core : BitVec 32) (chan : BitVec 6) : Basin :=
  { b with works := b.works.map fun q =>
      (q.slotsWhere fun st => decide (st = SlotState.started core chan)).foldl WorkQueue.freeSlot q }

/-! ## Pixel locks -/

/-- The tile of an index. -/
def Gfx.tile (g : Gfx) (t : Nat) : Tile := smGet Tile.reset t g.tiles

/-- A tile's covering entry of a sequence at a pixel: a record of its blend list that covers the pixel (R336). -/
def Tile.covering (t : Tile) (x y : Nat) : List Prim := t.list.filter fun p => p.covers x y

/-- The covering entry of a sequence retires at a pixel; where there is none, or it has retired, nothing happens (R222, R336). -/
def Gfx.retireEntry (g : Gfx) (x y seq : Nat) : Gfx :=
  let t := g.desc.tileAt x y
  let ti := g.tile t
  if ti.retired.contains (x, y, seq) ∨ !(ti.covering x y).any (fun p => decide (p.seq.toNat = seq)) then g
  else { g with tiles := smSet t { ti with retired := ti.retired ++ [(x, y, seq)] } g.tiles }

/-- The entry a lock holds retires, where the lock is on a pixel of the frame that is open here (R336). -/
def Gfx.retireLock (g : Gfx) (l : PixReq) : Gfx := if l.launch = g.launch then g.retireEntry l.x l.y l.seq else g

/-- A hart's locks are released, their entries retire, and its requests are dropped (R221, R336). -/
def Gfx.dropHart (g : Gfx) (hart : Nat) : Gfx :=
  let mine := g.locks.filter fun l => l.hart = hart
  let g := { g with locks := g.locks.filter fun l => l.hart ≠ hart, reqs := g.reqs.filter fun l => l.hart ≠ hart }
  mine.foldl Gfx.retireLock g

end Sys2Proof.Machine
end

