-- ==== Sys2Proof/Machine/Tasks.lean ====
section
/-! DEFINITION. Tasks: the scheduler, task start and end, wait words and the watchdog (R18, R205, R207, R260 to R272). -/

namespace Sys2Proof.Machine

/-! ## The task table (R260 to R263) -/

/-- `fhold`: the pre-emption request or the Siphon request (R260). -/
def TaskEntry.fhold (t : TaskEntry) : Bool := t.preempt || t.siphon

/-- R263. -/
def TaskEntry.eligible (t : TaskEntry) : Bool :=
  t.decl && t.enable && t.ready && t.pending && !t.hold && !t.fhold && !t.busy

/-- The channel owes a start that keeps the core from being quiescent (R273). -/
def TaskEntry.owes (t : TaskEntry) : Bool := t.pending && t.enable && !t.fhold

/-- A post: the pending bit, and the start record unless the bit was already set (R207). -/
def Core.post (c : Core) (ch : Nat) (s2 : BitVec 32) (s3 : BitVec 5) (s4 s5 : BitVec 32) : Core :=
  let t := c.task ch
  if t.pending then c
  else c.setTask ch { t with pending := true, s2 := s2, s3 := s3, s4 := s4, s5 := s5 }

/-- The channels of a core that are eligible at a priority, rising. -/
def Core.eligibleAt (c : Core) (p : Nat) : List Nat :=
  (c.tasks.filter fun e => e.2.eligible && decide (e.2.priority.toNat = p)).map (·.1)

/-- The channel the core starts next: at the highest priority with an eligible channel, the first above the pointer,
else the first (R263). -/
def Core.choose (c : Core) : Option (Nat × Nat) :=
  let at_ := fun p =>
    let l := c.eligibleAt p
    ((l.find? fun ch => decide ((c.rr.get (Fin.ofNat 4 p)).toNat < ch)).orElse fun _ => l.head?).map fun ch => (p, ch)
  (at_ 3).orElse fun _ => (at_ 2).orElse fun _ => (at_ 1).orElse fun _ => at_ 0

/-- The hart a task starts on (R18, R264): every register that lives from task start takes its start value; the M-level
registers stay. -/
def Hart.atStart (h : Hart) (c : Core) (ch : Nat) (t : TaskEntry) : Hart :=
  let x := Vector.ofFn fun i : Fin 32 =>
    if i.val = 1 then BitVec.ofNat 64 ch else if i.val = 2 then t.s2.setWidth 64 else if i.val = 3 then t.s3.setWidth 64
    else if i.val = 4 then t.s4.setWidth 64 else if i.val = 5 then t.s5.setWidth 64
    else if i.val = 6 then c.part.gangid.setWidth 64 else 0
  { Hart.reset with
    x := x, pc := t.entry, run := .task (BitVec.ofNat 6 ch), serial := h.serial + 1
    shape := { Shape.reset with vslip := c.part.lflags.setWidth 4 }
    trap := { h.trap with
      status := { Status.reset with mmstrong := c.part.lflags.getLsbD 4 }
      cause := 0, epc := 0, tval := 0, restart := 0
      tvec := c.part.supTvec, sscratch := c.part.supScratch, tdeleg := c.part.supDeleg }
    wait := { WaitState.reset with limit := t.budget, budget := t.budget } }

/-- Hart keys of a site. -/
def hartsOf (site : Nat) : List Nat := (List.range 8).map (8 * site + ·)

/-- The lowest free hart of a site (R263). -/
def freeHart (s : State) (site : Nat) : Option Nat := (hartsOf site).find? fun k => (s.hartOf k).run = .free

/-- One start of the core's scheduler: the lowest free hart takes the channel chosen, in one step with the choice. A core
that belongs to no gang starts nothing (R263, R264, R273). -/
def startTask (s : State) (site : Nat) : State :=
  let c := s.coreOf site
  match c.part.launch, freeHart s site, c.choose with
  | some _, some k, some (p, ch) =>
    let t := c.task ch
    let c1 := { c.setTask ch { t with busy := true, pending := false } with
                rr := c.rr.set (p % 4) (BitVec.ofNat 6 ch) (Nat.mod_lt _ (by decide))
                part := { c.part with reported := false } }
    (s.setCoreOf site c1).setHartOf k ((s.hartOf k).atStart c ch t)
  | _, _, _ => s

/-- A hart after its task: free, its registers gone, the M-level registers as they are (R17, R18). `expired`, `count` and `limit`, which R267 and R269 set
at task start, are 0 from the task's end on (the model's choice, log 41). -/
def Hart.ended (h : Hart) (r : HartRun) : Hart :=
  { Hart.reset with
    run := r, serial := h.serial
    trap := { TrapRegs.reset with mcause := h.trap.mcause, mepc := h.trap.mepc, mtval := h.trap.mtval
                                  mtvec := h.trap.mtvec, mscratch := h.trap.mscratch } }

/-- The channel of a gang core can be posted: nothing of it is pending, busy or held (R461). -/
def Core.postable (c : Core) (ch : Nat) : Bool :=
  let t := c.task ch
  c.part.launch.isSome && !t.pending && !t.busy && !t.fhold

/-- A core's basin notes that a channel of a gang core can be posted again (R461, kind 2). -/
def noteFree (s : State) (site ch : Nat) : State :=
  let c := s.coreOf site
  if c.postable ch then
    let b := s.basin (basinOfSite site)
    s.setBasin (basinOfSite site) { b with ncev := b.ncev ++ [{ block := 0, slot := c.coreid, kind := 2 }] }
  else s

/-- The basin of a core notes each channel that could not be posted before and can be now (R461, kind 2). -/
def noteCleared (before : Core) (s : State) (site : Nat) : State :=
  (List.range 64).foldl (fun s ch => if before.postable ch then s else noteFree s site ch) s

/-- A hart's task ends: its pins and pixel locks are released, its uncommitted slots become void, its consumer's slot is
freed, `busy` clears and the hart is free (R149, R205, R211, R221, R268, R279). -/
def endTask (s : State) (k : Nat) : State :=
  let h := s.hartOf k
  let c := s.coreOf (k / 8)
  match h.run with
  | .task ch =>
    let t := c.task ch.toNat
    let c := (c.setTask ch.toNat { t with busy := false }).leaveWaits (k % 8)
    let s := (s.setCoreOf (k / 8) c).setHartOf k (h.ended .free)
    let s := s.mapBasins fun b =>
      let b := (b.voidSlots k h.serial).freeStarted c.coreid ch
      { b with gfx := b.gfx.dropHart k }
    noteFree s (k / 8) ch.toNat
  | _ => s

/-- The requests of a core's Sluice that a hart's task issued and that are not complete (R205). -/
def Core.requestsOf (c : Core) (hart serial : Nat) : List SluiceReq :=
  c.sluice.chans.toList.flatMap fun q => q.reqs.filter fun r => r.hart = hart && r.serial = serial

/-! ## Wait words and freezing (R269 to R271) -/

/-- A hart at M in a task: in fault service (R271). -/
def Hart.inService (h : Hart) : Bool :=
  h.trap.status.priv = 3 && (match h.run with | .task _ => true | _ => false)

/-- A decode buffer of the die holds fragments of a counted message for this core and tag: its sender (R270, R317). -/
def decoding (s : State) (k : Nat) (tag : Nat) : Option (BitVec 32) :=
  let c := s.coreOf (k / 8)
  ((s.die (dieOfAgent (k / 8))).spray.bufs.findSome? fun b =>
    b.frags.find? fun f => f.dst = c.coreid && decide (bitsOf f.desc.toNat 24 5 = tag)
      && decide (bitsOf f.kind.toNat 0 3 ≤ 4)).map (·.src)

/-- The wait reason and peer a hart shows (R270): 0x04 at every hart that waits in `mwait` on a tag in decode (R317), 0x12 at every hart that
runs at M. -/
def waitReason (s : State) (k : Nat) : BitVec 5 × BitVec 32 :=
  let h := s.hartOf k
  if h.run = .halted then (0x11, 0)
  else if h.wait.reason = 0 ∧ h.trap.status.priv = 3 ∧ h.run ≠ .free then (0x12, 0)
  else if h.lanes.isSome then (0x0E, 0)
  else if h.wait.reason = 0x02 ∨ h.wait.reason = 0x03 then
    match decoding s k h.wait.tag.toNat with
    | some p => (0x04, p)
    | none => (h.wait.reason, h.wait.peer)
  else (h.wait.reason, h.wait.peer)

/-- The hart's wait is frozen, leaving aside the mailbox queue (R271): the peer it shows is marked. -/
def frozenSelf (s : State) (k : Nat) : Bool :=
  let (r, p) := waitReason s k
  let c := s.coreOf (k / 8)
  if r = 0x02 ∨ r = 0x04 ∨ r = 0x06 then p ≠ 0 && c.marks.contains p
  else if r = 0x0A then
    match ctxOfAgent s (k / 8) with
    | none => false
    | some (_, cx) => c.marks.any fun m =>
        decide (coordPkg m = s.hostif.regs.pkgid.toNat) && cx.rows.getLsbD (coordRow m)
  else false

/-- The hart's watchdog is frozen (R271). -/
def frozen (s : State) (k : Nat) : Bool :=
  if (waitReason s k).1 = 0x03 then
    match (s.coreOf (k / 8)).mail.fifos.get (Fin.ofNat 32 (s.hartOf k).wait.tag.toNat) with
    | f :: _ => frozenSelf s (8 * (k / 8) + f)
    | [] => false
  else frozenSelf s k

/-- The wait word (R269). -/
def waitWord (s : State) (k : Nat) : Nat :=
  let h := s.hartOf k
  let (r, p) := waitReason s k
  p.toNat * 2 ^ 32 + h.wait.tag.toNat * 2 ^ 8 + b2n (frozen s k) * 2 ^ 7 + b2n h.wait.expired * 2 ^ 6 + r.toNat

/-! ## Budgets (R265 to R268) -/

/-- The watchdog counts: a task at U or S, a reason that counts, not frozen (R266). -/
def counting (s : State) (k : Nat) : Bool :=
  let h := s.hartOf k
  (match h.run with | .task _ => true | _ => false) && h.trap.status.priv ≠ 3 && !frozen s k

/-- `n` cycles pass for a hart: `cyc` counts every one of its task, the watchdog those of R266, up to its limit. -/
def passCycles (s : State) (k n : Nat) : State :=
  let h := s.hartOf k
  let room := h.wait.limit.toNat - h.wait.count.toNat
  let add := if counting s k then min n room else 0
  match h.run with
  | .task _ =>
    s.setHartOf k { h with user := { h.user with cyc := h.user.cyc + BitVec.ofNat 64 (if counting s k then add else n) }
                           wait := { h.wait with count := h.wait.count + BitVec.ofNat 32 add } }
  | _ => s

/-- The watchdog has expired and its trap is due (R268). -/
def budgetDue (s : State) (k : Nat) : Bool :=
  let h := s.hartOf k
  counting s k && decide (h.wait.limit.toNat ≤ h.wait.count.toNat)

/-- The expiry of the executing hart's watchdog: cause 0x100; a second expiry is taken at M whatever `tdeleg` holds, with
`mtval` 65,536; either way `expired` sets and the grace begins (R268). -/
def budgetTrap (s : State) : State :=
  let w := s.h.wait
  let t := Trap.of 0x100 (if w.expired then 65536 else w.budget.setWidth 64)
  let s := takeTrapAt s s.pc t w.expired
  s.setH { s.h with wait := { s.h.wait with expired := true, count := 0, limit := 65536 } }

/-- An asynchronous cause that the executing hart takes in place of its next instruction: one that is pending, else its watchdog's. An
answer that has reached a waiting instruction comes first: the instruction completes (R245, R268). -/
def asyncTurn (s : State) : Option State :=
  if s.h.reply.isSome then none
  else
    match s.h.pending with
    | p :: ps => some (takeTrap (s.setH { s.h with pending := ps }) (Trap.of p.cause p.tval))
    | [] => if budgetDue s s.cur then some (budgetTrap s) else none

/-- `f` at another hart: it executes for this once. -/
def State.atHart (s : State) (k : Nat) (f : State → State) : State := { f { s with cur := k } with cur := s.cur }

end Sys2Proof.Machine
end

