-- ==== Sys2Proof/Machine/Records.lean ====
section
/-! DEFINITION. Task table images and save records (R260, R261, R383, R384, R426). -/

namespace Sys2Proof.Machine

/-! ## Scratchpad bytes (R109, R145) -/

/-- The lowest uncorrectable scratchpad word among `n` bytes from `o` (R145); that `tval` names the lowest of two is the model's choice
(log 41). -/
def spBadAt (c : Core) (o n : Nat) : Option Nat :=
  if n = 0 then none else ((List.range ((o + n - 1) / 4 - o / 4 + 1)).map (o / 4 + ·)).find? fun w => c.spBad.contains w

/-- A core with bytes of its scratchpad written; words written whole are correctable again (R109, R145). -/
def Core.spPut (c : Core) (o : Nat) (data : List Byte) : Core :=
  { c with sp := writeBytes c.sp o data
           spBad := c.spBad.filter fun w => !(decide (o ≤ 4 * w) && decide (4 * w + 4 ≤ o + data.length)) }

/-! ## The task table image (R260) -/

/-- The 32 bytes of an entry. -/
def TaskEntry.image (t : TaskEntry) : List Byte :=
  leBytes 8 (t.entry.toNat / 4 * 4)
    ++ leBytes 8 (t.budget.toNat * 2 ^ 32 + b2n t.decl * 512 + b2n t.busy * 256 + b2n t.pending * 128 + b2n t.fhold * 64
        + b2n t.enable * 32 + b2n t.ready * 16 + b2n t.hold * 8 + t.priority.toNat)
    ++ leBytes 8 (t.s4.toNat * 2 ^ 32 + t.s2.toNat) ++ leBytes 8 (t.s5.toNat * 2 ^ 32 + t.s3.toNat)

/-- Word `i` of an image. -/
def imageWord (l : List Byte) (i : Nat) : Nat := leValue ((l.drop (8 * i)).take 8)

/-- An entry whose writable fields are those of an image; `decl`, `busy` and the holds stay (R260). -/
def TaskEntry.withFields (t : TaskEntry) (l : List Byte) : TaskEntry :=
  let w1 := imageWord l 1
  { t with
    entry := BitVec.ofNat 64 (imageWord l 0 / 4 * 4), budget := BitVec.ofNat 32 (bitsOf w1 32 32), pending := bitOf w1 7
    enable := t.decl && bitOf w1 5, ready := bitOf w1 4, hold := bitOf w1 3, priority := BitVec.ofNat 2 (bitsOf w1 0 2)
    s2 := BitVec.ofNat 32 (bitsOf (imageWord l 2) 0 32), s4 := BitVec.ofNat 32 (bitsOf (imageWord l 2) 32 32)
    s3 := BitVec.ofNat 5 (bitsOf (imageWord l 3) 0 5), s5 := BitVec.ofNat 32 (bitsOf (imageWord l 3) 32 32) }

/-- An entry loaded from an image: every field but the Siphon request, which no image carries (R426). -/
def TaskEntry.ofImage (t : TaskEntry) (l : List Byte) : TaskEntry :=
  let w1 := imageWord l 1
  { { t with decl := bitOf w1 9 }.withFields l with busy := bitOf w1 8, preempt := bitOf w1 6 }

/-- An M write of bytes of an entry's image. A write that takes in `fhold` sets or clears the pre-emption request (R260, R426). -/
def TaskEntry.putBytes (t : TaskEntry) (off : Nat) (data : List Byte) : TaskEntry :=
  let old := t.image
  let l := old.take off ++ data ++ old.drop (off + data.length)
  let t := t.withFields l
  if off ≤ 8 ∧ 8 < off + data.length then { t with preempt := bitOf (imageWord l 1) 6 } else t

/-- The 2 KiB image of a core's task table. -/
def Core.taskImage (c : Core) : List Byte := (List.range 64).flatMap fun ch => (c.task ch).image

/-- Every channel's entry with a function applied. -/
def Core.mapTasks (c : Core) (f : TaskEntry → TaskEntry) : Core :=
  { c with tasks := (List.range 64).map fun ch => (ch, f (c.task ch)) }

/-! ## Save records (R383) -/

/-- The number of a core of the package: 80 × row + column. -/
def coreIndex (v : BitVec 32) : Nat := 80 * coordRow v + coordCol v

/-- Physical address of a core's save record. -/
def Ctx.recordAt (cx : Ctx) (v : BitVec 32) : Nat := cx.save.toNat * 4096 + 0x41000 * coreIndex v

/-- Little-endian fields of a fixed width, one after the other. -/
def leFields (n : Nat) (l : List Nat) : List Byte := l.flatMap (leBytes n)

/-- `sdoneN`: the smallest identifier below which every request is complete (R198). -/
def SChan.done (c : SChan) : BitVec 32 :=
  match c.reqs with
  | r :: _ => r.id
  | [] => c.next

/-- The save record of a core, from offset 0. -/
def Core.record (c : Core) : Memory :=
  let m := sliceOf c.sp 0 0x40000
  let m := writeBytes m 0x40000 c.taskImage
  let m := writeBytes m 0x40800 (leFields 4 (c.mail.counters.toList.map BitVec.toNat))
  let m := writeLE m 0x40880 4 c.mail.overflow.toNat
  let m := writeLE m 0x40884 2 c.weir.wmember.toNat
  let m := writeLE m 0x40886 2 c.weir.arrived.toNat
  let m := writeLE m 0x40888 4 c.part.gangid.toNat
  let m := writeLE m 0x4088C 1 c.part.lflags.toNat
  let m := writeLE m 0x4088E 2 c.weir.gangSet.toNat
  let m := writeBytes m 0x40890 (leFields 4 (c.sluice.chans.toList.map fun q => q.next.toNat))
  let m := writeBytes m 0x408A0 (leFields 4 (c.sluice.chans.toList.map fun q => q.done.toNat))
  let m := writeBytes m 0x408B0 (leFields 1 (c.rr.toList.map BitVec.toNat))
  writeBytes m 0x40900 (leFields 4 (c.weir.gen.toList.map BitVec.toNat))

/-- A core loaded from a save record: what the record holds, everything else as in `c`. A core whose Sluice has no request outstanding has
`sdoneN` equal to its next identifier. -/
def Core.ofRecord (c : Core) (m : Memory) : Core :=
  let at_ := fun off n i => readLE m (off + n * i) n
  { c with
    sp := sliceOf m 0 0x40000
    tasks := (List.range 64).map fun ch => (ch, (c.task ch).ofImage (readBytes m (0x40000 + 32 * ch) 32))
    mail := { c.mail with counters := Vector.ofFn fun i : Fin 32 => BitVec.ofNat 32 (at_ 0x40800 4 i.val)
                          overflow := BitVec.ofNat 32 (readLE m 0x40880 4) }
    weir := { c.weir with wmember := BitVec.ofNat 16 (readLE m 0x40884 2), arrived := BitVec.ofNat 16 (readLE m 0x40886 2)
                          gangSet := BitVec.ofNat 16 (readLE m 0x4088E 2)
                          gen := Vector.ofFn fun i : Fin 16 => BitVec.ofNat 32 (at_ 0x40900 4 i.val) }
    part := { c.part with gangid := BitVec.ofNat 32 (readLE m 0x40888 4), lflags := BitVec.ofNat 8 (readLE m 0x4088C 1) }
    sluice := { c.sluice with chans := Vector.ofFn fun i : Fin 4 => { next := BitVec.ofNat 32 (at_ 0x40890 4 i.val), reqs := [] } }
    rr := Vector.ofFn fun i : Fin 4 => BitVec.ofNat 6 (at_ 0x408B0 1 i.val) }

/-- Writes a core's save record. An uncorrectable scratchpad word makes its 8-byte word of the record poisoned (R145, R250). -/
def writeRecord (s : State) (cx : Ctx) (v : BitVec 32) (c : Core) : State :=
  let pa := cx.recordAt v
  { s with
    mem := overlay s.mem pa 0x41000 c.record
    poison := c.spBad.foldl (fun p w => smSet ((pa + 4 * w) / 8) 3 p) (clearPoison s.poison pa 0x41000)
    cores := dropCopies s.cores none pa 0x41000
    hostif := s.hostif.snoop pa 0x41000 }

/-- A core loaded from its save record; a poisoned word of the record is uncorrectable in the scratchpad. -/
def readRecord (s : State) (cx : Ctx) (v : BitVec 32) (c : Core) : Core :=
  let pa := cx.recordAt v
  let bad := s.poison.filter fun e => decide (pa ≤ 8 * e.1) && decide (8 * e.1 < pa + 0x40000)
  { c.ofRecord (sliceOf s.mem pa 0x41000) with spBad := bad.flatMap fun e => [(8 * e.1 - pa) / 4, (8 * e.1 - pa) / 4 + 1] }

/-- What a saved core keeps beside its record. -/
def Ctx.side (cx : Ctx) (v : BitVec 32) : CoreSide := smGet { copies := [], losses := [] } (coreIndex v) cx.sides

def Ctx.setSide (cx : Ctx) (v : BitVec 32) (d : CoreSide) : Ctx := { cx with sides := smSet (coreIndex v) d cx.sides }

/-- The record of a core has been written and has not been loaded back: messages for the core are applied to it (R384). -/
def Ctx.recorded (cx : Ctx) (v : BitVec 32) : Bool :=
  decide (cx.st = .saved) || decide (cx.st = .restoring) || (decide (cx.st = .saving) && cx.savedCores.contains (coreIndex v))

/-- A function applied to a core as its save record holds it (R384). -/
def onRecord (s : State) (n : Nat) (cx : Ctx) (v : BitVec 32) (f : Core → Core) : State :=
  let d := cx.side v
  let c0 := readRecord s cx v { Core.reset with coreid := v }
  let c := f { c0 with copies := d.copies, mail := { c0.mail with losses := d.losses } }
  let s := writeRecord s cx v c
  s.setCtx n (cx.setSide v { copies := c.copies, losses := c.mail.losses })

end Sys2Proof.Machine
end

