-- ==== Sys2Proof/Machine/Messages.lean ====
section
/-! DEFINITION. Messages: placement, the message unit, cutting into Spray fragments, applying at the receiver, and loss
(R183, R189 to R194, R200, R207, R308 to R316, R321 to R323, R363, R385, R425, R427, R437). -/

namespace Sys2Proof.Machine

/-! ## Placement (R3, R6, R194, R425) -/

/-- The die of a logical core: its quadrant (R3). -/
def dieOfCoord (v : BitVec 32) : Nat := b2n (decide (40 ≤ coordCol v)) + 2 * b2n (decide (25 ≤ coordRow v))

/-- Index of a logical core in its die's remap table (R425). -/
def remapIndex (v : BitVec 32) : Nat := 40 * (coordRow v % 25) + coordCol v % 40

/-- The remap entry of a logical core of this package. -/
def remapOf (s : State) (v : BitVec 32) : RemapEntry :=
  smGet RemapEntry.reset (remapIndex v) (s.die (dieOfCoord v)).remap

/-- The site that holds a logical core of this package, by the remap table (R308, R425). -/
def siteOf (s : State) (v : BitVec 32) : Option Nat :=
  let e := remapOf s v
  if e.valid && decide (coordPkg v = s.hostif.regs.pkgid.toNat) then
    some (1024 * dieOfCoord v + 32 * e.prow.toNat + e.pcol.toNat)
  else none

/-- `locq`'s answer for a logical core of this package (R194). -/
def locqWord (s : State) (v : BitVec 32) : Word :=
  let e := remapOf s v
  BitVec.ofNat 64 (e.epoch.toNat * 2 ^ 32 + s.hostif.regs.pkgid.toNat * 2 ^ 22 + dieOfCoord v * 2 ^ 18
    + e.prow.toNat * 2 ^ 8 + e.pcol.toNat)

/-- The stream key of the die that holds a coordinate: 4 × package + die. -/
def streamKey (v : BitVec 32) : Nat := 4 * coordPkg v + dieOfCoord v

/-! ## Routes and paths (R311, R316, R437) -/

/-- The route class from a die to the die of a coordinate; none on the sender's own die (R311). -/
def routeClass (s : State) (die : Nat) (dst : BitVec 32) : Option (BitVec 2) :=
  if coordPkg dst ≠ s.hostif.regs.pkgid.toNat then some 3
  else
    let x := die ^^^ dieOfCoord dst
    if x = 0 then none else if x = 1 then some 0 else if x = 2 then some 1 else some 2

/-- A UCIe module or fabric port of a die is live: trained and not retired (R436). -/
def pathLive (s : State) (die p : Nat) : Bool :=
  let h := (s.die die).paths.get (Fin.ofNat 22 p)
  h.trained && !h.retired

/-- A fabric port of a die. -/
def fabPortOf (s : State) (die port : Nat) : FabPort := (s.die die).fabports.get (Fin.ofNat 6 port)

/-- The fabric path map of a package: the ports that have trained to it, as (die, port), ascending (R311, R316, R437, R468). -/
def fabricPaths (s : State) (pkg : Nat) : List (Nat × Nat) :=
  (List.range 24).filterMap fun i =>
    let f := fabPortOf s (i / 6) (i % 6)
    if f.mapped ∧ f.peerpkg.toNat = pkg then some (i / 6, i % 6) else none

/-- An installed path of a route: whether it is live, and the die and module that a fragment reaches by it; on class 3 the die and port that it
leaves by. -/
structure Route where
  live : Bool
  die : Nat
  port : Nat
  deriving DecidableEq, Repr

/-- The installed paths of a route class, in ascending path number (R316). -/
def routePaths (s : State) (die : Nat) (cls : BitVec 2) (dst : BitVec 32) : List Route :=
  let d := dieOfCoord dst
  if cls = 0 then (List.range 8).map fun n => { live := pathLive s die n && pathLive s d n, die := d, port := n }
  else if cls = 1 then (List.range 8).map fun n => { live := pathLive s die (8 + n) && pathLive s d (8 + n), die := d, port := 8 + n }
  else if cls = 2 then
    (List.range 8).map fun n =>
      if n < 4 then
        let r := die ^^^ 1
        { live := pathLive s die n && pathLive s r n && pathLive s r (8 + n) && pathLive s d (8 + n), die := d, port := 8 + n }
      else
        let r := die ^^^ 2
        { live := pathLive s die (8 + n) && pathLive s r (8 + n) && pathLive s r n && pathLive s d n, die := d, port := n }
  else
    (fabricPaths s (coordPkg dst)).map fun p =>
      { live := pathLive s p.1 (16 + p.2) && decide ((fabPortOf s p.1 p.2).state = 2), die := p.1, port := 16 + p.2 }

/-- The live ones. -/
def livePaths (s : State) (die : Nat) (cls : BitVec 2) (dst : BitVec 32) : List Route := (routePaths s die cls dst).filter (·.live)

/-- Strength of a code, rising in the order 3, 1, 4, 2, 0 (R385). -/
def rateStrength (code : Nat) : Nat :=
  if code = 3 then 0 else if code = 1 then 1 else if code = 4 then 2 else if code = 2 then 3 else 4

/-- The repair floor of a class by its live paths (R437). -/
def repairFloor (installed live : Nat) : Option Nat :=
  if live = installed then none
  else if 9 ≤ live then some 3 else if 5 ≤ live then some 1 else if 3 ≤ live then some 2 else some 0

/-- Data and parity fragments of a rate code (R313). -/
def rateKM (code : Nat) : Nat × Nat :=
  if code = 0 then (4, 4) else if code = 1 then (8, 2) else if code = 2 then (8, 4) else if code = 3 then (16, 2)
  else (16, 4)

/-- The rate code in force for a message of a core on a route class (R311, R385, R437). -/
def rateFor (s : State) (site : Nat) (cls : BitVec 2) (installed live : Nat) : Nat :=
  let r := match ctxOfAgent s site with
    | some (_, c) => (c.rate.get cls.toFin).toNat
    | none => 1
  match repairFloor installed live with
  | none => r
  | some f => if rateStrength r < rateStrength f then f else r

/-! ## The code (R314, R315) and fragments (R313) -/

/-- Product in GF(2^8) with field polynomial 0x11D (R315): shift and add over eight bits. -/
def gfMulFrom (a b : Nat) : Nat → Nat
  | 0 => 0
  | n + 1 =>
    let a2 := if 128 ≤ a then (2 * a % 256) ^^^ 0x1D else 2 * a
    (if b % 2 = 1 then a else 0) ^^^ gfMulFrom a2 (b / 2) n

def gfMul (a b : Nat) : Nat := gfMulFrom a b 8

/-- Power by repeated product. -/
def gfPow (a : Nat) : Nat → Nat
  | 0 => 1
  | n + 1 => gfMul a (gfPow a n)

/-- Inverse of a non-zero element: its 254th power. -/
def gfInv (a : Nat) : Nat := gfPow a 254

/-- The Cauchy coefficient c(i, j) (R315). -/
def cauchy (i j : Nat) : Nat := gfInv ((0x10 + i) ^^^ j)

/-- XOR of a list. -/
def xorSum (l : List Nat) : Nat := l.foldl (· ^^^ ·) 0

/-- Data fragment j of a group's bytes, of f bytes, padded with zeros (R314). -/
def dataFragment (grp : List Byte) (f j : Nat) : List Byte :=
  let d := (grp.drop (j * f)).take f
  d ++ List.replicate (f - d.length) 0

/-- Parity fragment i over k data fragments (R315). -/
def parityFragment (grp : List Byte) (f k i : Nat) : List Byte :=
  (List.range f).map fun b => BitVec.ofNat 8 (xorSum ((List.range k).map fun j =>
    gfMul (cauchy i j) ((dataFragment grp f j).getD b 0).toNat))

/-- Fragment of an index: data below k, parity from k on (R314). -/
def fragmentBytes (grp : List Byte) (f k idx : Nat) : List Byte :=
  if idx < k then dataFragment grp f idx else parityFragment grp f k (idx - k)

/-- Groups of a payload of L bytes (R314). -/
def groupCount (len k : Nat) : Nat := max 1 ((len + 256 * k - 1) / (256 * k))

/-- Group g's bytes. -/
def groupBytes (data : List Byte) (k g : Nat) : List Byte := (data.drop (256 * k * g)).take (256 * k)

/-- Fragment length of a group of n bytes (R314). -/
def fragLen (n k : Nat) : Nat := (n + 4 * k - 1) / (4 * k) * 4

/-- One byte of CRC-32C, bit by bit: reflected polynomial 0x82F63B78 (R313). -/
def crcBits (c : BitVec 32) : Nat → BitVec 32
  | 0 => c
  | n + 1 => crcBits (if c.getLsbD 0 then (c >>> 1) ^^^ 0x82F63B78 else c >>> 1) n

def crcByte (c : BitVec 32) (b : Byte) : BitVec 32 := crcBits (c ^^^ b.setWidth 32) 8

/-- CRC-32C of a byte string. -/
def crc32c (l : List Byte) : BitVec 32 := ~~~(l.foldl crcByte 0xFFFFFFFF)

/-- Bytes 0 to 27 of a fragment's header (R313). -/
def headerBytes (f : Fragment) : List Byte :=
  leBytes 4 f.seq.toNat ++ leBytes 4 f.src.toNat ++ leBytes 4 f.dst.toNat ++ leBytes 8 f.desc.toNat ++ [f.kind]
    ++ [f.index] ++ [f.grp] ++ [f.rate] ++ leBytes 2 f.data.length ++ leBytes 2 f.rownib.toNat

/-- The CRC a fragment should carry. -/
def fragCrc (f : Fragment) : BitVec 32 := crc32c (headerBytes f ++ f.data)

/-- Fragment `idx` of group g of a message. -/
def cutFragment (m : Message) (seq : BitVec 32) (code g idx : Nat) : Fragment :=
  let k := (rateKM code).1
  let gs := groupBytes m.data k g
  let f0 : Fragment :=
    { seq := seq, src := m.src, dst := m.dst, desc := m.desc
      kind := BitVec.ofNat 8 (m.kind.toNat + 8 * m.width.toNat), index := BitVec.ofNat 8 idx
      grp := BitVec.ofNat 8 (16 * g + groupCount m.data.length k), rate := BitVec.ofNat 8 code, rownib := m.rownib
      data := fragmentBytes gs (fragLen gs.length k) k idx, crc := 0, ctag := m.ctag, copy := m.copy }
  { f0 with crc := fragCrc f0 }

/-- A fragment on a path. -/
def Route.carry (r : Route) (f : Fragment) : Flight := { die := r.die, path := r.port, frag := f }

/-- Fragments, each on the (index mod P)-th live path (R316); none where no path is live. -/
def flights (live : List Route) (fr : List Fragment) : List Flight :=
  fr.filterMap fun f => (live[f.index.toNat % live.length]?).map (·.carry f)

/-- The flights of a route class are under way: inside the package to their die, on class 3 out of it (log 33). -/
def State.fly (s : State) (cls : BitVec 2) (fl : List Flight) : State :=
  if cls = 3 then { s with outFrags := s.outFrags ++ fl } else { s with frags := s.frags ++ fl }

/-! ## The message unit (R189, R308, R311, R312) -/

def State.setSpray (s : State) (d : Nat) (sp : Spray) : State := s.setDie d { s.die d with spray := sp }

/-- Messages an engine retains (R312). -/
def Spray.retained (sp : Spray) : Nat := (sp.tx.map fun e => e.2.retained.length).sum

/-- A counter of two 32-bit halves with one half raised by n (R325). -/
def bumpHalf (w : Word) (high : Bool) (n : Nat) : Word :=
  if high then BitVec.ofNat 64 ((w.toNat / 2 ^ 32 + n) % 2 ^ 32 * 2 ^ 32 + w.toNat % 2 ^ 32)
  else BitVec.ofNat 64 (w.toNat / 2 ^ 32 * 2 ^ 32 + (w.toNat + n) % 2 ^ 32)

/-- `spcnt4` with one of its four 16-bit fields raised by one: R325 has every counter wrap mod 2^32 and gives these fields 16 bits, and the model's
choice is that each wraps mod 2^16 (log 41). -/
def bumpQuarter (w : Word) (q : Nat) : Word :=
  let f := bitsOf w.toNat (16 * q) 16
  BitVec.ofNat 64 (w.toNat - f * 2 ^ (16 * q) + (f + 1) % 2 ^ 16 * 2 ^ (16 * q))

/-- Counter i of a Spray engine replaced. -/
def Spray.setCnt (sp : Spray) (i : Nat) (f : Word → Word) : Spray :=
  { sp with cnts := sp.cnts.set (i % 5) (f (sp.cnts.get (Fin.ofNat 5 i))) (Nat.mod_lt _ (by decide)) }

/-- Cuts a message for another die: it takes the stream's next sequence and is retained, and its fragments are sent (R311 to
R316). None while the stream or the engine is full (R312). -/
def sprayMessage (s : State) (site : Nat) (cls : BitVec 2) (m : Message) : Option State :=
  let d := dieOfAgent site
  let sp := (s.die d).spray
  let key := streamKey m.dst
  let tx := smGet StreamTx.reset key sp.tx
  if 32 ≤ tx.retained.length ∨ 1024 ≤ sp.retained then none
  else
    let paths := routePaths s d cls m.dst
    let live := paths.filter (·.live)
    let code := rateFor s site cls paths.length live.length
    let (k, n) := rateKM code
    let fr := (List.range (groupCount m.data.length k)).flatMap fun g =>
      (List.range (k + n)).map fun i => cutFragment m tx.next code g i
    let tx1 := { tx with
      next := tx.next + 1
      retained := tx.retained ++ [{ seq := tx.next, msg := m, cls := cls, rate := BitVec.ofNat 8 code, answered := false }] }
    let sp1 := ({ sp with tx := smSet key tx1 sp.tx }.setCnt 0 fun w => bumpHalf (bumpHalf w false 1) true fr.length)
    some ((s.setSpray d sp1).fly cls (flights live fr))

/-- Hands a message to a site's message unit: onto the mesh for a core of the same die, else into Spray; none while it does not
accept (R189, R308, R312). -/
def hand (s : State) (site : Nat) (m : Message) : Option State :=
  match routeClass s (dieOfAgent site) m.dst with
  | none => some { s with net := s.net ++ [m] }
  | some cls => sprayMessage s site cls m

/-- A message of the executing hart (R189, R313, R363). -/
def newMessage (s : State) (dst : BitVec 32) (desc : Word) (kind : BitVec 3) (data : List Byte) : Message :=
  { src := s.c.coreid, dst := realCoord s dst, desc := desc, kind := kind, width := 0, rownib := 0, data := data
    ctag := match ctxOfAgent s s.agent with | some (_, c) => c.tag | none => 0
    hart := s.cur, serial := s.h.serial, req := none, copy := 0, launch := s.c.part.launch }

/-! ## Applying (R183, R190, R192, R200, R206, R207) -/

/-- Mailbox counter `tag` rises by one; at its maximum it sets its overflow bit instead (R192). -/
def Mailbox.count (m : Mailbox) (tag : BitVec 5) : Mailbox :=
  let v := m.counters.get tag.toFin
  if v = BitVec.allOnes 32 then { m with overflow := m.overflow ||| ((1 : BitVec 32) <<< tag.toNat) }
  else { m with counters := m.counters.set tag.toNat (v + 1) tag.isLt }

/-- Steps 2 and 3 of R190: the count, then the wake. -/
def Core.countWake (c : Core) (m : Message) (wake : Bool) (x5 : Nat) : Core :=
  let c := { c with mail := c.mail.count (BitVec.ofNat 5 (descTag m.desc)) }
  if wake then
    c.post (descChan m.desc) m.src (BitVec.ofNat 5 (descTag m.desc)) (BitVec.ofNat 32 (descOffset m.desc)) (BitVec.ofNat 32 x5)
  else c

/-- A drain's rows: row j at offset + 512j, a partial last byte merged down to the nibble (R182). -/
def Core.drainRow (c : Core) (off nib : Nat) (row : List Byte) : Core :=
  let c := c.spPut off (row.take (nib / 2))
  if nib % 2 = 1 then
    let a := off + nib / 2
    c.spPut a [BitVec.ofNat 8 ((readByte c.sp a).toNat / 16 * 16 + ((row.getD (nib / 2) 0).toNat % 16))]
  else c

/-- A drain's bytes at the receiver (R182, R313). -/
def Core.drainRows (c : Core) (m : Message) : Core :=
  let st := (m.rownib.toNat + 7) / 8 * 4
  if st = 0 then c
  else (List.range (m.data.length / st)).foldl
    (fun c j => c.drainRow (descOffset m.desc + 512 * j) m.rownib.toNat ((m.data.drop (st * j)).take st)) c

/-- A task-bit message: [7:0] of its payload the channel, [15:8] the bit (0 hold, 1 ready, 2 enable), [16] the value (R206,
log 16). `enable` ignores writes while `decl` is 0 (R260). -/
def TaskEntry.setBit (t : TaskEntry) (bit : Nat) (v : Bool) : TaskEntry :=
  if bit = 0 then { t with hold := v } else if bit = 1 then { t with ready := v } else { t with enable := t.decl && v }

def Core.taskBit (c : Core) (ch bit : Nat) (v : Bool) : Core := c.setTask ch ((c.task ch).setBit bit v)

/-- The copy that a part of a request of a channel belongs to, as its sender tells it from others (R200, log 38): the launch is part of it, for
the identifiers of a channel begin anew with each gang (R274). -/
def copyId (ch : BitVec 2) (id : BitVec 32) (launch : Option Nat) : Nat :=
  1 + 4 * (2 ^ 32 * (launch.map (· + 1)).getD 0 + id.toNat) + ch.toNat

/-- Parts of the copy a part belongs to, and its own index (R313). -/
def partCount (rownib : BitVec 16) : Nat := bitsOf rownib.toNat 8 6 + 1
def partIndex (rownib : BitVec 16) : Nat := bitsOf rownib.toNat 0 6

/-- The copy of a sender and key as far as it has arrived. -/
def copyIn (l : List PartCopy) (src : BitVec 32) (key : Nat) : PartCopy :=
  (l.find? fun p => decide (p.src = src) && decide (p.key = key)).getD { src := src, key := key, got := [], bytes := 0, lost := false }

def Core.copyOf (c : Core) (src : BitVec 32) (key : Nat) : PartCopy := copyIn c.copies src key

/-- The copy replaced; it goes once every part has arrived or been lost. -/
def Core.setCopy (c : Core) (p : PartCopy) (n : Nat) : Core :=
  let rest := c.copies.filter fun q => !(decide (q.src = p.src) && decide (q.key = p.key))
  { c with copies := if p.got.length < n then rest ++ [p] else rest }

/-- One part of a `scopyr`: its bytes, and once every part has been written the count and the wake, with x5 the length of the
whole copy and x4 the offset of its first byte; none after a loss (R200). -/
def Core.copyPart (c : Core) (m : Message) : Core :=
  let c := c.spPut (descOffset m.desc) m.data
  let i := partIndex m.rownib
  let n := partCount m.rownib
  let old := c.copyOf m.src m.copy
  let p := { old with got := old.got ++ [i], bytes := old.bytes + m.data.length }
  let c := c.setCopy p n
  if p.got.length < n ∨ p.lost then c
  else c.countWake { m with desc := m.desc - BitVec.ofNat 64 (4096 * i) } (descWake m.desc) p.bytes

/-- Applies a message at a core (R183, R190, R200, R206). -/
def Core.apply (c : Core) (m : Message) : Core :=
  if m.kind = 0 then (c.spPut (descOffset m.desc) m.data).countWake m (descWake m.desc) m.data.length
  else if m.kind = 1 then (c.spPut (descOffset m.desc) m.data).countWake m (descWake m.desc) m.data.length
  else if m.kind = 2 then c.countWake m (descWake m.desc) 0
  else if m.kind = 3 then
    let st := (m.rownib.toNat + 7) / 8 * 4
    (c.drainRows m).countWake m true (if st = 0 then 0 else 512 * (m.data.length / st))
  else if m.kind = 4 then c.copyPart m
  else if m.kind = 5 then
    let v := leValue m.data
    c.taskBit (v % 64) (v / 256 % 256) (bitOf v 16)
  else c

/-! ## Checks at the receiver (R310, R363, R427) -/

/-- The context with this tag that a logical core belongs to: it is Active, Saving, Restoring or Saved; one that owns the row comes first
(R363). -/
def ctxTagged (s : State) (v : BitVec 32) (tag : BitVec 16) : Option (Nat × Ctx) :=
  let of_ := fun p : CtxState → Bool =>
    s.ctxs.find? fun e => p e.2.st && e.2.rows.getLsbD (coordRow v) && decide (e.2.tag = tag)
  (of_ CtxState.owns).orElse fun _ => of_ fun st => decide (st = .saved)

/-- The context a message is for (R363). -/
def ctxFor (s : State) (m : Message) : Option (Nat × Ctx) := ctxTagged s m.dst m.ctag

/-- The receiver takes the message (R363). -/
def accepted (s : State) (m : Message) : Bool := (ctxFor s m).isSome

/-- The move that diverts a core's arrivals: from entry to Copy until Release (R427). -/
def diverting (s : State) (dst : BitVec 32) : Option Move :=
  match (s.die (dieOfCoord dst)).move with
  | some mv => if mv.coord = dst ∧ mv.st ≠ .hold then some mv else none
  | none => none

/-- A function applied to a core at the site that holds it now (R310). -/
def atSite (s : State) (v : BitVec 32) (f : Core → Core) : State :=
  match siteOf s v with
  | some k => s.setCoreOf k (f (s.coreOf k))
  | none => s

/-- A message that has arrived whole and is accepted: applied to the save record where its context's is written (R384), diverted by a move
(R427), else applied at the site that holds the receiver now (R310). -/
def arrive (s : State) (m : Message) : State :=
  match ctxFor s m with
  | none => s
  | some (n, c) =>
    if c.recorded m.dst then onRecord s n c m.dst fun k => k.apply m
    else
      match diverting s m.dst with
      | some mv =>
        let d := dieOfCoord m.dst
        s.setDie d { s.die d with move := some { mv with diverted := mv.diverted ++ [m] } }
      | none => atSite s m.dst fun k => k.apply m

/-! ## Sluice requests of a copy to another core (R200) -/

/-- The request of a channel and identifier replaced by `f`; a request whose chunks are all done is complete and goes (R198). -/
def Sluice.updateReq (q : Sluice) (ch : BitVec 2) (id : BitVec 32) (f : SluiceReq → SluiceReq) : Sluice :=
  let c := q.chans.get ch.toFin
  let rs := (c.reqs.map fun r => if r.id = id then f r else r).filter fun r => !r.chunks.all fun x => decide (x = .done)
  { q with chans := q.chans.set ch.toNat { c with reqs := rs } ch.isLt }

/-- The request of a channel and identifier, while it is not complete. -/
def Sluice.find (q : Sluice) (ch : BitVec 2) (id : BitVec 32) : Option SluiceReq :=
  (q.chans.get ch.toFin).reqs.find? fun r => r.id = id

/-- Chunks of part i of a `scopyr`: eight of 512 bytes (R197, R200). -/
def inPart (i q : Nat) : Bool := decide (q / 8 = i)

/-- The receiver has acknowledged a part: its chunks are done (R200). -/
def partDone (s : State) (m : Message) : State :=
  match m.req with
  | none => s
  | some (ch, id) =>
    let k := m.hart / 8
    let c := s.coreOf k
    let i := bitsOf m.rownib.toNat 0 6
    s.setCoreOf k { c with sluice := c.sluice.updateReq ch id fun r =>
      { r with chunks := r.chunks.mapIdx fun q x => if inPart i q then .done else x } }

/-! ## Loss (R322, R323, R390) -/

/-- A loss record in the layout of R323. -/
def LossRec.word (l : LossRec) : Word :=
  BitVec.ofNat 64 (l.peer.toNat * 2 ^ 32 + l.kind.toNat * 2 ^ 13 + l.tag.toNat * 2 ^ 8 + b2n l.more * 4
    + b2n l.atEnd * 2 + b2n l.valid)

/-- `lossrec` after one more loss: the first is kept and `more` sets; `more` clears by a write of 1 alone (R323). -/
def LossRec.note (r l : LossRec) : LossRec := if r.valid then { r with more := true } else { l with more := r.more }

/-- The context that a loss of a message with a fabric tag is reported for at one end: the one with the tag, else a Fatal one (R390, R403). -/
def ctxOfLoss (s : State) (me : BitVec 32) (ctag : BitVec 16) : Option (Nat × Ctx) :=
  (ctxTagged s me ctag).orElse fun _ =>
    s.ctxs.find? fun e => decide (e.2.st = .fatal) && e.2.rows.getLsbD (coordRow me) && decide (e.2.tag = ctag)

/-- A loss is recorded at one end: in the core's `lossrec`, in its context's loss registers, and on the event ring (R322, R323,
R390, R403). -/
def recordLoss (s : State) (me peer : BitVec 32) (kind : BitVec 3) (tag : BitVec 5) (ctag : BitVec 16) (atEnd : Bool) : State :=
  let l : LossRec := { peer := peer, kind := kind, tag := tag, more := false, atEnd := atEnd, valid := true }
  let s := atSite s me fun c => { c with lossrec := c.lossrec.note l }
  match ctxOfLoss s me ctag with
  | some (n, c) =>
    (s.setCtx n { c with lossCount := c.lossCount + 1, lossLast := l.word.setWidth 32 }).emit 0x03 n 0xFFFF l.word.toNat 0 0
  | none => s.emit 0x03 0xFF 0xFFFF l.word.toNat 0 0

/-- `tval` of a loss: the layout of `lossrec` with bits [7:0] zero (R322). -/
def lossTval (peer : BitVec 32) (kind : BitVec 3) (tag : BitVec 5) : Word :=
  BitVec.ofNat 64 (peer.toNat * 2 ^ 32 + kind.toNat * 2 ^ 13 + tag.toNat * 2 ^ 8)

/-- A cause is due at a hart (R245). -/
def State.pend (s : State) (k : Nat) (cause : BitVec 9) (tval : Word) : State :=
  let h := s.hartOf k
  s.setHartOf k { h with pending := h.pending ++ [{ cause := cause, tval := tval }] }

/-- The sending end of a lost message (R200, R322): a copy records its loss once, and its request counts as complete. `losttx` counts what is
recorded (R325). -/
def lostAtSender (s : State) (m : Message) : State :=
  let tag := BitVec.ofNat 5 (descTag m.desc)
  let again := match m.req with
    | some (ch, id) => ((s.coreOf (m.hart / 8)).sluice.find ch id).isNone
    | none => false
  if again then s
  else
    let d := dieOfAgent (m.hart / 8)
    let s := s.setSpray d ((s.die d).spray.setCnt 4 fun w => bumpQuarter w 1)
    let s := recordLoss s m.src m.dst m.kind tag m.ctag false
    let s := match m.req with
      | some (ch, id) =>
        let c := s.coreOf (m.hart / 8)
        s.setCoreOf (m.hart / 8) { c with sluice := c.sluice.updateReq ch id fun r =>
          { r with chunks := r.chunks.map fun _ => .done } }
      | none => s
    let h := s.hartOf m.hart
    match h.run with
    | .task _ => if h.serial = m.serial then s.pend m.hart 0x101 (lossTval m.dst m.kind tag) else s
    | _ => s

/-- A core notes a loss for the next `mwait` on a tag. -/
def Core.noteLoss (c : Core) (tag : BitVec 5) (tv : Word) : Core := { c with mail := { c.mail with losses := c.mail.losses ++ [(tag, tv)] } }

/-- The receiving end of a lost counted message: the head of the tag's queue takes 0x102, or the next `mwait` does (R322); a core whose record
is written keeps the loss beside it (R384, log 32). -/
def lostAtReceiver (s : State) (src dst : BitVec 32) (kind : BitVec 3) (tag : BitVec 5) (ctag : BitVec 16) : State :=
  let s := recordLoss s dst src kind tag ctag true
  let tv := lossTval src kind tag
  if 5 ≤ kind.toNat then s
  else
    match (ctxTagged s dst ctag).filter fun e => e.2.recorded dst with
    | some (n, cx) => onRecord s n cx dst fun c => c.noteLoss tag tv
    | none =>
      match siteOf s dst with
      | none => s
      | some k =>
        let c := s.coreOf k
        match c.mail.fifos.get tag.toFin with
        | h :: r =>
          (s.setCoreOf k { c with mail := { c.mail with fifos := c.mail.fifos.set tag.toNat r tag.isLt } }).pend (8 * k + h) 0x102 tv
        | [] => s.setCoreOf k (c.noteLoss tag tv)

end Sys2Proof.Machine
end

