-- ==== Sys2Proof/Machine/WorkGraph.lean ====
section
/-! DEFINITION. Node choice: what a basin controller's post does (R277, R280, R461). -/

namespace Sys2Proof.Machine

/-- The owner's queue replaced. -/
def Basin.setWork (b : Basin) (w : WorkQueue) : Basin :=
  { b with works := (b.works.filter fun v => !(decide (v.ctx = w.ctx) && decide (v.block = w.block))) ++ [w] }

/-- The core that a post names: by `place` (R277, R280). A core of the gang in the basin for `place` 0: of the launch of the committing core. -/
def postTarget (s : State) (basin : Nat) (q : WorkQueue) (src target : BitVec 32) : Option Nat :=
  let gang := fun v => (siteOf s v).bind fun k => (s.coreOf k).part.launch
  if q.place = 1 then siteOf s src
  else if q.place = 2 then siteOf s (realCoord s q.target)
  else
    match siteOf s target with
    | some k => if basinOfSite k = basin ∧ gang target = gang src ∧ (gang target).isSome then some k else none
    | none => none

/-- The result of a post and the state it leaves; the conditions are tested in the order 1, 3, 2 (R461, log 20). `ncpq` names a block and no context;
where the basin holds queues of two contexts at that address, the model's choice is the one listed first, the one that no request has changed for longer
(R280, log 20). -/
def nodePost (s : State) (basin : Nat) (slot target : BitVec 32) : BitVec 2 × State :=
  let b := s.basin basin
  match b.works.find? fun q => q.block = b.ncpq with
  | none => (1, s)
  | some q =>
    match smFind slot.toNat q.slots with
    | some (.committed src) =>
      (match postTarget s basin q src target with
       | none => (3, s)
       | some k =>
         let c := s.coreOf k
         let t := c.task q.channel
         if t.pending || t.busy || t.fhold then (2, s)
         else
           let s := s.setCoreOf k (c.post q.channel src 0 slot (BitVec.ofNat 32 q.recsize))
           (0, s.setBasin basin (b.setWork { q with slots := smSet slot.toNat (.started c.coreid (BitVec.ofNat 6 q.channel)) q.slots })))
    | _ => (1, s)

/-- A post by the controller of a basin: writing `ncpost` (R461). -/
def postNode (s : State) (basin : Nat) (slot target : BitVec 32) : State :=
  let (r, s) := nodePost s basin slot target
  s.setBasin basin { s.basin basin with ncstat := r }

/-- Writing 1 to `ncev1.valid` (R461). -/
def popEvent (s : State) (basin : Nat) : State := s.setBasin basin { s.basin basin with ncev := (s.basin basin).ncev.drop 1 }

end Sys2Proof.Machine
end

