-- ==== Sys2Proof/Machine/Boot.lean ====
section
/-! DEFINITION. What writes to the boot registers do: placement, boot code, multicast and discovery (R456 to R460), and the places firmware
keeps in near memory (R441, R462). -/

namespace Sys2Proof.Machine

/-! ## Sites -/

/-- Sites of a die: 1,024 keys (R3). -/
def sitesOf (d : Nat) : List Nat := (List.range 1024).map (1024 * d + ·)

/-- Physical row and column of a site. -/
def siteRow (k : Nat) : Nat := k % 1024 / 32
def siteCol (k : Nat) : Nat := k % 32

/-- The site passed its self-test (R456). -/
def SiteTest.good (t : SiteTest) : Bool := t.rtrok && decide (t.fail = 0)

/-- `sitest` (R456). -/
def SiteTest.word (t : SiteTest) : Nat := b2n t.rtrok * 2 ^ 15 + b2n t.rtrspare * 2 ^ 14 + t.fail.toNat

def siteTest (v : Nat) : SiteTest := { rtrok := bitOf v 15, rtrspare := bitOf v 14, fail := BitVec.ofNat 8 v }

/-- The site holds a logical core. -/
def Core.holdsCore (c : Core) : Bool := c.asg.valid && !c.asg.spare

/-- `siteasg` (R458). -/
def SiteAsg.word (a : SiteAsg) : Nat := b2n a.valid * 2 ^ 63 + b2n a.spare * 2 ^ 62 + a.coord.toNat

def siteAsg (v : Nat) : SiteAsg := { valid := bitOf v 63, spare := bitOf v 62, coord := BitVec.ofNat 32 (bitsOf v 0 32) }

/-- A core with its assignment written: `coreid` follows (R458). A `coord` whose bits [21:14] or [7] are set, which R46 reserves, goes to `coreid` as it
is (the model's choice, log 41). -/
def Core.assign (c : Core) (a : SiteAsg) : Core := { c with asg := a, coreid := if a.valid && !a.spare then a.coord else 0 }

/-- A remap entry of a die written for a logical core. -/
def setRemap (s : State) (d : Nat) (v : BitVec 32) (e : RemapEntry) : State :=
  s.setDie d { s.die d with remap := smSet (remapIndex v) e (s.die d).remap }

/-- A write of `siteasg` (R458): during phase 2 it sets the remap entry too. -/
def putSiteAsg (s : State) (site : Nat) (a : SiteAsg) : State :=
  let d := site / 1024
  let s := s.setCoreOf site ((s.coreOf site).assign a)
  if a.valid && !a.spare && decide ((s.die d).boot.phase = 2) then
    setRemap s d a.coord { epoch := 0, valid := true, prow := BitVec.ofNat 5 (siteRow site), pcol := BitVec.ofNat 5 (siteCol site) }
  else s

/-- `sitego.go`: hart 0 of the site starts at M at `pc`, under boot fetch (R460). -/
def siteGo (s : State) (site : Nat) (pc : BitVec 16) : State :=
  let c := s.coreOf site
  let h := (s.hartOf (8 * site)).running
  let s := s.setCoreOf site { c with bootFetch := true, gopc := pc }
  s.setHartOf (8 * site) { h with
    pc := BitVec.ofNat 64 (4 * pc.toNat), run := .firmware, lanes := none, convoy := [], fresh := true, refused := [], checker := .idle
    trap := { h.trap with status := { h.trap.status with priv := 3, lthr := false } } }

/-- `sitego.clr`: boot fetch ends and the scratchpad becomes zero, once hart 0 has halted (R460). -/
def siteClr (s : State) (site : Nat) : State :=
  let c := s.coreOf site
  if c.bootFetch ∧ (s.hartOf (8 * site)).run = .firmware then s.setCoreOf site { c with clrPending := true }
  else s.setCoreOf site c.clearBoot

/-! ## Multicast and discovery (R457, R459) -/

/-- Sites of a die that a multicast writes. -/
def assignedSites (s : State) (d : Nat) : List Nat := (sitesOf d).filter fun k => (s.coreOf k).asg.valid

/-- `busy` clears when every assigned site has acknowledged. -/
def mcastSettle (s : State) (d : Nat) : State :=
  let v := s.die d
  if v.mcast.busy ∧ v.mcast.acks.length = (assignedSites s d).length then s.setDie d { v with mcast := { v.mcast with busy := false } } else s

/-- `mcastctl.len` and `offset` written (R459): a copy in progress keeps its own. -/
def mcastFields (s : State) (d : Nat) (len : BitVec 19) (offset : BitVec 18) : State :=
  s.setDie d { s.die d with mcast := { (s.die d).mcast with len := len, offset := offset } }

/-- `mcastctl.go` (R459): ignored while a copy runs or where a field breaks its rule. -/
def mcastGo (s : State) (d : Nat) : State :=
  let v := s.die d
  let n := v.mcast.len.toNat
  let o := v.mcast.offset.toNat
  if v.mcast.busy ∨ n % 512 ≠ 0 ∨ n < 512 ∨ o % 512 ≠ 0 ∨ 0x40000 < o + n then s
  else mcastSettle (s.setDie d { v with mcast := { v.mcast with runLen := n, runOff := o, acks := [], busy := true } }) d

/-- A site writes the block to its scratchpad and acknowledges its last chunk (R459). -/
def mcastWrite (s : State) (d site : Nat) : State :=
  let v := s.die d
  if v.mcast.busy ∧ site / 1024 = d % 4 ∧ (s.coreOf site).asg.valid ∧ !v.mcast.acks.contains site then
    let o := v.mcast.runOff
    let n := v.mcast.runLen
    let c := s.coreOf site
    let block := sliceOf (s.coreOf (4160 + d % 4)).sp (0x40000 + o) n
    let c1 := { c with sp := overlay c.sp o n block, spBad := c.spBad.filter fun w => !(decide (o ≤ 4 * w) && decide (4 * w < o + n)) }
    mcastSettle ((s.setCoreOf site c1).setDie d { v with mcast := { v.mcast with acks := v.mcast.acks ++ [site] } }) d
  else s

/-- `mcastctl.disc`: the flood begins (R457). -/
def floodStart (s : State) (d : Nat) : State :=
  let v := s.die d
  s.setDie d { v with disc := [], mcast := { v.mcast with flood := true, reports := 0 } }

/-- A router's report lands in the discovery table: at hop count prow + pcol (R457). -/
def floodReport (s : State) (d site : Nat) : State :=
  let v := s.die d
  let i := site % 1024
  if v.mcast.flood ∧ site / 1024 = d % 4 ∧ (smFind i v.disc).isNone then
    let w := BitVec.ofNat 32 (2 ^ 31 + (siteRow site + siteCol site) * 2 ^ 16 + (s.coreOf site).test.word)
    s.setDie d { v with disc := smSet i w v.disc, mcast := { v.mcast with reports := v.mcast.reports + 1 } }
  else s

/-! ## Firmware's places (R441, R462) -/

/-- The repair log copy of a die: the last 64 KiB of its near memory (R441). -/
def repairLogAt (d : Nat) : Nat := d % 4 * 2 ^ 41 + 108 * 2 ^ 30 - 2 ^ 16

/-- The place of `lseq` in a copy: its last 8 bytes (log 28). -/
def logSeqAt (d : Nat) : Nat := repairLogAt d + 0xFFF8

/-- The sites of the package that a predicate picks, as a count and site keys of two bytes each (log 28). -/
def siteList (s : State) (p : Core → Bool) : List Byte :=
  let l := (s.cores.filter fun e => decide (e.1 < 4096) && p e.2).map (·.1)
  leFields 2 (l.length :: l)

/-- A site is a spare that may be chosen (R424). -/
def Core.isSpare (c : Core) : Bool := c.asg.valid && c.asg.spare && decide (c.pool = .normal)

/-- A die's move in the log: its coordinate, sites and state, 0 while there is none (R426, log 28). -/
def moveBytes (m : Option Move) : List Byte :=
  match m with
  | none => leBytes 12 0
  | some m =>
    let st := match m.st with | .hold => 1 | .copy => 2 | .state => 3 | .flip => 4 | .release => 5
    leBytes 4 m.coord.toNat ++ leBytes 2 m.old ++ leBytes 2 m.spare ++ leBytes 4 st

/-- The record of the repair log (R441): the term, the event sequence, the moves, the path maps, the spare pool and the defective list, in the
layout of log 28. -/
def logRecord (s : State) (term : BitVec 32) : List Byte :=
  let path := fun h : PathHlth => b2n h.trained * 2 + b2n h.retired
  leBytes 4 term.toNat ++ leBytes 4 s.hostif.ring.seq.toNat
    ++ s.dies.toList.flatMap (fun v => moveBytes v.move)
    ++ s.dies.toList.flatMap (fun v => leFields 1 (v.paths.toList.map path))
    ++ s.dies.toList.flatMap (fun v => leFields 2 (v.fabports.toList.map fun p => b2n p.mapped * 2 ^ 15 + p.peerpkg.toNat))
    ++ siteList s Core.isSpare ++ siteList s fun c => decide (c.pool = .defective)

/-- The lease holder writes an update of the repair log to the four copies, the record of each first and its `lseq` last (R441). -/
def logUpdate (s : State) : State :=
  match leaderDie s with
  | none => s
  | some d =>
    let l := { (s.die d).lease with lseq := (s.die d).lease.lseq + 1 }
    let r := logRecord s l.term
    (List.range 4).foldl (fun s k => devWrite (devWrite s none (repairLogAt k) r) none (logSeqAt k) (leBytes 8 l.lseq.toNat))
      (s.setDie d { s.die d with lease := l })

/-- What a step leaves, with the repair log written anew where the step changed what the log holds and has not written it itself (R441). -/
def keepLog (s t : State) : State :=
  match leaderDie t with
  | none => t
  | some d =>
    let term := (t.die d).lease.term
    if (s.die d).lease.lseq = (t.die d).lease.lseq ∧ logRecord s term ≠ logRecord t term then logUpdate t else t

/-- What becomes of a step: `keepLog` of the state it leaves. -/
def logged (s : State) : Out → Out
  | .next t => .next (keepLog s t)
  | o => o

/-- The highest `lseq` among the copies that can be read: those whose word is not poisoned (R441). -/
def logSeq (s : State) : Nat :=
  ((List.range 4).map fun d => if (poisonAt s (logSeqAt d) 8).isSome then 0 else readLE s.mem (logSeqAt d) 8).foldl max 0

/-- Where a die's cistern places the core machine firmware: 1 MiB directly below the repair log copy. Its entry is the first byte (R462,
log 22). -/
def coreFirmwareAt (d : Nat) : Nat := repairLogAt d - 2 ^ 20

/-- `mtvec` of every hart of a site points at the core machine firmware (R462). -/
def setMtvec (s : State) (site : Nat) : State :=
  (hartsOf site).foldl (fun s k =>
    let h := s.hartOf k
    s.setHartOf k { h with trap := { h.trap with mtvec := BitVec.ofNat 64 (coreFirmwareAt (site / 1024)) } }) s

/-- A core reset, its scratchpad zero: what belongs to the site stays, its error registers among it (R418, R426, R435). -/
def Core.fresh (c : Core) : Core := { Core.reset with test := c.test, asg := c.asg, err := c.err, marks := c.marks }

/-- A site's core and harts reset (R426, R435). -/
def resetSite (s : State) (site : Nat) : State :=
  let s := s.setCoreOf site (s.coreOf site).fresh
  setMtvec ((hartsOf site).foldl (fun s k => s.setHartOf k { Hart.reset with serial := (s.hartOf k).serial + 1 }) s) site

end Sys2Proof.Machine
end

