-- ==== Sys2Proof/Machine/Control.lean ====
section
/-! DEFINITION. The register windows that M firmware reaches through control space (R443 to R445): every register's layout, and what reading
and writing it does (R12, R13).

A window is read and written by 8-byte words; a write carries the bits it writes, so that a 4-byte write leaves the other half alone. -/

namespace Sys2Proof.Machine

/-! ## Register accesses (R12) -/

/-- A write to an 8-byte register: its value and the bits it writes. -/
structure RegWr where
  val : Nat
  mask : Nat
  deriving DecidableEq, Repr

/-- The write of `size` bytes at an address, as its 8-byte register sees it. -/
def regWr (addr size v : Nat) : RegWr :=
  { val := v % 2 ^ (8 * size) * 2 ^ (8 * (addr % 8)), mask := (2 ^ (8 * size) - 1) * 2 ^ (8 * (addr % 8)) }

/-- An `rw` field of `len` bits at `lo`: the bits written replace the old ones. -/
def RegWr.field (w : RegWr) (lo len old : Nat) : Nat :=
  let m := bitsOf w.mask lo len
  (old &&& (2 ^ len - 1 - m)) ||| (bitsOf w.val lo len &&& m)

/-- A one-bit `rw` field. -/
def RegWr.bit (w : RegWr) (i : Nat) (old : Bool) : Bool := if bitOf w.mask i then bitOf w.val i else old

/-- A `wo` or `w1c` bit is written 1. -/
def RegWr.hit (w : RegWr) (i : Nat) : Bool := bitOf w.mask i && bitOf w.val i

/-- The `size` bytes at an address of a window read by words. -/
def readWords (f : Nat → Nat) (addr size : Nat) : Nat := bitsOf (f (addr / 8 * 8)) (8 * (addr % 8)) (8 * size)

/-! ## Site window (R444) -/

/-- `cerrwin` and `cerrlog` (R418). -/
def SiteErr.winWord (e : SiteErr) : Nat :=
  e.level.toNat * 2 ^ 48 + e.thresh.toNat * 2 ^ 32 + e.leaklog.toNat * 2 ^ 24 + b2n e.req

def SiteErr.logWord (e : SiteErr) : Nat := e.total.toNat * 2 ^ 32 + e.src.toNat * 2 ^ 28 + e.loc.toNat

/-- `leaklog` takes 10 to 31 (R418, R436). -/
def leakField (old : BitVec 5) (v : Nat) : BitVec 5 := if 10 ≤ v ∧ v ≤ 31 then BitVec.ofNat 5 v else old

def SiteErr.putWin (e : SiteErr) (w : RegWr) : SiteErr :=
  { e with thresh := BitVec.ofNat 16 (w.field 32 16 e.thresh.toNat), leaklog := leakField e.leaklog (w.field 24 5 e.leaklog.toNat)
           req := e.req && !w.hit 0 }

/-- The 8-byte word at an offset of a site window. -/
def siteWord (s : State) (site o : Nat) : Nat :=
  let c := s.coreOf site
  if o < 0x40000 then readLE c.sp o 8
  else if o < 0x40800 then imageWord ((c.task ((o - 0x40000) / 32)).image) (o % 32 / 8)
  else if o = 0x80000 then c.test.word
  else if o = 0x80008 then c.asg.word
  else if o = 0x80010 then 4 * c.gopc.toNat
  else if o = 0x80100 then c.err.winWord
  else if o = 0x80108 then c.err.logWord
  else if o = 0x80110 then c.lossrec.word.toNat
  else if 0x80200 ≤ o ∧ o < 0x80280 then
    let k := 8 * site + (o - 0x80200) / 16
    if o % 16 = 0 then (s.hartOf k).wait.limit.toNat * 2 ^ 32 + (s.hartOf k).wait.count.toNat else waitWord s k
  else if 0x80300 ≤ o ∧ o < 0x80340 then (s.hartOf (8 * site + (o - 0x80300) / 8)).trap.mtvec.toNat
  else 0

/-- A write to a site window: the bytes at `addr`, and the register's view of them. -/
def sitePut (s : State) (site addr : Nat) (data : List Byte) (w : RegWr) : State :=
  let c := s.coreOf site
  let o := addr / 8 * 8
  if addr < 0x40000 then s.setCoreOf site (c.spPut addr data)
  else if addr < 0x40800 then
    let ch := (addr - 0x40000) / 32
    noteCleared c (s.setCoreOf site (c.setTask ch ((c.task ch).putBytes (addr % 32) data))) site
  else if o = 0x80008 then
    putSiteAsg s site { valid := w.bit 63 c.asg.valid, spare := w.bit 62 c.asg.spare
                        coord := BitVec.ofNat 32 (w.field 0 32 c.asg.coord.toNat) }
  else if o = 0x80010 then
    let pc : BitVec 16 := BitVec.ofNat 16 (w.field 2 16 c.gopc.toNat)
    let s := s.setCoreOf site { c with gopc := pc }
    let s := if w.hit 62 then siteClr s site else s
    if w.hit 63 then siteGo s site pc else s
  else if o = 0x80100 then s.setCoreOf site { c with err := c.err.putWin w }
  else if o = 0x80110 then
    s.setCoreOf site { c with lossrec := { c.lossrec with valid := c.lossrec.valid && !w.hit 0, more := c.lossrec.more && !w.hit 2 } }
  else if 0x80300 ≤ o ∧ o < 0x80340 then
    let k := 8 * site + (o - 0x80300) / 8
    let h := s.hartOf k
    s.setHartOf k { h with trap := { h.trap with mtvec := BitVec.ofNat 64 (w.field 2 62 (h.trap.mtvec.toNat / 4) * 4) } }
  else s

/-! ## Cistern window (R445) -/

def BootSt.word (b : BootSt) : Nat :=
  b.err.toNat * 2 ^ 24 + b.phase.toNat * 2 ^ 16 + b2n b.scanok * 512 + b2n b.owner * 256 + b2n b.idok * 16 + b2n b.ready

def PathHlth.word (p : PathHlth) : Nat :=
  p.level.toNat * 2 ^ 48 + p.thresh.toNat * 2 ^ 32 + p.leaklog.toNat * 2 ^ 24 + b2n p.trained * 2 + b2n p.retired

def MemTrn.word (m : MemTrn) : Nat :=
  m.rdmarg.toNat * 2 ^ 48 + m.wrmarg.toNat * 2 ^ 32 + m.repaired.toNat * 2 ^ 16 + m.step.toNat * 2 ^ 8 + m.state.toNat

def FabPort.word (p : FabPort) : Nat :=
  p.peerpkg.toNat * 2 ^ 54 + p.peerport.toNat * 2 ^ 48 + p.step.toNat * 2 ^ 8 + p.state.toNat

/-- A remap entry (R425). -/
def RemapEntry.word (e : RemapEntry) : Nat :=
  e.epoch.toNat * 2 ^ 16 + b2n e.valid * 2 ^ 15 + e.prow.toNat * 2 ^ 8 + e.pcol.toNat

def Mcast.stWord (m : Mcast) : Nat := m.acks.length * 2 ^ 32 + m.reports.toNat * 2 ^ 16 + b2n m.err * 2 + b2n m.busy

/-- Path index of an offset in the cistern window: modules, then fabric ports. -/
def pathAt (o : Nat) : Nat := if o < 0x0480 then (o - 0x0400) / 8 else 16 + (o - 0x0480) / 8

/-- The 8-byte word at an offset of a cistern window. -/
def cisternWord (s : State) (d o : Nat) : Nat :=
  let v := s.die d
  if o = 0x0000 then v.boot.word
  else if o = 0x0008 then b2n s.hostif.regs.pkgidValid * 2 ^ 15 + s.hostif.regs.pkgid.toNat
  else if o = 0x0010 then (if d = 0 then v.aoreg.toNat else 0)
  else if 0x0020 ≤ o ∧ o < 0x0040 then bitsOf v.meas.toNat (8 * (o - 0x20)) 64
  else if o = 0x0100 then v.scrubint.toNat * 2 ^ 32 + b2n v.hben * 4 + b2n v.memscrub * 2 + b2n v.scrub
  else if o = 0x0108 then v.lease.hbint.toNat
  else if o = 0x0110 then v.lease.term.toNat * 2 ^ 32 + v.lease.leader.toNat * 16 + v.lease.role.toNat
  else if 0x0200 ≤ o ∧ o < 0x0220 then
    let p := v.spray.wins.get (Fin.ofNat 4 ((o - 0x0200) / 8))
    p.1.toNat * 2 ^ 32 + p.2.toNat
  else if 0x0240 ≤ o ∧ o < 0x0268 then (v.spray.cnts.get (Fin.ofNat 5 ((o - 0x0240) / 8))).toNat
  else if 0x0400 ≤ o ∧ o < 0x04B0 then (v.paths.get (Fin.ofNat 22 (pathAt o))).word
  else if 0x0800 ≤ o ∧ o < 0x0818 then (v.nmtrn.get (Fin.ofNat 3 ((o - 0x0800) / 8))).word
  else if 0x0840 ≤ o ∧ o < 0x08A0 then (v.fmtrn.get (Fin.ofNat 12 ((o - 0x0840) / 8))).word
  else if 0x0900 ≤ o ∧ o < 0x0930 then (v.fabports.get (Fin.ofNat 6 ((o - 0x0900) / 8))).word
  else if 0x1000 ≤ o ∧ o < 0x1000 + 4000 then
    let e := fun i => (smGet RemapEntry.reset i v.remap).word
    let i := (o - 0x1000) / 4
    e i + 2 ^ 32 * e (i + 1)
  else if 0x8000 ≤ o ∧ o < 0x9000 then
    let e := fun i => (smGet 0 i v.disc : BitVec 32).toNat
    let i := (o - 0x8000) / 4
    e i + 2 ^ 32 * e (i + 1)
  else if o = 0x9000 then v.mcast.len.toNat * 2 ^ 27 + v.mcast.offset.toNat * 2 ^ 9
  else if o = 0x9008 then v.mcast.stWord
  else if 0x40000 ≤ o ∧ o < 0x80000 then readLE (s.coreOf (4160 + d)).sp o 8
  else 0

/-- A write to a cistern window. A value below a field's stated minimum (`scrubint` 16, `hbint` 4,096, `spwin` window 256) leaves the field as it
was: R12 says only "at least" (log 41). -/
def cisternPut (s : State) (d addr : Nat) (data : List Byte) (w : RegWr) : State :=
  let v := s.die d
  let o := addr / 8 * 8
  if o = 0x0010 then (if d = 0 then s.setDie d { v with aoreg := BitVec.ofNat 32 (w.field 0 32 v.aoreg.toNat) } else s)
  else if o = 0x0100 then
    let i := w.field 32 32 v.scrubint.toNat
    s.setDie d { v with scrubint := if 16 ≤ i then BitVec.ofNat 32 i else v.scrubint
                        hben := w.bit 2 v.hben, memscrub := w.bit 1 v.memscrub, scrub := w.bit 0 v.scrub }
  else if o = 0x0108 then
    let i := w.field 0 32 v.lease.hbint.toNat
    if 4096 ≤ i then s.setDie d { v with lease := { v.lease with hbint := BitVec.ofNat 32 i } } else s
  else if 0x0200 ≤ o ∧ o < 0x0220 then
    let n := (o - 0x0200) / 8 % 4
    let p := v.spray.wins.get (Fin.ofNat 4 n)
    let win := w.field 0 32 p.2.toNat
    let p1 := (BitVec.ofNat 32 (w.field 32 32 p.1.toNat), if 256 ≤ win then BitVec.ofNat 32 win else p.2)
    s.setSpray d { v.spray with wins := v.spray.wins.set n p1 (Nat.mod_lt _ (by decide)) }
  else if 0x0240 ≤ o ∧ o < 0x0268 then
    s.setSpray d (v.spray.setCnt ((o - 0x0240) / 8) fun c => BitVec.ofNat 64 (w.field 0 64 c.toNat))
  else if 0x0400 ≤ o ∧ o < 0x04B0 then
    let i := pathAt o % 22
    let p := v.paths.get (Fin.ofNat 22 i)
    let p1 := { p with thresh := BitVec.ofNat 16 (w.field 32 16 p.thresh.toNat), leaklog := leakField p.leaklog (w.field 24 5 p.leaklog.toNat) }
    s.setDie d { v with paths := v.paths.set i p1 (Nat.mod_lt _ (by decide)) }
  else if o = 0x9000 then
    let len : BitVec 19 := BitVec.ofNat 19 (w.field 27 19 v.mcast.len.toNat)
    let off : BitVec 18 := BitVec.ofNat 18 (w.field 9 18 v.mcast.offset.toNat)
    let s := mcastFields s d len off
    let s := if w.hit 1 then mcastGo s d else s
    if w.hit 0 then floodStart s d else s
  else if 0x40000 ≤ addr ∧ addr < 0x80000 then
    let k := 4160 + d
    s.setCoreOf k { s.coreOf k with sp := writeBytes (s.coreOf k).sp addr data }
  else s

/-! ## Basin window (R445, R461) -/

/-- A notify register (R333). The index shows once the tile leaves state 0, for the field is 0 at frame open (log 41). -/
def Tile.notifyWord (t : Tile) (i : Nat) : Nat :=
  (if t.state = 0 then 0 else i) * 2 ^ 32 + t.prims.toNat * 2 ^ 16 + t.blends.toNat * 32 + b2n t.bovf * 8 + b2n t.ovf * 4 + t.state.toNat

/-- The 8-byte word at an offset of a basin window. -/
def basinWord (s : State) (b o : Nat) : Nat :=
  let v := s.basin b
  let g := v.gfx
  if o = 0x0000 then (v.ncev.head?.map fun e => e.block.toNat).getD 0
  else if o = 0x0008 then (v.ncev.head?.map fun e => e.slot.toNat * 2 ^ 32 + e.kind.toNat * 256 + 1).getD 0
  else if o = 0x0010 then v.ncpq.toNat
  else if o = 0x0020 then v.ncstat.toNat
  else if o = 0x0100 then
    g.accepted.toNat * 2 ^ 32 + g.marks.toNat * 256
      + (match g.st with | .idle => 0 | .binning => 1 | .resolving => 2 | .draining => 3)
  else if o = 0x0108 then g.dupseq.toNat * 2 ^ 48 + g.badprim.toNat * 2 ^ 32 + g.ovf.toNat * 2 ^ 16 + g.blovf.toNat
  else if 0x10000 ≤ o then
    (match (g.desc.ownedBy b)[(o - 0x10000) / 8]? with | some t => (g.tile t).notifyWord t | none => 0)
  else 0

/-- A write to a basin window. -/
def basinPut (s : State) (b addr : Nat) (w : RegWr) : State :=
  let v := s.basin b
  let o := addr / 8 * 8
  if o = 0x0008 then (if w.hit 0 then popEvent s b else s)
  else if o = 0x0010 then s.setBasin b { v with ncpq := BitVec.ofNat 64 (w.field 0 64 v.ncpq.toNat) }
  else if o = 0x0018 then postNode s b (BitVec.ofNat 32 (bitsOf w.val 32 32)) (BitVec.ofNat 32 (bitsOf w.val 0 32))
  else s

/-! ## Control space (R443) -/

/-- The 8-byte word at an offset of control space. -/
def ctlWord (s : State) (off : Nat) : Nat :=
  let d := off / 2 ^ 32
  let o := off % 2 ^ 32
  if 4 ≤ d then 0
  else if o < 0x01000000 then cisternWord s d o
  else if o < 0x02000000 then basinWord s (16 * d + (o - 0x01000000) / 0x100000) (o % 0x100000)
  else if 0x10000000 ≤ o ∧ o < 0x50000000 then siteWord s (1024 * d + (o - 0x10000000) / 0x100000) (o % 0x100000)
  else 0

/-- What an M load of `size` bytes at an offset of control space reads (R443). -/
def ctlRead (s : State) (off size : Nat) : Nat := readWords (ctlWord s) off size

/-- The state after an M store of `size` bytes at an offset of control space (R443). -/
def ctlWrite (s : State) (off size v : Nat) : State :=
  let d := off / 2 ^ 32
  let o := off % 2 ^ 32
  let w := regWr off size v
  let data := leBytes size v
  if 4 ≤ d then s
  else if o < 0x01000000 then cisternPut s d o data w
  else if o < 0x02000000 then basinPut s (16 * d + (o - 0x01000000) / 0x100000) (o % 0x100000) w
  else if 0x10000000 ≤ o ∧ o < 0x50000000 then sitePut s (1024 * d + (o - 0x10000000) / 0x100000) (o % 0x100000) data w
  else s

end Sys2Proof.Machine
end

