-- ==== Sys2Proof/Machine/MlDsa.lean ====
section
/-! DEFINITION. ML-DSA-44 (FIPS 204), which signs the boot items, the second certificate of each die and the attestation (R9, R447, R453, R454).

The names are those of FIPS 204: n = 256, q = 8380417, (k, l) = (4, 4), η = 2, τ = 39, γ1 = 2^17, γ2 = (q − 1) / 88, β = 78, ω = 80.
Samplers take as many bytes as the standard's limits on their loops, and a signature at most 814 attempts. -/

namespace Sys2Proof.Machine.MlDsa

def q : Nat := 8380417
def gamma1 : Nat := 2 ^ 17
def gamma2 : Nat := 95232

/-! ## Polynomials mod x^256 + 1 -/

/-- Coefficients below q, that of x^0 first; in the transform's domain the values at its roots. -/
abbrev Poly := List Nat

/-- A vector of polynomials. -/
abbrev PolyVec := List Poly

def zero : Poly := List.replicate 256 0

def add (a b : Poly) : Poly := List.zipWith (fun x y => (x + y) % q) a b

def sub (a b : Poly) : Poly := List.zipWith (fun x y => (x + (q - y)) % q) a b

/-- Product in the transform's domain. -/
def mul (a b : Poly) : Poly := List.zipWith (fun x y => x * y % q) a b

def sum (l : List Poly) : Poly := l.foldl add zero

def addV (a b : PolyVec) : PolyVec := List.zipWith add a b

def subV (a b : PolyVec) : PolyVec := List.zipWith sub a b

/-- A coefficient's representative nearest to 0. -/
def centre (a : Nat) : Int := if q / 2 < a then (a : Int) - q else a

/-- A signed number as a coefficient. -/
def ofInt (i : Int) : Nat := (i % (q : Int)).toNat

/-- Largest size of a coefficient. -/
def norm (v : PolyVec) : Nat := v.foldl (fun m p => p.foldl (fun m c => max m (centre c).natAbs) m) 0

/-- Powers of the root ζ = 1753, which has order 512. -/
def powers : Nat → Nat → List Nat
  | _, 0 => []
  | z, n + 1 => z :: powers (z * 1753 % q) n

def zetas : List Nat := powers 1 512

/-- Eight bits in reverse order. -/
def rev8 (i : Nat) : Nat := (List.range 8).foldl (fun v b => v + i / 2 ^ b % 2 * 2 ^ (7 - b)) 0

/-- The transform: value i is that at ζ^(2 rev8(i) + 1). -/
def ntt (p : Poly) : Poly :=
  (List.range 256).map fun i =>
    let e := 2 * rev8 i + 1
    (p.zipIdx.foldl (fun v c => v + c.1 * zetas.getD (e * c.2 % 512) 0) 0) % q

/-- Its inverse; 8347681 is 1/256 mod q. -/
def intt (v : Poly) : Poly :=
  (List.range 256).map fun j =>
    (v.zipIdx.foldl (fun w c => w + c.1 * zetas.getD ((512 - (2 * rev8 c.2 + 1) * j % 512) % 512) 0) 0) % q * 8347681 % q

/-- A matrix in the transform's domain times a vector in it. -/
def mulMat (a : List PolyVec) (v : PolyVec) : PolyVec := a.map fun r => sum (List.zipWith mul r v)

/-! ## Rounding -/

/-- A number's representative mod m nearest to 0, from −m/2 + 1 to m/2 for even m. -/
def near (m a : Nat) : Int := if m / 2 < a % m then (a % m : Int) - m else (a % m : Int)

/-- `Power2Round`: the high part and the low 13 bits. -/
def power2Round (r : Nat) : Nat × Int := ((((r : Int) - near 8192 r) / 8192).toNat, near 8192 r)

/-- `Decompose`. -/
def decompose (r : Nat) : Nat × Int :=
  let r0 := near (2 * gamma2) r
  if (r : Int) - r0 = q - 1 then (0, r0 - 1) else ((((r : Int) - r0) / (2 * gamma2)).toNat, r0)

def highBits (r : Nat) : Nat := (decompose r).1

def lowBits (r : Nat) : Int := (decompose r).2

/-- `MakeHint` of z and r. -/
def makeHint (z r : Nat) : Nat := b2n (decide (highBits r ≠ highBits ((r + z) % q)))

/-- `UseHint`. -/
def useHint (h r : Nat) : Nat :=
  let (r1, r0) := decompose r
  if h = 1 then (if 0 < r0 then (r1 + 1) % 44 else (r1 + 43) % 44) else r1

/-! ## Encodings -/

/-- Numbers of w bits, one after the other from the lowest bit. -/
def pack (w : Nat) (l : List Nat) : List Byte := leBytes (w * l.length / 8) (l.foldr (fun a v => a % 2 ^ w + 2 ^ w * v) 0)

def unpack (w n : Nat) (l : List Byte) : List Nat := let v := leValue l; (List.range n).map fun i => bitsOf v (w * i) w

/-- `BitPack` with upper end b: each coefficient as b less its value. -/
def packFrom (w b : Nat) (p : Poly) : List Byte := pack w (p.map fun c => ((b : Int) - centre c).toNat)

def unpackFrom (w b : Nat) (l : List Byte) : Poly := (unpack w 256 l).map fun v => ofInt ((b : Int) - v)

/-- Consecutive pieces of m bytes. -/
def pieces (m n : Nat) (l : List Byte) : List (List Byte) := (List.range n).map fun i => (l.drop (m * i)).take m

/-- Positions of the ones of a hint polynomial. -/
def hintOnes (p : Poly) : List Nat := (List.range 256).filter fun j => decide (p.getD j 0 ≠ 0)

/-- `HintBitPack`: the positions in order, then the running count of each polynomial. -/
def packHint (h : PolyVec) : List Byte :=
  let ones := h.map hintOnes
  let idx := ones.flatten
  let cnt := (List.range 4).map fun i => ((ones.take (i + 1)).map List.length).sum
  ((idx ++ List.replicate (80 - idx.length) 0) ++ cnt).map (BitVec.ofNat 8)

/-- `HintBitUnpack`: none where positions do not rise, counts fall or pass ω, or a spare byte is not zero. -/
def unpackHint (l : List Byte) : Option PolyVec :=
  let y := l.map BitVec.toNat
  let cnt := y.drop 80
  let from_ := fun i => if i = 0 then 0 else cnt.getD (i - 1) 0
  let part := fun i => (y.drop (from_ i)).take (cnt.getD i 0 - from_ i)
  let rises := fun l : List Nat => (List.zip l (l.drop 1)).all fun p => decide (p.1 < p.2)
  let ok := (List.range 4).all fun i => decide (from_ i ≤ cnt.getD i 0) && decide (cnt.getD i 0 ≤ 80) && rises (part i)
  if ok ∧ ((y.take 80).drop (cnt.getD 3 0)).all (· = 0) then
    some ((List.range 4).map fun i => (List.range 256).map fun j => b2n ((part i).contains j))
  else none

/-! ## Sampling -/

/-- The first n of a list, zeros after its end. -/
def firstN (n : Nat) (l : List Nat) : List Nat := l.take n ++ List.replicate (n - l.length) 0

/-- `RejNTTPoly`: three bytes give a candidate of 23 bits, taken where it lies below q. -/
def rejNtt (seed : List Byte) : Poly :=
  firstN 256 (((pieces 3 298 (shake128 seed 894)).map fun t => leValue t % 2 ^ 23).filter (· < q))

/-- `RejBoundedPoly`: each half byte below 15 gives 2 less its value mod 5. -/
def rejBounded (seed : List Byte) : Poly :=
  firstN 256 (((shake256 seed 481).flatMap fun b => [b.toNat % 16, b.toNat / 16]).filter (· < 15) |>.map fun v => ofInt (2 - (v % 5 : Nat)))

/-- `ExpandA`. -/
def expandA (rho : List Byte) : List PolyVec :=
  (List.range 4).map fun r => (List.range 4).map fun s => rejNtt (rho ++ leBytes 1 s ++ leBytes 1 r)

/-- `ExpandS`: the vectors s1 and s2. -/
def expandS (rho : List Byte) : PolyVec × PolyVec :=
  ((List.range 4).map fun r => rejBounded (rho ++ leBytes 2 r), (List.range 4).map fun r => rejBounded (rho ++ leBytes 2 (r + 4)))

/-- `ExpandMask`. -/
def expandMask (rho : List Byte) (mu : Nat) : PolyVec :=
  (List.range 4).map fun r => unpackFrom 18 gamma1 (shake256 (rho ++ leBytes 2 (mu + r)) 576)

/-- The swaps of `SampleInBall`: position i takes what stands at the next byte that is at most i, which takes a sign. -/
def ballFrom (signs : Nat) : List Nat → List Byte → Poly → Poly
  | [], _, c => c
  | i :: is, l, c =>
    match l.dropWhile (fun b => decide (i < b.toNat)) with
    | [] => c
    | b :: l => ballFrom signs is l ((c.set i (c.getD b.toNat 0)).set b.toNat (if bitOf signs (i - 217) then q - 1 else 1))

/-- `SampleInBall`: 39 coefficients of ±1. -/
def sampleInBall (seed : List Byte) : Poly :=
  let h := shake256 seed 221
  ballFrom (leValue (h.take 8)) ((List.range 39).map (217 + ·)) (h.drop 8) zero

/-! ## Keys and signatures -/

/-- A public key: the seed of the matrix, and t1. -/
def encodePk (rho : List Byte) (t1 : PolyVec) : List Byte := rho ++ t1.flatMap (pack 10)

/-- `KeyGen` from a seed: public and secret key. -/
def keyGen (seed : List Byte) : List Byte × List Byte :=
  let h := shake256 (seed ++ [4, 4]) 128
  let rho := h.take 32
  let key := h.drop 96
  let (s1, s2) := expandS ((h.drop 32).take 64)
  let t := addV ((mulMat (expandA rho) (s1.map ntt)).map intt) s2
  let t1 := t.map fun p => p.map fun c => (power2Round c).1
  let t0 := t.map fun p => p.map fun c => ofInt (power2Round c).2
  let pk := encodePk rho t1
  (pk, rho ++ key ++ shake256 pk 64 ++ s1.flatMap (packFrom 3 2) ++ s2.flatMap (packFrom 3 2) ++ t0.flatMap (packFrom 13 4096))

/-- The message representative of a message without a context string: 64 bytes. -/
def representative (tr msg : List Byte) : List Byte := shake256 (tr ++ [0, 0] ++ msg) 64

/-- `c̃` of a representative and the high bits. -/
def challenge (mu : List Byte) (w1 : PolyVec) : List Byte := shake256 (mu ++ w1.flatMap (pack 6)) 32

/-- What a signing attempt works with. -/
structure Secret where
  mat : List PolyVec
  s1 : PolyVec
  s2 : PolyVec
  t0 : PolyVec
  mu : List Byte
  rho : List Byte
  deriving DecidableEq, Repr

/-- One attempt, its counter at κ: none where it is rejected. -/
def attempt (x : Secret) (kappa : Nat) : Option (List Byte) :=
  let y := expandMask x.rho kappa
  let w := (mulMat x.mat (y.map ntt)).map intt
  let ct := challenge x.mu (w.map (·.map highBits))
  let c := ntt (sampleInBall ct)
  let times := fun v : PolyVec => v.map fun p => intt (mul c p)
  let z := addV y (times x.s1)
  let r := subV w (times x.s2)
  let c0 := times x.t0
  let h := List.zipWith (fun a b => List.zipWith (fun u v => makeHint ((q - u) % q) v) a b) c0 (addV r c0)
  if norm z < gamma1 - 78 ∧ (r.all fun p => p.all fun v => decide ((lowBits v).natAbs < gamma2 - 78)) ∧ norm c0 < gamma2
      ∧ (h.map List.sum).sum ≤ 80 then
    some (ct ++ z.flatMap (packFrom 18 gamma1) ++ packHint h)
  else none

/-- The first attempt of `n` that is not rejected. -/
def attempts (x : Secret) (kappa : Nat) : Nat → Option (List Byte)
  | 0 => none
  | n + 1 => (attempt x kappa).orElse fun _ => attempts x (kappa + 4) n

/-- `Sign` with a secret key and 32 random bytes; empty where every attempt is rejected. -/
def sign (sk msg rnd : List Byte) : List Byte :=
  let vec := fun off m w b => (pieces m 4 (sk.drop off)).map fun l => ntt (unpackFrom w b l)
  let mu := representative ((sk.drop 64).take 64) msg
  let x : Secret :=
    { mat := expandA (sk.take 32), s1 := vec 128 96 3 2, s2 := vec 512 96 3 2, t0 := vec 896 416 13 4096, mu := mu
      rho := shake256 ((sk.drop 32).take 32 ++ rnd ++ mu) 64 }
  (attempts x 0 814).getD []

/-- The high bits that a signature's z and hints give under a key, its challenge at c. -/
def recover (pk : List Byte) (c : Poly) (z h : PolyVec) : PolyVec :=
  let az := mulMat (expandA (pk.take 32)) (z.map ntt)
  let t1 := (pieces 320 4 (pk.drop 32)).map fun l => (unpack 10 256 l).map fun v => v * 8192 % q
  let w := (subV az (t1.map fun p => mul (ntt c) (ntt p))).map intt
  List.zipWith (List.zipWith useHint) h w

/-- `Verify` of a signature of a message with a public key. -/
def verify (pk msg sig : List Byte) : Bool :=
  let ct := sig.take 32
  let z := (pieces 576 4 (sig.drop 32)).map (unpackFrom 18 gamma1)
  match unpackHint (sig.drop 2336) with
  | none => false
  | some h =>
    let mu := representative (shake256 pk 64) msg
    decide (pk.length = 1312) && decide (sig.length = 2420) && decide (norm z < gamma1 - 78)
      && decide (challenge mu (recover pk (sampleInBall ct) z h) = ct)

end Sys2Proof.Machine.MlDsa
end

