-- ==== Sys2Proof/Machine/Launch.lean ====
section
/-! DEFINITION. Launches: a context's accesses to its own memory, code handles, the checks of a gang launch, and the
pending-launch pool (R208, R273 to R275, R366, R371, R374, R378 to R381). -/

namespace Sys2Proof.Machine

/-! ## Accesses through a context's page tables (R367, R371, R377) -/

/-- What an access of a context answers, or its cause, and the state it leaves either way: the walks before a fault have set their page-table
bits (R367). -/
abbrev Ans (α : Type) := Except (BitVec 9) α × State

/-- Where an address of a context lies for a queue, a loader, launch dispatch or a signal; on a replica page die 0's replica. Such an
access is made at S and sets the page-table bits it needs (R367, R371, log 17). -/
def ctxPlace (s : State) (cx : Ctx) (va : Word) (acc : Nat) : Ans Loc :=
  if bitsOf va.toNat 55 9 ≠ 0 ∧ bitsOf va.toNat 55 9 ≠ 511 then (.error 0x0E1, s)
  else
    match walkCheck s cx va.toNat acc false with
    | .error (r, l) => (.error (xlatCause acc r l), s)
    | .ok p => (.ok (paLoc (p.pa + (va.toNat - p.va))), walkUpdate s p acc)

/-- The host refuses an access of a context (R392). -/
def ctxRefused (s : State) (cx : Ctx) (h : Nat) (write : Bool) : Bool :=
  let p := hostPage s (cx.hostPlace h)
  !cx.pasidEn || (if write then !p.writeOk else !p.readOk)

/-- Reads bytes of one page of a context. -/
def ctxReadIn (s : State) (cx : Ctx) (va : Word) (n : Nat) : Ans (List Byte) :=
  match ctxPlace s cx va 0 with
  | (.error c, s) => (.error c, s)
  | (.ok (.dev pa), s) =>
    (match poisonAt s pa n with
     | some (_, src) => (.error (0x140 + src.setWidth 9), s)
     | none => (.ok (readBytes s.mem pa n), s))
  | (.ok (.host h), s) => (if ctxRefused s cx h false then .error 0x144 else .ok (readBytes s.hostMem (cx.hostPlace h) n), s)
  | (.ok _, s) => (.ok (List.replicate n 0), s)

/-- Reads `n` bytes of a context, page by page; the fuel counts pages. -/
def ctxReadFrom (cx : Ctx) : Nat → State → Word → Nat → Ans (List Byte)
  | 0, s, _, _ => (.ok [], s)
  | f + 1, s, va, n =>
    if n = 0 then (.ok [], s)
    else
      let k := min n (4096 - va.toNat % 4096)
      match ctxReadIn s cx va k with
      | (.error c, s) => (.error c, s)
      | (.ok l, s) =>
        match ctxReadFrom cx f s (va + BitVec.ofNat 64 k) (n - k) with
        | (.error c, s) => (.error c, s)
        | (.ok r, s) => (.ok (l ++ r), s)

def ctxRead (s : State) (cx : Ctx) (va : Word) (n : Nat) : Ans (List Byte) := ctxReadFrom cx (n / 4096 + 2) s va n

/-- A write of context n at a place: one the host refuses is dropped and reported as type 0x06 (R392, R403). -/
def ctxStore (s : State) (n : Nat) (loc : Loc) (l : List Byte) : State :=
  match loc with
  | .dev pa => devWrite s none pa l
  | .host h =>
    if ctxRefused s (s.ctx n) h true then s.emit 0x06 n 0xFFFF h 1 0
    else { s with hostMem := writeBytes s.hostMem ((s.ctx n).hostPlace h) l }
  | _ => s

/-- Writes bytes of one page of context n. -/
def ctxWriteIn (s : State) (n : Nat) (va : Word) (l : List Byte) : Ans Unit :=
  match ctxPlace s (s.ctx n) va 1 with
  | (.error c, s) => (.error c, s)
  | (.ok loc, s) => (.ok (), ctxStore s n loc l)

def ctxWriteFrom (n : Nat) : Nat → State → Word → List Byte → Ans Unit
  | 0, s, _, _ => (.ok (), s)
  | f + 1, s, va, l =>
    if l = [] then (.ok (), s)
    else
      let k := min l.length (4096 - va.toNat % 4096)
      match ctxWriteIn s n va (l.take k) with
      | (.error c, s) => (.error c, s)
      | (.ok (), s) => ctxWriteFrom n f s (va + BitVec.ofNat 64 k) (l.drop k)

/-- Writes bytes at an address of context n. -/
def ctxWrite (s : State) (n : Nat) (va : Word) (l : List Byte) : Ans Unit := ctxWriteFrom n (l.length / 4096 + 2) s va l

/-- Every page of a range is mapped for an access class; the pages are at least 4 KiB, and no page at an address that is not canonical is (R107). -/
def ctxMapped (cx : Ctx) (acc : Nat) : Nat → State → Nat → Nat → Bool × State
  | 0, s, _, _ => (true, s)
  | f + 1, s, va, last =>
    if last < va then (true, s)
    else if canonical (BitVec.ofNat 64 va) = false then (false, s)
    else
      match walkCheck s cx va acc false with
      | .error _ => (false, s)
      | .ok p => ctxMapped cx acc f (walkUpdate s p acc) (p.va + p.size) last

/-- The range [va, va + n) is mapped writable. -/
def ctxWritable (s : State) (cx : Ctx) (va : Word) (n : Nat) : Bool × State :=
  if n = 0 then (true, s)
  else if 2 ^ 64 < va.toNat + n then (false, s)
  else ctxMapped cx 1 (n / 4096 + 2) s va.toNat (va.toNat + n - 1)

/-- The pages of a range that are mapped for an access class, as context n translates them now. -/
def ctxPages (n acc : Nat) : Nat → State → Nat → Nat → List TlbEntry × State
  | 0, s, _, _ => ([], s)
  | f + 1, s, va, last =>
    if last < va ∨ canonical (BitVec.ofNat 64 va) = false then ([], s)
    else
      match walkCheck s (s.ctx n) va acc false with
      | .error _ => ctxPages n acc f s (va / 4096 * 4096 + 4096) last
      | .ok p =>
        let (ps, t) := ctxPages n acc f (walkUpdate s p acc) (p.va + p.size) last
        (p.tlb n acc :: ps, t)

/-! ## Packets and handles (R373, R374, R378) -/

/-- A field of `n` bytes at an offset, little-endian. -/
def fieldAt (l : List Byte) (off n : Nat) : Nat := leValue ((l.drop off).take n)

/-- Bytes [off, off + n) are zero. -/
def zeroAt (l : List Byte) (off n : Nat) : Bool := fieldAt l off n = 0

def pktKind (p : List Byte) : Nat := fieldAt p 0 1
def pktFlags (p : List Byte) : Nat := fieldAt p 1 1
def pktBarrier (p : List Byte) : Bool := bitOf (pktFlags p) 0
def pktSignal (p : List Byte) : Bool := bitOf (pktFlags p) 1
def pktPseq (p : List Byte) : Nat := fieldAt p 4 4

/-- The signal a packet asks for: address and value (R373). -/
def pktSig (p : List Byte) : Option (Word × Word) :=
  if pktSignal p then some (BitVec.ofNat 64 (fieldAt p 8 8), BitVec.ofNat 64 (fieldAt p 16 8)) else none

/-- `flags` [7:2], the header's reserved bytes and those that the kind leaves out are zero (R373, R374). -/
def pktReservedOk (p : List Byte) : Bool :=
  decide (pktFlags p < 4) && zeroAt p 2 2 &&
    (let k := pktKind p
     if k = 1 then zeroAt p 45 19 && decide (fieldAt p 44 1 < 32)
     else if k = 2 then zeroAt p 32 32
     else if k = 3 then zeroAt p 36 28
     else if k = 4 then zeroAt p 24 40 && pktSignal p
     else if k = 5 then zeroAt p 36 4 && zeroAt p 52 4
     else if k = 6 then zeroAt p 40 24
     else false)

/-- A gang launch as its packet gives it (R374). -/
structure GangPacket where
  handle : Word
  origin : BitVec 32
  cols : Nat
  rows : Nat
  wmember : BitVec 16
  gangid : BitVec 32
  lflags : BitVec 8
  deriving DecidableEq, Repr

def gangPacket (p : List Byte) : GangPacket :=
  { handle := BitVec.ofNat 64 (fieldAt p 24 8), origin := BitVec.ofNat 32 (fieldAt p 32 4), cols := fieldAt p 36 1
    rows := fieldAt p 37 1, wmember := BitVec.ofNat 16 (fieldAt p 38 2), gangid := BitVec.ofNat 32 (fieldAt p 40 4)
    lflags := BitVec.ofNat 8 (fieldAt p 44 1) }

/-- A code handle (R378). -/
structure Handle where
  magic : Bool
  cols : Nat
  rows : Nat
  base : Word
  tasks : Nat
  panes : Nat
  deriving DecidableEq, Repr

def handleOf (l : List Byte) : Handle :=
  { magic := decide (fieldAt l 0 4 = 0x485A544B), cols := fieldAt l 6 1, rows := fieldAt l 7 1
    base := BitVec.ofNat 64 (fieldAt l 8 8), tasks := fieldAt l 16 4, panes := fieldAt l 20 4 }

/-- Address of the image of pane p: the images follow the table in ascending p (R378). -/
def Handle.paneAt (h : Handle) (p : Nat) : Word :=
  h.base + BitVec.ofNat 64 (h.tasks + 1024 + 65536 * ((List.range p).filter fun i => bitOf h.panes i).length)

/-- The task table of a handle, 64 entries of 16 bytes (R95, R378). -/
def handleTasks (s : State) (cx : Ctx) (h : Handle) : Ans (List Byte) := ctxRead s cx (h.base + BitVec.ofNat 64 h.tasks) 1024

/-- The pane images of a handle with their numbers, in ascending order, as far as they can be read (R378). -/
def handlePanes (s : State) (cx : Ctx) (h : Handle) : List Nat → Ans (List (Nat × List Byte))
  | [] => (.ok [], s)
  | p :: ps =>
    if bitOf h.panes p then
      match ctxRead s cx (h.paneAt p) 65536 with
      | (.error c, s) => (.error c, s)
      | (.ok l, s) =>
        match handlePanes s cx h ps with
        | (.error c, s) => (.error c, s)
        | (.ok r, s) => (.ok ((p, l) :: r), s)
    else handlePanes s cx h ps

/-- The task table of a handle, where it and every pane image can be read (R379). -/
def handleTable (s : State) (cx : Ctx) (h : Handle) : Ans (List Byte) :=
  match handleTasks s cx h with
  | (.error c, s) => (.error c, s)
  | (.ok t, s) =>
    match handlePanes s cx h (List.range 4) with
    | (.error c, s) => (.error c, s)
    | (.ok _, s) => (.ok t, s)

/-- Coordinates of a rectangle of this package, row by row (R379). -/
def rectangle (s : State) (origin : BitVec 32) (cols rows : Nat) : List (BitVec 32) :=
  (List.range rows).flatMap fun r => (List.range cols).map fun c => coordOf s (coordCol origin + c) (coordRow origin + r)

/-- The coordinate names this package, by its identifier or 0x3FF. -/
def namesThis (s : State) (v : BitVec 32) : Bool := decide (coordPkg (realCoord s v) = s.hostif.regs.pkgid.toNat)

/-- Reasons 3 to 6 of R379: the rectangle, its rows, the gang the handle declares, and channel 0 of its task table. -/
def gangReason (s : State) (cx : Ctx) (g : GangPacket) (h : Handle) (table : List Byte) : Option Nat :=
  let col := coordCol g.origin
  let row := coordRow g.origin
  if !coordOk (g.origin.setWidth 64) || !namesThis s g.origin || decide (g.cols = 0) || decide (g.rows = 0)
      || decide (80 < col + g.cols) || decide (50 < row + g.rows) then some 3
  else if !((List.range g.rows).all fun r => cx.rows.getLsbD (row + r)) then some 4
  else if (h.cols ≠ 0 ∧ h.cols ≠ g.cols) ∨ (h.rows ≠ 0 ∧ h.rows ≠ g.rows) then some 5
  else if fieldAt table 8 4 = 0 then some 6
  else none

/-- The lowest reason for which a gang launch is refused (R379); `pool` marks a packet from the pool. -/
def launchReason (s : State) (cx : Ctx) (pool : Bool) (p : List Byte) (h : Handle) : Option Nat × State :=
  if pool && (!pktReservedOk p || decide (pktKind p ≠ 1) || decide (pktPseq p ≠ 0) || pktSignal p) then (some 1, s)
  else if !h.magic then (some 2, s)
  else
    match handleTable s cx h with
    | (.error _, s) => (some 2, s)
    | (.ok table, s) => (gangReason s cx (gangPacket p) h table, s)

/-- A gang launch that has been accepted (R379, R380). -/
def newGang (s : State) (n : Nat) (p : List Byte) (h : Handle) (queue parent : Option Nat) (depth : Nat) : Launch :=
  let g := gangPacket p
  let cores := rectangle s g.origin g.cols g.rows
  { id := s.nextLaunch, ctx := n, kind := .gang, queue := queue, depth := depth, parent := parent, toStart := cores
    cores := cores, base := h.base, tasks := h.tasks, panes := h.panes, wmember := g.wmember, gangid := g.gangid, lflags := g.lflags
    desc := FrameDesc.reset, basins := [], done := false }

/-- The launch joins those accepted and takes the next identifier. -/
def State.addLaunch (s : State) (l : Launch) : State :=
  { s with launches := s.launches ++ [l], nextLaunch := s.nextLaunch + 1 }

def State.launch? (s : State) (id : Nat) : Option Launch := s.launches.find? fun l => l.id = id

/-! ## The pool (R208, R381) -/

/-- Depth of a launch; a host launch and no launch have depth 0. -/
def depthOf (s : State) (id : Option Nat) : Nat := ((id.bind s.launch?).map (·.depth)).getD 0

/-- The lowest free slot of a pool. -/
def freePoolSlot (c : Ctx) : Nat :=
  ((List.range 4096).find? fun i => !c.entries.any fun e => decide (e.slot = i)).getD 0

/-- The reason for which `glaunch` refuses a packet (R208, R381); a handle that cannot be read counts as absent. -/
def poolReason (s : State) (cx : Ctx) (p : List Byte) : Option Nat × State :=
  let a := (gangPacket p).handle
  if pktReservedOk p = false ∨ pktKind p ≠ 1 then (some 1, s)
  else if a.toNat % 64 ≠ 0 then (some 2, s)
  else
    match ctxRead s cx a 64 with
    | (.error _, s) => (some 2, s)
    | (.ok l, s) => launchReason s cx true p (handleOf l)

/-- `glaunch` posts a packet (R208, R381): the status and the state. The conditions are tested in the order of the status values
(log 18). -/
def postLaunch (s : State) (agent : Nat) (p : List Byte) : Nat × State :=
  match ctxOfAgent s agent with
  | none => (3, s)
  | some (n, cx) =>
    let parent := (s.coreOf agent).part.launch
    let depth := depthOf s parent + 1
    if 4096 ≤ cx.entries.length then (1, s)
    else if 24 < depth then (2, s)
    else
      match poolReason s cx p with
      | (some _, s) => (3, s)
      | (none, s) =>
        let slot := freePoolSlot cx
        let e : PoolEntry :=
          { slot := slot, parent := parent.getD 0, depth := depth, barrier := pktBarrier p, launch := none }
        let s := devWrite s none (cx.pool.toNat * 2 ^ 18 + 64 * slot) p
        (0, s.setCtx n { cx with entries := cx.entries ++ [e] })

end Sys2Proof.Machine
end

