-- ==== Sys2Proof/Config.lean ====
section
/-! DEFINITION. What the spec leaves open: free values, which no proof can see.

Each is applied to `State.freeCtr`, a counter that the step advances, or to the operands it depends on. -/

namespace Sys2Proof.Config

/-- The rank of a position in the order of an unordered store (R158): equal ranks keep element order. -/
opaque storeRank : Nat → Nat → Nat → Nat

/-- An element of an unordered store after the one that traps has been performed (R244). -/
opaque storeEarly : Nat → Nat → Nat → Bool

/-- A child of a box node whose `origin` is not finite (R341): none where it is not hit, else its entry. Applied to the node's bytes, the
slot and the ray: equal operands give equal results (R74). -/
opaque boxEntry : List Byte → Nat → List Rat → Option Rat

/-- What the L1 line lost by a parity error at a place is (R416): its number in the order of the lines held. -/
opaque parityLine : Nat → Nat

/-- What a basin writes for a frame's binned records to the end of its part of the bin buffer (R346): by counter, basin and byte. -/
opaque savedBins : Nat → Nat → Nat → Byte

/-- The firmware interface of a cistern has an event for a `halt` that waits (R236). -/
opaque cisternEvent : Nat → Bool

/-! ## Boot and identity (R448 to R454) -/

/-- The mask ROM of a die fails its own hash, and the sideband of a die trains in time (R449): by counter and die. -/
opaque romFault : Nat → Nat → Bool

opaque sidebandUp : Nat → Nat → Bool

/-- The SHA3-256 hashes of the root public key and of the scan public key that the mask ROM holds (R448). -/
opaque romRootHash : List Byte

opaque romScanHash : List Byte

/-- The state of a die's PUF array, bit by bit: a property of the die, the same at every boot (R452, R472). -/
opaque puf : Nat → Nat → Bool

/-- The signed part of the X.509 certificate of a subject key, with M and `owner` in an extension, and the certificate of a signed part and its
signature (R453): the spec gives neither layout. -/
opaque aliasTbs : List Byte → List Byte → Bool → List Byte

opaque certOf : List Byte → List Byte → List Byte

/-- The 32 random bytes of a signature (FIPS 204): of the certificate that a device seed signs, and of an answer by counter. -/
opaque certRandom : List Byte → List Byte

opaque signRandom : Nat → List Byte

/-- The bytes that a CHALLENGE_AUTH signature covers (SPDM 1.4): by counter, nonce and measurement summary (R454). -/
opaque spdmSigned : Nat → List Byte → List Byte → List Byte

/-- The identifiers that configuration space gives: vendor and device, revision and class (R387). -/
opaque configId : BitVec 32

opaque configClass : BitVec 32

end Sys2Proof.Config
end

