-- ==== Sys2Proof/Machine/Access.lean ====
section
/-! DEFINITION. Scalar accesses to global memory and to the scratchpad: loads, stores, read-modify-writes, releases.

R97, R98, R105 to R114, R293, R300, R306, R367, R443. -/

namespace Sys2Proof.Machine

/-- Where a scalar access is performed: the place, and the attributes of its page. -/
structure Place where
  loc : Loc
  io : Bool
  level : Nat
  deriving DecidableEq, Repr

/-- The checks of R107 and the translation of a global access of `size` bytes in access class `acc`, at the hart's
level. An M access is physical (R367); control space takes only aligned accesses of 4 or 8 bytes (R443). -/
def place (s : State) (ea : Word) (size acc : Nat) : Res (Place × State) :=
  if canonical ea = false then .error (s, Trap.of 0x0E1 ea)
  else if ea.toNat % size ≠ 0 then .error (s, Trap.of 0x0E0 ea)
  else if s.priv = 3 then
    match physLoc s.agent ea.toNat with
    | .ctl o => if size < 4 ∨ acc = 3 then .error (s, Trap.of 0x0E0 ea) else .ok ({ loc := .ctl o, io := false, level := 0 }, s)
    | l => .ok ({ loc := l, io := false, level := 0 }, s)
  else
    match translate s s.agent ea acc (s.priv = 0) false with
    | .error c => .error (s, Trap.of c ea)
    | .ok (x, s) => .ok ({ loc := x.loc, io := x.io, level := x.level }, s)

/-- Reads `size` bytes of device memory for a scalar load: an I/O page is read at the home, any other through the L1;
a poisoned word is consumed (R107, R108, R250). -/
def loadDev (s : State) (ea : Word) (pa size : Nat) (io : Bool) : Res (Nat × State) :=
  let s := if io || (poisonAt s pa size).isSome then bypass s s.agent pa size else fillLine s s.agent pa
  match poisonAt s pa size with
  | some (w, src) => .error (s, Trap.poison src (BitVec.ofNat 64 (ea.toNat - pa % 8 + (w - pa / 8 * 8))) 0 0)
  | none => .ok (devValue s.mem s.c.pstores pa size, s)

/-- A scalar load of `size` bytes at `ea`: its value, zero-extended, and the state (R105 to R108, R391). -/
def load (s : State) (ea : Word) (size : Nat) : Res (Nat × State) :=
  match place s ea size 0 with
  | .error e => .error e
  | .ok (p, s) =>
    match p.loc with
    | .dev pa => loadDev s ea pa size p.io
    | .host h =>
      let s := hostSync s s.agent
      if hostRefuses s s.agent h false then .error (s, Trap.poison 4 ea 0 0)
      else .ok (hostRead s s.agent h size, s)
    | .own o => .ok (readLE s.c.sp o size, s)
    | .ctl o => .ok (ctlRead s o size, s)
    | .hole => .ok (0, s)

/-- A cistern's mask ROM is not written (R448). -/
def ownWrite (s : State) (o n v : Nat) : State :=
  if 4160 ≤ s.agent ∧ o < 0x20000 then s else s.setC { s.c with sp := writeLE s.c.sp o n v }

/-- A scalar store of the low `size` bytes of `v` at a place, and the instruction complete. A store to device or host memory is on its way until it is
performed; a store to an I/O page is performed at once, after the core's earlier stores to the port (R107, R108). A register of control space takes
its value from an instruction that has completed, so that a hart which starts itself by `sitego` goes on where that says (R443, R460). -/
def storeAt (s : State) (p : Place) (size v : Nat) : State :=
  match p.loc with
  | .ctl o => ctlWrite (retire s) o size v
  | .own o => retire (ownWrite s o size v)
  | .hole => retire s
  | l =>
    let st : PStore := { hart := s.hartNo, loc := l, data := leBytes size v }
    retire (if p.io then
      match l with
      | .dev pa => devWrite (bypass s s.agent pa size) none pa st.data
      | _ => performStore (hostSync s s.agent) s.agent st
    else s.setC { s.c with pstores := s.c.pstores ++ [st] })

/-- A scalar store of the low `size` bytes of `v` at `ea` (R105 to R108). -/
def store (s : State) (ea : Word) (size v : Nat) : Out :=
  match place s ea size 1 with
  | .error (s, t) => raise s t
  | .ok (p, s) => .next (storeAt s p size v)

/-! ## Scratchpad (R109, R143) -/

/-- Range and alignment of a scratchpad access (R109). -/
def spCheck (s : State) (o : Word) (size : Nat) : Res Unit :=
  if 0x40000 ≤ o.toNat then .error (s, Trap.of 0x0E2 o)
  else if o.toNat % size ≠ 0 then .error (s, Trap.of 0x0E0 o)
  else .ok ()

/-- A scratchpad load (R109). -/
def spLoad (s : State) (o : Word) (size : Nat) : Res Nat :=
  match spCheck s o size with
  | .error e => .error e
  | .ok () =>
    match spBadAt s.c o.toNat size with
    | some w => .error (s, Trap.poison 3 (BitVec.ofNat 64 (4 * w)) 0 0)
    | none => .ok (readLE s.c.sp o.toNat size)

/-- A scratchpad store; a sub-word store merges into its word and consumes the word's error (R109). -/
def spStore (s : State) (o : Word) (size v : Nat) : Res State :=
  match spCheck s o size with
  | .error e => .error e
  | .ok () =>
    match (if size < 4 then spBadAt s.c o.toNat size else none) with
    | some w => .error (s, Trap.poison 3 (BitVec.ofNat 64 (4 * w)) 0 0)
    | none => .ok (s.setC (s.c.spPut o.toNat (leBytes size v)))

/-! ## Releases (R114, R293, R300, R306) -/

/-- What a release leaves performed: every store of the core to device memory at its home (R107, R114), and at system scope the stores to the
host too, which narrower scopes do not order (R300). -/
def release (s : State) (scope : Nat) : State := if scope ≤ 4 then flushDev s s.agent else flushAll s s.agent

/-- Strong mode (R306). -/
def State.strong (s : State) : Bool := s.h.trap.status.mmstrong

/-- In strong mode a store or a relaxed atomic is a release at core scope too (R306). -/
def strongRelease (s : State) : State := if s.strong then release s 1 else s

/-! ## Read-modify-writes (R112, R113, R394) -/

/-- AtomicOp routing is advertised for operands of this size (R394). -/
def HostIf.routes (h : HostIf) (size : Nat) : Bool := if size = 4 then h.routing4 else h.routing8

/-- An indivisible read-modify-write of `size` bytes: `f` maps the old value to the new one, none to write nothing. `op` is
the AtomicOp it is at the host, if it is one (R113). Answers the old value. -/
def rmw (s : State) (ea : Word) (size : Nat) (op : Bool) (f : Nat → Option Nat) : Res (Nat × State) :=
  match place s ea size 3 with
  | .error e => .error e
  | .ok (p, s) =>
    if p.io then .error (s, Trap.of (xlatCause 3 1 p.level) ea)
    else
      match p.loc with
      | .dev pa =>
        let s := bypass s s.agent pa size
        match poisonAt s pa size with
        | some (w, src) => .error (s, Trap.poison src (BitVec.ofNat 64 (ea.toNat - pa % 8 + (w - pa / 8 * 8))) 0 0)
        | none =>
          let c := readLE s.mem pa size
          match f c with
          | some v => .ok (c, devWrite s none pa (leBytes size v))
          | none => .ok (c, s)
      | .host h =>
        let at_ := hostPlace s s.agent h
        if op = false ∨ s.hostif.routes size = false ∨ (hostPage s at_).atomicOk = false
            ∨ hostRefuses s s.agent h true then .error (s, Trap.of 0x0E3 ea)
        else
          let s := hostSync s s.agent
          let c := readLE s.hostMem at_ size
          match f c with
          | some v => .ok (c, { s with hostMem := writeBytes s.hostMem at_ (leBytes size v) })
          | none => .ok (c, s)
      | .own o =>
        let c := readLE s.c.sp o size
        match f c with
        | some v => .ok (c, ownWrite s o size v)
        | none => .ok (c, s)
      | _ => .ok (0, s)

end Sys2Proof.Machine
end

