-- ==== Sys2Proof/Machine/VecInt.lean ====
section
/-! DEFINITION. Vector shape, moves and integer arithmetic: majors 0x20 to 0x24 and 0x29 (R125 to R128). -/

namespace Sys2Proof.Machine

/-! ## Element operations (R126, R127) -/

/-- A value clamped to a signed range of d bits. -/
def clampS (d : Nat) (v : Int) : Nat :=
  wrapTo d (if v < -(2 ^ (d - 1) : Int) then -(2 ^ (d - 1) : Int) else if (2 ^ (d - 1) : Int) - 1 < v then 2 ^ (d - 1) - 1 else v)

/-- A value clamped to an unsigned range of d bits. -/
def clampU (d : Nat) (v : Int) : Nat := if v < 0 then 0 else if (2 ^ d : Int) - 1 < v then 2 ^ d - 1 else v.toNat

/-- The value of w bits, signed or unsigned. -/
def extOf (signed : Bool) (w v : Nat) : Int := if signed then signedOf w v else (v % 2 ^ w : Nat)

/-- Quotient of s-bit values; a divisor of 0 gives all ones (R126). -/
def vquot (signed : Bool) (s a b : Nat) : Nat :=
  if b % 2 ^ s = 0 then 2 ^ s - 1 else wrapTo s ((extOf signed s a).tdiv (extOf signed s b))

/-- Remainder of s-bit values; a divisor of 0 gives the dividend (R126). -/
def vremd (signed : Bool) (s a b : Nat) : Nat :=
  if b % 2 ^ s = 0 then a else wrapTo s ((extOf signed s a).tmod (extOf signed s b))

/-- Bits [2s-1:s] of a product (R126). -/
def vmulHigh (signed : Bool) (s a b : Nat) : Nat := wrapTo s ((extOf signed s a * extOf signed s b) / 2 ^ s)

/-! ## Shared sweeps -/

/-- An elementwise integer form of R121: the width must be `vtype.sew`; `f s a b` is the element result. -/
def intSweep (f : Nat → Nat → Nat → Nat) (vd vs1 vs2 : BitVec 5) (mask : BitVec 3) (conv scalar : Bool) (ty : BitVec 2)
    (s : State) : Out :=
  let w := s.sew
  vecOp s (claimElem conv mask (readGroups s vs1 scalar vs2) (groupRegs s vd) [])
    (firstTrap [checkStart s, checkWidth s ty, checkGroup s vd, checkGroup s vs1, if scalar then none else checkGroup s vs2])
    fun s => s.setH (s.h.putElems vd.toNat w (active s mask) fun j i =>
      f w (s.h.elem vs1.toNat w j i) (opB s scalar vs2 w j i) % 2 ^ w)

/-- A widening form: sources of SEW bits, results of 2·SEW (R122, R126, R127). `unary` forms read vs1 alone. -/
def wideSweep (f : Nat → Nat → Nat → Int) (unary : Bool) (vd vs1 vs2 : BitVec 5) (mask : BitVec 3) (conv scalar : Bool)
    (ty : BitVec 2) (s : State) : Out :=
  let w := s.sew
  let two := !(scalar || unary)
  vecOp s (claimCross conv mask (readGroups s vs1 (!two) vs2) (groupRegs s vd))
    (firstTrap [checkStart s, checkWidth s ty, checkWide s, checkGroup s vd, checkGroup s vs1,
      if two then checkGroup s vs2 else none, need (vd ≠ vs1 && !(two && decide (vd = vs2))) (vd.setWidth 64)])
    fun s => s.setH (s.h.putElems vd.toNat (2 * w) (active s mask) fun j i =>
      wrapTo (2 * w) (f w (s.h.elem vs1.toNat w j i) (if unary then 0 else opB s scalar vs2 w j i)))

/-- A narrowing form: a source of 2·SEW bits, results of SEW (R122, R127). -/
def narrowSweep (f : Nat → Nat → Nat) (vd vs1 : BitVec 5) (mask : BitVec 3) (conv : Bool) (ty : BitVec 2)
    (s : State) : Out :=
  let w := s.sew
  vecOp s (claimCross conv mask (groupRegs s vs1) (groupRegs s vd))
    (firstTrap [checkStart s, checkWidth s ty, checkWide s, checkGroup s vd, checkGroup s vs1,
      need (decide (vd ≠ vs1)) (vd.setWidth 64)])
    fun s => s.setH (s.h.putElems vd.toNat w (active s mask) fun j i => f w (s.h.elem vs1.toNat (2 * w) j i) % 2 ^ w)

/-- An integer multiply-add of R128 at SEW: `f s a b c` is the element result. -/
def macSweep (f : Nat → Nat → Nat → Nat → Int) (extra : Option Trap) (vd vs1 vs2 vs3 : BitVec 5) (mask : BitVec 2)
    (conv : Bool) (s : State) : Out :=
  let w := s.sew
  let m := mask.setWidth 3
  vecOp s (claimElem conv m (groupRegs s vs1 ++ groupRegs s vs2 ++ groupRegs s vs3) (groupRegs s vd) [])
    (firstTrap [checkStart s, extra, checkGroup s vd, checkGroup s vs1, checkGroup s vs2, checkGroup s vs3])
    fun s => s.setH (s.h.putElems vd.toNat w (active s m) fun j i =>
      wrapTo w (f w (s.h.elem vs1.toNat w j i) (s.h.elem vs2.toNat w j i) (s.h.elem vs3.toNat w j i)))

/-- `vwmac`: the addend and the result are 2·SEW wide; vd may equal vs3 (R128). -/
def wmacSweep (signed : Bool) (vd vs1 vs2 vs3 : BitVec 5) (mask : BitVec 2) (conv : Bool) (s : State) : Out :=
  let w := s.sew
  let m := mask.setWidth 3
  vecOp s (claimCross conv m (groupRegs s vs1 ++ groupRegs s vs2 ++ groupRegs s vs3) (groupRegs s vd))
    (firstTrap [checkStart s, checkWide s, checkGroup s vd, checkGroup s vs1, checkGroup s vs2, checkGroup s vs3,
      need (decide (vd ≠ vs1) && decide (vd ≠ vs2)) (vd.setWidth 64)])
    fun s => s.setH (s.h.putElems vd.toNat (2 * w) (active s m) fun j i =>
      wrapTo (2 * w) ((s.h.elem vs3.toNat (2 * w) j i : Int)
        + extOf signed w (s.h.elem vs1.toNat w j i) * extOf signed w (s.h.elem vs2.toNat w j i)))

/-- The sum of the four byte products of `vdot4` (R128). -/
def dot4 (signed : Bool) (a b : Nat) : Int :=
  ((List.range 4).map fun q => extOf signed 8 (bitsOf a (8 * q) 8) * extOf signed 8 (bitsOf b (8 * q) 8)).sum

/-- A form of major 0x20 that writes a value at every active position (R125). -/
def genSweep (f : State → Nat → Nat → Nat) (rv : List Nat) (extra : Option Trap) (vd : BitVec 5) (mask : BitVec 3)
    (conv : Bool) (s : State) : Out :=
  let w := s.sew
  vecOp s (claimElem conv mask rv (groupRegs s vd) [])
    (firstTrap [checkStart s, checkGroup s vd, extra])
    fun s => s.setH (s.h.putElems vd.toNat w (active s mask) fun j i => f s j i % 2 ^ w)

/-- A position operand lies in the tile (R125). -/
def checkPos (s : State) (p : Word) : Option Trap := need (decide (posRow p < s.vrows) && decide (posElem p < s.vl)) p

/-- `vmvx` and `vmvxz`: one element to an x register; unmasked, and `vstop` is ignored (R125). -/
def moveToX (signed : Bool) (vd vs1 vs2 : BitVec 5) (conv : Bool) (s : State) : Out :=
  let p := s.x vs2
  vecOp s (claimPermute conv [] (groupRegs s vs1) [])
    (firstTrap [checkStart s, checkGroup s vs1, checkPos s p])
    fun s => s.setX vd (BitVec.ofInt 64 (extOf signed s.sew (s.h.elem vs1.toNat s.sew (posRow p) (posElem p))))

/-! ## Shape and moves (R23, R125) -/

/-- The rows granted to a request (R23). -/
def grantRows (n : Nat) : BitVec 4 := if 8 ≤ n then 8 else if 4 ≤ n then 4 else if 2 ≤ n then 2 else 1

/-- The row length granted to a request at a width code (R23). -/
def grantLen (n sew : Nat) : BitVec 10 := BitVec.ofNat 10 (min n (4096 / 2 ^ (3 + sew)))

/-- `vshape`: R23; it runs on the scalar side, leaves `vstart` and `vstop`, and the next vector instruction starts a
convoy (R33). -/
def execVshape (rd rs1 rs2 : BitVec 5) (sew : BitVec 3) (s : State) : Out :=
  if 3 < sew.toNat then raise s (Trap.operand (sew.setWidth 64))
  else
    let vl := grantLen (s.x rs1).toNat sew.toNat
    let rows := grantRows (s.x rs2).toNat
    let s := s.setH { s.h with fresh := true, shape := { s.h.shape with vl := vl, vrows := rows, sew := sew } }
    finish (s.setX rd (vl.setWidth 64))

/-- `vmvx`: R125, sign-extended. -/
def execVmvx (vd vs1 vs2 : BitVec 5) (conv : Bool) (s : State) : Out := moveToX true vd vs1 vs2 conv s

/-- `vmvxz`: R125, zero-extended. -/
def execVmvxz (vd vs1 vs2 : BitVec 5) (conv : Bool) (s : State) : Out := moveToX false vd vs1 vs2 conv s

/-- `vmvv`: one element from an x register (R125). -/
def execVmvv (vd vs1 vs2 : BitVec 5) (conv : Bool) (s : State) : Out :=
  let p := s.x vs2
  vecOp s (claimPermute conv [] [] (groupRegs s vd))
    (firstTrap [checkStart s, checkGroup s vd, checkPos s p])
    fun s => s.setH (s.h.setElem vd.toNat s.sew (posRow p) (posElem p) ((s.x vs1).toNat % 2 ^ s.sew))

/-- `vbcast`: R125. -/
def execVbcast (vd vs1 : BitVec 5) (mask : BitVec 3) (conv : Bool) (s : State) : Out :=
  genSweep (fun s _ _ => (s.x vs1).toNat) [] none vd mask conv s

/-- `vmv`: R125. -/
def execVmv (vd vs1 : BitVec 5) (mask : BitVec 3) (conv : Bool) (s : State) : Out :=
  genSweep (fun s j i => s.h.elem vs1.toNat s.sew j i) (groupRegs s vs1) (checkGroup s vs1) vd mask conv s

/-- `vid`: R125. -/
def execVid (vd : BitVec 5) (mask : BitVec 3) (conv : Bool) (s : State) : Out :=
  genSweep (fun _ _ i => i) [] none vd mask conv s

/-- `vidr`: R125. -/
def execVidr (vd : BitVec 5) (mask : BitVec 3) (conv : Bool) (s : State) : Out :=
  genSweep (fun _ j _ => j) [] none vd mask conv s

/-- `vidf`: R125. -/
def execVidf (vd : BitVec 5) (mask : BitVec 3) (conv : Bool) (s : State) : Out :=
  genSweep (fun s j i => j * s.vl + i) [] none vd mask conv s

/-! ## Integer arithmetic (R126, R127) -/

/-- `vadd`: R126. -/
def execVadd (vd vs1 vs2 : BitVec 5) (mask : BitVec 3) (conv scalar : Bool) (ty : BitVec 2) (s : State) : Out :=
  intSweep (fun _ a b => a + b) vd vs1 vs2 mask conv scalar ty s

/-- `vsub`: R126. -/
def execVsub (vd vs1 vs2 : BitVec 5) (mask : BitVec 3) (conv scalar : Bool) (ty : BitVec 2) (s : State) : Out :=
  intSweep (fun w a b => a + (2 ^ w - b)) vd vs1 vs2 mask conv scalar ty s

/-- `vrsub`: R126. -/
def execVrsub (vd vs1 vs2 : BitVec 5) (mask : BitVec 3) (conv scalar : Bool) (ty : BitVec 2) (s : State) : Out :=
  intSweep (fun w a b => b + (2 ^ w - a)) vd vs1 vs2 mask conv scalar ty s

/-- `vmin`: R126. -/
def execVmin (vd vs1 vs2 : BitVec 5) (mask : BitVec 3) (conv scalar : Bool) (ty : BitVec 2) (s : State) : Out :=
  intSweep (fun w a b => if signedOf w a ≤ signedOf w b then a else b) vd vs1 vs2 mask conv scalar ty s

/-- `vminz`: R126. -/
def execVminz (vd vs1 vs2 : BitVec 5) (mask : BitVec 3) (conv scalar : Bool) (ty : BitVec 2) (s : State) : Out :=
  intSweep (fun _ a b => min a b) vd vs1 vs2 mask conv scalar ty s

/-- `vmax`: R126. -/
def execVmax (vd vs1 vs2 : BitVec 5) (mask : BitVec 3) (conv scalar : Bool) (ty : BitVec 2) (s : State) : Out :=
  intSweep (fun w a b => if signedOf w a ≤ signedOf w b then b else a) vd vs1 vs2 mask conv scalar ty s

/-- `vmaxz`: R126. -/
def execVmaxz (vd vs1 vs2 : BitVec 5) (mask : BitVec 3) (conv scalar : Bool) (ty : BitVec 2) (s : State) : Out :=
  intSweep (fun _ a b => max a b) vd vs1 vs2 mask conv scalar ty s

/-- `vsadd`: R127. -/
def execVsadd (vd vs1 vs2 : BitVec 5) (mask : BitVec 3) (conv scalar : Bool) (ty : BitVec 2) (s : State) : Out :=
  intSweep (fun w a b => clampS w (signedOf w a + signedOf w b)) vd vs1 vs2 mask conv scalar ty s

/-- `vsaddz`: R127. -/
def execVsaddz (vd vs1 vs2 : BitVec 5) (mask : BitVec 3) (conv scalar : Bool) (ty : BitVec 2) (s : State) : Out :=
  intSweep (fun w a b => clampU w (a + b : Nat)) vd vs1 vs2 mask conv scalar ty s

/-- `vssub`: R127. -/
def execVssub (vd vs1 vs2 : BitVec 5) (mask : BitVec 3) (conv scalar : Bool) (ty : BitVec 2) (s : State) : Out :=
  intSweep (fun w a b => clampS w (signedOf w a - signedOf w b)) vd vs1 vs2 mask conv scalar ty s

/-- `vssubz`: R127. -/
def execVssubz (vd vs1 vs2 : BitVec 5) (mask : BitVec 3) (conv scalar : Bool) (ty : BitVec 2) (s : State) : Out :=
  intSweep (fun w a b => clampU w ((a : Int) - b)) vd vs1 vs2 mask conv scalar ty s

/-- `vwadd`: R127. -/
def execVwadd (vd vs1 vs2 : BitVec 5) (mask : BitVec 3) (conv scalar : Bool) (ty : BitVec 2) (s : State) : Out :=
  wideSweep (fun w a b => extOf true w a + extOf true w b) false vd vs1 vs2 mask conv scalar ty s

/-- `vwsub`: R127. -/
def execVwsub (vd vs1 vs2 : BitVec 5) (mask : BitVec 3) (conv scalar : Bool) (ty : BitVec 2) (s : State) : Out :=
  wideSweep (fun w a b => extOf true w a - extOf true w b) false vd vs1 vs2 mask conv scalar ty s

/-- `vext`: R127. -/
def execVext (vd vs1 : BitVec 5) (mask : BitVec 3) (conv : Bool) (ty : BitVec 2) (s : State) : Out :=
  wideSweep (fun w a _ => extOf true w a) true vd vs1 0 mask conv false ty s

/-- `vwaddz`: R127. -/
def execVwaddz (vd vs1 vs2 : BitVec 5) (mask : BitVec 3) (conv scalar : Bool) (ty : BitVec 2) (s : State) : Out :=
  wideSweep (fun w a b => extOf false w a + extOf false w b) false vd vs1 vs2 mask conv scalar ty s

/-- `vwsubz`: R127. -/
def execVwsubz (vd vs1 vs2 : BitVec 5) (mask : BitVec 3) (conv scalar : Bool) (ty : BitVec 2) (s : State) : Out :=
  wideSweep (fun w a b => extOf false w a - extOf false w b) false vd vs1 vs2 mask conv scalar ty s

/-- `vextz`: R127. -/
def execVextz (vd vs1 : BitVec 5) (mask : BitVec 3) (conv : Bool) (ty : BitVec 2) (s : State) : Out :=
  wideSweep (fun w a _ => extOf false w a) true vd vs1 0 mask conv false ty s

/-- `vnarrow`: R127. -/
def execVnarrow (vd vs1 : BitVec 5) (mask : BitVec 3) (conv : Bool) (ty : BitVec 2) (s : State) : Out :=
  narrowSweep (fun _ a => a) vd vs1 mask conv ty s

/-- `vnsat`: R127. -/
def execVnsat (vd vs1 : BitVec 5) (mask : BitVec 3) (conv : Bool) (ty : BitVec 2) (s : State) : Out :=
  narrowSweep (fun w a => clampS w (signedOf (2 * w) a)) vd vs1 mask conv ty s

/-- `vnsatz`: R127. -/
def execVnsatz (vd vs1 : BitVec 5) (mask : BitVec 3) (conv : Bool) (ty : BitVec 2) (s : State) : Out :=
  narrowSweep (fun w a => clampU w a) vd vs1 mask conv ty s

/-- `vnclampz`: R127. -/
def execVnclampz (vd vs1 : BitVec 5) (mask : BitVec 3) (conv : Bool) (ty : BitVec 2) (s : State) : Out :=
  narrowSweep (fun w a => clampU w (signedOf (2 * w) a)) vd vs1 mask conv ty s

/-- `vmul`: R126. -/
def execVmul (vd vs1 vs2 : BitVec 5) (mask : BitVec 3) (conv scalar : Bool) (ty : BitVec 2) (s : State) : Out :=
  intSweep (fun _ a b => a * b) vd vs1 vs2 mask conv scalar ty s

/-- `vmulh`: R126. -/
def execVmulh (vd vs1 vs2 : BitVec 5) (mask : BitVec 3) (conv scalar : Bool) (ty : BitVec 2) (s : State) : Out :=
  intSweep (fun w a b => vmulHigh true w a b) vd vs1 vs2 mask conv scalar ty s

/-- `vmulhz`: R126. -/
def execVmulhz (vd vs1 vs2 : BitVec 5) (mask : BitVec 3) (conv scalar : Bool) (ty : BitVec 2) (s : State) : Out :=
  intSweep (fun w a b => vmulHigh false w a b) vd vs1 vs2 mask conv scalar ty s

/-- `vdiv`: R126. -/
def execVdiv (vd vs1 vs2 : BitVec 5) (mask : BitVec 3) (conv scalar : Bool) (ty : BitVec 2) (s : State) : Out :=
  intSweep (fun w a b => vquot true w a b) vd vs1 vs2 mask conv scalar ty s

/-- `vdivz`: R126. -/
def execVdivz (vd vs1 vs2 : BitVec 5) (mask : BitVec 3) (conv scalar : Bool) (ty : BitVec 2) (s : State) : Out :=
  intSweep (fun w a b => vquot false w a b) vd vs1 vs2 mask conv scalar ty s

/-- `vrem`: R126. -/
def execVrem (vd vs1 vs2 : BitVec 5) (mask : BitVec 3) (conv scalar : Bool) (ty : BitVec 2) (s : State) : Out :=
  intSweep (fun w a b => vremd true w a b) vd vs1 vs2 mask conv scalar ty s

/-- `vremz`: R126. -/
def execVremz (vd vs1 vs2 : BitVec 5) (mask : BitVec 3) (conv scalar : Bool) (ty : BitVec 2) (s : State) : Out :=
  intSweep (fun w a b => vremd false w a b) vd vs1 vs2 mask conv scalar ty s

/-- `vwmul`: R126. -/
def execVwmul (vd vs1 vs2 : BitVec 5) (mask : BitVec 3) (conv scalar : Bool) (ty : BitVec 2) (s : State) : Out :=
  wideSweep (fun w a b => extOf true w a * extOf true w b) false vd vs1 vs2 mask conv scalar ty s

/-- `vwmulz`: R126. -/
def execVwmulz (vd vs1 vs2 : BitVec 5) (mask : BitVec 3) (conv scalar : Bool) (ty : BitVec 2) (s : State) : Out :=
  wideSweep (fun w a b => extOf false w a * extOf false w b) false vd vs1 vs2 mask conv scalar ty s

/-- `vand`: R126. -/
def execVand (vd vs1 vs2 : BitVec 5) (mask : BitVec 3) (conv scalar : Bool) (ty : BitVec 2) (s : State) : Out :=
  intSweep (fun _ a b => a &&& b) vd vs1 vs2 mask conv scalar ty s

/-- `vor`: R126. -/
def execVor (vd vs1 vs2 : BitVec 5) (mask : BitVec 3) (conv scalar : Bool) (ty : BitVec 2) (s : State) : Out :=
  intSweep (fun _ a b => a ||| b) vd vs1 vs2 mask conv scalar ty s

/-- `vxor`: R126. -/
def execVxor (vd vs1 vs2 : BitVec 5) (mask : BitVec 3) (conv scalar : Bool) (ty : BitVec 2) (s : State) : Out :=
  intSweep (fun _ a b => a ^^^ b) vd vs1 vs2 mask conv scalar ty s

/-- `vandn`: R126. -/
def execVandn (vd vs1 vs2 : BitVec 5) (mask : BitVec 3) (conv scalar : Bool) (ty : BitVec 2) (s : State) : Out :=
  intSweep (fun w a b => a &&& (2 ^ w - 1 - b)) vd vs1 vs2 mask conv scalar ty s

/-- `vsll`: R126. -/
def execVsll (vd vs1 vs2 : BitVec 5) (mask : BitVec 3) (conv scalar : Bool) (ty : BitVec 2) (s : State) : Out :=
  intSweep (fun w a b => a * 2 ^ (b % w)) vd vs1 vs2 mask conv scalar ty s

/-- `vsrl`: R126. -/
def execVsrl (vd vs1 vs2 : BitVec 5) (mask : BitVec 3) (conv scalar : Bool) (ty : BitVec 2) (s : State) : Out :=
  intSweep (fun w a b => a / 2 ^ (b % w)) vd vs1 vs2 mask conv scalar ty s

/-- `vsra`: R126. -/
def execVsra (vd vs1 vs2 : BitVec 5) (mask : BitVec 3) (conv scalar : Bool) (ty : BitVec 2) (s : State) : Out :=
  intSweep (fun w a b => wrapTo w (signedOf w a / 2 ^ (b % w))) vd vs1 vs2 mask conv scalar ty s

/-- `vror`: R126. -/
def execVror (vd vs1 vs2 : BitVec 5) (mask : BitVec 3) (conv scalar : Bool) (ty : BitVec 2) (s : State) : Out :=
  intSweep (fun w a b => a / 2 ^ (b % w) + a * 2 ^ (w - b % w)) vd vs1 vs2 mask conv scalar ty s

/-! ## Integer multiply-add (R128) -/

/-- `vmac`: R128. -/
def execVmac (vd vs1 vs2 vs3 : BitVec 5) (mask : BitVec 2) (conv : Bool) (s : State) : Out :=
  macSweep (fun _ a b c => (a * b + c : Nat)) none vd vs1 vs2 vs3 mask conv s

/-- `vnmac`: R128. -/
def execVnmac (vd vs1 vs2 vs3 : BitVec 5) (mask : BitVec 2) (conv : Bool) (s : State) : Out :=
  macSweep (fun _ a b c => (c : Int) - (a * b : Nat)) none vd vs1 vs2 vs3 mask conv s

/-- `vwmac`: R128. -/
def execVwmac (vd vs1 vs2 vs3 : BitVec 5) (mask : BitVec 2) (conv : Bool) (s : State) : Out :=
  wmacSweep true vd vs1 vs2 vs3 mask conv s

/-- `vwmacz`: R128. -/
def execVwmacz (vd vs1 vs2 vs3 : BitVec 5) (mask : BitVec 2) (conv : Bool) (s : State) : Out :=
  wmacSweep false vd vs1 vs2 vs3 mask conv s

/-- `vdot4`: R128; SEW must be 32. -/
def execVdot4 (vd vs1 vs2 vs3 : BitVec 5) (mask : BitVec 2) (conv : Bool) (s : State) : Out :=
  macSweep (fun _ a b c => (c : Int) + dot4 true a b) (need (s.sew = 32) s.wordVal) vd vs1 vs2 vs3 mask conv s

/-- `vdot4z`: R128; SEW must be 32. -/
def execVdot4z (vd vs1 vs2 vs3 : BitVec 5) (mask : BitVec 2) (conv : Bool) (s : State) : Out :=
  macSweep (fun _ a b c => (c : Int) + dot4 false a b) (need (s.sew = 32) s.wordVal) vd vs1 vs2 vs3 mask conv s

end Sys2Proof.Machine
end

