-- ==== Sys2Proof/Machine/VecMask.lean ====
section
/-! DEFINITION. Compares into masks, mask operations and merge: majors 0x25 and 0x26 (R129, R130). -/

namespace Sys2Proof.Machine

/-- A mask destination of m0 raises illegal operand (R21). -/
def checkMaskDest (vd : BitVec 3) : Option Trap := need (decide (vd ≠ 0)) 0

/-- An integer compare: one bit per active position into the mask register md (R129). -/
def cmpSweep (f : Nat → Nat → Nat → Bool) (md : BitVec 3) (vs1 vs2 : BitVec 5) (mask : BitVec 3) (conv scalar : Bool)
    (ty : BitVec 2) (s : State) : Out :=
  let w := s.sew
  vecOp s (claimElem conv mask (readGroups s vs1 scalar vs2) [] [md.toNat])
    (firstTrap [checkStart s, checkWidth s ty, checkGroup s vs1, if scalar then none else checkGroup s vs2, checkMaskDest md])
    fun s => s.setH (s.h.putMask md (active s mask) fun j i => f w (s.h.elem vs1.toNat w j i) (opB s scalar vs2 w j i))

/-- A mask form: bits of the tile's positions before the bound, without a predicate (R130). -/
def maskSweep (f : Bool → Bool → Bool) (md ma mb : BitVec 3) (rm : List Nat) (conv : Bool) (s : State) : Out :=
  vecOp s { conv := conv, units := 0, cross := false, rv := [], rm := rm, wv := [], wm := [md.toNat] }
    (firstTrap [checkStart s, checkMaskDest md])
    fun s => s.setH (s.h.putMask md (reached s true) fun j i => f (s.h.maskBit ma j i) (s.h.maskBit mb j i))

/-- The tile positions from `vstart`, before the bound, whose bit of a mask is 1 (R130). -/
def onesOf (s : State) (ma : BitVec 3) (bound : Bool) : List (Nat × Nat) :=
  (reached s bound).filter fun p => s.h.maskBit ma p.1 p.2

/-- `vseq`: R129. -/
def execVseq (vd : BitVec 3) (vs1 vs2 : BitVec 5) (mask : BitVec 3) (conv scalar : Bool) (ty : BitVec 2) (s : State) : Out :=
  cmpSweep (fun _ a b => decide (a = b)) vd vs1 vs2 mask conv scalar ty s

/-- `vsne`: R129. -/
def execVsne (vd : BitVec 3) (vs1 vs2 : BitVec 5) (mask : BitVec 3) (conv scalar : Bool) (ty : BitVec 2) (s : State) : Out :=
  cmpSweep (fun _ a b => decide (a ≠ b)) vd vs1 vs2 mask conv scalar ty s

/-- `vslt`: R129. -/
def execVslt (vd : BitVec 3) (vs1 vs2 : BitVec 5) (mask : BitVec 3) (conv scalar : Bool) (ty : BitVec 2) (s : State) : Out :=
  cmpSweep (fun w a b => decide (signedOf w a < signedOf w b)) vd vs1 vs2 mask conv scalar ty s

/-- `vsltz`: R129. -/
def execVsltz (vd : BitVec 3) (vs1 vs2 : BitVec 5) (mask : BitVec 3) (conv scalar : Bool) (ty : BitVec 2) (s : State) : Out :=
  cmpSweep (fun _ a b => decide (a < b)) vd vs1 vs2 mask conv scalar ty s

/-- `vsle`: R129. -/
def execVsle (vd : BitVec 3) (vs1 vs2 : BitVec 5) (mask : BitVec 3) (conv scalar : Bool) (ty : BitVec 2) (s : State) : Out :=
  cmpSweep (fun w a b => decide (signedOf w a ≤ signedOf w b)) vd vs1 vs2 mask conv scalar ty s

/-- `vslez`: R129. -/
def execVslez (vd : BitVec 3) (vs1 vs2 : BitVec 5) (mask : BitVec 3) (conv scalar : Bool) (ty : BitVec 2) (s : State) : Out :=
  cmpSweep (fun _ a b => decide (a ≤ b)) vd vs1 vs2 mask conv scalar ty s

/-- `vsgt`: R129. -/
def execVsgt (vd : BitVec 3) (vs1 vs2 : BitVec 5) (mask : BitVec 3) (conv scalar : Bool) (ty : BitVec 2) (s : State) : Out :=
  cmpSweep (fun w a b => decide (signedOf w b < signedOf w a)) vd vs1 vs2 mask conv scalar ty s

/-- `vsgtz`: R129. -/
def execVsgtz (vd : BitVec 3) (vs1 vs2 : BitVec 5) (mask : BitVec 3) (conv scalar : Bool) (ty : BitVec 2) (s : State) : Out :=
  cmpSweep (fun _ a b => decide (b < a)) vd vs1 vs2 mask conv scalar ty s

/-- `mand`: R130. -/
def execMand (vd vs1 vs2 : BitVec 3) (conv : Bool) (s : State) : Out :=
  maskSweep (fun a b => a && b) vd vs1 vs2 [vs1.toNat, vs2.toNat] conv s

/-- `mor`: R130. -/
def execMor (vd vs1 vs2 : BitVec 3) (conv : Bool) (s : State) : Out :=
  maskSweep (fun a b => a || b) vd vs1 vs2 [vs1.toNat, vs2.toNat] conv s

/-- `mxor`: R130. -/
def execMxor (vd vs1 vs2 : BitVec 3) (conv : Bool) (s : State) : Out :=
  maskSweep (fun a b => a != b) vd vs1 vs2 [vs1.toNat, vs2.toNat] conv s

/-- `mandn`: R130. -/
def execMandn (vd vs1 vs2 : BitVec 3) (conv : Bool) (s : State) : Out :=
  maskSweep (fun a b => a && !b) vd vs1 vs2 [vs1.toNat, vs2.toNat] conv s

/-- `mnot`: R130. -/
def execMnot (vd vs1 : BitVec 3) (conv : Bool) (s : State) : Out :=
  maskSweep (fun a _ => !a) vd vs1 0 [vs1.toNat] conv s

/-- `mset`: R130. -/
def execMset (vd : BitVec 3) (conv : Bool) (s : State) : Out :=
  maskSweep (fun _ _ => true) vd 0 0 [] conv s

/-- `mclr`: R130. -/
def execMclr (vd : BitVec 3) (conv : Bool) (s : State) : Out :=
  maskSweep (fun _ _ => false) vd 0 0 [] conv s

/-- `mpop`: R130; 0 under `vl` = 0 (R23). -/
def execMpop (vd : BitVec 5) (vs1 : BitVec 3) (conv : Bool) (s : State) : Out :=
  vecOp s (claimPermute conv [vs1.toNat] [] []) (checkStart s)
    fun s => s.setX vd (BitVec.ofNat 64 (onesOf s vs1 true).length)

/-- `mfirst`: R130; all ones where there is no such bit (R23). -/
def execMfirst (vd : BitVec 5) (vs1 : BitVec 3) (conv : Bool) (s : State) : Out :=
  vecOp s (claimPermute conv [vs1.toNat] [] []) (checkStart s)
    fun s => s.setX vd (match (onesOf s vs1 true).head? with
      | some (j, i) => BitVec.ofNat 64 (j * s.vl + i)
      | none => BitVec.allOnes 64)

/-- `vmerge`: R130; its mask selects b, and no position before the bound is skipped. -/
def execVmerge (vd vs1 vs2 : BitVec 5) (mask : BitVec 3) (conv scalar : Bool) (ty : BitVec 2) (s : State) : Out :=
  let w := s.sew
  vecOp s (claimElem conv mask (readGroups s vs1 scalar vs2) (groupRegs s vd) [])
    (firstTrap [checkStart s, checkWidth s ty, checkGroup s vd, checkGroup s vs1, if scalar then none else checkGroup s vs2])
    fun s => s.setH (s.h.putElems vd.toNat w (reached s true) fun j i =>
      if s.h.maskBit mask j i then opB s scalar vs2 w j i else s.h.elem vs1.toNat w j i)

end Sys2Proof.Machine
end

