-- ==== Sys2Proof/Machine/VecFp.lean ====
section
/-! DEFINITION. Vector floating point: majors 0x27, 0x28, 0x2A, 0x2B and 0x2C (R131 to R135). -/

namespace Sys2Proof.Machine

/-- The second operand of a floating-point form: a vector element, or the scalar in its placement (R115, R120). -/
def opF (s : State) (scalar : Bool) (vs2 : BitVec 5) (f : FpFmt) (j i : Nat) : Nat :=
  if scalar then fpOperand f (s.x vs2) else s.h.elem vs2.toNat (fpWidth f) j i

/-- Results of a floating-point form at its active positions, and their flags (R119, R45). -/
def fpPut (s : State) (vd : BitVec 5) (w : Nat) (ps : List (Nat × Nat)) (r : Nat → Nat → Nat × Flags) : State :=
  s.setH ((s.h.putElems vd.toNat w ps fun j i => (r j i).1).orFlags (orFlagsAt ps fun j i => (r j i).2))

/-- A form of major 0x27 in the format its word names (R131); a unary form reads vs1 alone. -/
def fpSweep (op : FpFmt → Rnd → Nat → Nat → Nat × Flags) (unary : Bool) (vd vs1 vs2 : BitVec 5) (mask : BitVec 3)
    (conv scalar : Bool) (ty : BitVec 2) (s : State) : Out :=
  let f := fmtCode ty
  let w := fpWidth f
  let one := scalar || unary
  vecOp s (claimElem conv mask (readGroups s vs1 one vs2) (groupRegs s vd) [])
    (firstTrap [checkStart s, checkFmt s f, checkGroup s vd, checkGroup s vs1, if one then none else checkGroup s vs2])
    fun s => fpPut s vd w (active s mask) fun j i =>
      op f s.rnd (s.h.elem vs1.toNat w j i) (if unary then 0 else opF s scalar vs2 f j i)

/-- a with its sign bit replaced (R131). -/
def withSign (f : FpFmt) (neg : Bool) (a : Nat) : Nat := a % 2 ^ (fpWidth f - 1) + b2n neg * 2 ^ (fpWidth f - 1)

/-- A fused form of major 0x28 (R132). -/
def fmaSweep (np nc : Bool) (vd vs1 vs2 vs3 : BitVec 5) (mask : BitVec 2) (conv bf16 : Bool) (s : State) : Out :=
  let f := fmtOfSew s bf16
  let w := fpWidth f
  let m := mask.setWidth 3
  vecOp s (claimElem conv m (groupRegs s vs1 ++ groupRegs s vs2 ++ groupRegs s vs3) (groupRegs s vd) [])
    (firstTrap [checkStart s, checkFpSew s bf16, checkGroup s vd, checkGroup s vs1, checkGroup s vs2, checkGroup s vs3])
    fun s => fpPut s vd w (active s m) fun j i =>
      fFma f s.rnd np nc (s.h.elem vs1.toNat w j i) (s.h.elem vs2.toNat w j i) (s.h.elem vs3.toNat w j i)

/-- A compare of major 0x2A into a mask register (R129, R133). -/
def fcmpSweep (c : FCmp) (md : BitVec 3) (vs1 vs2 : BitVec 5) (mask : BitVec 3) (conv scalar : Bool) (ty : BitVec 2)
    (s : State) : Out :=
  let f := fmtCode ty
  let w := fpWidth f
  vecOp s (claimElem conv mask (readGroups s vs1 scalar vs2) [] [md.toNat])
    (firstTrap [checkStart s, checkFmt s f, checkGroup s vs1, if scalar then none else checkGroup s vs2, checkMaskDest md])
    fun s =>
      let ps := active s mask
      let r := fun j i => fCompare f c (s.h.elem vs1.toNat w j i) (opF s scalar vs2 f j i)
      s.setH ((s.h.putMask md ps fun j i => (r j i).1).orFlags (orFlagsAt ps fun j i => (r j i).2))

/-! ## Conversions (R134, R61 to R66) -/

/-- The floating-point format of a code of R134; code 7, an integer, has none. -/
def cvtFmt (c : BitVec 3) : Option FpFmt :=
  if c = 0 then some .f64 else if c = 1 then some .f32 else if c = 2 then some .f16 else if c = 3 then some .bf16
  else if c = 4 then some .e4m3 else if c = 5 then some .e5m2 else if c = 6 then some .e2m1 else none

/-- The width of a code, given the width of the other operand for an integer (R134). -/
def cvtWidth (c other : BitVec 3) : Nat :=
  match cvtFmt c with
  | some f => fpWidth f
  | none => (cvtFmt other).elim 64 fpWidth

/-- The key of a stochastic rounding into a vector element (R62). -/
def vectorKey (vd : BitVec 5) (j i : Nat) : BitVec 64 := BitVec.ofNat 64 (2 ^ 63 + vd.toNat * 2 ^ 14 + j * 2 ^ 11 + i)

/-- The addend of the draw: source bits, a 64-bit source folded (R62). -/
def drawAddend (w a : Nat) : BitVec 32 :=
  if w = 64 then BitVec.ofNat 32 (a % 2 ^ 32) ^^^ BitVec.ofNat 32 (a / 2 ^ 32) else BitVec.ofNat 32 a

/-- One element of a conversion of R134. -/
def cvtElem (s : State) (alt : Bool) (src dst : BitVec 3) (vd : BitVec 5) (j i a : Nat) : Nat × Flags :=
  match cvtFmt src, cvtFmt dst with
  | some fs, some fd =>
    let w := fpWidth fs
    let draw := if alt then some (srDraw s.h.user.srseed (vectorKey vd j i) (drawAddend w a)) else none
    fConvert fs fd (decide (fd = .e5m2)) s.rnd draw a
  | some fs, none => fToInt fs s.rnd (!alt) (fpWidth fs) a
  | none, some fd => fFromInt fd s.rnd (extOf (!alt) (fpWidth fd) a)
  | none, none => (a, 0)

/-- `vcvt`: R134; `alt` is its R bit: stochastic between formats, unsigned with an integer. -/
def execVcvt (vd vs1 : BitVec 5) (mask : BitVec 3) (conv alt : Bool) (src dst : BitVec 3) (s : State) : Out :=
  let ws := cvtWidth src dst
  let wd := cvtWidth dst src
  vecOp s { (if ws = wd then claimElem conv mask (groupRegs s vs1) (groupRegs s vd) []
             else claimCross conv mask (groupRegs s vs1) (groupRegs s vd)) with units := 0 }
    (firstTrap [checkStart s, need (max ws wd = s.sew) s.wordVal, checkGroup s vd, checkGroup s vs1,
      need (ws = wd || decide (vd ≠ vs1)) (vd.setWidth 64)])
    fun s => fpPut s vd wd (active s mask) fun j i => cvtElem s alt src dst vd j i (s.h.elem vs1.toNat ws j i)

/-! ## Block scales (R68, R69, R135) -/

/-- The narrow format of a code of R135. -/
def blockFmt (c : BitVec 2) : FpFmt := if c = 0 then .e4m3 else if c = 1 then .e5m2 else .e2m1

/-- `emax` of R69. -/
def blockEmax (f : FpFmt) : Int := match f with | .e5m2 => 15 | .e4m3 => 8 | _ => 2

/-- The larger magnitude of two finite values (m × 2^e). -/
def maxMag (a b : Nat × Int) : Nat × Int := if magLt a.1 a.2 b.1 b.2 then b else a

/-- The scale of a block, whether it is the NaN scale, and its own flags (R69). -/
def blockScale (f : FpFmt) (vs : List FVal) : Nat × Flags :=
  let nan := vs.any isNan
  let sig := vs.foldl (fun a v => a ||| sigFlag v) 0
  let inf := vs.any fun v => match v with | .inf _ => true | _ => false
  let amax := vs.foldl (fun a v => match v with | .fin _ m e => maxMag a (m, e) | _ => a) (0, 0)
  if nan then (0xFF, sig)
  else if inf then (0xFF, flagNV)
  else if amax.1 = 0 then (127, 0)
  else
    let e := (Nat.log2 amax.1 : Int) + amax.2 - blockEmax f + 127
    ((if e < 0 then 0 else if 254 < e then 254 else e.toNat), 0)

/-- An element quantized under its block's scale (R69). -/
def blockQuant (f : FpFmt) (mode : Rnd) (e : Nat) (v : FVal) : Nat × Flags :=
  if e = 0xFF then (if f = .e2m1 then 0 else canonNan f, 0)
  else
    match v with
    | .fin n m x => fDeliver f (decide (f = .e5m2)) mode none (.fin n m (x + 127 - e))
    | v => fDeliver f (decide (f = .e5m2)) mode none v

/-- The active positions of block b of row j. -/
def blockOf (ps : List (Nat × Nat)) (j b : Nat) : List (Nat × Nat) := ps.filter fun p => p.1 = j && decide (p.2 / 32 = b)

/-- The scale of block b of row j, over its active positions (R135). -/
def scaleAt (s : State) (f : FpFmt) (vs1 : BitVec 5) (ps : List (Nat × Nat)) (j b : Nat) : Nat × Flags :=
  blockScale f ((blockOf ps j b).map fun p => fpDecode .f32 (s.h.elem vs1.toNat 32 p.1 p.2))

/-- The checks of major 0x2C (R122, R135). -/
def checkBlock (s : State) (vd vs1 vs3 : BitVec 5) : Option Trap :=
  firstTrap [checkStart s, need (s.sew = 32) s.wordVal, checkGroup s vd, checkGroup s vs1, checkGroup s vs3,
    need (decide (vd ≠ vs1) && decide (vs3 ≠ vd) && decide (vs3 ≠ vs1)) (vd.setWidth 64)]

/-- `vbsq`: R69, R135; a block with no active position keeps its scale byte. -/
def execVbsq (vd vs1 vs3 : BitVec 5) (mask : BitVec 2) (conv : Bool) (fmt : BitVec 2) (s : State) : Out :=
  let f := blockFmt fmt
  let m := mask.setWidth 3
  vecOp s { claimCross conv m (groupRegs s vs1) (groupRegs s vd ++ groupRegs s vs3) with units := 0 }
    (checkBlock s vd vs1 vs3)
    fun s =>
      let ps := active s m
      let blocks := (tile s.vrows ((s.vl + 31) / 32)).filter fun q => !(blockOf ps q.1 q.2).isEmpty
      let r := fun j i => blockQuant f s.rnd (scaleAt s f vs1 ps j (i / 32)).1 (fpDecode .f32 (s.h.elem vs1.toNat 32 j i))
      let t := fpPut s vd (fpWidth f) ps r
      t.setH ((t.h.putElems vs3.toNat 8 blocks fun j b => (scaleAt s f vs1 ps j b).1).orFlags
        (orFlagsAt blocks fun j b => (scaleAt s f vs1 ps j b).2))

/-- `vbsdq`: R68, R135. -/
def execVbsdq (vd vs1 vs3 : BitVec 5) (mask : BitVec 2) (conv : Bool) (fmt : BitVec 2) (s : State) : Out :=
  let f := blockFmt fmt
  let m := mask.setWidth 3
  vecOp s { claimCross conv m (groupRegs s vs1 ++ groupRegs s vs3) (groupRegs s vd) with units := 0 }
    (checkBlock s vd vs1 vs3)
    fun s => fpPut s vd 32 (active s m) fun j i =>
      fDeliver .f32 false s.rnd none
        (fScale (BitVec.ofNat 8 (s.h.elem vs3.toNat 8 j (i / 32))) (fpDecode f (s.h.elem vs1.toNat (fpWidth f) j i)))

/-! ## Arithmetic (R131, R132) -/

/-- `vfadd`: R131. -/
def execVfadd (vd vs1 vs2 : BitVec 5) (mask : BitVec 3) (conv scalar : Bool) (ty : BitVec 2) (s : State) : Out :=
  fpSweep fAdd false vd vs1 vs2 mask conv scalar ty s

/-- `vfsub`: R131. -/
def execVfsub (vd vs1 vs2 : BitVec 5) (mask : BitVec 3) (conv scalar : Bool) (ty : BitVec 2) (s : State) : Out :=
  fpSweep fSub false vd vs1 vs2 mask conv scalar ty s

/-- `vfrsub`: R131. -/
def execVfrsub (vd vs1 vs2 : BitVec 5) (mask : BitVec 3) (conv scalar : Bool) (ty : BitVec 2) (s : State) : Out :=
  fpSweep (fun f m a b => fSub f m b a) false vd vs1 vs2 mask conv scalar ty s

/-- `vfmul`: R131. -/
def execVfmul (vd vs1 vs2 : BitVec 5) (mask : BitVec 3) (conv scalar : Bool) (ty : BitVec 2) (s : State) : Out :=
  fpSweep fMul false vd vs1 vs2 mask conv scalar ty s

/-- `vfdiv`: R131. -/
def execVfdiv (vd vs1 vs2 : BitVec 5) (mask : BitVec 3) (conv scalar : Bool) (ty : BitVec 2) (s : State) : Out :=
  fpSweep fDiv false vd vs1 vs2 mask conv scalar ty s

/-- `vfrdiv`: R131. -/
def execVfrdiv (vd vs1 vs2 : BitVec 5) (mask : BitVec 3) (conv scalar : Bool) (ty : BitVec 2) (s : State) : Out :=
  fpSweep (fun f m a b => fDiv f m b a) false vd vs1 vs2 mask conv scalar ty s

/-- `vfmin`: R131. -/
def execVfmin (vd vs1 vs2 : BitVec 5) (mask : BitVec 3) (conv scalar : Bool) (ty : BitVec 2) (s : State) : Out :=
  fpSweep (fun f _ a b => fMinMax f false a b) false vd vs1 vs2 mask conv scalar ty s

/-- `vfmax`: R131. -/
def execVfmax (vd vs1 vs2 : BitVec 5) (mask : BitVec 3) (conv scalar : Bool) (ty : BitVec 2) (s : State) : Out :=
  fpSweep (fun f _ a b => fMinMax f true a b) false vd vs1 vs2 mask conv scalar ty s

/-- `vfsgnj`: R131. -/
def execVfsgnj (vd vs1 vs2 : BitVec 5) (mask : BitVec 3) (conv scalar : Bool) (ty : BitVec 2) (s : State) : Out :=
  fpSweep (fun f _ a b => (withSign f (signBit f b) a, 0)) false vd vs1 vs2 mask conv scalar ty s

/-- `vfsgnjn`: R131. -/
def execVfsgnjn (vd vs1 vs2 : BitVec 5) (mask : BitVec 3) (conv scalar : Bool) (ty : BitVec 2) (s : State) : Out :=
  fpSweep (fun f _ a b => (withSign f (!signBit f b) a, 0)) false vd vs1 vs2 mask conv scalar ty s

/-- `vfsgnjx`: R131. -/
def execVfsgnjx (vd vs1 vs2 : BitVec 5) (mask : BitVec 3) (conv scalar : Bool) (ty : BitVec 2) (s : State) : Out :=
  fpSweep (fun f _ a b => (withSign f (signBit f a != signBit f b) a, 0)) false vd vs1 vs2 mask conv scalar ty s

/-- `vfsqrt`: R131. -/
def execVfsqrt (vd vs1 : BitVec 5) (mask : BitVec 3) (conv : Bool) (ty : BitVec 2) (s : State) : Out :=
  fpSweep (fun f m a _ => fSqrt f m a) true vd vs1 0 mask conv false ty s

/-- `vfmac`: R132. -/
def execVfmac (vd vs1 vs2 vs3 : BitVec 5) (mask : BitVec 2) (conv bf16 : Bool) (s : State) : Out :=
  fmaSweep false false vd vs1 vs2 vs3 mask conv bf16 s

/-- `vfmsc`: R132. -/
def execVfmsc (vd vs1 vs2 vs3 : BitVec 5) (mask : BitVec 2) (conv bf16 : Bool) (s : State) : Out :=
  fmaSweep false true vd vs1 vs2 vs3 mask conv bf16 s

/-- `vfnmac`: R132. -/
def execVfnmac (vd vs1 vs2 vs3 : BitVec 5) (mask : BitVec 2) (conv bf16 : Bool) (s : State) : Out :=
  fmaSweep true false vd vs1 vs2 vs3 mask conv bf16 s

/-- `vfnmsc`: R132. -/
def execVfnmsc (vd vs1 vs2 vs3 : BitVec 5) (mask : BitVec 2) (conv bf16 : Bool) (s : State) : Out :=
  fmaSweep true true vd vs1 vs2 vs3 mask conv bf16 s

/-! ## Compares (R133) -/

/-- `vfeq`: R133. -/
def execVfeq (vd : BitVec 3) (vs1 vs2 : BitVec 5) (mask : BitVec 3) (conv scalar : Bool) (ty : BitVec 2) (s : State) : Out :=
  fcmpSweep .eq vd vs1 vs2 mask conv scalar ty s

/-- `vfne`: R133. -/
def execVfne (vd : BitVec 3) (vs1 vs2 : BitVec 5) (mask : BitVec 3) (conv scalar : Bool) (ty : BitVec 2) (s : State) : Out :=
  fcmpSweep .ne vd vs1 vs2 mask conv scalar ty s

/-- `vflt`: R133. -/
def execVflt (vd : BitVec 3) (vs1 vs2 : BitVec 5) (mask : BitVec 3) (conv scalar : Bool) (ty : BitVec 2) (s : State) : Out :=
  fcmpSweep .lt vd vs1 vs2 mask conv scalar ty s

/-- `vfle`: R133. -/
def execVfle (vd : BitVec 3) (vs1 vs2 : BitVec 5) (mask : BitVec 3) (conv scalar : Bool) (ty : BitVec 2) (s : State) : Out :=
  fcmpSweep .le vd vs1 vs2 mask conv scalar ty s

/-- `vfgt`: R133. -/
def execVfgt (vd : BitVec 3) (vs1 vs2 : BitVec 5) (mask : BitVec 3) (conv scalar : Bool) (ty : BitVec 2) (s : State) : Out :=
  fcmpSweep .gt vd vs1 vs2 mask conv scalar ty s

/-- `vfge`: R133. -/
def execVfge (vd : BitVec 3) (vs1 vs2 : BitVec 5) (mask : BitVec 3) (conv scalar : Bool) (ty : BitVec 2) (s : State) : Out :=
  fcmpSweep .ge vd vs1 vs2 mask conv scalar ty s

/-- `vfclass`: R133; sets no flag. -/
def execVfclass (vd vs1 : BitVec 5) (mask : BitVec 3) (conv : Bool) (ty : BitVec 2) (s : State) : Out :=
  fpSweep (fun f _ a _ => (fClass f a, 0)) true vd vs1 0 mask conv false ty s

end Sys2Proof.Machine
end

