-- ==== Sys2Proof/Machine/VecPerm.lean ====
section
/-! DEFINITION. Permutes, slides, reductions and the data-dependent exit: majors 0x2D and 0x2E (R136 to R138, R72, R73). -/

namespace Sys2Proof.Machine

/-- Element k of row j of a group; 0 at `vl` and above (R136). -/
def elemOr0 (s : State) (n : BitVec 5) (w j k : Nat) : Nat := if k < s.vl then s.h.elem n.toNat w j k else 0

/-- A permute of major 0x2D: `f` gives the result at an active position, or leaves it undisturbed; `two` says whether vs2
names a group (R136). -/
def permSweep (f : State → Nat → Nat → Option Nat) (extra : Option Trap) (two : Bool) (vd vs1 vs2 : BitVec 5)
    (mask : BitVec 3) (conv : Bool) (ty : BitVec 2) (s : State) : Out :=
  let w := s.sew
  vecOp s (claimPermute conv [mask.toNat] (readGroups s vs1 (!two) vs2) (groupRegs s vd))
    (firstTrap [checkStart s, checkWidth s ty, checkGroup s vd, checkGroup s vs1, if two then checkGroup s vs2 else none,
      need (!groupsMeet s vd vs1 && !(two && groupsMeet s vd vs2)) (vd.setWidth 64), extra])
    fun s => s.setH (s.h.putElems vd.toNat w ((active s mask).filter fun p => (f s p.1 p.2).isSome)
      fun j i => (f s j i).getD 0)

/-- `vslideup`: R136. -/
def execVslideup (vd vs1 vs2 : BitVec 5) (mask : BitVec 3) (conv : Bool) (ty : BitVec 2) (s : State) : Out :=
  permSweep (fun s j i => if (s.x vs2).toNat ≤ i then some (elemOr0 s vs1 s.sew j (i - (s.x vs2).toNat)) else none)
    none false vd vs1 vs2 mask conv ty s

/-- `vslidedown`: R136. -/
def execVslidedown (vd vs1 vs2 : BitVec 5) (mask : BitVec 3) (conv : Bool) (ty : BitVec 2) (s : State) : Out :=
  permSweep (fun s j i => some (elemOr0 s vs1 s.sew j (i + (s.x vs2).toNat))) none false vd vs1 vs2 mask conv ty s

/-- `vrgather`: R136; a scalar index is the whole of X[xs2]. -/
def execVrgather (vd vs1 vs2 : BitVec 5) (mask : BitVec 3) (conv scalar : Bool) (ty : BitVec 2) (s : State) : Out :=
  permSweep (fun s j i => some (elemOr0 s vs1 s.sew j (if scalar then (s.x vs2).toNat else s.h.elem vs2.toNat s.sew j i)))
    none (!scalar) vd vs1 vs2 mask conv ty s

/-- `vrowbc`: R136. -/
def execVrowbc (vd vs1 vs2 : BitVec 5) (mask : BitVec 3) (conv : Bool) (ty : BitVec 2) (s : State) : Out :=
  permSweep (fun s _ i => some (s.h.elem vs1.toNat s.sew (s.x vs2).toNat i))
    (need (decide ((s.x vs2).toNat < s.vrows)) (s.x vs2)) false vd vs1 vs2 mask conv ty s

/-- Where `vcompress` puts each selected position: its number among those of its row (R136). -/
def compressTo (ps : List (Nat × Nat)) : List (Nat × Nat × Nat) :=
  ps.map fun p => (p.1, (ps.filter fun q => q.1 = p.1 && decide (q.2 < p.2)).length, p.2)

/-- `vcompress`: R136; it restarts whole and requires `vstart` = 0. Under `vl` = 0 it completes whatever `vstart` holds, as R23 and R44 have every vector
instruction do, though R136 excepts nothing (the model's choice, log 41). -/
def execVcompress (vd vs1 : BitVec 5) (mask : BitVec 3) (conv : Bool) (ty : BitVec 2) (s : State) : Out :=
  let w := s.sew
  let st := s.h.shape.vstart
  vecOp s (claimPermute conv [mask.toNat] (groupRegs s vs1) (groupRegs s vd))
    (firstTrap [checkStart s, need (s.vl = 0 || decide (st = 0)) st, checkWidth s ty, checkGroup s vd, checkGroup s vs1,
      need (!groupsMeet s vd vs1) (vd.setWidth 64)])
    fun s => s.setH ((compressTo (active s mask)).foldl
      (fun g t => g.setElem vd.toNat w t.1 t.2.1 (s.h.elem vs1.toNat w t.1 t.2.2)) s.h)

/-! ## Reductions (R72, R73, R137) -/

/-- A reduction of the present slots from an initial value: the result and its flags. -/
abbrev Reducer := Nat → List (Option Nat) → Nat × Flags

/-- Folds the present slots in order. -/
def foldRed (f : Nat → Nat → Nat × Flags) : Reducer := fun init l =>
  l.foldl (fun a v => match v with | some v => let r := f a.1 v; (r.1, a.2 ||| r.2) | none => a) (init, 0)

/-- One level of the pairwise tree of R73. -/
def treeLevel (f : Nat → Nat → Nat × Flags) : List (Option Nat) → List (Option Nat) × Flags
  | a :: b :: r =>
    let (t, fl) := treeLevel f r
    match a, b with
    | some x, some y => let z := f x y; (some z.1 :: t, fl ||| z.2)
    | some x, none => (some x :: t, fl)
    | none, y => (y :: t, fl)
  | l => (l, 0)

/-- The root of the pairwise tree, with as many levels as `n` allows (R73). -/
def treeRoot (f : Nat → Nat → Nat × Flags) : Nat → List (Option Nat) → Option Nat × Flags
  | 0, l => (l.head?.join, 0)
  | n + 1, l =>
    let (t, fl) := treeLevel f l
    let (r, g) := treeRoot f n t
    (r, fl ||| g)

/-- The fixed pairwise tree: the root, then init + root (R73). 13 levels cover 4,096 slots. -/
def treeRed (f : Nat → Nat → Nat × Flags) : Reducer := fun init l =>
  match treeRoot f 13 l with
  | (none, fl) => (init, fl)
  | (some r, fl) => let z := f init r; (z.1, fl ||| z.2)

/-- The slots of a list of positions: the element where the position is active (R73). -/
def slots (s : State) (vs1 : BitVec 5) (w : Nat) (mask : BitVec 3) (ps : List (Nat × Nat)) : List (Option Nat) :=
  let act := active s mask
  ps.map fun p => if act.contains p then some (s.h.elem vs1.toNat w p.1 p.2) else none

/-- A reduction of major 0x2E (R137). Its claim names the registers it reads as sources: the running value that an ordered one finds in vd
where `vstart` ≠ 0 (R72) is no source of R35 (log 41). `toResult` places a result in an x register; `fpChecks` are the checks of an FP op. -/
def reduceOp (red : Reducer) (toResult : Nat → Word) (fpChecks : Option Trap) (vd vs1 vs2 : BitVec 5) (mask : BitVec 3)
    (conv toX perRow : Bool) (s : State) : Out :=
  let w := s.sew
  let init := (s.x vs2).toNat % 2 ^ w
  vecOp s (claimPermute conv [mask.toNat] (groupRegs s vs1)
      (if toX then [] else if perRow then groupRegs s vd else [vd.toNat]))
    (firstTrap [checkStart s, fpChecks, checkGroup s vs1, if perRow then checkGroup s vd else none,
      need (toX || !(decide (vs1.toNat ≤ vd.toNat) && decide (vd.toNat < vs1.toNat + s.vrows))) (vd.setWidth 64)])
    fun s =>
      if perRow then
        let r := fun j => red init (slots s vs1 w mask ((List.range s.vl).map fun i => (j, i)))
        fpPut s vd w ((List.range s.vrows).map fun j => (j, 0)) fun j _ => r j
      else
        let r := red init (slots s vs1 w mask (tile s.vrows s.vl))
        let s := s.orFlags r.2
        if toX then s.setX vd (toResult r.1) else s.setH (s.h.setElem vd.toNat w 0 0 r.1)

/-- An integer reduction (R137). -/
def intRed (f : Nat → Nat → Nat → Nat) (signed : Bool) (vd vs1 vs2 : BitVec 5) (mask : BitVec 3) (conv toX perRow : Bool)
    (s : State) : Out :=
  let w := s.sew
  reduceOp (foldRed fun a b => (f w a b % 2 ^ w, 0)) (fun v => BitVec.ofInt 64 (extOf signed w v)) none
    vd vs1 vs2 mask conv toX perRow s

/-- A floating-point reduction in the format of SEW, or BF16 (R137). -/
def fpRed (red : FpFmt → Rnd → Reducer) (bf16 : Bool) (vd vs1 vs2 : BitVec 5) (mask : BitVec 3) (conv toX perRow : Bool)
    (s : State) : Out :=
  let f := fmtOfSew s bf16
  reduceOp (red f s.rnd) (fpResult f) (checkFpSew s bf16) vd vs1 vs2 mask conv toX perRow s

/-- The ordered reduction: it continues from element 0 of row 0 of its destination where `vstart` ≠ 0 (R72). -/
def orderedRed (bf16 : Bool) (vd vs1 vs2 : BitVec 5) (mask : BitVec 3) (conv : Bool) (s : State) : Out :=
  let resume := decide (s.h.shape.vstart ≠ 0) && decide (s.vl ≠ 0)
  fpRed (fun f m init l => foldRed (fAdd f m) (if resume then s.h.elem vd.toNat (fpWidth f) 0 0 else init) l)
    bf16 vd vs1 vs2 mask conv false false s

/-- `vredsum`: R137. -/
def execVredsum (vd vs1 vs2 : BitVec 5) (mask : BitVec 3) (conv toX perRow : Bool) (s : State) : Out :=
  intRed (fun _ a b => a + b) true vd vs1 vs2 mask conv toX perRow s

/-- `vredmin`: R137. -/
def execVredmin (vd vs1 vs2 : BitVec 5) (mask : BitVec 3) (conv toX perRow : Bool) (s : State) : Out :=
  intRed (fun w a b => if signedOf w a ≤ signedOf w b then a else b) true vd vs1 vs2 mask conv toX perRow s

/-- `vredminz`: R137. -/
def execVredminz (vd vs1 vs2 : BitVec 5) (mask : BitVec 3) (conv toX perRow : Bool) (s : State) : Out :=
  intRed (fun _ a b => min a b) false vd vs1 vs2 mask conv toX perRow s

/-- `vredmax`: R137. -/
def execVredmax (vd vs1 vs2 : BitVec 5) (mask : BitVec 3) (conv toX perRow : Bool) (s : State) : Out :=
  intRed (fun w a b => if signedOf w a ≤ signedOf w b then b else a) true vd vs1 vs2 mask conv toX perRow s

/-- `vredmaxz`: R137. -/
def execVredmaxz (vd vs1 vs2 : BitVec 5) (mask : BitVec 3) (conv toX perRow : Bool) (s : State) : Out :=
  intRed (fun _ a b => max a b) false vd vs1 vs2 mask conv toX perRow s

/-- `vfredo`: R72, R137. -/
def execVfredo (vd vs1 vs2 : BitVec 5) (mask : BitVec 3) (conv : Bool) (s : State) : Out :=
  orderedRed false vd vs1 vs2 mask conv s

/-- `vfredt`: R73, R137. -/
def execVfredt (vd vs1 vs2 : BitVec 5) (mask : BitVec 3) (conv toX perRow : Bool) (s : State) : Out :=
  fpRed (fun f m => treeRed (fAdd f m)) false vd vs1 vs2 mask conv toX perRow s

/-- `vfredmin`: R137. -/
def execVfredmin (vd vs1 vs2 : BitVec 5) (mask : BitVec 3) (conv toX perRow : Bool) (s : State) : Out :=
  fpRed (fun f _ => foldRed (fMinMax f false)) false vd vs1 vs2 mask conv toX perRow s

/-- `vfredmax`: R137. -/
def execVfredmax (vd vs1 vs2 : BitVec 5) (mask : BitVec 3) (conv toX perRow : Bool) (s : State) : Out :=
  fpRed (fun f _ => foldRed (fMinMax f true)) false vd vs1 vs2 mask conv toX perRow s

/-- `vfredoBf16`: R72, R137. -/
def execVfredoBf16 (vd vs1 vs2 : BitVec 5) (mask : BitVec 3) (conv : Bool) (s : State) : Out :=
  orderedRed true vd vs1 vs2 mask conv s

/-- `vfredtBf16`: R73, R137. -/
def execVfredtBf16 (vd vs1 vs2 : BitVec 5) (mask : BitVec 3) (conv toX perRow : Bool) (s : State) : Out :=
  fpRed (fun f m => treeRed (fAdd f m)) true vd vs1 vs2 mask conv toX perRow s

/-- `vfredminBf16`: R137. -/
def execVfredminBf16 (vd vs1 vs2 : BitVec 5) (mask : BitVec 3) (conv toX perRow : Bool) (s : State) : Out :=
  fpRed (fun f _ => foldRed (fMinMax f false)) true vd vs1 vs2 mask conv toX perRow s

/-- `vfredmaxBf16`: R137. -/
def execVfredmaxBf16 (vd vs1 vs2 : BitVec 5) (mask : BitVec 3) (conv toX perRow : Bool) (s : State) : Out :=
  fpRed (fun f _ => foldRed (fMinMax f true)) true vd vs1 vs2 mask conv toX perRow s

/-- `vexit`: R138; it ignores an existing bound, and finds nothing under `vl` = 0 (R23). -/
def execVexit (vd : BitVec 5) (vs1 : BitVec 3) (conv : Bool) (s : State) : Out :=
  vecOp s (claimPermute conv [vs1.toNat] [] []) (checkStart s)
    fun s =>
      match (onesOf s vs1 false).head? with
      | some (j, i) =>
        let s := s.setH { s.h with shape := { s.h.shape with vstop := posWord true j i } }
        s.setX vd (BitVec.ofNat 64 (j * s.vl + i))
      | none =>
        let s := s.setH { s.h with shape := { s.h.shape with vstop := 0 } }
        s.setX vd (BitVec.allOnes 64)

end Sys2Proof.Machine
end

