-- ==== Sys2Proof/Machine/VecMem.lean ====
section
/-! DEFINITION. Pins and vector memory: majors 0x30 to 0x35 (R143 to R167, R240 to R252). -/

namespace Sys2Proof.Machine

/-! ## Pins (R146 to R149) -/

/-- A page that no walk found: its entry is not valid, and its `acc` and `dirty` need no update. -/
def settledPage (va pa size : Nat) (mtype : BitVec 2) : Page :=
  { va := va, pa := pa, size := size, mtype := mtype, perm := 31, dirty := true, level := sizeLevel size, eaddr := 0, entry := 2 ^ 7 + 2 ^ 8 }

/-- The entry serves a pin with some permissions at an address (R368). -/
def TlbEntry.servesPin (e : TlbEntry) (ctx va : Nat) (perm : BitVec 3) (user : Bool) : Bool :=
  [(0, 0), (1, 1), (2, 3)].all fun q : Nat × Nat => !perm.getLsbD q.1 || e.serves ctx va q.2 user

/-- The page of an address for a pin with some permissions, from the basin's L2 TLB or by a checking walk (R367, R368), or the cause. At M
addresses are physical (R367), one page of 1 GiB each (log 15). -/
def pinPage (s : State) (va : Nat) (perm : BitVec 3) : Except (BitVec 9) Page :=
  if s.priv = 3 then .ok (settledPage (va / 2 ^ 30 * 2 ^ 30) (va / 2 ^ 30 * 2 ^ 30) (2 ^ 30) 0)
  else
    let acc := if perm.getLsbD 2 then 3 else if perm.getLsbD 1 then 1 else 0
    match ctxOfAgent s s.agent with
    | none => .error (xlatCause acc 0 3)
    | some (n, cx) =>
      match (s.basin (basinOfAgent s.agent)).tlb.find? fun e => e.servesPin n va perm (s.priv = 0) with
      | some e => .ok (settledPage e.va e.pa e.size e.mtype)
      | none =>
        let w := fun a => walkCheck s cx va a (s.priv = 0)
        let denied := [(0, 0), (1, 1), (2, 3)].findSome? fun q : Nat × Nat =>
          if perm.getLsbD q.1 then
            match w q.2 with
            | .error (1, l) => some (xlatCause q.2 1 l)
            | _ => none
          else none
        match w acc with
        | .error (r, l) => .error (if r = 1 then denied.getD (xlatCause acc 1 l) else xlatCause acc r l)
        | .ok p => (match denied with | some c => .error c | none => .ok p)

/-- A page that a checking walk found gets its `acc` and `dirty` bits, and the basin's L2 TLB its entry (R147, R367, R368); a page the TLB held
stays as it is. -/
def pinUpdate (s : State) (acc : Nat) (p : Page) : State :=
  match ctxOfAgent s s.agent with
  | none => s
  | some (n, _) =>
    if bitOf p.entry 0 = false then s
    else
      let s := walkUpdate s p acc
      let b := basinOfAgent s.agent
      s.setBasin b { s.basin b with tlb := tlbAdd 4096 (s.basin b).tlb (p.tlb n acc) }

/-- The pages that touch a range, ascending; the list counts steps of at least 4 KiB (R147). -/
def pinPages (s : State) (base last : Nat) (perm : BitVec 3) : Nat → Nat → Except Trap (List Page)
  | 0, _ => .ok []
  | n + 1, va =>
    if last < va then .ok []
    else
      let first := BitVec.ofNat 64 (max base va)
      match pinPage s (max base va) perm with
      | .error c => .error (Trap.of c first)
      | .ok p =>
        if p.mtype = 2 then .error (Trap.of 0x086 first)
        else
          match pinPages s base last perm n (p.va + p.size) with
          | .error t => .error t
          | .ok ps => .ok (p :: ps)

/-- Live pins of a core. -/
def pinsOf (s : State) (site : Nat) : List Pin :=
  (hartsOf site).flatMap fun k => (s.hartOf k).pins.toList.filterMap id

/-- The page a pin captures. -/
def Page.pinned (p : Page) : PinPage := { va := p.va, size := p.size, pa := p.pa, replica := decide (p.mtype = 1) }

/-- A Sluice request of the hart's task whose descriptor names the token is not complete (R148). -/
def tokenBusy (s : State) (n : BitVec 3) : Bool :=
  (s.c.requestsOf s.hartNo s.h.serial).any fun r => decide (r.token = n)

/-- The checks of `vpin` (R147): the pages to bind, or the trap. -/
def vpinCheck (s : State) (perm : BitVec 3) (base len : Word) (token : BitVec 3) : Except Trap (List Page) :=
  let last := base.toNat + len.toNat - 1
  if len = 0 ∨ 2 ^ 40 < len.toNat then .error (Trap.operand len)
  else if canonical base = false ∨ canonical (base + len - 1) = false ∨ 2 ^ 64 ≤ last then .error (Trap.of 0x0E1 base)
  else if (s.h.pins.get token.toFin).isSome then .error (Trap.of 0x084 (token.setWidth 64))
  else if 32 ≤ (pinsOf s s.agent).length then .error (Trap.of 0x085 32)
  else
    match pinPages s base.toNat last perm (len.toNat / 4096 + 2) base.toNat with
    | .error t => .error t
    | .ok ps =>
      let used := ((pinsOf s s.agent).map fun p => p.pages.length).sum
      if 256 < used + ps.length then .error (Trap.of 0x087 (BitVec.ofNat 64 ps.length)) else .ok ps

/-- The pin of a token replaced. -/
def Hart.setPin (h : Hart) (n : BitVec 3) (p : Option Pin) : Hart := { h with pins := h.pins.set n.toNat p n.isLt }

/-- `vpin`: R147. -/
def execVpin (perm : BitVec 3) (base len : BitVec 5) (token : BitVec 3) (s : State) : Out :=
  if tokenBusy s token then waiting s 0x01 0 0
  else
    match vpinCheck s perm (s.x base) (s.x len) token with
    | .error t => raise s t
    | .ok ps =>
      let acc := if perm.getLsbD 1 || perm.getLsbD 2 then 1 else 0
      let pin : Pin := { base := s.x base, len := (s.x len).toNat, perms := perm, pages := ps.map Page.pinned, holds := [] }
      let s := if s.priv = 3 then s else ps.foldl (fun s p => pinUpdate s acc p) s
      finish (s.setH (s.h.setPin token (some pin)))

/-- `vunpin`: R148. -/
def execVunpin (token : BitVec 3) (s : State) : Out :=
  if tokenBusy s token then waiting s 0x01 0 0 else finish (s.setH (s.h.setPin token none))

/-- Where an address of a pinned range lies for an agent: on a replica page the die's own replica (R160). Vector accesses do not
reach control space (R443). -/
def Pin.locate (p : Pin) (agent die a : Nat) : Loc :=
  match p.pages.find? fun g => decide (g.va ≤ a) && decide (a < g.va + g.size) with
  | none => .hole
  | some g =>
    match physLoc agent (g.pa + (a - g.va) + if g.replica then die * 2 ^ 41 else 0) with
    | .ctl _ => .hole
    | l => l

/-- The page of an address has the replica attribute. -/
def Pin.isReplica (p : Pin) (a : Nat) : Bool :=
  ((p.pages.find? fun g => decide (g.va ≤ a) && decide (a < g.va + g.size)).map (·.replica)).getD false

/-! ## Addresses and checks (R151 to R155) -/

/-- Addressing forms of R152. -/
inductive VForm where
  | unit
  | strided (pitch : Int)
  | indexed (vi : BitVec 5)
  deriving DecidableEq, Repr

/-- Displacement of a position (R152). -/
def State.disp (s : State) (f : VForm) (w j i : Nat) : Int :=
  match f with
  | .unit => (((j * s.vl + i) * w : Nat) : Int)
  | .strided p => (j : Int) * p + ((i * w : Nat) : Int)
  | .indexed vi => ((s.h.elem vi.toNat s.sew j i : Nat) : Int)

/-- Address of an element, or its scratchpad offset under an orientation (R152). -/
def elemAddr (token : BitVec 3) (col : Bool) (base : Word) (d : Int) : Int :=
  if token ≠ 0 then ((base.toNat : Int) + d) % (2 ^ 64 : Nat)
  else if col then (base.toNat : Int) + 512 * (d / 4) + d % 4
  else (base.toNat : Int) + d

/-- A vector access: what its word names (R151). -/
structure VAcc where
  form : VForm
  base : Word
  token : BitVec 3
  col : Bool
  w : Nat
  /-- Permission bit of the pin: R 0, W 1, A 2. -/
  perm : Nat
  deriving DecidableEq, Repr

def VAcc.addr (a : VAcc) (s : State) (j i : Nat) : Int := elemAddr a.token a.col a.base (s.disp a.form a.w j i)

/-- The pin of a token. -/
def State.pin (s : State) (n : BitVec 3) : Option Pin := if n = 0 then none else s.h.pins.get n.toFin

/-- Where an element lies: the own scratchpad through k0, else what the pin says. -/
def VAcc.loc (a : VAcc) (s : State) (j i : Nat) : Loc :=
  match s.pin a.token with
  | some p => p.locate s.agent (dieOfAgent s.agent) (a.addr s j i).toNat
  | none => .hole

def Loc.isHost : Loc → Bool | .host _ => true | _ => false

/-- The checks of R155 (R163) at one position; `chunk` is the chunk number of a chunk-wait load. An atomic element on a host page is reported after
a missing permission (log 41). -/
def VAcc.check (a : VAcc) (s : State) (chunk : Nat → Nat → Nat) (j i : Nat) : Option Trap :=
  let e := a.addr s j i
  let v : Word := BitVec.ofInt 64 e
  let late := need (decide (chunk j i < 8192)) (BitVec.ofNat 64 (chunk j i))
  let mis := if e % a.w = 0 then none else some (Trap.of 0x0E0 v)
  if a.token = 0 then
    firstTrap [if e < 0 ∨ 0x40000 < e + a.w then some (Trap.of 0x0E2 v) else none, mis, late]
  else
    match s.pin a.token with
    | none => some (Trap.of 0x080 (a.token.setWidth 64))
    | some p =>
      firstTrap [if canonical v then none else some (Trap.of 0x0E1 v), mis,
        if (p.base.toNat : Int) ≤ e ∧ e + a.w ≤ p.base.toNat + p.len then none else some (Trap.of 0x081 v),
        if p.perms.getLsbD a.perm then none else some (Trap.of 0x082 v),
        if a.perm = 2 ∧ (a.loc s j i).isHost then some (Trap.of 0x0E3 v) else none, late]

/-- The checks of R155 over the active positions, in element order; none where no position is active (R153). -/
def VAcc.checks (a : VAcc) (s : State) (chunk : Nat → Nat → Nat) (ps : List (Nat × Nat)) : Option Trap :=
  ps.findSome? fun p => a.check s chunk p.1 p.2

/-- The hart with `vstart` at a position. -/
def State.stopAt (s : State) (j i : Nat) : State :=
  s.setH { s.h with shape := { s.h.shape with vstart := posWord false j i } }

/-- Performs `f` at each position in element order; a trap leaves `vstart` at its position (R244). -/
def eachPos (f : State → Nat → Nat → Res State) : List (Nat × Nat) → State → Res State
  | [], s => .ok s
  | p :: ps, s =>
    match f s p.1 p.2 with
    | .error (t, tr) => .error (t.stopAt p.1 p.2, tr)
    | .ok t => eachPos f ps t

/-! ## Loads (R156, R161) -/

/-- Reads an element (R156, R250, R392). -/
def VAcc.read (a : VAcc) (s : State) (j i : Nat) : Res (Nat × State) :=
  let e := (a.addr s j i).toNat
  if a.token = 0 then
    match spBadAt s.c e a.w with
    | some w => .error (s, Trap.poison 3 (BitVec.ofNat 64 (4 * w)) j i)
    | none => .ok (readLE s.c.sp e a.w, s)
  else
    match a.loc s j i with
    | .dev pa =>
      let s := bypass s s.agent pa a.w
      match poisonAt s pa a.w with
      | some (w, src) => .error (s, Trap.poison src (BitVec.ofNat 64 (e - pa % 8 + (w - pa / 8 * 8))) j i)
      | none => .ok (readLE s.mem pa a.w, s)
    | .host h =>
      let s := hostSync s s.agent
      if hostRefuses s s.agent h false then .error (s, Trap.poison 4 (BitVec.ofNat 64 e) j i)
      else .ok (hostRead s s.agent h a.w, s)
    | .own o => .ok (readLE s.c.sp o a.w, s)
    | _ => .ok (0, s)

/-- Loads one element into its place (R156). -/
def VAcc.loadElem (a : VAcc) (vd : BitVec 5) (s : State) (j i : Nat) : Res State :=
  match a.read s j i with
  | .error e => .error e
  | .ok (v, s) => .ok (s.setH (s.h.setElem vd.toNat (8 * a.w) j i v))

/-- The port a vector access claims (R167). -/
def portOf (token : BitVec 3) : BitVec 5 := if token = 0 then unitScratch else unitGlobal

/-- A vector memory instruction: operand checks, convoy, then the accesses; a trap among these leaves what it left (R85). -/
def vecMem (s : State) (c : Claim) (check : Option Trap) (eff : State → Res State) : Out :=
  match check with
  | some t => raise s t
  | none =>
    match joinConvoy s c with
    | .error a => refuseConvoy s a
    | .ok cv =>
      match eff s with
      | .error (s, t) => raise s t
      | .ok s => finish (s.vdone cv)

/-- The memory width is SEW (R154). -/
def checkMemWidth (s : State) (w : Nat) : Option Trap := need (8 * w = s.sew) s.wordVal

/-- Registers of an index group, where the form has one. -/
def VForm.regs (f : VForm) (s : State) : List Nat :=
  match f with
  | .indexed vi => groupRegs s vi
  | _ => []

/-- Group check of an index operand. -/
def VForm.check (f : VForm) (s : State) : Option Trap :=
  match f with
  | .indexed vi => checkGroup s vi
  | _ => none

/-- The destination group of a load does not overlap its index group (R154). -/
def VForm.apart (f : VForm) (s : State) (vd : BitVec 5) : Option Trap :=
  match f with
  | .indexed vi => need (!groupsMeet s vd vi) (vd.setWidth 64)
  | _ => none

/-- A load over a list of active positions (R155, R156). -/
def vecLoad (a : VAcc) (vd : BitVec 5) (conv : Bool) (mask : BitVec 3) (ps : State → List (Nat × Nat)) (s : State) : Out :=
  vecMem s { conv := conv, units := portOf a.token, cross := false, rv := a.form.regs s, rm := [mask.toNat]
             wv := groupRegs s vd, wm := [] }
    (firstTrap [checkStart s, checkGroup s vd, a.form.check s, checkMemWidth s a.w, a.form.apart s vd])
    fun s =>
      match a.checks s (fun _ _ => 0) (ps s) with
      | some t => .error (s, t)
      | none => eachPos (a.loadElem vd) (ps s) s

/-- Bytes of a width code (R151). -/
def accBytes (w : BitVec 2) : Nat := 2 ^ w.toNat

/-- Unit stride or strided addressing by the field of R151. -/
def strideForm (s : State) (idx : BitVec 5) : VForm := if idx = 0 then .unit else .strided (s.x idx).toInt

/-- `vld`, unit stride or strided: R156. -/
def execVld (vd base idx : BitVec 5) (token : BitVec 3) (orient conv : Bool) (mask : BitVec 3) (width : BitVec 2)
    (s : State) : Out :=
  vecLoad { form := strideForm s idx, base := s.x base, token := token, col := orient, w := accBytes width, perm := 0 }
    vd conv mask (fun s => active s mask) s

/-- `vld`, indexed: R156. -/
def execVldIndexed (vd base idx : BitVec 5) (token : BitVec 3) (orient conv : Bool) (mask : BitVec 3) (width : BitVec 2)
    (s : State) : Out :=
  vecLoad { form := .indexed idx, base := s.x base, token := token, col := orient, w := accBytes width, perm := 0 }
    vd conv mask (fun s => active s mask) s

/-- Chunk number of a position of a chunk-wait load (R161). -/
def chunkAt (s : State) (f : VForm) (c0 w j i : Nat) : Nat :=
  match f with
  | .indexed vi => s.h.elem vi.toNat s.sew j i / 512
  | _ => c0 + (j * s.vl + i) * w / 512

/-- The positions of a chunk-wait load before the first whose chunk bit is 0, and that one (R161). -/
def chunkSplit (s : State) (mc : BitVec 3) (chunk : Nat → Nat → Nat) (ps : List (Nat × Nat)) :
    List (Nat × Nat) × Option (Nat × Nat) :=
  let ready := fun p : Nat × Nat => s.h.maskBit mc (chunk p.1 p.2 / 1024) (chunk p.1 p.2 % 1024)
  (ps.takeWhile ready, (ps.dropWhile ready).head?)

/-- A chunk-wait load: the elements whose chunks have arrived are loaded in element order; at the first one that waits the
hart stalls with wait reason 0x09, and a trap taken there finds `vstart` at it (R161, R244). -/
def vecLoadCw (form : VForm) (c0 : Nat) (vd base : BitVec 5) (token : BitVec 3) (col conv : Bool) (mc : BitVec 3)
    (width : BitVec 2) (s : State) : Out :=
  let a : VAcc := { form := form, base := s.x base, token := token, col := col, w := accBytes width, perm := 0 }
  let chunk := chunkAt s form c0 a.w
  let ps := reached s true
  let (now, wait) := chunkSplit s mc chunk ps
  let check := firstTrap [checkStart s, checkGroup s vd, form.check s, checkMemWidth s a.w, form.apart s vd]
  match check with
  | some t => raise s t
  | none =>
    match joinConvoy s { conv := conv, units := portOf token, cross := true, rv := [], rm := [mc.toNat]
                         wv := groupRegs s vd, wm := [] } with
    | .error e => refuseConvoy s e
    | .ok cv =>
      match a.checks s chunk ps with
      | some t => raise s t
      | none =>
        match eachPos (a.loadElem vd) now s with
        | .error (s, t) => raise s t
        | .ok s =>
          match wait with
          | none => finish (s.vdone cv)
          | some p => waiting (s.stopAt p.1 p.2) 0x09 (mc.setWidth 6) 0

/-- `vld.cw`, unit stride from the first chunk in X[xs]: R161. -/
def execVldCw (vd base idx : BitVec 5) (token : BitVec 3) (orient conv : Bool) (chunk : BitVec 3) (width : BitVec 2)
    (s : State) : Out :=
  vecLoadCw .unit (s.x idx).toNat vd base token orient conv chunk width s

/-- `vld.cw`, indexed: R161. -/
def execVldIndexedCw (vd base idx : BitVec 5) (token : BitVec 3) (orient conv : Bool) (chunk : BitVec 3) (width : BitVec 2)
    (s : State) : Out :=
  vecLoadCw (.indexed idx) 0 vd base token orient conv chunk width s

/-! ## Stores (R145, R157 to R160) -/

/-- Some row of the positions writes every byte of a scratchpad word (R145). -/
def coversWord (a : VAcc) (s : State) (ps : List (Nat × Nat)) (word row : Nat) : Bool :=
  let es := (ps.filter fun p => decide (p.1 = row)).map fun p => a.addr s p.1 p.2
  (List.range 4).all fun b => es.any fun e => decide (e ≤ ((4 * word + b : Nat) : Int)) && decide (((4 * word + b : Nat) : Int) < e + a.w)

/-- A store element merges into an uncorrectable scratchpad word: no row up to its own covers the word (R145). -/
def mergesBad (a : VAcc) (s : State) (ps : List (Nat × Nat)) (p : Nat × Nat) : Bool :=
  let word := (a.addr s p.1 p.2).toNat / 4
  a.token = 0 && decide (a.w < 4) && s.c.spBad.contains word
    && !(List.range (p.1 + 1)).any fun r => coversWord a s ps word r

/-- The dies whose replica an element is written to (R160). -/
def storeDies (s : State) (a : VAcc) (multi : Bool) (j i : Nat) : List Nat :=
  match s.pin a.token with
  | some p => if multi && p.isReplica (a.addr s j i).toNat then [0, 1, 2, 3] else [dieOfAgent s.agent]
  | none => [dieOfAgent s.agent]

/-- A write of bytes through a pin at its home (R157, R391). -/
def writeLoc (s : State) (agent : Nat) (loc : Loc) (data : List Byte) : State :=
  match loc with
  | .dev pa => devWrite (bypass s agent pa data.length) none pa data
  | .host h => hostWrite (hostSync s agent) agent h data
  | .own o => ownWrite s o data.length (leValue data)
  | _ => s

/-- Performs one store element (R157, R160). -/
def VAcc.putElem (a : VAcc) (multi : Bool) (vs : BitVec 5) (s : State) (p : Nat × Nat) : State :=
  let data := leBytes a.w (s.h.elem vs.toNat (8 * a.w) p.1 p.2)
  let e := (a.addr s p.1 p.2).toNat
  if a.token = 0 then s.setC (s.c.spPut e data)
  else
    match s.pin a.token with
    | none => s
    | some pin => (storeDies s a multi p.1 p.2).foldl (fun s d => writeLoc s s.agent (pin.locate s.agent d e) data) s

/-- Words written whole within one row lose their error (R145). -/
def clearCovered (a : VAcc) (ps : List (Nat × Nat)) (s : State) : State :=
  if a.token = 0 ∧ a.w < 4 then
    s.setC { s.c with spBad := s.c.spBad.filter fun w => !(List.range 8).any fun r => coversWord a s ps w r }
  else s

/-- Inserts a position by its rank. -/
def insertRank (rank : Nat × Nat → Nat) (p : Nat × Nat) : List (Nat × Nat) → List (Nat × Nat)
  | [] => [p]
  | q :: qs => if rank p ≤ rank q then p :: q :: qs else q :: insertRank rank p qs

/-- The order in which an unordered store performs its elements: any order (R158). -/
def freeOrder (n : Nat) (ps : List (Nat × Nat)) : List (Nat × Nat) :=
  ps.foldr (insertRank fun p => Config.storeRank n p.1 p.2) []

/-- The elements a store performs, in the order it performs them, and the position at which it traps, where it merges into an
uncorrectable word: of an unordered store any subset of the later elements may be performed too (R157, R158, R244). -/
def storePlan (a : VAcc) (s : State) (unord : Bool) (ps : List (Nat × Nat)) : List (Nat × Nat) × Option (Nat × Nat) :=
  let bad := ps.find? (mergesBad a s ps)
  let set := match bad with
    | none => ps
    | some k => ps.takeWhile (· ≠ k) ++
        (if unord then (ps.dropWhile (· ≠ k)).filter fun p => !mergesBad a s ps p && Config.storeEarly s.freeCtr p.1 p.2
         else [])
  (if unord then freeOrder s.freeCtr set else set, bad)

/-- A store over a list of active positions (R155, R157 to R160); in strong mode a release comes before its first element (R306). -/
def storeEff (a : VAcc) (vs : BitVec 5) (multi unord : Bool) (ps : List (Nat × Nat)) (s : State) : Res State :=
  match a.checks s (fun _ _ => 0) ps with
  | some t => .error (s, t)
  | none =>
    let u := unord && !s.strong
    let (order, bad) := storePlan a s u ps
    let t := clearCovered a order (order.foldl (a.putElem multi vs) (strongRelease s))
    let t := if u then { t with freeCtr := t.freeCtr + 1 } else t
    match bad with
    | none => .ok t
    | some k =>
      .error (t.stopAt k.1 k.2,
        Trap.poison 3 (BitVec.ofNat 64 ((a.addr s k.1 k.2).toNat / 4 * 4)) k.1 k.2)

/-- A vector store instruction. -/
def vecStore (a : VAcc) (vs : BitVec 5) (multi conv unord : Bool) (mask : BitVec 3) (s : State) : Out :=
  vecMem s { conv := conv, units := portOf a.token, cross := false, rv := groupRegs s vs ++ a.form.regs s
             rm := [mask.toNat], wv := [], wm := [] }
    (firstTrap [checkStart s, checkGroup s vs, a.form.check s, checkMemWidth s a.w])
    fun s => storeEff a vs multi unord (active s mask) s

/-- `vst`, unit stride or strided: R157. -/
def execVst (vs base idx : BitVec 5) (token : BitVec 3) (orient conv : Bool) (mask : BitVec 3) (unord : Bool)
    (width : BitVec 2) (s : State) : Out :=
  vecStore { form := strideForm s idx, base := s.x base, token := token, col := orient, w := accBytes width, perm := 1 }
    vs false conv unord mask s

/-- `vst`, indexed: R157. -/
def execVstIndexed (vs base idx : BitVec 5) (token : BitVec 3) (orient conv : Bool) (mask : BitVec 3) (unord : Bool)
    (width : BitVec 2) (s : State) : Out :=
  vecStore { form := .indexed idx, base := s.x base, token := token, col := orient, w := accBytes width, perm := 1 }
    vs false conv unord mask s

/-- `vstm`, unit stride or strided: R160. -/
def execVstm (vs base idx : BitVec 5) (token : BitVec 3) (conv : Bool) (mask : BitVec 3) (unord : Bool)
    (width : BitVec 2) (s : State) : Out :=
  vecStore { form := strideForm s idx, base := s.x base, token := token, col := false, w := accBytes width, perm := 1 }
    vs true conv unord mask s

/-- `vstm`, indexed: R160. -/
def execVstmIndexed (vs base idx : BitVec 5) (token : BitVec 3) (conv : Bool) (mask : BitVec 3) (unord : Bool)
    (width : BitVec 2) (s : State) : Out :=
  vecStore { form := .indexed idx, base := s.x base, token := token, col := false, w := accBytes width, perm := 1 }
    vs true conv unord mask s

/-! ## Scatter-add atomics (R162 to R165) -/

/-- An element operation: virtual address, old value and addend to the new value and its flags (R162). -/
abbrev AtomOp := Nat → Nat → Nat → Nat × Flags

/-- One half of a packed pair: rounded in `frm`, or stochastically with the half's own address as the key (R62, R162). -/
def packHalf (s : State) (f : FpFmt) (sr : Bool) (va c b : Nat) : Nat × Flags :=
  if sr then fAddSr f (srDraw s.h.user.srseed (BitVec.ofNat 64 va) (BitVec.ofNat 32 b)) c b else fAdd f s.rnd c b

/-- A packed FP16 or BF16 pair (R162). -/
def packOp (s : State) (f : FpFmt) (sr : Bool) : AtomOp := fun va c b =>
  let lo := packHalf s f sr va (c % 2 ^ 16) (b % 2 ^ 16)
  let hi := packHalf s f sr (va + 2) (c / 2 ^ 16) (b / 2 ^ 16)
  (lo.1 + 2 ^ 16 * hi.1, lo.2 ||| hi.2)

/-- Performs one element operation at the element's memory (R163, R112). -/
def VAcc.atomElem (a : VAcc) (vs : BitVec 5) (op : AtomOp) (s : State) (j i : Nat) : Res State :=
  let va := (a.addr s j i).toNat
  let b := s.h.elem vs.toNat (8 * a.w) j i
  match a.loc s j i with
  | .dev pa =>
    let s := bypass s s.agent pa a.w
    match poisonAt s pa a.w with
    | some (w, src) => .error (s, Trap.poison src (BitVec.ofNat 64 (va - pa % 8 + (w - pa / 8 * 8))) j i)
    | none =>
      let r := op va (readLE s.mem pa a.w) b
      .ok ((devWrite s none pa (leBytes a.w r.1)).orFlags r.2)
  | .own o =>
    let r := op va (readLE s.c.sp o a.w) b
    .ok ((ownWrite s o a.w r.1).orFlags r.2)
  | _ => .ok (s.orFlags (op va 0 b).2)

/-- The first position whose address repeats that of an earlier one (R164). -/
def firstRepeat (a : VAcc) (s : State) : List (Nat × Nat) → List Int → Option (Nat × Nat)
  | [], _ => none
  | p :: ps, seen =>
    let e := a.addr s p.1 p.2
    if seen.contains e then some p else firstRepeat a s ps (e :: seen)

/-- The element operations of an atomic (R163 to R165): a distinct-index one stops before the first repeated element. In strong mode a release
comes first (R306). -/
def atomEff (a : VAcc) (vs : BitVec 5) (op : AtomOp) (dup : Bool) (ps : List (Nat × Nat)) (s : State) : Res State :=
  match a.checks s (fun _ _ => 0) ps with
  | some t => .error (s, t)
  | none =>
    let rep := if dup then none else firstRepeat a s ps []
    let run := match rep with | none => ps | some q => ps.takeWhile (· ≠ q)
    match eachPos (a.atomElem vs op) run (strongRelease s), rep with
    | .error e, _ => .error e
    | .ok t, none => .ok t
    | .ok t, some q => .error (t.stopAt q.1 q.2, Trap.of 0x083 (posWord false q.1 q.2))

/-- A scatter-add atomic of `size` bytes (R162). -/
def vecAtomic (op : State → AtomOp) (size : Nat) (dup : Bool) (vs base idx : BitVec 5) (token : BitVec 3) (conv : Bool)
    (mask : BitVec 3) (s : State) : Out :=
  let a : VAcc := { form := .indexed idx, base := s.x base, token := token, col := false, w := size, perm := 2 }
  vecMem s { conv := conv, units := unitGlobal, cross := false, rv := groupRegs s vs ++ groupRegs s idx
             rm := [mask.toNat], wv := [], wm := [] }
    (firstTrap [checkStart s, checkGroup s vs, checkGroup s idx, checkMemWidth s size])
    fun s => atomEff a vs (op s) dup (active s mask) s

/-- An integer operation without flags, on `w` bits. -/
def intAtom (w : Nat) (f : Nat → Nat → Nat) : State → AtomOp := fun _ _ c b => (f c b % 2 ^ w, 0)

/-- The smaller, signed. -/
def minW (c b : Nat) : Nat := if signedOf 32 c ≤ signedOf 32 b then c else b

/-- The larger, signed. -/
def maxW (c b : Nat) : Nat := if signedOf 32 c ≤ signedOf 32 b then b else c

/-- FP32 addition (R162). -/
def addF32 : State → AtomOp := fun s _ c b => fAdd .f32 s.rnd c b

/-- `vamoaddW`: R162, R164. -/
def execVamoaddW (vs base idx : BitVec 5) (token : BitVec 3) (conv : Bool) (mask : BitVec 3) (s : State) : Out :=
  vecAtomic (intAtom 32 (· + ·)) 4 false vs base idx token conv mask s

/-- `vamoaddD`: R162, R164. -/
def execVamoaddD (vs base idx : BitVec 5) (token : BitVec 3) (conv : Bool) (mask : BitVec 3) (s : State) : Out :=
  vecAtomic (intAtom 64 (· + ·)) 8 false vs base idx token conv mask s

/-- `vamominW`: R162, R164. -/
def execVamominW (vs base idx : BitVec 5) (token : BitVec 3) (conv : Bool) (mask : BitVec 3) (s : State) : Out :=
  vecAtomic (intAtom 32 minW) 4 false vs base idx token conv mask s

/-- `vamomaxW`: R162, R164. -/
def execVamomaxW (vs base idx : BitVec 5) (token : BitVec 3) (conv : Bool) (mask : BitVec 3) (s : State) : Out :=
  vecAtomic (intAtom 32 maxW) 4 false vs base idx token conv mask s

/-- `vamoaddF32`: R162, R164. -/
def execVamoaddF32 (vs base idx : BitVec 5) (token : BitVec 3) (conv : Bool) (mask : BitVec 3) (s : State) : Out :=
  vecAtomic addF32 4 false vs base idx token conv mask s

/-- `vamoaddF16`: R162, R164. -/
def execVamoaddF16 (vs base idx : BitVec 5) (token : BitVec 3) (orient conv : Bool) (mask : BitVec 3) (s : State) : Out :=
  vecAtomic (fun s => packOp s .f16 orient) 4 false vs base idx token conv mask s

/-- `vamoaddBf16`: R162, R164. -/
def execVamoaddBf16 (vs base idx : BitVec 5) (token : BitVec 3) (orient conv : Bool) (mask : BitVec 3) (s : State) : Out :=
  vecAtomic (fun s => packOp s .bf16 orient) 4 false vs base idx token conv mask s

/-- `vamoaddWDup`: R162, R165. -/
def execVamoaddWDup (vs base idx : BitVec 5) (token : BitVec 3) (conv : Bool) (mask : BitVec 3) (s : State) : Out :=
  vecAtomic (intAtom 32 (· + ·)) 4 true vs base idx token conv mask s

/-- `vamoaddDDup`: R162, R165. -/
def execVamoaddDDup (vs base idx : BitVec 5) (token : BitVec 3) (conv : Bool) (mask : BitVec 3) (s : State) : Out :=
  vecAtomic (intAtom 64 (· + ·)) 8 true vs base idx token conv mask s

/-- `vamominWDup`: R162, R165. -/
def execVamominWDup (vs base idx : BitVec 5) (token : BitVec 3) (conv : Bool) (mask : BitVec 3) (s : State) : Out :=
  vecAtomic (intAtom 32 minW) 4 true vs base idx token conv mask s

/-- `vamomaxWDup`: R162, R165. -/
def execVamomaxWDup (vs base idx : BitVec 5) (token : BitVec 3) (conv : Bool) (mask : BitVec 3) (s : State) : Out :=
  vecAtomic (intAtom 32 maxW) 4 true vs base idx token conv mask s

/-- `vamoaddF32Dup`: R162, R165. -/
def execVamoaddF32Dup (vs base idx : BitVec 5) (token : BitVec 3) (conv : Bool) (mask : BitVec 3) (s : State) : Out :=
  vecAtomic addF32 4 true vs base idx token conv mask s

/-- `vamoaddF16Dup`: R162, R165. -/
def execVamoaddF16Dup (vs base idx : BitVec 5) (token : BitVec 3) (orient conv : Bool) (mask : BitVec 3) (s : State) : Out :=
  vecAtomic (fun s => packOp s .f16 orient) 4 true vs base idx token conv mask s

/-- `vamoaddBf16Dup`: R162, R165. -/
def execVamoaddBf16Dup (vs base idx : BitVec 5) (token : BitVec 3) (orient conv : Bool) (mask : BitVec 3) (s : State) : Out :=
  vecAtomic (fun s => packOp s .bf16 orient) 4 true vs base idx token conv mask s

/-! ## Spill frames (R166) -/

/-- The access of a vector frame: unit stride at SEW. -/
def frameAcc (s : State) (base : BitVec 5) (token : BitVec 3) (perm : Nat) : VAcc :=
  { form := .unit, base := s.x base, token := token, col := false, w := s.sew / 8, perm := perm }

/-- The eight bytes k of a mask frame: bit (j, i) at byte 128j + i div 8 (R166). -/
def maskWord (h : Hart) (n : BitVec 3) (k : Nat) : Nat := bitsOf (h.mask n).toNat (64 * k) 64

/-- Element k of a mask frame, 8 bytes each, as an access of one row. -/
def maskAcc (s : State) (base : BitVec 5) (token : BitVec 3) (perm : Nat) : VAcc :=
  { form := .strided 0, base := s.x base, token := token, col := false, w := 8, perm := perm }

/-- The 128 elements of a mask frame. -/
def maskFrame : List (Nat × Nat) := (List.range 128).map fun k => (0, k)

/-- A trap in a mask frame leaves `vstart` at 0 (R166, R252). -/
def restartWhole : Res State → Res State
  | .error (s, t) => .error (s.stopAt 0 0, t)
  | .ok s => .ok s

/-- Stores element k of a mask frame. -/
def putMaskWord (a : VAcc) (n : BitVec 3) (s : State) (p : Nat × Nat) : State :=
  let e := (a.addr s 0 p.2).toNat
  let data := leBytes 8 (maskWord s.h n p.2)
  if a.token = 0 then s.setC (s.c.spPut e data) else writeLoc s s.agent (a.loc s 0 p.2) data

/-- The mask register that a mask frame holds is written whole once every element has been read. -/
def readMaskWords (a : VAcc) : List (Nat × Nat) → State → Except (State × Trap) (List Nat × State)
  | [], s => .ok ([], s)
  | p :: ps, s =>
    match a.read s p.1 p.2 with
    | .error e => .error e
    | .ok (v, s) =>
      match readMaskWords a ps s with
      | .error e => .error e
      | .ok (vs, s) => .ok (v :: vs, s)

/-- A vector frame stored (R166), over the positions before `vstop` where `bound` says so. -/
def spillFrame (vs base : BitVec 5) (token : BitVec 3) (conv bound : Bool) (s : State) : Out :=
  vecMem s { conv := conv, units := portOf token, cross := false, rv := groupRegs s vs, rm := [], wv := [], wm := [] }
    (firstTrap [checkStart s, checkGroup s vs])
    fun s => storeEff (frameAcc s base token 1) vs false false (reached s bound) s

/-- A vector frame loaded (R166), over the positions before `vstop` where `bound` says so. -/
def fillFrame (vd base : BitVec 5) (token : BitVec 3) (conv bound : Bool) (s : State) : Out :=
  vecMem s { conv := conv, units := portOf token, cross := false, rv := [], rm := [], wv := groupRegs s vd, wm := [] }
    (firstTrap [checkStart s, checkGroup s vd])
    fun s =>
      let a := frameAcc s base token 0
      match a.checks s (fun _ _ => 0) (reached s bound) with
      | some t => .error (s, t)
      | none => eachPos (a.loadElem vd) (reached s bound) s

/-- `vspill`: a vector frame (kind 0), which ignores `vstop`, or a mask frame (kind 1), R166. -/
def execVspill (vs base kind : BitVec 5) (token : BitVec 3) (conv : Bool) (s : State) : Out :=
  if kind = 0 then spillFrame vs base token conv false s
  else
    vecMem s { conv := conv, units := portOf token, cross := false, rv := [], rm := [vs.toNat], wv := [], wm := [] } none
      fun s =>
        let a := maskAcc s base token 1
        match a.checks s (fun _ _ => 0) maskFrame with
        | some t => restartWhole (.error (s, t))
        | none => .ok (maskFrame.foldl (putMaskWord a (vs.setWidth 3)) (strongRelease s))

/-- `vfill`: R166. `vfill m0` is an illegal operand. -/
def execVfill (vd base kind : BitVec 5) (token : BitVec 3) (conv : Bool) (s : State) : Out :=
  if kind = 0 then fillFrame vd base token conv false s
  else
    vecMem s { conv := conv, units := portOf token, cross := false, rv := [], rm := [], wv := [], wm := [vd.toNat] }
      (need (vd ≠ 0) 0)
      fun s =>
        let a := maskAcc s base token 0
        match a.checks s (fun _ _ => 0) maskFrame with
        | some t => restartWhole (.error (s, t))
        | none =>
          match readMaskWords a maskFrame s with
          | .error e => restartWhole (.error e)
          | .ok (ws, s) =>
            .ok (s.setH (s.h.setMask (vd.setWidth 3)
              (BitVec.ofNat 8192 (ws.foldr (fun w acc => w + 2 ^ 64 * acc) 0))))

end Sys2Proof.Machine
end

