-- ==== Sys2Proof/Machine/SluiceOps.lean ====
section
/-! DEFINITION. The Sluice copy engine: major 0x3B, the chunks of running requests and their faults (R195 to R201, R301, R392,
R393, R412). -/

namespace Sys2Proof.Machine

/-! ## Requests as issued (R195 to R197) -/

/-- Registers of the run a form reads (R195). -/
def SForm.runLen : SForm → Nat
  | .copyIn | .copyOut => 1
  | .gatherRow | .gatherCol => 3
  | _ => 2

/-- The form moves global memory into the scratchpad. -/
def SForm.isIn : SForm → Bool
  | .copyIn | .in2Row | .in2Col | .gatherRow | .gatherCol => true
  | _ => false

def SForm.isCol : SForm → Bool
  | .in2Col | .out2Col | .gatherCol => true
  | _ => false

/-- A two-dimensional form. -/
def SForm.is2d : SForm → Bool
  | .in2Row | .in2Col | .out2Row | .out2Col => true
  | _ => false

def SForm.isGather : SForm → Bool
  | .gatherRow | .gatherCol => true
  | _ => false

/-- Rows of a request: a one-dimensional one has a single row. -/
def SluiceReq.nrows (r : SluiceReq) : Nat := if r.form.is2d then r.rows else if r.form.isGather then r.idxs.length else 1

/-- Global address of the start of row n (R197). -/
def SluiceReq.rowStart (r : SluiceReq) (n : Nat) : Word :=
  if r.form.isGather then r.base + r.pitch * BitVec.ofNat 64 (r.idxs.getD n 0) else r.base + r.pitch * BitVec.ofNat 64 n

/-- Scratchpad offset of byte b of row n (R197). -/
def SluiceReq.spAt (r : SluiceReq) (n b : Nat) : Nat :=
  if r.form.isCol then r.spoff + 512 * (b / 4) + 4 * n + b % 4
  else if r.form.is2d || r.form.isGather then r.spoff + 512 * n + b
  else r.spoff + b

/-- Row and byte of a transfer position (R197). -/
def SluiceReq.rowByte (r : SluiceReq) (p : Nat) : Nat × Nat :=
  if r.form.isGather then (p / 512, p % 512) else if r.form.is2d then (p / r.len, p % r.len) else (0, p)

/-- Transfer positions of a request. -/
def SluiceReq.total (r : SluiceReq) : Nat := if r.form.isGather then 512 * r.idxs.length else r.len * r.nrows

/-- Chunks of a request (R197). -/
def SluiceReq.chunkCount (r : SluiceReq) : Nat := (r.total + 511) / 512

/-- The 32-bit words of chunk q: global address and scratchpad offset (R197). -/
def SluiceReq.words (r : SluiceReq) (q : Nat) : List (Word × Nat) :=
  (List.range 128).filterMap fun i =>
    let p := 512 * q + 4 * i
    let (n, b) := r.rowByte p
    if p < r.total ∧ b < r.len then some (r.rowStart n + BitVec.ofNat 64 b, r.spAt n b) else none

/-! ## Issue (R197, R198) -/

/-- Fields of a copy descriptor (R196). -/
def cdChunk0 (d : Word) : Nat := bitsOf d.toNat 51 13
def cdLen (d : Word) : Nat := bitsOf d.toNat 32 19
def cdToken (d : Word) : BitVec 3 := BitVec.ofNat 3 (bitsOf d.toNat 28 3)
def cdSpoff (d : Word) : Nat := bitsOf d.toNat 0 18

/-- A request with the operands of its run (R196); `d`, `e` and `f` are the run's registers. -/
def makeReq (s : State) (form : SForm) (mask : BitVec 3) (base d e f : Word) (idxs : List Nat) : SluiceReq :=
  let r : SluiceReq :=
    { id := 0, form := form, hart := s.hartNo, serial := s.h.serial, priv := s.priv
      base := if form.isGather then e else base
      spoff := cdSpoff d, len := cdLen d, rows := if form.is2d then bitsOf e.toNat 0 10 else 1
      pitch := if form.isGather then f else if form.is2d then BitVec.ofInt 64 (signedOf 32 (e.toNat / 2 ^ 32)) else 0
      token := cdToken d, mask := mask, chunk0 := cdChunk0 d, idxs := idxs, pin := s.pin (cdToken d)
      dst := realCoord s (base.setWidth 32), desc := e, chunks := [] }
  { r with chunks := List.replicate r.chunkCount .todo }

/-- Step 2 of the issue checks: reserved fields and ranges (R196, R197). -/
def issueFields (s : State) (r : SluiceReq) (base d e : Word) : Option Trap :=
  let rowForm := r.form.is2d || r.form.isGather
  firstTrap [
    need (!bitOf d.toNat 31 && decide (bitsOf d.toNat 18 10 = 0) && decide (r.len % 4 = 0) && decide (4 ≤ r.len)
      && decide (r.len ≤ if rowForm then 512 else 0x40000)) d,
    if r.form.is2d then
      need (decide (bitsOf e.toNat 10 22 = 0) && decide (1 ≤ r.rows) && decide (r.rows ≤ if r.form.isCol then 128 else 512)) e
    else none,
    if r.form = .gatherCol then need (decide (r.idxs.length ≤ 128)) s.wordVal else none,
    if r.form = .toCore then
      firstTrap [need (decide (r.token = 0) && decide (r.chunk0 = 0)) d, need (descOk e && decide (descLen e = 0)) e,
        need (coordOk base) base]
    else none,
    need (decide (r.chunk0 + r.chunks.length ≤ 8192)) d]

/-- Step 3: the local scratchpad range and alignment, and the receiver's for `scopyr` (R197). -/
def issueRange (r : SluiceReq) (e : Word) : Option Trap :=
  let off := BitVec.ofNat 64 r.spoff
  let top := if r.nrows = 0 then 0
    else if r.form.isCol then r.spoff + 512 * (r.len / 4 - 1) + 4 * (r.nrows - 1) + 4
    else if r.form.is2d || r.form.isGather then r.spoff + 512 * (r.nrows - 1) + r.len
    else r.spoff + r.len
  if 0x40000 < top then some (Trap.of 0x0E2 off)
  else if r.spoff % 4 ≠ 0 then some (Trap.of 0x0E0 off)
  else if r.form = .toCore then
    let o := descOffset e
    if 0x40000 < o + r.len then some (Trap.of 0x0E2 (BitVec.ofNat 64 o))
    else if o % 4 ≠ 0 then some (Trap.of 0x0E0 (BitVec.ofNat 64 o))
    else none
  else none

/-- Steps 4 and 5: canonical and aligned row starts, and the pin (R197). -/
def issueGlobal (r : SluiceReq) : Option Trap :=
  if r.form = .toCore then none
  else
    let rows := (List.range r.nrows).map r.rowStart
    let canon := rows.findSome? fun g =>
      if canonical g = false then some (Trap.of 0x0E1 g) else if g.toNat % 4 ≠ 0 then some (Trap.of 0x0E0 g) else none
    let pinned :=
      if r.token = 0 then none
      else
        match r.pin with
        | none => some (Trap.of 0x080 (r.token.setWidth 64))
        | some p =>
          firstTrap [
            rows.findSome? fun g =>
              if p.base.toNat ≤ g.toNat ∧ g.toNat + r.len ≤ p.base.toNat + p.len then none else some (Trap.of 0x081 g),
            if p.perms.getLsbD (if r.form.isIn then 0 else 1) then none
            else rows.head?.map fun g => Trap.of 0x082 g]
    canon.orElse fun _ => pinned

/-- Step 6: the reach and the overlap rule of `scopyr` (R197, R200). -/
def issueReach (s : State) (r : SluiceReq) (base e : Word) : Option Trap :=
  if r.form = .toCore then
    let o := descOffset e
    if inReach s (base.setWidth 32) = false then some (Trap.of 0x104 base)
    else if r.dst = s.c.coreid ∧ o < r.spoff + r.len ∧ r.spoff < o + r.len ∧ r.spoff ≤ o then
      some (Trap.of 0x105 (BitVec.ofNat 64 r.spoff))
    else none
  else none

/-- All the issue checks in order (R197). -/
def issueCheck (s : State) (r : SluiceReq) (base d e : Word) : Option Trap :=
  firstTrap [issueFields s r base d e, issueRange r e, issueGlobal r, issueReach s r base e]

/-- The request is issued on its channel (R198): it takes the channel's next identifier. A request without chunks is complete. The
hart's earlier stores come first (R301). -/
def issued (s : State) (rd : BitVec 5) (ch : BitVec 2) (r : SluiceReq) : State :=
  let s := flushAll s s.agent
  let q := s.c.sluice
  let c := q.chans.get ch.toFin
  let c1 : SChan := { next := c.next + 1, reqs := if r.chunks = [] then c.reqs else c.reqs ++ [{ r with id := c.next }] }
  (s.setC { s.c with sluice := { q with chans := q.chans.set ch.toNat c1 ch.isLt } }).setX rd (c.next.setWidth 64)

/-- The channel has 64 requests outstanding (R198). -/
def chanFull (s : State) (ch : BitVec 2) : Bool := decide (64 ≤ (s.c.sluice.chans.get ch.toFin).reqs.length)

/-- A scalar Sluice request. -/
def sluiceOp (form : SForm) (rd xa xp : BitVec 5) (mask : BitVec 3) (ch : BitVec 2) (s : State) : Out :=
  let base := s.x xa
  let d := s.runReg xp 0
  let e := if 1 < form.runLen then s.runReg xp 1 else 0
  let r := makeReq s form mask base d e 0 []
  match firstTrap [need (runOk xp form.runLen) (xp.setWidth 64), issueCheck s r base d e] with
  | some t => raise s t
  | none => if chanFull s ch then waiting s 0x07 (ch.setWidth 6) 0 else finish (issued s rd ch r)

/-- `scopyin`: R197, R198. -/
def execScopyin (rd xa xp : BitVec 5) (mask : BitVec 3) (ch : BitVec 2) (s : State) : Out :=
  sluiceOp .copyIn rd xa xp mask ch s

/-- `scopyout`: R197, R198. -/
def execScopyout (rd xa xp : BitVec 5) (mask : BitVec 3) (ch : BitVec 2) (s : State) : Out :=
  sluiceOp .copyOut rd xa xp mask ch s

/-- `scopy2in.row`: R197, R198. -/
def execScopy2inRow (rd xa xp : BitVec 5) (mask : BitVec 3) (ch : BitVec 2) (s : State) : Out :=
  sluiceOp .in2Row rd xa xp mask ch s

/-- `scopy2in.col`: R197, R198. -/
def execScopy2inCol (rd xa xp : BitVec 5) (mask : BitVec 3) (ch : BitVec 2) (s : State) : Out :=
  sluiceOp .in2Col rd xa xp mask ch s

/-- `scopy2out.row`: R197, R198. -/
def execScopy2outRow (rd xa xp : BitVec 5) (mask : BitVec 3) (ch : BitVec 2) (s : State) : Out :=
  sluiceOp .out2Row rd xa xp mask ch s

/-- `scopy2out.col`: R197, R198. -/
def execScopy2outCol (rd xa xp : BitVec 5) (mask : BitVec 3) (ch : BitVec 2) (s : State) : Out :=
  sluiceOp .out2Col rd xa xp mask ch s

/-- `scopyr`: R200. -/
def execScopyr (rd xc xp : BitVec 5) (ch : BitVec 2) (s : State) : Out := sluiceOp .toCore rd xc xp 0 ch s

/-- The elements of a gather: those of row 0 below `vl` and before any `vstop` bound (R197). -/
def gatherIdxs (s : State) (vi : BitVec 5) : List Nat :=
  ((List.range s.vl).filter fun i => beforeStop s.h.shape.vstop 0 i).map fun i => s.h.elem vi.toNat s.sew 0 i

/-- A gather: it enters the vector queue, claims the Sluice command port and reads vi across groups (R195). -/
def gatherOp (form : SForm) (rd vi xp : BitVec 5) (mask : BitVec 3) (ch : BitVec 2) (s : State) : Out :=
  let d := s.runReg xp 0
  let e := s.runReg xp 1
  let r := makeReq s form mask 0 d e (s.runReg xp 2) (gatherIdxs s vi)
  let st := s.h.shape.vstart
  match firstTrap [need (decide (st = 0)) st, need (runOk xp 3) (xp.setWidth 64), issueFields s r 0 d e] with
  | some t => raise s t
  | none =>
    match joinConvoy s { conv := false, units := unitSluice, cross := true, rv := [vi.toNat], rm := [], wv := [], wm := [] } with
    | .error a => refuseConvoy s a
    | .ok cv =>
      match firstTrap [issueRange r e, issueGlobal r] with
      | some t => raise s t
      | none => if chanFull s ch then waiting s 0x07 (ch.setWidth 6) 0 else finish ((issued s rd ch r).vdone cv)

/-- `sgather.row`: R197. -/
def execSgatherRow (rd vi xp : BitVec 5) (mask : BitVec 3) (ch : BitVec 2) (s : State) : Out :=
  gatherOp .gatherRow rd vi xp mask ch s

/-- `sgather.col`: R197. -/
def execSgatherCol (rd vi xp : BitVec 5) (mask : BitVec 3) (ch : BitVec 2) (s : State) : Out :=
  gatherOp .gatherCol rd vi xp mask ch s

/-! ## Observing (R43, R198, R201) -/

/-- The request of an identifier is complete: it has been issued and is not among those outstanding (R198). -/
def SChan.complete (c : SChan) (id : BitVec 32) : Bool :=
  !(c.reqs.any fun r => decide (r.id = id)) && decide (1 ≤ (c.next - id).toNat) && decide ((c.next - id).toNat ≤ 2 ^ 31)

/-- A record of the chunk waits: for room in the fault queue, or for its page request (R201, R393). -/
def ChunkState.isBlocked : ChunkState → Bool
  | .blocked _ _ _ | .asking _ _ _ => true
  | _ => false

/-- The request has a record in the fault queue, or one that waits to enter it (R201). -/
def Sluice.hasRecord (q : Sluice) (ch : BitVec 2) (id : BitVec 32) : Bool :=
  (q.faults ++ q.late).any (fun f => decide (f.chan = ch) && decide (f.id = id))
    || (q.chans.get ch.toFin).reqs.any fun r => decide (r.id = id) && r.chunks.any ChunkState.isBlocked

/-- `swait`: R201. -/
def execSwait (rd xt : BitVec 5) (ch : BitVec 2) (s : State) : Out :=
  let id : BitVec 32 := (s.x xt).setWidth 32
  let q := s.c.sluice
  if (q.chans.get ch.toFin).complete id then finish (s.setX rd 0)
  else if q.hasRecord ch id then finish (s.setX rd 1)
  else waiting s 0x08 (ch.setWidth 6) 0

/-- Bytes of a fault record (R201). -/
def SluiceFault.bytes (f : SluiceFault) : List Byte :=
  leBytes 4 f.id.toNat ++ leBytes 1 f.chan.toNat ++ leBytes 1 f.hart.toNat ++ leBytes 1 f.kind.toNat ++ [0]
    ++ leBytes 8 f.vaddr.toNat ++ leBytes 4 f.first.toNat ++ leBytes 4 f.count.toNat ++ leBytes 2 f.cause.toNat
    ++ List.replicate 6 0

/-- The first record that waits to enter the fault queue: its request's channel, the record, and its chunks (R201). -/
def Sluice.waitingRecord (q : Sluice) : Option SluiceFault :=
  (List.range 4).findSome? fun ch =>
    (q.chans.get (Fin.ofNat 4 ch)).reqs.findSome? fun r =>
      (List.range r.chunks.length).findSome? fun i =>
        match r.chunks.getD i ChunkState.todo with
        | .blocked kind va cause =>
          let n := ((r.chunks.drop i).takeWhile fun x => decide (x = .blocked kind va cause)).length
          some { id := r.id, chan := BitVec.ofNat 2 ch, hart := BitVec.ofNat 3 r.hart, kind := kind, vaddr := va
                 first := BitVec.ofNat 32 i, count := BitVec.ofNat 32 n, cause := cause }
        | _ => none

/-- Chunks [first, first + n) of a request in a new state. -/
def SluiceReq.mark (r : SluiceReq) (first n : Nat) (st : ChunkState) : SluiceReq :=
  { r with chunks := r.chunks.mapIdx fun i x => if first ≤ i ∧ i < first + n then st else x }

/-- A record that waits enters the queue once it has room (R201); second records come first (log 26). -/
def Sluice.refill (q : Sluice) : Sluice :=
  if 16 ≤ q.faults.length then q
  else
    match q.late, q.waitingRecord with
    | f :: r, _ => { q with faults := q.faults ++ [f], late := r }
    | [], some f => { q with faults := q.faults ++ [f] }.updateReq f.chan f.id fun r => r.mark f.first.toNat f.count.toNat .faulted
    | [], none => q

/-- `sfault`: R201. -/
def execSfault (rd xs : BitVec 5) (s : State) : Out :=
  let o := s.x xs
  if o.toNat % 32 ≠ 0 then raise s (Trap.of 0x0E0 o)
  else if 0x40000 < o.toNat + 32 then raise s (Trap.of 0x0E2 o)
  else
    match s.c.sluice.faults with
    | [] => finish (s.setX rd 0)
    | f :: r =>
      let c := s.c.spPut o.toNat f.bytes
      finish ((s.setC { c with sluice := ({ c.sluice with faults := r }).refill }).setX rd 1)

/-- A chunk that stands still until it is issued again: a record has left it, or waits to (R201, R412). -/
def ChunkState.stands (x : ChunkState) : Bool := decide (x = .faulted) || x.isBlocked

/-- Unfinished chunks that records have left or will leave (R201, R412). -/
def SluiceReq.faultedCount (r : SluiceReq) : Nat := (r.chunks.filter ChunkState.stands).length

/-- `sreplay`: R201. -/
def execSreplay (rd xt : BitVec 5) (ch : BitVec 2) (s : State) : Out :=
  let id : BitVec 32 := (s.x xt).setWidth 32
  match s.c.sluice.find ch id with
  | none => finish (s.setX rd 0)
  | some r =>
    let q := s.c.sluice.updateReq ch id fun r =>
      { r with chunks := r.chunks.map fun x => if x.stands then .todo else x }
    finish ((s.setC { s.c with sluice := q }).setX rd (BitVec.ofNat 64 r.faultedCount))

/-! ## Running (R198, R200, R201, R301, R393, R412) -/

/-- Why a chunk stops. -/
inductive ChunkFault where
  /-- A translation failure or an I/O page, with the size of the page it concerns. -/
  | xlat (va : Word) (cause : BitVec 16) (size : Nat)
  /-- A host page without a translation: a page request goes to the host (R393). -/
  | page (va : Word) (cause : BitVec 16) (page : Nat)
  /-- A host page of a context without a PASID (R393). -/
  | noPasid (va : Word) (cause : BitVec 16)
  | poison (at_ : Word) (cause : BitVec 16)
  deriving DecidableEq, Repr

/-- A place that a Sluice request with `token` 0 accesses: a host page needs an ATS translation, which the host gives or does not; a page it does
not give is asked for (R391, R393). -/
def sluiceHost (s : State) (site acc : Nat) (g : Word) (loc : Loc) : Except (State × ChunkFault) (Loc × State) :=
  match loc, ctxOfAgent s site with
  | .host h, some (_, c) =>
    let cause : BitVec 16 := BitVec.ofNat 16 (0x0A0 + 16 * acc)
    if c.pasidEn = false then .error (s, .noPasid g cause)
    else if s.hostif.ats.contains (c.pasid, h / 4096) then .ok (loc, s)
    else if (hostPage s (c.hostPlace h)).ats then
      let ats := if s.hostif.ats.length < 1024 then s.hostif.ats else s.hostif.ats.drop 1
      .ok (loc, { s with hostif := { s.hostif with ats := ats ++ [(c.pasid, h / 4096)] } })
    else .error (s, .page g cause (h / 4096 * 4096))
  | _, _ => .ok (loc, s)

/-- Where a word of a request lies, its translation made for the Sluice through the L2 TLB (R198, R368, R393). -/
def sluiceLoc (s : State) (site : Nat) (r : SluiceReq) (g : Word) : Except (State × ChunkFault) (Loc × State) :=
  let acc := if r.form.isIn then 0 else 1
  let asLoc := fun l : Loc => match l with | .ctl _ => Loc.hole | l => l
  if r.token ≠ 0 then
    .ok ((r.pin.map fun p => p.locate site (dieOfAgent site) g.toNat).getD .hole, s)
  else if r.priv = 3 then sluiceHost s site acc g (asLoc (physLoc site g.toNat))
  else
    match translate s site g acc (r.priv = 0) true with
    | .error c => .error (s, .xlat g (c.setWidth 16) (2 ^ (12 + 9 * (c.toNat % 4))))
    | .ok (x, s) =>
      if x.io then .error (s, .xlat g 0x086 4096) else sluiceHost s site acc g x.loc

/-- The places of a chunk's words, in order; the first that cannot be reached stops the chunk. -/
def chunkPlaces (s : State) (site : Nat) (r : SluiceReq) :
    List (Word × Nat) → Except (State × ChunkFault) (List (Word × Nat × Loc) × State)
  | [] => .ok ([], s)
  | w :: ws =>
    match sluiceLoc s site r w.1 with
    | .error e => .error e
    | .ok (l, s) =>
      match chunkPlaces s site r ws with
      | .error e => .error e
      | .ok (ps, s) => .ok ((w.1, w.2, l) :: ps, s)

/-- The poison that a chunk's read consumes at one word, if any (R201, R240, R250, R392). -/
def wordPoison (s : State) (site : Nat) (r : SluiceReq) (p : Word × Nat × Loc) : Option ChunkFault :=
  if r.form.isIn then
    match p.2.2 with
    | .dev pa =>
      (poisonAt s pa 4).map fun e =>
        ChunkFault.poison (BitVec.ofNat 64 (p.1.toNat / 8 * 8)) (BitVec.ofNat 16 (0x140 + e.2.toNat))
    | .host h => if hostRefuses s site h false then some (.poison p.1 0x144) else none
    | _ => none
  else (spBadAt (s.coreOf site) p.2.1 4).map fun w => ChunkFault.poison (BitVec.ofNat 64 (4 * w)) 0x143

/-- Copies one word (R198). -/
def copyWord (site : Nat) (r : SluiceReq) (s : State) (p : Word × Nat × Loc) : State :=
  let c := s.coreOf site
  if r.form.isIn then
    match p.2.2 with
    | .dev pa =>
      let s := bypass s site pa 4
      s.setCoreOf site ((s.coreOf site).spPut p.2.1 (readBytes s.mem pa 4))
    | .host h =>
      let s := hostSync s site
      s.setCoreOf site ((s.coreOf site).spPut p.2.1 (hostBytes s site h 4))
    | _ => s.setCoreOf site (c.spPut p.2.1 [0, 0, 0, 0])
  else writeLoc s site p.2.2 (readBytes c.sp p.2.1 4)

/-- The chunks of a request that are not finished and touch a page, as contiguous runs: first chunk, length, first address of
the run in the page (R201, R412). -/
def pageRuns (r : SluiceReq) (lo size : Nat) : List (Nat × Nat × Word) :=
  let hits := fun q => r.chunks[q]? = some .todo && (r.words q).any fun w => decide (lo ≤ w.1.toNat) && decide (w.1.toNat < lo + size)
  let qs := (List.range r.chunks.length).filter hits
  let starts := qs.filter fun q => q = 0 || !qs.contains (q - 1)
  starts.map fun q =>
    let n := ((List.range (r.chunks.length - q)).takeWhile fun i => qs.contains (q + i)).length
    let va := (((r.words q).filter fun w => decide (lo ≤ w.1.toNat) && decide (w.1.toNat < lo + size)).map fun w => w.1.toNat).min?
    (q, n, BitVec.ofNat 64 (va.getD lo))

/-- One record is added, or waits for room with its chunks blocked (R201). -/
def Sluice.fault (q : Sluice) (ch : BitVec 2) (r : SluiceReq) (kind : BitVec 8) (cause : BitVec 16)
    (run : Nat × Nat × Word) : Sluice :=
  if q.faults.length < 16 then
    let f : SluiceFault :=
      { id := r.id, chan := ch, hart := BitVec.ofNat 3 r.hart, kind := kind, vaddr := run.2.2
        first := BitVec.ofNat 32 run.1, count := BitVec.ofNat 32 run.2.1, cause := cause }
    { q with faults := q.faults ++ [f] }.updateReq ch r.id fun r => r.mark run.1 run.2.1 .faulted
  else q.updateReq ch r.id fun r => r.mark run.1 run.2.1 (.blocked kind run.2.2 cause)

/-- Records of a list of runs. -/
def Sluice.faultRuns (q : Sluice) (ch : BitVec 2) (r : SluiceReq) (kind : BitVec 8) (cause : BitVec 16)
    (runs : List (Nat × Nat × Word)) : Sluice :=
  runs.foldl (fun q run => q.fault ch r kind cause run) q

def State.mapSluice (s : State) (site : Nat) (f : Sluice → Sluice) : State :=
  let c := s.coreOf site
  s.setCoreOf site { c with sluice := f c.sluice }

/-- A page request goes to the host for the unfinished chunks of a request that touch the page, and its records are written (R201, R393). -/
def askPage (s : State) (site : Nat) (ch : BitVec 2) (r : SluiceReq) (va : Word) (cause : BitVec 16) (page : Nat) : State :=
  let runs := pageRuns r (va.toNat / 4096 * 4096) 4096
  let pasid := match ctxOfAgent s site with | some (_, c) => c.pasid | none => 0
  let s := { s with hostif := { s.hostif with
    prgs := s.hostif.prgs ++ [({ core := site, chan := ch, id := r.id, runs := runs, page := page, pasid := pasid, cause := cause } : PageReq)] } }
  s.mapSluice site fun u => u.faultRuns ch r 1 cause runs

/-- A chunk stops: its fault is recorded, with a page request first where the host has no translation; while 512 page requests are
outstanding the chunk waits to make its own, and its channel with it (R201, R393, R412). -/
def chunkFault (s : State) (site : Nat) (ch : BitVec 2) (r : SluiceReq) (q : Nat) : ChunkFault → State
  | .xlat va cause size => s.mapSluice site fun u => u.faultRuns ch r 0 cause (pageRuns r (va.toNat / size * size) size)
  | .noPasid va cause => s.mapSluice site fun u => u.faultRuns ch r 2 cause (pageRuns r (va.toNat / 4096 * 4096) 4096)
  | .poison a cause => s.mapSluice site fun u => u.fault ch r 3 cause (q, 1, a)
  | .page va cause page =>
    if 512 ≤ s.hostif.prgs.length then s.mapSluice site fun u => u.updateReq ch r.id fun r => r.mark q 1 (.asking va cause page)
    else askPage s site ch r va cause page

/-- A chunk that waits to make its page request makes it once fewer than 512 are outstanding (R393). -/
def askAgain (s : State) (site : Nat) (ch : BitVec 2) (r : SluiceReq) (va : Word) (cause : BitVec 16) (page : Nat) : State :=
  if 512 ≤ s.hostif.prgs.length then s
  else askPage s site ch { r with chunks := r.chunks.map fun x => if x = .asking va cause page then .todo else x } va cause page

/-- The chunk is finished: its mask bit is set, and a request whose chunks are all finished is complete (R198). -/
def chunkDone (s : State) (site : Nat) (ch : BitVec 2) (r : SluiceReq) (q : Nat) : State :=
  let k := 8 * site + r.hart
  let b := r.chunk0 + q
  let s := if r.mask = 0 then s else s.setHartOf k ((s.hartOf k).setMaskBit r.mask (b / 1024) (b % 1024) true)
  s.mapSluice site fun u => u.updateReq ch r.id fun r => r.mark q 1 .done

/-- One chunk of a copy between global memory and the scratchpad is performed (R198). -/
def runChunk (s : State) (site : Nat) (ch : BitVec 2) (r : SluiceReq) (q : Nat) : State :=
  match chunkPlaces s site r (r.words q) with
  | .error (s, f) => chunkFault s site ch r q f
  | .ok (ps, s) =>
    match ps.findSome? (wordPoison s site r) with
    | some f => chunkFault s site ch r q f
    | none => chunkDone (ps.foldl (copyWord site r) s) site ch r q

/-- Part i of a `scopyr` as a message (R200, R313). -/
def partMessage (s : State) (site : Nat) (ch : BitVec 2) (r : SluiceReq) (i : Nat) : Message :=
  let c := s.coreOf site
  let lo := 4096 * i
  let n := min (r.len - lo) 4096
  let off := descOffset r.desc + lo
  { src := c.coreid, dst := r.dst
    desc := BitVec.ofNat 64 (n * 2 ^ 32 + b2n (descWake r.desc) * 2 ^ 29 + descTag r.desc * 2 ^ 24 + descChan r.desc * 2 ^ 18 + off)
    kind := 4, width := 0, rownib := BitVec.ofNat 16 (((r.len + 4095) / 4096 - 1) * 256 + i)
    data := readBytes c.sp (r.spoff + lo) n
    ctag := match ctxOfAgent s site with | some (_, c) => c.tag | none => 0
    hart := 8 * site + r.hart, serial := r.serial, req := some (ch, r.id), copy := copyId ch r.id c.part.launch, launch := c.part.launch }

/-- The next part of a `scopyr` is cut, in ascending order: none while an earlier part waits for its replay. Poison in its source is recorded
(R200, R201). -/
def runPart (s : State) (site : Nat) (ch : BitVec 2) (r : SluiceReq) : State :=
  match (List.range r.chunks.length).find? fun q => r.chunks[q]? ≠ some .sent ∧ r.chunks[q]? ≠ some .done with
  | none => s
  | some q0 =>
    if r.chunks[q0]? ≠ some .todo then s else
    let i := q0 / 8
    let n := min (r.len - 4096 * i) 4096
    match spBadAt (s.coreOf site) (r.spoff + 4096 * i) n with
    | some w =>
      let cnt := min 8 (r.chunks.length - 8 * i)
      s.mapSluice site fun u => u.fault ch r 3 0x143 (8 * i, cnt, BitVec.ofNat 64 (4 * w))
    | none =>
      match hand s site (partMessage s site ch r i) with
      | none => s
      | some s => s.mapSluice site fun u => u.updateReq ch r.id fun r =>
          { r with chunks := r.chunks.mapIdx fun q x => if inPart i q then .sent else x }

/-- The channel is stopped: a record of it waits for room in the fault queue, or a page request to be made (R201, R393). -/
def Sluice.stopped (q : Sluice) (ch : BitVec 2) : Bool :=
  q.late.any (fun f => decide (f.chan = ch)) || (q.chans.get ch.toFin).reqs.any fun r => r.chunks.any ChunkState.isBlocked

/-- A chunk of a request runs, in any order (R198); one that waits to make its page request makes it (R393). -/
def sluiceChunkEff (s : State) (site : Nat) (ch : BitVec 2) (id : BitVec 32) (q : Nat) : State :=
  let u := (s.coreOf site).sluice
  match u.find ch id with
  | none => s
  | some r =>
    match r.chunks[q]? with
    | some (.asking va cause page) => askAgain s site ch r va cause page
    | some .todo =>
      if u.stopped ch then s
      else if r.form = .toCore then runPart s site ch r
      else runChunk s site ch r q
    | _ => s

/-! ## Page requests (R393) -/

/-- A further record of kind 2 for chunks that a record has left, which stay as that record left them; where the queue is full it waits for room
(R201, R412). -/
def Sluice.faultAgain (q : Sluice) (ch : BitVec 2) (r : SluiceReq) (cause : BitVec 16) (run : Nat × Nat × Word) : Sluice :=
  let f : SluiceFault :=
    { id := r.id, chan := ch, hart := BitVec.ofNat 3 r.hart, kind := 2, vaddr := run.2.2, first := BitVec.ofNat 32 run.1
      count := BitVec.ofNat 32 run.2.1, cause := cause }
  if q.faults.length < 16 then { q with faults := q.faults ++ [f] } else { q with late := q.late ++ [f] }

/-- The record of kind 2 that a refusal or a missing response adds to the chunks the first record left (R393). -/
def refusedPage (s : State) (p : PageReq) : State :=
  s.mapSluice p.core fun u =>
    match u.find p.chan p.id with
    | none => u
    | some r => p.runs.foldl (fun u run => u.faultAgain p.chan r p.cause run) u

/-- The response to a page request: on success the record stands and the program replays (R393). -/
def pageResponse (s : State) (i : Nat) (ok : Bool) : State :=
  match s.hostif.prgs[i]? with
  | none => s
  | some p =>
    let s := { s with hostif := { s.hostif with prgs := s.hostif.prgs.eraseIdx i } }
    if ok then s else refusedPage s p

end Sys2Proof.Machine
end

