-- ==== Sys2Proof/Machine/TaskOps.lean ====
section
/-! DEFINITION. Weir, task, launch and work-graph instructions: major 0x3C (R202 to R211, R277, R278). -/

namespace Sys2Proof.Machine

/-! ## Weir (R203, R204) -/

/-- Bit c of a 16-bit set. -/
def inSet (v : BitVec 16) (c : BitVec 4) : Bool := v.getLsbD c.toNat

def setBit16 (v : BitVec 16) (c : BitVec 4) (b : Bool) : BitVec 16 :=
  if b then v ||| ((1 : BitVec 16) <<< c.toNat) else v &&& ~~~((1 : BitVec 16) <<< c.toNat)

/-- The core has arrived on a channel in the generation in progress: a bit that a broadcast on its way will clear is that of the one before
(R203). -/
def Weir.here (w : Weir) (c : BitVec 4) : Bool := inSet w.arrived c && decide (w.owed.get (Fin.ofNat 16 c.toNat) = 0)

/-- The gangs of a context hold their channels: a save has released those of a context that is Saved or Restoring (R275). -/
def holdsWeirs (s : State) (l : Launch) : Bool := decide ((s.ctx l.ctx).st ≠ .saved) && decide ((s.ctx l.ctx).st ≠ .restoring)

/-- A gang that holds a channel has started on some of its cores and not on all: a core that has not is a member all the same, and cannot have
arrived (R274, R275; "Decided outcomes" of file 16). -/
def weirPartly (s : State) (c : BitVec 4) : Bool :=
  s.launches.any fun l => decide (l.kind = .gang) && inSet l.wmember c && holdsWeirs s l && !l.toStart.isEmpty
    && l.cores.any fun v => !l.toStart.contains v

/-- Every core of the package has arrived on a channel or is no member, and some core has arrived (R203). -/
def weirComplete (s : State) (c : BitVec 4) : Bool :=
  (s.cores.all fun e => e.2.weir.here c || !inSet e.2.weir.wmember c) && (s.cores.any fun e => e.2.weir.here c) && !weirPartly s c

/-- A channel that completes: every member is owed the broadcast that clears `arrived` and raises `gen` (R203). -/
def weirSettle (s : State) (c : BitVec 4) : State :=
  if weirComplete s c then
    { s with cores := s.cores.map fun e =>
        if inSet e.2.weir.wmember c then
          (e.1, { e.2 with weir := { e.2.weir with
            owed := e.2.weir.owed.set c.toNat (e.2.weir.owed.get (Fin.ofNat 16 c.toNat) + 1) c.isLt } })
        else e }
  else s

/-- Every channel that completes. -/
def weirSettleAll (s : State) : State := (List.range 16).foldl (fun s c => weirSettle s (BitVec.ofNat 4 c)) s

/-- The broadcast of a completion reaches a core (R203). -/
def weirReach (s : State) (c : BitVec 4) (site : Nat) : State :=
  let k := s.coreOf site
  let n := k.weir.owed.get (Fin.ofNat 16 c.toNat)
  if n = 0 then s
  else
    let g := k.weir.gen.get (Fin.ofNat 16 c.toNat)
    weirSettle (s.setCoreOf site { k with weir := { k.weir with
      arrived := setBit16 k.weir.arrived c false
      gen := k.weir.gen.set c.toNat (g + 1) c.isLt
      owed := k.weir.owed.set c.toNat (n - 1) c.isLt } }) c

/-- `warrive`: R204. -/
def execWarrive (chan : BitVec 4) (s : State) : Out :=
  if inSet s.c.weir.wmember chan = false then raise s (Trap.operand (chan.setWidth 64))
  else
    let s := release s 3
    finish (weirSettle (s.setC { s.c with weir := { s.c.weir with arrived := setBit16 s.c.weir.arrived chan true } }) chan)

/-- `wwait`: R204. -/
def execWwait (chan : BitVec 4) (s : State) : Out :=
  if inSet s.c.weir.arrived chan then waiting s 0x0A (chan.setWidth 6) 0 else finish s

/-- `wtest`: R204. -/
def execWtest (rd : BitVec 5) (chan : BitVec 4) (s : State) : Out :=
  finish (s.setX rd (BitVec.ofNat 64
    (b2n (inSet s.c.weir.arrived chan) * 2 ^ 32 + (s.c.weir.gen.get (Fin.ofNat 16 chan.toNat)).toNat)))

/-- An `sput` of `wmember`: only bits of the gang weir set change, and a bit cleared clears `arrived` too (R204, R275). -/
def putWmember (s : State) (v : BitVec 16) : State :=
  let w := s.c.weir
  let m := (w.wmember &&& ~~~w.gangSet) ||| (v &&& w.gangSet)
  weirSettleAll (s.setC { s.c with weir := { w with wmember := m, arrived := w.arrived &&& (m ||| ~~~w.wmember) } })

/-! ## Tasks (R205 to R207) -/

/-- The task has Sluice requests that are not complete (R205). -/
def tendBusy (s : State) : Bool := !(s.c.requestsOf s.hartNo s.h.serial).isEmpty

/-- `tend`: R205. It is an end word: the block's signature is compared first, and a difference traps at M with the task still on
the hart (R256, R258). The release of R221 goes with the locks. On a hart that runs no task, as boot code does, there is nothing to end and it completes
(the model's choice, log 41). -/
def execTend (s : State) : Out :=
  if tendBusy s then waiting s 0x0F 0 0
  else if s.checkerNext.differs then .next (retireEnd s (s.pc + 4))
  else
    match s.h.run with
    | .task _ => .next (endTask (release s 3) s.cur)
    | _ => finishEnd s (s.pc + 4)

/-- The checks of `thold`, `tready` and `tenable`, in the order R206 names them: channel, coordinate, value, then reach (log 10). -/
def taskBitChecks (s : State) (v c ch : Word) : Option Trap :=
  firstTrap [need (decide (ch.toNat < 64)) ch, need (coordOk c) c, need (decide (v.toNat < 2)) v,
    if inReach s (c.setWidth 32) then none else some (Trap.of 0x104 c)]

/-- Sets a task bit at once on the executing core, or by an uncounted message of kind 5 (R206, R313, log 16). -/
def taskBitOp (bit : Nat) (xv xc xs : BitVec 5) (s : State) : Out :=
  let v := s.x xv
  let c := s.x xc
  let ch := s.x xs
  match taskBitChecks s v c ch with
  | some t => raise s t
  | none =>
    if realCoord s (c.setWidth 32) = s.c.coreid then
      finish (s.setC (s.c.taskBit ch.toNat bit (v.getLsbD 0)))
    else
      match hand s s.agent (newMessage s (c.setWidth 32) 0 5 (leBytes 4 (ch.toNat + 256 * bit + 65536 * (v.toNat % 2)))) with
      | none => waiting s 0x05 0 0
      | some s => finish s

/-- `thold`: R206. -/
def execThold (xv xc xs : BitVec 5) (s : State) : Out := taskBitOp 0 xv xc xs s

/-- `tready`: R206. -/
def execTready (xv xc xs : BitVec 5) (s : State) : Out := taskBitOp 1 xv xc xs s

/-- `tenable`: R206. -/
def execTenable (xv xc xs : BitVec 5) (s : State) : Out := taskBitOp 2 xv xc xs s

/-- `tpost`: R207. -/
def execTpost (xs xp : BitVec 5) (s : State) : Out :=
  let ch := s.x xs
  if 64 ≤ ch.toNat then raise s (Trap.operand ch)
  else finish (s.setC (s.c.post ch.toNat s.c.coreid 0 ((s.x xp).setWidth 32) 0))

/-! ## Launches (R208) -/

/-- Reads `n` 8-byte words by scalar loads. -/
def loadWords (s : State) (ea : Word) : Nat → Res (List Byte × State)
  | 0 => .ok ([], s)
  | n + 1 =>
    match load s ea 8 with
    | .error e => .error e
    | .ok (v, s) =>
      match loadWords s (ea + 8) n with
      | .error e => .error e
      | .ok (l, s) => .ok (leBytes 8 v ++ l, s)

/-- A block of 64 bytes at a canonical multiple of 64, read by scalar loads (R208, R209). -/
def loadBlock (s : State) (ea : Word) : Res (List Byte × State) :=
  if canonical ea = false then .error (s, Trap.of 0x0E1 ea)
  else if ea.toNat % 64 ≠ 0 then .error (s, Trap.of 0x0E0 ea)
  else loadWords s ea 8

/-- `glaunch`: R208, R381. -/
def execGlaunch (rd xs : BitVec 5) (s : State) : Out :=
  match loadBlock s (s.x xs) with
  | .error (s, t) => raise s t
  | .ok (p, s) =>
    let (v, s) := postLaunch (release s 3) s.agent p
    finish (s.setX rd (BitVec.ofNat 64 v))

/-! ## Work graphs (R209 to R211, R277, R278) -/

/-- A queue control block as it is read (R277). -/
structure QueueBlock where
  slots : Word
  recsize : Nat
  capacity : Nat
  head : BitVec 32
  tail : BitVec 32
  channel : Nat
  place : Nat
  owner : Nat
  target : BitVec 32
  ok : Bool
  deriving DecidableEq, Repr

/-- A power of two from 1 to 2^20. -/
def isPow2 (n : Nat) : Bool := (List.range 21).any fun i => decide (n = 2 ^ i)

def queueBlock (l : List Byte) : QueueBlock :=
  let slots : Word := BitVec.ofNat 64 (fieldAt l 0 8)
  let recsize := fieldAt l 8 4
  let cap := fieldAt l 12 4
  let target := BitVec.ofNat 32 (fieldAt l 32 4)
  { slots := slots, recsize := recsize, capacity := cap, head := BitVec.ofNat 32 (fieldAt l 16 4)
    tail := BitVec.ofNat 32 (fieldAt l 20 4), channel := fieldAt l 24 1, place := fieldAt l 25 1, owner := fieldAt l 26 1
    target := target
    ok := canonical slots && decide (slots.toNat % 64 = 0) && decide (recsize % 64 = 0) && decide (64 ≤ recsize)
      && decide (recsize ≤ 4096) && isPow2 cap && decide (fieldAt l 24 1 < 64) && decide (fieldAt l 25 1 ≤ 2)
      && decide (fieldAt l 26 1 < 64) && zeroAt l 27 5 && (decide (fieldAt l 25 1 ≠ 2) || coordOk (target.setWidth 64))
      && zeroAt l 36 28 }

/-- The queue of a block as its owner holds it; the first request of a gang takes `head` and `tail` from the block (R277). -/
def Basin.work (b : Basin) (n : Nat) (block : Word) (q : QueueBlock) : WorkQueue :=
  (b.works.find? fun w => decide (w.ctx = n) && decide (w.block = block)).getD
    { ctx := n, block := block, head := q.head, tail := q.tail, capacity := q.capacity, recsize := q.recsize
      channel := q.channel, place := q.place, target := q.target, gangs := [], slots := [] }

/-- The owner reserves `n` slots for a task: the first index, or none (R278). -/
def reserveSlots (w : WorkQueue) (n hart serial : Nat) : Option (Nat × WorkQueue) :=
  if n ≤ w.capacity - (w.head - w.tail).toNat then
    let i := w.head.toNat % w.capacity
    some (i, { w with
      head := w.head + BitVec.ofNat 32 n
      slots := (List.range n).foldl (fun m q => smSet ((w.head.toNat + q) % w.capacity) (.reserved hart serial) m) w.slots })
  else none

/-- A gang reserves slots in a queue: its owner holds it until the gang has ended (R277). -/
def WorkQueue.heldBy (w : WorkQueue) (launch : Option Nat) : WorkQueue :=
  { w with gangs := w.gangs.filter (fun g => some g ≠ launch) ++ launch.toList }

/-- The owner serves a request (R278): the index of the first slot, or all ones with nothing changed. -/
def Basin.serve (b : Basin) (r : ReserveReq) : Word × Basin :=
  let q := queueBlock r.data
  if q.ok = false then (BitVec.allOnes 64, b)
  else
    match reserveSlots (b.work r.ctx r.block q) r.count r.hart r.serial with
    | none => (BitVec.allOnes 64, b)
    | some (i, w) => (BitVec.ofNat 64 i, b.setWork (w.heldBy r.launch))

/-- `wreserve`: R209. The request goes to the basin that the block names; the hart waits for its answer. -/
def execWreserve (rd xq xn : BitVec 5) (s : State) : Out :=
  let n := s.x xn
  match s.h.reply with
  | some v => finish (s.setX rd v)
  | none =>
    if s.h.asked then .next s
    else if n = 0 ∨ 4096 < n.toNat then raise s (Trap.operand n)
    else
      match loadBlock s (s.x xq) with
      | .error (s, t) => raise s t
      | .ok (l, s) =>
        let q := queueBlock l
        let b := s.basin q.owner
        let r : ReserveReq :=
          { hart := s.cur, serial := s.h.serial, ctx := ((ctxOfAgent s s.agent).map (·.1)).getD 64, launch := s.c.part.launch, block := s.x xq, data := l, count := n.toNat }
        let t := s.setBasin q.owner { b with asks := b.asks ++ [r] }
        .next (t.setH { t.h.waitOn 0x10 (BitVec.ofNat 6 q.owner) 0 with asked := true })

/-- Commits a slot that the executing task has reserved (R210, R211): the owner's basin notes it (R461). -/
def commitAt (s : State) (block : Word) (l : List Byte) (i : Nat) : Option State :=
  let q := queueBlock l
  match ctxOfAgent s s.agent with
  | none => none
  | some (cn, _) =>
    let b := s.basin q.owner
    let w := b.work cn block q
    if q.ok ∧ smFind i w.slots = some (.reserved s.cur s.h.serial) then
      let b := b.setWork { w with slots := smSet i (.committed s.c.coreid) w.slots }
      some (s.setBasin q.owner { b with ncev := b.ncev ++ [{ block := block, slot := BitVec.ofNat 32 i, kind := 1 }] })
    else none

/-- `wcommit`: R210, R211. -/
def execWcommit (xq xi : BitVec 5) (s : State) : Out :=
  match loadBlock s (s.x xq) with
  | .error (s, t) => raise s t
  | .ok (l, s) =>
    match commitAt (release s 3) (s.x xq) l (s.x xi).toNat with
    | none => raise s (Trap.of 0x106 (s.x xi))
    | some s => finish s

end Sys2Proof.Machine
end

