-- ==== Sys2Proof/Machine/Firmware.lean ====
section
/-! DEFINITION. What the core machine firmware does (R241, R268, R364, R421, R442, R462). Its code is no part of the spec; its duties are. A hart
whose `mtvec` names the place where its die's cistern put it performs them in one step when its trap reaches the entry. -/

namespace Sys2Proof.Machine

/-- A trap taken at M that makes the context Fatal: consumed poison or a machine check (R241). -/
def contextFatal (cause : BitVec 9) : Bool := decide (0x140 ≤ cause.toNat)

/-- The executing hart stands at the entry of the core machine firmware. -/
def State.atFirmware (s : State) : Bool :=
  s.onCore && s.lane.isNone && decide (s.priv = 3) && decide (s.h.trap.mtvec = BitVec.ofNat 64 (coreFirmwareAt (dieOfAgent s.agent)))
    && decide (s.h.pc = s.h.trap.mtvec)

/-- The executing hart halts. -/
def haltHart (s : State) : State := (s.setH { s.h.waitOn 0x11 0 0 with run := .halted }).afterHalt

/-- A context-fatal cause of a core is reported to its basin controller; the first one counts (R421). -/
def reportFatal (s : State) (n : Nat) (cause : BitVec 9) (from_ : BitVec 32) : State :=
  let c := s.ctx n
  if c.fatal.isNone && c.st.owns then s.setCtx n { c with fatal := some (cause, from_) } else s

/-- The task of the executing hart is ended and reported as type 0x16 (R268, R442). -/
def endByFirmware (s : State) (ch : BitVec 6) : State :=
  let h := s.h
  let n := match ctxOfAgent s s.agent with | some (n, _) => n | none => 0xFF
  let s := s.emit 0x16 n 0xFFFF s.c.coreid.toNat (h.trap.mcause.toNat * 2 ^ 32 + ch.toNat) h.wait.budget.toNat
  endTask (release s 3) s.cur

/-- The firmware's step (R462): a context-fatal cause is reported and the hart halts; any other trap of a task ends the task, once its Sluice
requests are complete; a hart that runs no task halts. -/
def coreFirmware (s : State) : State :=
  match s.h.run with
  | .task ch =>
    if contextFatal s.h.trap.mcause then
      haltHart (match ctxOfAgent s s.agent with
        | some (n, _) => reportFatal s n s.h.trap.mcause s.c.coreid
        | none => s)
    else if tendBusy s then s
    else endByFirmware s ch
  | _ => haltHart s

end Sys2Proof.Machine
end

