-- ==== Sys2Proof/Machine/Graphics.lean ====
section
/-! DEFINITION. Binning and pixel interlocks: `qpush`, `qend`, `pxlock`, `pxunlock` and `pxskip` of major 0x3D (R212 to R222, R336, R337). -/

namespace Sys2Proof.Machine

/-! ## Binning (R217, R218) -/

/-- The basin a selector names; its bits above 5 are 0 (R217). -/
def checkSelector (v : Word) : Option Trap := need (decide (v.toNat < 64)) v

/-- Basin b's queue is open for the context of the executing core (R217, R328). -/
def queueOpen (s : State) (b : Nat) : Bool :=
  let g := (s.basin b).gfx
  match ctxOfAgent s s.agent with
  | some (n, _) => decide (g.st = .binning) && decide (g.ctx = n)
  | none => false

/-- Bytes 64r to 64r + 63 of row j of a group (R217). -/
def recordAt (s : State) (vs1 : BitVec 5) (j r : Nat) : List Byte := leBytes 64 (bitsOf (s.h.row (vs1.toNat + j)).toNat (512 * r) 512)

/-- The records a `qpush` presents: the positions (j, 8r) (R217). -/
def presented (s : State) (mask : BitVec 3) : List (Nat × Nat) :=
  (active s mask).filter fun p => decide (p.2 % 8 = 0) && decide (p.2 + 7 < s.vl)

/-- Records a basin's queue holds (R329); marks on their way are not records. -/
def Gfx.queued (g : Gfx) : Nat := (g.queue.filter Option.isSome).length

/-- The queue takes a record (R217). -/
def pushRecord (s : State) (b : Nat) (data : List Byte) : State :=
  let v := s.basin b
  s.setBasin b { v with gfx := { v.gfx with queue := v.gfx.queue ++ [some (primOf data)] } }

/-- Hands over records in element order: the state, and the first record for which the queue has no room (R217). -/
def pushAll (b : Nat) (vs1 : BitVec 5) : List (Nat × Nat) → State → State × Option (Nat × Nat)
  | [], s => (s, none)
  | p :: ps, s =>
    if (s.basin b).gfx.queued < 512 then pushAll b vs1 ps (pushRecord s b (recordAt s vs1 p.1 (p.2 / 8))) else (s, some p)

/-- The element width that a graphics instruction requires (R214). -/
def checkSew (s : State) (w : Nat) : Option Trap := need (decide (s.sew = w)) s.wordVal

/-- `qpush`: R217. While the queue is full the hart waits at the first record not accepted, with `vstart` there. -/
def execQpush (vs1 xs2 : BitVec 5) (mask : BitVec 3) (conv : Bool) (s : State) : Out :=
  let sel := s.x xs2
  let b := sel.toNat % 64
  let ps := presented s mask
  match firstTrap [checkStart s, checkSew s 64, checkGroup s vs1, checkSelector sel,
      ps.findSome? fun p => need (primOk (recordAt s vs1 p.1 (p.2 / 8))) (posWord false p.1 p.2)] with
  | some t => raise s t
  | none =>
    match joinConvoy s { conv := conv, units := unitGlobal, cross := false, rv := groupRegs s vs1, rm := [mask.toNat]
                         wv := [], wm := [] } with
    | .error a => refuseConvoy s a
    | .ok cv =>
      if queueOpen s b = false then raise s (Trap.of 0x107 (BitVec.ofNat 64 b))
      else
        match pushAll b vs1 ps (release s 3) with
        | (s, none) => finish (s.vdone cv)
        | (s, some p) => waiting (s.stopAt p.1 p.2) 0x0B (BitVec.ofNat 6 b) 0

/-- `qend`: R218. The mark is on its way until it reaches the basin. -/
def execQend (xs2 : BitVec 5) (s : State) : Out :=
  let sel := s.x xs2
  let b := sel.toNat % 64
  match checkSelector sel with
  | some t => raise s t
  | none =>
    if queueOpen s b = false then raise s (Trap.of 0x107 (BitVec.ofNat 64 b))
    else
      let s := release s 3
      let v := s.basin b
      finish (s.setBasin b { v with gfx := { v.gfx with queue := v.gfx.queue ++ [none] } })

/-! ## Pixel interlocks (R219 to R222, R336, R337) -/

/-- A basin's unit that runs the open frame of the executing core's context: the oldest launch's (R328, R337). -/
def openGfx (s : State) : Option Gfx :=
  match ctxOfAgent s s.agent with
  | none => none
  | some (n, _) =>
    let gs := (s.basins.map fun e => e.2.gfx).filter fun g => decide (g.st ≠ .idle) && decide (g.ctx = n)
    gs.find? fun g => gs.all fun h => decide (g.launch ≤ h.launch)

/-- The open frame's descriptor, and the launch that opened it. -/
def openFrame (s : State) : Option FrameDesc := (openGfx s).map (·.desc)

def openLaunch (s : State) : Nat := ((openGfx s).map (·.launch)).getD 0

/-- The pixel that an element names (R219). -/
def pixelAt (s : State) (vs1 : BitVec 5) (j i : Nat) : Nat × Nat :=
  let v := s.h.elem vs1.toNat 32 j i
  (v % 2 ^ 16, v / 2 ^ 16)

/-- The pixel lies in the frame (R219, R337). -/
def inFrame (f : Option FrameDesc) (p : Nat × Nat) : Bool :=
  match f with
  | some d => decide (p.1 < d.width) && decide (p.2 < d.height)
  | none => false

/-- Locks that a hart holds, by basin. -/
def locksOf (s : State) (hart : Nat) : List (Nat × PixReq) :=
  s.basins.flatMap fun e => (e.2.gfx.locks.filter fun l => l.hart = hart).map fun l => (e.1, l)

/-- The hart holds a pixel's lock. -/
def holdsPixel (s : State) (p : Nat × Nat) : Bool := (locksOf s s.cur).any fun l => decide (l.2.x = p.1) && decide (l.2.y = p.2)

/-- The pixels named, each once, in the order of their first element. -/
def distinct (l : List (Nat × Nat)) : List (Nat × Nat) := (l.reverse.dedup).reverse

/-- The misuse trap at a position (R219). -/
def misuse (j i : Nat) : Trap := Trap.of 0x049 (posWord false j i)

/-- The conditions of `pxlock` in element order (R219): `n` locks are held before the positions left. -/
def lockMisuse (s : State) (f : Option FrameDesc) (vs1 : BitVec 5) : List (Nat × Nat) → List (Nat × Nat) → Nat → Option Trap
  | [], _, _ => none
  | p :: ps, seen, n =>
    let q := pixelAt s vs1 p.1 p.2
    if inFrame f q = false ∨ holdsPixel s q then some (misuse p.1 p.2)
    else if seen.contains q then lockMisuse s f vs1 ps seen n
    else if 1024 < n + 1 then some (misuse p.1 p.2)
    else lockMisuse s f vs1 ps (q :: seen) (n + 1)

/-- The basin that owns a pixel of a frame. -/
def pixelOwner (d : FrameDesc) (p : Nat × Nat) : Nat := d.owner (d.tileAt p.1 p.2)

/-- The request for a pixel reaches its interlock unit (R219). -/
def askPixel (d : FrameDesc) (seq : Nat) (s : State) (p : Nat × Nat) : State :=
  let b := pixelOwner d p
  let v := s.basin b
  let r : PixReq := { x := p.1, y := p.2, seq := seq, hart := s.cur, launch := openLaunch s, held := false }
  s.setBasin b { v with gfx := { v.gfx with reqs := v.gfx.reqs ++ [r] } }

/-- No request of a hart is left: its `pxlock` has every lock. -/
def allGranted (s : State) (hart : Nat) : Bool := s.basins.all fun e => e.2.gfx.reqs.all fun r => decide (r.hart ≠ hart)

/-- The locks of a completed `pxlock` stay with the hart. -/
def keepLocks (s : State) : State :=
  s.mapBasins fun b => { b with gfx := { b.gfx with locks := b.gfx.locks.map fun l => if l.hart = s.cur then { l with held := true } else l } }

/-- The operand checks and the convoy of a pixel instruction: no unit is claimed (R214). -/
def pixelOp (vs1 : BitVec 5) (seq : Option Word) (mask : BitVec 3) (conv : Bool) (s : State) (eff : List Member → Out) : Out :=
  match firstTrap [checkStart s, checkSew s 32, checkGroup s vs1,
      match seq with | some v => need (decide (v.toNat < 2 ^ 32)) v | none => none] with
  | some t => raise s t
  | none =>
    match joinConvoy s (claimElem conv mask (groupRegs s vs1) [] []) with
    | .error a => refuseConvoy s a
    | .ok cv => eff cv

/-- The `pxlock` of the executing hart has sent its requests. -/
def State.lockAsked (s : State) : Bool := s.h.asked && decide (s.h.wait.reason = 0x0C)

/-- `pxlock`: R219, R220. It sends its requests once and waits until every lock has been granted. -/
def execPxlock (vs1 xs2 : BitVec 5) (mask : BitVec 3) (conv : Bool) (s : State) : Out :=
  let seq := s.x xs2
  pixelOp vs1 (some seq) mask conv s fun cv =>
    if s.lockAsked then
      if allGranted s s.cur then finish ((keepLocks s).vdone cv) else .next s
    else
      let ps := active s mask
      let f := openFrame s
      match lockMisuse s f vs1 ps [] (locksOf s s.cur).length with
      | some t => raise s t
      | none =>
        match f with
        | some d =>
          if ps = [] then finish (s.vdone cv)
          else
            let t := (distinct (ps.map fun p => pixelAt s vs1 p.1 p.2)).foldl (askPixel d seq.toNat) s
            .next (t.setH { t.h.waitOn 0x0C 0 0 with asked := true, shape := { t.h.shape with vstart := 0 } })
        | none => finish (s.vdone cv)

/-- The first position whose pixel fails a condition. -/
def pixelMisuse (s : State) (vs1 : BitVec 5) (ok : Nat × Nat → Bool) (ps : List (Nat × Nat)) : Option Trap :=
  ps.findSome? fun p => if ok (pixelAt s vs1 p.1 p.2) then none else some (misuse p.1 p.2)

/-- Releases the lock a hart holds on a pixel; its entry retires (R221, R336). -/
def Gfx.unlock (g : Gfx) (hart : Nat) (p : Nat × Nat) : Gfx :=
  let mine := fun l : PixReq => decide (l.hart = hart) && decide (l.x = p.1) && decide (l.y = p.2)
  (g.locks.filter mine).foldl Gfx.retireLock { g with locks := g.locks.filter fun l => !mine l }

/-- `pxunlock`: R221. -/
def execPxunlock (vs1 : BitVec 5) (mask : BitVec 3) (conv : Bool) (s : State) : Out :=
  pixelOp vs1 none mask conv s fun cv =>
    let ps := active s mask
    match pixelMisuse s vs1 (holdsPixel s) ps with
    | some t => raise s t
    | none =>
      let r := release s 3
      finish ((r.mapBasins fun b => { b with gfx :=
        (distinct (ps.map fun p => pixelAt s vs1 p.1 p.2)).foldl (fun g p => g.unlock s.cur p) b.gfx }).vdone cv)

/-- `pxskip`: R222. -/
def execPxskip (vs1 xs2 : BitVec 5) (mask : BitVec 3) (conv : Bool) (s : State) : Out :=
  let seq := s.x xs2
  pixelOp vs1 (some seq) mask conv s fun cv =>
    let ps := active s mask
    let f := openFrame s
    match pixelMisuse s vs1 (fun p => inFrame f p && !holdsPixel s p) ps, f with
    | some t, _ => raise s t
    | none, none => finish (s.vdone cv)
    | none, some d =>
      finish (((distinct (ps.map fun p => pixelAt s vs1 p.1 p.2)).foldl (fun s p =>
        let b := pixelOwner d p
        let v := s.basin b
        if v.gfx.launch = openLaunch s then s.setBasin b { v with gfx := v.gfx.retireEntry p.1 p.2 seq.toNat } else s) (release s 3)).vdone cv)

end Sys2Proof.Machine
end

