-- ==== Sys2Proof/Machine/TaskEvents.lean ====
section
/-! DEFINITION. Events of harts, tasks, gangs, weir channels, work graphs and the Sluice engines (R107, R198, R203, R241, R263, R268,
R273, R274, R278, R280, R391 to R393, R461). An event that is not due changes nothing (log 11). -/

namespace Sys2Proof.Machine

/-! ## Harts (R241, R268) -/

/-- The hart runs a task or firmware. -/
def HartRun.live : HartRun → Bool
  | .task _ | .firmware => true
  | _ => false

/-- HART_STATE_MACHINE_CHECK: R241. -/
def execHartStateMachineCheck (hart : Nat) (coreState : Bool) (s : State) : Out :=
  .next (if (s.hartOf hart).run.live then s.pend hart (if coreState then 0x163 else 0x161) 0 else s)

/-- BUDGET_EXPIRY: R268. A hart that waits takes its expiry at its own turn, where the waiting instruction completes first if it can (R245). -/
def execBudgetExpiry (hart : Nat) (s : State) : Out :=
  .next (if budgetDue s hart && decide ((s.hartOf hart).wait.reason = 0) && (s.hartOf hart).pending.isEmpty then s.atHart hart budgetTrap else s)

/-- TASK_START: R263, R264. -/
def execTaskStart (core : Nat) (s : State) : Out := .next (startTask s core)

/-! ## Gangs (R273, R274) -/

/-- No task runs on a core. -/
def noTask (s : State) (site : Nat) : Bool :=
  (hartsOf site).all fun k => match (s.hartOf k).run with | .task _ => false | _ => true

/-- No channel of a core is eligible or owes a start. -/
def Core.idleChannels (c : Core) : Bool := c.tasks.all fun e => !e.2.eligible && !e.2.owes

/-- No Sluice request of a core is outstanding. -/
def Sluice.quiet (q : Sluice) : Bool := q.chans.toList.all fun c => c.reqs.isEmpty

/-- A Siphon move of a logical core is under way: such a core is not reported complete (R426). -/
def moving (s : State) (v : BitVec 32) : Bool :=
  match (s.die (dieOfCoord v)).move with
  | some m => decide (m.coord = v)
  | none => false

/-- A core's part of its gang is quiescent (R273). A message is handed over in one step, so a message unit keeps none to send. -/
def quiescent (s : State) (site : Nat) : Bool :=
  let c := s.coreOf site
  noTask s site && c.idleChannels && c.sluice.quiet && !moving s c.coreid

/-- CORE_COMPLETE_REPORT: R273. -/
def execCoreCompleteReport (core : Nat) (s : State) : Out :=
  let c := s.coreOf core
  .next (if c.part.launch.isSome && quiescent s core then s.setCoreOf core { c with part := { c.part with reported := true } } else s)

/-- The completion report of a core for a launch stands: it has been made and not withdrawn, or the core has left for a later launch,
which waited for it (R273). -/
def reportStands (s : State) (id : Nat) (v : BitVec 32) : Bool :=
  match siteOf s v with
  | none => false
  | some k =>
    let c := s.coreOf k
    if c.part.launch = some id then c.part.reported && quiescent s k else true

/-- Every core of a launch has started and its report stands. -/
def allReported (s : State) (l : Launch) : Bool := l.toStart.isEmpty && l.cores.all (reportStands s l.id)

/-- An earlier gang of the package holds a weir channel of a set: its launch has been accepted and not every core has reported; a gang whose
context is Saved or Restoring holds none (R275). -/
def weirBusy (s : State) (l : Launch) : Bool :=
  s.launches.any fun e =>
    decide (e.id < l.id) && decide (e.kind = .gang) && !e.done && decide (e.wmember &&& l.wmember ≠ 0)
      && holdsWeirs s e && !allReported s e

/-- The supervisor values of a context: `tvec`, `sscratch`, `tdeleg`, all 0 where it has none (R364). -/
def supervisor (s : State) (cx : Ctx) : Word × Word × BitVec 11 :=
  if cx.sup = 0 then (0, 0, 0)
  else
    let l := readBytes s.mem (cx.sup.toNat * 64) 64
    let tvec := fieldAt l 0 8
    let deleg := fieldAt l 16 8
    if tvec % 4 ≠ 0 ∨ 2 ^ 11 ≤ deleg ∨ zeroAt l 24 40 = false then (0, 0, 0)
    else (BitVec.ofNat 64 tvec, BitVec.ofNat 64 (fieldAt l 8 8), BitVec.ofNat 11 deleg)

/-- The entry of channel c as a gang launch writes it (R95, R260), its address a multiple of 4 (R75); a Siphon request stays (R426). -/
def tableEntry (base : Word) (table : List Byte) (old : TaskEntry) (c : Nat) : TaskEntry :=
  let budget := fieldAt table (16 * c + 8) 4
  let decl := decide (budget ≠ 0)
  { TaskEntry.reset with
    entry := if decl then (base + BitVec.ofNat 64 (fieldAt table (16 * c) 4)) &&& ~~~3 else 0
    budget := BitVec.ofNat 32 budget, decl := decl, enable := decl, ready := decl
    siphon := old.siphon, priority := BitVec.ofNat 2 (fieldAt table (16 * c + 5) 1) }

/-- The code handle of a launch. -/
def Launch.handle (l : Launch) : Handle := { magic := true, cols := 0, rows := 0, base := l.base, tasks := l.tasks, panes := l.panes }

/-- The scratchpad a gang starts with: zero but for the pane images (R274, R378); an image that can no longer be read leaves its pane zero
(log 17). -/
def gangScratch (s : State) (cx : Ctx) (h : Handle) : Memory × State :=
  (List.range 4).foldl (fun (m, s) p =>
    if bitOf h.panes p then
      match ctxRead s cx (h.paneAt p) 65536 with
      | (.ok l, s) => (writeBytes m (65536 * p) l, s)
      | (.error _, s) => (m, s)
    else (m, s)) ([], s)

/-- The weir channels of a set leave every core of another gang: each such gang has reported complete and holds none of them (R275). -/
def freeWeirs (s : State) (l : Launch) : State :=
  { s with cores := s.cores.map fun e =>
      if e.2.part.launch = some l.id then e
      else
        let w := e.2.weir
        (e.1, { e.2 with weir := { w with wmember := w.wmember &&& ~~~l.wmember, gangSet := w.gangSet &&& ~~~l.wmember
                                          arrived := w.arrived &&& ~~~l.wmember } }) }

/-- The run-ahead start of a core for a launch (R274, R380). Step 3 lists the counters and overflow bits; the model's choice is that losses pending for a
tag, which belong to messages of the gang before, go with them (log 41). The basin notes each channel that a left-over request or post held (R461). -/
def runAhead (s : State) (site : Nat) (l : Launch) : State :=
  let s := freeWeirs (flushAll s site) l
  let cx := s.ctx l.ctx
  let h := l.handle
  let (table, s) := handleTasks s cx h
  let (sp, s) := gangScratch s cx h
  let (tvec, scratch, deleg) := supervisor s cx
  let c := s.coreOf site
  let c1 := { c with
    caches := { c.caches with l1d := [], l1i := [] }
    tasks := (List.range 64).map fun i => (i, tableEntry h.base (table.toOption.getD []) (c.task i) i)
    rr := Vector.replicate 4 63
    mail := Mailbox.reset
    sluice := Sluice.reset
    weir := { Weir.reset with wmember := l.wmember, gangSet := l.wmember }
    part := { gangid := l.gangid, launch := some l.id, lflags := l.lflags, reported := false
              supTvec := tvec, supScratch := scratch, supDeleg := deleg }
    sp := sp
    spBad := [] }
  let s := noteCleared { c with part := c1.part } (s.setCoreOf site (c1.post 0 c1.coreid 0 0 0)) site
  (hartsOf site).foldl (fun s k =>
    let h := s.hartOf k
    s.setHartOf k { h with convoy := [], fresh := true
                           trap := { h.trap with status := { h.trap.status with mmstrong := l.lflags.getLsbD 4 } } }) s

/-- The launch that may start a core: one that has not started it, of an Active context, whose weir set no earlier gang holds; the oldest
(R274, R275, R382). -/
def startable (s : State) (v : BitVec 32) : Option Launch :=
  s.launches.find? fun l => l.toStart.contains v && decide ((s.ctx l.ctx).st = .active) && !weirBusy s l

/-- RUN_AHEAD_START: R274, R380. A core that belongs to a gang starts the next only once it has reported (R273). -/
def execRunAheadStart (core : Nat) (s : State) : Out :=
  let c := s.coreOf core
  let free := match c.part.launch with
    | none => true
    | some id => reportStands s id c.coreid
  .next (match startable s c.coreid with
    | some l =>
      if free && c.asg.valid && !c.asg.spare then
        runAhead { s with launches := s.launches.map fun e => if e.id = l.id then { e with toStart := e.toStart.filter (· ≠ c.coreid) } else e } core l
      else s
    | none => s)

/-! ## Work graphs (R278, R280, R461) -/

/-- OWNER_RESERVE: the oldest request of a basin is served and its hart answered (R278). -/
def execOwnerReserve (basin : Nat) (s : State) : Out :=
  let b := s.basin basin
  .next (match b.asks with
    | [] => s
    | r :: rs =>
      let (v, b1) := { b with asks := rs }.serve r
      let s := s.setBasin basin b1
      let h := s.hartOf r.hart
      if h.asked ∧ h.serial = r.serial then s.setHartOf r.hart { h with reply := some v } else s)

/-- NCEV_POP: writing 1 to `ncev1.valid` (R461). -/
def execNcevPop (basin : Nat) (s : State) : Out := .next (popEvent s basin)

/-- NCPOST: R280, R461. -/
def execNcpost (basin : Nat) (slot target : BitVec 32) (s : State) : Out := .next (postNode s basin slot target)

/-! ## Weir (R203) -/

/-- WEIR_BROADCAST: R203. -/
def execWeirBroadcast (chan core : Nat) (s : State) : Out := .next (weirReach s (BitVec.ofNat 4 chan) core)

/-! ## Sluice and page requests (R198, R393) -/

/-- SLUICE_CHUNK: R198. -/
def execSluiceChunk (core ch : Nat) (id : BitVec 32) (chunk : Nat) (s : State) : Out :=
  .next (sluiceChunkEff s core (BitVec.ofNat 2 ch) id chunk)

/-- PRG_RESPONSE: R393. -/
def execPrgResponse (i : Nat) (success : Bool) (s : State) : Out := .next (pageResponse s i success)

/-- PAGE_REQUEST_TIMEOUT: R393. -/
def execPageRequestTimeout (i : Nat) (s : State) : Out := .next (pageResponse s i false)

/-! ## Stores on their way (R107, R283, R392) -/

/-- Two stores write a byte in common, or both go to the host, which takes them in order (R391). -/
def PStore.before (p q : PStore) : Bool :=
  match p.loc, q.loc with
  | .dev a, .dev b => decide (a < b + q.data.length) && decide (b < a + p.data.length)
  | .host _, .host _ => true
  | _, _ => false

/-- The store at index i may be performed: no earlier one has to come before it. -/
def storeReady (ps : List PStore) (i : Nat) : Bool :=
  match ps[i]? with
  | some q => (ps.take i).all fun p => !p.before q
  | none => false

/-- Performs the store at index i of a core. -/
def performAt (s : State) (core i : Nat) : State :=
  let c := s.coreOf core
  match c.pstores[i]? with
  | some p => if storeReady c.pstores i then performStore (s.setCoreOf core { c with pstores := c.pstores.eraseIdx i }) core p else s
  | none => s

/-- STORE_PERFORMED: R107, R283. -/
def execStorePerformed (core i : Nat) (s : State) : Out := .next (performAt s core i)

/-- HOST_WRITE_REFUSAL: a store on its way to a host page that refuses it is dropped and reported (R392). -/
def execHostWriteRefusal (core i : Nat) (s : State) : Out :=
  .next (match (s.coreOf core).pstores[i]? with
    | some p =>
      (match p.loc with
       | .host h => if hostRefuses s core h true then performAt s core i else s
       | _ => s)
    | none => s)

end Sys2Proof.Machine
end

