-- ==== Sys2Proof/Machine/GfxEvents.lean ====
section
/-! DEFINITION. Events of the graphics units: frames, binning, resolution, notification and pixel locks (R326 to R337). What the bin buffer's
bytes hold is the basin's own and no rule lays it out; only the space it uses is modelled (log 21). -/

namespace Sys2Proof.Machine

/-- A basin's graphics unit replaced. -/
def State.setGfx (s : State) (b : Nat) (g : Gfx) : State := s.setBasin b { s.basin b with gfx := g }

def State.gfx (s : State) (b : Nat) : Gfx := (s.basin b).gfx

def Gfx.setTile (g : Gfx) (t : Nat) (ti : Tile) : Gfx := { g with tiles := smSet t ti g.tiles }

/-- A 16-bit counter that saturates (R335). -/
def sat16 (v : BitVec 16) (n : Nat) : BitVec 16 := BitVec.ofNat 16 (min 0xFFFF (v.toNat + n))

/-! ## Opening (R326, R328) -/

/-- The graphics unit as a frame opens: the counters and the notify registers cleared, the queue open to the context (R328). -/
def Gfx.opened (g : Gfx) (l : Launch) (pages : List TlbEntry) : Gfx :=
  { Gfx.reset with st := .binning, ctx := l.ctx, launch := l.id, desc := l.desc, pages := pages
                   waiting := g.waiting.filter (· ≠ l.id), locks := g.locks, reqs := g.reqs }

/-- Both buffers of a frame translated for writing, as far as they are mapped (R326). -/
def framePages (s : State) (n : Nat) (d : FrameDesc) : List TlbEntry × State :=
  let range := fun (s : State) (va size : Nat) => ctxPages n 1 (size / 4096 + 2) s va (va + size - 1)
  let (p, s) := range s d.binbuf.toNat d.binbufsize.toNat
  let (q, s) := range s d.visbuf.toNat (131072 * d.tileCount)
  (p ++ q, s)

/-- Writes bytes through the pages that a frame captured; what no page holds any more is lost (R326, log 21). -/
def pagesWrite (n : Nat) (ps : List TlbEntry) : Nat → State → Nat → List Byte → State
  | 0, s, _, _ => s
  | f + 1, s, va, l =>
    if l = [] then s
    else
      let k := min l.length (4096 - va % 4096)
      let s := match ps.find? fun e => decide (e.va ≤ va) && decide (va < e.va + e.size) with
        | some e => ctxStore s n (e.locate 0 va) (l.take k)
        | none => s
      pagesWrite n ps f s (va + k) (l.drop k)

/-- The frame open in a basin writes bytes to one of its buffers. -/
def frameWrite (s : State) (g : Gfx) (va : Nat) (l : List Byte) : State := pagesWrite g.ctx g.pages (l.length / 4096 + 2) s va l

/-- FRAME_OPEN: the oldest frame launch of an Active context that waits for an idle basin opens there, and its buffers are translated (R326,
R328, R382). -/
def execFrameOpen (basin : Nat) (s : State) : Out :=
  let g := s.gfx basin
  .next (match (g.waiting.filterMap s.launch?).find? fun l => decide ((s.ctx l.ctx).st = .active) with
    | some l =>
      if g.st = .idle then
        let (ps, s) := framePages s l.ctx l.desc
        s.setGfx basin (g.opened l ps)
      else s
    | none => s)

/-! ## Binning (R329) -/

/-- Bytes of a basin's part of the bin buffer that binning may use (R327). -/
def FrameDesc.space (d : FrameDesc) : Nat := d.binbufsize.toNat / d.basinList.length - 4096

/-- A record in its place, `seq` rising. -/
def insertPrim (p : Prim) : List Prim → List Prim
  | [] => [p]
  | q :: qs => if p.seq.toNat < q.seq.toNat then p :: q :: qs else q :: insertPrim p qs

/-- The blend records held that touch a tile, the 1,024 lowest `seq` values (R329). -/
def blendList (d : FrameDesc) (held : List Prim) (t : Nat) : List Prim := (held.filter fun p => p.blend && (p.tiles d).contains t).take 1024

/-- Tiles with their blend lists brought up to date with the records held. -/
def Gfx.relist (g : Gfx) (ts : List Nat) : Gfx :=
  ts.foldl (fun g t =>
    let l := blendList g.desc g.held t
    g.setTile t { g.tile t with list := l, blends := BitVec.ofNat 11 l.length }) g

/-- Bytes of binning space that a record needs: n counts every tile it touches, whichever basin owns it (R329 step 5). -/
def FrameDesc.cost (d : FrameDesc) (p : Prim) : Nat := 64 + 4 * (p.tiles d).length

/-- A record is held (R329 step 6): a blend record joins the list of each tile; a tile whose list overflows drops one. -/
def Gfx.hold (g : Gfx) (p : Prim) (ts : List Nat) : Gfx :=
  let g := { g with held := insertPrim p g.held, used := g.used + g.desc.cost p }
  if p.blend = false then g
  else
    let full := ts.filter fun t => decide (1024 < (g.held.filter fun q => q.blend && (q.tiles g.desc).contains t).length)
    let g := full.foldl (fun g t => g.setTile t { g.tile t with bovf := true }) { g with blovf := sat16 g.blovf full.length }
    g.relist ts

/-- A held record is discarded and its space returned (R329 step 4). -/
def Gfx.unhold (g : Gfx) (basin : Nat) (q : Prim) : Gfx :=
  let ts := (q.tiles g.desc).filter fun t => g.desc.owner t = basin
  let g := { g with held := g.held.filter fun r => r.seq ≠ q.seq, used := g.used - g.desc.cost q }
  if q.blend then g.relist ts else g

/-- A record is taken from the queue and disposed of, the tests of R329 in order. -/
def Gfx.bin (g : Gfx) (basin : Nat) (p : Prim) : Gfx :=
  let g := { g with accepted := g.accepted + 1 }
  let ts := (p.tiles g.desc).filter fun t => g.desc.owner t = basin
  if p.good = false then { g with badprim := sat16 g.badprim 1 }
  else if p.empty ∨ ts = [] ∨ g.dups.contains p.seq then g
  else
    match g.held.find? fun q => q.seq = p.seq with
    | some q => { g.unhold basin q with dupseq := sat16 g.dupseq 2, dups := g.dups ++ [p.seq] }
    | none =>
      if g.desc.space < g.used + g.desc.cost p then
        ts.foldl (fun g t => g.setTile t { g.tile t with ovf := true }) { g with ovf := sat16 g.ovf 1 }
      else g.hold p ts

/-- The oldest record of a queue, and the queue without it; marks stay. -/
def takeRecord : List (Option Prim) → Option (Prim × List (Option Prim))
  | [] => none
  | some p :: r => some (p, r)
  | none :: r => (takeRecord r).map fun x => (x.1, none :: x.2)

/-- BIN_RECORD: R329. -/
def execBinRecord (basin : Nat) (s : State) : Out :=
  let g := s.gfx basin
  .next (match takeRecord g.queue with
    | some (p, r) => if g.st = .binning then s.setGfx basin ({ g with queue := r }.bin basin p) else s
    | none => s)

/-- Every owned tile has been notified: the frame drains (R328). -/
def Gfx.settle (g : Gfx) (basin : Nat) : Gfx :=
  if g.st = .resolving ∧ (g.desc.ownedBy basin).all (fun t => decide ((g.tile t).state = 3)) then { g with st := .draining } else g

/-- The queue closes: the records still queued are binned and resolution begins (R328). -/
def Gfx.close (g : Gfx) (basin : Nat) : Gfx :=
  let g := (g.queue.filterMap id).foldl (fun g p => g.bin basin p) { g with queue := [] }
  let g := (g.desc.ownedBy basin).foldl (fun g t => g.setTile t { g.tile t with state := 1 }) { g with st := .resolving }
  g.settle basin

/-- QEND_MARK_ARRIVAL: a mark on its way reaches the basin (R218, R328). -/
def execQendMarkArrival (basin : Nat) (s : State) : Out :=
  let g := s.gfx basin
  .next (if g.st = .binning ∧ g.queue.contains none then
      let g := { g with queue := g.queue.erase none, marks := g.marks + 1 }
      s.setGfx basin (if g.desc.nmarks ≤ g.marks.toNat then g.close basin else g)
    else s)

/-! ## Resolution (R331, R332) -/

/-- A pixel's front-most record and depth. -/
structure Front where
  z : Nat
  prim : Option Prim
  deriving DecidableEq, Repr

/-- A record is applied at a pixel (R331). -/
def Front.apply (f : Front) (x y : Nat) (p : Prim) : Front :=
  if p.covers x y then
    let z := p.depthAt x y
    if (fCompare .f32 .lt z f.z).1 then { z := z, prim := some p } else f
  else f

/-- The 16-byte entry of a pixel (R332). -/
def pixelEntry (d : FrameDesc) (ps : List Prim) (x y : Nat) : List Byte :=
  if x < d.width ∧ y < d.height then
    let f : Front := ps.foldl (fun f p => Front.apply f x y p) ({ z := d.zclear.toNat, prim := none } : Front)
    match f.prim with
    | some p => leBytes 4 f.z ++ leBytes 4 p.primid ++ leBytes 4 p.seq.toNat ++ leBytes 4 1
    | none => leBytes 4 f.z ++ leBytes 8 (2 ^ 64 - 1) ++ leBytes 4 0
  else leBytes 4 d.zclear.toNat ++ leBytes 8 (2 ^ 64 - 1) ++ leBytes 4 2

/-- The opaque records a tile holds, `seq` rising. -/
def Gfx.opaqueOf (g : Gfx) (t : Nat) : List Prim := g.held.filter fun p => !p.blend && (p.tiles g.desc).contains t

/-- The region of a tile (R332): 4,096 entries, then the blend list, padded with zeros. -/
def Gfx.region (g : Gfx) (t : Nat) : List Byte :=
  let d := g.desc
  let x0 := 64 * (t % d.binsx)
  let y0 := 64 * (t / d.binsx)
  let ps := g.opaqueOf t
  let px := (List.range 4096).flatMap fun i => pixelEntry d ps (x0 + i % 64) (y0 + i / 64)
  let bl := ((g.tile t).list.map (·.data)).flatten
  px ++ bl ++ List.replicate (65536 - bl.length) 0

/-- TILE_RESOLVE: the lowest tile that is not resolved is resolved and final (R331, R332, R334). -/
def execTileResolve (basin : Nat) (s : State) : Out :=
  let g := s.gfx basin
  .next (match (g.desc.ownedBy basin).find? fun t => decide ((g.tile t).state = 1) with
    | some t =>
      if g.st = .resolving ∧ (s.ctx g.ctx).st = .active then
        let w := frameWrite s g (g.desc.visbuf.toNat + 131072 * t) (g.region t)
        w.setGfx basin (g.setTile t { g.tile t with state := 2, prims := BitVec.ofNat 16 (min 0xFFFF (g.opaqueOf t).length) })
      else s
    | none => s)

/-! ## Notification (R327, R333, R334) -/

/-- The shading core of a tile (R327). -/
def FrameDesc.shadeCore (s : State) (d : FrameDesc) (t : Nat) : BitVec 32 :=
  let k := t % (d.shadecols * d.shaderows)
  coordOf s (coordCol d.shadeorg + k % d.shadecols) (coordRow d.shadeorg + k / d.shadecols)

/-- The status word of a tile in a state (R333). -/
def Tile.status (t : Tile) (state : BitVec 2) : BitVec 32 :=
  BitVec.ofNat 32 (t.prims.toNat * 2 ^ 16 + t.blends.toNat * 2 ^ 5 + b2n t.bovf * 8 + b2n t.ovf * 4 + state.toNat)

/-- TILE_NOTIFICATION: the oldest final notification for a shading core is delivered once its channel has no start owed, running or held
(R334). -/
def execTileNotification (basin core : Nat) (s : State) : Out :=
  let g := s.gfx basin
  let d := g.desc
  let c := s.coreOf core
  let t := c.task d.notifych.toNat
  .next (match (g.desc.ownedBy basin).find? fun i => decide ((g.tile i).state = 2) && decide (siteOf s (d.shadeCore s i) = some core) with
    | some i =>
      if (s.ctx g.ctx).st = .active ∧ t.pending = false ∧ t.busy = false ∧ t.fhold = false then
        let c := { c with mail := c.mail.count d.notifytag }
        let s := s.setCoreOf core (c.post d.notifych.toNat c.coreid d.notifytag (BitVec.ofNat 32 i) ((g.tile i).status 3))
        s.setGfx basin ((g.setTile i { g.tile i with state := 3 }).settle basin)
      else s
    | none => s)

/-! ## Completion and locks (R328, R336, R337) -/

/-- Pixels of a tile inside the frame. -/
def FrameDesc.pixels (d : FrameDesc) (t : Nat) : List (Nat × Nat) :=
  ((List.range 4096).map fun i => (64 * (t % d.binsx) + i % 64, 64 * (t / d.binsx) + i / 64)).filter fun p =>
    decide (p.1 < d.width) && decide (p.2 < d.height)

/-- Every entry of a tile's blend list has retired at every pixel it covers (R328). -/
def Gfx.tileDrained (g : Gfx) (t : Nat) : Bool :=
  let ti := g.tile t
  ti.list.all fun p => (g.desc.pixels t).all fun q => !p.covers q.1 q.2 || ti.retired.contains (q.1, q.2, p.seq.toNat)

/-- FRAME_COMPLETE: R328. -/
def execFrameComplete (basin : Nat) (s : State) : Out :=
  let g := s.gfx basin
  .next (if g.st = .draining ∧ g.locks.all (fun l => decide (l.launch ≠ g.launch)) ∧ (g.desc.ownedBy basin).all g.tileDrained then
      { s.setGfx basin { g with st := .idle } with
        launches := s.launches.map fun l => if l.id = g.launch then { l with basins := l.basins.filter (· ≠ basin) } else l }
    else s)

/-- The request is eligible: it is for the frame that opened here last, its tile is final and every covering entry of lower `seq` has retired (R336). -/
def Gfx.eligible (g : Gfx) (r : PixReq) : Bool :=
  let ti := g.tile (g.desc.tileAt r.x r.y)
  decide (r.launch = g.launch) && decide (2 ≤ ti.state.toNat)
    && (ti.covering r.x r.y).all fun p => decide (r.seq ≤ p.seq.toNat) || ti.retired.contains (r.x, r.y, p.seq.toNat)

/-- The request of a pixel that is granted next: the lowest eligible `seq`, the first to arrive among equals (R336). -/
def Gfx.nextGrant (g : Gfx) (x y : Nat) : Option PixReq :=
  let rs := g.reqs.filter fun r => decide (r.x = x) && decide (r.y = y) && g.eligible r
  rs.find? fun r => rs.all fun q => decide (r.seq ≤ q.seq)

/-- PIXEL_LOCK_GRANT: R336, R337. -/
def execPixelLockGrant (basin x y : Nat) (s : State) : Out :=
  let g := s.gfx basin
  .next (match g.nextGrant x y with
    | some r =>
      if (g.locks.any fun l => decide (l.x = x) && decide (l.y = y) && decide (l.launch = r.launch)) ∨ 16384 ≤ g.locks.length then s
      else s.setGfx basin { g with reqs := g.reqs.erase r, locks := g.locks ++ [r] }
    | none => s)

end Sys2Proof.Machine
end

