-- ==== Sys2Proof/Machine/Queues.lean ====
section
/-! DEFINITION. Host queues, packets and the pending-launch pool (R326, R369 to R381). -/

namespace Sys2Proof.Machine

/-! ## Registers and errors (R370, R372, R377) -/

/-- `qerr` (R370). -/
def Queue.errWord (q : Queue) : Nat :=
  q.errSeq.toNat * 2 ^ 32 + b2n q.errValid * 2 ^ 31 + q.errDetail.toNat * 2 ^ 8 + q.errCode.toNat

/-- The queue records an error and reports it as type 0x01 (R377, R403). -/
def queueError (s : State) (n code detail : Nat) (pseq : BitVec 32) : State :=
  let q := s.queue n
  let q1 := { q with errValid := true, errCode := BitVec.ofNat 8 code, errDetail := BitVec.ofNat 8 detail, errSeq := pseq }
  (s.setQueue n q1).emit 0x01 q.ctx.toNat n q1.errWord q.rd.toNat 0

/-- A packet fails: a ring packet before it takes effect, a packet of an indirect buffer with the ring packet that holds it (R377). -/
def failPacket (s : State) (n code detail : Nat) (pseq : BitVec 32) : State :=
  let q := s.queue n
  let q1 := if q.ibs = [] then { q with seq := if code = 2 then q.seq else q.seq + 1, skip := true } else { q with ibs := [] }
  queueError (s.setQueue n q1) n code detail pseq

/-- A doorbell that passes the ring's size stops the queue with code 0x08 (R371, R377). -/
def checkOverrun (s : State) (n : Nat) : State :=
  let q := s.queue n
  if q.en ∧ !q.stopping ∧ !q.errValid ∧ 2 ^ q.lsize.toNat < (q.wr - q.rd).toNat then queueError s n 0x08 0 q.seq else s

/-! ## Completion (R375) -/

/-- A shootdown has nothing left to wait for: no pin holds it (R369). -/
def shootDone (s : State) (id : Nat) : Bool :=
  s.harts.all fun e => e.2.pins.toList.all fun p => match p with | some p => !p.holds.contains id | none => true

/-- A dispatched packet is complete: its launches and shootdowns are. -/
def Dispatched.complete (s : State) (d : Dispatched) : Bool :=
  d.launches.all (fun id => (s.launch? id).isNone) && d.shoots.all (shootDone s)

/-- Fault of an address that has to be canonical and a multiple of `al` (R377). -/
def addrFault (a : Word) (al : Nat) : Option Nat :=
  if canonical a = false then some 0xE1 else if a.toNat % al ≠ 0 then some 0xE0 else none

/-- Where a signal is written, or the fault of its address as codes 0x04 and 0x09 give it (R377). -/
def signalPlace (s : State) (cx : Ctx) (a : Word) : Except Nat Loc × State :=
  match addrFault a 8 with
  | some f => (.error f, s)
  | none => match ctxPlace s cx a 1 with | (.error c, s) => (.error (c.toNat % 256), s) | (.ok l, s) => (.ok l, s)

/-- A signal is written as an 8-byte system-scope release; one that cannot be is an error of code 0x09 (R375, R377). A write the host refuses
is reported as type 0x06 (R392). -/
def writeSignal (s : State) (n : Nat) (d : Dispatched) : State :=
  match d.sig with
  | none => s
  | some (a, v) =>
    let c := (s.queue n).ctx.toNat
    match signalPlace s (s.ctx c) a with
    | (.error f, s) => queueError s n 0x09 f d.pseq
    | (.ok loc, s) =>
      let refused := match loc with | .host h => ctxRefused s (s.ctx c) h true | _ => false
      let s := ctxStore s c loc (leBytes 8 v.toNat)
      if refused then queueError s n 0x09 0x44 d.pseq else s

/-- The complete packets of a queue leave it, their signals written; a stop ends with the last of them (R372, R375). -/
def settleQueue (s : State) (n : Nat) : State :=
  let q := s.queue n
  let ready := q.running.filter (Dispatched.complete s)
  let s := ready.foldl (fun s d => writeSignal s n d) (s.setQueue n { q with running := q.running.filter fun d => !d.complete s })
  let q := s.queue n
  if q.stopping ∧ q.running = [] then s.setQueue n { q with en := false, stopping := false } else s

/-- Every queue settles. -/
def settleAll (s : State) : State := s.queues.foldl (fun s e => settleQueue s e.1) s

/-! ## Enable, stop, doorbell, clear (R370 to R372, R377) -/

/-- Writing 1 to `qctl.en` while it is 0. -/
def enableQueue (s : State) (n : Nat) : State :=
  let q := s.queue n
  if q.en then s
  else checkOverrun (s.setQueue n { q with en := true, stopping := false, rd := 0, seq := 0, skip := false, ibs := [], running := [] }) n

/-- Writing 0 to `qctl.en` while it is 1. -/
def stopQueue (s : State) (n : Nat) : State :=
  let q := s.queue n
  if q.en then settleQueue (s.setQueue n { q with stopping := true, ibs := [] }) n else s

/-- A write of `qwrite`. -/
def ringDoorbell (s : State) (n : Nat) (wr : BitVec 32) : State := checkOverrun (s.setQueue n { s.queue n with wr := wr }) n

/-- Writing 1 to `qerr.valid`: reading resumes at the next ring packet. -/
def clearQueueError (s : State) (n : Nat) : State :=
  let q := s.queue n
  if q.errValid then
    checkOverrun (s.setQueue n { q with errValid := false, rd := if q.skip then q.rd + 1 else q.rd, skip := false }) n
  else s

/-- A write of the host to a window other than the global one: ignored until `ready` is 1 (R470). -/
def whenReady (s : State) (f : State → State) : State := if s.hostif.regs.ready then f s else s

/-- QUEUE_ENABLE: R370. -/
def execQueueEnable (queue : Nat) (s : State) : Out := .next (whenReady s fun s => enableQueue s queue)

/-- QUEUE_DISABLE: R372. -/
def execQueueDisable (queue : Nat) (s : State) : Out := .next (whenReady s fun s => stopQueue s queue)

/-- DOORBELL: R371. -/
def execDoorbell (queue : Nat) (wr : BitVec 32) (s : State) : Out := .next (whenReady s fun s => ringDoorbell s queue wr)

/-- QERR_CLEAR: R377. -/
def execQerrClear (queue : Nat) (s : State) : Out := .next (whenReady s fun s => clearQueueError s queue)

/-! ## Reading packets (R371, R373 to R377) -/

/-- The queue may read its next packet; in Standby every queue holds (R372, R473). -/
def queueReady (s : State) (n : Nat) : Bool :=
  let q := s.queue n
  q.en && !q.stopping && !q.errValid && decide (s.hostif.regs.pwrState = 0) && decide ((s.ctx q.ctx.toNat).st = .active)
    && (!q.ibs.isEmpty || decide (q.wr ≠ q.rd))

/-- The next packet's address, and the `pseq` an error names. -/
def Queue.nextAt (q : Queue) : Word × BitVec 32 :=
  match q.ibs with
  | [] => (q.base.setWidth 64 <<< 12 + BitVec.ofNat 64 (64 * (q.rd.toNat % 2 ^ q.lsize.toNat)), q.seq)
  | b :: _ => (b.addr, q.ringSeq)

/-- An error of a packet: code, detail and the `pseq` to record. -/
structure PacketError where
  code : Nat
  detail : Nat
  pseq : BitVec 32
  deriving DecidableEq, Repr

/-- Reads and checks the next packet: code 0x04 for its read, then 0x02, 0x01, and 0x04 for its signal's address (R377). -/
def readPacket (s : State) (n : Nat) : Except PacketError (List Byte) × State :=
  let q := s.queue n
  let cx := s.ctx q.ctx.toNat
  let (a, ps) := q.nextAt
  match ctxRead s cx a 64 with
  | (.error c, s) => (.error { code := 4, detail := c.toNat % 256, pseq := ps }, s)
  | (.ok p, s) =>
    if q.ibs = [] ∧ pktPseq p ≠ q.seq.toNat then (.error { code := 2, detail := 0, pseq := BitVec.ofNat 32 (pktPseq p) }, s)
    else if pktReservedOk p = false ∨ (q.ibs ≠ [] ∧ pktPseq p ≠ 0) then (.error { code := 1, detail := 0, pseq := ps }, s)
    else
      match pktSig p with
      | none => (.ok p, s)
      | some g =>
        match signalPlace s cx g.1 with
        | (.error f, s) => (.error { code := 4, detail := f, pseq := ps }, s)
        | (.ok _, s) => (.ok p, s)

/-- What a packet's effect leaves: launches and shootdowns it has dispatched, or the buffer it opens. -/
structure Effect where
  launches : List Nat
  shoots : List Nat
  opens : Option (Word × Nat)
  deriving DecidableEq, Repr

/-- Indirect buffers that have run out close, innermost first: each completes with everything it dispatched (R375, R376). -/
def Queue.closeIbs (q : Queue) : Nat → Queue
  | 0 => q
  | f + 1 =>
    match q.ibs with
    | b :: rest =>
      if b.left = 0 then
        let d : Dispatched := { launches := b.launches, shoots := b.shoots, pseq := q.ringSeq, sig := b.sig }
        let rest := match rest with
          | o :: r => { o with launches := o.launches ++ b.launches, shoots := o.shoots ++ b.shoots } :: r
          | [] => []
        Queue.closeIbs { q with ibs := rest, running := q.running ++ [d] } f
      else q
    | [] => q

/-- The queue after a packet has been dispatched (R372, R373, R375, R376). -/
def Queue.dispatched (q : Queue) (sig : Option (Word × Word)) (e : Effect) : Queue :=
  let q := match q.ibs with
    | [] => { q with rd := q.rd + 1, ringSeq := q.seq, seq := q.seq + 1 }
    | b :: r =>
      let b := { b with addr := b.addr + 64, left := b.left - 1, launches := b.launches ++ e.launches, shoots := b.shoots ++ e.shoots }
      { q with ibs := b :: r }
  match e.opens with
  | some (a, k) => { q with ibs := ({ addr := a, left := k, launches := [], shoots := [], sig := sig } : IbPos) :: q.ibs }
  | none =>
    let d : Dispatched := { launches := e.launches, shoots := e.shoots, pseq := q.ringSeq, sig := sig }
    Queue.closeIbs { q with running := q.running ++ [d] } 5

/-- One packet of a queue, where the next one is of the given kind and may be dispatched: its barrier waits for every earlier packet of the
queue (R375). `eff` answers its effect, or the code and detail of its error, and the state. A packet that fails its checks fails the queue
whatever its kind. -/
def packetStep (s : State) (n kind : Nat) (eff : State → List Byte → Except (Nat × Nat) Effect × State) : State :=
  if queueReady s n = false then s
  else
    match readPacket s n with
    | (.error e, t) => failPacket t n e.code e.detail e.pseq
    | (.ok p, t) =>
      if pktKind p ≠ kind ∨ (pktBarrier p && !(s.queue n).running.isEmpty) then s
      else
        match eff t p with
        | (.error (code, detail), t) => failPacket t n code detail (t.queue n).nextAt.2
        | (.ok e, t) => settleQueue (t.setQueue n ((t.queue n).dispatched (pktSig p) e)) n

/-- An effect with nothing to wait for. -/
def Effect.none_ : Effect := { launches := [], shoots := [], opens := none }

/-- The context a queue is bound to. -/
def queueCtx (s : State) (n : Nat) : Ctx := s.ctx (s.queue n).ctx.toNat

/-- SIGNAL_PACKET: R375. -/
def execSignalPacket (queue : Nat) (s : State) : Out := .next (packetStep s queue 4 fun t _ => (.ok Effect.none_, t))

/-- Reads a 64-byte structure of a context at a multiple of 64: its bytes, or the code and detail of the error (R377). -/
def readBlock64 (s : State) (cx : Ctx) (a : Word) : Except (Nat × Nat) (List Byte) × State :=
  match addrFault a 64 with
  | some f => (.error (4, f), s)
  | none => match ctxRead s cx a 64 with | (.error c, s) => (.error (4, c.toNat % 256), s) | (.ok l, s) => (.ok l, s)

/-- INDIRECT_PACKET: R376. A count outside 1 to 65,536 counts as a bad field; the fault of the buffer's address comes before the fifth level
(R377). -/
def execIndirectPacket (queue : Nat) (s : State) : Out :=
  .next (packetStep s queue 3 fun t p =>
    let a : Word := BitVec.ofNat 64 (fieldAt p 24 8)
    let k := fieldAt p 32 4
    if k = 0 ∨ 65536 < k then (.error (1, 0), t)
    else
      match readBlock64 t (queueCtx t queue) a with
      | (.error e, t) => (.error e, t)
      | (.ok _, t) =>
        (if 4 ≤ (t.queue queue).ibs.length then .error (3, 0) else .ok { Effect.none_ with opens := some (a, k) }, t))

/-! ## Launches (R326, R379, R380) -/

/-- GANG_LAUNCH_PACKET: R379. -/
def execGangLaunchPacket (queue : Nat) (s : State) : Out :=
  .next (packetStep s queue 1 fun t p =>
    let cx := queueCtx t queue
    match readBlock64 t cx (gangPacket p).handle with
    | (.error e, t) => (.error e, t)
    | (.ok l, t) =>
      match launchReason t cx false p (handleOf l) with
      | (some r, t) => (.error (5, r), t)
      | (none, t) =>
        (.ok { Effect.none_ with launches := [t.nextLaunch] },
         t.addLaunch (newGang t (t.queue queue).ctx.toNat p (handleOf l) (some queue) none 0)))

/-- A frame descriptor (R326). -/
def frameDesc (l : List Byte) : FrameDesc :=
  { binbuf := BitVec.ofNat 64 (fieldAt l 0 8), binbufsize := BitVec.ofNat 32 (fieldAt l 8 4), width := fieldAt l 12 2
    height := fieldAt l 14 2, visbuf := BitVec.ofNat 64 (fieldAt l 16 8), basinmask := BitVec.ofNat 64 (fieldAt l 24 8)
    zclear := BitVec.ofNat 32 (fieldAt l 32 4), nmarks := fieldAt l 36 2, notifych := BitVec.ofNat 6 (fieldAt l 38 1)
    notifytag := BitVec.ofNat 5 (fieldAt l 39 1), shadeorg := BitVec.ofNat 32 (fieldAt l 40 4), shadecols := fieldAt l 44 1
    shaderows := fieldAt l 45 1 }

/-- The context reaches a row of the coordinate's package (R363). -/
def rowInReach (s : State) (cx : Ctx) (v : BitVec 32) (row : Nat) : Bool :=
  if namesThis s v then cx.rows.getLsbD row else cx.reachMap.getLsbD (coordPkg v)

/-- Every field of the descriptor keeps its table (R326). -/
def frameFields (s : State) (cx : Ctx) (l : List Byte) : Bool :=
  let d := frameDesc l
  let b := d.basinList.length
  let size := d.binbufsize.toNat
  let col := coordCol d.shadeorg
  let row := coordRow d.shadeorg
  decide (0 < b) && decide (d.binbuf.toNat % 4096 = 0) && decide (size % (4096 * b) = 0) && decide (65536 * b ≤ size)
    && decide (1 ≤ d.width) && decide (d.width ≤ 16384) && decide (1 ≤ d.height) && decide (d.height ≤ 16384)
    && decide (d.visbuf.toNat % 131072 = 0) && f32Finite d.zclear.toNat && decide (1 ≤ d.nmarks) && decide (d.nmarks ≤ 4000)
    && decide (fieldAt l 38 1 < 64) && decide (fieldAt l 39 1 < 32) && coordOk (d.shadeorg.setWidth 64)
    && decide (1 ≤ d.shadecols) && decide (d.shadecols ≤ 80) && decide (1 ≤ d.shaderows) && decide (d.shaderows ≤ 50) && zeroAt l 46 18
    && decide (col + d.shadecols ≤ 80) && decide (row + d.shaderows ≤ 50)
    && (List.range d.shaderows).all (fun r => rowInReach s cx d.shadeorg (row + r))
    && canonical d.binbuf && canonical d.visbuf

/-- The descriptor is well formed: its fields, and both buffers mapped writable over their whole span (R326). -/
def frameOk (s : State) (cx : Ctx) (l : List Byte) : Bool × State :=
  let d := frameDesc l
  if frameFields s cx l = false then (false, s)
  else
    match ctxWritable s cx d.binbuf d.binbufsize.toNat with
    | (false, s) => (false, s)
    | (true, s) => ctxWritable s cx d.visbuf (131072 * d.tileCount)

/-- A frame launch reaches the basins of its mask (R326, R328). -/
def addFrame (s : State) (n queue : Nat) (d : FrameDesc) : State :=
  let l : Launch :=
    { id := s.nextLaunch, ctx := n, kind := .frame, queue := some queue, depth := 0, parent := none, toStart := [], cores := []
      base := 0, tasks := 0, panes := 0, wmember := 0, gangid := 0, lflags := 0, desc := d, basins := d.basinList, done := false }
  let s := s.addLaunch l
  d.basinList.foldl (fun s b => s.setGfx b { s.gfx b with waiting := (s.gfx b).waiting ++ [l.id] }) s

/-- FRAME_PACKET: R326. -/
def execFramePacket (queue : Nat) (s : State) : Out :=
  .next (packetStep s queue 2 fun t p =>
    let cx := queueCtx t queue
    match readBlock64 t cx (BitVec.ofNat 64 (fieldAt p 24 8)) with
    | (.error e, t) => (.error e, t)
    | (.ok l, t) =>
      match frameOk t cx l with
      | (true, t) => (.ok { Effect.none_ with launches := [t.nextLaunch] }, addFrame t (t.queue queue).ctx.toNat queue (frameDesc l))
      | (false, t) => (.error (5, 7), t))

/-! ## Shootdown (R369) -/

/-- The range [b, b + n) of a shootdown, all of it for n = 0, meets [a, a + k). -/
def shootMeets (b n a k : Nat) : Bool := n = 0 || (decide (a < b + n) && decide (b < a + k))

def TlbEntry.shot (e : TlbEntry) (ctx b n : Nat) : Bool := decide (e.ctx = ctx) && shootMeets b n e.va e.size

/-- The pin waits for by a shootdown. -/
def Pin.hold (p : Pin) (id b n : Nat) : Pin := if shootMeets b n p.base.toNat p.len then { p with holds := p.holds ++ [id] } else p

/-- Removes a context's matching translations from every TLB, and marks the pins that the shootdown waits for (R369). -/
def shootdown (s : State) (ctx id b n : Nat) : State :=
  let keep := fun t : List TlbEntry => t.filter fun e => !e.shot ctx b n
  { s with
    cores := s.cores.map fun e => (e.1, { e.2 with caches := { e.2.caches with tlb := keep e.2.caches.tlb } })
    basins := s.basins.map fun e => (e.1, { e.2 with tlb := keep e.2.tlb })
    harts := s.harts.map fun e =>
      match ctxOfAgent s (e.1 / 8) with
      | some (m, _) => if m = ctx then (e.1, { e.2 with pins := e.2.pins.map fun p => p.map fun p => p.hold id b n }) else e
      | none => e }

/-- SHOOTDOWN_PACKET: R369. -/
def execShootdownPacket (queue : Nat) (s : State) : Out :=
  .next (packetStep s queue 6 fun t p =>
    let id := t.nextLaunch
    (.ok { Effect.none_ with shoots := [id] },
     { shootdown t (t.queue queue).ctx.toNat id (fieldAt p 24 8) (fieldAt p 32 8) with nextLaunch := id + 1 }))

/-! ## Load (R93 to R96, R378) -/

/-- A section of a code object (R94). -/
structure Section where
  name : Nat
  kind : Nat
  size : Nat
  fileoff : Nat
  loadoff : Nat
  reserved : Nat
  deriving DecidableEq, Repr

def sectionAt (l : List Byte) (o : Nat) : Section :=
  { name := fieldAt l o 4, kind := fieldAt l (o + 4) 1, size := fieldAt l (o + 8) 4, fileoff := fieldAt l (o + 12) 4
    loadoff := fieldAt l (o + 16) 4, reserved := fieldAt l (o + 6) 2 + fieldAt l (o + 20) 4 }

/-- A task entry of a code object (R95). -/
structure TaskDef where
  entry : Nat
  chan : Nat
  prio : Nat
  budget : Nat
  reserved : Nat
  deriving DecidableEq, Repr

def taskAt (l : List Byte) (o : Nat) : TaskDef :=
  { entry := fieldAt l o 4, chan := fieldAt l (o + 4) 1, prio := fieldAt l (o + 5) 1, budget := fieldAt l (o + 8) 4
    reserved := fieldAt l (o + 6) 2 + fieldAt l (o + 12) 4 }

/-- A code object as its header lays it out (R93). -/
structure CodeObject where
  mmrev : Nat
  cols : Nat
  rows : Nat
  secs : List Section
  tasks : List TaskDef
  deriving DecidableEq, Repr

def codeObject (l : List Byte) : CodeObject :=
  { mmrev := fieldAt l 6 2, cols := fieldAt l 8 2, rows := fieldAt l 10 2
    secs := (List.range (fieldAt l 20 2)).map fun i => sectionAt l (fieldAt l 16 4 + 24 * i)
    tasks := (List.range (fieldAt l 22 2)).map fun i => taskAt l (fieldAt l 24 4 + 16 * i) }

/-- A zero-terminated string of the string table begins at an offset (R94). -/
def stringOk (l : List Byte) (o : Nat) : Bool :=
  let size := fieldAt l 40 4
  decide (o < size) && ((l.drop (fieldAt l 36 4 + o)).take (size - o)).contains 0

/-- Sections of a kind. -/
def CodeObject.ofKind (c : CodeObject) (k : Nat) : List Section := c.secs.filter fun x => x.kind = k

def CodeObject.text (c : CodeObject) : Section := ((c.ofKind 1).head?).getD { name := 0, kind := 1, size := 0, fileoff := 0, loadoff := 0, reserved := 0 }

/-- The lowest reason of R96 for which a code object is refused. A pane image is measured with the place it loads at, and the bits of a symbol's
flags that R95 leaves at 0 are no reserved field (log 41). -/
def objectReason (l : List Byte) : Option Nat :=
  let c := codeObject l
  let n := l.length
  let inFile := fun o k : Nat => decide (o + k ≤ n)
  let panes := c.secs.filter fun x => decide (0x10 ≤ x.kind) && decide (x.kind ≤ 0x13)
  if fieldAt l 0 4 ≠ 0x4F5A544B ∨ fieldAt l 4 2 ≠ 1 then some 1
  else if c.mmrev = 0 ∨ 1 < c.mmrev then some 2
  else if !(inFile 0 64 && inFile (fieldAt l 16 4) (24 * c.secs.length) && inFile (fieldAt l 24 4) (16 * c.tasks.length)
      && inFile (fieldAt l 28 4) (12 * fieldAt l 32 4) && inFile (fieldAt l 36 4) (fieldAt l 40 4)
      && c.secs.all (fun x => inFile x.fileoff x.size && stringOk l x.name && decide (x.reserved = 0))
      && (List.range (fieldAt l 32 4)).all (fun i => stringOk l (fieldAt l (fieldAt l 28 4 + 12 * i) 4))
      && c.tasks.all (fun t => decide (t.reserved = 0)) && zeroAt l 44 20) then some 3
  else if !(c.secs.all (fun x => decide (x.kind = 1) || decide (x.kind = 2) || (decide (0x10 ≤ x.kind) && decide (x.kind ≤ 0x13)))
      && decide ((c.ofKind 1).length = 1) && decide ((c.ofKind 2).length ≤ 1)
      && (List.range 4).all (fun p => decide ((c.ofKind (0x10 + p)).length ≤ 1))
      && panes.all (fun x => decide (x.loadoff + x.size ≤ 65536))) then some 4
  else if !(decide (c.tasks.map (·.chan)).Nodup
      && c.tasks.all (fun t => decide (t.chan < 64) && decide (t.prio < 4) && decide (0 < t.budget))) then some 5
  else if !(c.tasks.all fun t => decide (t.entry % 4 = 0) && decide (c.text.loadoff ≤ t.entry)
      && decide (t.entry < c.text.loadoff + c.text.size)) then some 6
  else if 80 < c.cols ∨ 50 < c.rows ∨ (c.cols = 0) ≠ (c.rows = 0) then some 7
  else none

/-- Offset of the task table: the next multiple of 4 KiB after the highest section placed (R378). -/
def CodeObject.tableAt (c : CodeObject) : Nat :=
  let top := ((c.secs.filter fun x => x.kind < 0x10).map fun x => x.loadoff + x.size).foldl max 0
  (top + 4095) / 4096 * 4096

/-- Panes with an image, as a set. -/
def CodeObject.paneSet (c : CodeObject) : Nat := ((List.range 4).map fun p => if c.ofKind (0x10 + p) = [] then 0 else 2 ^ p).sum

/-- Bytes of the placed image. -/
def CodeObject.imageSize (c : CodeObject) : Nat :=
  c.tableAt + 1024 + 65536 * ((List.range 4).filter fun p => c.ofKind (0x10 + p) ≠ []).length

/-- The 1 KiB task table, indexed by channel (R95, R378). -/
def CodeObject.table (c : CodeObject) : List Byte :=
  (List.range 64).flatMap fun ch =>
    match c.tasks.find? fun t => t.chan = ch with
    | some t => leBytes 4 t.entry ++ leBytes 1 ch ++ leBytes 1 t.prio ++ [0, 0] ++ leBytes 4 t.budget ++ leBytes 4 0
    | none => leBytes 16 0

/-- The 64 KiB image of a pane. -/
def CodeObject.pane (c : CodeObject) (l : List Byte) (p : Nat) : List Byte :=
  match c.ofKind (0x10 + p) with
  | x :: _ => List.replicate x.loadoff 0 ++ (l.drop x.fileoff).take x.size ++ List.replicate (65536 - x.loadoff - x.size) 0
  | [] => []

/-- The code handle but for its magic (R378). -/
def CodeObject.handle (c : CodeObject) (region : Word) : List Byte :=
  leBytes 2 c.mmrev ++ leBytes 1 c.cols ++ leBytes 1 c.rows ++ leBytes 8 region.toNat ++ leBytes 4 c.tableAt ++ leBytes 4 c.paneSet
    ++ leBytes 40 0

/-- The writes of a load, in order: sections, task table, pane images, the handle, its magic last (R378). -/
def CodeObject.writes (c : CodeObject) (l : List Byte) (region hout : Word) : List (Word × List Byte) :=
  let at_ := fun o : Nat => region + BitVec.ofNat 64 o
  ((c.secs.filter fun x => x.kind < 0x10).map fun x => (at_ x.loadoff, (l.drop x.fileoff).take x.size))
    ++ [(at_ c.tableAt, c.table), (at_ (c.tableAt + 1024), (List.range 4).flatMap (c.pane l)), (hout + 4, c.handle region),
        (hout, leBytes 4 0x485A544B)]

/-- Writes of context n one after the other, up to one that fails. -/
def ctxWrites (n : Nat) : List (Word × List Byte) → State → Ans Unit
  | [], s => (.ok (), s)
  | (a, l) :: r, s => match ctxWrite s n a l with | (.ok (), s) => ctxWrites n r s | (.error c, s) => (.error c, s)

/-- Why a load is refused: R96, then a region that is too small or not mapped writable, then the handle's place (R378). -/
def loadReason (s : State) (cx : Ctx) (l : List Byte) (region : Word) (rsize : Nat) (houtOk : Bool) : Option Nat × State :=
  match objectReason l with
  | some r => (some r, s)
  | none =>
    let (mapped, s) := ctxWritable s cx region rsize
    (if rsize < (codeObject l).imageSize ∨ mapped = false then some 8 else if houtOk = false then some 9 else none, s)

/-- LOAD_PACKET: R378. The load is done when its packet is dispatched; a refused one leaves the handle's magic clear. -/
def execLoadPacket (queue : Nat) (s : State) : Out :=
  .next (packetStep s queue 5 fun t p =>
    let n := (t.queue queue).ctx.toNat
    let cx := t.ctx n
    let tzo : Word := BitVec.ofNat 64 (fieldAt p 24 8)
    let region : Word := BitVec.ofNat 64 (fieldAt p 40 8)
    let rsize := fieldAt p 48 4
    let hout : Word := BitVec.ofNat 64 (fieldAt p 56 8)
    match (addrFault tzo 1).orElse fun _ => (addrFault region 4096).orElse fun _ => addrFault hout 64 with
    | some f => (.error (4, f), t)
    | none =>
      match ctxRead t cx tzo (fieldAt p 32 4) with
      | (.error c, t) => (.error (4, c.toNat % 256), t)
      | (.ok l, t) =>
        let (houtOk, t) := ctxWritable t cx hout 64
        let t := if houtOk then (ctxWrite t n hout (leBytes 4 0)).2 else t
        match loadReason t cx l region rsize houtOk with
        | (some r, t) => (.error (6, r), t)
        | (none, t) =>
          match ctxWrites n ((codeObject l).writes l region hout) t with
          | (.ok (), t) => (.ok Effect.none_, t)
          | (.error _, t) => (.error (6, 8), t))

/-! ## Completion of launches, and the pool (R375, R381) -/

/-- A launch is part of what a message was sent for: the message is not finished. -/
def messagesOut (s : State) (id : Nat) : Bool :=
  s.net.any (fun m => decide (m.launch = some id))
    || (List.range 4).any fun d => (s.die d).spray.tx.any fun e => e.2.retained.any fun r => decide (r.msg.launch = some id)

/-- `head` and `tail` of those of a context's work-graph queues that `f` picks are written back to their blocks, at gang end and at pre-emption
(R277). -/
def writeBackWorks (s : State) (n : Nat) (f : WorkQueue → Bool) : State :=
  let ws := s.basins.flatMap fun e => e.2.works.filter fun w => decide (w.ctx = n) && f w
  ws.foldl (fun s w => (ctxWrite s n (w.block + 16) (leBytes 4 w.head.toNat ++ leBytes 4 w.tail.toNat)).2) s

/-- A gang of a context ends: `head` and `tail` of the queues it has used are written back to their blocks, and its owners give up those that no other
gang holds, so that the next gang finds what the block says then (R277). -/
def giveUpWorks (s : State) (n id : Nat) : State :=
  let s := writeBackWorks s n fun w => w.gangs.contains id
  s.mapBasins fun b => { b with works := b.works.filterMap fun w =>
    if w.ctx = n ∧ w.gangs.contains id then (if w.gangs.all (· = id) then none else some { w with gangs := w.gangs.filter (· ≠ id) }) else some w }

/-- A core leaves the gang of a launch (R273, R275). -/
def Core.leaveGang (c : Core) (id : Nat) : Core :=
  if c.part.launch = some id then
    { c with part := { c.part with launch := none, reported := false }
             weir := { c.weir with wmember := 0, gangSet := 0, arrived := 0 } }
  else c

/-- Launches that are done and wait for no descendant leave (R375); the fuel counts launches. -/
def reapLaunches (s : State) : Nat → State
  | 0 => s
  | f + 1 =>
    let busy := fun id : Nat =>
      s.launches.any (fun l => decide (l.parent = some id)) || s.ctxs.any fun e => e.2.entries.any fun p => decide (p.parent = id)
    match s.launches.find? fun l => l.done && !busy l.id with
    | some l => reapLaunches { s with launches := s.launches.filter fun k => k.id ≠ l.id } f
    | none => s

/-- The launch is complete but for its descendants: the reports of all its cores stand and its messages are finished, or every basin has
reported its frame (R375). -/
def launchReady (s : State) (l : Launch) : Bool :=
  let st := (s.ctx l.ctx).st
  !l.done && (decide (st = .active) || decide (st = .saving)) &&
    (match l.kind with
     | .gang => allReported s l && !messagesOut s l.id
     | .frame => l.basins.isEmpty)

/-- What a launch's completion leaves (R273, R290, R375, R381). -/
def completeLaunch (s : State) (l : Launch) : State :=
  let sites := l.cores.filterMap (siteOf s)
  let s := sites.foldl flushAll s
  let s := weirSettleAll (sites.foldl (fun s k => s.setCoreOf k ((s.coreOf k).leaveGang l.id)) s)
  let s := if l.kind = .gang then giveUpWorks s l.ctx l.id else s
  let cx := s.ctx l.ctx
  { s.setCtx l.ctx { cx with entries := cx.entries.filter fun e => e.launch ≠ some l.id } with
    launches := s.launches.map fun k => if k.id = l.id then { k with done := true } else k }

/-- LAUNCH_COMPLETION: R375. The packets that are complete leave their queues and write their signals. -/
def execLaunchCompletion (id : Nat) (s : State) : Out :=
  let s := match s.launch? id with
    | some l => if launchReady s l then completeLaunch s l else s
    | none => s
  .next (settleAll (reapLaunches s s.launches.length))

/-- The entries of a pool that may dispatch, in acceptance order (R381): one with a barrier waits for every earlier one of its parent. -/
def poolReady : List PoolEntry → List PoolEntry → List PoolEntry
  | _, [] => []
  | earlier, e :: r =>
    let rest := poolReady (earlier ++ [e]) r
    if e.launch.isSome ∨ (e.barrier && earlier.any fun o => decide (o.parent = e.parent)) then rest else e :: rest

/-- POOL_DISPATCH: the first entry that may dispatch becomes a launch (R381). An entry that its checks refuse when it is dispatched is dropped
(log 23). -/
def execPoolDispatch (ctx entry : Nat) (s : State) : Out :=
  let cx := s.ctx ctx
  .next (match (poolReady [] cx.entries).head? with
    | none => s
    | some e =>
      if cx.st ≠ .active ∨ e.slot ≠ entry then s
      else
        let p := readBytes s.mem (cx.pool.toNat * 2 ^ 18 + 64 * entry) 64
        let drop := fun t : State =>
          settleAll (reapLaunches (t.setCtx ctx { cx with entries := cx.entries.filter fun o => o.slot ≠ entry }) t.launches.length)
        match readBlock64 s cx (gangPacket p).handle with
        | (.error _, t) => drop t
        | (.ok l, t) =>
          match launchReason t cx true p (handleOf l) with
          | (some _, t) => drop t
          | (none, t) =>
            let parent := if e.parent = 0 then none else some e.parent
            let g := newGang t ctx p (handleOf l) none parent e.depth
            (t.addLaunch g).setCtx ctx
              { cx with entries := cx.entries.map fun o => if o.slot = entry then { o with launch := some g.id } else o })

end Sys2Proof.Machine
end

