-- ==== Sys2Proof/Machine/Contexts.lean ====
section
/-! DEFINITION. Contexts: activation, save, restore and release (R346, R361 to R364, R372, R382 to R384, R431). -/

namespace Sys2Proof.Machine

/-! ## Commands (R362) -/

/-- Sites that hold a core of a context's rows. -/
def ctxSites (s : State) (cx : Ctx) : List Nat :=
  (s.cores.filter fun e => decide (e.1 < 4096) && e.2.holdsCore && cx.rows.getLsbD (coordRow e.2.coreid)).map (·.1)

/-- The result of a command is `err`. -/
def ctxErr (s : State) (n : Nat) (e : BitVec 8) : State := s.setCtx n { s.ctx n with err := e }

/-- Every address field lies in device memory (R362, R365). -/
def Ctx.addressesOk (c : Ctx) : Bool :=
  isDev (c.root.toNat * 2 ^ 20) && isDev (c.reach.toNat * 128) && isDev (c.save.toNat * 4096) && isDev (c.pool.toNat * 2 ^ 18)
    && isDev (c.sup.toNat * 64) && isDev (c.post.toNat * 4096)

/-- No row of a context belongs to another that owns rows (R362). -/
def rowsFree (s : State) (n : Nat) : Bool := s.ctxs.all fun e => e.1 = n || !e.2.st.owns || decide (e.2.rows &&& (s.ctx n).rows = 0)

/-- The reach bitmap as the device reads it; bit 1,023 is ignored (R361, R363). -/
def readReach (s : State) (c : Ctx) : BitVec 1024 := BitVec.ofNat 1024 (readLE s.mem (c.reach.toNat * 128) 128 % 2 ^ 1023)

/-- Command 1, activate. -/
def ctxActivate (s : State) (n : Nat) : State :=
  let c := s.ctx n
  if c.st ≠ .free then ctxErr s n 1
  else if c.addressesOk = false then ctxErr s n 3
  else if rowsFree s n = false then ctxErr s n 2
  else
    s.setCtx n { c with err := 0, st := .active, lossCount := 0, lossLast := 0, reachMap := readReach s c, entries := [], savedCores := []
                        sides := [], frames := [], fatal := none }

/-- `fhold` by pre-emption on every channel of a core, or its clearing (R382, R384). -/
def Core.preempt (c : Core) (v : Bool) : Core := c.mapTasks fun t => { t with preempt := v }

/-- A queue stops because its context is released, as `en` = 0 stops it: what has been dispatched and is complete leaves with its signals
written. Code 0x07 where it held packets (R372, R377). A packet whose launch the release discards goes with it, without its signal
(log 23). -/
def releaseQueue (s : State) (n : Nat) : State :=
  let q := s.queue n
  if q.en = false then s
  else
    let held := q.wr ≠ q.rd ∨ q.ibs ≠ [] ∨ q.running ≠ []
    let s := stopQueue s n
    let s := s.setQueue n { s.queue n with en := false, stopping := false, running := [] }
    if held then queueError s n 0x07 0 (s.queue n).seq else s

/-- Queues bound to a context. -/
def ctxQueues (s : State) (n : Nat) : List Nat := (s.queues.filter fun e => decide (e.2.ctx.toNat = n)).map (·.1)

/-- What a basin's graphics unit holds for other frames than those of some launches: waiting frames, locks and requests (R219, R336). -/
def Gfx.others (g : Gfx) (launches : List Nat) : Gfx :=
  { g with waiting := g.waiting.filter fun id => !launches.contains id
           locks := g.locks.filter fun l => !launches.contains l.launch
           reqs := g.reqs.filter fun l => !launches.contains l.launch }

/-- What a basin holds for a context goes: translations, its frame and waiting frames, work-graph queues and requests (R346, R362, R422). -/
def Basin.dropCtx (b : Basin) (n : Nat) (launches : List Nat) : Basin :=
  let g := b.gfx.others launches
  let gone := (b.works.filter fun w => w.ctx = n).map (·.block)
  { b with
    tlb := b.tlb.filter fun e => e.ctx ≠ n
    gfx := if g.st ≠ .idle ∧ g.ctx = n then { Gfx.reset with waiting := g.waiting, locks := g.locks, reqs := g.reqs } else g
    works := b.works.filter fun w => w.ctx ≠ n
    asks := b.asks.filter fun q => q.ctx ≠ n
    ncev := b.ncev.filter fun e => !gone.contains e.block }

/-- A context's launches, translations, frames and work-graph queues go. -/
def dropCtx (s : State) (n : Nat) : State :=
  let ids := (s.launches.filter fun l => l.ctx = n).map (·.id)
  { s.mapBasins fun b => b.dropCtx n ids with
    cores := s.cores.map fun e => (e.1, { e.2 with caches := { e.2.caches with tlb := e.2.caches.tlb.filter fun t => t.ctx ≠ n } })
    launches := s.launches.filter fun l => l.ctx ≠ n }

/-- Command 4, release. -/
def ctxRelease (s : State) (n : Nat) : State :=
  let c := s.ctx n
  if c.st ≠ .saved ∧ c.st ≠ .fatal then ctxErr s n 1
  else
    let s := (ctxQueues s n).foldl releaseQueue s
    (dropCtx s n).setCtx n
      { c with err := 0, st := .free, entries := [], savedCores := [], sides := [], frames := [], fatal := none }

/-! ## Writing save records (R382, R383) -/

/-- Completions that are owed to a core reach it before its record is written (R203). -/
def settleWeir (s : State) (site : Nat) : State :=
  (List.range 16).foldl (fun s c =>
    (List.range ((s.coreOf site).weir.owed.get (Fin.ofNat 16 c))).foldl (fun s _ => weirReach s (BitVec.ofNat 4 c) site) s) s

/-- Messages that a core sent and that are not finished (R382 step 3). -/
def sentOut (s : State) (v : BitVec 32) : Bool :=
  s.net.any (fun m => decide (m.src = v))
    || (List.range 4).any fun d => (s.die d).spray.tx.any fun e => e.2.retained.any fun r => decide (r.msg.src = v)

/-- Step 3 of R382 holds for a core: no task, the fault queue empty, no Sluice request, nothing it sent unfinished; and no move of it is
under way (R431). -/
def saveReady (s : State) (site : Nat) : Bool :=
  let c := s.coreOf site
  noTask s site && c.sluice.faults.isEmpty && c.sluice.quiet && !sentOut s c.coreid && !moving s c.coreid

/-- Address of the reserved last 4 KiB of a basin's part of the bin buffer (R327, R346). -/
def FrameDesc.savedAt (d : FrameDesc) (b : Nat) : Nat :=
  d.binbuf.toNat + (d.basinList.idxOf b + 1) * (d.binbufsize.toNat / d.basinList.length) - 4096

/-- A frame's queued records are binned and its state leaves the basin, which writes the last 4 KiB of its part of the bin buffer, in a layout
that no rule gives (R346, log 21). Requests and locks for the pixels of other frames stay. -/
def saveFrame (s : State) (n b : Nat) : State :=
  let g := s.gfx b
  if g.st ≠ .idle ∧ g.ctx = n then
    let recs := g.queue.filterMap id
    let g1 := recs.foldl (fun g p => g.bin b p) { g with queue := g.queue.filter Option.isNone }
    let s := { frameWrite s g (g.desc.savedAt b) ((List.range 4096).map (Config.savedBins s.freeCtr b)) with freeCtr := s.freeCtr + 1 }
    let cx := s.ctx n
    (s.setGfx b { Gfx.reset with waiting := g.waiting, locks := (g.others [g.launch]).locks, reqs := (g.others [g.launch]).reqs }).setCtx n
      { cx with frames := smSet b { g1 with waiting := [], locks := [], reqs := [] } cx.frames }
  else s

/-- Steps 4 and 5 of R382 once every record is written: frames and work-graph queues are saved, the rows are free. -/
def finishSave (s : State) (n : Nat) : State :=
  let cx := s.ctx n
  let sites := ctxSites s cx
  if sites.all fun k => cx.savedCores.contains (coreIndex (s.coreOf k).coreid) then
    let s := (List.range 64).foldl (fun s b => saveFrame s n b) s
    let s := writeBackWorks s n fun _ => true
    let s := sites.foldl (fun s k =>
      let c := s.coreOf k
      s.setCoreOf k { c with part := { GangPart.reset with reported := false }, weir := Weir.reset, copies := []
                             mail := { c.mail with losses := [] } }) s
    s.setCtx n { s.ctx n with st := .saved }
  else s

/-- Command 2, save: step 1 of R382; the holds mark the cores (R271). A context without cores is Saved at once. -/
def ctxSave (s : State) (n : Nat) : State :=
  let c := s.ctx n
  if c.st ≠ .active then ctxErr s n 1
  else
    let s := (ctxSites s c).foldl (fun s k => s.setCoreOf k ((s.coreOf k).preempt true)) s
    finishSave (s.setCtx n { c with err := 0, st := .saving, savedCores := [] }) n

/-- The save record of a core is written (R382 step 4). -/
def saveRecord (s : State) (site : Nat) : State :=
  let c := s.coreOf site
  match ctxOfAgent s site with
  | none => s
  | some (n, cx) =>
    if cx.st = .saving ∧ !cx.savedCores.contains (coreIndex c.coreid) ∧ saveReady s site then
      let s := flushAll (settleWeir s site) site
      let c := s.coreOf site
      let s := writeRecord s cx c.coreid c
      let cx := (s.ctx n).setSide c.coreid { copies := c.copies, losses := c.mail.losses }
      finishSave (s.setCtx n { cx with savedCores := cx.savedCores ++ [coreIndex c.coreid] }) n
    else s

/-! ## Restore (R384) -/

/-- A launch that has started on a core and is not done: the gang a restored core belongs to. -/
def gangOf (s : State) (n : Nat) (v : BitVec 32) : Option Nat :=
  ((s.launches.filter fun l =>
    decide (l.ctx = n) && decide (l.kind = .gang) && !l.done && l.cores.contains v && !l.toStart.contains v).getLast?).map (·.id)

/-- A core is restored from its record (R384): L1 caches empty, the supervisor read again, every pre-emption hold cleared, and with the holds the
core's mark (R271). -/
def restoreCore (s : State) (n site : Nat) : State :=
  let cx := s.ctx n
  let c := s.coreOf site
  let v := c.coreid
  let (tvec, scratch, deleg) := supervisor s cx
  let d := cx.side v
  let c1 := readRecord s cx v { c with caches := { c.caches with l1d := [], l1i := [] }, sluice := Sluice.reset, mail := Mailbox.reset
                                       weir := Weir.reset }
  noteCleared c (s.setCoreOf site ({ c1 with
    copies := d.copies, mail := { c1.mail with losses := d.losses }
    part := { c1.part with launch := gangOf s n v, reported := false, supTvec := tvec, supScratch := scratch, supDeleg := deleg } }.preempt false)) site

/-- No other gang holds a channel that a gang of the context held (R275). -/
def weirsFree (s : State) (n : Nat) : Bool :=
  s.launches.all fun l => decide (l.ctx ≠ n) || l.done || s.launches.all fun e =>
    decide (e.ctx = n) || decide (e.kind ≠ .gang) || e.done || decide (e.wmember &&& l.wmember = 0)
      || !holdsWeirs s e || allReported s e

/-- Frames of a context return to their basins, which have to be idle (R346). -/
def framesFree (s : State) (cx : Ctx) : Bool := cx.frames.all fun e => decide ((s.gfx e.1).st = .idle)

/-- A context takes the weir sets of its gangs again: they leave the cores of any other gang, which has reported complete (R275). -/
def takeWeirs (s : State) (n : Nat) : State :=
  (s.launches.filter fun l => decide (l.ctx = n) && decide (l.kind = .gang) && !l.done).foldl freeWeirs s

/-- A context that is Restoring is loaded and becomes Active, once its weir channels and basins are free (R275, R384). -/
def loadContext (s : State) (n : Nat) : State :=
  let cx := s.ctx n
  if cx.st = .restoring ∧ weirsFree s n ∧ framesFree s cx then
    let s := (ctxSites s cx).foldl (fun s k => restoreCore s n k) (takeWeirs s n)
    let s := cx.frames.foldl (fun s e => s.setGfx e.1 { e.2 with waiting := (s.gfx e.1).waiting, locks := (s.gfx e.1).locks, reqs := (s.gfx e.1).reqs }) s
    s.setCtx n { s.ctx n with st := .active, savedCores := [], sides := [], frames := [] }
  else s

/-- Command 3, restore. A context that waits in Restoring goes on when it can. -/
def ctxRestore (s : State) (n : Nat) : State :=
  let c := s.ctx n
  if c.st ≠ .saved then ctxErr s n 1
  else if rowsFree s n = false then ctxErr s n 2
  else loadContext (s.setCtx n { c with err := 0, st := .restoring, reachMap := readReach s c }) n

/-- A command written to `ctxctl.cmd` (R362). -/
def ctxCommand (s : State) (n cmd : Nat) : State :=
  if cmd = 1 then ctxActivate s n
  else if cmd = 2 then ctxSave s n
  else if cmd = 3 then ctxRestore s n
  else if cmd = 4 then ctxRelease s n
  else ctxErr s n 1

/-- CTX_ACTIVATE: R362. -/
def execCtxActivate (ctx : Nat) (s : State) : Out := .next (whenReady s fun s => ctxActivate s ctx)

/-- CTX_SAVE: R382. -/
def execCtxSave (ctx : Nat) (s : State) : Out := .next (whenReady s fun s => ctxSave s ctx)

/-- SAVE_RECORD_WRITE: R382. -/
def execSaveRecordWrite (core : Nat) (s : State) : Out := .next (saveRecord s core)

/-- CTX_RESTORE: R384. The event of a context that is Restoring already loads it when it can. -/
def execCtxRestore (ctx : Nat) (s : State) : Out :=
  .next (if (s.ctx ctx).st = .restoring then loadContext s ctx else whenReady s fun s => ctxRestore s ctx)

/-- CTX_RELEASE: R362. -/
def execCtxRelease (ctx : Nat) (s : State) : Out := .next (whenReady s fun s => ctxRelease s ctx)

/-- CTX_INVALID_COMMAND: R362. -/
def execCtxInvalidCommand (ctx : Nat) (cmd : BitVec 3) (s : State) : Out := .next (whenReady s fun s => ctxCommand s ctx cmd.toNat)

end Sys2Proof.Machine
end

