-- ==== Sys2Proof/Machine/Paths.lean ====
section
/-! DEFINITION. Health, retirement and restoration of UCIe modules and fabric ports (R436, R437, R442, R466). -/

namespace Sys2Proof.Machine

/-- A path of a die with its register replaced: modules 0 to 15, then fabric ports. -/
def setPath (s : State) (d p : Nat) (h : PathHlth) : State :=
  s.setDie d { s.die d with paths := (s.die d).paths.set (p % 22) h (Nat.mod_lt _ (by decide)) }

def pathOf (s : State) (d p : Nat) : PathHlth := (s.die d).paths.get (Fin.ofNat 22 p)

/-- The die at the other end of a module (R3, R445). -/
def moduleDie (d p : Nat) : Nat := if p < 8 then d % 4 ^^^ 1 else d % 4 ^^^ 2

/-- A function applied to a path at both its ends in the package. -/
def bothEnds (s : State) (d p : Nat) (f : PathHlth → PathHlth) : State :=
  let s := setPath s d p (f (pathOf s d p))
  if p < 16 then setPath s (moduleDie d p) p (f (pathOf s (moduleDie d p) p)) else s

/-- A coordinate of a die of this package. -/
def dieCoord (s : State) (d : Nat) : BitVec 32 := coordOf s (40 * (d % 2)) (25 * (d / 2))

/-- A fabric port of a die replaced. -/
def setFabPort (s : State) (d i : Nat) (f : FabPort) : State :=
  s.setDie d { s.die d with fabports := (s.die d).fabports.set (i % 6) f (Nat.mod_lt _ (by decide)) }

/-- Where a path of a die leads: its route class, its number in the class, the peer die or package, and a coordinate there (R316, R442). -/
structure PathPlace where
  cls : Nat
  num : Nat
  peer : Nat
  dst : BitVec 32

def pathPlace (s : State) (d p : Nat) : PathPlace :=
  if p < 16 then { cls := p / 8, num := p % 8, peer := moduleDie d p, dst := dieCoord s (moduleDie d p) }
  else
    let pkg := (fabPortOf s d (p - 16)).peerpkg.toNat
    { cls := 3, num := (fabricPaths s pkg).idxOf (d % 4, p - 16), peer := pkg, dst := BitVec.ofNat 32 (pkg * 2 ^ 22) }

/-- A retirement or restoration is reported as type 0x14 (R437, R442). -/
def reportPath (s : State) (d p : Nat) : State :=
  let r := pathPlace s d p
  let cls := BitVec.ofNat 2 r.cls
  let live := (livePaths s (d % 4) cls r.dst).length
  s.emit 0x14 0xFF 0xFFFF (r.peer * 2 ^ 16 + r.num * 2 ^ 8 + r.cls) live
    ((repairFloor (routePaths s (d % 4) cls r.dst).length live).getD 0xFF)

/-- The path is retired at both ends; fragments in flight on it are lost (R437). The repair log takes the new path maps (R441). -/
def retirePath (s : State) (d p : Nat) : State :=
  let s := bothEnds s d p fun h => { h with retired := true }
  let lost := fun g : Flight => decide (g.path = p) && (decide (g.die = d % 4) || (decide (p < 16) && decide (g.die = moduleDie d p)))
  logUpdate (reportPath { s with frags := s.frags.filter fun g => !lost g, ctls := s.ctls.filter fun g => !lost g } d p)

/-- The path has reached its threshold and is not retired (R437). -/
def PathHlth.due (h : PathHlth) : Bool := decide (h.thresh ≠ 0) && decide (h.thresh.toNat ≤ h.level.toNat) && !h.retired

/-- The lease holder retires every fabric port that has reached its threshold: what one that takes its duties up finds (R437, R439). -/
def retireDue (s : State) : State :=
  (List.range 24).foldl (fun s i => if (pathOf s (i / 6) (16 + i % 6)).due then retirePath s (i / 6) (16 + i % 6) else s) s

/-- The path's level rises by one; a path that reaches its threshold is retired, a module by its die's cistern, a port by the lease holder, at once or
when it takes its duties up (R436, R437, R439). -/
def pathFault (s : State) (d p : Nat) : State :=
  let h := pathOf s d p
  let h1 := { h with level := if h.level = 0xFFFF then h.level else h.level + 1 }
  let s := setPath s d p h1
  if h1.due ∧ (p < 16 ∨ duties s) then retirePath s d p else s

/-- LINK_FLIT_CRC_DROP: R436. -/
def execLinkFlitCrcDrop (die path : Nat) (s : State) : Out := .next (pathFault s die path)

/-- PATH_LEAK_TICK: R419, R436. -/
def execPathLeakTick (die path : Nat) (s : State) : Out :=
  let h := pathOf s die path
  .next (setPath s die path { h with level := h.level - (if h.level = 0 then 0 else 1) })

/-- A fabric port shows how its retraining ended: `state` 2, or 3 where it failed (R468). It stays an installed path (R437). -/
def portRetrained (s : State) (d p : Nat) (passed : Bool) : State :=
  if p < 16 then s else setFabPort s d (p - 16) { fabPortOf s d (p - 16) with state := if passed then 2 else 3 }

/-- PATH_RETRAIN: a retired module or port that passes is restored, `retired` and `level` 0 (R437, R466, R468); one that fails is not
`trained`. A port is the lease holder's, and waits while its duties do (R439). -/
def execPathRetrain (die path : Nat) (passed : Bool) (s : State) : Out :=
  let s1 := portRetrained s die path passed
  .next (if 16 ≤ path ∧ duties s = false then s
    else if (pathOf s die path).retired then
      if passed then
        logUpdate (reportPath (bothEnds s1 die path fun h => { h with trained := true, retired := false, level := 0 }) die path)
      else bothEnds s1 die path fun h => { h with trained := false }
    else s)

end Sys2Proof.Machine
end

