-- ==== Sys2Proof/Machine/Leadership.lean ====
section
/-! DEFINITION. The lease among the four cisterns (R438 to R441, R470). A heartbeat and its acknowledgement are in flight in `State.beats` from
their sending to their arrival. -/

namespace Sys2Proof.Machine

def leaseOf (s : State) (d : Nat) : Lease := (s.die d).lease

def setLease (s : State) (d : Nat) (l : Lease) : State := s.setDie d { s.die d with lease := l }

/-- The other three dies. -/
def otherDies (d : Nat) : List Nat := (List.range 4).filter (· ≠ d % 4)

/-- A UCIe module, or a pair of them by way of the third die, is live between two dies (R439). -/
def linked (s : State) (a b : Nat) : Bool :=
  match routeClass s (a % 4) (dieCoord s b) with
  | some cls => !(livePaths s (a % 4) cls (dieCoord s b)).isEmpty
  | none => false

/-- A beat leaves over a live module; none leaves where no module is live. -/
def sendBeat (s : State) (b : Beat) : State := if linked s b.src b.dst then { s with beats := s.beats ++ [b] } else s

/-- A beat in flight has arrived: none where it is not in flight. -/
def takeBeat (s : State) (b : Beat) : Option State :=
  if s.beats.contains b then some { s with beats := s.beats.erase b } else none

/-- The cistern leads its term: its duties may be its own (R439). -/
def leads (s : State) (d : Nat) : Bool :=
  let l := leaseOf s d
  decide (l.leader.toNat = d % 4) && (decide (l.role = 1) || decide (l.role = 3)) && !l.failed

/-- LEASE_HEARTBEAT_SEND: the leader of its term sends a heartbeat with the next `seq` to the other three, unless `hben` is 0 (R417, R439). -/
def execLeaseHeartbeatSend (die : Nat) (s : State) : Out :=
  let l := leaseOf s die
  .next (if leads s die && (s.die die).hben then
      (otherDies die).foldl (fun s d => sendBeat s { ack := false, src := die % 4, dst := d, term := l.term, seq := l.hbseq + 1 })
        (setLease s die { l with hbseq := l.hbseq + 1, acks := [] })
    else s)

/-- LEASE_HEARTBEAT_RECEIVE: a follower accepts a heartbeat whose term is at least its own, adopts the term and acknowledges it (R439). -/
def execLeaseHeartbeatReceive (die sender : Nat) (term seq : BitVec 32) (s : State) : Out :=
  let b : Beat := { ack := false, src := sender % 4, dst := die % 4, term := term, seq := seq }
  .next (match takeBeat s b with
    | none => s
    | some s =>
      let l := leaseOf s die
      if l.term.toNat ≤ term.toNat ∧ !l.failed then
        sendBeat (setLease s die { l with term := term, leader := BitVec.ofNat 2 sender, role := 0, lapsed := false, since := false, votes := [] })
          { b with ack := true, src := die % 4, dst := sender % 4 }
      else s)

/-- The lease holder takes its duties up: the event records that waited, the fabric ports that have reached their threshold, and the repair log
(R437, R439, R441). -/
def resumeDuties (s : State) : State := logUpdate (retireDue (placeWaiting s))

/-- LEASE_HEARTBEAT_ACK: once two followers have acknowledged the leader's last heartbeat, its duties are its own for L more cycles, and what waited
is done (R439). -/
def execLeaseHeartbeatAck (die follower : Nat) (term seq : BitVec 32) (s : State) : Out :=
  .next (match takeBeat s { ack := true, src := follower % 4, dst := die % 4, term := term, seq := seq } with
    | none => s
    | some s =>
      let l := leaseOf s die
      if leads s die && decide (l.term = term) && decide (l.hbseq = seq) && !l.acks.contains (follower % 4) then
        let acks := l.acks ++ [follower % 4]
        let t := setLease s die { l with acks := acks, role := if 2 ≤ acks.length then 1 else l.role }
        if 2 ≤ acks.length ∧ l.role ≠ 1 then resumeDuties t else t
      else s)

/-- LEADER_LEASE_EXPIRY: `role` reads 3 and the duties wait (R439). -/
def execLeaderLeaseExpiry (die : Nat) (s : State) : Out :=
  let l := leaseOf s die
  .next (if l.role = 1 then setLease s die { l with role := 3 } else s)

/-- The cistern becomes candidate and claims a term, which counts as a claim that it has granted (R440, log 28). -/
def Lease.claims (l : Lease) (term : BitVec 32) : Lease :=
  { l with role := 2, claim := term, granted := if l.granted.toNat < term.toNat then term else l.granted, votes := [] }

/-- LEASE_LAPSE: 3L cycles pass without a heartbeat and a follower's lease lapses; its further delay passes and, unless it has granted a claim
meanwhile, it claims `term` + 1 (R439, R440). -/
def execLeaseLapse (die : Nat) (s : State) : Out :=
  let l := leaseOf s die
  .next (if l.role ≠ 0 ∨ l.failed then s
    else if l.lapsed = false then setLease s die { l with lapsed := true, since := false }
    else if l.since then s
    else setLease s die (l.claims (l.term + 1)))

/-- The candidate becomes leader of the term it claimed, reads the repair log, reports type 0x15 and takes the duties up. Records of the term before that
still wait are never written, and their `seq` shows as a gap (R439 to R442). Every update is written to the four copies in one step, so each copy that
can be read holds the records that State keeps in the dies' own registers, and only `lseq` is to be taken from it (log 28). -/
def takeLease (s : State) (d : Nat) : State :=
  let l := leaseOf s d
  let prev := if l.term = 0 then 0xFF else l.leader.toNat
  let s := setLease s d { l with role := 1, term := l.claim, leader := BitVec.ofNat 2 d, lapsed := false, since := false, votes := [], acks := []
                                 lseq := BitVec.ofNat 32 (logSeq s) }
  logUpdate (retireDue ((s.setRing { s.hostif.ring with waiting := [] }).emit 0x15 0xFF 0xFFFF l.claim.toNat (d % 4) prev))

/-- CLAIM_RETRY: a candidate without two grants claims again with a higher term (R440). -/
def execClaimRetry (die : Nat) (s : State) : Out :=
  let l := leaseOf s die
  .next (if l.role = 2 then setLease s die (l.claims (l.claim + 1)) else s)

end Sys2Proof.Machine
end

