-- ==== Sys2Proof/Machine/Repair.lean ====
section
/-! DEFINITION. Error windows, fatal contexts, Siphon and wait cycles (R415 to R433, R442). -/

namespace Sys2Proof.Machine

/-! ## The leaky window and patrol scrub (R417 to R420) -/

/-- A corrected error at a site; an increment that brings `level` to `thresh` sends one evacuation request (R419). -/
def countError (s : State) (site : Nat) (src : BitVec 4) (loc : BitVec 24) : State :=
  let c := s.coreOf site
  let e := c.err
  let level := if e.level = 0xFFFF then e.level else e.level + 1
  let send := !e.req && decide (e.thresh ≠ 0) && decide (level = e.thresh) && decide (level ≠ e.level)
  let s := s.setCoreOf site { c with err := { e with level := level, total := e.total + 1, src := src, loc := loc, req := e.req || send } }
  let d := site / 1024
  if send then s.setDie d { s.die d with evac := (s.die d).evac ++ [site] } else s

/-- A line of the L1 caches is lost, and fetched again when it is next used (R416). Which one is open. -/
def Caches.loseLine (c : Caches) (n : Nat) : Caches :=
  let i := n % (c.l1d.length + c.l1i.length)
  if i < c.l1d.length then { c with l1d := c.l1d.eraseIdx i } else { c with l1i := c.l1i.eraseIdx (i - c.l1d.length) }

/-- CORRECTED_ERROR: R419. A parity error of an L1 cache, source 3, invalidates its line (R416). -/
def execCorrectedError (site : Nat) (src : BitVec 4) (loc : BitVec 24) (s : State) : Out :=
  let s := countError s site src loc
  let c := s.coreOf site
  .next (if src = 3 then
      { s.setCoreOf site { c with caches := c.caches.loseLine (Config.parityLine s.freeCtr) } with freeCtr := s.freeCtr + 1 }
    else s)

/-- LEAK_TICK: R419. -/
def execLeakTick (site : Nat) (s : State) : Out :=
  let c := s.coreOf site
  .next (s.setCoreOf site { c with err := { c.err with level := c.err.level - (if c.err.level = 0 then 0 else 1) } })

/-- An 8-byte word of device memory becomes poisoned (R250, R420). -/
def poisonWord (s : State) (pa : Nat) (src : BitVec 3) : State :=
  if isDev pa then { s with poison := smSet (pa / 8) src s.poison } else s

/-- PATROL_SCRUB: a correctable error is corrected, at a site counted; an uncorrectable one poisons its word (R145, R417, R419, R420). -/
def execPatrolScrub (target : ScrubTarget) (found : ScrubFinding) (s : State) : Out :=
  .next (match target, found with
    | _, .clean => s
    | .scratchpad core off, .corrected =>
      if (s.die (core / 1024)).scrub then countError s core 0 (BitVec.ofNat 24 (off / 4)) else s
    | .scratchpad core off, .uncorrectable =>
      let c := s.coreOf core
      if (s.die (core / 1024)).scrub ∧ off < 0x40000 ∧ !c.spBad.contains (off / 4) then
        s.setCoreOf core { c with spBad := (c.spBad ++ [off / 4]).mergeSort (· ≤ ·) }
      else s
    | .memory pa, .uncorrectable =>
      if (s.die (pa / 2 ^ 41)).memscrub then poisonWord s pa (if pa % 2 ^ 41 < 2 ^ 40 then 0 else 1) else s
    | .l2 pa, .uncorrectable => if (s.die (pa / 2 ^ 41)).scrub then poisonWord s pa 2 else s
    | .memory _, .corrected => s
    | .l2 _, .corrected => s)

/-! ## Failed agents (R416, R417, R421) -/

/-- A basin controller is reset and runs its firmware from the entry (R417, R461). -/
def startBasin (s : State) (b : Nat) : State :=
  let i := (s.die (b / 16)).ident
  let k := 4096 + b
  let s := s.setCoreOf k { s.coreOf k with sp := writeBytes [] i.basinLoad i.basinBody }
  s.setHartOf (8 * k) { Hart.resetM .firmware with pc := i.basinEntry }

/-- Every context that a predicate picks becomes due to be Fatal, reported by an agent number (R421, R422). -/
def fatalWhere (s : State) (p : Ctx → Bool) (n : Nat) : State :=
  { s with ctxs := s.ctxs.map fun e =>
      if e.2.st.owns && p e.2 && e.2.fatal.isNone then (e.1, { e.2 with fatal := some (0, BitVec.ofNat 32 n) }) else e }

/-- A basin holds a site of one of the context's rows. -/
def basinHolds (s : State) (b : Nat) (cx : Ctx) : Bool := (ctxSites s cx).any fun k => decide (basinOfSite k = b)

/-- A die holds one of the context's rows: two dies share each row (R3). -/
def dieHolds (d : Nat) (cx : Ctx) : Bool := (List.range 25).any fun r => cx.rows.getLsbD (25 * (d % 4 / 2) + r)

/-- BASIN_HEARTBEAT: R417. -/
def execBasinHeartbeat (basin : Nat) (missed : Bool) (s : State) : Out :=
  let b := s.basin basin
  .next (if (s.die (basin / 16)).hben then s.setBasin basin { b with missed := if missed then b.missed + 1 else 0 } else s)

/-- A basin controller has failed: four heartbeats in a row are missing, or its lockstep pair disagrees (R417). -/
def Basin.failed (b : Basin) : Bool := decide (4 ≤ b.missed) || b.lockstep

/-- AGENT_FAILED: a basin controller that missed four heartbeats in a row or whose lockstep pair disagrees, or a cistern whose heartbeats have
lapsed at every follower, has failed (R417, R421, R439). -/
def execAgentFailed (cistern : Bool) (n : Nat) (s : State) : Out :=
  .next (if cistern then
      if (otherDies n).all (fun d => (leaseOf s d).lapsed && decide ((leaseOf s d).leader.toNat = n % 4)) && !(leaseOf s n).failed then
        (fatalWhere (setLease s n { leaseOf s n with failed := true }) (dieHolds n) (n % 4)).emit 0x17 0xFF 0xFFFF 1 (n % 4) 0
      else s
    else if (s.basin n).failed then
      let s := startBasin (s.setBasin n { s.basin n with missed := 0, lockstep := false }) n
      (fatalWhere s (basinHolds s n) n).emit 0x17 0xFF 0xFFFF 0 n 0
    else s)

/-! ## Siphon (R424 to R431) -/

/-- The move of a die replaced, in the repair log too (R441). -/
def setMove (s : State) (d : Nat) (m : Option Move) : State := logUpdate (s.setDie d { s.die d with move := m })

/-- Term of the leader that performs the duties. -/
def leaderTerm (s : State) : BitVec 32 :=
  match leaderDie s with
  | some d => (leaseOf s d).term
  | none => 0

/-- The leader that ran the move so far is the one that performs the duties now (R429). -/
def Move.led (m : Move) (s : State) : Bool := duties s && decide (m.term = leaderTerm s)

/-- Mesh hops between two sites of a die. -/
def meshHops (a b : Nat) : Nat :=
  let dist := fun x y : Nat => (x - y) + (y - x)
  dist (siteRow a) (siteRow b) + dist (siteCol a) (siteCol b)

/-- The spare of the die that is fewest mesh hops from a site, the lowest row and then the lowest column first (R424). -/
def chooseSpare (s : State) (site : Nat) : Option Nat :=
  let sp := (sitesOf (site / 1024)).filter fun k => (s.coreOf k).isSpare && decide (k ≠ site)
  sp.find? fun k => sp.all fun j => decide (meshHops site k ≤ meshHops site j)

/-- A site goes to its scan, isolated (R424, R435); one on the defective list stays there. -/
def toScan (s : State) (site : Nat) : State :=
  let c := s.coreOf site
  logUpdate (s.setCoreOf site { c.assign { valid := false, spare := false, coord := 0 } with
    pool := if c.pool = .defective then .defective else .scan })

/-- The Siphon request on every channel of a core. -/
def Core.siphon (c : Core) (v : Bool) : Core := c.mapTasks fun t => { t with siphon := v }

/-- Context that owns the row of a coordinate (R362), or 0xFF. -/
def ownerCtx (s : State) (v : BitVec 32) : Nat :=
  match ctxOfRow s CtxState.owns (coordRow v) with
  | some (n, _) => n
  | none => 0xFF

/-- The move of a site's core begins: Hold (R424, R426); no spare is type 0x12, reason 1 (R429). -/
def beginMove (s : State) (d site : Nat) : State :=
  let c := s.coreOf site
  match chooseSpare s site with
  | none => s.emit 0x12 (ownerCtx s c.coreid) 0xFFFF c.coreid.toNat 1 0
  | some sp =>
    setMove (s.setCoreOf site (c.siphon true)) d
      (some { coord := c.coreid, old := site, spare := sp, st := .hold, term := leaderTerm s, diverted := [] })

/-- SIPHON_HOLD: the leader takes the oldest request of a die (R424, R426). A move waits while the core's context is Saving or Restoring. -/
def execSiphonHold (die : Nat) (s : State) : Out :=
  let v := s.die die
  .next (match v.evac, v.move with
    | site :: rest, none =>
      if duties s = false then s
      else
        let c := s.coreOf site
        let t := s.setDie die { v with evac := rest }
        if c.holdsCore = false then toScan t site
        else
          match ctxOfAgent s site with
          | some (_, cx) => if cx.st = .saving ∨ cx.st = .restoring then s else beginMove t die site
          | none => beginMove t die site
    | _, _ => s)

/-- Hold may end (R426). -/
def holdDone (s : State) (site : Nat) : Bool :=
  let c := s.coreOf site
  noTask s site && c.sluice.quiet && c.sluice.faults.isEmpty

/-- The scratchpad is copied to the spare, which has been reset; uncorrectable words stay so (R426, R428). -/
def copyPanes (s : State) (m : Move) : State :=
  let s := resetSite (flushAll s m.old) m.spare
  s.setCoreOf m.spare { s.coreOf m.spare with sp := (s.coreOf m.old).sp, spBad := (s.coreOf m.old).spBad }

/-- SIPHON_COPY: R426. -/
def execSiphonCopy (die : Nat) (s : State) : Out :=
  .next (match (s.die die).move with
    | some m =>
      if m.st = .hold ∧ duties s ∧ holdDone s m.old then
        setMove (copyPanes s m) die (some { m with st := .copy, term := leaderTerm s })
      else s
    | none => s)

/-- SIPHON_STATE: the task table and the items of R383 are copied; what decides barriers is taken at Flip (R426). -/
def execSiphonState (die : Nat) (s : State) : Out :=
  .next (match (s.die die).move with
    | some m =>
      if m.st = .copy ∧ m.led s then
        let o := s.coreOf m.old
        let s := s.setCoreOf m.spare
          { s.coreOf m.spare with tasks := o.tasks, rr := o.rr, mail := o.mail, sluice := o.sluice }
        setMove s die (some { m with st := .state })
      else s
    | none => s)

/-- The pre-emption request of each channel is the other core's: a save may have set it since State (R431). -/
def Core.holdAs (c o : Core) : Core :=
  { c with tasks := (List.range 64).map fun ch => (ch, { c.task ch with preempt := (o.task ch).preempt }) }

/-- What a logical core's losses left at its site: its `lossrec`, the traps that wait for `mwait` and the copies that have arrived in part. They go with
the core at Flip, so that no loss recorded during the move is missed; R426 lists none of them (R322, R323; log 28). -/
def Core.lossesOf (c o : Core) : Core := { c with lossrec := o.lossrec, mail := { c.mail with losses := o.mail.losses }, copies := o.copies }

/-- SIPHON_FLIP: in one step the spare takes the placement, the weir state, the gang and `coreid` (R426). -/
def execSiphonFlip (die : Nat) (s : State) : Out :=
  .next (match (s.die die).move with
    | some m =>
      if m.st = .state ∧ m.led s then
        let o := s.coreOf m.old
        let n := (s.coreOf m.spare).assign { o.asg with valid := true, spare := false }
        let n := { (n.holdAs o).lossesOf o with weir := o.weir, part := o.part }
        let o1 := { o.assign { valid := false, spare := false, coord := 0 } with weir := Weir.reset, part := GangPart.reset, tasks := [] }
        let s := (s.setCoreOf m.spare n).setCoreOf m.old o1
        let e := remapOf s m.coord
        let e1 := { e with epoch := e.epoch + 1, prow := BitVec.ofNat 5 (siteRow m.spare), pcol := BitVec.ofNat 5 (siteCol m.spare) }
        setMove (setRemap s (die % 4) m.coord e1) die (some { m with st := .flip })
      else s
    | none => s)

/-- The placement word of a site with an epoch (R194, R442). -/
def placeWord (s : State) (site : Nat) (epoch : BitVec 16) : Nat :=
  epoch.toNat * 2 ^ 32 + s.hostif.regs.pkgid.toNat * 2 ^ 22 + site / 1024 * 2 ^ 18 + siteRow site * 2 ^ 8 + siteCol site

/-- A completed move is reported as type 0x10 (R442). -/
def reportMove (s : State) (v : BitVec 32) (old new : Nat) : State :=
  let e := (remapOf s v).epoch
  s.emit 0x10 (ownerCtx s v) 0xFFFF v.toNat (placeWord s old (e - 1)) (placeWord s new e)

/-- SIPHON_RELEASE: the diverted messages are applied in order, the hold is cleared, channel 63 is posted for a gang core, and the old site goes
to its scan (R426, R430, R435). -/
def execSiphonRelease (die : Nat) (s : State) : Out :=
  .next (match (s.die die).move with
    | some m =>
      if m.st = .flip ∧ duties s then
        let s := m.diverted.foldl arrive (setMove s die none)
        let held := s.coreOf m.spare
        let c := held.siphon false
        let e := (remapOf s m.coord).epoch
        let c := if c.part.launch.isSome then
            c.post 63 c.coreid 0 (e.setWidth 32) (BitVec.ofNat 32 (placeWord s m.spare e))
          else c
        toScan (reportMove (noteCleared held (s.setCoreOf m.spare c) m.spare) m.coord m.old m.spare) m.old
      else s
    | none => s)

/-- A core's Siphon request is cleared, on every channel, and its basin notes what can be posted again (R426, R461). -/
def unhold (s : State) (site : Nat) : State :=
  let c := s.coreOf site
  noteCleared c (s.setCoreOf site (c.siphon false)) site

/-- The move begins at Copy under the leader of now, with what was diverted kept (R429). -/
def copyAgain (s : State) (die : Nat) (m : Move) : State :=
  setMove (copyPanes s m) die (some { m with st := .copy, term := leaderTerm s })

/-- The next spare takes the move over, from Copy unless it is still in Hold; with none left the old site applies what was diverted and goes on,
type 0x12, reason 1 (R429). -/
def nextSpare (s : State) (die : Nat) (m : Move) : State :=
  match chooseSpare s m.old with
  | some k => if m.st = .hold then setMove s die (some { m with spare := k }) else copyAgain s die { m with spare := k }
  | none =>
    let s := unhold (m.diverted.foldl arrive (setMove s die none)) m.old
    logUpdate (s.emit 0x12 (ownerCtx s m.coord) 0xFFFF m.coord.toNat 1 0)

/-- The context of the moving core becomes Fatal: before Flip the spare returns to its pool, type 0x12, reason 2; after it the spare keeps the
placement, type 0x10 (R429). -/
def fatalMove (s : State) (die : Nat) (m : Move) : State :=
  let s := setMove s die none
  if m.st = .flip ∨ m.st = .release then toScan (reportMove (unhold s m.spare) m.coord m.old m.spare) m.old
  else
    let s := unhold (if m.st = .hold then s else resetSite s m.spare) m.old
    logUpdate (s.emit 0x12 (ownerCtx s m.coord) 0xFFFF m.coord.toNat 2 0)

/-- The context of a coordinate is due to be Fatal. -/
def fatalDue (s : State) (v : BitVec 32) : Bool :=
  s.ctxs.any fun e => e.2.st.owns && e.2.rows.getLsbD (coordRow v) && e.2.fatal.isSome

/-- SIPHON_ABORT: R429, by the lease holder, whose duties wait while it holds no lease (R439). Copy and State go on only under the leader that began
them; after a lease change the new leader begins again at Copy. -/
def execSiphonAbort (die : Nat) (why : AbortReason) (s : State) : Out :=
  .next (match (s.die die).move with
    | none => s
    | some m =>
      if duties s = false then s
      else
        match why with
        | .spareFailed => if m.st = .hold ∨ m.st = .copy ∨ m.st = .state then nextSpare (toScan s m.spare) die m else s
        | .contextFatal => if fatalDue s m.coord then fatalMove s die m else s
        | .leaseChange => if (m.st = .copy ∨ m.st = .state) ∧ m.led s = false then copyAgain s die m else s)

/-! ## Fatal contexts (R422, R423) -/

/-- A hart of a context that becomes Fatal: a task ends with its pins and locks, a halted hart is free (R422 step 2). -/
def fatalHart (s : State) (k : Nat) : State :=
  let h := s.hartOf k
  let s := match h.run with
    | .task _ => s.mapBasins fun b =>
        { b with gfx := { b.gfx with locks := b.gfx.locks.filter fun l => l.hart ≠ k, reqs := b.gfx.reqs.filter fun r => r.hart ≠ k } }
    | _ => s
  match h.run with
  | .task _ | .halted => s.setHartOf k { h.ended .free with serial := h.serial + 1 }
  | _ => s

/-- A core's state becomes zero (R422 steps 3 and 5). -/
def Core.wiped (c : Core) : Core :=
  { c with sp := [], spBad := [], tasks := [], rr := Vector.replicate 4 63, mail := Mailbox.reset, weir := Weir.reset
           part := GangPart.reset, sluice := Sluice.reset, laneBuf := [], laneHolder := none, laneWait := [], copies := [] }

/-- Steps 1 to 5 of R422 at one site. -/
def fatalSite (s : State) (site : Nat) : State :=
  let s := (hartsOf site).foldl fatalHart s
  s.setCoreOf site (s.coreOf site).wiped

/-- The moves of a context's cores end (R423, R429). -/
def fatalMoves (s : State) (cx : Ctx) : State :=
  (List.range 4).foldl (fun s d =>
    match (s.die d).move with
    | some m => if cx.rows.getLsbD (coordRow m.coord) then fatalMove s d m else s
    | none => s) s

/-- A context's queues hold; what they had dispatched is gone with its work (R422 step 4). -/
def holdQueues (s : State) (n : Nat) : State :=
  (ctxQueues s n).foldl (fun s q =>
    let v := s.queue q
    s.setQueue q { v with ibs := [], running := [], en := v.en && !v.stopping, stopping := false }) s

/-- Steps 1 to 5 of R422: the work of a context is discarded. -/
def discardContext (s : State) (n : Nat) : State :=
  let cx := s.ctx n
  let s := fatalMoves s cx
  let sites := ctxSites s cx
  let s := sites.foldl fatalSite s
  let s := { s with hostif := { s.hostif with prgs := s.hostif.prgs.filter fun p => !sites.contains p.core } }
  dropCtx (holdQueues s n) n

/-- FATAL_SEQUENCE: R422. Type 0x02 carries the first cause and its reporter (R421). -/
def execFatalSequence (ctx : Nat) (s : State) : Out :=
  let cx := s.ctx ctx
  .next (match cx.fatal with
    | some (cause, from_) =>
      if cx.st.owns ∧ duties s then
        let s := discardContext s ctx
        logUpdate ((s.setCtx ctx { s.ctx ctx with st := .fatal, entries := [], savedCores := [], sides := [], frames := [] }).emit
          0x02 ctx 0xFFFF cause.toNat from_.toNat 0)
      else s
    | none => s)

/-! ## Wait cycles (R432, R433) -/

/-- The edge a hart gives: its own core and the peer it waits for (R432). -/
def waitEdge (s : State) (k : Nat) : Option (BitVec 32 × BitVec 32) :=
  let (r, p) := waitReason s k
  if (r = 2 ∨ r = 4 ∨ r = 6) ∧ p ≠ 0 ∧ frozen s k = false ∧ (s.hartOf k).wait.expired then
    some ((s.coreOf (k / 8)).coreid, p)
  else none

/-- A member as its wait word is read. -/
def waitMember (s : State) (k : Nat) : WaitMember :=
  let h := s.hartOf k
  { core := (s.coreOf (k / 8)).coreid, hart := k, serial := h.serial, word := waitWord s k, cyc := h.user.cyc }

/-- An edge: the hart that waits, as its wait word is read, and the core it waits for. -/
structure Edge where
  who : WaitMember
  peer : BitVec 32
  deriving DecidableEq, Repr

/-- The edges of a context's harts. -/
def ctxEdges (s : State) (cx : Ctx) : List Edge :=
  (ctxSites s cx).flatMap fun site => (hartsOf site).filterMap fun k =>
    (waitEdge s k).map fun e => { who := waitMember s k, peer := e.2 }

/-- An edge that another package has told (R432). -/
def RemoteEdge.edge (e : RemoteEdge) : Edge :=
  { who := { core := e.core, hart := e.hart, serial := e.serial, word := e.word, cyc := e.cyc }, peer := e.peer }

/-- A path of edges, newest first, continued to the core it began at; no core is visited twice. -/
def closeCycle (es : List Edge) (target : BitVec 32) : Nat → List Edge → Option (List Edge)
  | 0, _ => none
  | f + 1, path =>
    match path with
    | [] => none
    | e :: _ =>
      if e.peer = target then some path.reverse
      else
        (es.filter fun x => decide (x.who.core = e.peer) && !path.any fun y => decide (y.who.core = x.who.core)).findSome? fun x =>
          closeCycle es target f (x :: path)

/-- A cycle in its order, from its lowest coordinate (R433). -/
def fromLowest (l : List Edge) : List Edge :=
  match (List.range l.length).find? fun i => l.all fun e => decide (((l[i]?).map fun x => x.who.core.toNat).getD 0 ≤ e.who.core.toNat) with
  | some i => l.drop i ++ l.take i
  | none => l

/-- The members of a cycle, whatever their words say, and its cores. -/
def WaitCycle.names (w : WaitCycle) : List (BitVec 32 × Nat × Nat) := w.members.map fun m => (m.core, m.hart, m.serial)
def WaitCycle.cores (w : WaitCycle) : List (BitVec 32) := w.members.map (·.core)

/-- The harts whose edges lead from a core of a sequence to the next. -/
def backsOf (es : List Edge) (cs : List (BitVec 32)) : List (BitVec 32 × Nat × Nat) :=
  (es.filter fun e => (cs.zip (cs.drop 1 ++ cs.take 1)).contains (e.who.core, e.peer)).map fun e => (e.who.core, e.who.hart, e.who.serial)

/-- A cycle through the cores of `c` is seen again: it is the one seen before where each core keeps a hart that led to the next; else that one has been
broken, and its report concerns the new one no longer (R432, R433). -/
def WaitCycle.seen (c w : WaitCycle) : Option WaitCycle :=
  if w.cores ≠ c.cores then some w
  else if !w.reported || c.cores.all (fun v => c.backs.any fun b => decide (b.1 = v) && w.backs.contains b) then some { w with backs := c.backs }
  else none

/-- WAIT_CYCLE_WALK: the walk that a hart's expiry starts, over the context's harts and what other packages have told; a cycle through the
hart becomes a candidate (R432). -/
def execWaitCycleWalk (hart : Nat) (s : State) : Out :=
  .next (match ctxOfAgent s (hart / 8) with
    | none => s
    | some (_, cx) =>
      let own := ctxEdges s cx
      let es := own ++ s.remote.map RemoteEdge.edge
      match (own.find? fun e => decide (e.who.hart = hart)).bind fun e => closeCycle es e.who.core es.length [e] with
      | none => s
      | some l =>
        let ms := (fromLowest l).map Edge.who
        let c : WaitCycle := { members := ms, backs := backsOf es (ms.map (·.core)), reported := false }
        if duties s = false then s
        else
          let ws := s.walks.filterMap c.seen
          { s with walks := if ws.any fun w => decide (w.names = c.names) then ws else ws ++ [c] })

/-- A member is a hart of this package. -/
def WaitMember.here (s : State) (m : WaitMember) : Bool := decide (coordPkg m.core = s.hostif.regs.pkgid.toNat)

/-- A member stands as it did, and its `cyc` has risen by 2^15 at least, as this package reads it or as its own has told it anew (R432). -/
def WaitMember.stands (s : State) (m : WaitMember) : Bool :=
  let same := fun w : WaitMember =>
    decide (w.core = m.core) && decide (w.serial = m.serial) && decide (w.word = m.word) && decide (2 ^ 15 ≤ (w.cyc - m.cyc).toNat)
  if m.here s then same (waitMember s m.hart) else s.remote.any fun e => decide (e.hart = m.hart) && same e.edge.who

/-- A confirmed cycle's records of type 0x11 (R433, R442). -/
def reportCycle (s : State) (ms : List Nat) (ctx : Nat) : State :=
  (List.range ((ms.length + 4) / 5)).foldl (fun s j =>
    let m := fun i : Nat => ms.getD (5 * j + i) 0
    s.emit 0x11 ctx 0xFFFF (ms.length + 2 ^ 16 * j + 2 ^ 32 * m 0) (m 1 + 2 ^ 32 * m 2) (m 3 + 2 ^ 32 * m 4)) s

/-- WAIT_CYCLE_CONFIRM: the candidate at index i is read again; it is reported, unless its cores' cycle has been reported through other harts, or it is
none (R432, R433). -/
def execWaitCycleConfirm (i : Nat) (s : State) : Out :=
  .next (match s.walks[i]? with
    | none => s
    | some c =>
      if duties s = false ∨ c.reported then s
      else if c.members.all (WaitMember.stands s) ∧ !s.walks.any (fun w => w.reported && decide (w.cores = c.cores)) then
        let s := { s with walks := s.walks.set i { c with reported := true } }
        reportCycle s (c.members.map fun m => m.core.toNat) (((c.members.find? (WaitMember.here s)).map fun m => ownerCtx s m.core).getD 0xFF)
      else { s with walks := s.walks.eraseIdx i })

/-- The edges of the contexts with a fabric tag, told to another package's lease holder (R432). -/
def tellEdges (s : State) (ctag : BitVec 16) : State :=
  if duties s then
    let es := (s.ctxs.filter fun e => e.2.st.owns && decide (e.2.tag = ctag)).flatMap fun e => ctxEdges s e.2
    { s with told := s.told ++ es.map fun e =>
        { core := e.who.core, peer := e.peer, hart := e.who.hart, serial := e.who.serial, word := e.who.word, cyc := e.who.cyc } }
  else s

/-- What the lease holder of another package tells replaces what it told before (R432). -/
def hearEdges (s : State) (pkg : BitVec 10) (es : List RemoteEdge) : State :=
  let of_ := fun e : RemoteEdge => decide (coordPkg e.core = pkg.toNat)
  if pkg = s.hostif.regs.pkgid then s else { s with remote := (s.remote.filter fun e => !of_ e) ++ es.filter of_ }

end Sys2Proof.Machine
end

