-- ==== Sys2Proof/Machine/Rom.lean ====
section
/-! DEFINITION. The boot bundle, the mask ROM, and the resets that lead to it (R406, R446 to R455, R470 to R472). -/

namespace Sys2Proof.Machine

/-! ## The boot bundle (R446, R447) -/

/-- An entry of the bundle's directory. -/
structure DirEntry where
  kind : Nat
  die : Nat
  offset : Nat
  size : Nat
  reserved : Nat
  deriving DecidableEq, Repr

def dirEntry (m : Memory) (i : Nat) : DirEntry :=
  let b := readBytes m (8 + 16 * i) 16
  { kind := fieldAt b 0 2, die := fieldAt b 2 2, offset := fieldAt b 4 4, size := fieldAt b 8 4, reserved := fieldAt b 12 4 }

/-- An entry keeps the rules of its kind; keys and helper data have their sizes, and an item lies in the 64 MiB of the flash. -/
def DirEntry.ok (e : DirEntry) : Bool :=
  decide (1 ≤ e.kind) && decide (e.kind ≤ 8) && decide (e.reserved = 0) && decide (e.die < (if 7 ≤ e.kind then 4 else 1))
    && decide (e.offset + e.size ≤ 2 ^ 26)
    && (if e.kind = 1 ∨ e.kind = 5 then decide (e.size = 1312) else if e.kind = 7 then decide (e.size = 128) else true)

/-- Entries of a kind and a die. -/
def entriesOf (es : List DirEntry) (kind die : Nat) : List DirEntry := es.filter fun e => decide (e.kind = kind) && decide (e.die = die)

/-- The directory: none where it is malformed. -/
def directory (m : Memory) : Option (List DirEntry) :=
  let n := readLE m 4 4
  let es := (List.range n).map (dirEntry m)
  if readBytes m 0 4 = [0x4B, 0x57, 0x42, 0x44] ∧ 1 ≤ n ∧ n ≤ 32 ∧ es.all DirEntry.ok
      ∧ (List.range 5).all (fun k => decide ((entriesOf es (k + 1) 0).length = 1))
      ∧ (List.range 4).all (fun d => decide ((entriesOf es 7 d).length = 1) && decide ((entriesOf es 8 d).length ≤ 1)) then
    some es
  else none

/-- The bytes of the item of a kind and a die; none of them where the bundle has no such item. -/
def itemBytes (m : Memory) (es : List DirEntry) (kind die : Nat) : List Byte :=
  match entriesOf es kind die with
  | e :: _ => readBytes m e.offset e.size
  | [] => []

/-- A signed item. -/
structure SignedItem where
  keyidx : Nat
  version : List Byte
  load : Nat
  entry : Word
  body : List Byte
  /-- Bytes 0 to 63 + `bodysize`. -/
  signed : List Byte
  sig : List Byte
  deriving DecidableEq, Repr

/-- Parses a signed item of a kind: none where its header breaks a rule or its parts do not fill it. Its first instruction lies at a multiple of 4, as
every pc does (R75). -/
def signedItem (kind : Nat) (l : List Byte) : Option SignedItem :=
  let n := fieldAt l 12 4
  if l.take 4 = [0x4B, 0x57, 0x49, 0x4D] ∧ fieldAt l 4 2 = kind ∧ zeroAt l 32 32 ∧ l.length = 64 + n + 2420 then
    some { keyidx := fieldAt l 6 2, version := (l.drop 8).take 4, load := fieldAt l 16 8, entry := BitVec.ofNat 64 (fieldAt l 24 8) &&& ~~~3
           body := (l.drop 64).take n, signed := l.take (64 + n), sig := l.drop (64 + n) }
  else none

/-- The ML-DSA-44 signature over the hash of the signed bytes verifies with a key (R447). -/
def SignedItem.verifies (i : SignedItem) (key : List Byte) : Bool := MlDsa.verify key (sha3 i.signed) i.sig

/-- Keys of a manifest's body: none where it is not a count of 1 to 8 and that many keys. -/
def manifestKeys (body : List Byte) : Option (List (List Byte)) :=
  let n := fieldAt body 0 4
  if 1 ≤ n ∧ n ≤ 8 ∧ body.length = 4 + 1312 * n then some ((List.range n).map fun i => (body.drop (4 + 1312 * i)).take 1312) else none

/-- The items of a bundle that have been verified (steps 4 and 5 of R449). -/
structure Verified where
  owner : Bool
  manifest : SignedItem
  cistern : SignedItem
  basin : SignedItem
  deriving DecidableEq, Repr

/-- An item verifies with the manifest key that its `keyidx` names. -/
def verifyItem (keys : List (List Byte)) (kind : Nat) (l : List Byte) : Except (BitVec 8) SignedItem :=
  match signedItem kind l with
  | some i =>
    match keys[i.keyidx]? with
    | some k => if i.verifies k then .ok i else .error 4
    | none => .error 4
  | none => .error 4

/-- The manifest verifies: with the kind-1 key, whose hash is the ROM's, or with its own key 0 (R447, R449). -/
def verifyManifest (root l : List Byte) : Except (BitVec 8) (SignedItem × List (List Byte)) :=
  match signedItem 2 l with
  | none => .error 4
  | some i =>
    match manifestKeys i.body with
    | none => .error 4
    | some keys =>
      if i.keyidx = 0xFFFF then
        if sha3 root ≠ Config.romRootHash then .error 3 else if i.verifies root then .ok (i, keys) else .error 4
      else if i.keyidx = 0xFFFE then (if i.verifies (keys.headD []) then .ok (i, keys) else .error 4)
      else .error 4

/-- Steps 4 and 5 of R449. -/
def verifyBundle (m : Memory) (es : List DirEntry) : Except (BitVec 8) Verified :=
  match verifyManifest (itemBytes m es 1 0) (itemBytes m es 2 0) with
  | .error e => .error e
  | .ok (man, keys) =>
    match verifyItem keys 3 (itemBytes m es 3 0), verifyItem keys 4 (itemBytes m es 4 0) with
    | .ok a, .ok b => .ok { owner := decide (man.keyidx = 0xFFFE), manifest := man, cistern := a, basin := b }
    | .error e, _ => .error e
    | _, .error e => .error e

/-! ## Measurements and identity (R450, R452, R453) -/

/-- The published hash of the mask ROM (R448). -/
def romHash : List Byte :=
  [0x6B, 0x1F, 0x04, 0xD2, 0x9C, 0xE0, 0xA7, 0x3B, 0x51, 0xD8, 0xE6, 0xF0, 0x2A, 0x47, 0xC9, 0x13,
   0xE8, 0x0B, 0x5F, 0x6C, 0x74, 0xA9, 0xD2, 0x1E, 0x0C, 0x36, 0xBF, 0x85, 0xD1, 0x93, 0x7E, 0xA4]

/-- extend(t, d) of a chain value. -/
def extend (m : List Byte) (t : Nat) (d : List Byte) : List Byte := sha3 (m ++ leBytes 2 t ++ d)

/-- The chain value of step 6. -/
def chainValue (v : Verified) (scanKey : List Byte) : List Byte :=
  let m := extend (List.replicate 32 0) 0 romHash
  let m := extend m 2 (sha3 v.manifest.signed)
  let m := extend m 3 (sha3 v.cistern.signed)
  let m := extend m 4 (sha3 v.basin.signed)
  extend m 5 (sha3 scanKey)

/-- The bytes of the strings "KWDEVID" and "KWALIAS". -/
def kwDevId : List Byte := [0x4B, 0x57, 0x44, 0x45, 0x56, 0x49, 0x44]
def kwAlias : List Byte := [0x4B, 0x57, 0x41, 0x4C, 0x49, 0x41, 0x53]

/-- The identity from a PUF seed: the device seed and the seed of the other key. -/
def deviceSeed (seed hman : List Byte) : List Byte := sha3 (kwDevId ++ seed ++ hman)
def nextSeed (dev m : List Byte) : List Byte := sha3 (kwAlias ++ dev ++ m)

/-- What a die has found once its ROM is done: `seed` is none where the PUF does not decode. -/
def identityOf (v : Verified) (m : List Byte) (seed : Option (List Byte)) (cert scanKey : List Byte) : Identity :=
  let hman := sha3 v.manifest.signed
  let dev := (seed.map fun s => deviceSeed s hman).getD []
  { hman := hman, firmware := sha3 v.cistern.signed ++ sha3 v.basin.signed
    versions := v.manifest.version ++ v.cistern.version ++ v.basin.version
    aliasSeed := (seed.map fun _ => nextSeed dev m).getD [], deviceSeed := dev, cert := cert, scanKey := scanKey
    basinLoad := v.basin.load, basinEntry := v.basin.entry, basinBody := v.basin.body }

/-! ## The mask ROM (R449) -/

/-- Key of a cistern's hart. -/
def cisternHart (d : Nat) : Nat := 8 * (4160 + d % 4)

/-- A step of the ROM fails: its code is recorded and the cistern halts. -/
def romFail (s : State) (d : Nat) (code : BitVec 8) : State :=
  let k := cisternHart d
  let s := s.failDie (d % 4) code
  s.setHartOf k { (s.hartOf k).waitOn 0x11 0 0 with run := .halted }

/-- Dies 1 to 3 have received the bundle's items: die 0 has passed its step 3. -/
def bundleSent (s : State) (d : Nat) : Bool :=
  let b := (s.die 0).boot
  d % 4 = 0 || decide (1 ≤ b.phase.toNat) || decide (b.err = 3) || decide (b.err = 4)

/-- The cistern executes its mask ROM. -/
def atRom (s : State) (d : Nat) : Bool :=
  let h := s.hartOf (cisternHart d)
  let b := (s.die d).boot
  decide (b.phase = 0) && decide (b.err = 0) && decide (h.run = .firmware) && decide (h.pc.toNat < 0x20000)

/-- Steps 6 to 8: the chain, the identity, the firmware in place and running. Die 0's firmware, which starts phase 1 with it, answers configuration
space and raises type 0x08, and `aoreg` takes the epoch (R469, R470, R472). -/
def romBoot (s : State) (d : Nat) (v : Verified) (scanKey helper cert : List Byte) : State :=
  let m := chainValue v scanKey
  let seed := pufSeed ((List.range 1022).map (Config.puf (d % 4))) helper
  let ident := identityOf v m seed cert scanKey
  let die := s.die d
  let boot := { die.boot with phase := 1, scanok := decide (sha3 scanKey = Config.romScanHash), owner := v.owner, idok := seed.isSome }
  let s := s.setDie d { die with boot := boot, ident := ident, meas := BitVec.ofNat 256 (leValue m) }
  let k := 4160 + d % 4
  let c := s.coreOf k
  let sp := if seed.isSome then writeBytes c.sp 0x7F000 (MlDsa.keyGen ident.aliasSeed).2 else c.sp
  let s := s.setCoreOf k { c with sp := writeBytes sp v.cistern.load v.cistern.body }
  let s := s.setHartOf (8 * k) { s.hartOf (8 * k) with pc := v.cistern.entry }
  let s := { s with freeCtr := s.freeCtr + 1 }
  if d % 4 = 0 then
    let s := s.setDie 0 { s.die 0 with aoreg := s.hostif.regs.hepoch }
    let s := { s with hostif := { s.hostif with regs := { s.hostif.regs with configured := true } } }
    s.emit 0x08 0xFF 0xFFFF s.hostif.regs.hepoch.toNat 0 0
  else s

/-- Phase 2 begins on the dies whose phase 1 is done, once there is a package identifier or its time is up (R467, R470). -/
def beginPhase2 (s : State) : State :=
  let r := s.hostif.regs
  if r.pkgidValid ∨ r.pkgTimeout then
    (List.range 4).foldl (fun s d =>
      let v := s.die d
      if v.boot.phase = 1 ∧ v.boot.err = 0 then
        let ports := if s.hostif.regs.pkgTimeout then v.fabports.map fun p => { p with state := 4 } else v.fabports
        s.setDie d { v with boot := { v.boot with phase := 2 }, fabports := ports }
      else s) s
  else s

/-- A die's mask ROM runs, from its first step to its last (R449, log 22). A die whose items or sideband have not come waits. -/
def romTurn (s : State) (d : Nat) : State :=
  if atRom s d = false then s
  else if Config.romFault s.freeCtr d then romFail s d 1
  else
    let r := s.hostif.regs
    let s := if d % 4 = 0 ∧ r.pciState = 0 then
        { s with hostif := { s.hostif with regs := { r with hepoch := (s.die 0).aoreg + 1, pciState := 1 } } }
      else s
    match directory s.flash with
    | none => if d % 4 = 0 then romFail s d 2 else s
    | some es =>
      if bundleSent s d = false ∨ Config.sidebandUp s.freeCtr d = false then s
      else
        match verifyBundle s.flash es with
        | .error e => romFail s d e
        | .ok v => beginPhase2 (romBoot s d v (itemBytes s.flash es 5 0) (itemBytes s.flash es 7 d) (itemBytes s.flash es 8 d))

/-- The ROM of every die, die 0 first. -/
def romAll (s : State) : State := (List.range 4).foldl romTurn s

/-! ## Resets (R406, R471, R472) -/

/-- The package starts anew: what lies outside it stays, and so do the flash and the answers of the host. -/
def restart (s : State) : State :=
  { State.reset with
    agenda := s.agenda, hostMem := s.hostMem, flash := s.flash, freeCtr := s.freeCtr
    hostif := { HostIf.reset with pages := s.hostif.pages } }

/-- Power returns after it was lost (R449, R472). -/
def coldBoot (s : State) : State := romAll (restart s)

/-- The module removes its own power: nothing runs until the next power-on (R473, R474). -/
def powerOff (s : State) : State :=
  (List.range 4).foldl (fun s d => s.setHartOf (cisternHart d) { s.hartOf (cisternHart d) with run := .halted }) (restart s)

/-- A hot reset: phase 0 begins again; the always-on register and the management port keep what they hold (R467, R471, R472). -/
def hotReset (s : State) : State :=
  let r := s.hostif.regs
  let t := restart s
  let t := { t with hostif := { t.hostif with regs := { t.hostif.regs with pkgid := r.pkgid, pkgidValid := r.pkgidValid, pkgTimeout := r.pkgTimeout } } }
  romAll (t.setDie 0 { t.die 0 with aoreg := (s.die 0).aoreg })

/-- A Function Level Reset (R406, R472): running work goes with its contexts, device memory stays. -/
def resetFunction (s : State) : State :=
  let s := (s.ctxs.map (·.1)).foldl discardContext s
  let epoch := s.hostif.regs.hepoch + 1
  let s := s.setDie 0 { s.die 0 with aoreg := epoch }
  let h := s.hostif
  let s := { s with
    ctxs := [], queues := [], walks := []
    hostif := { h with ring := EventRing.reset, bias := Bias.reset, held := [], ats := [], prgs := [], regs := { h.regs with hepoch := epoch } } }
  logUpdate (s.emit 0x08 0xFF 0xFFFF epoch.toNat 0 0)

/-- A reset request, held until the package is ready (R471). -/
def requestReset (s : State) : State :=
  let r := s.hostif.regs
  if r.ready then resetFunction s else { s with hostif := { s.hostif with regs := { r with heldFlr := true } } }

/-- FUNCTION_LEVEL_RESET: R406. -/
def execFunctionLevelReset (s : State) : Out := .next (requestReset s)

/-- HOT_RESET: R406. -/
def execHotReset (s : State) : Out := .next (hotReset s)

/-- POWER_ON: R449. -/
def execPowerOn (s : State) : Out := .next (coldBoot s)

/-- ROM_SIDEBAND_TIMEOUT: 2^27 cycles pass and the sideband has not come up (R449). -/
def execRomSidebandTimeout (die : Nat) (s : State) : Out :=
  .next (if atRom s die then romFail s die 0x0C else s)

end Sys2Proof.Machine
end

