-- ==== Sys2Proof/Machine/Scan.lean ====
section
/-! DEFINITION. In-field scan of a site that has left a move (R434, R435). -/

namespace Sys2Proof.Machine

/-- A scan-test package of the boot bundle (R434). -/
structure ScanItem where
  seqno : BitVec 32
  misr : List Byte
  reservedZero : Bool
  /-- Bytes 0 to 63 + `bodysize`. -/
  signed : List Byte
  sig : List Byte
  deriving DecidableEq, Repr

/-- Parses a scan-test package: none where its magic or its sizes break R434. -/
def scanItem (l : List Byte) : Option ScanItem :=
  let n := fieldAt l 8 4
  if l.take 4 = [0x4B, 0x53, 0x43, 0x4E] ∧ n % 64 = 0 ∧ l.length = 64 + n + 2420 then
    some { seqno := BitVec.ofNat 32 (fieldAt l 4 4), misr := (l.drop 16).take 32, reservedZero := zeroAt l 48 16
           signed := l.take (64 + n), sig := l.drop (64 + n) }
  else none

/-- The package of a `seqno` that die 0's cistern reads from the boot bundle (R435). -/
def bundledScan (m : Memory) (seqno : BitVec 32) : Option ScanItem :=
  match directory m with
  | none => none
  | some es => (entriesOf es 6 0).findSome? fun e => (scanItem (readBytes m e.offset e.size)).filter fun i => decide (i.seqno = seqno)

/-- The cistern of a die accepts a package: the scan key is the one whose hash the ROM holds, the signature verifies with it, the reserved bytes are
0 and `seqno` is not below the highest accepted (R434, R435, R449). -/
def ScanItem.accepted (i : ScanItem) (v : Die) : Bool :=
  v.boot.scanok && MlDsa.verify v.ident.scanKey (sha3 i.signed) i.sig && i.reservedZero && decide (v.scanseq.toNat ≤ i.seqno.toNat)

/-- A site as type 0x13 names it (R442). -/
def siteWordOf (site : Nat) : Nat := site / 1024 * 2 ^ 18 + siteRow site * 2 ^ 8 + siteCol site

/-- A site that passes: reset, `level` and `req` cleared, a spare again (R435). -/
def scanPassed (s : State) (site : Nat) : State :=
  let s := resetSite s site
  let c := s.coreOf site
  let c := { c with err := { c.err with level := 0, req := false } }
  s.setCoreOf site { c.assign { valid := true, spare := true, coord := 0 } with pool := .normal }

/-- A site that fails, or whose package is refused, is defective until power-off (R435). -/
def scanFailed (s : State) (site : Nat) : State :=
  s.setCoreOf site { (s.coreOf site).assign { valid := false, spare := false, coord := 0 } with pool := .defective }

/-- SCAN_SITE: a site that waits for its scan is scanned with the package asked for, which the bundle has; its responses compact into the event's
`misr`. Type 0x13 (R435, R442). -/
def execScanSite (site : Nat) (pkg : ScanPackage) (s : State) : Out :=
  let d := site / 1024
  let v := s.die d
  let report := fun (s : State) (r : Nat) => logUpdate (s.emit 0x13 0xFF 0xFFFF (siteWordOf site) r pkg.seqno.toNat)
  .next (if (s.coreOf site).pool ≠ .scan then s
    else
      match bundledScan s.flash pkg.seqno with
      | none => s
      | some i =>
        if i.accepted v = false then report (scanFailed s site) 2
        else
          let s := s.setDie d { v with scanseq := i.seqno }
          if pkg.misr = i.misr then report (scanPassed s site) 0 else report (scanFailed s site) 1)

end Sys2Proof.Machine
end

