-- ==== Sys2Proof/Machine/BootEvents.lean ====
section
/-! DEFINITION. Phases 2 to 6, links, Standby and the power window (R440, R456 to R475). -/

namespace Sys2Proof.Machine

/-! ## Self-test and discovery (R456, R457) -/

/-- A die is in a phase of its boot and has not failed. -/
def inPhase (s : State) (d p : Nat) : Bool := decide ((s.die d).boot.phase.toNat = p) && decide ((s.die d).boot.err = 0)

/-- The self-test of every site of a die is complete: a site whose result is not listed has passed. -/
def selfTest (s : State) (d : Nat) (results : List (Nat × BitVec 16)) : State :=
  let test := fun k => siteTest (match results.find? fun r => r.1 % 1024 = k % 1024 with | some r => r.2.toNat | none => 2 ^ 15)
  let s := (sitesOf (d % 4)).foldl (fun s k => s.setCoreOf k { s.coreOf k with test := test k }) s
  let bad := (sitesOf (d % 4)).filter fun k => !(test k).good
  if bad.any fun k => !(test k).rtrok then s.failDie (d % 4) 0x07 else if 24 < bad.length then s.failDie (d % 4) 0x06 else s

/-- SELF_TEST_COMPLETE: R456. -/
def execSelfTestComplete (die : Nat) (results : List (Nat × BitVec 16)) (s : State) : Out :=
  .next (if inPhase s die 2 ∧ (sitesOf (die % 4)).all (fun k => !(s.coreOf k).test.rtrok) then selfTest s die results else s)

/-- DISCOVERY_FLOOD: R457. -/
def execDiscoveryFlood (die : Nat) (s : State) : Out := .next (floodStart s die)

/-- DISCOVERY_REPORT: R457. -/
def execDiscoveryReport (die site : Nat) (s : State) : Out := .next (floodReport s die site)

/-- DISCOVERY_TIMEOUT: 2^20 cycles pass (R457). -/
def execDiscoveryTimeout (die : Nat) (s : State) : Out :=
  let m := (s.die die).mcast
  .next (if m.flood ∧ m.reports ≠ 1024 then s.failDie (die % 4) 0x08 else s)

/-! ## Multicast, placement, boot code (R458 to R460) -/

/-- MULTICAST_GO: R459. -/
def execMulticastGo (die : Nat) (len : BitVec 19) (offset : BitVec 18) (s : State) : Out := .next (mcastGo (mcastFields s die len offset) die)

/-- MULTICAST_ACK: R459. -/
def execMulticastAck (die site : Nat) (s : State) : Out := .next (mcastWrite s die site)

/-- MULTICAST_TIMEOUT: 2^22 cycles pass (R459). -/
def execMulticastTimeout (die : Nat) (s : State) : Out :=
  let v := s.die die
  .next (if v.mcast.busy then (s.setDie die { v with mcast := { v.mcast with err := true } }).failDie (die % 4) 0x08 else s)

/-- SITEASG_WRITE: R458. -/
def execSiteasgWrite (site : Nat) (value : BitVec 64) (s : State) : Out := .next (putSiteAsg s site (siteAsg value.toNat))

/-- SITEGO_GO: R460. -/
def execSitegoGo (site : Nat) (pc : BitVec 16) (s : State) : Out := .next (siteGo s site pc)

/-- SITEGO_CLR: R460. -/
def execSitegoClr (site : Nat) (s : State) : Out := .next (siteClr s site)

/-! ## Package identifier (R467) -/

/-- PKGID_WRITE: ignored once phase 2 has begun, and for identifier 0x3FF. -/
def execPkgidWrite (value : BitVec 16) (s : State) : Out :=
  let h := s.hostif
  .next (if (List.range 4).any (fun d => decide (2 ≤ (s.die d).boot.phase.toNat)) ∨ value.toNat % 1024 = 0x3FF then s
    else beginPhase2 { s with hostif := { h with regs := { h.regs with pkgid := value.setWidth 10, pkgidValid := value.getLsbD 15 } } })

/-- PKGID_TIMEOUT: 2^30 cycles pass after power-on without an identifier. -/
def execPkgidTimeout (s : State) : Out :=
  let h := s.hostif
  .next (if (List.range 4).any (fun d => decide (2 ≤ (s.die d).boot.phase.toNat)) ∨ h.regs.pkgidValid then s
    else beginPhase2 { s with hostif := { h with regs := { h.regs with pkgid := 0, pkgTimeout := true } } })

/-! ## Memory training (R462 to R464) -/

/-- Good sites of a die in ascending snake index (R458). -/
def goodSites (s : State) (d : Nat) : List Nat :=
  ((List.range 1024).map fun i => 1024 * (d % 4) + 32 * (i / 32) + (if i / 32 % 2 = 0 then i % 32 else 31 - i % 32)).filter
    fun k => (s.coreOf k).test.good

/-- The assignment of the n-th good site of a die (R458). -/
def placed (s : State) (d n : Nat) : SiteAsg :=
  if n < 1000 then { valid := true, spare := false, coord := coordOf s (40 * (d % 2) + n % 40) (25 * (d % 4 / 2) + n / 40) }
  else { valid := true, spare := true, coord := 0 }

/-- Phase 2 is done: every report is in, every good site is assigned as R458 places it, and no copy or boot code runs. -/
def phase2Done (s : State) (d : Nat) : Bool :=
  inPhase s d 2 && decide ((s.die d).mcast.reports = 1024) && !(s.die d).mcast.busy
    && (goodSites s d).zipIdx.all (fun e => decide ((s.coreOf e.1).asg = placed s d e.2))
    && (sitesOf (d % 4)).all fun k => !(s.coreOf k).bootFetch || decide ((s.hartOf (8 * k)).run ≠ .firmware)

/-- Phase 3 begins; the basin controllers of the die run their firmware (R461). -/
def beginPhase3 (s : State) (d : Nat) : State :=
  if phase2Done s d then
    let v := s.die d
    (List.range 16).foldl (fun s b => startBasin s (16 * (d % 4) + b)) (s.setDie d { v with boot := { v.boot with phase := 3 } })
  else s

/-- Every byte of a die's near or far memory reads 0 and no word there is poisoned (step 7). -/
def zeroFill (s : State) (d : Nat) (far : Bool) : State :=
  let lo := d % 4 * 2 ^ 41 + (if far then 2 ^ 40 else 0)
  let out := fun a : Nat => decide (a < lo) || decide (lo + 2 ^ 40 ≤ a)
  { s with mem := s.mem.filter fun c => out c.1, poison := s.poison.filter fun e => out (8 * e.1) }

/-- A memory's register after a step of its training: none where the outcome is no outcome of the step. Steps 5 and 6 alone are repeated at the end
of Standby (R475). -/
def MemTrn.stepped (m : MemTrn) (far : Bool) : TrainOutcome → Option MemTrn
  | .fail =>
    if m.tries < 2 then some { m with state := 1, tries := m.tries + 1 } else some { m with state := 3, step := m.step + 1, tries := 0 }
  | .noSpare => if m.step = 3 ∧ far = false then some { m with state := 3, step := 4, tries := 0 } else none
  | .pass margin repaired =>
    let n := m.step + 1
    let last := decide (n = 8) || (m.again && decide (n = 6))
    let m1 := { m with step := n, state := if last then 2 else 1, tries := 0, again := m.again && !last }
    if n = 5 ∨ n = 6 then
      if 1 ≤ margin.toNat ∧ margin.toNat ≤ 64 then some (if n = 5 then { m1 with rdmarg := margin } else { m1 with wrmarg := margin }) else none
    else some (if n = 4 ∧ far = false then { m1 with repaired := repaired } else m1)

/-- The register of a near stack or a far channel. -/
def memTrn (v : Die) (far : Bool) (i : Nat) : MemTrn := if far then v.fmtrn.get (Fin.ofNat 12 i) else v.nmtrn.get (Fin.ofNat 3 i)

def setMemTrn (v : Die) (far : Bool) (i : Nat) (m : MemTrn) : Die :=
  if far then { v with fmtrn := v.fmtrn.set (i % 12) m (Nat.mod_lt _ (by decide)) }
  else { v with nmtrn := v.nmtrn.set (i % 3) m (Nat.mod_lt _ (by decide)) }

/-- All of a die's near stacks, or far channels, have completed a step. -/
def allAt (v : Die) (far : Bool) (p : MemTrn → Bool) : Bool := if far then v.fmtrn.toList.all p else v.nmtrn.toList.all p

/-- Memory training has passed: phase 4 begins, and every good site's `mtvec` names the core machine firmware (R462). -/
def beginPhase4 (s : State) (d : Nat) : State :=
  let v := s.die d
  if allAt v false (fun m => m.state = 2) && allAt v true (fun m => m.state = 2) then
    (goodSites s d).foldl setMtvec (s.setDie d { v with boot := { v.boot with phase := 4 } })
  else s

/-- Every module and port of a die has been trained or has failed. -/
def linksDone (s : State) (d : Nat) : Bool :=
  let v := s.die d
  v.paths.toList.zipIdx.all (fun e => decide (16 ≤ e.2) || e.1.trained || e.1.retired)
    && v.fabports.toList.all fun p => decide (2 ≤ p.state.toNat) || decide (p.step = 1)

/-- Standby has been left once every memory has repeated its steps and every link has trained again (R474, R475). -/
def settleStandby (s : State) : State :=
  let r := s.hostif.regs
  if r.pwrState = 3 ∧ (List.range 4).all (fun d =>
      allAt (s.die d) false (fun m => !m.again) && allAt (s.die d) true (fun m => !m.again) && linksDone s d) then
    { s with hostif := { s.hostif with regs := { r with pwrState := 0 } } }
  else s

/-- A die fails at Standby exit: the package is not ready (R456, R463, R475). -/
def exitFail (s : State) (d : Nat) (code : BitVec 8) : State :=
  let s := s.failDie d code
  { s with hostif := { s.hostif with regs := { s.hostif.regs with ready := false } } }

/-- One step of training of one memory: in phase 3, or once more at the end of Standby. -/
def trainStep (s : State) (d : Nat) (far : Bool) (i : Nat) (o : TrainOutcome) : State :=
  let v := s.die d
  let m := memTrn v far i
  if (inPhase s d 3 = false ∧ m.again = false) ∨ 2 ≤ m.state.toNat then s
  else
    match m.stepped far o with
    | none => s
    | some m =>
      let v := setMemTrn v far i m
      let s := s.setDie d v
      let code : BitVec 8 := if far then 0x0A else 0x09
      if m.state = 3 then (if inPhase s d 3 then s.failDie (d % 4) code else exitFail s (d % 4) code)
      else if inPhase s d 3 = false then settleStandby s
      else
        let s := if m.step = 7 ∧ m.tries = 0 ∧ allAt v far (fun m => decide (7 ≤ m.step.toNat)) then zeroFill s d far else s
        beginPhase4 s d

/-- MEMORY_TRAINING_STEP: R463. -/
def execMemoryTrainingStep (die : Nat) (far : Bool) (device : Nat) (o : TrainOutcome) (s : State) : Out :=
  .next (trainStep (beginPhase3 s die) die far device o)

/-! ## Links (R466, R468, R469) -/

/-- Phase 5 begins once phase 4 is done on all four dies: die 0 claims term 1 (R440, R470). -/
def beginPhase5 (s : State) : State :=
  if (List.range 4).all fun d => inPhase s d 4 && linksDone s d then
    let s := (List.range 4).foldl (fun s d => s.setDie d { s.die d with boot := { (s.die d).boot with phase := 5 } }) s
    setLease s 0 ((leaseOf s 0).claims 1)
  else s

/-- No module of an edge passes (R466). -/
def edgeFailed (s : State) (d : Nat) (p : Nat) : Bool :=
  (List.range 8).all fun i => (pathOf s d (p / 8 * 8 + i)).retired && !(pathOf s d (p / 8 * 8 + i)).trained

/-- Both dies of an edge fail, the lower one first (R451, R466). -/
def failEdge (s : State) (a b : Nat) : State :=
  if s.hostif.regs.pwrState = 3 then exitFail (exitFail s (min a b) 0x0B) (max a b) 0x0B
  else (s.failDie (min a b) 0x0B).failDie (max a b) 0x0B

/-- UCIE_TRAINING: a module trains, or is out of its path map; both its dies have reached phase 4, or leave Standby (R466, R475). -/
def execUcieTraining (die module : Nat) (passed : Bool) (s : State) : Out :=
  let p := module % 16
  let h := pathOf s die p
  let far := moduleDie die p
  .next (if ((inPhase s die 4 ∧ inPhase s far 4) ∨ s.hostif.regs.pwrState = 3) ∧ !h.trained ∧ !h.retired then
      let s := bothEnds s die p fun h => { h with trained := passed, retired := !passed }
      let s := if edgeFailed s die p then failEdge s (die % 4) far else s
      settleStandby (beginPhase5 s)
    else s)

/-- A fabric port after an attempt to train: none where the outcome is no outcome of it. -/
def FabPort.trained (p : FabPort) (pkg : BitVec 10) : PortOutcome → Option FabPort
  | .up peer port =>
    if 23 < port.toNat then none
    else if peer = pkg then some { p with peerpkg := peer, peerport := port, step := 7, state := 3 }
    else some { peerpkg := peer, peerport := port, step := 7, state := 2, mapped := true }
  | .noSignal => some { p with step := 1, state := 0 }
  | .failed step => if 2 ≤ step.toNat ∧ step.toNat ≤ 7 then some { p with step := step, state := 3 } else none

/-- FABRIC_PORT_TRAINING: R468. A port in `state` 4 or 2 does not train. The repair log takes the new path map (R441). -/
def execFabricPortTraining (die port : Nat) (o : PortOutcome) (s : State) : Out :=
  let v := s.die die
  let i := port % 6
  let p := v.fabports.get (Fin.ofNat 6 i)
  .next (if v.boot.phase.toNat < 4 ∨ v.boot.err ≠ 0 ∨ p.state = 4 ∨ p.state = 2 then s
    else
      match p.trained s.hostif.regs.pkgid o with
      | none => s
      | some q =>
        let v := { v with fabports := v.fabports.set i q (Nat.mod_lt _ (by decide)) }
        let s := s.setDie die v
        logUpdate (settleStandby (beginPhase5 (setPath s die (16 + i) { pathOf s die (16 + i) with trained := decide (q.state = 2) }))))

/-- PCIE_TRAINING: R469. -/
def execPcieTraining (o : PcieOutcome) (s : State) : Out :=
  let h := s.hostif
  let r := h.regs
  let put := fun r : PkgRegs => { s with hostif := { h with regs := r } }
  .next (if r.pciState ≠ 1 then s
    else
      match o with
      | .up rate width flit cxl =>
        if 4 ≤ rate.toNat ∧ rate.toNat ≤ 6 ∧ (width = 4 ∨ width = 8 ∨ width = 16) then
          put { r with pciRate := rate, pciWidth := width, pciFlit := flit, pciState := 2, cxl := cxl }
        else s
      | .detect =>
        let n := if r.pciRetries = 255 then r.pciRetries else r.pciRetries + 1
        put { r with pciRetries := n, pciState := if 8 ≤ n.toNat then 3 else 1 })

/-! ## Standby (R473, R475) -/

/-- Every context that is Active is saved. -/
def saveActive (s : State) : State :=
  (s.ctxs.map (·.1)).foldl (fun s n => if (s.ctx n).st = .active then ctxSave s n else s) s

/-- Nothing keeps the cores powered: no context owns rows; no move, flip or scan is under way. -/
def standbyReady (s : State) : Bool :=
  s.ctxs.all (fun e => !e.2.st.owns) && (List.range 4).all (fun d => (s.die d).move.isNone) && s.hostif.bias.flip.isNone
    && s.cores.all fun e => decide (e.2.pool ≠ .scan)

/-- A core site without power: what the cistern knows of it stays. -/
def Core.unpowered (c : Core) : Core :=
  { Core.reset with asg := c.asg, coreid := c.coreid, test := c.test, err := c.err, pool := c.pool }

/-- Cores and basin controllers are unpowered, and the fabric ports go down (R473). -/
def unpower (s : State) : State :=
  let s := (s.cores.map (·.1)).foldl flushAll s
  let s := { s with
    cores := (s.cores.filter fun e => decide (e.1 < 4096) || decide (4160 ≤ e.1)).map fun e => if e.1 < 4096 then (e.1, e.2.unpowered) else e
    harts := s.harts.filter fun e => decide (8 * 4160 ≤ e.1)
    basins := s.basins.map fun e => (e.1, { Basin.reset with missed := e.2.missed })
    hostif := { s.hostif with regs := { s.hostif.regs with pwrState := 2 } } }
  (List.range 4).foldl (fun s d =>
    let v := s.die d
    s.setDie d { v with fabports := v.fabports.map fun p => if p.state = 4 then p else { p with state := 0, step := 0, mapped := false } }) s

/-- Entry to Standby: queues hold and every Active context is saved; once nothing is left under way the cores are unpowered. A request before
`ready` is held (R471). -/
def enterStandby (s : State) : State :=
  let r := s.hostif.regs
  if r.ready = false then { s with hostif := { s.hostif with regs := { r with heldD3 := true } } }
  else if 2 ≤ r.pwrState.toNat then s
  else
    let s := saveActive { s with hostif := { s.hostif with regs := { r with pwrState := 1 } } }
    if standbyReady s then unpower s else s

/-- STANDBY_ENTRY: R473. -/
def execStandbyEntry (s : State) : Out := .next (enterStandby s)

/-- A site that failed its test at Standby exit joins the defective list, unassigned. -/
def dropSite (s : State) (k : Nat) : State :=
  s.setCoreOf k { (s.coreOf k).assign { valid := false, spare := false, coord := 0 } with pool := .defective }

/-- The logical core of a failed site moves to a spare; with none left the package is not ready (R456, R475). -/
def replaceSite (s : State) (k : Nat) : State :=
  let c := s.coreOf k
  let d := k / 1024
  if c.holdsCore = false then dropSite s k
  else
    match chooseSpare s k with
    | none => exitFail s d 0x06
    | some j =>
      let s := s.setCoreOf j ((s.coreOf j).assign c.asg)
      let s := setMtvec (dropSite s k) j
      let e := remapOf s c.coreid
      let s := setRemap s d c.coreid { e with epoch := e.epoch + 1, prow := BitVec.ofNat 5 (siteRow j), pcol := BitVec.ofNat 5 (siteCol j) }
      reportMove s c.coreid k j

/-- A memory is about to repeat steps 5 and 6 (R475). -/
def MemTrn.rerun (m : MemTrn) : MemTrn := { m with step := 4, state := 1, tries := 0, again := true }

/-- A die's memories repeat steps 5 and 6, and its links retrain (R475): a module that was retired stays so. -/
def retrain (s : State) (d : Nat) : State :=
  let v := s.die d
  s.setDie d { v with
    nmtrn := v.nmtrn.map MemTrn.rerun, fmtrn := v.fmtrn.map MemTrn.rerun
    paths := v.paths.map fun p => if p.retired then p else { p with trained := false }
    fabports := v.fabports.map fun p => if p.state = 4 then p else { p with state := 1 } }

/-- Exit from Standby begins: each assigned site takes the result of its self-test (R456, R475). Failed spares leave the pool first, and a router beyond
repair fails its die (R456). `pwrst.state` is 3 until memory and links have trained again (R474). -/
def leaveStandby (s : State) (results : List (Nat × BitVec 16)) : State :=
  if s.hostif.regs.pwrState ≠ 2 then s
  else
    let tested := (List.range 4).flatMap fun d => results.filter fun r => decide (r.1 / 1024 = d) && (s.coreOf r.1).asg.valid
    let bad := tested.filter fun r => !(siteTest r.2.toNat).good
    let s := { s with hostif := { s.hostif with regs := { s.hostif.regs with pwrState := 3 } } }
    let s := tested.foldl (fun s r => s.setCoreOf r.1 { s.coreOf r.1 with test := siteTest r.2.toNat }) s
    let s := (bad.filter fun r => !(siteTest r.2.toNat).rtrok).foldl (fun s r => exitFail s (r.1 / 1024) 0x07) s
    let s := (s.cores.filter fun e => decide (e.1 < 4096) && e.2.asg.valid).foldl (fun s e => setMtvec s e.1) s
    let s := (bad.filter fun r => (s.coreOf r.1).asg.spare).foldl (fun s r => dropSite s r.1) s
    let s := (bad.filter fun r => (s.coreOf r.1).holdsCore).foldl (fun s r => replaceSite s r.1) s
    logUpdate ((List.range 64).foldl startBasin ((List.range 4).foldl retrain s))

/-- STANDBY_EXIT: R475. -/
def execStandbyExit (results : List (Nat × BitVec 16)) (s : State) : Out := .next (leaveStandby s results)

/-! ## The lease at boot (R440, R470, R471) -/

/-- The leader of term 1 ends phase 5: every die is ready, boot fetch having ended on every assigned site (R460); a reset or D3hot request that was
held takes effect (R471). -/
def bootReady (s : State) : State :=
  if duties s && (List.range 4).all (fun d => inPhase s d 5) && s.cores.all fun e => !e.2.asg.valid || !e.2.bootFetch then
    let s := (List.range 4).foldl (fun s d =>
      s.setDie d { s.die d with boot := { (s.die d).boot with phase := 6, ready := true } }) s
    let r := s.hostif.regs
    let s := { s with hostif := { s.hostif with regs := { r with ready := true, heldFlr := false, heldD3 := false } } }
    let s := if r.heldFlr then resetFunction s else s
    if r.heldD3 then enterStandby s else s
  else s

/-- LEASE_CLAIM: a cistern grants a claim if its own lease has lapsed, or none has been held since boot, and it has granted no other claim of that
term; two grants make the candidate leader (R440, R470), which writes the repair log anew (R441). A grant that comes once the
candidate leads ends phase 5 where boot code held it. -/
def execLeaseClaim (die candidate : Nat) (term : BitVec 32) (s : State) : Out :=
  let l := leaseOf s die
  let c := leaseOf s candidate
  .next (if die % 4 ≠ candidate % 4 ∧ c.role = 2 ∧ c.claim = term ∧ (l.lapsed ∨ l.term = 0) ∧ l.granted.toNat < term.toNat
        ∧ l.term.toNat < term.toNat ∧ !l.failed then
      let s := setLease s die { l with granted := term, since := true }
      let votes := c.votes ++ [die % 4]
      let s := setLease s candidate { c with votes := votes }
      if 2 ≤ votes.length then bootReady (takeLease s candidate) else s
    else bootReady s)

/-! ## Power (R474) -/

/-- The clock after a window: a step down for power or temperature, a step up, or none; with the two causes of the last step down. -/
def clockStep (r : PkgRegs) (watts : BitVec 16) (tj : BitVec 8) : PkgRegs :=
  let hot := decide (105 ≤ tj.toNat)
  let past := decide (r.pwrlim.toNat < watts.toNat)
  let r := { r with watts := watts, tj := tj }
  if hot || past then
    if 700 < r.mhz.toNat then { r with mhz := BitVec.ofNat 24 (max 700 (r.mhz.toNat - 100)), thermal := hot, power := past } else r
  else if 100 * watts.toNat < 95 * r.pwrlim.toNat ∧ tj.toNat < 100 then { r with mhz := BitVec.ofNat 24 (min 1400 (r.mhz.toNat + 100)) }
  else r

/-- POWER_WINDOW: R474. -/
def execPowerWindow (watts : BitVec 16) (tj : BitVec 8) (s : State) : Out :=
  .next (if 115 ≤ tj.toNat then powerOff s
    else if duties s then { s with hostif := { s.hostif with regs := clockStep s.hostif.regs watts tj } }
    else s)

end Sys2Proof.Machine
end

