-- ==== Sys2Proof/Machine/HostConfig.lean ====
section
/-! DEFINITION. Configuration space, DOE discovery and the CXL component registers of BAR4 (R387, R388, R394, R397, R469).

R387 says which options the port has and their limits; where each register lies is that of PCI Express and CXL (PRESUMED, log 39). A capability that
R387 does not name is absent, but for power management, whose D3hot and D0 R473 names. -/

namespace Sys2Proof.Machine

/-- A 4-byte register: its number, the bits that are fixed, and the bits that a write sets. -/
structure HwReg where
  num : Nat
  fixed : BitVec 32
  mask : BitVec 32
  deriving DecidableEq, Repr

/-- The register of a byte offset. -/
def hwReg (off : Nat) (fixed mask : BitVec 32) : HwReg := { num := off / 4, fixed := fixed, mask := mask }

/-- The header: one function, and the three BARs of R388 (16 MiB, 8 TiB, 64 KiB). No INTx pin. -/
def headerRegs : List HwReg :=
  [hwReg 0x00 Config.configId 0, hwReg 0x04 0x00100000 0x0006, hwReg 0x08 Config.configClass 0, hwReg 0x10 0x4 0xFF000000,
   hwReg 0x14 0 0xFFFFFFFF, hwReg 0x18 0xC 0, hwReg 0x1C 0 0xFFFFF800, hwReg 0x20 0x4 0xFFFF0000, hwReg 0x24 0 0xFFFFFFFF,
   hwReg 0x34 0x40 0]

/-- Power management at 0x40 (D0 and D3hot); PCI Express at 0x50: payload 512, requests of 4,096, 14-bit tags by way of Device 3, FLR, AtomicOps of
32 and 64 bits, Flit mode, 16 to 64 GT/s on 16 lanes; no Relaxed Ordering, no No Snoop. MSI-X at 0x90: 8 vectors in BAR0. -/
def capabilityRegs : List HwReg :=
  [hwReg 0x40 0x00035001 0, hwReg 0x44 0 0x3,
   hwReg 0x50 0x80029010 0, hwReg 0x54 0x10008022 0, hwReg 0x58 0 0x71EF, hwReg 0x5C 0x106 0, hwReg 0x60 0 0x1C0,
   hwReg 0x74 0x00030180 0, hwReg 0x78 0 0x1050, hwReg 0x7C 0x70 0, hwReg 0x80 0 0xF,
   hwReg 0x90 0x00070011 0xC0000000, hwReg 0x94 0x00800000 0, hwReg 0x98 0x00801000 0]

/-- PASID (20 bits), ATS, PRI (512 requests), DOE, Device 3 (14-bit tags as completer and requester, no L0p), the CXL register locator (BAR4) and device, and the device's own register:
AtomicOp routing for 4 bytes in bit 0 and for 8 in bit 1, as the host driver tells it (R394). -/
def extendedRegs : List HwReg :=
  [hwReg 0x100 0x1101001B 0, hwReg 0x104 0x00001400 0x00010000,
   hwReg 0x110 0x1201000F 0, hwReg 0x114 0x00000020 0x801F0000,
   hwReg 0x120 0x14010013 0, hwReg 0x124 0x80000000 0x1, hwReg 0x128 512 0, hwReg 0x12C 0 0x3FF,
   hwReg 0x140 0x1601002E 0, hwReg 0x144 0 0, hwReg 0x148 0 0x80000000,
   hwReg 0x160 0x1801002F 0, hwReg 0x164 0x6 0, hwReg 0x168 0 0x4,
   hwReg 0x180 0x1A010023 0, hwReg 0x184 0x01401E98 0, hwReg 0x188 0x00000008 0, hwReg 0x18C 0x00000104 0, hwReg 0x190 0 0,
   hwReg 0x1A0 0x1E010023 0, hwReg 0x1A4 0x03C01E98 0, hwReg 0x1A8 0x00170000 0,
   hwReg 0x1E0 0x00010023 0, hwReg 0x1E4 0x01000000 0, hwReg 0x1E8 0x1 0, hwReg 0x1EC 0 0x3]

def configRegs : List HwReg := headerRegs ++ capabilityRegs ++ extendedRegs

/-- A register read: its fixed bits, and what has been written to the others. -/
def regRead (rs : List HwReg) (written : SMap (BitVec 32)) (n : Nat) : BitVec 32 :=
  match rs.find? fun r => decide (r.num = n) with
  | some r => r.fixed ||| (smGet 0 n written &&& r.mask)
  | none => 0

/-- Link status: the rate and width of the link while it is up (R469). -/
def linkStatus (r : PkgRegs) : BitVec 32 :=
  if r.pciState = 2 then BitVec.ofNat 32 (r.pciRate.toNat * 2 ^ 16 + r.pciWidth.toNat * 2 ^ 20) else 0

/-- A configuration read. -/
def configWord (h : HostIf) (n : Nat) : BitVec 32 :=
  regRead configRegs h.config n ||| (if n = 0x60 / 4 then linkStatus h.regs else 0)

/-- A configuration write. It may ask for a Function Level Reset (R406) or for Standby (R473); the write of D0 is the event STANDBY_EXIT, which carries
the results of the self-test. -/
def configWrite (s : State) (n : Nat) (v : BitVec 32) : State :=
  let h := { s.hostif with config := smSet n v s.hostif.config }
  let h := if n = 0x1EC / 4 then { h with routing4 := v.getLsbD 0, routing8 := v.getLsbD 1 } else h
  let s := { s with hostif := h }
  if n = 0x58 / 4 ∧ v.getLsbD 15 then requestReset s
  else if n = 0x44 / 4 ∧ v.toNat % 4 = 3 then enterStandby s
  else s

/-! ## DOE discovery (R387) -/

/-- The answer to a discovery request: index 0 is discovery itself, index 1 CMA-SPDM, and there is no other. -/
def doeEntry (index : BitVec 8) : DoeEntry :=
  if index = 0 then { vendor := 1, protocol := 0, next := 1 }
  else if index = 1 then { vendor := 1, protocol := 1, next := 0 }
  else { vendor := 0xFFFF, protocol := 0, next := 0 }

/-! ## BAR4 (R388, R397) -/

/-- The CXL component registers: the capability array at 0x1000, RAS at 0x1080, one HDM decoder at 0x1100. -/
def componentRegs : List HwReg :=
  [hwReg 0x1000 0x02110001 0, hwReg 0x1004 0x08010002 0, hwReg 0x1008 0x10010005 0,
   hwReg 0x1084 0 0xFFFFFFFF, hwReg 0x1088 0 0xFFFFFFFF, hwReg 0x1090 0 0xFFFFFFFF, hwReg 0x1094 0 0xFFFFFFFF,
   hwReg 0x1100 0 0, hwReg 0x1104 0 0x3, hwReg 0x1110 0 0xF0000000, hwReg 0x1114 0 0xFFFFFFFF, hwReg 0x1118 0 0xF0000000,
   hwReg 0x111C 0 0xFFFFFFFF, hwReg 0x1120 0 0x00000200]

/-- The decoder's control shows `committed` once `commit` has been written. -/
def componentWord (h : HostIf) (n : Nat) : BitVec 32 :=
  let v := regRead componentRegs h.bar4 n
  if n = 0x1120 / 4 ∧ v.getLsbD 9 then v ||| 0x400 else v

/-- The base of the HDM decoder, once it is enabled and committed (R397). -/
def hdmBase (h : HostIf) : Option Nat :=
  if (componentWord h (0x1104 / 4)).getLsbD 1 ∧ (componentWord h (0x1120 / 4)).getLsbD 10 then
    some ((componentWord h (0x1114 / 4)).toNat * 2 ^ 32 + (componentWord h (0x1110 / 4)).toNat)
  else none

/-- The device address that a host physical address decodes to: 8 TiB from the base, one to one (R397). -/
def hdmAddress (h : HostIf) (hpa : Nat) : Option Nat :=
  match hdmBase h with
  | some b => if b ≤ hpa ∧ hpa < b + 2 ^ 43 then some (hpa - b) else none
  | none => none

end Sys2Proof.Machine
end

