-- ==== Sys2Proof/Machine/HostEvents.lean ====
section
/-! DEFINITION. What the host does to device memory and to the port, and die 0's attestation (R387 to R399, R454, R455). -/

namespace Sys2Proof.Machine

/-- An answer to the host. -/
def answer (s : State) (r : HostReply) : State := { s with hostif := { s.hostif with replies := s.hostif.replies ++ [r] } }

/-! ## Accesses of the host (R388, R395, R397) -/

/-- Every byte of a range lies in device memory. -/
def inMemory (pa n : Nat) : Bool := isDev pa && isDev (pa + n - 1)

/-- A read or write through BAR2 or CXL.mem, performed at the home slice; a write takes back the lines it writes that the host holds (R397).
Outside every region a read returns poisoned data, and a write is dropped and reported as type 0x06 (R397, R403). -/
def hostAccess (s : State) (a : HostAccess) : State :=
  match a.data with
  | none =>
    if inMemory a.pa a.size ∧ (poisonAt s a.pa a.size).isNone then answer s (.data (readBytes s.mem a.pa a.size)) else answer s .poisoned
  | some l =>
    if inMemory a.pa l.length then answer (devWrite s none a.pa l) .written
    else (answer s .written).emit 0x06 0xFF 0xFFFF a.pa 0x101 0

/-- HOST_DEVICE_MEMORY_ACCESS: R397. -/
def execHostDeviceMemoryAccess (a : HostAccess) (s : State) : Out := .next (hostAccess s a)

/-- The device accepts the AtomicOp: FetchAdd, Swap or CAS of 4 or 8 bytes, aligned, in memory. -/
def atomicOk (a : HostAtomic) : Bool :=
  decide (a.op.toNat ≤ 2) && (decide (a.size = 4) || decide (a.size = 8)) && decide (a.pa % a.size = 0) && inMemory a.pa a.size

/-- The value an AtomicOp writes where it writes one. -/
def atomicWrite (a : HostAtomic) (old : Nat) : Option Nat :=
  if a.op = 0 then some ((old + a.operand) % 2 ^ (8 * a.size))
  else if a.op = 1 then some (a.operand % 2 ^ (8 * a.size))
  else if old = a.compare % 2 ^ (8 * a.size) then some (a.operand % 2 ^ (8 * a.size)) else none

/-- HOST_ATOMIC_COMPLETER: R395. -/
def execHostAtomicCompleter (a : HostAtomic) (s : State) : Out :=
  .next (if atomicOk a = false then answer s .unsupported
    else if (poisonAt s a.pa a.size).isSome then answer s .poisoned
    else
      let old := readLE s.mem a.pa a.size
      let s := match atomicWrite a old with
        | some v => devWrite s none a.pa (leBytes a.size v)
        | none => s
      answer s (.data (leBytes a.size old)))

/-- HOST_BAR0_ACCESS_ERROR: an access of BAR0 that is not an aligned one of 4 or 8 bytes (R389). -/
def execHostBar0AccessError (offset size : Nat) (s : State) : Out :=
  .next (if (size = 4 ∨ size = 8) ∧ offset % size = 0 then s else answer s .unsupported)

/-- HOST_SNOOP: the device holds no host line (R391). -/
def execHostSnoop (_addr : Nat) (s : State) : Out := .next (answer s .rspIHitI)

/-- CONFIGURATION_REQUEST: retried until the cistern firmware has set up configuration space (R387, R469). -/
def execConfigurationRequest (write : Bool) (offset : Nat) (value : BitVec 32) (s : State) : Out :=
  .next (if s.hostif.regs.configured = false then answer s .retry
    else if write then answer (configWrite s (offset / 4) value) .written
    else answer s (.data (leBytes 4 (configWord s.hostif (offset / 4)).toNat)))

/-! ## Address translation service (R392) -/

/-- A core of a context with a PASID performs the stores that may have used a host page's entry. -/
def drainPage (s : State) (pasid : BitVec 20) (page k : Nat) : State :=
  match ctxOfAgent s k with
  | some (_, c) =>
    if c.pasidEn ∧ c.pasid = pasid ∧ (s.coreOf k).pstores.any (fun p => match p.loc with | .host h => decide (h / 4096 = page) | _ => false) then
      performWhere s k fun p => !p.loc.isDev
    else s
  | none => s

/-- ATS_INVALIDATE: complete after every access that used the entry has been performed (R392). -/
def execAtsInvalidate (pasid : BitVec 20) (page : Nat) (s : State) : Out :=
  let s := (s.cores.map (·.1)).foldl (fun s k => drainPage s pasid page k) s
  .next { s with hostif := { s.hostif with ats := s.hostif.ats.filter (· ≠ (pasid, page)) } }

/-! ## Bias (R398, R399) -/

def Bias.addrWord (b : Bias) : Nat := b.page.toNat * 4096

def Bias.statWord (b : Bias) : Nat := b.done.toNat * 2 ^ 32 + b.err.toNat * 256 + b2n b.flip.isSome

/-- `biascmd.go`: a flip of `count` + 1 pages from `page` begins; while one runs it is ignored but for `err`. -/
def biasGo (s : State) : State :=
  let h := s.hostif
  let b := h.bias
  let b1 := if b.flip.isSome then { b with err := 1 }
    else { b with err := 0, done := 0, flip := some { page := b.page.toNat, left := b.count.toNat + 1, toHost := b.toHost } }
  { s with hostif := { h with bias := b1 } }

/-- BIAS_FLIP_GO: R398. -/
def execBiasFlipGo (toHost : Bool) (count : BitVec 16) (s : State) : Out :=
  let h := s.hostif
  .next (biasGo { s with hostif := { h with bias := { h.bias with toHost := toHost, count := count } } })

/-- BIAS_PAGE_FLIP: the next page of the flip in progress; a page outside R365 ends it before that page, the last one with type 0x07
(R398, R399). A page that goes to device bias leaves the host no line of it. -/
def execBiasPageFlip (s : State) : Out :=
  let h := s.hostif
  let b := h.bias
  .next (match b.flip with
    | none => s
    | some f =>
      if isDev (4096 * f.page) = false then { s with hostif := { h with bias := { b with err := 2, flip := none } } }
      else
        let rest := b.host.filter (· ≠ f.page)
        let host := if f.toHost then (rest ++ [f.page]).mergeSort (· ≤ ·) else rest
        let b1 := { b with host := host, done := b.done + 1
                           flip := if f.left = 1 then none else some { f with page := f.page + 1, left := f.left - 1 } }
        let h1 := if f.toHost then h else h.snoop (4096 * f.page) 4096
        let s := { s with hostif := { h1 with bias := b1 } }
        if f.left = 1 then s.emit 0x07 0xFF 0xFFFF b1.addrWord b1.statWord 0 else s)

/-! ## The post area (R396) -/

/-- A slot's `state` is written with 8 bytes. -/
def putSlot (s : State) (a v : Nat) : State := devWrite s none a (leBytes 8 v)

/-- The host address of a slot's atomic, its walk made: none where the slot is refused. -/
def proxyPlace (s : State) (cx : Ctx) (va op size : Nat) (reserved : Bool) : Option Nat × State :=
  if canonical (BitVec.ofNat 64 va) = false then (none, s)
  else
    match walkCheck s cx va 3 false with
    | .error _ => (none, s)
    | .ok p =>
      if p.mtype = 2 then (none, s)
      else
        let s := walkUpdate s p 3
        match paLoc (p.pa + (va - p.va)) with
        | .host h => if op ≤ 2 ∧ (size = 4 ∨ size = 8) ∧ va % size = 0 ∧ reserved then (some h, s) else (none, s)
        | _ => (none, s)

/-- The lease holder scans one slot of an Active context's post area. -/
def scanSlot (s : State) (n slot : Nat) : State :=
  let cx := s.ctx n
  let a := cx.post.toNat * 4096 + 64 * slot
  if duties s = false ∨ cx.st ≠ .active ∨ cx.post = 0 ∨ 64 ≤ slot then s
  else if (poisonAt s a 8).isSome then putSlot s a 4
  else
    let b := readBytes s.mem a 64
    if fieldAt b 0 8 ≠ 1 then s
    else if (poisonAt s (a + 8) 16).isSome ∨ (poisonAt s (a + 48) 16).isSome then putSlot s a 4
    else
      let op := fieldAt b 8 1
      let size := fieldAt b 9 1
      match proxyPlace s cx (fieldAt b 16 8) op size (zeroAt b 10 6 && zeroAt b 48 16) with
      | (none, s) => putSlot s a 4
      | (some h, s) => (putSlot s a 2).emit 0x04 n 0xFFFF a h (op + 256 * size)

/-- POST_AREA_SCAN: R396. -/
def execPostAreaScan (ctx slot : Nat) (s : State) : Out := .next (scanSlot s ctx slot)

/-! ## Attestation (R454, R455) -/

/-- `devst.phase`: the lowest phase, or that of the failing die (R470). -/
def devPhase (s : State) : Nat :=
  let r := s.hostif.regs
  if r.devErr ≠ 0 then (s.die r.devDie.toNat).boot.phase.toNat
  else (List.range 4).foldl (fun m d => min m (s.die d).boot.phase.toNat) 15

def M_of (s : State) (d : Nat) : List Byte := leBytes 32 (s.die d).meas.toNat

/-- The alias certificate that a die's ROM signed with its device key (R453). -/
def aliasCert (s : State) (d : Nat) : List Byte :=
  let i := (s.die d).ident
  let tbs := Config.aliasTbs (MlDsa.keyGen i.aliasSeed).1 (M_of s d) (s.die d).boot.owner
  Config.certOf tbs (MlDsa.sign (MlDsa.keyGen i.deviceSeed).2 tbs (Config.certRandom i.deviceSeed))

/-- Certificate slot d: the kind-8 certificate and then the one the ROM signed (R453, R454). -/
def slotChain (s : State) (d : Nat) : List Byte := (s.die d).ident.cert ++ aliasCert s d

/-- The measurement blocks (R455). -/
def measBlock (s : State) (i : Nat) : List Byte :=
  let t := (s.die 0).ident
  if i ≤ 4 then M_of s (i - 1) else if i = 5 then romHash else if i = 6 then t.hman else if i = 7 then t.firmware else t.versions

/-- All of them, in order. -/
def measAll (s : State) : List Byte := (List.range 8).flatMap fun i => measBlock s (i + 1)

/-- A reply is given, Busy before phase 2 (R454). -/
def spdm (s : State) (r : SpdmReply) : State :=
  { s with hostif := { s.hostif with spdm := s.hostif.spdm ++ [if devPhase s < 2 then .busy else r] } }

def idok (s : State) (d : Nat) : Bool := (s.die d).boot.idok

/-- SPDM_GET_VERSION: version 1.4 (R454). -/
def execSpdmGetVersion (s : State) : Out := .next (spdm s (.version [0x1400]))

/-- SPDM_GET_CAPABILITIES: R454. -/
def execSpdmGetCapabilities (s : State) : Out := .next (spdm s .capabilities)

/-- SPDM_NEGOTIATE_ALGORITHMS: ML-DSA-44 and SHA3-256 (R454). -/
def execSpdmNegotiateAlgorithms (s : State) : Out := .next (spdm s (.algorithms .mlDsa44 .sha3_256))

/-- SPDM_GET_DIGESTS: one digest a slot, empty for a die without an identity (R454). -/
def execSpdmGetDigests (s : State) : Out :=
  .next (spdm s (.digests ((List.range 4).map fun d => if idok s d then sha3 (slotChain s d) else [])))

/-- SPDM_GET_CERTIFICATE: R454. -/
def execSpdmGetCertificate (slot : Nat) (s : State) : Out :=
  .next (spdm s (if 4 ≤ slot then .invalidRequest else if idok s slot then .certificate slot (slotChain s slot) else .unspecified))

/-- SPDM_CHALLENGE: die 0 signs with its second key (R454). -/
def execSpdmChallenge (slot : Nat) (nonce : List (BitVec 8)) (s : State) : Out :=
  let meas := sha3 (measAll s)
  let key := (MlDsa.keyGen (s.die 0).ident.aliasSeed).2
  let r : SpdmReply :=
    if 4 ≤ slot then .invalidRequest
    else if idok s slot ∧ idok s 0 then
      .challengeAuth slot nonce meas (MlDsa.sign key (Config.spdmSigned s.freeCtr nonce meas) (Config.signRandom s.freeCtr))
    else .unspecified
  .next { spdm s r with freeCtr := s.freeCtr + 1 }

/-- SPDM_GET_MEASUREMENTS: index 0 asks how many there are, 0xFF asks for all (R455). -/
def execSpdmGetMeasurements (index : Nat) (s : State) : Out :=
  .next (spdm s (if index = 0 then .measurements 0 [8]
    else if index = 0xFF then .measurements 0xFF (measAll s)
    else if 8 < index then .invalidRequest
    else if index ≤ 4 ∧ idok s (index - 1) = false then .unspecified
    else .measurements index (measBlock s index)))

/-- SPDM_UNSUPPORTED: R454. -/
def execSpdmUnsupported (_code : BitVec 8) (s : State) : Out := .next (spdm s .unsupportedRequest)

end Sys2Proof.Machine
end

