-- ==== Sys2Proof/Machine/HostRegs.lean ====
section
/-! DEFINITION. The register windows of BAR0 (R361, R370, R389, R390, R398, R400, R451, R469, R474) and what writing them does. -/

namespace Sys2Proof.Machine

/-! ## Global window -/

/-- `devst` (R451). -/
def devstWord (s : State) : Nat :=
  let r := s.hostif.regs
  let b := (s.die 0).boot
  r.devErr.toNat * 2 ^ 24 + r.devDie.toNat * 2 ^ 22 + devPhase s * 2 ^ 16 + b2n b.scanok * 512 + b2n b.owner * 256 + b2n b.idok * 16 + b2n r.ready

/-- `pcilink` (R469). -/
def PkgRegs.linkWord (r : PkgRegs) : Nat :=
  r.pciRetries.toNat * 2 ^ 24 + r.pciWidth.toNat * 2 ^ 16 + r.pciRate.toNat * 256 + b2n r.pciFlit * 16 + r.pciState.toNat

/-- `pwrst` (R474). -/
def PkgRegs.powerWord (r : PkgRegs) : Nat :=
  r.watts.toNat * 2 ^ 48 + r.tj.toNat * 2 ^ 40 + r.mhz.toNat * 2 ^ 16 + b2n r.thermal * 32 + b2n r.power * 16 + r.pwrState.toNat

/-- `evctl` (R400). -/
def EventRing.ctlWord (r : EventRing) : Nat := b2n r.en * 2 ^ 31 + r.vector.toNat * 256 + r.lsize.toNat

/-- The 8-byte word at an offset of the global window. -/
def globalWord (s : State) (o : Nat) : Nat :=
  let h := s.hostif
  let r := h.ring
  if o = 0x100 then r.base.toNat * 4096
  else if o = 0x108 then r.ctlWord
  else if o = 0x110 then r.head.toNat
  else if o = 0x118 then r.tail.toNat
  else if o = 0x120 then r.seq.toNat * 2 ^ 32 + r.ovf.toNat
  else if o = 0x200 then h.bias.addrWord
  else if o = 0x208 then h.bias.count.toNat * 2 ^ 16 + b2n h.bias.toHost
  else if o = 0x210 then h.bias.statWord
  else if o = 0x300 then h.regs.hepoch.toNat
  else if o = 0x400 then devstWord s
  else if o = 0x410 then h.regs.linkWord
  else if o = 0x500 then h.regs.pwrlim.toNat
  else if o = 0x508 then h.regs.powerWord
  else if 0x1000 ≤ o ∧ o < 0x3000 then readLE r.missed (o - 0x1000) 8
  else 0

/-- The ring's registers written (R400). -/
def EventRing.put (r : EventRing) (o : Nat) (w : RegWr) : EventRing :=
  if o = 0x100 then (if r.en then r else { r with base := BitVec.ofNat 52 (w.field 12 52 r.base.toNat) })
  else if o = 0x108 then
    let n := w.field 0 5 r.lsize.toNat
    { r with en := w.bit 31 r.en, vector := BitVec.ofNat 8 (w.field 8 8 r.vector.toNat)
             lsize := if 6 ≤ n ∧ n ≤ 16 then BitVec.ofNat 5 n else r.lsize }
  else if o = 0x118 then { r with tail := BitVec.ofNat 32 (w.field 0 32 r.tail.toNat) }
  else r

/-- A write to the global window. -/
def globalPut (s : State) (o : Nat) (w : RegWr) : State :=
  let h := s.hostif
  if o < 0x200 then { s with hostif := { h with ring := h.ring.put o w } }
  else if o = 0x200 then { s with hostif := { h with bias := { h.bias with page := BitVec.ofNat 40 (w.field 12 40 h.bias.page.toNat) } } }
  else if o = 0x208 then
    let b := { h.bias with count := BitVec.ofNat 16 (w.field 16 16 h.bias.count.toNat), toHost := w.bit 0 h.bias.toHost }
    let s := { s with hostif := { h with bias := b } }
    if w.hit 32 then biasGo s else s
  else if o = 0x500 then
    let n := w.field 0 16 h.regs.pwrlim.toNat
    if 1000 ≤ n ∧ n ≤ 3000 then { s with hostif := { h with regs := { h.regs with pwrlim := BitVec.ofNat 16 n } } } else s
  else s

/-! ## Context window (R361, R390) -/

/-- `ctxctl.state`. -/
def CtxState.code : CtxState → Nat
  | .free => 0
  | .active => 1
  | .saving => 2
  | .saved => 3
  | .restoring => 4
  | .fatal => 5

/-- `ctxrate`: the code of route class i at bits [4i + 2 : 4i]. -/
def Ctx.rateWord (c : Ctx) : Nat := ((List.range 4).map fun i => (c.rate.get (Fin.ofNat 4 i)).toNat * 2 ^ (4 * i)).sum

/-- The 8-byte word at an offset of a context's block. -/
def Ctx.word (c : Ctx) (o : Nat) : Nat :=
  if o = 0x00 then c.root.toNat * 2 ^ 20
  else if o = 0x08 then c.rows.toNat
  else if o = 0x10 then c.tag.toNat
  else if o = 0x18 then c.reach.toNat * 2 ^ 7
  else if o = 0x20 then c.save.toNat * 2 ^ 12
  else if o = 0x28 then c.pool.toNat * 2 ^ 18
  else if o = 0x30 then c.rateWord
  else if o = 0x38 then c.err.toNat * 2 ^ 16 + c.st.code * 256
  else if o = 0x40 then b2n c.pasidEn * 2 ^ 20 + c.pasid.toNat
  else if o = 0x48 then c.post.toNat * 2 ^ 12
  else if o = 0x50 then c.sup.toNat * 2 ^ 6
  else if o = 0x58 then c.lossCount.toNat * 2 ^ 32 + c.lossLast.toNat
  else 0

/-- A field of a context's block written; those of R361 and R390 only while it is Free. -/
def Ctx.putWord (c : Ctx) (o : Nat) (w : RegWr) : Ctx :=
  if o = 0x30 then
    let v := (List.range 4).map fun i => w.field (4 * i) 3 (c.rate.get (Fin.ofNat 4 i)).toNat
    if v.all (· ≤ 4) then { c with rate := Vector.ofFn fun i : Fin 4 => BitVec.ofNat 3 (v.getD i.val 0) } else c
  else if c.st ≠ .free then c
  else if o = 0x00 then { c with root := BitVec.ofNat 32 (w.field 20 32 c.root.toNat) }
  else if o = 0x08 then { c with rows := BitVec.ofNat 50 (w.field 0 50 c.rows.toNat) }
  else if o = 0x10 then { c with tag := BitVec.ofNat 16 (w.field 0 16 c.tag.toNat) }
  else if o = 0x18 then { c with reach := BitVec.ofNat 45 (w.field 7 45 c.reach.toNat) }
  else if o = 0x20 then { c with save := BitVec.ofNat 40 (w.field 12 40 c.save.toNat) }
  else if o = 0x28 then { c with pool := BitVec.ofNat 34 (w.field 18 34 c.pool.toNat) }
  else if o = 0x40 then { c with pasidEn := w.bit 20 c.pasidEn, pasid := BitVec.ofNat 20 (w.field 0 20 c.pasid.toNat) }
  else if o = 0x48 then { c with post := BitVec.ofNat 40 (w.field 12 40 c.post.toNat) }
  else if o = 0x50 then { c with sup := BitVec.ofNat 46 (w.field 6 46 c.sup.toNat) }
  else c

/-- A write to a context's block; a write of `ctxctl.cmd` is a command (R362). -/
def ctxPut (s : State) (n o : Nat) (w : RegWr) : State :=
  if o = 0x38 then (if bitOf w.mask 0 then ctxCommand s n (bitsOf w.val 0 3) else s)
  else s.setCtx n ((s.ctx n).putWord o w)

/-! ## Queue window (R370) -/

/-- The 8-byte word at an offset of a queue's block. -/
def Queue.word (q : Queue) (o : Nat) : Nat :=
  if o = 0x00 then q.base.toNat * 4096
  else if o = 0x08 then b2n q.en * 2 ^ 31 + q.ctx.toNat * 256 + q.lsize.toNat
  else if o = 0x10 then q.wr.toNat
  else if o = 0x18 then q.rd.toNat
  else if o = 0x20 then q.seq.toNat
  else if o = 0x28 then q.errWord
  else 0

/-- `qctl.ctx` and `qctl.lsize`, written while `en` is 0. -/
def Queue.putCtl (q : Queue) (w : RegWr) : Queue :=
  if q.en then q
  else
    let n := w.field 0 5 q.lsize.toNat
    { q with ctx := BitVec.ofNat 6 (w.field 8 6 q.ctx.toNat), lsize := if 6 ≤ n ∧ n ≤ 16 then BitVec.ofNat 5 n else q.lsize }

/-- A write to a queue's block. -/
def queuePut (s : State) (n o : Nat) (w : RegWr) : State :=
  let q := s.queue n
  if o = 0x00 then s.setQueue n { q with base := BitVec.ofNat 52 (w.field 12 52 q.base.toNat) }
  else if o = 0x08 then
    let s := s.setQueue n (q.putCtl w)
    if w.bit 31 q.en then enableQueue s n else stopQueue s n
  else if o = 0x10 then (if bitOf w.mask 0 then ringDoorbell s n (BitVec.ofNat 32 (w.field 0 32 q.wr.toNat)) else s)
  else if o = 0x28 then (if w.hit 31 then clearQueueError s n else s)
  else s

/-! ## BAR0 (R389, R470) -/

/-- The 8-byte word at an offset of BAR0; windows other than the global one read 0 until `ready`. -/
def bar0Word (s : State) (o : Nat) : Nat :=
  if o < 0x10000 then globalWord s o
  else if s.hostif.regs.ready = false then 0
  else if o < 0x10000 + 128 * 64 then (s.ctx ((o - 0x10000) / 128)).word (o % 128)
  else if 0x20000 ≤ o ∧ o < 0x20000 + 64 * 256 then (s.queue ((o - 0x20000) / 64)).word (o % 64)
  else if 0x800000 ≤ o ∧ o < 0x800080 then readLE s.hostif.msix (o - 0x800000) 8
  else if o = 0x801000 then s.hostif.pba.toNat
  else 0

/-- What the host reads at an offset of BAR0. -/
def bar0Read (s : State) (addr size : Nat) : Nat := readWords (bar0Word s) addr size

/-- A write of the host to BAR0: an access that is not an aligned one of 4 or 8 bytes has no effect. A pending vector that a write of the MSI-X table
unmasks is raised (R389, log 39). -/
def bar0Write (s : State) (addr size v : Nat) : State :=
  let w := regWr addr size v
  let o := addr / 8 * 8
  if (size ≠ 4 ∧ size ≠ 8) ∨ addr % size ≠ 0 then s
  else if o < 0x10000 then globalPut s o w
  else if s.hostif.regs.ready = false then s
  else if o < 0x10000 + 128 * 64 then ctxPut s ((o - 0x10000) / 128) (o % 128) w
  else if 0x20000 ≤ o ∧ o < 0x20000 + 64 * 256 then queuePut s ((o - 0x20000) / 64) (o % 64) w
  else if 0x800000 ≤ o ∧ o < 0x800080 then
    let h := { s.hostif with msix := writeLE s.hostif.msix (addr - 0x800000) size v }
    { s with hostif := (List.range 8).foldl (fun h i => h.unmask (BitVec.ofNat 8 i)) h }
  else s

/-- REGISTER_WRITE: by the host to BAR0, or by M firmware to control space (R12, R389, R443). -/
def execRegisterWrite (host : Bool) (addr size : Nat) (value : BitVec 64) (s : State) : Out :=
  .next (if host then bar0Write s addr size value.toNat
    else if (size = 4 ∨ size = 8) ∧ addr % size = 0 then ctlWrite s addr size value.toNat
    else s)

end Sys2Proof.Machine
end

