-- ==== Sys2Proof/Machine/Outside.lean ====
section
/-! DEFINITION. What reaches the package from outside, or goes wrong in it, without an event of the opcode table (log 33): the host's own accesses and
answers (R387 to R397, R409), the management port (R467), uncorrectable errors that a read finds (R420), lockstep (R417) and the edges that the lease
holders of packages tell each other (R432). -/

namespace Sys2Proof.Machine

/-- The host performs an atomic on its own memory, and learns the old value (R409). -/
def hostAtomic (s : State) (a : HostAtomic) : State :=
  let old := readLE s.hostMem a.pa a.size
  let s := match atomicWrite a old with
    | some v => { s with hostMem := writeLE s.hostMem a.pa a.size v }
    | none => s
  answer s (.data (leBytes a.size old))

/-- The host takes a line into its cache, or writes the line it holds: only where the link runs CXL and the page is in host bias. A write reaches
memory at once (R397, log 42). -/
def hostLine (s : State) (pa : Nat) (data : Option (List Byte)) : State :=
  let l := lineOf pa
  let h := s.hostif
  if h.regs.cxl = false ∨ isDev pa = false ∨ !h.bias.host.contains (pa / 4096) then hostAccess s { pa := 128 * l, size := 128, data := data, cxl := true }
  else
    let s := match data with
      | some d => devWrite s none (128 * l) (d.take 128)
      | none => s
    let s := { s with hostif := { s.hostif with held := (s.hostif.held.filter (· ≠ l) ++ [l]).mergeSort (· ≤ ·) } }
    match data with
    | some _ => answer s .written
    | none => hostAccess s { pa := 128 * l, size := 128, data := none, cxl := true }

/-- An access over CXL.mem, by the HDM decoder; no decoder takes an address outside its range, which reads as poisoned data and drops a write
(R397, log 39). -/
def hdmAccess (s : State) (a : HostAccess) : State :=
  match hdmAddress s.hostif a.pa with
  | some pa => hostAccess s { a with pa := pa, cxl := true }
  | none => answer s (if a.data.isSome then .written else .poisoned)

/-- An access of a register window is an aligned one of 4 or 8 bytes (R389). -/
def alignedAccess (addr size : Nat) : Bool := (decide (size = 4) || decide (size = 8)) && decide (addr % size = 0)

/-- The 8-byte word of BAR4 at an offset. -/
def bar4Word (s : State) (o : Nat) : Nat := (componentWord s.hostif (o / 4)).toNat + 2 ^ 32 * (componentWord s.hostif (o / 4 + 1)).toNat

/-- An access of BAR4: a read, or a write of 4-byte registers (R388). -/
def bar4Access (s : State) (addr size : Nat) (value : Option (BitVec 64)) : State :=
  if alignedAccess addr size = false ∨ 65536 ≤ addr then answer s .unsupported
  else
    match value with
    | none => answer s (.data (leBytes size (readWords (bar4Word s) addr size)))
    | some v =>
      let b := (List.range (size / 4)).foldl (fun b i => smSet (addr / 4 + i) (BitVec.ofNat 32 (bitsOf v.toNat (32 * i) 32)) b) s.hostif.bar4
      answer { s with hostif := { s.hostif with bar4 := b } } .written

/-- A register of the management port (R467). -/
def mgmtWord (s : State) (reg : Nat) : Nat :=
  let r := s.hostif.regs
  if reg = 0x00 then b2n r.pkgidValid * 2 ^ 15 + r.pkgid.toNat else if reg = 0x08 then devstWord s else if reg = 0x10 then r.powerWord else 0

/-- What something from outside does. -/
def outside (s : State) (e : Outside) : State :=
  match e with
  | .hostStore place data => { s with hostMem := writeBytes s.hostMem place data }
  | .hostAtomic a => hostAtomic s a
  | .hostPage p => { s with hostif := { s.hostif with pages := s.hostif.pages.filter (fun q => decide (q.page ≠ p.page)) ++ [p] } }
  | .hostLine pa data => hostLine s pa data
  | .hostEvict pa => { s with hostif := { s.hostif with held := s.hostif.held.filter fun l => decide (l ≠ lineOf pa) } }
  | .hdmAccess a => hdmAccess s a
  | .bar0Read addr size =>
    answer s (if alignedAccess addr size then .data (leBytes size (bar0Read s addr size)) else .unsupported)
  | .bar4Access addr size value => bar4Access s addr size value
  | .doeDiscovery index =>
    if s.hostif.regs.configured then { s with hostif := { s.hostif with doe := s.hostif.doe ++ [doeEntry index] } } else s
  | .mgmtRead reg => { s with hostif := { s.hostif with mgmt := s.hostif.mgmt ++ [mgmtWord s reg] } }
  | .readError l2 pa => poisonWord s pa (if l2 then 2 else if pa % 2 ^ 41 < 2 ^ 40 then 0 else 1)
  | .lockstep n => s.setBasin n { s.basin n with lockstep := true }
  | .waitAnswer pkg es => hearEdges s pkg es
  | .waitQuery ctag => tellEdges s ctag

end Sys2Proof.Machine
end

