-- ==== Sys2Proof/WellFormed.lean ====
section
/-! DEFINITION. Which instructions have a word: the field values and combinations that R80 to R82, R106, R111, R117,
R129 to R138, R147, R148, R162, R166, R173, R179 to R181 and R212 permit. An event has no word. -/

namespace Sys2Proof

/-- R134: a conversion whose source equals its destination, or that pairs the integer code 7 with 4, 5, 6 or 7, has an
unassigned sub-opcode. -/
def badCvtPair (src dst : Nat) : Bool :=
  src == dst || (src == 7 && 4 ≤ dst) || (dst == 7 && 4 ≤ src)

/-- R64: the exact pairs of conversion codes (R134), which have no stochastic form. -/
def exactCvt (src dst : Nat) : Bool :=
  (src == 6 && dst < 6) || ((src == 4 || src == 5) && dst < 4) || ((src == 2 || src == 3) && dst < 2) ||
    (src == 1 && dst == 0)

/-- R180: the destination codes of `mcvt`. -/
def mcvtFmt (f : Nat) : Bool := f == 1 || f == 2 || f == 3 || f == 4 || f == 7 || f == 8

/-- R180: the destination codes of `mdrain`. -/
def mdrainFmt (f : Nat) : Bool := f == 0 || mcvtFmt f

/-- The instruction has a word: every field holds a value that its description permits. -/
def Instr.wellFormed : Instr → Bool
  | .add _ _ _ => true
  | .sub _ _ _ => true
  | .and _ _ _ => true
  | .or _ _ _ => true
  | .xor _ _ _ => true
  | .sll _ _ _ => true
  | .srl _ _ _ => true
  | .sra _ _ _ => true
  | .slt _ _ _ => true
  | .sltz _ _ _ => true
  | .addw _ _ _ => true
  | .subw _ _ _ => true
  | .min _ _ _ => true
  | .max _ _ _ => true
  | .minz _ _ _ => true
  | .maxz _ _ _ => true
  | .mul _ _ _ => true
  | .mulh _ _ _ => true
  | .mulhz _ _ _ => true
  | .div _ _ _ => true
  | .divz _ _ _ => true
  | .rem _ _ _ => true
  | .remz _ _ _ => true
  | .slli _ _ _ => true
  | .srli _ _ _ => true
  | .srai _ _ _ => true
  | .rori _ _ _ => true
  | .clz _ _ => true
  | .ctz _ _ => true
  | .cpop _ _ => true
  | .rev8 _ _ => true
  | .zeqz _ _ _ => true
  | .znez _ _ _ => true
  | .addi _ _ _ => true
  | .andi _ _ _ => true
  | .ori _ _ _ => true
  | .lui _ _ => true
  | .auipc _ _ => true
  | .jal _ _ => true
  | .jalr _ _ _ => true
  | .beq _ _ _ => true
  | .bne _ _ _ => true
  | .blt _ _ _ => true
  | .bge _ _ _ => true
  | .bsig _ => true
  | .ld _ _ _ => true
  | .lw _ _ _ => true
  | .lwz _ _ _ => true
  | .lbz _ _ _ => true
  | .sd _ _ _ => true
  | .sw _ _ _ => true
  | .lx _ _ _ width => !(decide (width.toNat = 7))
  | .sx _ _ _ width => !(decide (width.toNat % 2 = 1))
  | .lsp _ _ _ width => !(decide (width.toNat = 7))
  | .ssp _ _ _ width => !(decide (width.toNat % 2 = 1))
  | .amoswapD _ _ _ scope _ => !(decide (6 ≤ scope.toNat))
  | .amoswapW _ _ _ scope _ => !(decide (6 ≤ scope.toNat))
  | .amoaddD _ _ _ scope _ => !(decide (6 ≤ scope.toNat))
  | .amoaddW _ _ _ scope _ => !(decide (6 ≤ scope.toNat))
  | .amoandD _ _ _ scope _ => !(decide (6 ≤ scope.toNat))
  | .amoandW _ _ _ scope _ => !(decide (6 ≤ scope.toNat))
  | .amoorD _ _ _ scope _ => !(decide (6 ≤ scope.toNat))
  | .amoorW _ _ _ scope _ => !(decide (6 ≤ scope.toNat))
  | .amoxorD _ _ _ scope _ => !(decide (6 ≤ scope.toNat))
  | .amoxorW _ _ _ scope _ => !(decide (6 ≤ scope.toNat))
  | .amominD _ _ _ scope _ => !(decide (6 ≤ scope.toNat))
  | .amominW _ _ _ scope _ => !(decide (6 ≤ scope.toNat))
  | .amomaxD _ _ _ scope _ => !(decide (6 ≤ scope.toNat))
  | .amomaxW _ _ _ scope _ => !(decide (6 ≤ scope.toNat))
  | .amominzD _ _ _ scope _ => !(decide (6 ≤ scope.toNat))
  | .amominzW _ _ _ scope _ => !(decide (6 ≤ scope.toNat))
  | .amomaxzD _ _ _ scope _ => !(decide (6 ≤ scope.toNat))
  | .amomaxzW _ _ _ scope _ => !(decide (6 ≤ scope.toNat))
  | .amocasD _ _ _ scope _ => !(decide (6 ≤ scope.toNat))
  | .amocasW _ _ _ scope _ => !(decide (6 ≤ scope.toNat))
  | .amoaddF32 _ _ _ scope _ => !(decide (6 ≤ scope.toNat))
  | .ldaW _ _ scope => !(decide (6 ≤ scope.toNat))
  | .ldaD _ _ scope => !(decide (6 ≤ scope.toNat))
  | .staW _ _ scope => !(decide (6 ≤ scope.toNat))
  | .staD _ _ scope => !(decide (6 ≤ scope.toNat))
  | .fence scope ord => !(decide (6 ≤ scope.toNat ∨ ord.toNat = 0))
  | .faddF64 _ _ _ => true
  | .fsubF64 _ _ _ => true
  | .fmulF64 _ _ _ => true
  | .fdivF64 _ _ _ => true
  | .fsqrtF64 _ _ => true
  | .fmacF64 _ _ _ => true
  | .fmscF64 _ _ _ => true
  | .fnmacF64 _ _ _ => true
  | .faddF32 _ _ _ => true
  | .fsubF32 _ _ _ => true
  | .fmulF32 _ _ _ => true
  | .fdivF32 _ _ _ => true
  | .fsqrtF32 _ _ => true
  | .fmacF32 _ _ _ => true
  | .fmscF32 _ _ _ => true
  | .fnmacF32 _ _ _ => true
  | .ftoi _ _ _ _ => true
  | .ftrc _ _ _ _ => true
  | .itof _ _ _ _ => true
  | .fnarrowF32 _ _ => true
  | .fnarrowF16 _ _ => true
  | .fnarrowBf16 _ _ => true
  | .fwidenF32 _ _ => true
  | .fwidenF16 _ _ => true
  | .fwidenBf16 _ _ => true
  | .feq _ _ _ _ => true
  | .flt _ _ _ _ => true
  | .fle _ _ _ _ => true
  | .fmin _ _ _ _ => true
  | .fmax _ _ _ _ => true
  | .fclass _ _ _ => true
  | .vshape _ _ _ _ => true
  | .vmvx _ _ _ _ => true
  | .vmvxz _ _ _ _ => true
  | .vmvv _ _ _ _ => true
  | .vbcast _ _ _ _ => true
  | .vmv _ _ _ _ => true
  | .vid _ _ _ => true
  | .vidr _ _ _ => true
  | .vidf _ _ _ => true
  | .vadd _ _ _ _ _ _ _ => true
  | .vsub _ _ _ _ _ _ _ => true
  | .vrsub _ _ _ _ _ _ _ => true
  | .vmin _ _ _ _ _ _ _ => true
  | .vminz _ _ _ _ _ _ _ => true
  | .vmax _ _ _ _ _ _ _ => true
  | .vmaxz _ _ _ _ _ _ _ => true
  | .vsadd _ _ _ _ _ _ _ => true
  | .vsaddz _ _ _ _ _ _ _ => true
  | .vssub _ _ _ _ _ _ _ => true
  | .vssubz _ _ _ _ _ _ _ => true
  | .vwadd _ _ _ _ _ _ _ => true
  | .vwaddz _ _ _ _ _ _ _ => true
  | .vwsub _ _ _ _ _ _ _ => true
  | .vwsubz _ _ _ _ _ _ _ => true
  | .vext _ _ _ _ _ => true
  | .vextz _ _ _ _ _ => true
  | .vnarrow _ _ _ _ _ => true
  | .vnsat _ _ _ _ _ => true
  | .vnsatz _ _ _ _ _ => true
  | .vnclampz _ _ _ _ _ => true
  | .vmul _ _ _ _ _ _ _ => true
  | .vmulh _ _ _ _ _ _ _ => true
  | .vmulhz _ _ _ _ _ _ _ => true
  | .vdiv _ _ _ _ _ _ _ => true
  | .vdivz _ _ _ _ _ _ _ => true
  | .vrem _ _ _ _ _ _ _ => true
  | .vremz _ _ _ _ _ _ _ => true
  | .vwmul _ _ _ _ _ _ _ => true
  | .vwmulz _ _ _ _ _ _ _ => true
  | .vand _ _ _ _ _ _ _ => true
  | .vor _ _ _ _ _ _ _ => true
  | .vxor _ _ _ _ _ _ _ => true
  | .vandn _ _ _ _ _ _ _ => true
  | .vsll _ _ _ _ _ _ _ => true
  | .vsrl _ _ _ _ _ _ _ => true
  | .vsra _ _ _ _ _ _ _ => true
  | .vror _ _ _ _ _ _ _ => true
  | .vseq _ _ _ _ _ _ _ => true
  | .vsne _ _ _ _ _ _ _ => true
  | .vslt _ _ _ _ _ _ _ => true
  | .vsltz _ _ _ _ _ _ _ => true
  | .vsle _ _ _ _ _ _ _ => true
  | .vslez _ _ _ _ _ _ _ => true
  | .vsgt _ _ _ _ _ _ _ => true
  | .vsgtz _ _ _ _ _ _ _ => true
  | .mand _ _ _ _ => true
  | .mor _ _ _ _ => true
  | .mxor _ _ _ _ => true
  | .mandn _ _ _ _ => true
  | .mnot _ _ _ => true
  | .mset _ _ => true
  | .mclr _ _ => true
  | .mpop _ _ _ => true
  | .mfirst _ _ _ => true
  | .vmerge _ _ _ _ _ _ _ => true
  | .vfadd _ _ _ _ _ _ _ => true
  | .vfsub _ _ _ _ _ _ _ => true
  | .vfrsub _ _ _ _ _ _ _ => true
  | .vfmul _ _ _ _ _ _ _ => true
  | .vfdiv _ _ _ _ _ _ _ => true
  | .vfrdiv _ _ _ _ _ _ _ => true
  | .vfsqrt _ _ _ _ _ => true
  | .vfmin _ _ _ _ _ _ _ => true
  | .vfmax _ _ _ _ _ _ _ => true
  | .vfsgnj _ _ _ _ _ _ _ => true
  | .vfsgnjn _ _ _ _ _ _ _ => true
  | .vfsgnjx _ _ _ _ _ _ _ => true
  | .vfmac _ _ _ _ _ _ _ => true
  | .vfmsc _ _ _ _ _ _ _ => true
  | .vfnmac _ _ _ _ _ _ _ => true
  | .vfnmsc _ _ _ _ _ _ _ => true
  | .vmac _ _ _ _ _ _ => true
  | .vnmac _ _ _ _ _ _ => true
  | .vwmac _ _ _ _ _ _ => true
  | .vwmacz _ _ _ _ _ _ => true
  | .vdot4 _ _ _ _ _ _ => true
  | .vdot4z _ _ _ _ _ _ => true
  | .vfeq _ _ _ _ _ _ _ => true
  | .vfne _ _ _ _ _ _ _ => true
  | .vflt _ _ _ _ _ _ _ => true
  | .vfle _ _ _ _ _ _ _ => true
  | .vfgt _ _ _ _ _ _ _ => true
  | .vfge _ _ _ _ _ _ _ => true
  | .vfclass _ _ _ _ _ => true
  | .vcvt _ _ _ _ alt src dst => !(decide (badCvtPair (src.toNat) (dst.toNat))) && !(decide (alt.toNat = 1 ∧ exactCvt (src.toNat) (dst.toNat)))
  | .vbsq _ _ _ _ _ fmt => !(decide (fmt.toNat = 3))
  | .vbsdq _ _ _ _ _ fmt => !(decide (fmt.toNat = 3))
  | .vslideup _ _ _ _ _ _ => true
  | .vslidedown _ _ _ _ _ _ => true
  | .vrgather _ _ _ _ _ _ _ => true
  | .vcompress _ _ _ _ _ => true
  | .vrowbc _ _ _ _ _ _ => true
  | .vredsum _ _ _ _ _ toX perRow => !(decide (toX.toNat = 1 ∧ perRow.toNat = 1))
  | .vredmin _ _ _ _ _ toX perRow => !(decide (toX.toNat = 1 ∧ perRow.toNat = 1))
  | .vredminz _ _ _ _ _ toX perRow => !(decide (toX.toNat = 1 ∧ perRow.toNat = 1))
  | .vredmax _ _ _ _ _ toX perRow => !(decide (toX.toNat = 1 ∧ perRow.toNat = 1))
  | .vredmaxz _ _ _ _ _ toX perRow => !(decide (toX.toNat = 1 ∧ perRow.toNat = 1))
  | .vfredo _ _ _ _ _ => true
  | .vfredoBf16 _ _ _ _ _ => true
  | .vfredt _ _ _ _ _ toX perRow => !(decide (toX.toNat = 1 ∧ perRow.toNat = 1))
  | .vfredtBf16 _ _ _ _ _ toX perRow => !(decide (toX.toNat = 1 ∧ perRow.toNat = 1))
  | .vfredmin _ _ _ _ _ toX perRow => !(decide (toX.toNat = 1 ∧ perRow.toNat = 1))
  | .vfredminBf16 _ _ _ _ _ toX perRow => !(decide (toX.toNat = 1 ∧ perRow.toNat = 1))
  | .vfredmax _ _ _ _ _ toX perRow => !(decide (toX.toNat = 1 ∧ perRow.toNat = 1))
  | .vfredmaxBf16 _ _ _ _ _ toX perRow => !(decide (toX.toNat = 1 ∧ perRow.toNat = 1))
  | .vexit _ _ _ => true
  | .lsplit _ _ _ => true
  | .ljoin => true
  | .vld _ _ _ token orient _ _ _ => !(decide (token.toNat ≠ 0 ∧ orient.toNat = 1))
  | .vldCw _ _ _ token orient _ chunk _ => !(decide (chunk.toNat = 0 ∨ token.toNat ≠ 0 ∧ orient.toNat = 1))
  | .vldIndexed _ _ _ token orient _ _ _ => !(decide (token.toNat ≠ 0 ∧ orient.toNat = 1))
  | .vldIndexedCw _ _ _ token orient _ chunk _ => !(decide (chunk.toNat = 0 ∨ token.toNat ≠ 0 ∧ orient.toNat = 1))
  | .vst _ _ _ token orient _ _ _ _ => !(decide (token.toNat ≠ 0 ∧ orient.toNat = 1))
  | .vstm _ _ _ token _ _ _ _ => !(decide (token.toNat = 0))
  | .vstIndexed _ _ _ token orient _ _ _ _ => !(decide (token.toNat ≠ 0 ∧ orient.toNat = 1))
  | .vstmIndexed _ _ _ token _ _ _ _ => !(decide (token.toNat = 0))
  | .vamoaddW _ _ _ token _ _ => !(decide (token.toNat = 0))
  | .vamoaddD _ _ _ token _ _ => !(decide (token.toNat = 0))
  | .vamominW _ _ _ token _ _ => !(decide (token.toNat = 0))
  | .vamomaxW _ _ _ token _ _ => !(decide (token.toNat = 0))
  | .vamoaddF32 _ _ _ token _ _ => !(decide (token.toNat = 0))
  | .vamoaddF16 _ _ _ token _ _ _ => !(decide (token.toNat = 0))
  | .vamoaddBf16 _ _ _ token _ _ _ => !(decide (token.toNat = 0))
  | .vamoaddWDup _ _ _ token _ _ => !(decide (token.toNat = 0))
  | .vamoaddDDup _ _ _ token _ _ => !(decide (token.toNat = 0))
  | .vamominWDup _ _ _ token _ _ => !(decide (token.toNat = 0))
  | .vamomaxWDup _ _ _ token _ _ => !(decide (token.toNat = 0))
  | .vamoaddF32Dup _ _ _ token _ _ => !(decide (token.toNat = 0))
  | .vamoaddF16Dup _ _ _ token _ _ _ => !(decide (token.toNat = 0))
  | .vamoaddBf16Dup _ _ _ token _ _ _ => !(decide (token.toNat = 0))
  | .vpin perm _ _ token => !(decide (perm.toNat = 0 ∨ token.toNat = 0))
  | .vunpin token => !(decide (token.toNat = 0))
  | .vspill vs _ kind _ _ => !(decide (2 ≤ kind.toNat)) && !(decide (kind.toNat = 1 ∧ 8 ≤ vs.toNat))
  | .vfill vd _ kind _ _ => !(decide (2 ≤ kind.toNat)) && !(decide (kind.toNat = 1 ∧ 8 ≤ vd.toNat))
  | .mmul _ _ _ fmt fromSp orient _ => !(decide (9 ≤ fmt.toNat ∨ (orient.toNat = 1 ∧ fromSp.toNat = 0)))
  | .mmulz _ _ _ fmt fromSp orient _ => !(decide (9 ≤ fmt.toNat ∨ (orient.toNat = 1 ∧ fromSp.toNat = 0)))
  | .mmulBs _ _ _ fmt fromSp orient _ => !(decide (9 ≤ fmt.toNat ∨ fmt.toNat < 4 ∨ (orient.toNat = 1 ∧ fromSp.toNat = 0)))
  | .mmulzBs _ _ _ fmt fromSp orient _ => !(decide (9 ≤ fmt.toNat ∨ fmt.toNat < 4 ∨ (orient.toNat = 1 ∧ fromSp.toNat = 0)))
  | .mzero _ fmt _ => !(decide (2 ≤ fmt.toNat))
  | .mcvt _ _ fmt _ => !(decide (¬ mcvtFmt (fmt.toNat)))
  | .mcvtSr _ _ fmt _ => !(decide (¬ mcvtFmt (fmt.toNat)))
  | .mdrain _ _ _ fmt _ => !(decide (¬ mdrainFmt (fmt.toNat)))
  | .mdrainz _ _ _ fmt _ => !(decide (¬ mdrainFmt (fmt.toNat)))
  | .msend _ _ _ => true
  | .mput _ _ _ _ => true
  | .mwake _ _ => true
  | .mwait _ _ _ => true
  | .mcount _ _ => true
  | .locq _ _ => true
  | .scopyin _ _ _ _ _ => true
  | .scopyout _ _ _ _ _ => true
  | .scopy2inRow _ _ _ _ _ => true
  | .scopy2inCol _ _ _ _ _ => true
  | .scopy2outRow _ _ _ _ _ => true
  | .scopy2outCol _ _ _ _ _ => true
  | .scopyr _ _ _ _ => true
  | .sgatherRow _ _ _ _ _ => true
  | .sgatherCol _ _ _ _ _ => true
  | .swait _ _ _ => true
  | .sfault _ _ => true
  | .sreplay _ _ _ => true
  | .warrive _ => true
  | .wwait _ => true
  | .wtest _ _ => true
  | .tend => true
  | .thold _ _ _ => true
  | .tready _ _ _ => true
  | .tenable _ _ _ => true
  | .tpost _ _ => true
  | .glaunch _ _ => true
  | .wreserve _ _ _ => true
  | .wcommit _ _ => true
  | .qpush _ _ _ _ => true
  | .qend _ => true
  | .pxlock _ _ _ _ => true
  | .pxunlock _ _ _ => true
  | .pxskip _ _ _ _ => true
  | .tsample _ _ _ _ _ token => !(decide (token.toNat = 0))
  | .tsampleLod _ _ _ _ _ token => !(decide (token.toNat = 0))
  | .rquery _ _ _ _ _ token => !(decide (token.toNat = 0))
  | .rqueryAny _ _ _ _ _ token => !(decide (token.toNat = 0))
  | .sget _ _ => true
  | .sput _ _ => true
  | .trap _ => true
  | .sret => true
  | .mret => true
  | .ifence => true
  | .cinv _ => true
  | .cinvall => true
  | .cwb _ => true
  | .cwbinv _ => true
  | .halt => true
  | .brk _ => true
  | .illegalEncoding _ => false
  | .hartStateMachineCheck _ _ => false
  | .taskStart _ => false
  | .budgetExpiry _ => false
  | .freezeMarkArrival _ _ _ => false
  | .coreCompleteReport _ => false
  | .runAheadStart _ => false
  | .ownerReserve _ => false
  | .messageDelivery _ => false
  | .drainDelivery _ => false
  | .scopyrPartDelivery _ => false
  | .taskBitMessage _ => false
  | .locqQuery _ _ => false
  | .locqReply _ _ => false
  | .fragmentArrival _ _ _ => false
  | .reassemblyTimerExpiry _ _ _ => false
  | .decodedPacketAccepted _ _ _ => false
  | .sprayAck _ _ _ _ => false
  | .sprayRequest _ _ _ _ => false
  | .sprayProbe _ _ _ => false
  | .probeIntervalExpiry _ _ => false
  | .weirBroadcast _ _ => false
  | .sluiceChunk _ _ _ _ => false
  | .prgResponse _ _ => false
  | .pageRequestTimeout _ => false
  | .atsInvalidate _ _ => false
  | .frameOpen _ => false
  | .binRecord _ => false
  | .qendMarkArrival _ => false
  | .tileResolve _ => false
  | .tileNotification _ _ => false
  | .frameComplete _ => false
  | .pixelLockGrant _ _ _ => false
  | .ctxActivate _ => false
  | .ctxSave _ => false
  | .saveRecordWrite _ => false
  | .ctxRestore _ => false
  | .ctxRelease _ => false
  | .ctxInvalidCommand _ _ => false
  | .queueEnable _ => false
  | .queueDisable _ => false
  | .doorbell _ _ => false
  | .qerrClear _ => false
  | .gangLaunchPacket _ => false
  | .framePacket _ => false
  | .indirectPacket _ => false
  | .signalPacket _ => false
  | .loadPacket _ => false
  | .shootdownPacket _ => false
  | .launchCompletion _ => false
  | .poolDispatch _ _ => false
  | .hostDeviceMemoryAccess _ => false
  | .hostAtomicCompleter _ => false
  | .hostBar0AccessError _ _ => false
  | .hostSnoop _ => false
  | .biasFlipGo _ _ => false
  | .biasPageFlip => false
  | .postAreaScan _ _ => false
  | .functionLevelReset => false
  | .hotReset => false
  | .powerOn => false
  | .standbyEntry => false
  | .standbyExit _ => false
  | .correctedError _ _ _ => false
  | .leakTick _ => false
  | .patrolScrub _ _ => false
  | .basinHeartbeat _ _ => false
  | .agentFailed _ _ => false
  | .fatalSequence _ => false
  | .siphonHold _ => false
  | .siphonCopy _ => false
  | .siphonState _ => false
  | .siphonFlip _ => false
  | .siphonRelease _ => false
  | .siphonAbort _ _ => false
  | .waitCycleWalk _ => false
  | .waitCycleConfirm _ => false
  | .scanSite _ _ => false
  | .linkFlitCrcDrop _ _ => false
  | .pathLeakTick _ _ => false
  | .pathRetrain _ _ _ => false
  | .leaseHeartbeatSend _ => false
  | .leaseHeartbeatReceive _ _ _ _ => false
  | .leaseLapse _ => false
  | .leaseClaim _ _ _ => false
  | .romSidebandTimeout _ => false
  | .selfTestComplete _ _ => false
  | .discoveryFlood _ => false
  | .discoveryReport _ _ => false
  | .discoveryTimeout _ => false
  | .multicastGo _ _ _ => false
  | .multicastAck _ _ => false
  | .multicastTimeout _ => false
  | .siteasgWrite _ _ => false
  | .sitegoGo _ _ => false
  | .sitegoClr _ => false
  | .ncevPop _ => false
  | .ncpost _ _ _ => false
  | .memoryTrainingStep _ _ _ _ => false
  | .ucieTraining _ _ _ => false
  | .fabricPortTraining _ _ _ => false
  | .pcieTraining _ => false
  | .pkgidWrite _ => false
  | .pkgidTimeout => false
  | .powerWindow _ _ => false
  | .spdmGetVersion => false
  | .spdmGetCapabilities => false
  | .spdmNegotiateAlgorithms => false
  | .spdmGetDigests => false
  | .spdmGetCertificate _ => false
  | .spdmChallenge _ _ => false
  | .spdmGetMeasurements _ => false
  | .spdmUnsupported _ => false
  | .registerWrite _ _ _ _ => false
  | .leaseHeartbeatAck _ _ _ _ => false
  | .leaderLeaseExpiry _ => false
  | .claimRetry _ => false
  | .hostWriteRefusal _ _ => false
  | .configurationRequest _ _ _ => false
  | .storePerformed _ _ => false

end Sys2Proof
end

