-- ==== Sys2Proof/Decode.lean ====
section
/-! DEFINITION. Decoding an instruction word (R75 to R84) and, after it, the encoder.

A word is read as a natural number: `fld n lo len` is bits [lo + len - 1 : lo]. `subOf` gives the `sub` value that R84
gives a word no description assigns (1 unassigned major, 2 unassigned sub-opcode, 3 non-zero unused field, 4 field
value or combination not permitted), the lowest that applies, and 0 for a legal word; `instrOf` says what a legal word
stands for. The selecting bits of each major are those of R83; where R83 and a description can be read two ways
(func[5] of major 0x1B, func[2] of major 0x1A, O and C of `vpin` and `vunpin`), log entry 13 names the reading
(DEDUCED).

`instrOf` and what uses it stand in a noncomputable section for one reason only: Lean's compiler lays out no
constructor beyond the 244th of a type, and `Instr` has one for every row of the opcode table. The kernel evaluates
them as it evaluates any definition. -/

namespace Sys2Proof

/-- Bits [lo + len - 1 : lo] of a word (R10). -/
def fld (n lo len : Nat) : Nat := n / 2 ^ lo % 2 ^ len

/-- A field as a bit vector. -/
def num (n lo len : Nat) : BitVec len := BitVec.ofNat len (fld n lo len)

/-- A one-bit field. -/
def flag (n lo : Nat) : Bool := decide (fld n lo 1 = 1)

/-- What decoding answers: an instruction, or the `sub` of the illegal encoding (R84). -/
abbrev Decoded := Except (BitVec 8) Instr

/-- The `sub` of a word of major 0x01, 0 where the word is legal (R83, R84). -/
def sub01 (n : Nat) : Nat :=
  if fld n 0 6 = 0x0 then (if fld n 6 5 ≠ 0 then 3 else 0) else
  if fld n 0 6 = 0x1 then (if fld n 6 5 ≠ 0 then 3 else 0) else
  if fld n 0 6 = 0x2 then (if fld n 6 5 ≠ 0 then 3 else 0) else
  if fld n 0 6 = 0x3 then (if fld n 6 5 ≠ 0 then 3 else 0) else
  if fld n 0 6 = 0x4 then (if fld n 6 5 ≠ 0 then 3 else 0) else
  if fld n 0 6 = 0x5 then (if fld n 6 5 ≠ 0 then 3 else 0) else
  if fld n 0 6 = 0x6 then (if fld n 6 5 ≠ 0 then 3 else 0) else
  if fld n 0 6 = 0x7 then (if fld n 6 5 ≠ 0 then 3 else 0) else
  if fld n 0 6 = 0x8 then (if fld n 6 5 ≠ 0 then 3 else 0) else
  if fld n 0 6 = 0x9 then (if fld n 6 5 ≠ 0 then 3 else 0) else
  if fld n 0 6 = 0xa then (if fld n 6 5 ≠ 0 then 3 else 0) else
  if fld n 0 6 = 0xb then (if fld n 6 5 ≠ 0 then 3 else 0) else
  if fld n 0 6 = 0xc then (if fld n 6 5 ≠ 0 then 3 else 0) else
  if fld n 0 6 = 0xd then (if fld n 6 5 ≠ 0 then 3 else 0) else
  if fld n 0 6 = 0xe then (if fld n 6 5 ≠ 0 then 3 else 0) else
  if fld n 0 6 = 0xf then (if fld n 6 5 ≠ 0 then 3 else 0) else
  2

/-- The `sub` of a word of major 0x02, 0 where the word is legal (R83, R84). -/
def sub02 (n : Nat) : Nat :=
  if fld n 0 6 = 0x0 then (if fld n 6 5 ≠ 0 then 3 else 0) else
  if fld n 0 6 = 0x1 then (if fld n 6 5 ≠ 0 then 3 else 0) else
  if fld n 0 6 = 0x2 then (if fld n 6 5 ≠ 0 then 3 else 0) else
  if fld n 0 6 = 0x3 then (if fld n 6 5 ≠ 0 then 3 else 0) else
  if fld n 0 6 = 0x4 then (if fld n 6 5 ≠ 0 then 3 else 0) else
  if fld n 0 6 = 0x5 then (if fld n 6 5 ≠ 0 then 3 else 0) else
  if fld n 0 6 = 0x6 then (if fld n 6 5 ≠ 0 then 3 else 0) else
  2

/-- The `sub` of a word of major 0x03, 0 where the word is legal (R83, R84). -/
def sub03 (n : Nat) : Nat :=
  if fld n 0 5 = 0x0 then (if fld n 11 5 ≠ 0 then 3 else 0) else
  if fld n 0 5 = 0x1 then (if fld n 11 5 ≠ 0 then 3 else 0) else
  if fld n 0 5 = 0x2 then (if fld n 11 5 ≠ 0 then 3 else 0) else
  if fld n 0 5 = 0x3 then (if fld n 11 5 ≠ 0 then 3 else 0) else
  if fld n 0 5 = 0x4 then (if fld n 5 11 ≠ 0 then 3 else 0) else
  if fld n 0 5 = 0x5 then (if fld n 5 11 ≠ 0 then 3 else 0) else
  if fld n 0 5 = 0x6 then (if fld n 5 11 ≠ 0 then 3 else 0) else
  if fld n 0 5 = 0x7 then (if fld n 5 11 ≠ 0 then 3 else 0) else
  if fld n 0 5 = 0x8 then (if fld n 5 6 ≠ 0 then 3 else 0) else
  if fld n 0 5 = 0x9 then (if fld n 5 6 ≠ 0 then 3 else 0) else
  2

/-- The `sub` of a word of major 0x0F, 0 where the word is legal (R83, R84). -/
def sub0F (n : Nat) : Nat :=
  if fld n 21 5 ≠ 0 then 3 else 0

/-- The `sub` of a word of major 0x16, 0 where the word is legal (R83, R84). -/
def sub16 (n : Nat) : Nat :=
  if fld n 3 2 = 0x0 then (if fld n 0 3 = 7 then 2 else if fld n 5 6 ≠ 0 then 3 else 0) else
  if fld n 3 2 = 0x1 then (if fld n 0 1 = 1 then 2 else if fld n 5 6 ≠ 0 then 3 else 0) else
  if fld n 3 2 = 0x2 then (if fld n 0 3 = 7 then 2 else if fld n 5 6 ≠ 0 then 3 else 0) else
  if fld n 3 2 = 0x3 then (if fld n 0 1 = 1 then 2 else if fld n 5 6 ≠ 0 then 3 else 0) else
  2

/-- The `sub` of a word of major 0x17, 0 where the word is legal (R83, R84). -/
def sub17 (n : Nat) : Nat :=
  if fld n 0 6 = 0x0 then (if 6 ≤ fld n 8 3 then 4 else 0) else
  if fld n 0 6 = 0x10 then (if 6 ≤ fld n 8 3 then 4 else 0) else
  if fld n 0 6 = 0x1 then (if 6 ≤ fld n 8 3 then 4 else 0) else
  if fld n 0 6 = 0x11 then (if 6 ≤ fld n 8 3 then 4 else 0) else
  if fld n 0 6 = 0x2 then (if 6 ≤ fld n 8 3 then 4 else 0) else
  if fld n 0 6 = 0x12 then (if 6 ≤ fld n 8 3 then 4 else 0) else
  if fld n 0 6 = 0x3 then (if 6 ≤ fld n 8 3 then 4 else 0) else
  if fld n 0 6 = 0x13 then (if 6 ≤ fld n 8 3 then 4 else 0) else
  if fld n 0 6 = 0x4 then (if 6 ≤ fld n 8 3 then 4 else 0) else
  if fld n 0 6 = 0x14 then (if 6 ≤ fld n 8 3 then 4 else 0) else
  if fld n 0 6 = 0x5 then (if 6 ≤ fld n 8 3 then 4 else 0) else
  if fld n 0 6 = 0x15 then (if 6 ≤ fld n 8 3 then 4 else 0) else
  if fld n 0 6 = 0x6 then (if 6 ≤ fld n 8 3 then 4 else 0) else
  if fld n 0 6 = 0x16 then (if 6 ≤ fld n 8 3 then 4 else 0) else
  if fld n 0 6 = 0x7 then (if 6 ≤ fld n 8 3 then 4 else 0) else
  if fld n 0 6 = 0x17 then (if 6 ≤ fld n 8 3 then 4 else 0) else
  if fld n 0 6 = 0x8 then (if 6 ≤ fld n 8 3 then 4 else 0) else
  if fld n 0 6 = 0x18 then (if 6 ≤ fld n 8 3 then 4 else 0) else
  if fld n 0 6 = 0x9 then (if 6 ≤ fld n 8 3 then 4 else 0) else
  if fld n 0 6 = 0x19 then (if 6 ≤ fld n 8 3 then 4 else 0) else
  if fld n 0 6 = 0x1a then (if 6 ≤ fld n 8 3 then 4 else 0) else
  if fld n 0 6 = 0x28 then (if fld n 11 5 ≠ 0 then 3 else if 6 ≤ fld n 8 3 ∨ fld n 6 2 ≠ 1 then 4 else 0) else
  if fld n 0 6 = 0x29 then (if fld n 11 5 ≠ 0 then 3 else if 6 ≤ fld n 8 3 ∨ fld n 6 2 ≠ 1 then 4 else 0) else
  if fld n 0 6 = 0x2a then (if fld n 21 5 ≠ 0 then 3 else if 6 ≤ fld n 8 3 ∨ fld n 6 2 ≠ 2 then 4 else 0) else
  if fld n 0 6 = 0x2b then (if fld n 21 5 ≠ 0 then 3 else if 6 ≤ fld n 8 3 ∨ fld n 6 2 ≠ 2 then 4 else 0) else
  if fld n 0 6 = 0x30 then (if fld n 11 15 ≠ 0 then 3 else if 6 ≤ fld n 8 3 ∨ fld n 6 2 = 0 then 4 else 0) else
  2

/-- The `sub` of a word of major 0x18, 0 where the word is legal (R83, R84). -/
def sub18 (n : Nat) : Nat :=
  if fld n 0 6 = 0x0 then (if fld n 6 5 ≠ 0 then 3 else 0) else
  if fld n 0 6 = 0x1 then (if fld n 6 5 ≠ 0 then 3 else 0) else
  if fld n 0 6 = 0x2 then (if fld n 6 5 ≠ 0 then 3 else 0) else
  if fld n 0 6 = 0x3 then (if fld n 6 5 ≠ 0 then 3 else 0) else
  if fld n 0 6 = 0x4 then (if fld n 6 10 ≠ 0 then 3 else 0) else
  if fld n 0 6 = 0x5 then (if fld n 6 5 ≠ 0 then 3 else 0) else
  if fld n 0 6 = 0x6 then (if fld n 6 5 ≠ 0 then 3 else 0) else
  if fld n 0 6 = 0x7 then (if fld n 6 5 ≠ 0 then 3 else 0) else
  2

/-- The `sub` of a word of major 0x19, 0 where the word is legal (R83, R84). -/
def sub19 (n : Nat) : Nat :=
  if fld n 0 6 = 0x0 then (if fld n 6 5 ≠ 0 then 3 else 0) else
  if fld n 0 6 = 0x1 then (if fld n 6 5 ≠ 0 then 3 else 0) else
  if fld n 0 6 = 0x2 then (if fld n 6 5 ≠ 0 then 3 else 0) else
  if fld n 0 6 = 0x3 then (if fld n 6 5 ≠ 0 then 3 else 0) else
  if fld n 0 6 = 0x4 then (if fld n 6 10 ≠ 0 then 3 else 0) else
  if fld n 0 6 = 0x5 then (if fld n 6 5 ≠ 0 then 3 else 0) else
  if fld n 0 6 = 0x6 then (if fld n 6 5 ≠ 0 then 3 else 0) else
  if fld n 0 6 = 0x7 then (if fld n 6 5 ≠ 0 then 3 else 0) else
  2

/-- The `sub` of a word of major 0x1A, 0 where the word is legal (R83, R84). -/
def sub1A (n : Nat) : Nat :=
  if fld n 4 2 = 0x0 ∧ fld n 2 1 = 0 then (if fld n 6 10 ≠ 0 then 3 else 0) else
  if fld n 4 2 = 0x1 ∧ fld n 2 1 = 0 then (if fld n 6 10 ≠ 0 then 3 else 0) else
  if fld n 4 2 = 0x2 ∧ fld n 2 1 = 0 then (if fld n 6 10 ≠ 0 then 3 else 0) else
  if fld n 0 6 = 0x30 then (if fld n 6 10 ≠ 0 then 3 else 0) else
  if fld n 0 6 = 0x31 then (if fld n 6 10 ≠ 0 then 3 else 0) else
  if fld n 0 6 = 0x32 then (if fld n 6 10 ≠ 0 then 3 else 0) else
  if fld n 0 6 = 0x34 then (if fld n 6 10 ≠ 0 then 3 else 0) else
  if fld n 0 6 = 0x35 then (if fld n 6 10 ≠ 0 then 3 else 0) else
  if fld n 0 6 = 0x36 then (if fld n 6 10 ≠ 0 then 3 else 0) else
  2

/-- The `sub` of a word of major 0x1B, 0 where the word is legal (R83, R84). -/
def sub1B (n : Nat) : Nat :=
  if fld n 0 4 = 0x0 ∧ fld n 5 1 = 0x0 then (if fld n 6 5 ≠ 0 then 3 else 0) else
  if fld n 0 4 = 0x1 ∧ fld n 5 1 = 0x0 then (if fld n 6 5 ≠ 0 then 3 else 0) else
  if fld n 0 4 = 0x2 ∧ fld n 5 1 = 0x0 then (if fld n 6 5 ≠ 0 then 3 else 0) else
  if fld n 0 4 = 0x3 ∧ fld n 5 1 = 0x0 then (if fld n 6 5 ≠ 0 then 3 else 0) else
  if fld n 0 4 = 0x4 ∧ fld n 5 1 = 0x0 then (if fld n 6 5 ≠ 0 then 3 else 0) else
  if fld n 0 4 = 0x5 ∧ fld n 5 1 = 0x0 then (if fld n 6 10 ≠ 0 then 3 else 0) else
  2

/-- The `sub` of a word of major 0x20, 0 where the word is legal (R83, R84). -/
def sub20 (n : Nat) : Nat :=
  if fld n 3 4 = 0x0 then (if fld n 7 4 ≠ 0 then 3 else 0) else
  if fld n 0 7 = 0x8 then (if fld n 8 3 ≠ 0 then 3 else 0) else
  if fld n 0 7 = 0x9 then (if fld n 8 3 ≠ 0 then 3 else 0) else
  if fld n 0 7 = 0xa then (if fld n 8 3 ≠ 0 then 3 else 0) else
  if fld n 0 7 = 0xb then (if fld n 11 5 ≠ 0 then 3 else 0) else
  if fld n 0 7 = 0xc then (if fld n 11 5 ≠ 0 then 3 else 0) else
  if fld n 0 7 = 0xd then (if fld n 11 10 ≠ 0 then 3 else 0) else
  if fld n 0 7 = 0xe then (if fld n 11 10 ≠ 0 then 3 else 0) else
  if fld n 0 7 = 0xf then (if fld n 11 10 ≠ 0 then 3 else 0) else
  2

/-- The `sub` of a word of major 0x21, 0 where the word is legal (R83, R84). -/
def sub21 (n : Nat) : Nat :=
  if fld n 3 4 = 0x0 then 0 else
  if fld n 3 4 = 0x1 then 0 else
  if fld n 3 4 = 0x2 then 0 else
  if fld n 3 4 = 0x3 then 0 else
  if fld n 3 4 = 0x4 then 0 else
  if fld n 3 4 = 0x5 then 0 else
  if fld n 3 4 = 0x6 then 0 else
  2

/-- The `sub` of a word of major 0x22, 0 where the word is legal (R83, R84). -/
def sub22 (n : Nat) : Nat :=
  if fld n 3 4 = 0x0 then 0 else
  if fld n 3 4 = 0x1 then 0 else
  if fld n 3 4 = 0x2 then 0 else
  if fld n 3 4 = 0x3 then 0 else
  if fld n 3 4 = 0x4 then 0 else
  if fld n 3 4 = 0x5 then 0 else
  if fld n 3 4 = 0x6 then 0 else
  if fld n 3 4 = 0x7 then 0 else
  if fld n 3 4 = 0x8 then (if fld n 2 1 ≠ 0 ∨ fld n 11 5 ≠ 0 then 3 else 0) else
  if fld n 3 4 = 0x9 then (if fld n 2 1 ≠ 0 ∨ fld n 11 5 ≠ 0 then 3 else 0) else
  if fld n 3 4 = 0xa then (if fld n 2 1 ≠ 0 ∨ fld n 11 5 ≠ 0 then 3 else 0) else
  if fld n 3 4 = 0xb then (if fld n 2 1 ≠ 0 ∨ fld n 11 5 ≠ 0 then 3 else 0) else
  if fld n 3 4 = 0xc then (if fld n 2 1 ≠ 0 ∨ fld n 11 5 ≠ 0 then 3 else 0) else
  if fld n 3 4 = 0xd then (if fld n 2 1 ≠ 0 ∨ fld n 11 5 ≠ 0 then 3 else 0) else
  2

/-- The `sub` of a word of major 0x23, 0 where the word is legal (R83, R84). -/
def sub23 (n : Nat) : Nat :=
  if fld n 3 4 = 0x0 then 0 else
  if fld n 3 4 = 0x1 then 0 else
  if fld n 3 4 = 0x2 then 0 else
  if fld n 3 4 = 0x3 then 0 else
  if fld n 3 4 = 0x4 then 0 else
  if fld n 3 4 = 0x5 then 0 else
  if fld n 3 4 = 0x6 then 0 else
  if fld n 3 4 = 0x7 then 0 else
  if fld n 3 4 = 0x8 then 0 else
  2

/-- The `sub` of a word of major 0x24, 0 where the word is legal (R83, R84). -/
def sub24 (n : Nat) : Nat :=
  if fld n 3 4 = 0x0 then 0 else
  if fld n 3 4 = 0x1 then 0 else
  if fld n 3 4 = 0x2 then 0 else
  if fld n 3 4 = 0x3 then 0 else
  if fld n 3 4 = 0x4 then 0 else
  if fld n 3 4 = 0x5 then 0 else
  if fld n 3 4 = 0x6 then 0 else
  if fld n 3 4 = 0x7 then 0 else
  2

/-- The `sub` of a word of major 0x25, 0 where the word is legal (R83, R84). -/
def sub25 (n : Nat) : Nat :=
  if fld n 3 4 = 0x0 then (if fld n 24 2 ≠ 0 then 4 else 0) else
  if fld n 3 4 = 0x1 then (if fld n 24 2 ≠ 0 then 4 else 0) else
  if fld n 3 4 = 0x2 then (if fld n 24 2 ≠ 0 then 4 else 0) else
  if fld n 3 4 = 0x3 then (if fld n 24 2 ≠ 0 then 4 else 0) else
  if fld n 3 4 = 0x4 then (if fld n 24 2 ≠ 0 then 4 else 0) else
  if fld n 3 4 = 0x5 then (if fld n 24 2 ≠ 0 then 4 else 0) else
  if fld n 3 4 = 0x6 then (if fld n 24 2 ≠ 0 then 4 else 0) else
  if fld n 3 4 = 0x7 then (if fld n 24 2 ≠ 0 then 4 else 0) else
  2

/-- The `sub` of a word of major 0x26, 0 where the word is legal (R83, R84). -/
def sub26 (n : Nat) : Nat :=
  if fld n 0 7 = 0x0 then (if fld n 8 3 ≠ 0 then 3 else if fld n 24 2 ≠ 0 ∨ fld n 19 2 ≠ 0 ∨ fld n 14 2 ≠ 0 then 4 else 0) else
  if fld n 0 7 = 0x1 then (if fld n 8 3 ≠ 0 then 3 else if fld n 24 2 ≠ 0 ∨ fld n 19 2 ≠ 0 ∨ fld n 14 2 ≠ 0 then 4 else 0) else
  if fld n 0 7 = 0x2 then (if fld n 8 3 ≠ 0 then 3 else if fld n 24 2 ≠ 0 ∨ fld n 19 2 ≠ 0 ∨ fld n 14 2 ≠ 0 then 4 else 0) else
  if fld n 0 7 = 0x3 then (if fld n 8 3 ≠ 0 then 3 else if fld n 24 2 ≠ 0 ∨ fld n 19 2 ≠ 0 ∨ fld n 14 2 ≠ 0 then 4 else 0) else
  if fld n 0 7 = 0x4 then (if fld n 8 8 ≠ 0 then 3 else if fld n 24 2 ≠ 0 ∨ fld n 19 2 ≠ 0 then 4 else 0) else
  if fld n 0 7 = 0x5 then (if fld n 8 13 ≠ 0 then 3 else if fld n 24 2 ≠ 0 then 4 else 0) else
  if fld n 0 7 = 0x6 then (if fld n 8 13 ≠ 0 then 3 else if fld n 24 2 ≠ 0 then 4 else 0) else
  if fld n 0 7 = 0x8 then (if fld n 8 8 ≠ 0 then 3 else if fld n 19 2 ≠ 0 then 4 else 0) else
  if fld n 0 7 = 0x9 then (if fld n 8 8 ≠ 0 then 3 else if fld n 19 2 ≠ 0 then 4 else 0) else
  if fld n 3 4 = 0x2 then 0 else
  2

/-- The `sub` of a word of major 0x27, 0 where the word is legal (R83, R84). -/
def sub27 (n : Nat) : Nat :=
  if fld n 3 4 = 0x0 then 0 else
  if fld n 3 4 = 0x1 then 0 else
  if fld n 3 4 = 0x2 then 0 else
  if fld n 3 4 = 0x3 then 0 else
  if fld n 3 4 = 0x4 then 0 else
  if fld n 3 4 = 0x5 then 0 else
  if fld n 3 4 = 0x6 then (if fld n 2 1 ≠ 0 ∨ fld n 11 5 ≠ 0 then 3 else 0) else
  if fld n 3 4 = 0x7 then 0 else
  if fld n 3 4 = 0x8 then 0 else
  if fld n 3 4 = 0x9 then 0 else
  if fld n 3 4 = 0xa then 0 else
  if fld n 3 4 = 0xb then 0 else
  2

/-- The `sub` of a word of major 0x28, 0 where the word is legal (R83, R84). -/
def sub28 (n : Nat) : Nat :=
  if fld n 0 2 = 0x0 then 0 else
  if fld n 0 2 = 0x1 then 0 else
  if fld n 0 2 = 0x2 then 0 else
  if fld n 0 2 = 0x3 then 0 else
  2

/-- The `sub` of a word of major 0x29, 0 where the word is legal (R83, R84). -/
def sub29 (n : Nat) : Nat :=
  if fld n 0 3 = 0x0 then 0 else
  if fld n 0 3 = 0x1 then 0 else
  if fld n 0 3 = 0x2 then 0 else
  if fld n 0 3 = 0x3 then 0 else
  if fld n 0 3 = 0x4 then 0 else
  if fld n 0 3 = 0x5 then 0 else
  2

/-- The `sub` of a word of major 0x2A, 0 where the word is legal (R83, R84). -/
def sub2A (n : Nat) : Nat :=
  if fld n 3 4 = 0x0 then (if fld n 24 2 ≠ 0 then 4 else 0) else
  if fld n 3 4 = 0x1 then (if fld n 24 2 ≠ 0 then 4 else 0) else
  if fld n 3 4 = 0x2 then (if fld n 24 2 ≠ 0 then 4 else 0) else
  if fld n 3 4 = 0x3 then (if fld n 24 2 ≠ 0 then 4 else 0) else
  if fld n 3 4 = 0x4 then (if fld n 24 2 ≠ 0 then 4 else 0) else
  if fld n 3 4 = 0x5 then (if fld n 24 2 ≠ 0 then 4 else 0) else
  if fld n 3 4 = 0x6 then (if fld n 2 1 ≠ 0 ∨ fld n 11 5 ≠ 0 then 3 else 0) else
  2

/-- The `sub` of a word of major 0x2B, 0 where the word is legal (R83, R84). -/
def sub2B (n : Nat) : Nat :=
  if badCvtPair (fld n 3 3) (fld n 0 3) then 2 else if fld n 11 5 ≠ 0 then 3 else if fld n 6 1 = 1 ∧ exactCvt (fld n 3 3) (fld n 0 3) then 4 else 0

/-- The `sub` of a word of major 0x2C, 0 where the word is legal (R83, R84). -/
def sub2C (n : Nat) : Nat :=
  if fld n 2 1 = 0x0 then (if fld n 0 2 = 3 then 2 else if fld n 11 5 ≠ 0 then 3 else 0) else
  if fld n 2 1 = 0x1 then (if fld n 0 2 = 3 then 2 else if fld n 11 5 ≠ 0 then 3 else 0) else
  2

/-- The `sub` of a word of major 0x2D, 0 where the word is legal (R83, R84). -/
def sub2D (n : Nat) : Nat :=
  if fld n 3 4 = 0x0 then (if fld n 2 1 ≠ 1 then 4 else 0) else
  if fld n 3 4 = 0x1 then (if fld n 2 1 ≠ 1 then 4 else 0) else
  if fld n 3 4 = 0x2 then 0 else
  if fld n 3 4 = 0x3 then (if fld n 2 1 ≠ 0 ∨ fld n 11 5 ≠ 0 then 3 else 0) else
  if fld n 3 4 = 0x4 then (if fld n 2 1 ≠ 1 then 4 else 0) else
  2

/-- The `sub` of a word of major 0x2E, 0 where the word is legal (R83, R84). Bit 0 of func7, which must be 0, is an unused field, sub 3; so is S of
`vcompress` in `sub2D`, while S = 0 of the slides is sub 4 (the model's choice, log 13). -/
def sub2E (n : Nat) : Nat :=
  if fld n 3 4 = 0x0 then (if fld n 0 1 ≠ 0 then 3 else if fld n 2 1 = 1 ∧ fld n 1 1 = 1 then 4 else 0) else
  if fld n 3 4 = 0x1 then (if fld n 0 1 ≠ 0 then 3 else if fld n 2 1 = 1 ∧ fld n 1 1 = 1 then 4 else 0) else
  if fld n 3 4 = 0x2 then (if fld n 0 1 ≠ 0 then 3 else if fld n 2 1 = 1 ∧ fld n 1 1 = 1 then 4 else 0) else
  if fld n 3 4 = 0x3 then (if fld n 0 1 ≠ 0 then 3 else if fld n 2 1 = 1 ∧ fld n 1 1 = 1 then 4 else 0) else
  if fld n 3 4 = 0x4 then (if fld n 0 1 ≠ 0 then 3 else if fld n 2 1 = 1 ∧ fld n 1 1 = 1 then 4 else 0) else
  if fld n 3 4 = 0x5 then (if fld n 0 1 ≠ 0 then 3 else if fld n 2 1 ≠ 0 ∨ fld n 1 1 ≠ 0 then 4 else 0) else
  if fld n 3 4 = 0x6 then (if fld n 0 1 ≠ 0 then 3 else if fld n 2 1 ≠ 0 ∨ fld n 1 1 ≠ 0 then 4 else 0) else
  if fld n 3 4 = 0x7 then (if fld n 0 1 ≠ 0 then 3 else if fld n 2 1 = 1 ∧ fld n 1 1 = 1 then 4 else 0) else
  if fld n 3 4 = 0x8 then (if fld n 0 1 ≠ 0 then 3 else if fld n 2 1 = 1 ∧ fld n 1 1 = 1 then 4 else 0) else
  if fld n 3 4 = 0x9 then (if fld n 0 1 ≠ 0 then 3 else if fld n 2 1 = 1 ∧ fld n 1 1 = 1 then 4 else 0) else
  if fld n 3 4 = 0xa then (if fld n 0 1 ≠ 0 then 3 else if fld n 2 1 = 1 ∧ fld n 1 1 = 1 then 4 else 0) else
  if fld n 3 4 = 0xb then (if fld n 0 1 ≠ 0 then 3 else if fld n 2 1 = 1 ∧ fld n 1 1 = 1 then 4 else 0) else
  if fld n 3 4 = 0xc then (if fld n 0 1 ≠ 0 then 3 else if fld n 2 1 = 1 ∧ fld n 1 1 = 1 then 4 else 0) else
  if fld n 3 4 = 0xd then (if fld n 0 3 ≠ 0 ∨ fld n 8 8 ≠ 0 then 3 else if fld n 19 2 ≠ 0 then 4 else 0) else
  2

/-- The `sub` of a word of major 0x2F, 0 where the word is legal (R83, R84). -/
def sub2F (n : Nat) : Nat :=
  if fld n 0 7 = 0x0 then (if fld n 7 1 ≠ 0 ∨ fld n 21 5 ≠ 0 then 3 else 0) else
  if fld n 0 7 = 0x1 then (if fld n 7 19 ≠ 0 then 3 else 0) else
  2

/-- The `sub` of a word of major 0x30, 0 where the word is legal (R83, R84). -/
def sub30 (n : Nat) : Nat :=
  if fld n 2 1 = 0x0 then (if fld n 8 3 ≠ 0 ∧ fld n 7 1 = 1 then 4 else 0) else
  if fld n 2 1 = 0x1 then (if fld n 3 3 = 0 ∨ fld n 8 3 ≠ 0 ∧ fld n 7 1 = 1 then 4 else 0) else
  2

/-- The `sub` of a word of major 0x31, 0 where the word is legal (R83, R84). -/
def sub31 (n : Nat) : Nat :=
  if fld n 2 1 = 0x0 then (if fld n 8 3 ≠ 0 ∧ fld n 7 1 = 1 then 4 else 0) else
  if fld n 2 1 = 0x1 then (if fld n 3 3 = 0 ∨ fld n 8 3 ≠ 0 ∧ fld n 7 1 = 1 then 4 else 0) else
  2

/-- The `sub` of a word of major 0x34, 0 where the word is legal (R83, R84). -/
def sub34 (n : Nat) : Nat :=
  if fld n 0 3 = 0x0 then (if fld n 8 3 = 0 ∨ fld n 7 1 = 1 then 4 else 0) else
  if fld n 0 3 = 0x1 then (if fld n 8 3 = 0 ∨ fld n 7 1 = 1 then 4 else 0) else
  if fld n 0 3 = 0x2 then (if fld n 8 3 = 0 ∨ fld n 7 1 = 1 then 4 else 0) else
  if fld n 0 3 = 0x3 then (if fld n 8 3 = 0 ∨ fld n 7 1 = 1 then 4 else 0) else
  if fld n 0 3 = 0x4 then (if fld n 8 3 = 0 ∨ fld n 7 1 = 1 then 4 else 0) else
  if fld n 0 3 = 0x5 then (if fld n 8 3 = 0 then 4 else 0) else
  if fld n 0 3 = 0x6 then (if fld n 8 3 = 0 then 4 else 0) else
  2

/-- The `sub` of a word of major 0x35, 0 where the word is legal (R83, R84). -/
def sub35 (n : Nat) : Nat :=
  if fld n 0 3 = 0x0 then (if fld n 8 3 = 0 ∨ fld n 7 1 = 1 then 4 else 0) else
  if fld n 0 3 = 0x1 then (if fld n 8 3 = 0 ∨ fld n 7 1 = 1 then 4 else 0) else
  if fld n 0 3 = 0x2 then (if fld n 8 3 = 0 ∨ fld n 7 1 = 1 then 4 else 0) else
  if fld n 0 3 = 0x3 then (if fld n 8 3 = 0 ∨ fld n 7 1 = 1 then 4 else 0) else
  if fld n 0 3 = 0x4 then (if fld n 8 3 = 0 ∨ fld n 7 1 = 1 then 4 else 0) else
  if fld n 0 3 = 0x5 then (if fld n 8 3 = 0 then 4 else 0) else
  if fld n 0 3 = 0x6 then (if fld n 8 3 = 0 then 4 else 0) else
  if fld n 0 6 = 0x7 then (if fld n 6 2 ≠ 0 then 3 else if fld n 24 2 ≠ 0 ∨ fld n 21 3 = 0 ∨ fld n 8 3 = 0 then 4 else 0) else
  if fld n 0 6 = 0xf then (if fld n 6 2 ≠ 0 ∨ fld n 11 15 ≠ 0 then 3 else if fld n 8 3 = 0 then 4 else 0) else
  if fld n 0 6 = 0x17 then (if 2 ≤ fld n 11 5 then 2 else if fld n 7 1 ≠ 0 then 3 else if fld n 11 5 = 1 ∧ fld n 24 2 ≠ 0 then 4 else 0) else
  if fld n 0 6 = 0x1f then (if 2 ≤ fld n 11 5 then 2 else if fld n 7 1 ≠ 0 then 3 else if fld n 11 5 = 1 ∧ fld n 24 2 ≠ 0 then 4 else 0) else
  2

/-- The `sub` of a word of major 0x36, 0 where the word is legal (R83, R84). -/
def sub36 (n : Nat) : Nat :=
  if fld n 0 3 = 0x0 then (if 9 ≤ fld n 6 5 ∨ (fld n 4 1 = 1 ∧ fld n 5 1 = 0) then 4 else 0) else
  if fld n 0 3 = 0x1 then (if 9 ≤ fld n 6 5 ∨ (fld n 4 1 = 1 ∧ fld n 5 1 = 0) then 4 else 0) else
  2

/-- The `sub` of a word of major 0x37, 0 where the word is legal (R83, R84). -/
def sub37 (n : Nat) : Nat :=
  if fld n 0 3 = 0x0 then (if 9 ≤ fld n 6 5 ∨ fld n 6 5 < 4 ∨ (fld n 4 1 = 1 ∧ fld n 5 1 = 0) then 4 else 0) else
  if fld n 0 3 = 0x1 then (if 9 ≤ fld n 6 5 ∨ fld n 6 5 < 4 ∨ (fld n 4 1 = 1 ∧ fld n 5 1 = 0) then 4 else 0) else
  2

/-- The `sub` of a word of major 0x38, 0 where the word is legal (R83, R84). -/
def sub38 (n : Nat) : Nat :=
  if fld n 0 3 = 0x0 then (if fld n 4 2 ≠ 0 ∨ fld n 11 10 ≠ 0 then 3 else if 2 ≤ fld n 6 5 then 4 else 0) else
  if fld n 0 3 = 0x1 then (if fld n 4 2 ≠ 0 ∨ fld n 11 5 ≠ 0 then 3 else if ¬ mcvtFmt (fld n 6 5) then 4 else 0) else
  if fld n 0 3 = 0x2 then (if fld n 4 2 ≠ 0 ∨ fld n 11 5 ≠ 0 then 3 else if ¬ mcvtFmt (fld n 6 5) then 4 else 0) else
  2

/-- The `sub` of a word of major 0x39, 0 where the word is legal (R83, R84). -/
def sub39 (n : Nat) : Nat :=
  if fld n 0 3 = 0x0 then (if fld n 4 2 ≠ 0 then 3 else if ¬ mdrainFmt (fld n 6 5) then 4 else 0) else
  if fld n 0 3 = 0x1 then (if fld n 4 2 ≠ 0 then 3 else if ¬ mdrainFmt (fld n 6 5) then 4 else 0) else
  2

/-- The `sub` of a word of major 0x3A, 0 where the word is legal (R83, R84). -/
def sub3A (n : Nat) : Nat :=
  if fld n 0 6 = 0x0 then (if fld n 6 5 ≠ 0 then 3 else 0) else
  if fld n 0 6 = 0x1 then (if fld n 8 3 ≠ 0 then 3 else 0) else
  if fld n 0 6 = 0x2 then (if fld n 6 5 ≠ 0 ∨ fld n 21 5 ≠ 0 then 3 else 0) else
  if fld n 0 6 = 0x3 then (if fld n 16 5 ≠ 0 then 3 else 0) else
  if fld n 0 6 = 0x4 then (if fld n 11 10 ≠ 0 then 3 else 0) else
  if fld n 0 6 = 0x5 then (if fld n 6 10 ≠ 0 then 3 else 0) else
  2

/-- The `sub` of a word of major 0x3B, 0 where the word is legal (R83, R84). -/
def sub3B (n : Nat) : Nat :=
  if fld n 0 6 = 0x0 then 0 else
  if fld n 0 6 = 0x1 then 0 else
  if fld n 0 6 = 0x2 then 0 else
  if fld n 0 6 = 0x3 then 0 else
  if fld n 0 6 = 0x4 then 0 else
  if fld n 0 6 = 0x5 then 0 else
  if fld n 0 6 = 0x6 then (if fld n 8 3 ≠ 0 then 3 else 0) else
  if fld n 0 6 = 0x8 then 0 else
  if fld n 0 6 = 0x9 then 0 else
  if fld n 0 6 = 0xc then (if fld n 8 8 ≠ 0 then 3 else 0) else
  if fld n 0 6 = 0xd then (if fld n 6 10 ≠ 0 then 3 else 0) else
  if fld n 0 6 = 0xe then (if fld n 8 8 ≠ 0 then 3 else 0) else
  2

/-- The `sub` of a word of major 0x3C, 0 where the word is legal (R83, R84). -/
def sub3C (n : Nat) : Nat :=
  if fld n 0 6 = 0x0 then (if fld n 11 15 ≠ 0 then 3 else if fld n 10 1 = 1 then 4 else 0) else
  if fld n 0 6 = 0x1 then (if fld n 11 15 ≠ 0 then 3 else if fld n 10 1 = 1 then 4 else 0) else
  if fld n 0 6 = 0x2 then (if fld n 11 10 ≠ 0 then 3 else if fld n 10 1 = 1 then 4 else 0) else
  if fld n 0 6 = 0x8 then (if fld n 6 20 ≠ 0 then 3 else 0) else
  if fld n 0 6 = 0x9 then (if fld n 6 5 ≠ 0 then 3 else 0) else
  if fld n 0 6 = 0xa then (if fld n 6 5 ≠ 0 then 3 else 0) else
  if fld n 0 6 = 0xb then (if fld n 6 5 ≠ 0 then 3 else 0) else
  if fld n 0 6 = 0xc then (if fld n 6 5 ≠ 0 ∨ fld n 21 5 ≠ 0 then 3 else 0) else
  if fld n 0 6 = 0x10 then (if fld n 6 10 ≠ 0 then 3 else 0) else
  if fld n 0 6 = 0x11 then (if fld n 6 5 ≠ 0 then 3 else 0) else
  if fld n 0 6 = 0x12 then (if fld n 6 5 ≠ 0 ∨ fld n 21 5 ≠ 0 then 3 else 0) else
  2

/-- The `sub` of a word of major 0x3D, 0 where the word is legal (R83, R84). -/
def sub3D (n : Nat) : Nat :=
  if fld n 0 7 = 0x0 then (if fld n 21 5 ≠ 0 then 3 else 0) else
  if fld n 0 7 = 0x1 then (if fld n 7 4 ≠ 0 ∨ fld n 16 10 ≠ 0 then 3 else 0) else
  if fld n 0 7 = 0x2 then (if fld n 21 5 ≠ 0 then 3 else 0) else
  if fld n 0 7 = 0x3 then (if fld n 11 5 ≠ 0 ∨ fld n 21 5 ≠ 0 then 3 else 0) else
  if fld n 0 7 = 0x4 then (if fld n 21 5 ≠ 0 then 3 else 0) else
  if fld n 3 4 = 0x2 then (if fld n 0 3 = 0 then 4 else 0) else
  if fld n 3 4 = 0x3 then (if fld n 0 3 = 0 then 4 else 0) else
  if fld n 3 4 = 0x4 then (if fld n 0 3 = 0 then 4 else 0) else
  if fld n 3 4 = 0x5 then (if fld n 0 3 = 0 then 4 else 0) else
  2

/-- The `sub` of a word of major 0x3E, 0 where the word is legal (R83, R84). -/
def sub3E (n : Nat) : Nat :=
  if fld n 12 4 = 0x0 then (if fld n 16 5 ≠ 0 then 3 else 0) else
  if fld n 12 4 = 0x1 then (if fld n 21 5 ≠ 0 then 3 else 0) else
  if fld n 12 4 = 0x2 then (if fld n 16 10 ≠ 0 then 3 else 0) else
  if fld n 12 4 = 0x3 then (if fld n 0 12 ≠ 0 ∨ fld n 16 10 ≠ 0 then 3 else 0) else
  if fld n 12 4 = 0x4 then (if fld n 0 12 ≠ 0 ∨ fld n 16 10 ≠ 0 then 3 else 0) else
  if fld n 12 4 = 0x5 then (if fld n 0 12 ≠ 0 ∨ fld n 16 10 ≠ 0 then 3 else 0) else
  if fld n 8 8 = 0x60 then (if fld n 0 8 ≠ 0 ∨ fld n 21 5 ≠ 0 then 3 else 0) else
  if fld n 8 8 = 0x61 then (if fld n 0 8 ≠ 0 ∨ fld n 16 10 ≠ 0 then 3 else 0) else
  if fld n 8 8 = 0x62 then (if fld n 0 8 ≠ 0 ∨ fld n 21 5 ≠ 0 then 3 else 0) else
  if fld n 8 8 = 0x63 then (if fld n 0 8 ≠ 0 ∨ fld n 21 5 ≠ 0 then 3 else 0) else
  if fld n 12 4 = 0x7 then (if fld n 0 12 ≠ 0 ∨ fld n 16 10 ≠ 0 then 3 else 0) else
  if fld n 12 4 = 0x8 then (if fld n 16 10 ≠ 0 then 3 else 0) else
  2

/-- The `sub` of R84 for a word, 0 where it is legal. The 64 majors are assigned by R83. -/
def subOf (n : Nat) : Nat :=
  match fld n 26 6 with
  | 0x01 => sub01 n
  | 0x02 => sub02 n
  | 0x03 => sub03 n
  | 0x04 => 0
  | 0x05 => 0
  | 0x06 => 0
  | 0x07 => 0
  | 0x08 => 0
  | 0x09 => 0
  | 0x0A => 0
  | 0x0B => 0
  | 0x0C => 0
  | 0x0D => 0
  | 0x0E => 0
  | 0x0F => sub0F n
  | 0x10 => 0
  | 0x11 => 0
  | 0x12 => 0
  | 0x13 => 0
  | 0x14 => 0
  | 0x15 => 0
  | 0x16 => sub16 n
  | 0x17 => sub17 n
  | 0x18 => sub18 n
  | 0x19 => sub19 n
  | 0x1A => sub1A n
  | 0x1B => sub1B n
  | 0x20 => sub20 n
  | 0x21 => sub21 n
  | 0x22 => sub22 n
  | 0x23 => sub23 n
  | 0x24 => sub24 n
  | 0x25 => sub25 n
  | 0x26 => sub26 n
  | 0x27 => sub27 n
  | 0x28 => sub28 n
  | 0x29 => sub29 n
  | 0x2A => sub2A n
  | 0x2B => sub2B n
  | 0x2C => sub2C n
  | 0x2D => sub2D n
  | 0x2E => sub2E n
  | 0x2F => sub2F n
  | 0x30 => sub30 n
  | 0x31 => sub31 n
  | 0x32 => 0
  | 0x33 => 0
  | 0x34 => sub34 n
  | 0x35 => sub35 n
  | 0x36 => sub36 n
  | 0x37 => sub37 n
  | 0x38 => sub38 n
  | 0x39 => sub39 n
  | 0x3A => sub3A n
  | 0x3B => sub3B n
  | 0x3C => sub3C n
  | 0x3D => sub3D n
  | 0x3E => sub3E n
  | _ => 1

noncomputable section

/-- What a legal word of major 0x01 stands for (R83). -/
def instr01 (n : Nat) : Instr :=
  if fld n 0 6 = 0x0 then .add (num n 21 5) (num n 16 5) (num n 11 5) else
  if fld n 0 6 = 0x1 then .sub (num n 21 5) (num n 16 5) (num n 11 5) else
  if fld n 0 6 = 0x2 then .and (num n 21 5) (num n 16 5) (num n 11 5) else
  if fld n 0 6 = 0x3 then .or (num n 21 5) (num n 16 5) (num n 11 5) else
  if fld n 0 6 = 0x4 then .xor (num n 21 5) (num n 16 5) (num n 11 5) else
  if fld n 0 6 = 0x5 then .sll (num n 21 5) (num n 16 5) (num n 11 5) else
  if fld n 0 6 = 0x6 then .srl (num n 21 5) (num n 16 5) (num n 11 5) else
  if fld n 0 6 = 0x7 then .sra (num n 21 5) (num n 16 5) (num n 11 5) else
  if fld n 0 6 = 0x8 then .slt (num n 21 5) (num n 16 5) (num n 11 5) else
  if fld n 0 6 = 0x9 then .sltz (num n 21 5) (num n 16 5) (num n 11 5) else
  if fld n 0 6 = 0xa then .addw (num n 21 5) (num n 16 5) (num n 11 5) else
  if fld n 0 6 = 0xb then .subw (num n 21 5) (num n 16 5) (num n 11 5) else
  if fld n 0 6 = 0xc then .min (num n 21 5) (num n 16 5) (num n 11 5) else
  if fld n 0 6 = 0xd then .max (num n 21 5) (num n 16 5) (num n 11 5) else
  if fld n 0 6 = 0xe then .minz (num n 21 5) (num n 16 5) (num n 11 5) else
  .maxz (num n 21 5) (num n 16 5) (num n 11 5)

/-- What a legal word of major 0x02 stands for (R83). -/
def instr02 (n : Nat) : Instr :=
  if fld n 0 6 = 0x0 then .mul (num n 21 5) (num n 16 5) (num n 11 5) else
  if fld n 0 6 = 0x1 then .mulh (num n 21 5) (num n 16 5) (num n 11 5) else
  if fld n 0 6 = 0x2 then .mulhz (num n 21 5) (num n 16 5) (num n 11 5) else
  if fld n 0 6 = 0x3 then .div (num n 21 5) (num n 16 5) (num n 11 5) else
  if fld n 0 6 = 0x4 then .divz (num n 21 5) (num n 16 5) (num n 11 5) else
  if fld n 0 6 = 0x5 then .rem (num n 21 5) (num n 16 5) (num n 11 5) else
  .remz (num n 21 5) (num n 16 5) (num n 11 5)

/-- What a legal word of major 0x03 stands for (R83). -/
def instr03 (n : Nat) : Instr :=
  if fld n 0 5 = 0x0 then .slli (num n 21 5) (num n 16 5) (num n 5 6) else
  if fld n 0 5 = 0x1 then .srli (num n 21 5) (num n 16 5) (num n 5 6) else
  if fld n 0 5 = 0x2 then .srai (num n 21 5) (num n 16 5) (num n 5 6) else
  if fld n 0 5 = 0x3 then .rori (num n 21 5) (num n 16 5) (num n 5 6) else
  if fld n 0 5 = 0x4 then .clz (num n 21 5) (num n 16 5) else
  if fld n 0 5 = 0x5 then .ctz (num n 21 5) (num n 16 5) else
  if fld n 0 5 = 0x6 then .cpop (num n 21 5) (num n 16 5) else
  if fld n 0 5 = 0x7 then .rev8 (num n 21 5) (num n 16 5) else
  if fld n 0 5 = 0x8 then .zeqz (num n 21 5) (num n 16 5) (num n 11 5) else
  .znez (num n 21 5) (num n 16 5) (num n 11 5)

/-- What a legal word of major 0x04 stands for (R83). -/
def instr04 (n : Nat) : Instr :=
  .addi (num n 21 5) (num n 16 5) (num n 0 16)

/-- What a legal word of major 0x05 stands for (R83). -/
def instr05 (n : Nat) : Instr :=
  .andi (num n 21 5) (num n 16 5) (num n 0 16)

/-- What a legal word of major 0x06 stands for (R83). -/
def instr06 (n : Nat) : Instr :=
  .ori (num n 21 5) (num n 16 5) (num n 0 16)

/-- What a legal word of major 0x07 stands for (R83). -/
def instr07 (n : Nat) : Instr :=
  .lui (num n 21 5) (num n 0 21)

/-- What a legal word of major 0x08 stands for (R83). -/
def instr08 (n : Nat) : Instr :=
  .auipc (num n 21 5) (num n 0 21)

/-- What a legal word of major 0x09 stands for (R83). -/
def instr09 (n : Nat) : Instr :=
  .jal (num n 21 5) (num n 0 21)

/-- What a legal word of major 0x0A stands for (R83). -/
def instr0A (n : Nat) : Instr :=
  .jalr (num n 21 5) (num n 16 5) (num n 0 16)

/-- What a legal word of major 0x0B stands for (R83). -/
def instr0B (n : Nat) : Instr :=
  .beq (num n 21 5) (num n 16 5) (num n 0 16)

/-- What a legal word of major 0x0C stands for (R83). -/
def instr0C (n : Nat) : Instr :=
  .bne (num n 21 5) (num n 16 5) (num n 0 16)

/-- What a legal word of major 0x0D stands for (R83). -/
def instr0D (n : Nat) : Instr :=
  .blt (num n 21 5) (num n 16 5) (num n 0 16)

/-- What a legal word of major 0x0E stands for (R83). -/
def instr0E (n : Nat) : Instr :=
  .bge (num n 21 5) (num n 16 5) (num n 0 16)

/-- What a legal word of major 0x0F stands for (R83). -/
def instr0F (n : Nat) : Instr :=
  .bsig (num n 0 21)

/-- What a legal word of major 0x10 stands for (R83). -/
def instr10 (n : Nat) : Instr :=
  .ld (num n 21 5) (num n 16 5) (num n 0 16)

/-- What a legal word of major 0x11 stands for (R83). -/
def instr11 (n : Nat) : Instr :=
  .lw (num n 21 5) (num n 16 5) (num n 0 16)

/-- What a legal word of major 0x12 stands for (R83). -/
def instr12 (n : Nat) : Instr :=
  .lwz (num n 21 5) (num n 16 5) (num n 0 16)

/-- What a legal word of major 0x13 stands for (R83). -/
def instr13 (n : Nat) : Instr :=
  .lbz (num n 21 5) (num n 16 5) (num n 0 16)

/-- What a legal word of major 0x14 stands for (R83). -/
def instr14 (n : Nat) : Instr :=
  .sd (num n 21 5) (num n 16 5) (num n 0 16)

/-- What a legal word of major 0x15 stands for (R83). -/
def instr15 (n : Nat) : Instr :=
  .sw (num n 21 5) (num n 16 5) (num n 0 16)

/-- What a legal word of major 0x16 stands for (R83). -/
def instr16 (n : Nat) : Instr :=
  if fld n 3 2 = 0x0 then .lx (num n 21 5) (num n 16 5) (num n 11 5) (num n 0 3) else
  if fld n 3 2 = 0x1 then .sx (num n 21 5) (num n 16 5) (num n 11 5) (num n 0 3) else
  if fld n 3 2 = 0x2 then .lsp (num n 21 5) (num n 16 5) (num n 11 5) (num n 0 3) else
  .ssp (num n 21 5) (num n 16 5) (num n 11 5) (num n 0 3)

/-- What a legal word of major 0x17 stands for (R83). -/
def instr17 (n : Nat) : Instr :=
  if fld n 0 6 = 0x0 then .amoswapD (num n 21 5) (num n 16 5) (num n 11 5) (num n 8 3) (num n 6 2) else
  if fld n 0 6 = 0x10 then .amoswapW (num n 21 5) (num n 16 5) (num n 11 5) (num n 8 3) (num n 6 2) else
  if fld n 0 6 = 0x1 then .amoaddD (num n 21 5) (num n 16 5) (num n 11 5) (num n 8 3) (num n 6 2) else
  if fld n 0 6 = 0x11 then .amoaddW (num n 21 5) (num n 16 5) (num n 11 5) (num n 8 3) (num n 6 2) else
  if fld n 0 6 = 0x2 then .amoandD (num n 21 5) (num n 16 5) (num n 11 5) (num n 8 3) (num n 6 2) else
  if fld n 0 6 = 0x12 then .amoandW (num n 21 5) (num n 16 5) (num n 11 5) (num n 8 3) (num n 6 2) else
  if fld n 0 6 = 0x3 then .amoorD (num n 21 5) (num n 16 5) (num n 11 5) (num n 8 3) (num n 6 2) else
  if fld n 0 6 = 0x13 then .amoorW (num n 21 5) (num n 16 5) (num n 11 5) (num n 8 3) (num n 6 2) else
  if fld n 0 6 = 0x4 then .amoxorD (num n 21 5) (num n 16 5) (num n 11 5) (num n 8 3) (num n 6 2) else
  if fld n 0 6 = 0x14 then .amoxorW (num n 21 5) (num n 16 5) (num n 11 5) (num n 8 3) (num n 6 2) else
  if fld n 0 6 = 0x5 then .amominD (num n 21 5) (num n 16 5) (num n 11 5) (num n 8 3) (num n 6 2) else
  if fld n 0 6 = 0x15 then .amominW (num n 21 5) (num n 16 5) (num n 11 5) (num n 8 3) (num n 6 2) else
  if fld n 0 6 = 0x6 then .amomaxD (num n 21 5) (num n 16 5) (num n 11 5) (num n 8 3) (num n 6 2) else
  if fld n 0 6 = 0x16 then .amomaxW (num n 21 5) (num n 16 5) (num n 11 5) (num n 8 3) (num n 6 2) else
  if fld n 0 6 = 0x7 then .amominzD (num n 21 5) (num n 16 5) (num n 11 5) (num n 8 3) (num n 6 2) else
  if fld n 0 6 = 0x17 then .amominzW (num n 21 5) (num n 16 5) (num n 11 5) (num n 8 3) (num n 6 2) else
  if fld n 0 6 = 0x8 then .amomaxzD (num n 21 5) (num n 16 5) (num n 11 5) (num n 8 3) (num n 6 2) else
  if fld n 0 6 = 0x18 then .amomaxzW (num n 21 5) (num n 16 5) (num n 11 5) (num n 8 3) (num n 6 2) else
  if fld n 0 6 = 0x9 then .amocasD (num n 21 5) (num n 16 5) (num n 11 5) (num n 8 3) (num n 6 2) else
  if fld n 0 6 = 0x19 then .amocasW (num n 21 5) (num n 16 5) (num n 11 5) (num n 8 3) (num n 6 2) else
  if fld n 0 6 = 0x1a then .amoaddF32 (num n 21 5) (num n 16 5) (num n 11 5) (num n 8 3) (num n 6 2) else
  if fld n 0 6 = 0x28 then .ldaW (num n 21 5) (num n 16 5) (num n 8 3) else
  if fld n 0 6 = 0x29 then .ldaD (num n 21 5) (num n 16 5) (num n 8 3) else
  if fld n 0 6 = 0x2a then .staW (num n 16 5) (num n 11 5) (num n 8 3) else
  if fld n 0 6 = 0x2b then .staD (num n 16 5) (num n 11 5) (num n 8 3) else
  .fence (num n 8 3) (num n 6 2)

/-- What a legal word of major 0x18 stands for (R83). -/
def instr18 (n : Nat) : Instr :=
  if fld n 0 6 = 0x0 then .faddF64 (num n 21 5) (num n 16 5) (num n 11 5) else
  if fld n 0 6 = 0x1 then .fsubF64 (num n 21 5) (num n 16 5) (num n 11 5) else
  if fld n 0 6 = 0x2 then .fmulF64 (num n 21 5) (num n 16 5) (num n 11 5) else
  if fld n 0 6 = 0x3 then .fdivF64 (num n 21 5) (num n 16 5) (num n 11 5) else
  if fld n 0 6 = 0x4 then .fsqrtF64 (num n 21 5) (num n 16 5) else
  if fld n 0 6 = 0x5 then .fmacF64 (num n 21 5) (num n 16 5) (num n 11 5) else
  if fld n 0 6 = 0x6 then .fmscF64 (num n 21 5) (num n 16 5) (num n 11 5) else
  .fnmacF64 (num n 21 5) (num n 16 5) (num n 11 5)

/-- What a legal word of major 0x19 stands for (R83). -/
def instr19 (n : Nat) : Instr :=
  if fld n 0 6 = 0x0 then .faddF32 (num n 21 5) (num n 16 5) (num n 11 5) else
  if fld n 0 6 = 0x1 then .fsubF32 (num n 21 5) (num n 16 5) (num n 11 5) else
  if fld n 0 6 = 0x2 then .fmulF32 (num n 21 5) (num n 16 5) (num n 11 5) else
  if fld n 0 6 = 0x3 then .fdivF32 (num n 21 5) (num n 16 5) (num n 11 5) else
  if fld n 0 6 = 0x4 then .fsqrtF32 (num n 21 5) (num n 16 5) else
  if fld n 0 6 = 0x5 then .fmacF32 (num n 21 5) (num n 16 5) (num n 11 5) else
  if fld n 0 6 = 0x6 then .fmscF32 (num n 21 5) (num n 16 5) (num n 11 5) else
  .fnmacF32 (num n 21 5) (num n 16 5) (num n 11 5)

/-- What a legal word of major 0x1A stands for (R83). -/
def instr1A (n : Nat) : Instr :=
  if fld n 4 2 = 0x0 then .ftoi (num n 21 5) (num n 16 5) (flag n 3) (num n 0 2) else
  if fld n 4 2 = 0x1 then .ftrc (num n 21 5) (num n 16 5) (flag n 3) (num n 0 2) else
  if fld n 4 2 = 0x2 then .itof (num n 21 5) (num n 16 5) (flag n 3) (num n 0 2) else
  if fld n 0 6 = 0x30 then .fnarrowF32 (num n 21 5) (num n 16 5) else
  if fld n 0 6 = 0x31 then .fnarrowF16 (num n 21 5) (num n 16 5) else
  if fld n 0 6 = 0x32 then .fnarrowBf16 (num n 21 5) (num n 16 5) else
  if fld n 0 6 = 0x34 then .fwidenF32 (num n 21 5) (num n 16 5) else
  if fld n 0 6 = 0x35 then .fwidenF16 (num n 21 5) (num n 16 5) else
  .fwidenBf16 (num n 21 5) (num n 16 5)

/-- What a legal word of major 0x1B stands for (R83). -/
def instr1B (n : Nat) : Instr :=
  if fld n 0 4 = 0x0 ∧ fld n 5 1 = 0x0 then .feq (num n 21 5) (num n 16 5) (num n 11 5) (flag n 4) else
  if fld n 0 4 = 0x1 ∧ fld n 5 1 = 0x0 then .flt (num n 21 5) (num n 16 5) (num n 11 5) (flag n 4) else
  if fld n 0 4 = 0x2 ∧ fld n 5 1 = 0x0 then .fle (num n 21 5) (num n 16 5) (num n 11 5) (flag n 4) else
  if fld n 0 4 = 0x3 ∧ fld n 5 1 = 0x0 then .fmin (num n 21 5) (num n 16 5) (num n 11 5) (flag n 4) else
  if fld n 0 4 = 0x4 ∧ fld n 5 1 = 0x0 then .fmax (num n 21 5) (num n 16 5) (num n 11 5) (flag n 4) else
  .fclass (num n 21 5) (num n 16 5) (flag n 4)

/-- What a legal word of major 0x20 stands for (R83). -/
def instr20 (n : Nat) : Instr :=
  if fld n 3 4 = 0x0 then .vshape (num n 21 5) (num n 16 5) (num n 11 5) (num n 0 3) else
  if fld n 0 7 = 0x8 then .vmvx (num n 21 5) (num n 16 5) (num n 11 5) (flag n 7) else
  if fld n 0 7 = 0x9 then .vmvxz (num n 21 5) (num n 16 5) (num n 11 5) (flag n 7) else
  if fld n 0 7 = 0xa then .vmvv (num n 21 5) (num n 16 5) (num n 11 5) (flag n 7) else
  if fld n 0 7 = 0xb then .vbcast (num n 21 5) (num n 16 5) (num n 8 3) (flag n 7) else
  if fld n 0 7 = 0xc then .vmv (num n 21 5) (num n 16 5) (num n 8 3) (flag n 7) else
  if fld n 0 7 = 0xd then .vid (num n 21 5) (num n 8 3) (flag n 7) else
  if fld n 0 7 = 0xe then .vidr (num n 21 5) (num n 8 3) (flag n 7) else
  .vidf (num n 21 5) (num n 8 3) (flag n 7)

/-- What a legal word of major 0x21 stands for (R83). -/
def instr21 (n : Nat) : Instr :=
  if fld n 3 4 = 0x0 then .vadd (num n 21 5) (num n 16 5) (num n 11 5) (num n 8 3) (flag n 7) (flag n 2) (num n 0 2) else
  if fld n 3 4 = 0x1 then .vsub (num n 21 5) (num n 16 5) (num n 11 5) (num n 8 3) (flag n 7) (flag n 2) (num n 0 2) else
  if fld n 3 4 = 0x2 then .vrsub (num n 21 5) (num n 16 5) (num n 11 5) (num n 8 3) (flag n 7) (flag n 2) (num n 0 2) else
  if fld n 3 4 = 0x3 then .vmin (num n 21 5) (num n 16 5) (num n 11 5) (num n 8 3) (flag n 7) (flag n 2) (num n 0 2) else
  if fld n 3 4 = 0x4 then .vminz (num n 21 5) (num n 16 5) (num n 11 5) (num n 8 3) (flag n 7) (flag n 2) (num n 0 2) else
  if fld n 3 4 = 0x5 then .vmax (num n 21 5) (num n 16 5) (num n 11 5) (num n 8 3) (flag n 7) (flag n 2) (num n 0 2) else
  .vmaxz (num n 21 5) (num n 16 5) (num n 11 5) (num n 8 3) (flag n 7) (flag n 2) (num n 0 2)

/-- What a legal word of major 0x22 stands for (R83). -/
def instr22 (n : Nat) : Instr :=
  if fld n 3 4 = 0x0 then .vsadd (num n 21 5) (num n 16 5) (num n 11 5) (num n 8 3) (flag n 7) (flag n 2) (num n 0 2) else
  if fld n 3 4 = 0x1 then .vsaddz (num n 21 5) (num n 16 5) (num n 11 5) (num n 8 3) (flag n 7) (flag n 2) (num n 0 2) else
  if fld n 3 4 = 0x2 then .vssub (num n 21 5) (num n 16 5) (num n 11 5) (num n 8 3) (flag n 7) (flag n 2) (num n 0 2) else
  if fld n 3 4 = 0x3 then .vssubz (num n 21 5) (num n 16 5) (num n 11 5) (num n 8 3) (flag n 7) (flag n 2) (num n 0 2) else
  if fld n 3 4 = 0x4 then .vwadd (num n 21 5) (num n 16 5) (num n 11 5) (num n 8 3) (flag n 7) (flag n 2) (num n 0 2) else
  if fld n 3 4 = 0x5 then .vwaddz (num n 21 5) (num n 16 5) (num n 11 5) (num n 8 3) (flag n 7) (flag n 2) (num n 0 2) else
  if fld n 3 4 = 0x6 then .vwsub (num n 21 5) (num n 16 5) (num n 11 5) (num n 8 3) (flag n 7) (flag n 2) (num n 0 2) else
  if fld n 3 4 = 0x7 then .vwsubz (num n 21 5) (num n 16 5) (num n 11 5) (num n 8 3) (flag n 7) (flag n 2) (num n 0 2) else
  if fld n 3 4 = 0x8 then .vext (num n 21 5) (num n 16 5) (num n 8 3) (flag n 7) (num n 0 2) else
  if fld n 3 4 = 0x9 then .vextz (num n 21 5) (num n 16 5) (num n 8 3) (flag n 7) (num n 0 2) else
  if fld n 3 4 = 0xa then .vnarrow (num n 21 5) (num n 16 5) (num n 8 3) (flag n 7) (num n 0 2) else
  if fld n 3 4 = 0xb then .vnsat (num n 21 5) (num n 16 5) (num n 8 3) (flag n 7) (num n 0 2) else
  if fld n 3 4 = 0xc then .vnsatz (num n 21 5) (num n 16 5) (num n 8 3) (flag n 7) (num n 0 2) else
  .vnclampz (num n 21 5) (num n 16 5) (num n 8 3) (flag n 7) (num n 0 2)

/-- What a legal word of major 0x23 stands for (R83). -/
def instr23 (n : Nat) : Instr :=
  if fld n 3 4 = 0x0 then .vmul (num n 21 5) (num n 16 5) (num n 11 5) (num n 8 3) (flag n 7) (flag n 2) (num n 0 2) else
  if fld n 3 4 = 0x1 then .vmulh (num n 21 5) (num n 16 5) (num n 11 5) (num n 8 3) (flag n 7) (flag n 2) (num n 0 2) else
  if fld n 3 4 = 0x2 then .vmulhz (num n 21 5) (num n 16 5) (num n 11 5) (num n 8 3) (flag n 7) (flag n 2) (num n 0 2) else
  if fld n 3 4 = 0x3 then .vdiv (num n 21 5) (num n 16 5) (num n 11 5) (num n 8 3) (flag n 7) (flag n 2) (num n 0 2) else
  if fld n 3 4 = 0x4 then .vdivz (num n 21 5) (num n 16 5) (num n 11 5) (num n 8 3) (flag n 7) (flag n 2) (num n 0 2) else
  if fld n 3 4 = 0x5 then .vrem (num n 21 5) (num n 16 5) (num n 11 5) (num n 8 3) (flag n 7) (flag n 2) (num n 0 2) else
  if fld n 3 4 = 0x6 then .vremz (num n 21 5) (num n 16 5) (num n 11 5) (num n 8 3) (flag n 7) (flag n 2) (num n 0 2) else
  if fld n 3 4 = 0x7 then .vwmul (num n 21 5) (num n 16 5) (num n 11 5) (num n 8 3) (flag n 7) (flag n 2) (num n 0 2) else
  .vwmulz (num n 21 5) (num n 16 5) (num n 11 5) (num n 8 3) (flag n 7) (flag n 2) (num n 0 2)

/-- What a legal word of major 0x24 stands for (R83). -/
def instr24 (n : Nat) : Instr :=
  if fld n 3 4 = 0x0 then .vand (num n 21 5) (num n 16 5) (num n 11 5) (num n 8 3) (flag n 7) (flag n 2) (num n 0 2) else
  if fld n 3 4 = 0x1 then .vor (num n 21 5) (num n 16 5) (num n 11 5) (num n 8 3) (flag n 7) (flag n 2) (num n 0 2) else
  if fld n 3 4 = 0x2 then .vxor (num n 21 5) (num n 16 5) (num n 11 5) (num n 8 3) (flag n 7) (flag n 2) (num n 0 2) else
  if fld n 3 4 = 0x3 then .vandn (num n 21 5) (num n 16 5) (num n 11 5) (num n 8 3) (flag n 7) (flag n 2) (num n 0 2) else
  if fld n 3 4 = 0x4 then .vsll (num n 21 5) (num n 16 5) (num n 11 5) (num n 8 3) (flag n 7) (flag n 2) (num n 0 2) else
  if fld n 3 4 = 0x5 then .vsrl (num n 21 5) (num n 16 5) (num n 11 5) (num n 8 3) (flag n 7) (flag n 2) (num n 0 2) else
  if fld n 3 4 = 0x6 then .vsra (num n 21 5) (num n 16 5) (num n 11 5) (num n 8 3) (flag n 7) (flag n 2) (num n 0 2) else
  .vror (num n 21 5) (num n 16 5) (num n 11 5) (num n 8 3) (flag n 7) (flag n 2) (num n 0 2)

/-- What a legal word of major 0x25 stands for (R83). -/
def instr25 (n : Nat) : Instr :=
  if fld n 3 4 = 0x0 then .vseq (num n 21 3) (num n 16 5) (num n 11 5) (num n 8 3) (flag n 7) (flag n 2) (num n 0 2) else
  if fld n 3 4 = 0x1 then .vsne (num n 21 3) (num n 16 5) (num n 11 5) (num n 8 3) (flag n 7) (flag n 2) (num n 0 2) else
  if fld n 3 4 = 0x2 then .vslt (num n 21 3) (num n 16 5) (num n 11 5) (num n 8 3) (flag n 7) (flag n 2) (num n 0 2) else
  if fld n 3 4 = 0x3 then .vsltz (num n 21 3) (num n 16 5) (num n 11 5) (num n 8 3) (flag n 7) (flag n 2) (num n 0 2) else
  if fld n 3 4 = 0x4 then .vsle (num n 21 3) (num n 16 5) (num n 11 5) (num n 8 3) (flag n 7) (flag n 2) (num n 0 2) else
  if fld n 3 4 = 0x5 then .vslez (num n 21 3) (num n 16 5) (num n 11 5) (num n 8 3) (flag n 7) (flag n 2) (num n 0 2) else
  if fld n 3 4 = 0x6 then .vsgt (num n 21 3) (num n 16 5) (num n 11 5) (num n 8 3) (flag n 7) (flag n 2) (num n 0 2) else
  .vsgtz (num n 21 3) (num n 16 5) (num n 11 5) (num n 8 3) (flag n 7) (flag n 2) (num n 0 2)

/-- What a legal word of major 0x26 stands for (R83). -/
def instr26 (n : Nat) : Instr :=
  if fld n 0 7 = 0x0 then .mand (num n 21 3) (num n 16 3) (num n 11 3) (flag n 7) else
  if fld n 0 7 = 0x1 then .mor (num n 21 3) (num n 16 3) (num n 11 3) (flag n 7) else
  if fld n 0 7 = 0x2 then .mxor (num n 21 3) (num n 16 3) (num n 11 3) (flag n 7) else
  if fld n 0 7 = 0x3 then .mandn (num n 21 3) (num n 16 3) (num n 11 3) (flag n 7) else
  if fld n 0 7 = 0x4 then .mnot (num n 21 3) (num n 16 3) (flag n 7) else
  if fld n 0 7 = 0x5 then .mset (num n 21 3) (flag n 7) else
  if fld n 0 7 = 0x6 then .mclr (num n 21 3) (flag n 7) else
  if fld n 0 7 = 0x8 then .mpop (num n 21 5) (num n 16 3) (flag n 7) else
  if fld n 0 7 = 0x9 then .mfirst (num n 21 5) (num n 16 3) (flag n 7) else
  .vmerge (num n 21 5) (num n 16 5) (num n 11 5) (num n 8 3) (flag n 7) (flag n 2) (num n 0 2)

/-- What a legal word of major 0x27 stands for (R83). -/
def instr27 (n : Nat) : Instr :=
  if fld n 3 4 = 0x0 then .vfadd (num n 21 5) (num n 16 5) (num n 11 5) (num n 8 3) (flag n 7) (flag n 2) (num n 0 2) else
  if fld n 3 4 = 0x1 then .vfsub (num n 21 5) (num n 16 5) (num n 11 5) (num n 8 3) (flag n 7) (flag n 2) (num n 0 2) else
  if fld n 3 4 = 0x2 then .vfrsub (num n 21 5) (num n 16 5) (num n 11 5) (num n 8 3) (flag n 7) (flag n 2) (num n 0 2) else
  if fld n 3 4 = 0x3 then .vfmul (num n 21 5) (num n 16 5) (num n 11 5) (num n 8 3) (flag n 7) (flag n 2) (num n 0 2) else
  if fld n 3 4 = 0x4 then .vfdiv (num n 21 5) (num n 16 5) (num n 11 5) (num n 8 3) (flag n 7) (flag n 2) (num n 0 2) else
  if fld n 3 4 = 0x5 then .vfrdiv (num n 21 5) (num n 16 5) (num n 11 5) (num n 8 3) (flag n 7) (flag n 2) (num n 0 2) else
  if fld n 3 4 = 0x6 then .vfsqrt (num n 21 5) (num n 16 5) (num n 8 3) (flag n 7) (num n 0 2) else
  if fld n 3 4 = 0x7 then .vfmin (num n 21 5) (num n 16 5) (num n 11 5) (num n 8 3) (flag n 7) (flag n 2) (num n 0 2) else
  if fld n 3 4 = 0x8 then .vfmax (num n 21 5) (num n 16 5) (num n 11 5) (num n 8 3) (flag n 7) (flag n 2) (num n 0 2) else
  if fld n 3 4 = 0x9 then .vfsgnj (num n 21 5) (num n 16 5) (num n 11 5) (num n 8 3) (flag n 7) (flag n 2) (num n 0 2) else
  if fld n 3 4 = 0xa then .vfsgnjn (num n 21 5) (num n 16 5) (num n 11 5) (num n 8 3) (flag n 7) (flag n 2) (num n 0 2) else
  .vfsgnjx (num n 21 5) (num n 16 5) (num n 11 5) (num n 8 3) (flag n 7) (flag n 2) (num n 0 2)

/-- What a legal word of major 0x28 stands for (R83). -/
def instr28 (n : Nat) : Instr :=
  if fld n 0 2 = 0x0 then .vfmac (num n 21 5) (num n 16 5) (num n 11 5) (num n 6 5) (num n 4 2) (flag n 3) (flag n 2) else
  if fld n 0 2 = 0x1 then .vfmsc (num n 21 5) (num n 16 5) (num n 11 5) (num n 6 5) (num n 4 2) (flag n 3) (flag n 2) else
  if fld n 0 2 = 0x2 then .vfnmac (num n 21 5) (num n 16 5) (num n 11 5) (num n 6 5) (num n 4 2) (flag n 3) (flag n 2) else
  .vfnmsc (num n 21 5) (num n 16 5) (num n 11 5) (num n 6 5) (num n 4 2) (flag n 3) (flag n 2)

/-- What a legal word of major 0x29 stands for (R83). -/
def instr29 (n : Nat) : Instr :=
  if fld n 0 3 = 0x0 then .vmac (num n 21 5) (num n 16 5) (num n 11 5) (num n 6 5) (num n 4 2) (flag n 3) else
  if fld n 0 3 = 0x1 then .vnmac (num n 21 5) (num n 16 5) (num n 11 5) (num n 6 5) (num n 4 2) (flag n 3) else
  if fld n 0 3 = 0x2 then .vwmac (num n 21 5) (num n 16 5) (num n 11 5) (num n 6 5) (num n 4 2) (flag n 3) else
  if fld n 0 3 = 0x3 then .vwmacz (num n 21 5) (num n 16 5) (num n 11 5) (num n 6 5) (num n 4 2) (flag n 3) else
  if fld n 0 3 = 0x4 then .vdot4 (num n 21 5) (num n 16 5) (num n 11 5) (num n 6 5) (num n 4 2) (flag n 3) else
  .vdot4z (num n 21 5) (num n 16 5) (num n 11 5) (num n 6 5) (num n 4 2) (flag n 3)

/-- What a legal word of major 0x2A stands for (R83). -/
def instr2A (n : Nat) : Instr :=
  if fld n 3 4 = 0x0 then .vfeq (num n 21 3) (num n 16 5) (num n 11 5) (num n 8 3) (flag n 7) (flag n 2) (num n 0 2) else
  if fld n 3 4 = 0x1 then .vfne (num n 21 3) (num n 16 5) (num n 11 5) (num n 8 3) (flag n 7) (flag n 2) (num n 0 2) else
  if fld n 3 4 = 0x2 then .vflt (num n 21 3) (num n 16 5) (num n 11 5) (num n 8 3) (flag n 7) (flag n 2) (num n 0 2) else
  if fld n 3 4 = 0x3 then .vfle (num n 21 3) (num n 16 5) (num n 11 5) (num n 8 3) (flag n 7) (flag n 2) (num n 0 2) else
  if fld n 3 4 = 0x4 then .vfgt (num n 21 3) (num n 16 5) (num n 11 5) (num n 8 3) (flag n 7) (flag n 2) (num n 0 2) else
  if fld n 3 4 = 0x5 then .vfge (num n 21 3) (num n 16 5) (num n 11 5) (num n 8 3) (flag n 7) (flag n 2) (num n 0 2) else
  .vfclass (num n 21 5) (num n 16 5) (num n 8 3) (flag n 7) (num n 0 2)

/-- What a legal word of major 0x2B stands for (R83). -/
def instr2B (n : Nat) : Instr :=
  .vcvt (num n 21 5) (num n 16 5) (num n 8 3) (flag n 7) (flag n 6) (num n 3 3) (num n 0 3)

/-- What a legal word of major 0x2C stands for (R83). -/
def instr2C (n : Nat) : Instr :=
  if fld n 2 1 = 0x0 then .vbsq (num n 21 5) (num n 16 5) (num n 6 5) (num n 4 2) (flag n 3) (num n 0 2) else
  .vbsdq (num n 21 5) (num n 16 5) (num n 6 5) (num n 4 2) (flag n 3) (num n 0 2)

/-- What a legal word of major 0x2D stands for (R83). -/
def instr2D (n : Nat) : Instr :=
  if fld n 3 4 = 0x0 then .vslideup (num n 21 5) (num n 16 5) (num n 11 5) (num n 8 3) (flag n 7) (num n 0 2) else
  if fld n 3 4 = 0x1 then .vslidedown (num n 21 5) (num n 16 5) (num n 11 5) (num n 8 3) (flag n 7) (num n 0 2) else
  if fld n 3 4 = 0x2 then .vrgather (num n 21 5) (num n 16 5) (num n 11 5) (num n 8 3) (flag n 7) (flag n 2) (num n 0 2) else
  if fld n 3 4 = 0x3 then .vcompress (num n 21 5) (num n 16 5) (num n 8 3) (flag n 7) (num n 0 2) else
  .vrowbc (num n 21 5) (num n 16 5) (num n 11 5) (num n 8 3) (flag n 7) (num n 0 2)

/-- What a legal word of major 0x2E stands for (R83). -/
def instr2E (n : Nat) : Instr :=
  if fld n 3 4 = 0x0 then .vredsum (num n 21 5) (num n 16 5) (num n 11 5) (num n 8 3) (flag n 7) (flag n 2) (flag n 1) else
  if fld n 3 4 = 0x1 then .vredmin (num n 21 5) (num n 16 5) (num n 11 5) (num n 8 3) (flag n 7) (flag n 2) (flag n 1) else
  if fld n 3 4 = 0x2 then .vredminz (num n 21 5) (num n 16 5) (num n 11 5) (num n 8 3) (flag n 7) (flag n 2) (flag n 1) else
  if fld n 3 4 = 0x3 then .vredmax (num n 21 5) (num n 16 5) (num n 11 5) (num n 8 3) (flag n 7) (flag n 2) (flag n 1) else
  if fld n 3 4 = 0x4 then .vredmaxz (num n 21 5) (num n 16 5) (num n 11 5) (num n 8 3) (flag n 7) (flag n 2) (flag n 1) else
  if fld n 3 4 = 0x5 then .vfredo (num n 21 5) (num n 16 5) (num n 11 5) (num n 8 3) (flag n 7) else
  if fld n 3 4 = 0x6 then .vfredoBf16 (num n 21 5) (num n 16 5) (num n 11 5) (num n 8 3) (flag n 7) else
  if fld n 3 4 = 0x7 then .vfredt (num n 21 5) (num n 16 5) (num n 11 5) (num n 8 3) (flag n 7) (flag n 2) (flag n 1) else
  if fld n 3 4 = 0x8 then .vfredtBf16 (num n 21 5) (num n 16 5) (num n 11 5) (num n 8 3) (flag n 7) (flag n 2) (flag n 1) else
  if fld n 3 4 = 0x9 then .vfredmin (num n 21 5) (num n 16 5) (num n 11 5) (num n 8 3) (flag n 7) (flag n 2) (flag n 1) else
  if fld n 3 4 = 0xa then .vfredminBf16 (num n 21 5) (num n 16 5) (num n 11 5) (num n 8 3) (flag n 7) (flag n 2) (flag n 1) else
  if fld n 3 4 = 0xb then .vfredmax (num n 21 5) (num n 16 5) (num n 11 5) (num n 8 3) (flag n 7) (flag n 2) (flag n 1) else
  if fld n 3 4 = 0xc then .vfredmaxBf16 (num n 21 5) (num n 16 5) (num n 11 5) (num n 8 3) (flag n 7) (flag n 2) (flag n 1) else
  .vexit (num n 21 5) (num n 16 3) (flag n 7)

/-- What a legal word of major 0x2F stands for (R83). -/
def instr2F (n : Nat) : Instr :=
  if fld n 0 7 = 0x0 then .lsplit (num n 16 5) (num n 11 5) (num n 8 3) else
  .ljoin

/-- What a legal word of major 0x30 stands for (R83). -/
def instr30 (n : Nat) : Instr :=
  if fld n 2 1 = 0x0 then .vld (num n 21 5) (num n 16 5) (num n 11 5) (num n 8 3) (flag n 7) (flag n 6) (num n 3 3) (num n 0 2) else
  .vldCw (num n 21 5) (num n 16 5) (num n 11 5) (num n 8 3) (flag n 7) (flag n 6) (num n 3 3) (num n 0 2)

/-- What a legal word of major 0x31 stands for (R83). -/
def instr31 (n : Nat) : Instr :=
  if fld n 2 1 = 0x0 then .vldIndexed (num n 21 5) (num n 16 5) (num n 11 5) (num n 8 3) (flag n 7) (flag n 6) (num n 3 3) (num n 0 2) else
  .vldIndexedCw (num n 21 5) (num n 16 5) (num n 11 5) (num n 8 3) (flag n 7) (flag n 6) (num n 3 3) (num n 0 2)

/-- What a legal word of major 0x32 stands for (R83). -/
def instr32 (n : Nat) : Instr :=
  if fld n 8 3 ≠ 0 ∧ fld n 7 1 = 1 then .vstm (num n 21 5) (num n 16 5) (num n 11 5) (num n 8 3) (flag n 6) (num n 3 3) (flag n 2) (num n 0 2) else
  .vst (num n 21 5) (num n 16 5) (num n 11 5) (num n 8 3) (flag n 7) (flag n 6) (num n 3 3) (flag n 2) (num n 0 2)

/-- What a legal word of major 0x33 stands for (R83). -/
def instr33 (n : Nat) : Instr :=
  if fld n 8 3 ≠ 0 ∧ fld n 7 1 = 1 then .vstmIndexed (num n 21 5) (num n 16 5) (num n 11 5) (num n 8 3) (flag n 6) (num n 3 3) (flag n 2) (num n 0 2) else
  .vstIndexed (num n 21 5) (num n 16 5) (num n 11 5) (num n 8 3) (flag n 7) (flag n 6) (num n 3 3) (flag n 2) (num n 0 2)

/-- What a legal word of major 0x34 stands for (R83). -/
def instr34 (n : Nat) : Instr :=
  if fld n 0 3 = 0x0 then .vamoaddW (num n 21 5) (num n 16 5) (num n 11 5) (num n 8 3) (flag n 6) (num n 3 3) else
  if fld n 0 3 = 0x1 then .vamoaddD (num n 21 5) (num n 16 5) (num n 11 5) (num n 8 3) (flag n 6) (num n 3 3) else
  if fld n 0 3 = 0x2 then .vamominW (num n 21 5) (num n 16 5) (num n 11 5) (num n 8 3) (flag n 6) (num n 3 3) else
  if fld n 0 3 = 0x3 then .vamomaxW (num n 21 5) (num n 16 5) (num n 11 5) (num n 8 3) (flag n 6) (num n 3 3) else
  if fld n 0 3 = 0x4 then .vamoaddF32 (num n 21 5) (num n 16 5) (num n 11 5) (num n 8 3) (flag n 6) (num n 3 3) else
  if fld n 0 3 = 0x5 then .vamoaddF16 (num n 21 5) (num n 16 5) (num n 11 5) (num n 8 3) (flag n 7) (flag n 6) (num n 3 3) else
  .vamoaddBf16 (num n 21 5) (num n 16 5) (num n 11 5) (num n 8 3) (flag n 7) (flag n 6) (num n 3 3)

/-- What a legal word of major 0x35 stands for (R83). -/
def instr35 (n : Nat) : Instr :=
  if fld n 0 3 = 0x0 then .vamoaddWDup (num n 21 5) (num n 16 5) (num n 11 5) (num n 8 3) (flag n 6) (num n 3 3) else
  if fld n 0 3 = 0x1 then .vamoaddDDup (num n 21 5) (num n 16 5) (num n 11 5) (num n 8 3) (flag n 6) (num n 3 3) else
  if fld n 0 3 = 0x2 then .vamominWDup (num n 21 5) (num n 16 5) (num n 11 5) (num n 8 3) (flag n 6) (num n 3 3) else
  if fld n 0 3 = 0x3 then .vamomaxWDup (num n 21 5) (num n 16 5) (num n 11 5) (num n 8 3) (flag n 6) (num n 3 3) else
  if fld n 0 3 = 0x4 then .vamoaddF32Dup (num n 21 5) (num n 16 5) (num n 11 5) (num n 8 3) (flag n 6) (num n 3 3) else
  if fld n 0 3 = 0x5 then .vamoaddF16Dup (num n 21 5) (num n 16 5) (num n 11 5) (num n 8 3) (flag n 7) (flag n 6) (num n 3 3) else
  if fld n 0 3 = 0x6 then .vamoaddBf16Dup (num n 21 5) (num n 16 5) (num n 11 5) (num n 8 3) (flag n 7) (flag n 6) (num n 3 3) else
  if fld n 0 6 = 0x7 then .vpin (num n 21 3) (num n 16 5) (num n 11 5) (num n 8 3) else
  if fld n 0 6 = 0xf then .vunpin (num n 8 3) else
  if fld n 0 6 = 0x17 then .vspill (num n 21 5) (num n 16 5) (num n 11 5) (num n 8 3) (flag n 6) else
  .vfill (num n 21 5) (num n 16 5) (num n 11 5) (num n 8 3) (flag n 6)

/-- What a legal word of major 0x36 stands for (R83). -/
def instr36 (n : Nat) : Instr :=
  if fld n 0 3 = 0x0 then .mmul (num n 21 5) (num n 16 5) (num n 11 5) (num n 6 5) (flag n 5) (flag n 4) (flag n 3) else
  .mmulz (num n 21 5) (num n 16 5) (num n 11 5) (num n 6 5) (flag n 5) (flag n 4) (flag n 3)

/-- What a legal word of major 0x37 stands for (R83). -/
def instr37 (n : Nat) : Instr :=
  if fld n 0 3 = 0x0 then .mmulBs (num n 21 5) (num n 16 5) (num n 11 5) (num n 6 5) (flag n 5) (flag n 4) (flag n 3) else
  .mmulzBs (num n 21 5) (num n 16 5) (num n 11 5) (num n 6 5) (flag n 5) (flag n 4) (flag n 3)

/-- What a legal word of major 0x38 stands for (R83). -/
def instr38 (n : Nat) : Instr :=
  if fld n 0 3 = 0x0 then .mzero (num n 21 5) (num n 6 5) (flag n 3) else
  if fld n 0 3 = 0x1 then .mcvt (num n 21 5) (num n 16 5) (num n 6 5) (flag n 3) else
  .mcvtSr (num n 21 5) (num n 16 5) (num n 6 5) (flag n 3)

/-- What a legal word of major 0x39 stands for (R83). -/
def instr39 (n : Nat) : Instr :=
  if fld n 0 3 = 0x0 then .mdrain (num n 21 5) (num n 16 5) (num n 11 5) (num n 6 5) (flag n 3) else
  .mdrainz (num n 21 5) (num n 16 5) (num n 11 5) (num n 6 5) (flag n 3)

/-- What a legal word of major 0x3A stands for (R83). -/
def instr3A (n : Nat) : Instr :=
  if fld n 0 6 = 0x0 then .msend (num n 21 5) (num n 16 5) (num n 11 5) else
  if fld n 0 6 = 0x1 then .mput (num n 21 5) (num n 16 5) (num n 11 5) (num n 6 2) else
  if fld n 0 6 = 0x2 then .mwake (num n 16 5) (num n 11 5) else
  if fld n 0 6 = 0x3 then .mwait (num n 21 5) (num n 11 5) (num n 6 5) else
  if fld n 0 6 = 0x4 then .mcount (num n 21 5) (num n 6 5) else
  .locq (num n 21 5) (num n 16 5)

/-- What a legal word of major 0x3B stands for (R83). -/
def instr3B (n : Nat) : Instr :=
  if fld n 0 6 = 0x0 then .scopyin (num n 21 5) (num n 16 5) (num n 11 5) (num n 8 3) (num n 6 2) else
  if fld n 0 6 = 0x1 then .scopyout (num n 21 5) (num n 16 5) (num n 11 5) (num n 8 3) (num n 6 2) else
  if fld n 0 6 = 0x2 then .scopy2inRow (num n 21 5) (num n 16 5) (num n 11 5) (num n 8 3) (num n 6 2) else
  if fld n 0 6 = 0x3 then .scopy2inCol (num n 21 5) (num n 16 5) (num n 11 5) (num n 8 3) (num n 6 2) else
  if fld n 0 6 = 0x4 then .scopy2outRow (num n 21 5) (num n 16 5) (num n 11 5) (num n 8 3) (num n 6 2) else
  if fld n 0 6 = 0x5 then .scopy2outCol (num n 21 5) (num n 16 5) (num n 11 5) (num n 8 3) (num n 6 2) else
  if fld n 0 6 = 0x6 then .scopyr (num n 21 5) (num n 16 5) (num n 11 5) (num n 6 2) else
  if fld n 0 6 = 0x8 then .sgatherRow (num n 21 5) (num n 16 5) (num n 11 5) (num n 8 3) (num n 6 2) else
  if fld n 0 6 = 0x9 then .sgatherCol (num n 21 5) (num n 16 5) (num n 11 5) (num n 8 3) (num n 6 2) else
  if fld n 0 6 = 0xc then .swait (num n 21 5) (num n 16 5) (num n 6 2) else
  if fld n 0 6 = 0xd then .sfault (num n 21 5) (num n 16 5) else
  .sreplay (num n 21 5) (num n 16 5) (num n 6 2)

/-- What a legal word of major 0x3C stands for (R83). -/
def instr3C (n : Nat) : Instr :=
  if fld n 0 6 = 0x0 then .warrive (num n 6 4) else
  if fld n 0 6 = 0x1 then .wwait (num n 6 4) else
  if fld n 0 6 = 0x2 then .wtest (num n 21 5) (num n 6 4) else
  if fld n 0 6 = 0x8 then .tend else
  if fld n 0 6 = 0x9 then .thold (num n 21 5) (num n 16 5) (num n 11 5) else
  if fld n 0 6 = 0xa then .tready (num n 21 5) (num n 16 5) (num n 11 5) else
  if fld n 0 6 = 0xb then .tenable (num n 21 5) (num n 16 5) (num n 11 5) else
  if fld n 0 6 = 0xc then .tpost (num n 16 5) (num n 11 5) else
  if fld n 0 6 = 0x10 then .glaunch (num n 21 5) (num n 16 5) else
  if fld n 0 6 = 0x11 then .wreserve (num n 21 5) (num n 16 5) (num n 11 5) else
  .wcommit (num n 16 5) (num n 11 5)

/-- What a legal word of major 0x3D stands for (R83). -/
def instr3D (n : Nat) : Instr :=
  if fld n 0 7 = 0x0 then .qpush (num n 16 5) (num n 11 5) (num n 8 3) (flag n 7) else
  if fld n 0 7 = 0x1 then .qend (num n 11 5) else
  if fld n 0 7 = 0x2 then .pxlock (num n 16 5) (num n 11 5) (num n 8 3) (flag n 7) else
  if fld n 0 7 = 0x3 then .pxunlock (num n 16 5) (num n 8 3) (flag n 7) else
  if fld n 0 7 = 0x4 then .pxskip (num n 16 5) (num n 11 5) (num n 8 3) (flag n 7) else
  if fld n 3 4 = 0x2 then .tsample (num n 21 5) (num n 16 5) (num n 11 5) (num n 8 3) (flag n 7) (num n 0 3) else
  if fld n 3 4 = 0x3 then .tsampleLod (num n 21 5) (num n 16 5) (num n 11 5) (num n 8 3) (flag n 7) (num n 0 3) else
  if fld n 3 4 = 0x4 then .rquery (num n 21 5) (num n 16 5) (num n 11 5) (num n 8 3) (flag n 7) (num n 0 3) else
  .rqueryAny (num n 21 5) (num n 16 5) (num n 11 5) (num n 8 3) (flag n 7) (num n 0 3)

/-- What a legal word of major 0x3E stands for (R83). -/
def instr3E (n : Nat) : Instr :=
  if fld n 12 4 = 0x0 then .sget (num n 21 5) (num n 0 12) else
  if fld n 12 4 = 0x1 then .sput (num n 16 5) (num n 0 12) else
  if fld n 12 4 = 0x2 then .trap (num n 0 12) else
  if fld n 12 4 = 0x3 then .sret else
  if fld n 12 4 = 0x4 then .mret else
  if fld n 12 4 = 0x5 then .ifence else
  if fld n 8 8 = 0x60 then .cinv (num n 16 5) else
  if fld n 8 8 = 0x61 then .cinvall else
  if fld n 8 8 = 0x62 then .cwb (num n 16 5) else
  if fld n 8 8 = 0x63 then .cwbinv (num n 16 5) else
  if fld n 12 4 = 0x7 then .halt else
  .brk (num n 0 12)

/-- What a legal word stands for. -/
def instrOf (n : Nat) : Instr :=
  match fld n 26 6 with
  | 0x01 => instr01 n
  | 0x02 => instr02 n
  | 0x03 => instr03 n
  | 0x04 => instr04 n
  | 0x05 => instr05 n
  | 0x06 => instr06 n
  | 0x07 => instr07 n
  | 0x08 => instr08 n
  | 0x09 => instr09 n
  | 0x0A => instr0A n
  | 0x0B => instr0B n
  | 0x0C => instr0C n
  | 0x0D => instr0D n
  | 0x0E => instr0E n
  | 0x0F => instr0F n
  | 0x10 => instr10 n
  | 0x11 => instr11 n
  | 0x12 => instr12 n
  | 0x13 => instr13 n
  | 0x14 => instr14 n
  | 0x15 => instr15 n
  | 0x16 => instr16 n
  | 0x17 => instr17 n
  | 0x18 => instr18 n
  | 0x19 => instr19 n
  | 0x1A => instr1A n
  | 0x1B => instr1B n
  | 0x20 => instr20 n
  | 0x21 => instr21 n
  | 0x22 => instr22 n
  | 0x23 => instr23 n
  | 0x24 => instr24 n
  | 0x25 => instr25 n
  | 0x26 => instr26 n
  | 0x27 => instr27 n
  | 0x28 => instr28 n
  | 0x29 => instr29 n
  | 0x2A => instr2A n
  | 0x2B => instr2B n
  | 0x2C => instr2C n
  | 0x2D => instr2D n
  | 0x2E => instr2E n
  | 0x2F => instr2F n
  | 0x30 => instr30 n
  | 0x31 => instr31 n
  | 0x32 => instr32 n
  | 0x33 => instr33 n
  | 0x34 => instr34 n
  | 0x35 => instr35 n
  | 0x36 => instr36 n
  | 0x37 => instr37 n
  | 0x38 => instr38 n
  | 0x39 => instr39 n
  | 0x3A => instr3A n
  | 0x3B => instr3B n
  | 0x3C => instr3C n
  | 0x3D => instr3D n
  | 0x3E => instr3E n
  | _ => .illegalEncoding (BitVec.ofNat 32 n)

/-- Decoding of a word given as a number. -/
def decodeNat (n : Nat) : Decoded :=
  if subOf n = 0 then .ok (instrOf n) else .error (BitVec.ofNat 8 (subOf n))

/-- Decoding of a 32-bit word. -/
def decode (w : BitVec 32) : Decoded := decodeNat w.toNat

end

/-- Fields set at their places in a word: each value times 2 to its lowest bit (R76). -/
def sumFields (m : Nat) : List (Nat × Nat) → Nat
  | [] => m
  | (v, lo) :: r => sumFields (m + v * 2 ^ lo) r

/-- A word from its fixed bits and its fields. -/
def enc (m : Nat) (fs : List (Nat × Nat)) : Option (BitVec 32) := some (BitVec.ofNat 32 (sumFields m fs))

/-- The word of a well-formed instruction, from the encoding tables of the spec; an event has no word. -/
def encode : Instr → Option (BitVec 32)
  | .add rd rs1 rs2 => enc 0x4000000 [(rd.toNat, 21), (rs1.toNat, 16), (rs2.toNat, 11)]
  | .sub rd rs1 rs2 => enc 0x4000001 [(rd.toNat, 21), (rs1.toNat, 16), (rs2.toNat, 11)]
  | .and rd rs1 rs2 => enc 0x4000002 [(rd.toNat, 21), (rs1.toNat, 16), (rs2.toNat, 11)]
  | .or rd rs1 rs2 => enc 0x4000003 [(rd.toNat, 21), (rs1.toNat, 16), (rs2.toNat, 11)]
  | .xor rd rs1 rs2 => enc 0x4000004 [(rd.toNat, 21), (rs1.toNat, 16), (rs2.toNat, 11)]
  | .sll rd rs1 rs2 => enc 0x4000005 [(rd.toNat, 21), (rs1.toNat, 16), (rs2.toNat, 11)]
  | .srl rd rs1 rs2 => enc 0x4000006 [(rd.toNat, 21), (rs1.toNat, 16), (rs2.toNat, 11)]
  | .sra rd rs1 rs2 => enc 0x4000007 [(rd.toNat, 21), (rs1.toNat, 16), (rs2.toNat, 11)]
  | .slt rd rs1 rs2 => enc 0x4000008 [(rd.toNat, 21), (rs1.toNat, 16), (rs2.toNat, 11)]
  | .sltz rd rs1 rs2 => enc 0x4000009 [(rd.toNat, 21), (rs1.toNat, 16), (rs2.toNat, 11)]
  | .addw rd rs1 rs2 => enc 0x400000a [(rd.toNat, 21), (rs1.toNat, 16), (rs2.toNat, 11)]
  | .subw rd rs1 rs2 => enc 0x400000b [(rd.toNat, 21), (rs1.toNat, 16), (rs2.toNat, 11)]
  | .min rd rs1 rs2 => enc 0x400000c [(rd.toNat, 21), (rs1.toNat, 16), (rs2.toNat, 11)]
  | .max rd rs1 rs2 => enc 0x400000d [(rd.toNat, 21), (rs1.toNat, 16), (rs2.toNat, 11)]
  | .minz rd rs1 rs2 => enc 0x400000e [(rd.toNat, 21), (rs1.toNat, 16), (rs2.toNat, 11)]
  | .maxz rd rs1 rs2 => enc 0x400000f [(rd.toNat, 21), (rs1.toNat, 16), (rs2.toNat, 11)]
  | .mul rd rs1 rs2 => enc 0x8000000 [(rd.toNat, 21), (rs1.toNat, 16), (rs2.toNat, 11)]
  | .mulh rd rs1 rs2 => enc 0x8000001 [(rd.toNat, 21), (rs1.toNat, 16), (rs2.toNat, 11)]
  | .mulhz rd rs1 rs2 => enc 0x8000002 [(rd.toNat, 21), (rs1.toNat, 16), (rs2.toNat, 11)]
  | .div rd rs1 rs2 => enc 0x8000003 [(rd.toNat, 21), (rs1.toNat, 16), (rs2.toNat, 11)]
  | .divz rd rs1 rs2 => enc 0x8000004 [(rd.toNat, 21), (rs1.toNat, 16), (rs2.toNat, 11)]
  | .rem rd rs1 rs2 => enc 0x8000005 [(rd.toNat, 21), (rs1.toNat, 16), (rs2.toNat, 11)]
  | .remz rd rs1 rs2 => enc 0x8000006 [(rd.toNat, 21), (rs1.toNat, 16), (rs2.toNat, 11)]
  | .slli rd rs1 sh => enc 0xc000000 [(rd.toNat, 21), (rs1.toNat, 16), (sh.toNat, 5)]
  | .srli rd rs1 sh => enc 0xc000001 [(rd.toNat, 21), (rs1.toNat, 16), (sh.toNat, 5)]
  | .srai rd rs1 sh => enc 0xc000002 [(rd.toNat, 21), (rs1.toNat, 16), (sh.toNat, 5)]
  | .rori rd rs1 sh => enc 0xc000003 [(rd.toNat, 21), (rs1.toNat, 16), (sh.toNat, 5)]
  | .clz rd rs1 => enc 0xc000004 [(rd.toNat, 21), (rs1.toNat, 16)]
  | .ctz rd rs1 => enc 0xc000005 [(rd.toNat, 21), (rs1.toNat, 16)]
  | .cpop rd rs1 => enc 0xc000006 [(rd.toNat, 21), (rs1.toNat, 16)]
  | .rev8 rd rs1 => enc 0xc000007 [(rd.toNat, 21), (rs1.toNat, 16)]
  | .zeqz rd rs1 rs2 => enc 0xc000008 [(rd.toNat, 21), (rs1.toNat, 16), (rs2.toNat, 11)]
  | .znez rd rs1 rs2 => enc 0xc000009 [(rd.toNat, 21), (rs1.toNat, 16), (rs2.toNat, 11)]
  | .addi rd rs1 imm => enc 0x10000000 [(rd.toNat, 21), (rs1.toNat, 16), (imm.toNat, 0)]
  | .andi rd rs1 imm => enc 0x14000000 [(rd.toNat, 21), (rs1.toNat, 16), (imm.toNat, 0)]
  | .ori rd rs1 imm => enc 0x18000000 [(rd.toNat, 21), (rs1.toNat, 16), (imm.toNat, 0)]
  | .lui rd imm => enc 0x1c000000 [(rd.toNat, 21), (imm.toNat, 0)]
  | .auipc rd imm => enc 0x20000000 [(rd.toNat, 21), (imm.toNat, 0)]
  | .jal rd off => enc 0x24000000 [(rd.toNat, 21), (off.toNat, 0)]
  | .jalr rd rs1 imm => enc 0x28000000 [(rd.toNat, 21), (rs1.toNat, 16), (imm.toNat, 0)]
  | .beq rs1 rs2 off => enc 0x2c000000 [(rs1.toNat, 21), (rs2.toNat, 16), (off.toNat, 0)]
  | .bne rs1 rs2 off => enc 0x30000000 [(rs1.toNat, 21), (rs2.toNat, 16), (off.toNat, 0)]
  | .blt rs1 rs2 off => enc 0x34000000 [(rs1.toNat, 21), (rs2.toNat, 16), (off.toNat, 0)]
  | .bge rs1 rs2 off => enc 0x38000000 [(rs1.toNat, 21), (rs2.toNat, 16), (off.toNat, 0)]
  | .bsig imm => enc 0x3c000000 [(imm.toNat, 0)]
  | .ld rd rs1 imm => enc 0x40000000 [(rd.toNat, 21), (rs1.toNat, 16), (imm.toNat, 0)]
  | .lw rd rs1 imm => enc 0x44000000 [(rd.toNat, 21), (rs1.toNat, 16), (imm.toNat, 0)]
  | .lwz rd rs1 imm => enc 0x48000000 [(rd.toNat, 21), (rs1.toNat, 16), (imm.toNat, 0)]
  | .lbz rd rs1 imm => enc 0x4c000000 [(rd.toNat, 21), (rs1.toNat, 16), (imm.toNat, 0)]
  | .sd rs rs1 imm => enc 0x50000000 [(rs.toNat, 21), (rs1.toNat, 16), (imm.toNat, 0)]
  | .sw rs rs1 imm => enc 0x54000000 [(rs.toNat, 21), (rs1.toNat, 16), (imm.toNat, 0)]
  | .lx rd rs1 rs2 width => enc 0x58000000 [(rd.toNat, 21), (rs1.toNat, 16), (rs2.toNat, 11), (width.toNat, 0)]
  | .sx rs rs1 rs2 width => enc 0x58000008 [(rs.toNat, 21), (rs1.toNat, 16), (rs2.toNat, 11), (width.toNat, 0)]
  | .lsp rd rs1 rs2 width => enc 0x58000010 [(rd.toNat, 21), (rs1.toNat, 16), (rs2.toNat, 11), (width.toNat, 0)]
  | .ssp rs rs1 rs2 width => enc 0x58000018 [(rs.toNat, 21), (rs1.toNat, 16), (rs2.toNat, 11), (width.toNat, 0)]
  | .amoswapD rd rs1 rs2 scope ord => enc 0x5c000000 [(rd.toNat, 21), (rs1.toNat, 16), (rs2.toNat, 11), (scope.toNat, 8), (ord.toNat, 6)]
  | .amoswapW rd rs1 rs2 scope ord => enc 0x5c000010 [(rd.toNat, 21), (rs1.toNat, 16), (rs2.toNat, 11), (scope.toNat, 8), (ord.toNat, 6)]
  | .amoaddD rd rs1 rs2 scope ord => enc 0x5c000001 [(rd.toNat, 21), (rs1.toNat, 16), (rs2.toNat, 11), (scope.toNat, 8), (ord.toNat, 6)]
  | .amoaddW rd rs1 rs2 scope ord => enc 0x5c000011 [(rd.toNat, 21), (rs1.toNat, 16), (rs2.toNat, 11), (scope.toNat, 8), (ord.toNat, 6)]
  | .amoandD rd rs1 rs2 scope ord => enc 0x5c000002 [(rd.toNat, 21), (rs1.toNat, 16), (rs2.toNat, 11), (scope.toNat, 8), (ord.toNat, 6)]
  | .amoandW rd rs1 rs2 scope ord => enc 0x5c000012 [(rd.toNat, 21), (rs1.toNat, 16), (rs2.toNat, 11), (scope.toNat, 8), (ord.toNat, 6)]
  | .amoorD rd rs1 rs2 scope ord => enc 0x5c000003 [(rd.toNat, 21), (rs1.toNat, 16), (rs2.toNat, 11), (scope.toNat, 8), (ord.toNat, 6)]
  | .amoorW rd rs1 rs2 scope ord => enc 0x5c000013 [(rd.toNat, 21), (rs1.toNat, 16), (rs2.toNat, 11), (scope.toNat, 8), (ord.toNat, 6)]
  | .amoxorD rd rs1 rs2 scope ord => enc 0x5c000004 [(rd.toNat, 21), (rs1.toNat, 16), (rs2.toNat, 11), (scope.toNat, 8), (ord.toNat, 6)]
  | .amoxorW rd rs1 rs2 scope ord => enc 0x5c000014 [(rd.toNat, 21), (rs1.toNat, 16), (rs2.toNat, 11), (scope.toNat, 8), (ord.toNat, 6)]
  | .amominD rd rs1 rs2 scope ord => enc 0x5c000005 [(rd.toNat, 21), (rs1.toNat, 16), (rs2.toNat, 11), (scope.toNat, 8), (ord.toNat, 6)]
  | .amominW rd rs1 rs2 scope ord => enc 0x5c000015 [(rd.toNat, 21), (rs1.toNat, 16), (rs2.toNat, 11), (scope.toNat, 8), (ord.toNat, 6)]
  | .amomaxD rd rs1 rs2 scope ord => enc 0x5c000006 [(rd.toNat, 21), (rs1.toNat, 16), (rs2.toNat, 11), (scope.toNat, 8), (ord.toNat, 6)]
  | .amomaxW rd rs1 rs2 scope ord => enc 0x5c000016 [(rd.toNat, 21), (rs1.toNat, 16), (rs2.toNat, 11), (scope.toNat, 8), (ord.toNat, 6)]
  | .amominzD rd rs1 rs2 scope ord => enc 0x5c000007 [(rd.toNat, 21), (rs1.toNat, 16), (rs2.toNat, 11), (scope.toNat, 8), (ord.toNat, 6)]
  | .amominzW rd rs1 rs2 scope ord => enc 0x5c000017 [(rd.toNat, 21), (rs1.toNat, 16), (rs2.toNat, 11), (scope.toNat, 8), (ord.toNat, 6)]
  | .amomaxzD rd rs1 rs2 scope ord => enc 0x5c000008 [(rd.toNat, 21), (rs1.toNat, 16), (rs2.toNat, 11), (scope.toNat, 8), (ord.toNat, 6)]
  | .amomaxzW rd rs1 rs2 scope ord => enc 0x5c000018 [(rd.toNat, 21), (rs1.toNat, 16), (rs2.toNat, 11), (scope.toNat, 8), (ord.toNat, 6)]
  | .amocasD rd rs1 rs2 scope ord => enc 0x5c000009 [(rd.toNat, 21), (rs1.toNat, 16), (rs2.toNat, 11), (scope.toNat, 8), (ord.toNat, 6)]
  | .amocasW rd rs1 rs2 scope ord => enc 0x5c000019 [(rd.toNat, 21), (rs1.toNat, 16), (rs2.toNat, 11), (scope.toNat, 8), (ord.toNat, 6)]
  | .amoaddF32 rd rs1 rs2 scope ord => enc 0x5c00001a [(rd.toNat, 21), (rs1.toNat, 16), (rs2.toNat, 11), (scope.toNat, 8), (ord.toNat, 6)]
  | .ldaW rd rs1 scope => enc 0x5c000068 [(rd.toNat, 21), (rs1.toNat, 16), (scope.toNat, 8)]
  | .ldaD rd rs1 scope => enc 0x5c000069 [(rd.toNat, 21), (rs1.toNat, 16), (scope.toNat, 8)]
  | .staW rs1 rs2 scope => enc 0x5c0000aa [(rs1.toNat, 16), (rs2.toNat, 11), (scope.toNat, 8)]
  | .staD rs1 rs2 scope => enc 0x5c0000ab [(rs1.toNat, 16), (rs2.toNat, 11), (scope.toNat, 8)]
  | .fence scope ord => enc 0x5c000030 [(scope.toNat, 8), (ord.toNat, 6)]
  | .faddF64 rd rs1 rs2 => enc 0x60000000 [(rd.toNat, 21), (rs1.toNat, 16), (rs2.toNat, 11)]
  | .fsubF64 rd rs1 rs2 => enc 0x60000001 [(rd.toNat, 21), (rs1.toNat, 16), (rs2.toNat, 11)]
  | .fmulF64 rd rs1 rs2 => enc 0x60000002 [(rd.toNat, 21), (rs1.toNat, 16), (rs2.toNat, 11)]
  | .fdivF64 rd rs1 rs2 => enc 0x60000003 [(rd.toNat, 21), (rs1.toNat, 16), (rs2.toNat, 11)]
  | .fsqrtF64 rd rs1 => enc 0x60000004 [(rd.toNat, 21), (rs1.toNat, 16)]
  | .fmacF64 rd rs1 rs2 => enc 0x60000005 [(rd.toNat, 21), (rs1.toNat, 16), (rs2.toNat, 11)]
  | .fmscF64 rd rs1 rs2 => enc 0x60000006 [(rd.toNat, 21), (rs1.toNat, 16), (rs2.toNat, 11)]
  | .fnmacF64 rd rs1 rs2 => enc 0x60000007 [(rd.toNat, 21), (rs1.toNat, 16), (rs2.toNat, 11)]
  | .faddF32 rd rs1 rs2 => enc 0x64000000 [(rd.toNat, 21), (rs1.toNat, 16), (rs2.toNat, 11)]
  | .fsubF32 rd rs1 rs2 => enc 0x64000001 [(rd.toNat, 21), (rs1.toNat, 16), (rs2.toNat, 11)]
  | .fmulF32 rd rs1 rs2 => enc 0x64000002 [(rd.toNat, 21), (rs1.toNat, 16), (rs2.toNat, 11)]
  | .fdivF32 rd rs1 rs2 => enc 0x64000003 [(rd.toNat, 21), (rs1.toNat, 16), (rs2.toNat, 11)]
  | .fsqrtF32 rd rs1 => enc 0x64000004 [(rd.toNat, 21), (rs1.toNat, 16)]
  | .fmacF32 rd rs1 rs2 => enc 0x64000005 [(rd.toNat, 21), (rs1.toNat, 16), (rs2.toNat, 11)]
  | .fmscF32 rd rs1 rs2 => enc 0x64000006 [(rd.toNat, 21), (rs1.toNat, 16), (rs2.toNat, 11)]
  | .fnmacF32 rd rs1 rs2 => enc 0x64000007 [(rd.toNat, 21), (rs1.toNat, 16), (rs2.toNat, 11)]
  | .ftoi rd rs1 single ty => enc 0x68000000 [(rd.toNat, 21), (rs1.toNat, 16), (single.toNat, 3), (ty.toNat, 0)]
  | .ftrc rd rs1 single ty => enc 0x68000010 [(rd.toNat, 21), (rs1.toNat, 16), (single.toNat, 3), (ty.toNat, 0)]
  | .itof rd rs1 single ty => enc 0x68000020 [(rd.toNat, 21), (rs1.toNat, 16), (single.toNat, 3), (ty.toNat, 0)]
  | .fnarrowF32 rd rs1 => enc 0x68000030 [(rd.toNat, 21), (rs1.toNat, 16)]
  | .fnarrowF16 rd rs1 => enc 0x68000031 [(rd.toNat, 21), (rs1.toNat, 16)]
  | .fnarrowBf16 rd rs1 => enc 0x68000032 [(rd.toNat, 21), (rs1.toNat, 16)]
  | .fwidenF32 rd rs1 => enc 0x68000034 [(rd.toNat, 21), (rs1.toNat, 16)]
  | .fwidenF16 rd rs1 => enc 0x68000035 [(rd.toNat, 21), (rs1.toNat, 16)]
  | .fwidenBf16 rd rs1 => enc 0x68000036 [(rd.toNat, 21), (rs1.toNat, 16)]
  | .feq rd rs1 rs2 single => enc 0x6c000000 [(rd.toNat, 21), (rs1.toNat, 16), (rs2.toNat, 11), (single.toNat, 4)]
  | .flt rd rs1 rs2 single => enc 0x6c000001 [(rd.toNat, 21), (rs1.toNat, 16), (rs2.toNat, 11), (single.toNat, 4)]
  | .fle rd rs1 rs2 single => enc 0x6c000002 [(rd.toNat, 21), (rs1.toNat, 16), (rs2.toNat, 11), (single.toNat, 4)]
  | .fmin rd rs1 rs2 single => enc 0x6c000003 [(rd.toNat, 21), (rs1.toNat, 16), (rs2.toNat, 11), (single.toNat, 4)]
  | .fmax rd rs1 rs2 single => enc 0x6c000004 [(rd.toNat, 21), (rs1.toNat, 16), (rs2.toNat, 11), (single.toNat, 4)]
  | .fclass rd rs1 single => enc 0x6c000005 [(rd.toNat, 21), (rs1.toNat, 16), (single.toNat, 4)]
  | .vshape rd rs1 rs2 sew => enc 0x80000000 [(rd.toNat, 21), (rs1.toNat, 16), (rs2.toNat, 11), (sew.toNat, 0)]
  | .vmvx vd vs1 vs2 conv => enc 0x80000008 [(vd.toNat, 21), (vs1.toNat, 16), (vs2.toNat, 11), (conv.toNat, 7)]
  | .vmvxz vd vs1 vs2 conv => enc 0x80000009 [(vd.toNat, 21), (vs1.toNat, 16), (vs2.toNat, 11), (conv.toNat, 7)]
  | .vmvv vd vs1 vs2 conv => enc 0x8000000a [(vd.toNat, 21), (vs1.toNat, 16), (vs2.toNat, 11), (conv.toNat, 7)]
  | .vbcast vd vs1 mask conv => enc 0x8000000b [(vd.toNat, 21), (vs1.toNat, 16), (mask.toNat, 8), (conv.toNat, 7)]
  | .vmv vd vs1 mask conv => enc 0x8000000c [(vd.toNat, 21), (vs1.toNat, 16), (mask.toNat, 8), (conv.toNat, 7)]
  | .vid vd mask conv => enc 0x8000000d [(vd.toNat, 21), (mask.toNat, 8), (conv.toNat, 7)]
  | .vidr vd mask conv => enc 0x8000000e [(vd.toNat, 21), (mask.toNat, 8), (conv.toNat, 7)]
  | .vidf vd mask conv => enc 0x8000000f [(vd.toNat, 21), (mask.toNat, 8), (conv.toNat, 7)]
  | .vadd vd vs1 vs2 mask conv scalar ty => enc 0x84000000 [(vd.toNat, 21), (vs1.toNat, 16), (vs2.toNat, 11), (mask.toNat, 8), (conv.toNat, 7), (scalar.toNat, 2), (ty.toNat, 0)]
  | .vsub vd vs1 vs2 mask conv scalar ty => enc 0x84000008 [(vd.toNat, 21), (vs1.toNat, 16), (vs2.toNat, 11), (mask.toNat, 8), (conv.toNat, 7), (scalar.toNat, 2), (ty.toNat, 0)]
  | .vrsub vd vs1 vs2 mask conv scalar ty => enc 0x84000010 [(vd.toNat, 21), (vs1.toNat, 16), (vs2.toNat, 11), (mask.toNat, 8), (conv.toNat, 7), (scalar.toNat, 2), (ty.toNat, 0)]
  | .vmin vd vs1 vs2 mask conv scalar ty => enc 0x84000018 [(vd.toNat, 21), (vs1.toNat, 16), (vs2.toNat, 11), (mask.toNat, 8), (conv.toNat, 7), (scalar.toNat, 2), (ty.toNat, 0)]
  | .vminz vd vs1 vs2 mask conv scalar ty => enc 0x84000020 [(vd.toNat, 21), (vs1.toNat, 16), (vs2.toNat, 11), (mask.toNat, 8), (conv.toNat, 7), (scalar.toNat, 2), (ty.toNat, 0)]
  | .vmax vd vs1 vs2 mask conv scalar ty => enc 0x84000028 [(vd.toNat, 21), (vs1.toNat, 16), (vs2.toNat, 11), (mask.toNat, 8), (conv.toNat, 7), (scalar.toNat, 2), (ty.toNat, 0)]
  | .vmaxz vd vs1 vs2 mask conv scalar ty => enc 0x84000030 [(vd.toNat, 21), (vs1.toNat, 16), (vs2.toNat, 11), (mask.toNat, 8), (conv.toNat, 7), (scalar.toNat, 2), (ty.toNat, 0)]
  | .vsadd vd vs1 vs2 mask conv scalar ty => enc 0x88000000 [(vd.toNat, 21), (vs1.toNat, 16), (vs2.toNat, 11), (mask.toNat, 8), (conv.toNat, 7), (scalar.toNat, 2), (ty.toNat, 0)]
  | .vsaddz vd vs1 vs2 mask conv scalar ty => enc 0x88000008 [(vd.toNat, 21), (vs1.toNat, 16), (vs2.toNat, 11), (mask.toNat, 8), (conv.toNat, 7), (scalar.toNat, 2), (ty.toNat, 0)]
  | .vssub vd vs1 vs2 mask conv scalar ty => enc 0x88000010 [(vd.toNat, 21), (vs1.toNat, 16), (vs2.toNat, 11), (mask.toNat, 8), (conv.toNat, 7), (scalar.toNat, 2), (ty.toNat, 0)]
  | .vssubz vd vs1 vs2 mask conv scalar ty => enc 0x88000018 [(vd.toNat, 21), (vs1.toNat, 16), (vs2.toNat, 11), (mask.toNat, 8), (conv.toNat, 7), (scalar.toNat, 2), (ty.toNat, 0)]
  | .vwadd vd vs1 vs2 mask conv scalar ty => enc 0x88000020 [(vd.toNat, 21), (vs1.toNat, 16), (vs2.toNat, 11), (mask.toNat, 8), (conv.toNat, 7), (scalar.toNat, 2), (ty.toNat, 0)]
  | .vwaddz vd vs1 vs2 mask conv scalar ty => enc 0x88000028 [(vd.toNat, 21), (vs1.toNat, 16), (vs2.toNat, 11), (mask.toNat, 8), (conv.toNat, 7), (scalar.toNat, 2), (ty.toNat, 0)]
  | .vwsub vd vs1 vs2 mask conv scalar ty => enc 0x88000030 [(vd.toNat, 21), (vs1.toNat, 16), (vs2.toNat, 11), (mask.toNat, 8), (conv.toNat, 7), (scalar.toNat, 2), (ty.toNat, 0)]
  | .vwsubz vd vs1 vs2 mask conv scalar ty => enc 0x88000038 [(vd.toNat, 21), (vs1.toNat, 16), (vs2.toNat, 11), (mask.toNat, 8), (conv.toNat, 7), (scalar.toNat, 2), (ty.toNat, 0)]
  | .vext vd vs1 mask conv ty => enc 0x88000040 [(vd.toNat, 21), (vs1.toNat, 16), (mask.toNat, 8), (conv.toNat, 7), (ty.toNat, 0)]
  | .vextz vd vs1 mask conv ty => enc 0x88000048 [(vd.toNat, 21), (vs1.toNat, 16), (mask.toNat, 8), (conv.toNat, 7), (ty.toNat, 0)]
  | .vnarrow vd vs1 mask conv ty => enc 0x88000050 [(vd.toNat, 21), (vs1.toNat, 16), (mask.toNat, 8), (conv.toNat, 7), (ty.toNat, 0)]
  | .vnsat vd vs1 mask conv ty => enc 0x88000058 [(vd.toNat, 21), (vs1.toNat, 16), (mask.toNat, 8), (conv.toNat, 7), (ty.toNat, 0)]
  | .vnsatz vd vs1 mask conv ty => enc 0x88000060 [(vd.toNat, 21), (vs1.toNat, 16), (mask.toNat, 8), (conv.toNat, 7), (ty.toNat, 0)]
  | .vnclampz vd vs1 mask conv ty => enc 0x88000068 [(vd.toNat, 21), (vs1.toNat, 16), (mask.toNat, 8), (conv.toNat, 7), (ty.toNat, 0)]
  | .vmul vd vs1 vs2 mask conv scalar ty => enc 0x8c000000 [(vd.toNat, 21), (vs1.toNat, 16), (vs2.toNat, 11), (mask.toNat, 8), (conv.toNat, 7), (scalar.toNat, 2), (ty.toNat, 0)]
  | .vmulh vd vs1 vs2 mask conv scalar ty => enc 0x8c000008 [(vd.toNat, 21), (vs1.toNat, 16), (vs2.toNat, 11), (mask.toNat, 8), (conv.toNat, 7), (scalar.toNat, 2), (ty.toNat, 0)]
  | .vmulhz vd vs1 vs2 mask conv scalar ty => enc 0x8c000010 [(vd.toNat, 21), (vs1.toNat, 16), (vs2.toNat, 11), (mask.toNat, 8), (conv.toNat, 7), (scalar.toNat, 2), (ty.toNat, 0)]
  | .vdiv vd vs1 vs2 mask conv scalar ty => enc 0x8c000018 [(vd.toNat, 21), (vs1.toNat, 16), (vs2.toNat, 11), (mask.toNat, 8), (conv.toNat, 7), (scalar.toNat, 2), (ty.toNat, 0)]
  | .vdivz vd vs1 vs2 mask conv scalar ty => enc 0x8c000020 [(vd.toNat, 21), (vs1.toNat, 16), (vs2.toNat, 11), (mask.toNat, 8), (conv.toNat, 7), (scalar.toNat, 2), (ty.toNat, 0)]
  | .vrem vd vs1 vs2 mask conv scalar ty => enc 0x8c000028 [(vd.toNat, 21), (vs1.toNat, 16), (vs2.toNat, 11), (mask.toNat, 8), (conv.toNat, 7), (scalar.toNat, 2), (ty.toNat, 0)]
  | .vremz vd vs1 vs2 mask conv scalar ty => enc 0x8c000030 [(vd.toNat, 21), (vs1.toNat, 16), (vs2.toNat, 11), (mask.toNat, 8), (conv.toNat, 7), (scalar.toNat, 2), (ty.toNat, 0)]
  | .vwmul vd vs1 vs2 mask conv scalar ty => enc 0x8c000038 [(vd.toNat, 21), (vs1.toNat, 16), (vs2.toNat, 11), (mask.toNat, 8), (conv.toNat, 7), (scalar.toNat, 2), (ty.toNat, 0)]
  | .vwmulz vd vs1 vs2 mask conv scalar ty => enc 0x8c000040 [(vd.toNat, 21), (vs1.toNat, 16), (vs2.toNat, 11), (mask.toNat, 8), (conv.toNat, 7), (scalar.toNat, 2), (ty.toNat, 0)]
  | .vand vd vs1 vs2 mask conv scalar ty => enc 0x90000000 [(vd.toNat, 21), (vs1.toNat, 16), (vs2.toNat, 11), (mask.toNat, 8), (conv.toNat, 7), (scalar.toNat, 2), (ty.toNat, 0)]
  | .vor vd vs1 vs2 mask conv scalar ty => enc 0x90000008 [(vd.toNat, 21), (vs1.toNat, 16), (vs2.toNat, 11), (mask.toNat, 8), (conv.toNat, 7), (scalar.toNat, 2), (ty.toNat, 0)]
  | .vxor vd vs1 vs2 mask conv scalar ty => enc 0x90000010 [(vd.toNat, 21), (vs1.toNat, 16), (vs2.toNat, 11), (mask.toNat, 8), (conv.toNat, 7), (scalar.toNat, 2), (ty.toNat, 0)]
  | .vandn vd vs1 vs2 mask conv scalar ty => enc 0x90000018 [(vd.toNat, 21), (vs1.toNat, 16), (vs2.toNat, 11), (mask.toNat, 8), (conv.toNat, 7), (scalar.toNat, 2), (ty.toNat, 0)]
  | .vsll vd vs1 vs2 mask conv scalar ty => enc 0x90000020 [(vd.toNat, 21), (vs1.toNat, 16), (vs2.toNat, 11), (mask.toNat, 8), (conv.toNat, 7), (scalar.toNat, 2), (ty.toNat, 0)]
  | .vsrl vd vs1 vs2 mask conv scalar ty => enc 0x90000028 [(vd.toNat, 21), (vs1.toNat, 16), (vs2.toNat, 11), (mask.toNat, 8), (conv.toNat, 7), (scalar.toNat, 2), (ty.toNat, 0)]
  | .vsra vd vs1 vs2 mask conv scalar ty => enc 0x90000030 [(vd.toNat, 21), (vs1.toNat, 16), (vs2.toNat, 11), (mask.toNat, 8), (conv.toNat, 7), (scalar.toNat, 2), (ty.toNat, 0)]
  | .vror vd vs1 vs2 mask conv scalar ty => enc 0x90000038 [(vd.toNat, 21), (vs1.toNat, 16), (vs2.toNat, 11), (mask.toNat, 8), (conv.toNat, 7), (scalar.toNat, 2), (ty.toNat, 0)]
  | .vseq vd vs1 vs2 mask conv scalar ty => enc 0x94000000 [(vd.toNat, 21), (vs1.toNat, 16), (vs2.toNat, 11), (mask.toNat, 8), (conv.toNat, 7), (scalar.toNat, 2), (ty.toNat, 0)]
  | .vsne vd vs1 vs2 mask conv scalar ty => enc 0x94000008 [(vd.toNat, 21), (vs1.toNat, 16), (vs2.toNat, 11), (mask.toNat, 8), (conv.toNat, 7), (scalar.toNat, 2), (ty.toNat, 0)]
  | .vslt vd vs1 vs2 mask conv scalar ty => enc 0x94000010 [(vd.toNat, 21), (vs1.toNat, 16), (vs2.toNat, 11), (mask.toNat, 8), (conv.toNat, 7), (scalar.toNat, 2), (ty.toNat, 0)]
  | .vsltz vd vs1 vs2 mask conv scalar ty => enc 0x94000018 [(vd.toNat, 21), (vs1.toNat, 16), (vs2.toNat, 11), (mask.toNat, 8), (conv.toNat, 7), (scalar.toNat, 2), (ty.toNat, 0)]
  | .vsle vd vs1 vs2 mask conv scalar ty => enc 0x94000020 [(vd.toNat, 21), (vs1.toNat, 16), (vs2.toNat, 11), (mask.toNat, 8), (conv.toNat, 7), (scalar.toNat, 2), (ty.toNat, 0)]
  | .vslez vd vs1 vs2 mask conv scalar ty => enc 0x94000028 [(vd.toNat, 21), (vs1.toNat, 16), (vs2.toNat, 11), (mask.toNat, 8), (conv.toNat, 7), (scalar.toNat, 2), (ty.toNat, 0)]
  | .vsgt vd vs1 vs2 mask conv scalar ty => enc 0x94000030 [(vd.toNat, 21), (vs1.toNat, 16), (vs2.toNat, 11), (mask.toNat, 8), (conv.toNat, 7), (scalar.toNat, 2), (ty.toNat, 0)]
  | .vsgtz vd vs1 vs2 mask conv scalar ty => enc 0x94000038 [(vd.toNat, 21), (vs1.toNat, 16), (vs2.toNat, 11), (mask.toNat, 8), (conv.toNat, 7), (scalar.toNat, 2), (ty.toNat, 0)]
  | .mand vd vs1 vs2 conv => enc 0x98000000 [(vd.toNat, 21), (vs1.toNat, 16), (vs2.toNat, 11), (conv.toNat, 7)]
  | .mor vd vs1 vs2 conv => enc 0x98000001 [(vd.toNat, 21), (vs1.toNat, 16), (vs2.toNat, 11), (conv.toNat, 7)]
  | .mxor vd vs1 vs2 conv => enc 0x98000002 [(vd.toNat, 21), (vs1.toNat, 16), (vs2.toNat, 11), (conv.toNat, 7)]
  | .mandn vd vs1 vs2 conv => enc 0x98000003 [(vd.toNat, 21), (vs1.toNat, 16), (vs2.toNat, 11), (conv.toNat, 7)]
  | .mnot vd vs1 conv => enc 0x98000004 [(vd.toNat, 21), (vs1.toNat, 16), (conv.toNat, 7)]
  | .mset vd conv => enc 0x98000005 [(vd.toNat, 21), (conv.toNat, 7)]
  | .mclr vd conv => enc 0x98000006 [(vd.toNat, 21), (conv.toNat, 7)]
  | .mpop vd vs1 conv => enc 0x98000008 [(vd.toNat, 21), (vs1.toNat, 16), (conv.toNat, 7)]
  | .mfirst vd vs1 conv => enc 0x98000009 [(vd.toNat, 21), (vs1.toNat, 16), (conv.toNat, 7)]
  | .vmerge vd vs1 vs2 mask conv scalar ty => enc 0x98000010 [(vd.toNat, 21), (vs1.toNat, 16), (vs2.toNat, 11), (mask.toNat, 8), (conv.toNat, 7), (scalar.toNat, 2), (ty.toNat, 0)]
  | .vfadd vd vs1 vs2 mask conv scalar ty => enc 0x9c000000 [(vd.toNat, 21), (vs1.toNat, 16), (vs2.toNat, 11), (mask.toNat, 8), (conv.toNat, 7), (scalar.toNat, 2), (ty.toNat, 0)]
  | .vfsub vd vs1 vs2 mask conv scalar ty => enc 0x9c000008 [(vd.toNat, 21), (vs1.toNat, 16), (vs2.toNat, 11), (mask.toNat, 8), (conv.toNat, 7), (scalar.toNat, 2), (ty.toNat, 0)]
  | .vfrsub vd vs1 vs2 mask conv scalar ty => enc 0x9c000010 [(vd.toNat, 21), (vs1.toNat, 16), (vs2.toNat, 11), (mask.toNat, 8), (conv.toNat, 7), (scalar.toNat, 2), (ty.toNat, 0)]
  | .vfmul vd vs1 vs2 mask conv scalar ty => enc 0x9c000018 [(vd.toNat, 21), (vs1.toNat, 16), (vs2.toNat, 11), (mask.toNat, 8), (conv.toNat, 7), (scalar.toNat, 2), (ty.toNat, 0)]
  | .vfdiv vd vs1 vs2 mask conv scalar ty => enc 0x9c000020 [(vd.toNat, 21), (vs1.toNat, 16), (vs2.toNat, 11), (mask.toNat, 8), (conv.toNat, 7), (scalar.toNat, 2), (ty.toNat, 0)]
  | .vfrdiv vd vs1 vs2 mask conv scalar ty => enc 0x9c000028 [(vd.toNat, 21), (vs1.toNat, 16), (vs2.toNat, 11), (mask.toNat, 8), (conv.toNat, 7), (scalar.toNat, 2), (ty.toNat, 0)]
  | .vfsqrt vd vs1 mask conv ty => enc 0x9c000030 [(vd.toNat, 21), (vs1.toNat, 16), (mask.toNat, 8), (conv.toNat, 7), (ty.toNat, 0)]
  | .vfmin vd vs1 vs2 mask conv scalar ty => enc 0x9c000038 [(vd.toNat, 21), (vs1.toNat, 16), (vs2.toNat, 11), (mask.toNat, 8), (conv.toNat, 7), (scalar.toNat, 2), (ty.toNat, 0)]
  | .vfmax vd vs1 vs2 mask conv scalar ty => enc 0x9c000040 [(vd.toNat, 21), (vs1.toNat, 16), (vs2.toNat, 11), (mask.toNat, 8), (conv.toNat, 7), (scalar.toNat, 2), (ty.toNat, 0)]
  | .vfsgnj vd vs1 vs2 mask conv scalar ty => enc 0x9c000048 [(vd.toNat, 21), (vs1.toNat, 16), (vs2.toNat, 11), (mask.toNat, 8), (conv.toNat, 7), (scalar.toNat, 2), (ty.toNat, 0)]
  | .vfsgnjn vd vs1 vs2 mask conv scalar ty => enc 0x9c000050 [(vd.toNat, 21), (vs1.toNat, 16), (vs2.toNat, 11), (mask.toNat, 8), (conv.toNat, 7), (scalar.toNat, 2), (ty.toNat, 0)]
  | .vfsgnjx vd vs1 vs2 mask conv scalar ty => enc 0x9c000058 [(vd.toNat, 21), (vs1.toNat, 16), (vs2.toNat, 11), (mask.toNat, 8), (conv.toNat, 7), (scalar.toNat, 2), (ty.toNat, 0)]
  | .vfmac vd vs1 vs2 vs3 mask conv bf16 => enc 0xa0000000 [(vd.toNat, 21), (vs1.toNat, 16), (vs2.toNat, 11), (vs3.toNat, 6), (mask.toNat, 4), (conv.toNat, 3), (bf16.toNat, 2)]
  | .vfmsc vd vs1 vs2 vs3 mask conv bf16 => enc 0xa0000001 [(vd.toNat, 21), (vs1.toNat, 16), (vs2.toNat, 11), (vs3.toNat, 6), (mask.toNat, 4), (conv.toNat, 3), (bf16.toNat, 2)]
  | .vfnmac vd vs1 vs2 vs3 mask conv bf16 => enc 0xa0000002 [(vd.toNat, 21), (vs1.toNat, 16), (vs2.toNat, 11), (vs3.toNat, 6), (mask.toNat, 4), (conv.toNat, 3), (bf16.toNat, 2)]
  | .vfnmsc vd vs1 vs2 vs3 mask conv bf16 => enc 0xa0000003 [(vd.toNat, 21), (vs1.toNat, 16), (vs2.toNat, 11), (vs3.toNat, 6), (mask.toNat, 4), (conv.toNat, 3), (bf16.toNat, 2)]
  | .vmac vd vs1 vs2 vs3 mask conv => enc 0xa4000000 [(vd.toNat, 21), (vs1.toNat, 16), (vs2.toNat, 11), (vs3.toNat, 6), (mask.toNat, 4), (conv.toNat, 3)]
  | .vnmac vd vs1 vs2 vs3 mask conv => enc 0xa4000001 [(vd.toNat, 21), (vs1.toNat, 16), (vs2.toNat, 11), (vs3.toNat, 6), (mask.toNat, 4), (conv.toNat, 3)]
  | .vwmac vd vs1 vs2 vs3 mask conv => enc 0xa4000002 [(vd.toNat, 21), (vs1.toNat, 16), (vs2.toNat, 11), (vs3.toNat, 6), (mask.toNat, 4), (conv.toNat, 3)]
  | .vwmacz vd vs1 vs2 vs3 mask conv => enc 0xa4000003 [(vd.toNat, 21), (vs1.toNat, 16), (vs2.toNat, 11), (vs3.toNat, 6), (mask.toNat, 4), (conv.toNat, 3)]
  | .vdot4 vd vs1 vs2 vs3 mask conv => enc 0xa4000004 [(vd.toNat, 21), (vs1.toNat, 16), (vs2.toNat, 11), (vs3.toNat, 6), (mask.toNat, 4), (conv.toNat, 3)]
  | .vdot4z vd vs1 vs2 vs3 mask conv => enc 0xa4000005 [(vd.toNat, 21), (vs1.toNat, 16), (vs2.toNat, 11), (vs3.toNat, 6), (mask.toNat, 4), (conv.toNat, 3)]
  | .vfeq vd vs1 vs2 mask conv scalar ty => enc 0xa8000000 [(vd.toNat, 21), (vs1.toNat, 16), (vs2.toNat, 11), (mask.toNat, 8), (conv.toNat, 7), (scalar.toNat, 2), (ty.toNat, 0)]
  | .vfne vd vs1 vs2 mask conv scalar ty => enc 0xa8000008 [(vd.toNat, 21), (vs1.toNat, 16), (vs2.toNat, 11), (mask.toNat, 8), (conv.toNat, 7), (scalar.toNat, 2), (ty.toNat, 0)]
  | .vflt vd vs1 vs2 mask conv scalar ty => enc 0xa8000010 [(vd.toNat, 21), (vs1.toNat, 16), (vs2.toNat, 11), (mask.toNat, 8), (conv.toNat, 7), (scalar.toNat, 2), (ty.toNat, 0)]
  | .vfle vd vs1 vs2 mask conv scalar ty => enc 0xa8000018 [(vd.toNat, 21), (vs1.toNat, 16), (vs2.toNat, 11), (mask.toNat, 8), (conv.toNat, 7), (scalar.toNat, 2), (ty.toNat, 0)]
  | .vfgt vd vs1 vs2 mask conv scalar ty => enc 0xa8000020 [(vd.toNat, 21), (vs1.toNat, 16), (vs2.toNat, 11), (mask.toNat, 8), (conv.toNat, 7), (scalar.toNat, 2), (ty.toNat, 0)]
  | .vfge vd vs1 vs2 mask conv scalar ty => enc 0xa8000028 [(vd.toNat, 21), (vs1.toNat, 16), (vs2.toNat, 11), (mask.toNat, 8), (conv.toNat, 7), (scalar.toNat, 2), (ty.toNat, 0)]
  | .vfclass vd vs1 mask conv ty => enc 0xa8000030 [(vd.toNat, 21), (vs1.toNat, 16), (mask.toNat, 8), (conv.toNat, 7), (ty.toNat, 0)]
  | .vcvt vd vs1 mask conv alt src dst => enc 0xac000000 [(vd.toNat, 21), (vs1.toNat, 16), (mask.toNat, 8), (conv.toNat, 7), (alt.toNat, 6), (src.toNat, 3), (dst.toNat, 0)]
  | .vbsq vd vs1 vs3 mask conv fmt => enc 0xb0000000 [(vd.toNat, 21), (vs1.toNat, 16), (vs3.toNat, 6), (mask.toNat, 4), (conv.toNat, 3), (fmt.toNat, 0)]
  | .vbsdq vd vs1 vs3 mask conv fmt => enc 0xb0000004 [(vd.toNat, 21), (vs1.toNat, 16), (vs3.toNat, 6), (mask.toNat, 4), (conv.toNat, 3), (fmt.toNat, 0)]
  | .vslideup vd vs1 vs2 mask conv ty => enc 0xb4000004 [(vd.toNat, 21), (vs1.toNat, 16), (vs2.toNat, 11), (mask.toNat, 8), (conv.toNat, 7), (ty.toNat, 0)]
  | .vslidedown vd vs1 vs2 mask conv ty => enc 0xb400000c [(vd.toNat, 21), (vs1.toNat, 16), (vs2.toNat, 11), (mask.toNat, 8), (conv.toNat, 7), (ty.toNat, 0)]
  | .vrgather vd vs1 vs2 mask conv scalar ty => enc 0xb4000010 [(vd.toNat, 21), (vs1.toNat, 16), (vs2.toNat, 11), (mask.toNat, 8), (conv.toNat, 7), (scalar.toNat, 2), (ty.toNat, 0)]
  | .vcompress vd vs1 mask conv ty => enc 0xb4000018 [(vd.toNat, 21), (vs1.toNat, 16), (mask.toNat, 8), (conv.toNat, 7), (ty.toNat, 0)]
  | .vrowbc vd vs1 vs2 mask conv ty => enc 0xb4000024 [(vd.toNat, 21), (vs1.toNat, 16), (vs2.toNat, 11), (mask.toNat, 8), (conv.toNat, 7), (ty.toNat, 0)]
  | .vredsum vd vs1 vs2 mask conv toX perRow => enc 0xb8000000 [(vd.toNat, 21), (vs1.toNat, 16), (vs2.toNat, 11), (mask.toNat, 8), (conv.toNat, 7), (toX.toNat, 2), (perRow.toNat, 1)]
  | .vredmin vd vs1 vs2 mask conv toX perRow => enc 0xb8000008 [(vd.toNat, 21), (vs1.toNat, 16), (vs2.toNat, 11), (mask.toNat, 8), (conv.toNat, 7), (toX.toNat, 2), (perRow.toNat, 1)]
  | .vredminz vd vs1 vs2 mask conv toX perRow => enc 0xb8000010 [(vd.toNat, 21), (vs1.toNat, 16), (vs2.toNat, 11), (mask.toNat, 8), (conv.toNat, 7), (toX.toNat, 2), (perRow.toNat, 1)]
  | .vredmax vd vs1 vs2 mask conv toX perRow => enc 0xb8000018 [(vd.toNat, 21), (vs1.toNat, 16), (vs2.toNat, 11), (mask.toNat, 8), (conv.toNat, 7), (toX.toNat, 2), (perRow.toNat, 1)]
  | .vredmaxz vd vs1 vs2 mask conv toX perRow => enc 0xb8000020 [(vd.toNat, 21), (vs1.toNat, 16), (vs2.toNat, 11), (mask.toNat, 8), (conv.toNat, 7), (toX.toNat, 2), (perRow.toNat, 1)]
  | .vfredo vd vs1 vs2 mask conv => enc 0xb8000028 [(vd.toNat, 21), (vs1.toNat, 16), (vs2.toNat, 11), (mask.toNat, 8), (conv.toNat, 7)]
  | .vfredoBf16 vd vs1 vs2 mask conv => enc 0xb8000030 [(vd.toNat, 21), (vs1.toNat, 16), (vs2.toNat, 11), (mask.toNat, 8), (conv.toNat, 7)]
  | .vfredt vd vs1 vs2 mask conv toX perRow => enc 0xb8000038 [(vd.toNat, 21), (vs1.toNat, 16), (vs2.toNat, 11), (mask.toNat, 8), (conv.toNat, 7), (toX.toNat, 2), (perRow.toNat, 1)]
  | .vfredtBf16 vd vs1 vs2 mask conv toX perRow => enc 0xb8000040 [(vd.toNat, 21), (vs1.toNat, 16), (vs2.toNat, 11), (mask.toNat, 8), (conv.toNat, 7), (toX.toNat, 2), (perRow.toNat, 1)]
  | .vfredmin vd vs1 vs2 mask conv toX perRow => enc 0xb8000048 [(vd.toNat, 21), (vs1.toNat, 16), (vs2.toNat, 11), (mask.toNat, 8), (conv.toNat, 7), (toX.toNat, 2), (perRow.toNat, 1)]
  | .vfredminBf16 vd vs1 vs2 mask conv toX perRow => enc 0xb8000050 [(vd.toNat, 21), (vs1.toNat, 16), (vs2.toNat, 11), (mask.toNat, 8), (conv.toNat, 7), (toX.toNat, 2), (perRow.toNat, 1)]
  | .vfredmax vd vs1 vs2 mask conv toX perRow => enc 0xb8000058 [(vd.toNat, 21), (vs1.toNat, 16), (vs2.toNat, 11), (mask.toNat, 8), (conv.toNat, 7), (toX.toNat, 2), (perRow.toNat, 1)]
  | .vfredmaxBf16 vd vs1 vs2 mask conv toX perRow => enc 0xb8000060 [(vd.toNat, 21), (vs1.toNat, 16), (vs2.toNat, 11), (mask.toNat, 8), (conv.toNat, 7), (toX.toNat, 2), (perRow.toNat, 1)]
  | .vexit vd vs1 conv => enc 0xb8000068 [(vd.toNat, 21), (vs1.toNat, 16), (conv.toNat, 7)]
  | .lsplit rs1 rs2 mask => enc 0xbc000000 [(rs1.toNat, 16), (rs2.toNat, 11), (mask.toNat, 8)]
  | .ljoin => enc 0xbc000001 []
  | .vld vd base idx token orient conv mask width => enc 0xc0000000 [(vd.toNat, 21), (base.toNat, 16), (idx.toNat, 11), (token.toNat, 8), (orient.toNat, 7), (conv.toNat, 6), (mask.toNat, 3), (width.toNat, 0)]
  | .vldCw vd base idx token orient conv chunk width => enc 0xc0000004 [(vd.toNat, 21), (base.toNat, 16), (idx.toNat, 11), (token.toNat, 8), (orient.toNat, 7), (conv.toNat, 6), (chunk.toNat, 3), (width.toNat, 0)]
  | .vldIndexed vd base idx token orient conv mask width => enc 0xc4000000 [(vd.toNat, 21), (base.toNat, 16), (idx.toNat, 11), (token.toNat, 8), (orient.toNat, 7), (conv.toNat, 6), (mask.toNat, 3), (width.toNat, 0)]
  | .vldIndexedCw vd base idx token orient conv chunk width => enc 0xc4000004 [(vd.toNat, 21), (base.toNat, 16), (idx.toNat, 11), (token.toNat, 8), (orient.toNat, 7), (conv.toNat, 6), (chunk.toNat, 3), (width.toNat, 0)]
  | .vst vs base idx token orient conv mask unord width => enc 0xc8000000 [(vs.toNat, 21), (base.toNat, 16), (idx.toNat, 11), (token.toNat, 8), (orient.toNat, 7), (conv.toNat, 6), (mask.toNat, 3), (unord.toNat, 2), (width.toNat, 0)]
  | .vstm vs base idx token conv mask unord width => enc 0xc8000080 [(vs.toNat, 21), (base.toNat, 16), (idx.toNat, 11), (token.toNat, 8), (conv.toNat, 6), (mask.toNat, 3), (unord.toNat, 2), (width.toNat, 0)]
  | .vstIndexed vs base idx token orient conv mask unord width => enc 0xcc000000 [(vs.toNat, 21), (base.toNat, 16), (idx.toNat, 11), (token.toNat, 8), (orient.toNat, 7), (conv.toNat, 6), (mask.toNat, 3), (unord.toNat, 2), (width.toNat, 0)]
  | .vstmIndexed vs base idx token conv mask unord width => enc 0xcc000080 [(vs.toNat, 21), (base.toNat, 16), (idx.toNat, 11), (token.toNat, 8), (conv.toNat, 6), (mask.toNat, 3), (unord.toNat, 2), (width.toNat, 0)]
  | .vamoaddW vs base idx token conv mask => enc 0xd0000000 [(vs.toNat, 21), (base.toNat, 16), (idx.toNat, 11), (token.toNat, 8), (conv.toNat, 6), (mask.toNat, 3)]
  | .vamoaddD vs base idx token conv mask => enc 0xd0000001 [(vs.toNat, 21), (base.toNat, 16), (idx.toNat, 11), (token.toNat, 8), (conv.toNat, 6), (mask.toNat, 3)]
  | .vamominW vs base idx token conv mask => enc 0xd0000002 [(vs.toNat, 21), (base.toNat, 16), (idx.toNat, 11), (token.toNat, 8), (conv.toNat, 6), (mask.toNat, 3)]
  | .vamomaxW vs base idx token conv mask => enc 0xd0000003 [(vs.toNat, 21), (base.toNat, 16), (idx.toNat, 11), (token.toNat, 8), (conv.toNat, 6), (mask.toNat, 3)]
  | .vamoaddF32 vs base idx token conv mask => enc 0xd0000004 [(vs.toNat, 21), (base.toNat, 16), (idx.toNat, 11), (token.toNat, 8), (conv.toNat, 6), (mask.toNat, 3)]
  | .vamoaddF16 vs base idx token orient conv mask => enc 0xd0000005 [(vs.toNat, 21), (base.toNat, 16), (idx.toNat, 11), (token.toNat, 8), (orient.toNat, 7), (conv.toNat, 6), (mask.toNat, 3)]
  | .vamoaddBf16 vs base idx token orient conv mask => enc 0xd0000006 [(vs.toNat, 21), (base.toNat, 16), (idx.toNat, 11), (token.toNat, 8), (orient.toNat, 7), (conv.toNat, 6), (mask.toNat, 3)]
  | .vamoaddWDup vs base idx token conv mask => enc 0xd4000000 [(vs.toNat, 21), (base.toNat, 16), (idx.toNat, 11), (token.toNat, 8), (conv.toNat, 6), (mask.toNat, 3)]
  | .vamoaddDDup vs base idx token conv mask => enc 0xd4000001 [(vs.toNat, 21), (base.toNat, 16), (idx.toNat, 11), (token.toNat, 8), (conv.toNat, 6), (mask.toNat, 3)]
  | .vamominWDup vs base idx token conv mask => enc 0xd4000002 [(vs.toNat, 21), (base.toNat, 16), (idx.toNat, 11), (token.toNat, 8), (conv.toNat, 6), (mask.toNat, 3)]
  | .vamomaxWDup vs base idx token conv mask => enc 0xd4000003 [(vs.toNat, 21), (base.toNat, 16), (idx.toNat, 11), (token.toNat, 8), (conv.toNat, 6), (mask.toNat, 3)]
  | .vamoaddF32Dup vs base idx token conv mask => enc 0xd4000004 [(vs.toNat, 21), (base.toNat, 16), (idx.toNat, 11), (token.toNat, 8), (conv.toNat, 6), (mask.toNat, 3)]
  | .vamoaddF16Dup vs base idx token orient conv mask => enc 0xd4000005 [(vs.toNat, 21), (base.toNat, 16), (idx.toNat, 11), (token.toNat, 8), (orient.toNat, 7), (conv.toNat, 6), (mask.toNat, 3)]
  | .vamoaddBf16Dup vs base idx token orient conv mask => enc 0xd4000006 [(vs.toNat, 21), (base.toNat, 16), (idx.toNat, 11), (token.toNat, 8), (orient.toNat, 7), (conv.toNat, 6), (mask.toNat, 3)]
  | .vpin perm base len token => enc 0xd4000007 [(perm.toNat, 21), (base.toNat, 16), (len.toNat, 11), (token.toNat, 8)]
  | .vunpin token => enc 0xd400000f [(token.toNat, 8)]
  | .vspill vs base kind token conv => enc 0xd4000017 [(vs.toNat, 21), (base.toNat, 16), (kind.toNat, 11), (token.toNat, 8), (conv.toNat, 6)]
  | .vfill vd base kind token conv => enc 0xd400001f [(vd.toNat, 21), (base.toNat, 16), (kind.toNat, 11), (token.toNat, 8), (conv.toNat, 6)]
  | .mmul vc va vb fmt fromSp orient conv => enc 0xd8000000 [(vc.toNat, 21), (va.toNat, 16), (vb.toNat, 11), (fmt.toNat, 6), (fromSp.toNat, 5), (orient.toNat, 4), (conv.toNat, 3)]
  | .mmulz vc va vb fmt fromSp orient conv => enc 0xd8000001 [(vc.toNat, 21), (va.toNat, 16), (vb.toNat, 11), (fmt.toNat, 6), (fromSp.toNat, 5), (orient.toNat, 4), (conv.toNat, 3)]
  | .mmulBs vc va vb fmt fromSp orient conv => enc 0xdc000000 [(vc.toNat, 21), (va.toNat, 16), (vb.toNat, 11), (fmt.toNat, 6), (fromSp.toNat, 5), (orient.toNat, 4), (conv.toNat, 3)]
  | .mmulzBs vc va vb fmt fromSp orient conv => enc 0xdc000001 [(vc.toNat, 21), (va.toNat, 16), (vb.toNat, 11), (fmt.toNat, 6), (fromSp.toNat, 5), (orient.toNat, 4), (conv.toNat, 3)]
  | .mzero vc fmt conv => enc 0xe0000000 [(vc.toNat, 21), (fmt.toNat, 6), (conv.toNat, 3)]
  | .mcvt vc vd fmt conv => enc 0xe0000001 [(vc.toNat, 21), (vd.toNat, 16), (fmt.toNat, 6), (conv.toNat, 3)]
  | .mcvtSr vc vd fmt conv => enc 0xe0000002 [(vc.toNat, 21), (vd.toNat, 16), (fmt.toNat, 6), (conv.toNat, 3)]
  | .mdrain vc xc xm fmt conv => enc 0xe4000000 [(vc.toNat, 21), (xc.toNat, 16), (xm.toNat, 11), (fmt.toNat, 6), (conv.toNat, 3)]
  | .mdrainz vc xc xm fmt conv => enc 0xe4000001 [(vc.toNat, 21), (xc.toNat, 16), (xm.toNat, 11), (fmt.toNat, 6), (conv.toNat, 3)]
  | .msend xo xc xm => enc 0xe8000000 [(xo.toNat, 21), (xc.toNat, 16), (xm.toNat, 11)]
  | .mput xv xc xm width => enc 0xe8000001 [(xv.toNat, 21), (xc.toNat, 16), (xm.toNat, 11), (width.toNat, 6)]
  | .mwake xc xm => enc 0xe8000002 [(xc.toNat, 16), (xm.toNat, 11)]
  | .mwait rd xe tag => enc 0xe8000003 [(rd.toNat, 21), (xe.toNat, 11), (tag.toNat, 6)]
  | .mcount rd tag => enc 0xe8000004 [(rd.toNat, 21), (tag.toNat, 6)]
  | .locq rd xc => enc 0xe8000005 [(rd.toNat, 21), (xc.toNat, 16)]
  | .scopyin rd xa xp mask ch => enc 0xec000000 [(rd.toNat, 21), (xa.toNat, 16), (xp.toNat, 11), (mask.toNat, 8), (ch.toNat, 6)]
  | .scopyout rd xa xp mask ch => enc 0xec000001 [(rd.toNat, 21), (xa.toNat, 16), (xp.toNat, 11), (mask.toNat, 8), (ch.toNat, 6)]
  | .scopy2inRow rd xa xp mask ch => enc 0xec000002 [(rd.toNat, 21), (xa.toNat, 16), (xp.toNat, 11), (mask.toNat, 8), (ch.toNat, 6)]
  | .scopy2inCol rd xa xp mask ch => enc 0xec000003 [(rd.toNat, 21), (xa.toNat, 16), (xp.toNat, 11), (mask.toNat, 8), (ch.toNat, 6)]
  | .scopy2outRow rd xa xp mask ch => enc 0xec000004 [(rd.toNat, 21), (xa.toNat, 16), (xp.toNat, 11), (mask.toNat, 8), (ch.toNat, 6)]
  | .scopy2outCol rd xa xp mask ch => enc 0xec000005 [(rd.toNat, 21), (xa.toNat, 16), (xp.toNat, 11), (mask.toNat, 8), (ch.toNat, 6)]
  | .scopyr rd xc xp ch => enc 0xec000006 [(rd.toNat, 21), (xc.toNat, 16), (xp.toNat, 11), (ch.toNat, 6)]
  | .sgatherRow rd vi xp mask ch => enc 0xec000008 [(rd.toNat, 21), (vi.toNat, 16), (xp.toNat, 11), (mask.toNat, 8), (ch.toNat, 6)]
  | .sgatherCol rd vi xp mask ch => enc 0xec000009 [(rd.toNat, 21), (vi.toNat, 16), (xp.toNat, 11), (mask.toNat, 8), (ch.toNat, 6)]
  | .swait rd xt ch => enc 0xec00000c [(rd.toNat, 21), (xt.toNat, 16), (ch.toNat, 6)]
  | .sfault rd xs => enc 0xec00000d [(rd.toNat, 21), (xs.toNat, 16)]
  | .sreplay rd xt ch => enc 0xec00000e [(rd.toNat, 21), (xt.toNat, 16), (ch.toNat, 6)]
  | .warrive chan => enc 0xf0000000 [(chan.toNat, 6)]
  | .wwait chan => enc 0xf0000001 [(chan.toNat, 6)]
  | .wtest rd chan => enc 0xf0000002 [(rd.toNat, 21), (chan.toNat, 6)]
  | .tend => enc 0xf0000008 []
  | .thold xv xc xs => enc 0xf0000009 [(xv.toNat, 21), (xc.toNat, 16), (xs.toNat, 11)]
  | .tready xv xc xs => enc 0xf000000a [(xv.toNat, 21), (xc.toNat, 16), (xs.toNat, 11)]
  | .tenable xv xc xs => enc 0xf000000b [(xv.toNat, 21), (xc.toNat, 16), (xs.toNat, 11)]
  | .tpost xs xp => enc 0xf000000c [(xs.toNat, 16), (xp.toNat, 11)]
  | .glaunch rd xs => enc 0xf0000010 [(rd.toNat, 21), (xs.toNat, 16)]
  | .wreserve rd xq xn => enc 0xf0000011 [(rd.toNat, 21), (xq.toNat, 16), (xn.toNat, 11)]
  | .wcommit xq xi => enc 0xf0000012 [(xq.toNat, 16), (xi.toNat, 11)]
  | .qpush vs1 xs2 mask conv => enc 0xf4000000 [(vs1.toNat, 16), (xs2.toNat, 11), (mask.toNat, 8), (conv.toNat, 7)]
  | .qend xs2 => enc 0xf4000001 [(xs2.toNat, 11)]
  | .pxlock vs1 xs2 mask conv => enc 0xf4000002 [(vs1.toNat, 16), (xs2.toNat, 11), (mask.toNat, 8), (conv.toNat, 7)]
  | .pxunlock vs1 mask conv => enc 0xf4000003 [(vs1.toNat, 16), (mask.toNat, 8), (conv.toNat, 7)]
  | .pxskip vs1 xs2 mask conv => enc 0xf4000004 [(vs1.toNat, 16), (xs2.toNat, 11), (mask.toNat, 8), (conv.toNat, 7)]
  | .tsample vd vs1 xs2 mask conv token => enc 0xf4000010 [(vd.toNat, 21), (vs1.toNat, 16), (xs2.toNat, 11), (mask.toNat, 8), (conv.toNat, 7), (token.toNat, 0)]
  | .tsampleLod vd vs1 xs2 mask conv token => enc 0xf4000018 [(vd.toNat, 21), (vs1.toNat, 16), (xs2.toNat, 11), (mask.toNat, 8), (conv.toNat, 7), (token.toNat, 0)]
  | .rquery vd vs1 xs2 mask conv token => enc 0xf4000020 [(vd.toNat, 21), (vs1.toNat, 16), (xs2.toNat, 11), (mask.toNat, 8), (conv.toNat, 7), (token.toNat, 0)]
  | .rqueryAny vd vs1 xs2 mask conv token => enc 0xf4000028 [(vd.toNat, 21), (vs1.toNat, 16), (xs2.toNat, 11), (mask.toNat, 8), (conv.toNat, 7), (token.toNat, 0)]
  | .sget rd num => enc 0xf8000000 [(rd.toNat, 21), (num.toNat, 0)]
  | .sput rs1 num => enc 0xf8001000 [(rs1.toNat, 16), (num.toNat, 0)]
  | .trap num => enc 0xf8002000 [(num.toNat, 0)]
  | .sret => enc 0xf8003000 []
  | .mret => enc 0xf8004000 []
  | .ifence => enc 0xf8005000 []
  | .cinv rs1 => enc 0xf8006000 [(rs1.toNat, 16)]
  | .cinvall => enc 0xf8006100 []
  | .cwb rs1 => enc 0xf8006200 [(rs1.toNat, 16)]
  | .cwbinv rs1 => enc 0xf8006300 [(rs1.toNat, 16)]
  | .halt => enc 0xf8007000 []
  | .brk num => enc 0xf8008000 [(num.toNat, 0)]
  | .illegalEncoding _ => none
  | .hartStateMachineCheck _ _ => none
  | .taskStart _ => none
  | .budgetExpiry _ => none
  | .freezeMarkArrival _ _ _ => none
  | .coreCompleteReport _ => none
  | .runAheadStart _ => none
  | .ownerReserve _ => none
  | .messageDelivery _ => none
  | .drainDelivery _ => none
  | .scopyrPartDelivery _ => none
  | .taskBitMessage _ => none
  | .locqQuery _ _ => none
  | .locqReply _ _ => none
  | .fragmentArrival _ _ _ => none
  | .reassemblyTimerExpiry _ _ _ => none
  | .decodedPacketAccepted _ _ _ => none
  | .sprayAck _ _ _ _ => none
  | .sprayRequest _ _ _ _ => none
  | .sprayProbe _ _ _ => none
  | .probeIntervalExpiry _ _ => none
  | .weirBroadcast _ _ => none
  | .sluiceChunk _ _ _ _ => none
  | .prgResponse _ _ => none
  | .pageRequestTimeout _ => none
  | .atsInvalidate _ _ => none
  | .frameOpen _ => none
  | .binRecord _ => none
  | .qendMarkArrival _ => none
  | .tileResolve _ => none
  | .tileNotification _ _ => none
  | .frameComplete _ => none
  | .pixelLockGrant _ _ _ => none
  | .ctxActivate _ => none
  | .ctxSave _ => none
  | .saveRecordWrite _ => none
  | .ctxRestore _ => none
  | .ctxRelease _ => none
  | .ctxInvalidCommand _ _ => none
  | .queueEnable _ => none
  | .queueDisable _ => none
  | .doorbell _ _ => none
  | .qerrClear _ => none
  | .gangLaunchPacket _ => none
  | .framePacket _ => none
  | .indirectPacket _ => none
  | .signalPacket _ => none
  | .loadPacket _ => none
  | .shootdownPacket _ => none
  | .launchCompletion _ => none
  | .poolDispatch _ _ => none
  | .hostDeviceMemoryAccess _ => none
  | .hostAtomicCompleter _ => none
  | .hostBar0AccessError _ _ => none
  | .hostSnoop _ => none
  | .biasFlipGo _ _ => none
  | .biasPageFlip => none
  | .postAreaScan _ _ => none
  | .functionLevelReset => none
  | .hotReset => none
  | .powerOn => none
  | .standbyEntry => none
  | .standbyExit _ => none
  | .correctedError _ _ _ => none
  | .leakTick _ => none
  | .patrolScrub _ _ => none
  | .basinHeartbeat _ _ => none
  | .agentFailed _ _ => none
  | .fatalSequence _ => none
  | .siphonHold _ => none
  | .siphonCopy _ => none
  | .siphonState _ => none
  | .siphonFlip _ => none
  | .siphonRelease _ => none
  | .siphonAbort _ _ => none
  | .waitCycleWalk _ => none
  | .waitCycleConfirm _ => none
  | .scanSite _ _ => none
  | .linkFlitCrcDrop _ _ => none
  | .pathLeakTick _ _ => none
  | .pathRetrain _ _ _ => none
  | .leaseHeartbeatSend _ => none
  | .leaseHeartbeatReceive _ _ _ _ => none
  | .leaseLapse _ => none
  | .leaseClaim _ _ _ => none
  | .romSidebandTimeout _ => none
  | .selfTestComplete _ _ => none
  | .discoveryFlood _ => none
  | .discoveryReport _ _ => none
  | .discoveryTimeout _ => none
  | .multicastGo _ _ _ => none
  | .multicastAck _ _ => none
  | .multicastTimeout _ => none
  | .siteasgWrite _ _ => none
  | .sitegoGo _ _ => none
  | .sitegoClr _ => none
  | .ncevPop _ => none
  | .ncpost _ _ _ => none
  | .memoryTrainingStep _ _ _ _ => none
  | .ucieTraining _ _ _ => none
  | .fabricPortTraining _ _ _ => none
  | .pcieTraining _ => none
  | .pkgidWrite _ => none
  | .pkgidTimeout => none
  | .powerWindow _ _ => none
  | .spdmGetVersion => none
  | .spdmGetCapabilities => none
  | .spdmNegotiateAlgorithms => none
  | .spdmGetDigests => none
  | .spdmGetCertificate _ => none
  | .spdmChallenge _ _ => none
  | .spdmGetMeasurements _ => none
  | .spdmUnsupported _ => none
  | .registerWrite _ _ _ _ => none
  | .leaseHeartbeatAck _ _ _ _ => none
  | .leaderLeaseExpiry _ => none
  | .claimRetry _ => none
  | .hostWriteRefusal _ _ => none
  | .configurationRequest _ _ _ => none
  | .storePerformed _ _ => none

/-- The four bytes of a word as they lie in memory, lowest address first (R10, R75). -/
def wordBytes (w : BitVec 32) : List Byte :=
  [w.extractLsb' 0 8, w.extractLsb' 8 8, w.extractLsb' 16 8, w.extractLsb' 24 8]

/-- The word whose bytes lie in memory in this order (R10, R75). -/
def wordOfBytes : List Byte → Option (BitVec 32)
  | [a, b, c, d] => some (d ++ c ++ b ++ a)
  | _ => none

noncomputable section

/-- Decoding of an instruction's bytes as the hardware stores them; refused where they are not one word. -/
def decodeBytes (bs : List Byte) : Option Instr :=
  match wordOfBytes bs with
  | none => none
  | some w => (decode w).toOption

/-- The instruction the decoder reads from the `nbits` low bits `w` of a word, the bits above being zero: the bytes
are laid out as R75 stores them and given to the decoder. -/
def decodeTableWord (nbits w : Nat) : Option Instr :=
  decodeBytes (wordBytes (BitVec.ofNat 32 (w % 2 ^ nbits)))

end

end Sys2Proof
end

