-- ==== Sys2Proof/Machine/Lanes.lean ====
section
/-! DEFINITION. Lane threads: `lsplit` and `ljoin`, which instructions a lane thread executes, and what stops it (R38, R39,
R139 to R142). -/

namespace Sys2Proof.Machine

/-- A word that a lane thread executes: the lane subset, which is majors 0x01 to 0x1B and `ljoin` (R140), and an illegal encoding, whose trap
comes first (R85, R142). -/
def laneWord (w : BitVec 32) : Bool :=
  let m := w.toNat / 2 ^ 26
  decide (subOf w.toNat ≠ 0) || decide (m ≤ 0x1B) || (decide (m = 0x2F) && decide (w.toNat % 2 ^ 7 = 1))

/-- The word a lane thread executes next, from the lane instruction buffer (R39); none past its end, where a lane that runs on stops the hart as
at a word outside the subset (log 41). -/
def laneFetch (s : State) (r : LaneRegion) : Option (BitVec 32) :=
  let o := s.pc.toNat - r.base.toNat
  if r.base.toNat ≤ s.pc.toNat ∧ o < 4 * r.n then s.c.laneBuf[o / 4]? else none

/-- An address lies outside the region (R140). -/
def LaneRegion.outside (r : LaneRegion) (b : Word) : Bool :=
  !(decide (r.base.toNat ≤ b.toNat) && decide (b.toNat < r.base.toNat + 4 * r.n))

/-- The instruction transfers control: a jump, or a branch that is taken (R103). -/
def transfers (i : Instr) (s : State) : Bool :=
  match i with
  | .jal _ _ | .jalr _ _ _ => true
  | .beq a b _ => decide (s.x a = s.x b)
  | .bne a b _ => decide (s.x a ≠ s.x b)
  | .blt a b _ => (s.x a).slt (s.x b)
  | .bge a b _ => !(s.x a).slt (s.x b)
  | _ => false

/-- The lane thread stops the whole hart: illegal operand, `tval` the lane number, `epc` the offending word (R39, R140). -/
def laneTrap (s : State) (lane : Nat) : Out := raise s (Trap.operand (BitVec.ofNat 64 lane))

/-- The lowest lane that can run. -/
def LaneRegion.next (r : LaneRegion) : Option Nat :=
  (List.range 16).find? fun i => let l := r.lanes.get (Fin.ofNat 16 i); l.started && !l.joined

/-! ## Starting and ending a region (R139, R141) -/

/-- Copies `n` words from `va` through the fetch path. -/
def fetchWords (s : State) (va : Word) : Nat → Res (List (BitVec 32) × State)
  | 0 => .ok ([], s)
  | n + 1 =>
    match fetchAt s va with
    | .error e => .error e
    | .ok (w, s) =>
      match fetchWords s (va + 4) n with
      | .error e => .error e
      | .ok (ws, s) => .ok (w :: ws, s)

/-- The hart whose region holds the lane instruction buffer, or that is before this one in the queue for it (R39, R276). -/
def Core.laneAhead (c : Core) (h : Nat) : Option Nat :=
  (c.laneHolder.orElse fun _ => c.laneWait.head?).filter (· ≠ h)

/-- The lanes a mask starts. -/
def lanesOf (s : State) (mask : BitVec 3) (base : Word) : Vector Lane 16 :=
  Vector.ofFn fun l => { started := s.h.maskBit mask 0 l.val, joined := false, pc := base }

/-- A lane region begins: the buffer holds its words, the hart stays at `lsplit` until the region ends. -/
def beginRegion (s : State) (base : Word) (ws : List (BitVec 32)) (lanes : Vector Lane 16) : State :=
  let s := s.setC { s.c with laneBuf := ws, laneHolder := some s.hartNo, laneWait := s.c.laneWait.filter (· ≠ s.hartNo) }
  s.setH { s.h.running with
    checker := s.checkerNext, lanes := some { base := base, n := ws.length, lanes := lanes }
    trap := { s.h.trap with status := { s.h.trap.status with lthr := true } } }

/-- `lsplit`: R139. -/
def execLsplit (rs1 rs2 : BitVec 5) (mask : BitVec 3) (s : State) : Out :=
  let n := s.x rs2
  let base := s.x rs1
  if n = 0 ∨ 256 < n.toNat then raise s (Trap.operand n)
  else if base.toNat % 4 ≠ 0 then raise s (Trap.of 0x041 base)
  else if (lanesOf s mask base).toList.all fun l => !l.started then finish s
  else
    match s.c.laneAhead s.hartNo with
    | some k =>
      let c := s.c
      waiting (s.setC { c with laneWait := if c.laneWait.contains s.hartNo then c.laneWait else c.laneWait ++ [s.hartNo] })
        0x0D (BitVec.ofNat 6 k) 0
    | none =>
      match fetchWords s base n.toNat with
      | .error (s, t) => raise s t
      | .ok (ws, s) => .next (beginRegion s base ws (lanesOf s mask base))

/-- The region ends: `lthr` clears, the buffer is free, the hart continues after `lsplit` (R141), and its next vector-queue instruction starts a
convoy (R33). -/
def endRegion (s : State) : State :=
  let s := s.setC { s.c with laneHolder := none }
  s.setH { s.h.running with
    lanes := none, pc := s.h.pc + 4, convoy := [], fresh := true
    trap := { s.h.trap with status := { s.h.trap.status with lthr := false } } }

/-- `ljoin`: R141. -/
def execLjoin (s : State) : Out :=
  match s.lane, s.h.lanes with
  | some l, some r =>
    let ls := r.lanes.set (l % 16) { r.lanes.get (Fin.ofNat 16 l) with joined := true } (Nat.mod_lt _ (by decide))
    if ls.toList.all fun l => !l.started || l.joined then .next (endRegion s)
    else .next (s.setH { s.h with lanes := some { r with lanes := ls } })
  | _, _ => raise s (Trap.operand s.wordVal)

end Sys2Proof.Machine
end

