-- ==== Sys2Proof/Machine/Matrix.lean ====
section
/-! DEFINITION. Matrix instructions: majors 0x36 to 0x39 (R70, R71, R168 to R183). -/

namespace Sys2Proof.Machine

/-! ## Formats (R82, R168) -/

/-- Input formats of A and B. -/
def matFmts (code : BitVec 5) : FpFmt × FpFmt :=
  if code = 0 then (.f64, .f64) else if code = 1 then (.f32, .f32) else if code = 2 then (.bf16, .bf16)
  else if code = 3 then (.f16, .f16) else if code = 4 then (.e4m3, .e4m3) else if code = 5 then (.e4m3, .e5m2)
  else if code = 6 then (.e5m2, .e4m3) else if code = 7 then (.e5m2, .e5m2) else (.e2m1, .e2m1)

/-- Steps K. -/
def matK (code : BitVec 5) : Nat :=
  if code.toNat ≤ 1 then 8 else if code.toNat ≤ 3 then 16 else if code.toNat ≤ 7 then 32 else 64

/-- Slot and accumulator width s. -/
def matS (code : BitVec 5) : Nat := if code = 0 then 64 else 32

/-- Input width w. -/
def matW (code : BitVec 5) : Nat := fpWidth (matFmts code).1

/-! ## Operands (R169 to R172) -/

/-- Where a B tile lies. -/
inductive BSource where
  | regs (vb : Nat)
  | scratch (base : Nat) (col : Bool)
  deriving DecidableEq, Repr

/-- Scratchpad offset of image word (q, c) (R171). -/
def imageOff (base : Nat) (col : Bool) (q c : Nat) : Nat :=
  if col then base + 512 * c + 4 * q else base + 512 * q + 4 * c

/-- `n` bits from bit `lo` of image row q; a value crosses a word only where it is 64 bits wide (R171). -/
def imageBits (s : State) (base : Nat) (col : Bool) (q lo n : Nat) : Nat :=
  let w := fun c => readLE s.c.sp (imageOff base col q c) 4
  bitsOf (w (lo / 32) + if 32 < n then 2 ^ 32 * w (lo / 32 + 1) else 0) (lo % 32) n

/-- b(k, i) (R170, R171). -/
def matB (s : State) (code : BitVec 5) (b : BSource) (k i : Nat) : Nat :=
  let p := matK code / 8
  let lo := matS code * i + matW code * (k % p)
  match b with
  | .regs vb => bitsOf (s.h.row (vb + k / p)).toNat lo (matW code)
  | .scratch base col => imageBits s base col (k / p) lo (matW code)

/-- a(j, k) (R169). -/
def matA (s : State) (code : BitVec 5) (va j k : Nat) : Nat :=
  bitsOf (s.h.row va).toNat (matW code * (j * matK code + k)) (matW code)

/-- A byte of the scale register (R172). -/
def scaleByte (s : State) (va n : Nat) : Byte := BitVec.ofNat 8 (bitsOf (s.h.row (va + 1)).toNat (8 * n) 8)

/-! ## Accumulation (R70, R71) -/

/-- The exact sum of two numbers, each a mantissa and a power of two. -/
def exactAdd (a b : Int × Int) : Int × Int :=
  let e := min a.2 b.2
  (a.1 * 2 ^ (a.2 - e).toNat + b.1 * 2 ^ (b.2 - e).toNat, e)

/-- A finite value as a signed mantissa and a power of two; any other value as zero. -/
def finitePart : FVal → Int × Int
  | .fin n m e => (if n then -(m : Int) else (m : Int), e)
  | _ => (0, 0)

def isInf (neg : Bool) : FVal → Bool
  | .inf n => n == neg
  | _ => false

/-- The value is −0. -/
def isNegZero : FVal → Bool
  | .fin n m _ => n && m == 0
  | _ => false

/-- One accumulator element by one exact sum, rounded once to FP32 in RNE (R71). -/
def exactDot (c : FVal) (ab : List (FVal × FVal)) : Nat × Flags :=
  let ps := ab.map fun p => (exactMul p.1 p.2).1
  let sig := sigFlag c ||| ab.foldl (fun f p => f ||| sigFlag p.1 ||| sigFlag p.2) 0
  if isNan c || ab.any (fun p => isNan p.1 || isNan p.2) then (canonNan .f32, sig)
  else
    let pos := ps.any (isInf false)
    let neg := ps.any (isInf true)
    if ps.any isNan || (pos && neg) || (pos && isInf true c) || (neg && isInf false c) then (canonNan .f32, flagNV)
    else if pos || isInf false c then (infBits .f32 false, 0)
    else if neg || isInf true c then (infBits .f32 true, 0)
    else
      let t := ps.foldl (fun a p => exactAdd a (finitePart p)) (finitePart c)
      if t.1 = 0 then (zeroBits .f32 (isNegZero c && ps.all isNegZero), 0)
      else roundTo .f32 false .rne (decide (t.1 < 0)) t.1.natAbs t.2 false

/-- One accumulator element by K fused steps in `frm` (R70). -/
def fusedDot (f : FpFmt) (m : Rnd) (c : Nat) (ab : List (Nat × Nat)) : Nat × Flags :=
  ab.foldl (fun a p => let r := fFma f m false false p.1 p.2 a.1; (r.1, a.2 ||| r.2)) (c, 0)

/-- The new value of accumulator element (j, i) and its flags (R174). -/
def matElem (s : State) (code : BitVec 5) (va : Nat) (b : BSource) (bs : Bool) (c j i : Nat) : Nat × Flags :=
  let (fa, fb) := matFmts code
  let ks := List.range (matK code)
  if code.toNat ≤ 1 then
    fusedDot fa s.rnd c (ks.map fun k => (matA s code va j k, matB s code b k i))
  else
    let q := matK code / 32
    exactDot (fpDecode .f32 c) (ks.map fun k =>
      let x := fpDecode fa (matA s code va j k)
      let y := fpDecode fb (matB s code b k i)
      if bs then (fScale (scaleByte s va (256 + q * j + k / 32)) x, fScale (scaleByte s va (q * i + k / 32)) y)
      else (x, y))

/-! ## Multiply (R173 to R177) -/

/-- Matrix instructions require `vstart` = 0, unless `vl` = 0 (R175). -/
def checkMatStart (s : State) : Option Trap := need (s.vl = 0 || decide (s.h.shape.vstart = 0)) s.h.shape.vstart

/-- Registers of the operands that the C group must not contain. -/
def matNamed (va : BitVec 5) (b : BSource) (bs : Bool) : List Nat :=
  [va.toNat] ++ (if bs then [va.toNat + 1] else []) ++
    match b with
    | .regs vb => (List.range 8).map (vb + ·)
    | .scratch _ _ => []

/-- The B-image words read, in the order the elements use them: element, image row, word (R171). -/
def imageWords (s : State) (code : BitVec 5) : List (Nat × Nat × Nat) :=
  let n := matS code / 32
  (List.range s.vl).flatMap fun i => (List.range 8).flatMap fun q => (List.range n).map fun c => (i, q, n * i + c)

/-- Range and alignment of a scratchpad B tile (R175). -/
def checkImage (s : State) (code : BitVec 5) (b : BSource) : Option Trap :=
  match b with
  | .regs _ => none
  | .scratch base col =>
    if base % 4 ≠ 0 then some (Trap.of 0x0E0 (BitVec.ofNat 64 base))
    else if (imageWords s code).any fun w => decide (0x40000 < imageOff base col w.2.1 w.2.2 + 4) then
      some (Trap.of 0x0E2 (BitVec.ofNat 64 base))
    else none

/-- The first image word that is uncorrectable, as consumed poison at the first C position that reads it (R176). -/
def imagePoison (s : State) (code : BitVec 5) (b : BSource) : Option Trap :=
  match b with
  | .regs _ => none
  | .scratch base col =>
    (imageWords s code).findSome? fun w =>
      let o := imageOff base col w.2.1 w.2.2
      (spBadAt s.c o 4).map fun x => Trap.poison 3 (BitVec.ofNat 64 (4 * x)) 0 w.1

/-- Writes the C group whole (R174). -/
def matWrite (s : State) (vc : BitVec 5) (w : Nat) (r : Nat → Nat → Nat × Flags) : State :=
  fpPut s vc w (tile s.vrows s.vl) r

/-- A multiply (R174, R175). -/
def matMul (zero bs : Bool) (vc va vb fmt : BitVec 5) (fromSp orient conv : Bool) (s : State) : Out :=
  let w := matS fmt
  let b := if fromSp then BSource.scratch (s.x vb).toNat orient else BSource.regs vb.toNat
  let cregs := groupRegs s vc
  vecMem s { conv := conv, units := unitMatrix ||| (if fromSp then unitScratch else 0), cross := true
             rv := (if zero then [] else cregs) ++ matNamed va b bs, rm := [], wv := cregs, wm := [] }
    (firstTrap [checkMatStart s, need (s.sew = w) s.wordVal, checkGroup s vc,
      if fromSp then none else checkGroup8 vb, need (!(bs && decide (va = 31))) 31,
      need (!(matNamed va b bs).any cregs.contains) (vc.setWidth 64)])
    fun s =>
      match (if s.vl = 0 then none else (checkImage s fmt b).orElse fun _ => imagePoison s fmt b) with
      | some t => .error (s.stopAt 0 0, t)
      | none =>
        .ok (matWrite s vc w fun j i => matElem s fmt va.toNat b bs (if zero then 0 else s.h.elem vc.toNat w j i) j i)

/-- `mmul`: R174. -/
def execMmul (vc va vb fmt : BitVec 5) (fromSp orient conv : Bool) (s : State) : Out :=
  matMul false false vc va vb fmt fromSp orient conv s

/-- `mmulz`: R174. -/
def execMmulz (vc va vb fmt : BitVec 5) (fromSp orient conv : Bool) (s : State) : Out :=
  matMul true false vc va vb fmt fromSp orient conv s

/-- `mmul.bs`: R172, R174. -/
def execMmulBs (vc va vb fmt : BitVec 5) (fromSp orient conv : Bool) (s : State) : Out :=
  matMul false true vc va vb fmt fromSp orient conv s

/-- `mmulz.bs`: R172, R174. -/
def execMmulzBs (vc va vb fmt : BitVec 5) (fromSp orient conv : Bool) (s : State) : Out :=
  matMul true true vc va vb fmt fromSp orient conv s

/-! ## Zeroing and conversion (R179, R180) -/

/-- `mzero`: R179. -/
def execMzero (vc fmt : BitVec 5) (conv : Bool) (s : State) : Out :=
  let w := matS fmt
  vecOp s { conv := conv, units := unitMatrix, cross := true, rv := [], rm := [], wv := groupRegs s vc, wm := [] }
    (firstTrap [checkMatStart s, need (s.sew = w) s.wordVal, checkGroup s vc])
    fun s => matWrite s vc w fun _ _ => (0, 0)

/-- The destination format of a code of R180. -/
def drainFmt (code : BitVec 5) : FpFmt :=
  if code = 0 then .f64 else if code = 1 then .f32 else if code = 2 then .bf16 else if code = 3 then .f16
  else if code = 4 then .e4m3 else if code = 7 then .e5m2 else .e2m1

/-- The accumulator's format (R180). -/
def accFmt (s : State) : FpFmt := if s.sew = 64 then .f64 else .f32

/-- C element (j, i) converted to a destination code; a code of the accumulator's own format copies it (R180). -/
def convertAcc (s : State) (code : BitVec 5) (draw : Option (BitVec 16)) (v : Nat) : Nat × Flags :=
  if drainFmt code = accFmt s then (v, 0)
  else fConvert (accFmt s) (drainFmt code) (decide (code = 7)) s.rnd draw v

/-- A conversion of the C group into a group (R180). -/
def matCvt (sr : Bool) (vc vd fmt : BitVec 5) (conv : Bool) (s : State) : Out :=
  vecOp s { conv := conv, units := unitMatrix, cross := true, rv := groupRegs s vc, rm := [], wv := groupRegs s vd, wm := [] }
    (firstTrap [checkMatStart s, need (s.sew = if fmt = 1 then 64 else 32) s.wordVal, checkGroup s vc, checkGroup s vd])
    fun s =>
      fpPut s vd (fpWidth (drainFmt fmt)) (tile s.vrows s.vl) fun j i =>
        let v := s.h.elem vc.toNat s.sew j i
        convertAcc s fmt
          (if sr then some (srDraw s.h.user.srseed (vectorKey vd j i) (drawAddend s.sew v)) else none) v

/-- `mcvt`: R180. -/
def execMcvt (vc vd fmt : BitVec 5) (conv : Bool) (s : State) : Out := matCvt false vc vd fmt conv s

/-- `mcvt.sr`: R180. -/
def execMcvtSr (vc vd fmt : BitVec 5) (conv : Bool) (s : State) : Out := matCvt true vc vd fmt conv s

/-! ## Drains (R181 to R183) -/

/-- `vtype.sew` of a drain (R180). -/
def drainSew (s : State) (code : BitVec 5) : Bool :=
  if code = 0 then s.sew = 64 else if code = 1 then s.sew = 32 || s.sew = 64 else s.sew = 32

/-- Bytes of row j of a drain: elements packed at the destination width, padded to whole words (R313). -/
def drainRowBytes (s : State) (vc code : BitVec 5) (j : Nat) : List Byte :=
  let w := fpWidth (drainFmt code)
  let v := (List.range s.vl).foldr
    (fun i acc => (convertAcc s code none (s.h.elem vc.toNat s.sew j i)).1 % 2 ^ w + 2 ^ w * acc) 0
  leBytes ((s.vl * w + 31) / 32 * 4) v

/-- The message of a drain (R182, R313). -/
def drainMessage (s : State) (vc code : BitVec 5) (dst : BitVec 32) (desc : Word) : Message :=
  let data := (List.range s.vrows).flatMap (drainRowBytes s vc code)
  { newMessage s dst (desc + BitVec.ofNat 64 (data.length * 2 ^ 32)) 3 data with
    rownib := BitVec.ofNat 16 (s.vl * fpWidth (drainFmt code) / 4) }

/-- The checks of a drain after those of its operands, in the order of R175, with the reach last (R184). -/
def drainCheck (s : State) (xc xm : Word) : Option Trap :=
  let o := descOffset xm
  if o % 512 ≠ 0 then some (Trap.of 0x0E0 (BitVec.ofNat 64 o))
  else if 0x40000 < o + 512 * s.vrows then some (Trap.of 0x0E2 (BitVec.ofNat 64 o))
  else if inReach s (xc.setWidth 32) then none else some (Trap.of 0x104 xc)

/-- What a drain leaves: flags, and for `mdrainz` a C group of +0 (R182). -/
def drained (s : State) (zero : Bool) (vc code : BitVec 5) : State :=
  let ps := tile s.vrows s.vl
  let s1 := s.orFlags (orFlagsAt ps fun j i => (convertAcc s code none (s.h.elem vc.toNat s.sew j i)).2)
  if zero then s1.setH (s1.h.putElems vc.toNat s.sew ps fun _ _ => 0) else s1

/-- A drain (R182). -/
def matDrain (zero : Bool) (vc xc xm fmt : BitVec 5) (conv : Bool) (s : State) : Out :=
  let cregs := groupRegs s vc
  let c := s.x xc
  let d := s.x xm
  match firstTrap [checkMatStart s, need (drainSew s fmt) s.wordVal, checkGroup s vc, need (coordOk c) c,
      need (decide (d.toNat < 2 ^ 29)) d] with
  | some t => raise s t
  | none =>
    match joinConvoy s { conv := conv, units := unitMatrix, cross := true, rv := cregs, rm := []
                         wv := if zero then cregs else [], wm := [] } with
    | .error a => refuseConvoy s a
    | .ok cv =>
      match drainCheck s c d with
      | some t => raise s t
      | none =>
        if s.vl = 0 then finish (s.vdone cv)
        else
          match hand s s.agent (drainMessage s vc fmt (c.setWidth 32) d) with
          | none => waiting s 0x05 0 0
          | some t => finish ((drained t zero vc fmt).vdone cv)

/-- `mdrain`: R182. -/
def execMdrain (vc xc xm fmt : BitVec 5) (conv : Bool) (s : State) : Out := matDrain false vc xc xm fmt conv s

/-- `mdrainz`: R182. -/
def execMdrainz (vc xc xm fmt : BitVec 5) (conv : Bool) (s : State) : Out := matDrain true vc xc xm fmt conv s

end Sys2Proof.Machine
end

