-- ==== Sys2Proof/Machine/MsgOps.lean ====
section
/-! DEFINITION. Message and placement instructions: major 0x3A (R188 to R194). -/

namespace Sys2Proof.Machine

/-! ## Sending (R189) -/

/-- Hands a message over and completes, or waits for the message unit (R189). -/
def sendOut (s : State) (m : Message) : Out :=
  match hand s s.agent m with
  | none => waiting s 0x05 0 0
  | some s => finish s

/-- The checks that every sending form makes first, and the reach it checks last (R184, R185, R189). -/
def sendChecks (s : State) (c d : Word) (lenOk : Bool) (mid : Option Trap) : Option Trap :=
  firstTrap [need (coordOk c) c, need (descOk d && lenOk) d, mid,
    if inReach s (c.setWidth 32) then none else some (Trap.of 0x104 c)]

/-- `msend`'s checks of its own and the receiver's range (R189). -/
def msendRange (o d : Word) : Option Trap :=
  let n := descLen d
  let r := descOffset d
  if o.toNat % 4 ≠ 0 then some (Trap.of 0x0E0 o)
  else if r % 4 ≠ 0 then some (Trap.of 0x0E0 (BitVec.ofNat 64 r))
  else if 0x40000 < o.toNat + n then some (Trap.of 0x0E2 o)
  else if 0x40000 < r + n then some (Trap.of 0x0E2 (BitVec.ofNat 64 r))
  else none

/-- The poison that reading `n` bytes of the own scratchpad consumes (R109, R189). -/
def sourcePoison (s : State) (o n : Nat) : Option Trap := (spBadAt s.c o n).map fun w => Trap.poison 3 (BitVec.ofNat 64 (4 * w)) 0 0

/-- `msend`: R189; the bytes are read before the reach is checked. -/
def execMsend (xo xc xm : BitVec 5) (s : State) : Out :=
  let o := s.x xo
  let c := s.x xc
  let d := s.x xm
  let n := descLen d
  match sendChecks s c d (decide (4 ≤ n) && decide (n ≤ 4096) && decide (n % 4 = 0))
      ((msendRange o d).orElse fun _ => sourcePoison s o.toNat n) with
  | some t => raise s t
  | none => sendOut s (newMessage s (c.setWidth 32) d 0 (readBytes s.c.sp o.toNat n))

/-- `mput`'s checks of the receiver's range (R189). -/
def mputRange (n : Nat) (d : Word) : Option Trap :=
  let r := descOffset d
  if r % n ≠ 0 then some (Trap.of 0x0E0 (BitVec.ofNat 64 r))
  else if 0x40000 < r + n then some (Trap.of 0x0E2 (BitVec.ofNat 64 r))
  else none

/-- `mput`: R189. -/
def execMput (xv xc xm : BitVec 5) (width : BitVec 2) (s : State) : Out :=
  let n := 2 ^ width.toNat
  let c := s.x xc
  let d := s.x xm
  match sendChecks s c d (decide (descLen d = 0)) (mputRange n d) with
  | some t => raise s t
  | none => sendOut s { newMessage s (c.setWidth 32) d 1 (leBytes n (s.x xv).toNat) with width := width }

/-- `mwake`: R189. -/
def execMwake (xc xm : BitVec 5) (s : State) : Out :=
  let c := s.x xc
  let d := s.x xm
  match sendChecks s c d (decide (descLen d = 0) && descWake d) none with
  | some t => raise s t
  | none => sendOut s (newMessage s (c.setWidth 32) d 2 [])

/-! ## Mailbox (R192) -/

/-- A core with the queue of a mailbox counter replaced. -/
def Core.setFifo (c : Core) (tag : BitVec 5) (l : List Nat) : Core :=
  { c with mail := { c.mail with fifos := c.mail.fifos.set tag.toNat l tag.isLt } }

def Core.fifo (c : Core) (tag : BitVec 5) : List Nat := c.mail.fifos.get tag.toFin

/-- The peer that `mwait` names (R272): a coordinate with this package's identifier filled in, or none. -/
def awaitedPeer (s : State) (e : Word) : BitVec 32 :=
  let p := e >>> 32
  if coordOk p && decide (p ≠ 0) then realCoord s (p.setWidth 32) else 0

/-- The hart has joined the queue of a counter (R192). -/
def joinFifo (s : State) (tag : BitVec 5) : State :=
  if (s.c.fifo tag).contains s.hartNo then s else s.setC (s.c.setFifo tag (s.c.fifo tag ++ [s.hartNo]))

/-- The hart has left the queue of a counter. -/
def leaveFifo (s : State) (tag : BitVec 5) : State :=
  s.setC (s.c.setFifo tag ((s.c.fifo tag).filter (· ≠ s.hartNo)))

/-- The hart heads the queue: a loss recorded for the tag comes first, then the counter (R192, R322). The losses that are pending are kept apart from
`lossrec`, and R323 leaves open how the two meet: taking the trap leaves `valid` as it is, and a write that clears `valid` withdraws no trap (the
model's choice, log 41). -/
def mwaitHead (rd : BitVec 5) (e : Word) (tag : BitVec 5) (s : State) : Out :=
  let m := s.c.mail
  let v := m.counters.get tag.toFin
  let n : BitVec 32 := e.setWidth 32
  match m.losses.find? fun l => l.1 = tag with
  | some l =>
    let s := s.setC { s.c with mail := { m with losses := m.losses.erase l } }
    raise (leaveFifo s tag) (Trap.of 0x102 l.2)
  | none =>
    if v.toNat < n.toNat then waiting s 0x02 (tag.setWidth 6) (awaitedPeer s e)
    else if m.overflow.getLsbD tag.toNat then
      let s := s.setC { s.c with mail := { m with overflow := m.overflow &&& ~~~((1 : BitVec 32) <<< tag.toNat) } }
      raise (leaveFifo s tag) (Trap.of 0x103 (tag.setWidth 64))
    else
      let s := s.setC { s.c with mail := { m with counters := m.counters.set tag.toNat (v - n) tag.isLt } }
      finish ((leaveFifo s tag).setX rd ((v - n).setWidth 64))

/-- `mwait`: R192. -/
def execMwait (rd xe tag : BitVec 5) (s : State) : Out :=
  let s := joinFifo s tag
  if (s.c.fifo tag).head? = some s.hartNo then mwaitHead rd (s.x xe) tag s else waiting s 0x03 (tag.setWidth 6) 0

/-- `mcount`: R192. -/
def execMcount (rd tag : BitVec 5) (s : State) : Out :=
  let m := s.c.mail
  finish (s.setX rd (BitVec.ofNat 64
    (b2n (m.overflow.getLsbD tag.toNat) * 2 ^ 32 + (m.counters.get tag.toFin).toNat)))

/-! ## Placement (R194) -/

/-- `locq` of a core of another package: the query travels as a message, and the hart waits for its reply. -/
def locqRemote (rd : BitVec 5) (c : BitVec 32) (s : State) : Out :=
  match s.h.reply with
  | some v => finish (s.setX rd v)
  | none =>
    if s.h.asked then waiting s 0x06 0 c
    else
      match hand s s.agent (newMessage s c 0 6 []) with
      | none => waiting s 0x05 0 0
      | some t => waiting (t.setH { t.h with asked := true }) 0x06 0 c

/-- `locq`: R194. -/
def execLocq (rd xc : BitVec 5) (s : State) : Out :=
  let c := s.x xc
  match firstTrap [need (coordOk c) c, if inReach s (c.setWidth 32) then none else some (Trap.of 0x104 c)] with
  | some t => raise s t
  | none =>
    let k := realCoord s (c.setWidth 32)
    if coordPkg k = s.hostif.regs.pkgid.toNat then finish (s.setX rd (locqWord s k)) else locqRemote rd k s

end Sys2Proof.Machine
end

