-- ==== Sys2Proof/Machine/Texture.lean ====
section
/-! DEFINITION. Texture sampling: `tsample` and `tsample.lod` of major 0x3D (R223 to R225, R338 to R340). -/

namespace Sys2Proof.Machine

/-! ## Reads of the pixel, texture and ray units (R156, R225, R229, R250) -/

/-- Reads `n` bytes of one 32-bit word through a pin, for position (j, i). -/
def pinWord (p : Pin) (j i : Nat) (s : State) (a n : Nat) : Res (List Byte × State) :=
  match p.locate s.agent (dieOfAgent s.agent) a with
  | .dev pa =>
    let s := bypass s s.agent pa n
    match poisonAt s pa n with
    | some (w, src) => .error (s, Trap.poison src (BitVec.ofNat 64 (a - pa % 8 + (w - pa / 8 * 8))) j i)
    | none => .ok (readBytes s.mem pa n, s)
  | .host h =>
    let s := hostSync s s.agent
    if hostRefuses s s.agent h false then .error (s, Trap.poison 4 (BitVec.ofNat 64 a) j i)
    else .ok (hostBytes s s.agent h n, s)
  | .own o => .ok (readBytes s.c.sp o n, s)
  | _ => .ok (List.replicate n 0, s)

/-- Reads `n` bytes through a pin, word by word; the fuel counts words. -/
def pinBytesFrom (p : Pin) (j i : Nat) : Nat → State → Nat → Nat → Res (List Byte × State)
  | 0, s, _, _ => .ok ([], s)
  | f + 1, s, a, n =>
    if n = 0 then .ok ([], s)
    else
      let k := min n (4 - a % 4)
      match pinWord p j i s a k with
      | .error e => .error e
      | .ok (l, s) =>
        match pinBytesFrom p j i f s (a + k) (n - k) with
        | .error e => .error e
        | .ok (r, s) => .ok (l ++ r, s)

def pinBytes (p : Pin) (j i : Nat) (s : State) (a n : Nat) : Res (List Byte × State) := pinBytesFrom p j i (n / 4 + 2) s a n

/-- [a, a + n) lies inside a pin. -/
def Pin.holdsRange (p : Pin) (a n : Nat) : Bool := decide (p.base.toNat ≤ a) && decide (a + n ≤ p.base.toNat + p.len)

/-- The first byte of [a, a + n) outside a pin: the trap, where there is one (R225, R229). -/
def Pin.rangeTrap (p : Pin) (a n : Nat) : Option Trap :=
  if n = 0 ∨ p.holdsRange a n then none
  else if p.base.toNat ≤ a ∧ a < p.base.toNat + p.len then some (Trap.of 0x081 (BitVec.ofNat 64 (p.base.toNat + p.len)))
  else some (Trap.of 0x081 (BitVec.ofNat 64 a))

/-- The checks of a descriptor or header address and the pin (R225): the pin, or the trap. -/
def headerPin (s : State) (token : BitVec 3) (d : Word) : Except Trap Pin :=
  match s.pin token with
  | none => .error (Trap.of 0x080 (token.setWidth 64))
  | some p =>
    if canonical d = false then .error (Trap.of 0x0E1 d)
    else if d.toNat % 64 ≠ 0 then .error (Trap.of 0x0E0 d)
    else if p.holdsRange d.toNat 64 = false then .error (Trap.of 0x081 d)
    else if p.perms.getLsbD 0 = false then .error (Trap.of 0x082 d)
    else .ok p

/-! ## Descriptors (R223, R224) -/

/-- A texture descriptor as captured. -/
structure Texture where
  base : Word
  width : Nat
  height : Nat
  layers : Nat
  levels : Nat
  format : Nat
  pitch : Nat
  filter : Nat
  addr : Nat
  bias : Nat
  minlod : Nat
  maxlod : Nat
  border : List Nat
  deriving DecidableEq, Repr

def textureOf (l : List Byte) : Texture :=
  { base := BitVec.ofNat 64 (recField l 0 8), width := recField l 8 2, height := recField l 10 2, layers := recField l 12 2
    levels := recField l 14 1, format := recField l 15 1, pitch := recField l 16 4, filter := recField l 20 1
    addr := recField l 21 1, bias := recField l 24 4, minlod := recField l 28 4, maxlod := recField l 32 4
    border := (List.range 4).map fun i => recField l (48 + 4 * i) 4 }

/-- Texel size in bytes (R223). -/
def texelBytes (format : Nat) : Nat := if format = 2 then 8 else if format = 3 then 16 else if format = 6 then 1 else 4

def Texture.w (t : Texture) (l : Nat) : Nat := max 1 (t.width / 2 ^ l)

def Texture.h (t : Texture) (l : Nat) : Nat := max 1 (t.height / 2 ^ l)

/-- Row pitch of a level (R224). -/
def Texture.rowPitch (t : Texture) (l : Nat) : Nat := (t.w l * texelBytes t.format + 63) / 64 * 64

/-- Offset of a level in a layer (R224). -/
def Texture.levelOff (t : Texture) : Nat → Nat
  | 0 => 0
  | l + 1 => t.levelOff l + t.rowPitch l * t.h l

/-- Address of a texel (R224). -/
def Texture.texelAt (t : Texture) (layer l x y : Nat) : Nat :=
  t.base.toNat + layer * t.pitch + t.levelOff l + y * t.rowPitch l + x * texelBytes t.format

/-- A descriptor's bytes follow the table of R223. -/
def textureOk (l : List Byte) : Bool :=
  let t := textureOf l
  let inRange := fun (v hi : Nat) => decide (1 ≤ v) && decide (v ≤ hi)
  let lods := match f32Rat t.minlod, f32Rat t.maxlod with
    | some a, some b => decide (0 ≤ a) && decide (a ≤ b) && decide (b ≤ (t.levels : Rat) - 1)
    | _, _ => false
  canonical t.base && decide (t.base.toNat % 64 = 0) && inRange t.width 16384 && inRange t.height 16384 && inRange t.layers 2048
    && inRange t.levels (Nat.log2 (max t.width t.height) + 1) && decide (t.format ≤ 6) && decide (t.pitch % 64 = 0)
    && decide (t.levelOff t.levels ≤ t.pitch) && decide (t.filter < 8) && decide (t.addr < 16) && decide (recField l 22 2 = 0)
    && f32Finite t.bias && lods && decide (recField l 36 12 = 0)

/-! ## Filtering (R338 to R340) -/

/-- A texel index on one axis by its address mode; none names the border (R339). -/
def mapIndex (mode n : Nat) (i : Int) : Option Nat :=
  if mode = 0 then some (i % (n : Int)).toNat
  else if mode = 1 then some (min (max i 0) ((n : Int) - 1)).toNat
  else if mode = 2 then
    let m := (i % (2 * n : Int)).toNat
    some (if m < n then m else 2 * n - 1 - m)
  else if 0 ≤ i ∧ i < n then some i.toNat else none

/-- round_RNE of c / 255 (R339). -/
def unorm8 (c : Nat) : Nat := ratToF32 (mkRat c 255) false

/-- The integer fifth root of n, found bit by bit from bit k down. -/
def fifthRoot (n : Nat) : Nat → Nat → Nat
  | 0, r => if (r + 1) ^ 5 ≤ n then r + 1 else r
  | k + 1, r => fifthRoot n k (if (r + 2 ^ (k + 1)) ^ 5 ≤ n then r + 2 ^ (k + 1) else r)

/-- round_RNE of the exact sRGB decode of a byte (R339): the power 2.4 is the fifth root of the twelfth power, taken to 64 binary
places with a sticky remainder. -/
def srgb8 (c : Nat) : Nat :=
  if c * 100000 ≤ 4045 * 255 then ratToF32 (mkRat (100 * c) (255 * 1292)) false
  else
    let n := (200 * c + 2805) ^ 12 * 2 ^ 320
    let d := 53805 ^ 12
    let r := fifthRoot (n / d) 64 0
    (roundTo .f32 false .rne false r (-64) (decide (r ^ 5 * d ≠ n))).1

/-- An FP16 widened exactly to FP32; a NaN stays a NaN. -/
def widen16 (v : Nat) : Nat := (fConvert .f16 .f32 false .rne none v).1

/-- The four FP32 channels of a texel's bytes (R339). -/
def expandTexel (format : Nat) (l : List Byte) : List Nat :=
  let b := fun i => recField l i 1
  let h := fun i => widen16 (recField l (2 * i) 2)
  let w := fun i => recField l (4 * i) 4
  let one := 0x3F800000
  if format = 0 then [unorm8 (b 0), unorm8 (b 1), unorm8 (b 2), unorm8 (b 3)]
  else if format = 1 then [srgb8 (b 0), srgb8 (b 1), srgb8 (b 2), unorm8 (b 3)]
  else if format = 2 then [h 0, h 1, h 2, h 3]
  else if format = 3 then [w 0, w 1, w 2, w 3]
  else if format = 4 then [w 0, 0, 0, one]
  else if format = 5 then [h 0, h 1, 0, one]
  else [unorm8 (b 0), 0, 0, one]

/-- u or v as prepared (R338): NaN is 0, values are clamped to ±2^20. -/
def prepCoord (bits : Nat) : Rat :=
  match fpDecode .f32 bits with
  | .nan _ => 0
  | .inf neg => if neg then -(2 ^ 20 : Rat) else 2 ^ 20
  | v => min (max (v.rat.getD 0) (-(2 ^ 20 : Rat))) (2 ^ 20)

/-- The fraction of a value in 256ths, rounded down. -/
def frac256 (x : Rat) : Rat := (((x - x.floor) * 256).floor : Rat) / 256

/-- A texel to sample: weight, level and indices. -/
structure Tap where
  weight : Rat
  level : Nat
  x : Int
  y : Int
  deriving DecidableEq, Repr

/-- Taps of one level with a weight (R338). -/
def Texture.levelTaps (t : Texture) (linear : Bool) (u v : Rat) (l : Nat) (wt : Rat) : List Tap :=
  let sx := u * (t.w l : Rat)
  let sy := v * (t.h l : Rat)
  if linear then
    let i := (sx - 1 / 2).floor
    let j := (sy - 1 / 2).floor
    let a := frac256 (sx - 1 / 2)
    let b := frac256 (sy - 1 / 2)
    [{ weight := wt * ((1 - a) * (1 - b)), level := l, x := i, y := j },
     { weight := wt * (a * (1 - b)), level := l, x := i + 1, y := j },
     { weight := wt * ((1 - a) * b), level := l, x := i, y := j + 1 },
     { weight := wt * (a * b), level := l, x := i + 1, y := j + 1 }]
  else [{ weight := wt, level := l, x := sx.floor, y := sy.floor }]

/-- The taps of a sample; those of zero weight are not read (R338, R340). -/
def Texture.taps (t : Texture) (u v lam : Rat) : List Tap :=
  let linear := if lam = 0 then bitOf t.filter 0 else bitOf t.filter 1
  let ts :=
    if bitOf t.filter 2 then
      let l0 := lam.floor.toNat
      let f := frac256 lam
      t.levelTaps linear u v l0 (1 - f) ++ t.levelTaps linear u v (min (l0 + 1) (t.levels - 1)) f
    else t.levelTaps linear u v (lam + 1 / 2).floor.toNat 1
  ts.filter fun x => decide (x.weight ≠ 0)

/-- One channel of a weighted sum (R340); an exact zero is −0 where every term is (R58). -/
def mixChannel (terms : List (Rat × FVal)) : Nat :=
  let isInf := fun (n : Bool) => terms.any fun t => decide (t.2 = .inf n)
  if (terms.any fun t => isNan t.2) || (isInf true && isInf false) then 0x7FC00000
  else if isInf true then infBits .f32 true
  else if isInf false then infBits .f32 false
  else
    ratToF32 ((terms.map fun t => t.1 * (t.2.rat.getD 0)).foldl (· + ·) 0)
      (terms.all fun t => match t.2 with | .fin neg _ _ => neg | _ => false)

/-- Reads one tap: its four channels (R224, R339). -/
def readTap (t : Texture) (p : Pin) (layer j i : Nat) (s : State) (k : Tap) : Res (List Nat × State) :=
  match mapIndex (t.addr % 4) (t.w k.level) k.x, mapIndex (t.addr / 4) (t.h k.level) k.y with
  | some x, some y =>
    match pinBytes p j i s (t.texelAt layer k.level x y) (texelBytes t.format) with
    | .error e => .error e
    | .ok (l, s) => .ok (expandTexel t.format l, s)
  | _, _ => .ok (t.border, s)

/-- Reads the taps in order. -/
def readTaps (t : Texture) (p : Pin) (layer j i : Nat) : List Tap → State → Res (List (Rat × List Nat) × State)
  | [], s => .ok ([], s)
  | k :: ks, s =>
    match readTap t p layer j i s k with
    | .error e => .error e
    | .ok (c, s) =>
      match readTaps t p layer j i ks s with
      | .error e => .error e
      | .ok (r, s) => .ok ((k.weight, c) :: r, s)

/-- λ of a sample (R225): the bias, or the rounded sum of level and bias, clamped. -/
def Texture.lambda (t : Texture) (level : Option Nat) : Rat :=
  let lo := (f32Rat t.minlod).getD 0
  let hi := (f32Rat t.maxlod).getD 0
  let v := match level with
    | none => fpDecode .f32 t.bias
    | some l => fpDecode .f32 (fAdd .f32 .rne l t.bias).1
  match v with
  | .nan _ => lo
  | .inf neg => if neg then lo else hi
  | v => min (max (v.rat.getD 0) lo) hi

/-! ## `tsample` (R214, R225) -/

/-- First registers of the groups of a run. -/
def runGroup (s : State) (r : BitVec 5) (q : Nat) : Nat := r.toNat + q * s.vrows

/-- Samples one position (R225). -/
def sampleAt (t : Texture) (p : Pin) (lod : Bool) (vd vs1 : BitVec 5) (s : State) (j i : Nat) : Res State :=
  let src := fun q => s.h.elem (runGroup s vs1 q) 32 j i
  let layer := min (src 2) (t.layers - 1)
  match readTaps t p layer j i (t.taps (prepCoord (src 0)) (prepCoord (src 1)) (t.lambda (if lod then some (src 3) else none))) s with
  | .error e => .error e
  | .ok (l, s) =>
    .ok (s.setH ((List.range 4).foldl (fun h c =>
      h.setElem (runGroup s vd c) 32 j i (mixChannel (l.map fun q => (q.1, fpDecode .f32 (q.2.getD c 0))))) s.h))

/-- Source and result runs fit below v32 and do not overlap (R214); the example of R225 gives the instruction word for either
(log 26). -/
def runsApart (s : State) (vd vs1 : BitVec 5) (n : Nat) : Bool :=
  decide (vd.toNat + 4 * s.vrows ≤ 32) && decide (vs1.toNat + n * s.vrows ≤ 32)
    && (decide (vd.toNat + 4 * s.vrows ≤ vs1.toNat) || decide (vs1.toNat + n * s.vrows ≤ vd.toNat))

/-- The samples of the active positions, the descriptor captured once (R225). -/
def sampleEff (lod : Bool) (vd vs1 : BitVec 5) (d : Word) (token : BitVec 3) (ps : List (Nat × Nat)) (s : State) : Res State :=
  match ps with
  | [] => .ok s
  | k :: _ =>
    match headerPin s token d with
    | .error t => .error (s, t)
    | .ok p =>
      match pinBytes p k.1 k.2 s d.toNat 64 with
      | .error (s, t) => .error (s.stopAt k.1 k.2, t)
      | .ok (l, s) =>
        if textureOk l = false then .error (s, Trap.of 0x088 d)
        else
          let t := textureOf l
          match p.rangeTrap t.base.toNat (t.layers * t.pitch) with
          | some tr => .error (s, tr)
          | none => eachPos (sampleAt t p lod vd vs1) ps s

/-- `tsample` and `tsample.lod`: R225. -/
def sampleOp (lod : Bool) (vd vs1 xs2 : BitVec 5) (mask : BitVec 3) (conv : Bool) (token : BitVec 3) (s : State) : Out :=
  let n := if lod then 4 else 3
  let run := fun (r : BitVec 5) (n : Nat) => (List.range (n * s.vrows)).map (r.toNat + ·)
  vecMem s { conv := conv, units := unitGlobal, cross := false, rv := run vs1 n, rm := [mask.toNat], wv := run vd 4, wm := [] }
    (firstTrap [checkStart s, checkSew s 32, checkGroup s vd, checkGroup s vs1, need (runsApart s vd vs1 n) s.wordVal])
    fun s => sampleEff lod vd vs1 (s.x xs2) token (active s mask) s

/-- `tsample`: R225. -/
def execTsample (vd vs1 xs2 : BitVec 5) (mask : BitVec 3) (conv : Bool) (token : BitVec 3) (s : State) : Out :=
  sampleOp false vd vs1 xs2 mask conv token s

/-- `tsample.lod`: R225. -/
def execTsampleLod (vd vs1 xs2 : BitVec 5) (mask : BitVec 3) (conv : Bool) (token : BitVec 3) (s : State) : Out :=
  sampleOp true vd vs1 xs2 mask conv token s

end Sys2Proof.Machine
end

