-- ==== Sys2Proof/Machine/Rays.lean ====
section
/-! DEFINITION. Ray queries: `rquery` and `rquery.any` of major 0x3D (R226 to R229, R341 to R345). Every quantity is exact; results
are rounded once. -/

namespace Sys2Proof.Machine

/-! ## Extended rationals -/

/-- A rational or an infinity: `tmin`, `tmax`, slab ends. -/
inductive Ext where
  | neg
  | fin (q : Rat)
  | pos
  deriving DecidableEq, Repr

def Ext.le : Ext → Ext → Bool
  | .neg, _ => true
  | _, .pos => true
  | .fin a, .fin b => decide (a ≤ b)
  | _, _ => false

def Ext.max (a b : Ext) : Ext := if a.le b then b else a

def Ext.min (a b : Ext) : Ext := if a.le b then a else b

/-- The extended value of an FP32 encoding that is no NaN. -/
def f32Ext (bits : Nat) : Ext :=
  match fpDecode .f32 bits with
  | .inf n => if n then .neg else .pos
  | v => .fin (v.rat.getD 0)

/-- A point or direction: x, y, z. -/
structure Vec3 where
  x : Rat
  y : Rat
  z : Rat
  deriving DecidableEq, Repr

def Vec3.at (v : Vec3) (a : Nat) : Rat := if a = 0 then v.x else if a = 1 then v.y else v.z

def Vec3.sub (a b : Vec3) : Vec3 := { x := a.x - b.x, y := a.y - b.y, z := a.z - b.z }

def Vec3.dot (a b : Vec3) : Rat := a.x * b.x + a.y * b.y + a.z * b.z

def Vec3.cross (a b : Vec3) : Vec3 :=
  { x := a.y * b.z - a.z * b.y, y := a.z * b.x - a.x * b.z, z := a.x * b.y - a.y * b.x }

/-- Three FP32 values as a vector, where all are finite. -/
def vecOf (a b c : Nat) : Option Vec3 :=
  match f32Rat a, f32Rat b, f32Rat c with
  | some x, some y, some z => some { x := x, y := y, z := z }
  | _, _, _ => none

/-! ## The BVH (R226 to R228) -/

/-- A header as captured. -/
structure Bvh where
  nodes : Nat
  nodecount : Nat
  tricount : Nat
  tris : Nat
  insts : Nat
  instcount : Nat
  flags : Nat
  deriving DecidableEq, Repr

def bvhOf (l : List Byte) : Bvh :=
  { nodes := recField l 0 8, nodecount := recField l 8 4, tricount := recField l 12 4, tris := recField l 16 8
    insts := recField l 24 8, instcount := recField l 32 4, flags := recField l 36 4 }

/-- A header is well formed (R226). "An empty array is not checked" is read of the array's place in the pin: its address is still checked to be aligned
and canonical (the model's choice, log 41). -/
def bvhOk (l : List Byte) : Bool :=
  let b := bvhOf l
  let addr := fun (a al : Nat) => canonical (BitVec.ofNat 64 a) && decide (a % al = 0)
  addr b.nodes 128 && addr b.tris 16 && addr b.insts 64 && decide (1 ≤ b.nodecount) && decide (b.flags < 3)
    && decide (recField l 40 24 = 0)

/-- Byte c of `meta` of a node. -/
def metaOf (n : List Byte) (c : Nat) : Nat := recField n (24 + c) 1

def childValid (n : List Byte) (c : Nat) : Bool := bitOf (metaOf n c) 7
def childInternal (n : List Byte) (c : Nat) : Bool := bitOf (metaOf n c) 6
def childInst (n : List Byte) (c : Nat) : Bool := bitOf (metaOf n c) 5
def childCount (n : List Byte) (c : Nat) : Nat := metaOf n c % 16

/-- Slots below c that a predicate accepts among the valid ones. -/
def lowerSlots (n : List Byte) (c : Nat) (f : Nat → Bool) : List Nat := (List.range c).filter fun k => childValid n k && f k

/-- What an entry of the traversal stack names (R342). -/
inductive Visit where
  | node (x : Nat)
  | tris (first count : Nat)
  | inst (x : Nat)
  deriving DecidableEq, Repr

/-- What child c of a node is (R227). -/
def childOf (n : List Byte) (c : Nat) : Visit :=
  if childInternal n c then .node (recField n 16 4 + (lowerSlots n c (childInternal n)).length)
  else if childInst n c then .inst (recField n 80 4 + (lowerSlots n c (childInst n)).length)
  else
    .tris (recField n 20 4 + ((lowerSlots n c fun k => !childInternal n k && !childInst n k).map (childCount n)).sum) (childCount n c)

/-- The index or run lies inside its array (R227). -/
def Visit.inArray (v : Visit) (b : Bvh) : Bool :=
  match v with
  | .node x => decide (x < b.nodecount)
  | .inst x => decide (x < b.instcount)
  | .tris f n => decide (f + n ≤ b.tricount)

/-- A child slot follows R227; `inside` marks a node below an instance, where an instance child is malformed (R228). -/
def slotOk (b : Bvh) (n : List Byte) (inside : Bool) (c : Nat) : Bool :=
  let leaf := childValid n c && !childInternal n c && !childInst n c
  !bitOf (metaOf n c) 4 && (if leaf then decide (1 ≤ childCount n c) else decide (childCount n c = 0)) &&
    (!childValid n c ||
      (!(childInternal n c && childInst n c) && !(inside && childInst n c) && (childOf n c).inArray b
        && (List.range 3).all fun a => decide (recField n (32 + 8 * a + c) 1 ≤ recField n (56 + 8 * a + c) 1)))

/-- A box node is well formed (R227). -/
def nodeOk (b : Bvh) (n : List Byte) (inside : Bool) : Bool :=
  decide (recField n 15 1 = 0) && ((List.range 3).all fun a => decide (recField n (12 + a) 1 ≠ 0xFF))
    && decide (recField n 84 44 = 0) && (List.range 8).all fun c => slotOk b n inside c

/-! ## Rays (R341, R344) -/

/-- A ray: origin and direction. -/
structure Ray where
  o : Vec3
  d : Vec3
  deriving DecidableEq, Repr

/-- 2^(e − 127) (R55). -/
def e8m0 (e : Nat) : Rat := if 127 ≤ e then (2 ^ (e - 127) : Rat) else 1 / 2 ^ (127 - e)

/-- The slab of one axis: its ends, or none where it is empty (R341). -/
def slab (lo hi o d : Rat) : Option (Ext × Ext) :=
  if d ≠ 0 then
    let a := (lo - o) / d
    let b := (hi - o) / d
    some (.fin (min a b), .fin (max a b))
  else if lo ≤ o ∧ o ≤ hi then some (.neg, .pos) else none

/-- The entry of a child's box, where it is hit (R341). -/
def boxHit (n : List Byte) (org : Vec3) (r : Ray) (tmin tcur : Ext) (c : Nat) : Option Ext :=
  let ends := (List.range 3).foldl (fun (acc : Option (Ext × Ext)) a =>
    match acc with
    | none => none
    | some (en, ex) =>
      let q := fun off => org.at a + (recField n (off + 8 * a + c) 1 : Rat) * e8m0 (recField n (12 + a) 1)
      match slab (q 32) (q 56) (r.o.at a) (r.d.at a) with
      | none => none
      | some (lo, hi) => some (en.max lo, ex.min hi)) (some (tmin, tcur))
  match ends with
  | some (en, ex) => if en.le ex then some en else none
  | none => none

/-- A triangle hit: exact t, u, v and orientation. -/
structure TriHit where
  t : Rat
  u : Rat
  v : Rat
  front : Bool
  deriving DecidableEq, Repr

/-- The test of one triangle (R343); `flags` are the header's cull bits. -/
def triHit (rec_ : List Byte) (flags : Nat) (r : Ray) (tmin tcur : Ext) : Option TriHit :=
  let w := fun i => recField rec_ (4 * i) 4
  match vecOf (w 0) (w 1) (w 2), vecOf (w 3) (w 4) (w 5), vecOf (w 6) (w 7) (w 8) with
  | some v0, some v1, some v2 =>
    let e1 := v1.sub v0
    let e2 := v2.sub v0
    let s := r.o.sub v0
    let p := r.d.cross e2
    let dd := e1.dot p
    let q := s.cross e1
    if dd = 0 then none
    else
      let u := s.dot p / dd
      let v := r.d.dot q / dd
      let t := e2.dot q / dd
      let culled := (bitOf flags 0 && decide (dd < 0)) || (bitOf flags 1 && decide (0 < dd))
      if 0 ≤ u ∧ 0 ≤ v ∧ u + v ≤ 1 ∧ tmin.le (.fin t) = true ∧ (Ext.fin t).le tcur = true ∧ culled = false then
        some { t := t, u := u, v := v, front := decide (0 < dd) }
      else none
  | _, _, _ => none

/-- The object-space ray of an instance (R344), where everything is finite. -/
def instRay (rec_ : List Byte) (r : Ray) : Option Ray :=
  let m := (List.range 12).map fun i => recField rec_ (4 * i) 4
  if m.all f32Finite then
    let e := fun i => (f32Rat (m.getD i 0)).getD 0
    let row := fun k (v : Vec3) (w : Rat) => ratToF32 (e (4 * k) * v.x + e (4 * k + 1) * v.y + e (4 * k + 2) * v.z + e (4 * k + 3) * w) false
    match vecOf (row 0 r.o 1) (row 1 r.o 1) (row 2 r.o 1), vecOf (row 0 r.d 0) (row 1 r.d 0) (row 2 r.d 0) with
    | some o, some d => some { o := o, d := d }
    | _, _ => none
  else none

/-! ## Traversal (R342, R345) -/

/-- The best hit so far. -/
structure Best where
  hit : TriHit
  /-- Instance record index + 1, or 0. -/
  inst : Nat
  instid : Nat
  tri : Nat
  primid : Nat
  deriving DecidableEq, Repr

/-- How a traversal ends: its status and, for status 1, the hit (R229). -/
structure Ended where
  status : Nat
  best : Option Best
  deriving DecidableEq, Repr

/-- A stack entry: what it names, the instance it lies in with its `instid` and ray, and its entry. -/
structure Item where
  what : Visit
  inst : Nat
  instid : Nat
  ray : Ray
  entry : Ext
  deriving DecidableEq, Repr

/-- The traversal in progress (R342). -/
structure Walk where
  stack : List Item
  visits : Nat
  tcur : Ext
  best : Option Best
  deriving DecidableEq, Repr

/-- What a query fixes for one element. -/
structure Query where
  bvh : Bvh
  pin : Pin
  any : Bool
  tmin : Ext
  row : Nat
  elem : Nat
  deriving DecidableEq, Repr

/-- The walk has ended. -/
def Walk.done (w : Walk) : Ended := { status := if w.best.isSome then 1 else 0, best := w.best }

/-- The hit's key is lower than the best key (R345). -/
def keyLower (t : Rat) (inst tri : Nat) (b : Option Best) : Bool :=
  match b with
  | none => true
  | some b =>
    decide (t < b.hit.t) || (decide (t = b.hit.t) && (decide (inst < b.inst) || (decide (inst = b.inst) && decide (tri < b.tri))))

/-- Tests the triangles of a run in ascending index (R342, R343, R345): the walk goes on, or the element ends. -/
def testTris (q : Query) (it : Item) : Nat → Nat → State → Walk → Res (State × Walk × Option Ended)
  | 0, _, s, w => .ok (s, w, none)
  | n + 1, x, s, w =>
    match pinBytes q.pin q.row q.elem s (q.bvh.tris + 48 * x) 48 with
    | .error e => .error e
    | .ok (l, s) =>
      if recField l 40 8 ≠ 0 then .ok (s, w, some { status := 2, best := none })
      else
        match triHit l q.bvh.flags it.ray q.tmin w.tcur with
        | none => testTris q it n (x + 1) s w
        | some h =>
          if keyLower h.t it.inst x w.best then
            let b : Best := { hit := h, inst := it.inst, instid := it.instid, tri := x, primid := recField l 36 4 }
            let w := { w with best := some b, tcur := .fin h.t }
            if q.any then .ok (s, w, some w.done) else testTris q it n (x + 1) s w
          else testTris q it n (x + 1) s w

/-- Inserts a child so that the lowest entry, then the lowest slot, comes first. -/
def insertItem (i : Item) : List Item → List Item
  | [] => [i]
  | j :: js => if i.entry.le j.entry && !(j.entry.le i.entry) then i :: j :: js else j :: insertItem i js

/-- The numbers of a ray. -/
def Ray.values (r : Ray) : List Rat := [r.o.x, r.o.y, r.o.z, r.d.x, r.d.y, r.d.z]

/-- The hit children of a node, first popped first (R342). Where the node's origin is not finite, the entry of a child is free, by the node, the
slot and the ray: equal operands answer alike (R74, R341, log 24). -/
def hitChildren (q : Query) (n : List Byte) (it : Item) (tcur : Ext) : List Item :=
  let org := vecOf (recField n 0 4) (recField n 4 4) (recField n 8 4)
  (List.range 8).foldl (fun acc c =>
    let en := match org with
      | some o => boxHit n o it.ray q.tmin tcur c
      | none => (Config.boxEntry n c it.ray.values).map .fin
    match childValid n c, en with
    | true, some e => insertItem { it with what := childOf n c, entry := e } acc
    | _, _ => acc) []

/-- Items pushed; more than 256 end the element with status 3 (R342). -/
def pushItems (w : Walk) (l : List Item) : Walk × Option Ended :=
  if 256 < (l ++ w.stack).length then (w, some { status := 3, best := none }) else ({ w with stack := l ++ w.stack }, none)

/-- Visits a box node (R342). -/
def visitNode (q : Query) (it : Item) (x : Nat) (s : State) (w : Walk) : Res (State × Walk × Option Ended) :=
  if 65536 < w.visits + 1 then .ok (s, w, some { status := 3, best := none })
  else
    let w := { w with visits := w.visits + 1 }
    match pinBytes q.pin q.row q.elem s (q.bvh.nodes + 128 * x) 128 with
    | .error e => .error e
    | .ok (n, s) =>
      if nodeOk q.bvh n (decide (it.inst ≠ 0)) = false then .ok (s, w, some { status := 2, best := none })
      else
        let (w, e) := pushItems w (hitChildren q n it w.tcur)
        .ok (s, w, e)

/-- Enters an instance (R342, R344). -/
def visitInst (q : Query) (it : Item) (x : Nat) (s : State) (w : Walk) : Res (State × Walk × Option Ended) :=
  match pinBytes q.pin q.row q.elem s (q.bvh.insts + 64 * x) 64 with
  | .error e => .error e
  | .ok (l, s) =>
    let root := recField l 48 4
    if recField l 56 8 ≠ 0 ∨ q.bvh.nodecount ≤ root then .ok (s, w, some { status := 2, best := none })
    else
      match instRay l it.ray with
      | none => .ok (s, w, none)
      | some r =>
        let (w, e) := pushItems w [{ what := .node root, inst := x + 1, instid := recField l 52 4, ray := r, entry := it.entry }]
        .ok (s, w, e)

/-- One pop of the traversal (R342). -/
def walkStep (q : Query) (it : Item) (s : State) (w : Walk) : Res (State × Walk × Option Ended) :=
  if it.entry.le w.tcur = false then .ok (s, w, none)
  else
    match it.what with
    | .node x => visitNode q it x s w
    | .tris f n => testTris q it n f s w
    | .inst x => visitInst q it x s w

/-- The traversal; the fuel bounds its pops. -/
def walkFrom' (q : Query) : Nat → State → Walk → Res (State × Ended)
  | 0, s, _ => .ok (s, { status := 3, best := none })
  | f + 1, s, w =>
    match w.stack with
    | [] => .ok (s, w.done)
    | it :: rest =>
      match walkStep q it s { w with stack := rest } with
      | .error e => .error e
      | .ok (s, _, some e) => .ok (s, e)
      | .ok (s, w, none) => walkFrom' q f s w

/-- The ray is degenerate (R341): its eight values, or the ray itself. -/
def rayOf (v : Nat → Nat) : Option Ray :=
  let nan := (List.range 8).any fun i => isNan (fpDecode .f32 (v i))
  match vecOf (v 0) (v 1) (v 2), vecOf (v 3) (v 4) (v 5) with
  | some o, some d =>
    if nan || decide (d = { x := 0, y := 0, z := 0 }) || !(f32Ext (v 6)).le (f32Ext (v 7)) then none else some { o := o, d := d }
  | _, _ => none

/-- The hit record of an ended element, by register (R229). -/
def hitRecord (e : Ended) (c : Nat) : Nat :=
  match e.status, e.best with
  | 1, some b =>
    if c = 0 then ratToF32 b.hit.t false else if c = 1 then b.primid
    else if c = 2 then (if b.inst = 0 then 0xFFFFFFFF else b.instid) else if c = 3 then ratToF32 b.hit.u false
    else if c = 4 then ratToF32 b.hit.v false else 1 + 4 * b2n b.hit.front
  | st, _ => if c = 0 then 0x7F800000 else if c ≤ 2 then 0xFFFFFFFF else if c ≤ 4 then 0 else st

/-- One element of a query (R229, R341, R342). -/
def queryAt (b : Bvh) (p : Pin) (any : Bool) (vd vs1 : BitVec 5) (s : State) (j i : Nat) : Res State :=
  let v := fun k => s.h.elem (vs1.toNat + k) 32 j i
  let run : Res (State × Ended) :=
    match rayOf v with
    | none => .ok (s, { status := 0, best := none })
    | some r =>
      let q : Query := { bvh := b, pin := p, any := any, tmin := f32Ext (v 6), row := j, elem := i }
      walkFrom' q 2097152 s
        { stack := [{ what := .node 0, inst := 0, instid := 0, ray := r, entry := f32Ext (v 6) }], visits := 0, tcur := f32Ext (v 7), best := none }
  match run with
  | .error e => .error e
  | .ok (s, e) =>
    .ok (s.setH ((List.range 6).foldl (fun h c => h.setElem (vd.toNat + c) 32 j i (hitRecord e c)) s.h))

/-- The elements of a query, the header captured once (R229). -/
def queryEff (any : Bool) (vd vs1 : BitVec 5) (d : Word) (token : BitVec 3) (ps : List (Nat × Nat)) (s : State) : Res State :=
  match ps with
  | [] => .ok s
  | k :: _ =>
    match headerPin s token d with
    | .error t => .error (s, t)
    | .ok p =>
      match pinBytes p k.1 k.2 s d.toNat 64 with
      | .error (s, t) => .error (s.stopAt k.1 k.2, t)
      | .ok (l, s) =>
        if bvhOk l = false then .error (s, Trap.of 0x089 d)
        else
          let b := bvhOf l
          match firstTrap [p.rangeTrap b.nodes (128 * b.nodecount), p.rangeTrap b.tris (48 * b.tricount), p.rangeTrap b.insts (64 * b.instcount)] with
          | some tr => .error (s, tr)
          | none => eachPos (queryAt b p any vd vs1) ps s

/-- `rquery` and `rquery.any`: R214, R229. -/
def queryOp (any : Bool) (vd vs1 xs2 : BitVec 5) (mask : BitVec 3) (conv : Bool) (token : BitVec 3) (s : State) : Out :=
  let run := fun (r : BitVec 5) (n : Nat) => (List.range n).map (r.toNat + ·)
  vecMem s { conv := conv, units := unitGlobal, cross := false, rv := run vs1 8, rm := [mask.toNat], wv := run vd 6, wm := [] }
    (firstTrap [checkStart s, need (decide (s.sew = 32) && decide (s.vrows = 1)) s.wordVal,
      need (decide (vs1.toNat % 8 = 0) && decide (vd.toNat + 5 ≤ 31)) s.wordVal,
      need (decide (vd.toNat + 6 ≤ vs1.toNat) || decide (vs1.toNat + 8 ≤ vd.toNat)) (vd.setWidth 64)])
    fun s => queryEff any vd vs1 (s.x xs2) token (active s mask) s

/-- `rquery`: R229. -/
def execRquery (vd vs1 xs2 : BitVec 5) (mask : BitVec 3) (conv : Bool) (token : BitVec 3) (s : State) : Out :=
  queryOp false vd vs1 xs2 mask conv token s

/-- `rquery.any`: R229. -/
def execRqueryAny (vd vs1 xs2 : BitVec 5) (mask : BitVec 3) (conv : Bool) (token : BitVec 3) (s : State) : Out :=
  queryOp true vd vs1 xs2 mask conv token s

end Sys2Proof.Machine
end

