-- ==== Sys2Proof/Machine/Scalar.lean ====
section
/-! DEFINITION. Scalar instructions: majors 0x01 to 0x1B (R97 to R118), and illegal encodings (R84). -/

namespace Sys2Proof.Machine

/-! ## Shared operations -/

/-- The instruction writes `v` to rd and completes (R97). -/
def writeRd (rd : BitVec 5) (v : Word) (s : State) : Out := finish (s.setX rd v)

/-- The low `w` bits of a value, sign-extended to 64. -/
def sextTo (w v : Nat) : Word := BitVec.ofInt 64 (signedOf w v)

/-- A Bool as a register value. -/
def boolWord (b : Bool) : Word := if b then 1 else 0

/-- Signed division truncated toward zero; a divisor of 0 gives all ones (R100). -/
def divSigned (a b : Word) : Word := if b = 0 then BitVec.allOnes 64 else BitVec.ofInt 64 (a.toInt.tdiv b.toInt)

/-- Signed remainder, with the sign of `a`; a divisor of 0 gives `a` (R100). -/
def remSigned (a b : Word) : Word := if b = 0 then a else BitVec.ofInt 64 (a.toInt.tmod b.toInt)

/-- Unsigned division; a divisor of 0 gives all ones (R100). -/
def divUnsigned (a b : Word) : Word := if b = 0 then BitVec.allOnes 64 else a / b

/-- Unsigned remainder; a divisor of 0 gives `a` (R100). -/
def remUnsigned (a b : Word) : Word := if b = 0 then a else a % b

/-- Leading zero bits among the low `n` bits of a number. -/
def leadingZeros (v : Nat) : Nat → Nat
  | 0 => 0
  | n + 1 => if v / 2 ^ n % 2 = 1 then 0 else 1 + leadingZeros v n

/-- Trailing zero bits among `n` bits of a number. -/
def trailingZeros (v : Nat) : Nat → Nat
  | 0 => 0
  | n + 1 => if v % 2 = 1 then 0 else 1 + trailingZeros (v / 2) n

/-- The 1 bits among the low `n` bits of a number. -/
def popCount (v : Nat) : Nat → Nat
  | 0 => 0
  | n + 1 => v % 2 + popCount (v / 2) n

/-- The eight bytes of a word in reverse order (R101). -/
def reverseBytes (a : Word) : Word := BitVec.ofNat 64 (leValue (leBytes 8 a.toNat).reverse)

/-- A branch: an end word whose target counts words from the branch (R75, R103). -/
def branch (taken : Bool) (off : BitVec 16) (s : State) : Out :=
  finishEnd s (if taken then s.pc + (off.signExtend 64 <<< 2) else s.pc + 4)

/-- A scalar load of `size` bytes into rd; `sext` sign-extends it (R105, R106). -/
def loadRd (rd : BitVec 5) (ea : Word) (size : Nat) (sext : Bool) (s : State) : Out :=
  match load s ea size with
  | .error (s, t) => raise s t
  | .ok (v, s) => writeRd rd (if sext then sextTo (8 * size) v else BitVec.ofNat 64 v) s

/-- A scalar store of the low bytes of a register (R105, R106, R306). -/
def storeReg (rs : BitVec 5) (ea : Word) (size : Nat) (s : State) : Out :=
  let s := strongRelease s
  store s ea size (s.x rs).toNat

/-- Size of an access of major 0x16 (R106). -/
def widthBytes (w : BitVec 3) : Nat := 2 ^ (w.toNat / 2)

/-- An access of major 0x16 sign-extends (R106). -/
def widthSigned (w : BitVec 3) : Bool := decide (w.toNat % 2 = 0)

/-- The effective address of a base and a signed immediate (R105). -/
def baseImm (s : State) (rs1 : BitVec 5) (imm : BitVec 16) : Word := s.x rs1 + imm.signExtend 64

/-- An atomic of R111: `size` bytes, the new value from the old one and b, `zext` for a zero-extended result. -/
def atomic (size : Nat) (zext op : Bool) (f : Nat → Nat → Option Nat)
    (rd rs1 rs2 : BitVec 5) (scope : BitVec 3) (ord : BitVec 2) (s : State) : Out :=
  let b := (s.x rs2).toNat % 2 ^ (8 * size)
  let s := if ord.toNat / 2 = 1 then release s scope.toNat else strongRelease s
  match rmw s (s.x rs1) size op (fun c => f c b) with
  | .error (s, t) => raise s t
  | .ok (c, s) => writeRd rd (if zext then BitVec.ofNat 64 c else sextTo (8 * size) c) s

/-- The smaller or larger of two values, signed at `w` bits. -/
def pickSigned (w : Nat) (max : Bool) (c b : Nat) : Nat := if (decide (signedOf w c < signedOf w b)) = max then b else c

/-- The smaller or larger of two values, unsigned. -/
def pickUnsigned (max : Bool) (c b : Nat) : Nat := if (decide (c < b)) = max then b else c

/-- `amocas` (R111): writes b where the old value is the old X[rd]. -/
def casValue (size : Nat) (old : Word) (c b : Nat) : Option Nat := if c = old.toNat % 2 ^ (8 * size) then some b else none

/-- A scalar floating-point result: rd and `fflags` (R115). -/
def fpRd (f : FpFmt) (rd : BitVec 5) (r : Nat × Flags) (s : State) : Out :=
  writeRd rd (fpResult f r.1) (s.orFlags r.2)

/-- A two-operand operation of R116. -/
def fpBin (f : FpFmt) (op : FpFmt → Rnd → Nat → Nat → Nat × Flags) (rd rs1 rs2 : BitVec 5) (s : State) : Out :=
  fpRd f rd (op f s.rnd (fpOperand f (s.x rs1)) (fpOperand f (s.x rs2))) s

/-- A fused operation of R116 with rd as the addend; `np` negates the product, `nc` the addend. -/
def fpFused (f : FpFmt) (np nc : Bool) (rd rs1 rs2 : BitVec 5) (s : State) : Out :=
  fpRd f rd (fFma f s.rnd np nc (fpOperand f (s.x rs1)) (fpOperand f (s.x rs2)) (fpOperand f (s.x rd))) s

/-- A floating-point value to an integer of type `.w`, `.wz`, `.d` or `.dz` (R65, R117). -/
def fpToInt (f : FpFmt) (mode : Rnd) (ty : BitVec 2) (rd rs1 : BitVec 5) (s : State) : Out :=
  let w := if ty.toNat < 2 then 32 else 64
  let sg := decide (ty.toNat % 2 = 0)
  let r := fToInt f mode sg w (fpOperand f (s.x rs1))
  writeRd rd (if sg then sextTo w r.1 else BitVec.ofNat 64 r.1) (s.orFlags r.2)

/-- The integer a source register holds at a type (R66, R117). -/
def intSource (ty : BitVec 2) (v : Word) : Int :=
  let w := if ty.toNat < 2 then 32 else 64
  if ty.toNat % 2 = 0 then signedOf w v.toNat else (v.toNat % 2 ^ w : Nat)

/-- A conversion between formats in `frm` (R64, R117). -/
def fpCvt (src dst : FpFmt) (rd rs1 : BitVec 5) (s : State) : Out :=
  fpRd dst rd (fConvert src dst false s.rnd none (fpOperand src (s.x rs1))) s

/-- A compare of R118. -/
def fpCmp (f : FpFmt) (c : FCmp) (rd rs1 rs2 : BitVec 5) (s : State) : Out :=
  let r := fCompare f c (fpOperand f (s.x rs1)) (fpOperand f (s.x rs2))
  writeRd rd (boolWord r.1) (s.orFlags r.2)

/-! ## Integer arithmetic and logic (R99 to R102) -/

/-- `add`: R99. -/
def execAdd (rd rs1 rs2 : BitVec 5) (s : State) : Out :=
  writeRd rd (s.x rs1 + s.x rs2) s

/-- `sub`: R99. -/
def execSub (rd rs1 rs2 : BitVec 5) (s : State) : Out :=
  writeRd rd (s.x rs1 - s.x rs2) s

/-- `and`: R99. -/
def execAnd (rd rs1 rs2 : BitVec 5) (s : State) : Out :=
  writeRd rd (s.x rs1 &&& s.x rs2) s

/-- `or`: R99. -/
def execOr (rd rs1 rs2 : BitVec 5) (s : State) : Out :=
  writeRd rd (s.x rs1 ||| s.x rs2) s

/-- `xor`: R99. -/
def execXor (rd rs1 rs2 : BitVec 5) (s : State) : Out :=
  writeRd rd (s.x rs1 ^^^ s.x rs2) s

/-- `sll`: R99. -/
def execSll (rd rs1 rs2 : BitVec 5) (s : State) : Out :=
  writeRd rd (s.x rs1 <<< ((s.x rs2).toNat % 64)) s

/-- `srl`: R99. -/
def execSrl (rd rs1 rs2 : BitVec 5) (s : State) : Out :=
  writeRd rd (s.x rs1 >>> ((s.x rs2).toNat % 64)) s

/-- `sra`: R99. -/
def execSra (rd rs1 rs2 : BitVec 5) (s : State) : Out :=
  writeRd rd ((s.x rs1).sshiftRight ((s.x rs2).toNat % 64)) s

/-- `slt`: R99, signed. -/
def execSlt (rd rs1 rs2 : BitVec 5) (s : State) : Out :=
  writeRd rd (boolWord ((s.x rs1).slt (s.x rs2))) s

/-- `sltz`: R99, unsigned. -/
def execSltz (rd rs1 rs2 : BitVec 5) (s : State) : Out :=
  writeRd rd (boolWord ((s.x rs1).ult (s.x rs2))) s

/-- `addw`: R99. -/
def execAddw (rd rs1 rs2 : BitVec 5) (s : State) : Out :=
  writeRd rd (((s.x rs1 + s.x rs2).setWidth 32).signExtend 64) s

/-- `subw`: R99. -/
def execSubw (rd rs1 rs2 : BitVec 5) (s : State) : Out :=
  writeRd rd (((s.x rs1 - s.x rs2).setWidth 32).signExtend 64) s

/-- `min`: R99, signed. -/
def execMin (rd rs1 rs2 : BitVec 5) (s : State) : Out :=
  writeRd rd (if (s.x rs1).slt (s.x rs2) then s.x rs1 else s.x rs2) s

/-- `max`: R99, signed. -/
def execMax (rd rs1 rs2 : BitVec 5) (s : State) : Out :=
  writeRd rd (if (s.x rs1).slt (s.x rs2) then s.x rs2 else s.x rs1) s

/-- `minz`: R99, unsigned. -/
def execMinz (rd rs1 rs2 : BitVec 5) (s : State) : Out :=
  writeRd rd (if (s.x rs1).ult (s.x rs2) then s.x rs1 else s.x rs2) s

/-- `maxz`: R99, unsigned. -/
def execMaxz (rd rs1 rs2 : BitVec 5) (s : State) : Out :=
  writeRd rd (if (s.x rs1).ult (s.x rs2) then s.x rs2 else s.x rs1) s

/-- `mul`: R100. -/
def execMul (rd rs1 rs2 : BitVec 5) (s : State) : Out :=
  writeRd rd (s.x rs1 * s.x rs2) s

/-- `mulh`: R100. -/
def execMulh (rd rs1 rs2 : BitVec 5) (s : State) : Out :=
  writeRd rd (BitVec.ofInt 64 ((s.x rs1).toInt * (s.x rs2).toInt / 2 ^ 64)) s

/-- `mulhz`: R100. -/
def execMulhz (rd rs1 rs2 : BitVec 5) (s : State) : Out :=
  writeRd rd (BitVec.ofNat 64 ((s.x rs1).toNat * (s.x rs2).toNat / 2 ^ 64)) s

/-- `div`: R100. -/
def execDiv (rd rs1 rs2 : BitVec 5) (s : State) : Out :=
  writeRd rd (divSigned (s.x rs1) (s.x rs2)) s

/-- `divz`: R100. -/
def execDivz (rd rs1 rs2 : BitVec 5) (s : State) : Out :=
  writeRd rd (divUnsigned (s.x rs1) (s.x rs2)) s

/-- `rem`: R100. -/
def execRem (rd rs1 rs2 : BitVec 5) (s : State) : Out :=
  writeRd rd (remSigned (s.x rs1) (s.x rs2)) s

/-- `remz`: R100. -/
def execRemz (rd rs1 rs2 : BitVec 5) (s : State) : Out :=
  writeRd rd (remUnsigned (s.x rs1) (s.x rs2)) s

/-- `zeqz`: R101. -/
def execZeqz (rd rs1 rs2 : BitVec 5) (s : State) : Out :=
  writeRd rd (if s.x rs2 = 0 then 0 else s.x rs1) s

/-- `znez`: R101. -/
def execZnez (rd rs1 rs2 : BitVec 5) (s : State) : Out :=
  writeRd rd (if s.x rs2 ≠ 0 then 0 else s.x rs1) s

/-- `slli`: R101. -/
def execSlli (rd rs1 : BitVec 5) (sh : BitVec 6) (s : State) : Out :=
  writeRd rd (s.x rs1 <<< sh.toNat) s

/-- `srli`: R101. -/
def execSrli (rd rs1 : BitVec 5) (sh : BitVec 6) (s : State) : Out :=
  writeRd rd (s.x rs1 >>> sh.toNat) s

/-- `srai`: R101. -/
def execSrai (rd rs1 : BitVec 5) (sh : BitVec 6) (s : State) : Out :=
  writeRd rd ((s.x rs1).sshiftRight sh.toNat) s

/-- `rori`: R101. -/
def execRori (rd rs1 : BitVec 5) (sh : BitVec 6) (s : State) : Out :=
  writeRd rd ((s.x rs1).rotateRight sh.toNat) s

/-- `clz`: R101. -/
def execClz (rd rs1 : BitVec 5) (s : State) : Out :=
  writeRd rd (BitVec.ofNat 64 (leadingZeros (s.x rs1).toNat 64)) s

/-- `ctz`: R101. -/
def execCtz (rd rs1 : BitVec 5) (s : State) : Out :=
  writeRd rd (BitVec.ofNat 64 (trailingZeros (s.x rs1).toNat 64)) s

/-- `cpop`: R101. -/
def execCpop (rd rs1 : BitVec 5) (s : State) : Out :=
  writeRd rd (BitVec.ofNat 64 (popCount (s.x rs1).toNat 64)) s

/-- `rev8`: R101. -/
def execRev8 (rd rs1 : BitVec 5) (s : State) : Out :=
  writeRd rd (reverseBytes (s.x rs1)) s

/-- `addi`: R102. -/
def execAddi (rd rs1 : BitVec 5) (imm : BitVec 16) (s : State) : Out :=
  writeRd rd (s.x rs1 + imm.signExtend 64) s

/-- `andi`: R102. -/
def execAndi (rd rs1 : BitVec 5) (imm : BitVec 16) (s : State) : Out :=
  writeRd rd (s.x rs1 &&& imm.signExtend 64) s

/-- `ori`: R102. -/
def execOri (rd rs1 : BitVec 5) (imm : BitVec 16) (s : State) : Out :=
  writeRd rd (s.x rs1 ||| imm.setWidth 64) s

/-- `lui`: R102. -/
def execLui (rd : BitVec 5) (imm : BitVec 21) (s : State) : Out :=
  writeRd rd (imm.signExtend 64 <<< 16) s

/-- `auipc`: R102. -/
def execAuipc (rd : BitVec 5) (imm : BitVec 21) (s : State) : Out :=
  writeRd rd (s.pc + (imm.signExtend 64 <<< 16)) s

/-! ## Control transfer (R103, R104) -/

/-- `jal`: R103; the offset counts words from the jump (R75). -/
def execJal (rd : BitVec 5) (off : BitVec 21) (s : State) : Out :=
  finishEnd (s.setX rd (s.pc + 4)) (s.pc + (off.signExtend 64 <<< 2))

/-- `jalr`: R103; a target that is no multiple of 4 raises 0x041. -/
def execJalr (rd rs1 : BitVec 5) (imm : BitVec 16) (s : State) : Out :=
  let t := baseImm s rs1 imm
  if t.toNat % 4 ≠ 0 then raise s (Trap.of 0x041 t) else finishEnd (s.setX rd (s.pc + 4)) t

/-- `beq`: R103. -/
def execBeq (rs1 rs2 : BitVec 5) (off : BitVec 16) (s : State) : Out :=
  branch (decide (s.x rs1 = s.x rs2)) off s

/-- `bne`: R103. -/
def execBne (rs1 rs2 : BitVec 5) (off : BitVec 16) (s : State) : Out :=
  branch (decide (s.x rs1 ≠ s.x rs2)) off s

/-- `blt`: R103. -/
def execBlt (rs1 rs2 : BitVec 5) (off : BitVec 16) (s : State) : Out :=
  branch ((s.x rs1).slt (s.x rs2)) off s

/-- `bge`: R103. -/
def execBge (rs1 rs2 : BitVec 5) (off : BitVec 16) (s : State) : Out :=
  branch (!(s.x rs1).slt (s.x rs2)) off s

/-- `bsig`: R104, R256. While armed the checker first compares (0x160, with `mepc` this word); then it latches the expected
signature. With `status.sigen` = 0 it has no effect. -/
def execBsig (imm : BitVec 21) (s : State) : Out :=
  if s.checking then
    let ck := s.h.checker
    if ck.differs then .next (takeTrapAt s s.pc (Trap.of 0x160 ck.block) true)
    else .next (s.setH { s.h.running with checker := .armed s.pc imm 0 false, pc := s.pc + 4 })
  else finish s

/-! ## Loads and stores (R105 to R109) -/

/-- `ld`: R105. -/
def execLd (rd rs1 : BitVec 5) (imm : BitVec 16) (s : State) : Out :=
  loadRd rd (baseImm s rs1 imm) 8 false s

/-- `lw`: R105. -/
def execLw (rd rs1 : BitVec 5) (imm : BitVec 16) (s : State) : Out :=
  loadRd rd (baseImm s rs1 imm) 4 true s

/-- `lwz`: R105. -/
def execLwz (rd rs1 : BitVec 5) (imm : BitVec 16) (s : State) : Out :=
  loadRd rd (baseImm s rs1 imm) 4 false s

/-- `lbz`: R105. -/
def execLbz (rd rs1 : BitVec 5) (imm : BitVec 16) (s : State) : Out :=
  loadRd rd (baseImm s rs1 imm) 1 false s

/-- `sd`: R105. -/
def execSd (rs rs1 : BitVec 5) (imm : BitVec 16) (s : State) : Out :=
  storeReg rs (baseImm s rs1 imm) 8 s

/-- `sw`: R105. -/
def execSw (rs rs1 : BitVec 5) (imm : BitVec 16) (s : State) : Out :=
  storeReg rs (baseImm s rs1 imm) 4 s

/-- `lx`: R106. -/
def execLx (rd rs1 rs2 : BitVec 5) (width : BitVec 3) (s : State) : Out :=
  loadRd rd (s.x rs1 + s.x rs2) (widthBytes width) (widthSigned width) s

/-- `sx`: R106. -/
def execSx (rs rs1 rs2 : BitVec 5) (width : BitVec 3) (s : State) : Out :=
  storeReg rs (s.x rs1 + s.x rs2) (widthBytes width) s

/-- `lsp`: R106, R109. -/
def execLsp (rd rs1 rs2 : BitVec 5) (width : BitVec 3) (s : State) : Out :=
  match spLoad s (s.x rs1 + s.x rs2) (widthBytes width) with
  | .error (s, t) => raise s t
  | .ok v => writeRd rd (if widthSigned width then sextTo (8 * widthBytes width) v else BitVec.ofNat 64 v) s

/-- `ssp`: R106, R109; in strong mode every earlier access of the hart has been performed first (R306). -/
def execSsp (rs rs1 rs2 : BitVec 5) (width : BitVec 3) (s : State) : Out :=
  Res.out (spStore (if s.strong then flushAll s s.agent else s) (s.x rs1 + s.x rs2) (widthBytes width) (s.x rs).toNat)

/-! ## Atomics, acquire, release and fences (R111 to R114, R297) -/

/-- `amoswapD`: R111, R112. -/
def execAmoswapD (rd rs1 rs2 : BitVec 5) (scope : BitVec 3) (ord : BitVec 2) (s : State) : Out :=
  atomic 8 false true (fun _ b => some b) rd rs1 rs2 scope ord s

/-- `amoaddD`: R111, R112. -/
def execAmoaddD (rd rs1 rs2 : BitVec 5) (scope : BitVec 3) (ord : BitVec 2) (s : State) : Out :=
  atomic 8 false true (fun c b => some ((c + b) % 2 ^ 64)) rd rs1 rs2 scope ord s

/-- `amoandD`: R111, R112. -/
def execAmoandD (rd rs1 rs2 : BitVec 5) (scope : BitVec 3) (ord : BitVec 2) (s : State) : Out :=
  atomic 8 false false (fun c b => some (c &&& b)) rd rs1 rs2 scope ord s

/-- `amoorD`: R111, R112. -/
def execAmoorD (rd rs1 rs2 : BitVec 5) (scope : BitVec 3) (ord : BitVec 2) (s : State) : Out :=
  atomic 8 false false (fun c b => some (c ||| b)) rd rs1 rs2 scope ord s

/-- `amoxorD`: R111, R112. -/
def execAmoxorD (rd rs1 rs2 : BitVec 5) (scope : BitVec 3) (ord : BitVec 2) (s : State) : Out :=
  atomic 8 false false (fun c b => some (c ^^^ b)) rd rs1 rs2 scope ord s

/-- `amominD`: R111, R112. -/
def execAmominD (rd rs1 rs2 : BitVec 5) (scope : BitVec 3) (ord : BitVec 2) (s : State) : Out :=
  atomic 8 false false (fun c b => some (pickSigned 64 false c b)) rd rs1 rs2 scope ord s

/-- `amomaxD`: R111, R112. -/
def execAmomaxD (rd rs1 rs2 : BitVec 5) (scope : BitVec 3) (ord : BitVec 2) (s : State) : Out :=
  atomic 8 false false (fun c b => some (pickSigned 64 true c b)) rd rs1 rs2 scope ord s

/-- `amominzD`: R111, R112. -/
def execAmominzD (rd rs1 rs2 : BitVec 5) (scope : BitVec 3) (ord : BitVec 2) (s : State) : Out :=
  atomic 8 false false (fun c b => some (pickUnsigned false c b)) rd rs1 rs2 scope ord s

/-- `amomaxzD`: R111, R112. -/
def execAmomaxzD (rd rs1 rs2 : BitVec 5) (scope : BitVec 3) (ord : BitVec 2) (s : State) : Out :=
  atomic 8 false false (fun c b => some (pickUnsigned true c b)) rd rs1 rs2 scope ord s

/-- `amocasD`: R111, R112. -/
def execAmocasD (rd rs1 rs2 : BitVec 5) (scope : BitVec 3) (ord : BitVec 2) (s : State) : Out :=
  atomic 8 false true (casValue 8 (s.x rd)) rd rs1 rs2 scope ord s

/-- `amoswapW`: R111, R112. -/
def execAmoswapW (rd rs1 rs2 : BitVec 5) (scope : BitVec 3) (ord : BitVec 2) (s : State) : Out :=
  atomic 4 false true (fun _ b => some b) rd rs1 rs2 scope ord s

/-- `amoaddW`: R111, R112. -/
def execAmoaddW (rd rs1 rs2 : BitVec 5) (scope : BitVec 3) (ord : BitVec 2) (s : State) : Out :=
  atomic 4 false true (fun c b => some ((c + b) % 2 ^ 32)) rd rs1 rs2 scope ord s

/-- `amoandW`: R111, R112. -/
def execAmoandW (rd rs1 rs2 : BitVec 5) (scope : BitVec 3) (ord : BitVec 2) (s : State) : Out :=
  atomic 4 false false (fun c b => some (c &&& b)) rd rs1 rs2 scope ord s

/-- `amoorW`: R111, R112. -/
def execAmoorW (rd rs1 rs2 : BitVec 5) (scope : BitVec 3) (ord : BitVec 2) (s : State) : Out :=
  atomic 4 false false (fun c b => some (c ||| b)) rd rs1 rs2 scope ord s

/-- `amoxorW`: R111, R112. -/
def execAmoxorW (rd rs1 rs2 : BitVec 5) (scope : BitVec 3) (ord : BitVec 2) (s : State) : Out :=
  atomic 4 false false (fun c b => some (c ^^^ b)) rd rs1 rs2 scope ord s

/-- `amominW`: R111, R112. -/
def execAmominW (rd rs1 rs2 : BitVec 5) (scope : BitVec 3) (ord : BitVec 2) (s : State) : Out :=
  atomic 4 false false (fun c b => some (pickSigned 32 false c b)) rd rs1 rs2 scope ord s

/-- `amomaxW`: R111, R112. -/
def execAmomaxW (rd rs1 rs2 : BitVec 5) (scope : BitVec 3) (ord : BitVec 2) (s : State) : Out :=
  atomic 4 false false (fun c b => some (pickSigned 32 true c b)) rd rs1 rs2 scope ord s

/-- `amominzW`: R111, R112. -/
def execAmominzW (rd rs1 rs2 : BitVec 5) (scope : BitVec 3) (ord : BitVec 2) (s : State) : Out :=
  atomic 4 true false (fun c b => some (pickUnsigned false c b)) rd rs1 rs2 scope ord s

/-- `amomaxzW`: R111, R112. -/
def execAmomaxzW (rd rs1 rs2 : BitVec 5) (scope : BitVec 3) (ord : BitVec 2) (s : State) : Out :=
  atomic 4 true false (fun c b => some (pickUnsigned true c b)) rd rs1 rs2 scope ord s

/-- `amocasW`: R111, R112. -/
def execAmocasW (rd rs1 rs2 : BitVec 5) (scope : BitVec 3) (ord : BitVec 2) (s : State) : Out :=
  atomic 4 false true (casValue 4 (s.x rd)) rd rs1 rs2 scope ord s

/-- `amoadd.f32`: R111, R112; rounds in `frm`, sets `fflags`, and returns the old value with [63:32] all ones. -/
def execAmoaddF32 (rd rs1 rs2 : BitVec 5) (scope : BitVec 3) (ord : BitVec 2) (s : State) : Out :=
  let b := fpOperand .f32 (s.x rs2)
  let m := s.rnd
  let s := if ord.toNat / 2 = 1 then release s scope.toNat else strongRelease s
  match rmw s (s.x rs1) 4 false (fun c => some (fAdd .f32 m c b).1) with
  | .error (s, t) => raise s t
  | .ok (c, s) => writeRd rd (fpResult .f32 c) (s.orFlags (fAdd .f32 m c b).2)

/-- `lda.w`: R111. -/
def execLdaW (rd rs1 : BitVec 5) (_scope : BitVec 3) (s : State) : Out := loadRd rd (s.x rs1) 4 true s

/-- `lda.d`: R111. -/
def execLdaD (rd rs1 : BitVec 5) (_scope : BitVec 3) (s : State) : Out := loadRd rd (s.x rs1) 8 false s

/-- `sta.w`: R111; a release, then the store (R114, R293). -/
def execStaW (rs1 rs2 : BitVec 5) (scope : BitVec 3) (s : State) : Out := storeReg rs2 (s.x rs1) 4 (release s scope.toNat)

/-- `sta.d`: R111. -/
def execStaD (rs1 rs2 : BitVec 5) (scope : BitVec 3) (s : State) : Out := storeReg rs2 (s.x rs1) 8 (release s scope.toNat)

/-- `fence`: R114, R297; the release side leaves the earlier writes performed at the level of its scope. A fence of kind
`.acqrel` orders earlier writes before later reads too (R294). -/
def execFence (scope : BitVec 3) (ord : BitVec 2) (s : State) : Out :=
  finish (if ord.toNat / 2 = 1 then release s scope.toNat else s)

/-! ## Floating point (R115 to R118) -/

/-- `faddF64`: R116. -/
def execFaddF64 (rd rs1 rs2 : BitVec 5) (s : State) : Out :=
  fpBin .f64 fAdd rd rs1 rs2 s

/-- `fsubF64`: R116. -/
def execFsubF64 (rd rs1 rs2 : BitVec 5) (s : State) : Out :=
  fpBin .f64 fSub rd rs1 rs2 s

/-- `fmulF64`: R116. -/
def execFmulF64 (rd rs1 rs2 : BitVec 5) (s : State) : Out :=
  fpBin .f64 fMul rd rs1 rs2 s

/-- `fdivF64`: R116. -/
def execFdivF64 (rd rs1 rs2 : BitVec 5) (s : State) : Out :=
  fpBin .f64 fDiv rd rs1 rs2 s

/-- `fsqrtF64`: R116. -/
def execFsqrtF64 (rd rs1 : BitVec 5) (s : State) : Out :=
  fpRd .f64 rd (fSqrt .f64 s.rnd (fpOperand .f64 (s.x rs1))) s

/-- `fmacF64`: R116. -/
def execFmacF64 (rd rs1 rs2 : BitVec 5) (s : State) : Out :=
  fpFused .f64 false false rd rs1 rs2 s

/-- `fmscF64`: R116. -/
def execFmscF64 (rd rs1 rs2 : BitVec 5) (s : State) : Out :=
  fpFused .f64 false true rd rs1 rs2 s

/-- `fnmacF64`: R116. -/
def execFnmacF64 (rd rs1 rs2 : BitVec 5) (s : State) : Out :=
  fpFused .f64 true false rd rs1 rs2 s

/-- `faddF32`: R116. -/
def execFaddF32 (rd rs1 rs2 : BitVec 5) (s : State) : Out :=
  fpBin .f32 fAdd rd rs1 rs2 s

/-- `fsubF32`: R116. -/
def execFsubF32 (rd rs1 rs2 : BitVec 5) (s : State) : Out :=
  fpBin .f32 fSub rd rs1 rs2 s

/-- `fmulF32`: R116. -/
def execFmulF32 (rd rs1 rs2 : BitVec 5) (s : State) : Out :=
  fpBin .f32 fMul rd rs1 rs2 s

/-- `fdivF32`: R116. -/
def execFdivF32 (rd rs1 rs2 : BitVec 5) (s : State) : Out :=
  fpBin .f32 fDiv rd rs1 rs2 s

/-- `fsqrtF32`: R116. -/
def execFsqrtF32 (rd rs1 : BitVec 5) (s : State) : Out :=
  fpRd .f32 rd (fSqrt .f32 s.rnd (fpOperand .f32 (s.x rs1))) s

/-- `fmacF32`: R116. -/
def execFmacF32 (rd rs1 rs2 : BitVec 5) (s : State) : Out :=
  fpFused .f32 false false rd rs1 rs2 s

/-- `fmscF32`: R116. -/
def execFmscF32 (rd rs1 rs2 : BitVec 5) (s : State) : Out :=
  fpFused .f32 false true rd rs1 rs2 s

/-- `fnmacF32`: R116. -/
def execFnmacF32 (rd rs1 rs2 : BitVec 5) (s : State) : Out :=
  fpFused .f32 true false rd rs1 rs2 s

/-- `ftoi`: R117, rounding in `frm`. -/
def execFtoi (rd rs1 : BitVec 5) (single : Bool) (ty : BitVec 2) (s : State) : Out :=
  fpToInt (fpSel single) s.rnd ty rd rs1 s

/-- `ftrc`: R117, toward zero. -/
def execFtrc (rd rs1 : BitVec 5) (single : Bool) (ty : BitVec 2) (s : State) : Out :=
  fpToInt (fpSel single) .rtz ty rd rs1 s

/-- `itof`: R66, R117. -/
def execItof (rd rs1 : BitVec 5) (single : Bool) (ty : BitVec 2) (s : State) : Out :=
  fpRd (fpSel single) rd (fFromInt (fpSel single) s.rnd (intSource ty (s.x rs1))) s

/-- `fnarrowF32`: R117. -/
def execFnarrowF32 (rd rs1 : BitVec 5) (s : State) : Out :=
  fpCvt .f64 .f32 rd rs1 s

/-- `fnarrowF16`: R117. -/
def execFnarrowF16 (rd rs1 : BitVec 5) (s : State) : Out :=
  fpCvt .f32 .f16 rd rs1 s

/-- `fnarrowBf16`: R117. -/
def execFnarrowBf16 (rd rs1 : BitVec 5) (s : State) : Out :=
  fpCvt .f32 .bf16 rd rs1 s

/-- `fwidenF32`: R117. -/
def execFwidenF32 (rd rs1 : BitVec 5) (s : State) : Out :=
  fpCvt .f32 .f64 rd rs1 s

/-- `fwidenF16`: R117. -/
def execFwidenF16 (rd rs1 : BitVec 5) (s : State) : Out :=
  fpCvt .f16 .f32 rd rs1 s

/-- `fwidenBf16`: R117. -/
def execFwidenBf16 (rd rs1 : BitVec 5) (s : State) : Out :=
  fpCvt .bf16 .f32 rd rs1 s

/-- `feq`: R118. -/
def execFeq (rd rs1 rs2 : BitVec 5) (single : Bool) (s : State) : Out :=
  fpCmp (fpSel single) .eq rd rs1 rs2 s

/-- `flt`: R118. -/
def execFlt (rd rs1 rs2 : BitVec 5) (single : Bool) (s : State) : Out :=
  fpCmp (fpSel single) .lt rd rs1 rs2 s

/-- `fle`: R118. -/
def execFle (rd rs1 rs2 : BitVec 5) (single : Bool) (s : State) : Out :=
  fpCmp (fpSel single) .le rd rs1 rs2 s

/-- `fmin`: R118. -/
def execFmin (rd rs1 rs2 : BitVec 5) (single : Bool) (s : State) : Out :=
  fpRd (fpSel single) rd
    (fMinMax (fpSel single) false (fpOperand (fpSel single) (s.x rs1)) (fpOperand (fpSel single) (s.x rs2))) s

/-- `fmax`: R118. -/
def execFmax (rd rs1 rs2 : BitVec 5) (single : Bool) (s : State) : Out :=
  fpRd (fpSel single) rd
    (fMinMax (fpSel single) true (fpOperand (fpSel single) (s.x rs1)) (fpOperand (fpSel single) (s.x rs2))) s

/-- `fclass`: R118; sets no flag. -/
def execFclass (rd rs1 : BitVec 5) (single : Bool) (s : State) : Out :=
  writeRd rd (BitVec.ofNat 64 (fClass (fpSel single) (fpOperand (fpSel single) (s.x rs1)))) s

/-! ## Words that no description assigns -/

/-- An illegal encoding: the trap of R84, with the lowest `sub` that applies. A word that is none (the decoder never gives
one) traps as unassigned, `sub` 1. -/
def execIllegalEncoding (word : BitVec 32) (s : State) : Out :=
  raise s (Trap.illegal word (if subOf word.toNat = 0 then 1 else subOf word.toNat))

end Sys2Proof.Machine
end

