-- ==== Sys2Proof/Machine/SprayEvents.lean ====
section
/-! DEFINITION. Events of the mesh and of the Spray engines: deliveries, fragments, timers, acknowledgements, repair (R190, R194,
R206, R271, R308 to R325, R363). Fragments between dies of the package are held in `State.frags`, control fragments in `State.ctls`, from
their sending to their arrival; one from another package arrives without either, and one for another package goes to `State.outFrags`. -/

namespace Sys2Proof.Machine

/-! ## Deliveries on the mesh (R183, R190, R200, R206, R310, R363) -/

/-- The message at index i of the mesh, where its kind is one of `kinds`, has arrived whole: it is applied, or discarded where its receiver
does not take it (R363). A part of a copy is acknowledged (R200). -/
def deliver (kinds : BitVec 3 → Bool) (i : Nat) (s : State) : State :=
  match s.net[i]? with
  | none => s
  | some m =>
    if kinds m.kind then
      let s := { s with net := s.net.eraseIdx i }
      if accepted s m then partDone (arrive s m) m else s
    else s

/-- MESSAGE_DELIVERY: R190. -/
def execMessageDelivery (i : Nat) (s : State) : Out := .next (deliver (fun k => decide (k.toNat < 3)) i s)

/-- DRAIN_DELIVERY: R183. -/
def execDrainDelivery (i : Nat) (s : State) : Out := .next (deliver (fun k => decide (k = 3)) i s)

/-- SCOPYR_PART_DELIVERY: R200. -/
def execScopyrPartDelivery (i : Nat) (s : State) : Out := .next (deliver (fun k => decide (k = 4)) i s)

/-- TASK_BIT_MESSAGE: R206. -/
def execTaskBitMessage (i : Nat) (s : State) : Out := .next (deliver (fun k => decide (k = 5)) i s)

/-- LOCQ_QUERY: a query of another package's core is answered (R194). -/
def execLocqQuery (src dst : BitVec 32) (s : State) : Out :=
  .next { s with answers := s.answers ++ [(src, locqWord s dst)] }

/-- LOCQ_REPLY: the answer reaches a hart that waits for it (R194). -/
def execLocqReply (hart : Nat) (value : BitVec 64) (s : State) : Out :=
  let h := s.hartOf hart
  .next (if h.asked && decide (h.wait.reason = 0x06) then s.setHartOf hart { h with reply := some value } else s)

/-- A logical core of the package is marked: `fhold` of a channel is 1, or a hart of its site is in fault service (R271). -/
def marked (s : State) (v : BitVec 32) : Bool :=
  match siteOf s v with
  | none => false
  | some k => ((s.coreOf k).tasks.any fun e => e.2.fhold) || (hartsOf k).any fun h => (s.hartOf h).inService

/-- The freeze map may tell a core this of a peer: what holds of a peer in this package, and whatever another package tells (R271). -/
def markHolds (s : State) (peer : BitVec 32) (mark : Bool) : Bool :=
  decide (coordPkg peer ≠ s.hostif.regs.pkgid.toNat) || decide (marked s peer = mark)

/-- FREEZE_MARK_ARRIVAL: a mark or its clearing reaches a core (R271). -/
def execFreezeMarkArrival (core : Nat) (peer : BitVec 32) (mark : Bool) (s : State) : Out :=
  let c := s.coreOf core
  let rest := c.marks.filter (· ≠ peer)
  .next (if markHolds s peer mark then s.setCoreOf core { c with marks := if mark then rest ++ [peer] else rest } else s)

/-! ## Streams (R317, R319) -/

/-- The stream table entry of a source die. -/
def Spray.rxOf (sp : Spray) (peer : Nat) : StreamRx := smGet StreamRx.reset peer sp.rx

def Spray.txOf (sp : Spray) (peer : Nat) : StreamTx := smGet StreamTx.reset peer sp.tx

/-- How far a sequence lies above `ack`, mod 2^32. -/
def StreamRx.ahead (r : StreamRx) (seq : BitVec 32) : Nat := (seq - r.ack).toNat

/-- The sequence has been finished: below `ack`, or marked above it (R317). -/
def StreamRx.isFinished (r : StreamRx) (seq : BitVec 32) : Bool :=
  if r.ahead seq < 32 then r.finished.getLsbD (r.ahead seq) else decide (2 ^ 31 ≤ r.ahead seq)

/-- `high` raised to a sequence (R319, R320). -/
def StreamRx.raise (r : StreamRx) (next : BitVec 32) : StreamRx :=
  if (next - r.high).toNat < 2 ^ 31 then { r with high := next } else r

/-- `ack` moves over finished sequences, at most 32 of them (R319, R320). -/
def StreamRx.advance (r : StreamRx) : Nat → StreamRx
  | 0 => r
  | n + 1 =>
    if r.finished.getLsbD 0 then
      StreamRx.advance { r with
        ack := r.ack + 1, finished := r.finished >>> 1, lost := r.lost >>> 1
        lostmap := (r.lostmap <<< 1) ||| (if r.lost.getLsbD 0 then 1 else 0) } n
    else r

/-- The stream is one of a die of this package. -/
def inPackage (s : State) (peer : Nat) : Bool := decide (peer / 4 = s.hostif.regs.pkgid.toNat)

/-- The key of a die of this package. -/
def dieKey (s : State) (die : Nat) : Nat := 4 * s.hostif.regs.pkgid.toNat + die % 4

/-- First logical core of a die of a package, by the die's key: it stands in the header of a control fragment (log 41). -/
def dieCore (key : Nat) : BitVec 32 := BitVec.ofNat 32 (key / 4 * 2 ^ 22 + 25 * (key % 4 / 2) * 2 ^ 8 + 40 * (key % 2))

/-- A control fragment from one die to another: 0 ack, 1 request, 2 probe (R313, R320). -/
def ctlFragment (src dst type : Nat) (seq : BitVec 32) (data : List Byte) : Fragment :=
  let f0 : Fragment :=
    { seq := seq, src := dieCore src, dst := dieCore dst, desc := 0, kind := 7, index := 0xFF, grp := BitVec.ofNat 8 type, rate := 0
      rownib := 0, data := data, crc := 0, ctag := 0, copy := 0 }
  { f0 with crc := fragCrc f0 }

def ackData (lostmap : BitVec 32) : List Byte := leBytes 4 lostmap.toNat
def requestData (groups : List Nat) : List Byte := leFields 8 groups

/-- The two paths a control fragment takes: the first and the last live one, one where there is one (R320; which two is log 41). -/
def ctlPaths (live : List Route) : List Route :=
  match live with
  | [] => []
  | [r] => [r]
  | r :: rs => [r, rs.getLastD r]

/-- A control fragment leaves die `die` for a peer (R320). -/
def sendCtl (s : State) (die peer type : Nat) (seq : BitVec 32) (data : List Byte) : State :=
  let f := ctlFragment (dieKey s die) peer type seq data
  match routeClass s die f.dst with
  | none => s
  | some cls =>
    let fl := (ctlPaths (livePaths s die cls f.dst)).map (·.carry f)
    if cls = 3 then { s with outFrags := s.outFrags ++ fl } else { s with ctls := s.ctls ++ fl }

/-- A control fragment of a peer arrives: one from this package was in flight, and neither copy is any longer, for the second has no further
effect (R320); none where it was not in flight. -/
def takeCtl (s : State) (die peer type : Nat) (seq : BitVec 32) (data : List Byte) : Option State :=
  let f := ctlFragment peer (dieKey s die) type seq data
  let mine := fun g : Flight => decide (g.die = die % 4) && decide (g.frag = f)
  if inPackage s peer then (if s.ctls.any mine then some { s with ctls := s.ctls.filter fun g => !mine g } else none) else some s

/-- A buffer for a stream's sequence. -/
def Spray.buf (sp : Spray) (peer : Nat) (seq : BitVec 32) : Option DecodeBuf := sp.bufs.find? fun b => decide (b.peer = peer) && decide (b.seq = seq)

def Spray.dropBuf (sp : Spray) (peer : Nat) (seq : BitVec 32) : Spray :=
  { sp with bufs := sp.bufs.filter fun b => !(decide (b.peer = peer) && decide (b.seq = seq)) }

def Spray.setBuf (sp : Spray) (b : DecodeBuf) : Spray := { sp.dropBuf b.peer b.seq with bufs := (sp.dropBuf b.peer b.seq).bufs ++ [b] }

/-- The lowest sequence of a stream from `ack` to `high` − 1 that is not finished and has no buffer (R319). -/
def Spray.missing (sp : Spray) (peer : Nat) : Option (BitVec 32) :=
  let r := sp.rxOf peer
  ((List.range (min 32 (r.high - r.ack).toNat)).map fun i => r.ack + BitVec.ofNat 32 i).find? fun q =>
    !r.isFinished q && (sp.buf peer q).isNone

/-- Free buffers take missing sequences, streams in ascending order of their die, lowest sequence first (R319, log 19). -/
def Spray.fill (sp : Spray) : Nat → Spray
  | 0 => sp
  | n + 1 =>
    if 512 ≤ sp.bufs.length then sp
    else
      match sp.rx.findSome? fun e => (sp.missing e.1).map fun q => (e.1, q) with
      | none => sp
      | some (p, q) => Spray.fill { sp with bufs := sp.bufs ++ [{ peer := p, seq := q, st := .collect, frags := [] }] } n

def Spray.refill (sp : Spray) : Spray := sp.fill (512 - sp.bufs.length)

/-- A sequence is finished, `ack` advances, and an ack goes to the sender where it has moved; free buffers take what is missing (R319,
R320). -/
def finishSeq (s : State) (die peer : Nat) (seq : BitVec 32) (lost : Bool) : State :=
  let sp := (s.die die).spray.dropBuf peer seq
  let r := sp.rxOf peer
  let bit := (1 : BitVec 32) <<< r.ahead seq
  let r1 := { r with finished := r.finished ||| bit, lost := if lost then r.lost ||| bit else r.lost }.advance 32
  let s := s.setSpray die ({ sp with rx := smSet peer r1 sp.rx }.refill)
  if r1.ack = r.ack then s else sendCtl s die peer 0 r1.ack (ackData r1.lostmap)

/-! ## Decoding (R314, R315, R318) -/

/-- Group and group count of a fragment (R313). -/
def fragGroup (f : Fragment) : Nat := f.grp.toNat / 16
def fragGroups (f : Fragment) : Nat := f.grp.toNat % 16

/-- Data fragments per group of a fragment's rate (R313). -/
def fragK (f : Fragment) : Nat := (rateKM f.rate.toNat).1

/-- Fragments of a group that a buffer holds. -/
def DecodeBuf.inGroup (b : DecodeBuf) (g : Nat) : List Fragment := b.frags.filter fun f => fragGroup f = g

/-- The group has reached k fragments. -/
def DecodeBuf.decoded (b : DecodeBuf) (g : Nat) : Bool :=
  match b.frags with
  | f :: _ => decide (fragK f ≤ (b.inGroup g).length)
  | [] => false

/-- Every group has. -/
def DecodeBuf.complete (b : DecodeBuf) : Bool :=
  match b.frags with
  | f :: _ => (List.range (fragGroups f)).all b.decoded
  | [] => false

/-- A data fragment of some group is missing: the decoding rebuilds it (R325). -/
def DecodeBuf.rebuilds (b : DecodeBuf) : Bool :=
  match b.frags with
  | f :: _ => (List.range (fragGroups f)).any fun g => (b.inGroup g).any fun h => decide (fragK f ≤ h.index.toNat)
  | [] => false

/-- A row scaled in GF(2^8). -/
def gfScale (c : Nat) (r : List Nat) : List Nat := r.map (gfMul c)

/-- r + c × p. -/
def gfAddRow (c : Nat) (p r : List Nat) : List Nat := List.zipWith (fun a b => a ^^^ gfMul c b) r p

/-- Gauss–Jordan elimination by columns: rows not used yet, and the rows solved so far in column order. -/
def gfSolve : Nat → Nat → List (List Nat) → List (List Nat) → List (List Nat)
  | 0, _, _, done => done
  | n + 1, col, rows, done =>
    match rows.find? fun r => decide (r.getD col 0 ≠ 0) with
    | none => done
    | some p =>
      let q := gfScale (gfInv (p.getD col 0)) p
      let clear := fun r : List Nat => gfAddRow (r.getD col 0) q r
      gfSolve n (col + 1) ((rows.erase p).map clear) (done.map clear ++ [q])

/-- The equation a fragment gives: its coefficients over the k data fragments, then its bytes (R315). -/
def fragRow (k : Nat) (f : Fragment) : List Nat :=
  let i := f.index.toNat
  (List.range k).map (fun j => if i < k then b2n (decide (i = j)) else cauchy (i - k) j) ++ f.data.map BitVec.toNat

/-- The bytes of a group from k of its fragments (R315). -/
def decodeGroup (k : Nat) (fs : List Fragment) : List Byte :=
  ((gfSolve k 0 ((fs.take k).map (fragRow k)) []).map fun r => (r.drop k).map (BitVec.ofNat 8)).flatten

/-- Payload bytes of a message by its kind (R185, R189, R206, log 16). -/
def payloadLen (kind : BitVec 8) (desc : Word) : Nat :=
  let k := kind.toNat % 8
  if k = 1 then 2 ^ (kind.toNat / 8 % 4) else if k = 2 ∨ k = 6 then 0 else if k = 5 then 4 else descLen desc

/-- The message a complete buffer holds (R315, R317). -/
def DecodeBuf.message (b : DecodeBuf) : Option Message :=
  match b.frags with
  | [] => none
  | f :: _ =>
    let len := payloadLen f.kind f.desc
    let k := fragK f
    let data := ((List.range (fragGroups f)).map fun g =>
      (decodeGroup k (b.inGroup g)).take (min (256 * k) (len - 256 * k * g))).flatten
    some { src := f.src, dst := f.dst, desc := f.desc, kind := BitVec.ofNat 3 (f.kind.toNat % 8)
           width := BitVec.ofNat 2 (f.kind.toNat / 8 % 4), rownib := f.rownib, data := data, ctag := f.ctag
           hart := 0, serial := 0, req := none, copy := f.copy, launch := none }

/-- How an arriving fragment is disposed of (R318): the counter and its half, or none where it is stored. -/
def disposal (sp : Spray) (peer : Nat) (f : Fragment) : Option (Nat × Bool) :=
  let r := sp.rxOf peer
  let b := sp.buf peer f.seq
  let first := b.bind fun b => b.frags.head?
  if f.crc ≠ fragCrc f ∨ (first.map fun g => decide (g.rate ≠ f.rate)).getD false then some (3, false)
  else if 32 ≤ r.ahead f.seq ∧ r.isFinished f.seq = false then some (3, true)
  else if r.isFinished f.seq
      ∨ (b.map fun b => b.decoded (fragGroup f) || (b.inGroup (fragGroup f)).any fun g => decide (g.index = f.index)).getD false then some (2, false)
  else if b.isNone ∧ 512 ≤ sp.bufs.length then some (2, true)
  else none

/-- A fragment is stored; a message that is complete goes to its core on the response network (R319). `decoded` rises then, as in R358
(log 41). -/
def storeFragment (sp : Spray) (peer : Nat) (f : Fragment) : Spray :=
  let b := (sp.buf peer f.seq).getD { peer := peer, seq := f.seq, st := .collect, frags := [] }
  let b := { b with frags := b.frags ++ [f] }
  if b.complete then
    let sp := sp.setBuf { b with st := .deliver }
    sp.setCnt 1 fun w => bumpHalf (bumpHalf w true (b2n b.rebuilds)) false 1
  else sp.setBuf b

/-! ## Timers and acceptance (R319, R322) -/

/-- What a request names of a group of k + m fragments: the indices missing, and the count held in byte 7 (R320). -/
def groupEntry (n : Nat) (held : List Fragment) : Nat :=
  ((List.range n).map fun i => if held.any fun f => decide (f.index.toNat = i) then 0 else 2 ^ i).sum + held.length * 2 ^ 56

/-- The entries of a request, none while no fragment is held (R320). -/
def DecodeBuf.groupEntries (b : DecodeBuf) : List Nat :=
  match b.frags with
  | f :: _ =>
    let (k, m) := rateKM f.rate.toNat
    (List.range (fragGroups f)).map fun g => groupEntry (k + m) (b.inGroup g)
  | [] => []

/-- A core's copy with one more part lost (R200). -/
def Core.losePart (c : Core) (f : Fragment) : Core :=
  let p := c.copyOf f.src f.copy
  c.setCopy { p with got := p.got ++ [partIndex f.rownib], lost := true } (partCount f.rownib)

/-- The loss of a message is to be recorded: of the parts of one copy, only the first that is lost (R200). The copy, at the core or beside its
save record, notes the loss (log 32). -/
def notePartLoss (s : State) (f : Fragment) : Bool × State :=
  if f.kind.toNat % 8 ≠ 4 then (true, s)
  else
    match (ctxTagged s f.dst f.ctag).filter fun e => e.2.recorded f.dst with
    | some (n, cx) => (!(copyIn (cx.side f.dst).copies f.src f.copy).lost, onRecord s n cx f.dst fun c => c.losePart f)
    | none =>
      match siteOf s f.dst with
      | none => (true, s)
      | some k => (!((s.coreOf k).copyOf f.src f.copy).lost, atSite s f.dst fun c => c.losePart f)

/-- The losses recorded at the receiving end count in `lostrx` (R322, R325). -/
def countLost (s : State) (die : Nat) : State := s.setSpray die ((s.die die).spray.setCnt 4 fun w => bumpQuarter w 0)

/-- A sequence is lost at the receiving end: what is known of it is recorded (R322). -/
def loseAtReceiver (s : State) (die peer : Nat) (b : DecodeBuf) : State :=
  let s := match b.frags with
    | [] => countLost s die
    | f :: _ =>
      let (first, s) := notePartLoss s f
      if first then
        lostAtReceiver (countLost s die) f.src f.dst (BitVec.ofNat 3 (f.kind.toNat % 8)) (BitVec.ofNat 5 (descTag f.desc)) f.ctag
      else s
  finishSeq s die peer b.seq true

/-- REASSEMBLY_TIMER_EXPIRY: R319. -/
def execReassemblyTimerExpiry (die peer : Nat) (seq : BitVec 32) (s : State) : Out :=
  .next (match (s.die die).spray.buf peer seq with
    | none => s
    | some b =>
      match b.st with
      | .deliver => s
      | .collect =>
        let sp := ((s.die die).spray.setBuf { b with st := .requested }).setCnt 4 fun w => bumpQuarter w 3
        sendCtl (s.setSpray die sp) die peer 1 seq (requestData b.groupEntries)
      | .requested => loseAtReceiver s die peer b)

/-- A message that the receiver does not take is finished and lost (R363). -/
def refuseAtReceiver (s : State) (die peer : Nat) (b : DecodeBuf) : State := loseAtReceiver s die peer b

/-- DECODED_PACKET_ACCEPTED: the landing buffer has taken the packet; it is applied, finished and acknowledged (R310, R317, R319). -/
def execDecodedPacketAccepted (die peer : Nat) (seq : BitVec 32) (s : State) : Out :=
  .next (match (s.die die).spray.buf peer seq with
    | none => s
    | some b =>
      match b.st, b.message with
      | .deliver, some m =>
        if accepted s m then finishSeq (arrive s m) die peer seq false
        else refuseAtReceiver s die peer b
      | _, _ => s)

/-! ## The sending engine (R320, R321) -/

/-- A retained message that an ack covers leaves the stream: delivered, or lost where `lostmap` marks it (R321, R322). -/
def ackEntry (ack lostmap : BitVec 32) (s : State) (e : Retained) : State :=
  let b := (ack - e.seq).toNat - 1
  if lostmap.getLsbD b then lostAtSender s e.msg else partDone s e.msg

/-- The ack covers a sequence (R321). -/
def ackCovers (ack seq : BitVec 32) : Bool := decide (1 ≤ (ack - seq).toNat) && decide ((ack - seq).toNat ≤ 32)

/-- An ack reaches the sender (R321). -/
def ackArrives (s : State) (die peer : Nat) (ack lostmap : BitVec 32) : State :=
  let sp := (s.die die).spray
  let tx := sp.txOf peer
  let out := tx.retained.filter fun e => ackCovers ack e.seq
  let tx1 := { tx with retained := tx.retained.filter fun e => !ackCovers ack e.seq }
  out.foldl (ackEntry ack lostmap) (s.setSpray die { sp with tx := smSet peer tx1 sp.tx })

/-- The fresh parity fragments that answer a request of group entries: in each group k less the count held, rows m onward (R321). -/
def freshFragments (e : Retained) (groups : List Nat) : List Fragment :=
  let (k, m) := rateKM e.rate.toNat
  (List.range (groupCount e.msg.data.length k)).flatMap fun g =>
    (List.range (k - bitsOf (groups.getD g 0) 56 8)).map fun i => cutFragment e.msg e.seq e.rate.toNat g (k + m + i)

/-- A repair request reaches the sender (R321). -/
def requestArrives (s : State) (die peer : Nat) (seq : BitVec 32) (groups : List Nat) : State :=
  let sp := (s.die die).spray
  let tx := sp.txOf peer
  match tx.retained.find? fun e => decide (e.seq = seq) && !e.answered with
  | none => s
  | some e =>
    let fr := freshFragments e groups
    let tx1 := { tx with retained := tx.retained.map fun x => if x.seq = seq then { x with answered := true } else x }
    let sp1 := ({ sp with tx := smSet peer tx1 sp.tx }.setCnt 0 fun w => bumpHalf w true fr.length).setCnt 4 fun w => bumpQuarter w 2
    (s.setSpray die sp1).fly e.cls (flights (livePaths s die e.cls e.msg.dst) fr)

/-- A probe reaches the receiver, which answers with an ack (R320). -/
def probeArrives (s : State) (die peer : Nat) (next : BitVec 32) : State :=
  let sp := (s.die die).spray
  let r := (sp.rxOf peer).raise next
  sendCtl (s.setSpray die ({ sp with rx := smSet peer r sp.rx }.refill)) die peer 0 r.ack (ackData r.lostmap)

/-- SPRAY_ACK: R320, R321. -/
def execSprayAck (die peer : Nat) (ack lostmap : BitVec 32) (s : State) : Out :=
  .next (match takeCtl s die peer 0 ack (ackData lostmap) with
    | none => s
    | some s => ackArrives s die peer ack lostmap)

/-- SPRAY_REQUEST: R320, R321. -/
def execSprayRequest (die peer : Nat) (seq : BitVec 32) (groups : List Nat) (s : State) : Out :=
  .next (match takeCtl s die peer 1 seq (requestData groups) with
    | none => s
    | some s => requestArrives s die peer seq groups)

/-- SPRAY_PROBE: R320. -/
def execSprayProbe (die peer : Nat) (next : BitVec 32) (s : State) : Out :=
  .next (match takeCtl s die peer 2 next [] with
    | none => s
    | some s => probeArrives s die peer next)

/-- PROBE_INTERVAL_EXPIRY: R321. -/
def execProbeIntervalExpiry (die peer : Nat) (s : State) : Out :=
  let tx := (s.die die).spray.txOf peer
  .next (if tx.retained = [] then s else sendCtl s die peer 2 tx.next [])

/-! ## Arrival of a fragment (R311, R318, R319) -/

/-- A control fragment whose `crc` holds does what its type says (R320). -/
def ctlArrives (s : State) (die : Nat) (f : Fragment) : State :=
  let peer := streamKey f.src
  let type := f.grp.toNat % 16
  if type = 0 then ackArrives s die peer f.seq (BitVec.ofNat 32 (leValue (f.data.take 4)))
  else if type = 1 then
    requestArrives s die peer f.seq ((List.range (f.data.length / 8)).map fun g => leValue ((f.data.drop (8 * g)).take 8))
  else if type = 2 then probeArrives s die peer f.seq
  else s

/-- How an arriving fragment of a message is disposed of or stored (R318, R319). -/
def storeOrDrop (s : State) (die path : Nat) (f : Fragment) : State :=
  let sp := (s.die die).spray
  let peer := streamKey f.src
  let high := fun sp : Spray => { sp with rx := smSet peer ((sp.rxOf peer).raise (f.seq + 1)) sp.rx }
  match disposal sp peer f with
  | some (2, true) => s.setSpray die ((high sp).setCnt 2 fun w => bumpHalf w true 1)
  | some (i, hi) =>
    let s := s.setSpray die (sp.setCnt i fun w => bumpHalf w hi 1)
    if i = 3 ∧ hi = false then pathFault s die path else s
  | none => s.setSpray die (high (storeFragment sp peer f)).refill

/-- A fragment reaches an engine on a path (R318, R319); one whose `crc` fails counts there and on the path (R436). -/
def receiveFragment (s : State) (die path : Nat) (f : Fragment) : State :=
  if f.kind.toNat % 8 = 7 ∧ f.crc = fragCrc f then ctlArrives s die f else storeOrDrop s die path f

/-- A fragment that arrives at a fabric port of another die than its own crosses UCIe undecoded (R311), on the path its index gives in that
route (R316). -/
def relayFragment (s : State) (die : Nat) (f : Fragment) : State :=
  match routeClass s die f.dst with
  | none => s
  | some cls =>
    let fl := flights (livePaths s die cls f.dst) [f]
    if cls = 3 then s else if f.kind.toNat % 8 = 7 then { s with ctls := s.ctls ++ fl } else s.fly cls fl

/-- The flight that an arriving fragment ends: the fragment as it was sent, or one that fails its CRC now. -/
def flightIn (l : List Flight) (die path : Nat) (f : Fragment) : Option Flight :=
  l.find? fun g => decide (g.die = die) && decide (g.path = path) && (decide (g.frag = f) || decide (f.crc ≠ fragCrc f))

/-- A control fragment leaves the paths: with one that its CRC holds for goes the copy on the other path, which has no further effect (R320); a corrupted
one goes alone. -/
def landCtl (ctls : List Flight) (g : Flight) (f : Fragment) : List Flight :=
  if g.frag = f then ctls.filter fun h => !(decide (h.die = g.die) && decide (h.frag = f)) else ctls.erase g

/-- FRAGMENT_ARRIVAL: R311, R318, R319. A fragment between dies of the package arrives from the path it was sent on; one on a fabric port
comes from another package. -/
def execFragmentArrival (die path : Nat) (f : Fragment) (s : State) : Out :=
  .next (match flightIn s.frags die path f, flightIn s.ctls die path f with
    | some g, _ => receiveFragment { s with frags := s.frags.erase g } die path f
    | none, some g => receiveFragment { s with ctls := landCtl s.ctls g f } die path f
    | none, none =>
      if path < 16 then s
      else if dieOfCoord f.dst = die % 4 then receiveFragment s die path f
      else relayFragment s die f)

end Sys2Proof.Machine
end

