-- ==== Sys2Proof/Machine/System.lean ====
section
/-! DEFINITION. System instructions: major 0x3E (R41 to R49, R230 to R236). -/

namespace Sys2Proof.Machine

/-! ## System registers (R41 to R49) -/

/-- `status` in the layout of R47; `lthr` is 1 while the hart is lane-threaded. -/
def Status.word (t : Status) : Word :=
  BitVec.ofNat 64 (b2n t.lthr * 2 ^ 11 + b2n t.sigen * 2 ^ 10 + b2n t.mmstrong * 2 ^ 9 + t.spp.toNat * 2 ^ 4 + t.mpp.toNat * 2 ^ 2 + t.priv.toNat)

/-- Lowest level that may access a register number; numbers with bits [11:10] = 0b10 are unassigned (R41). -/
def regLevel (n : BitVec 12) : Nat := n.toNat / 2 ^ 10

/-- The value of a system register of the executing hart (R42 to R49); none for an unassigned number. -/
def sysReg (s : State) (n : BitVec 12) : Option Word :=
  let h := s.h
  let c := s.c
  match n.toNat with
  | 0x000 => some (h.shape.vl.setWidth 64)
  | 0x001 => some (h.shape.vrows.setWidth 64)
  | 0x002 => some (h.shape.sew.setWidth 64)
  | 0x003 => some h.shape.vstart
  | 0x004 => some h.shape.vstop
  | 0x005 => some (h.shape.vslip.setWidth 64)
  | 0x010 => some (h.user.frm.setWidth 64)
  | 0x011 => some (h.user.fflags.setWidth 64)
  | 0x012 => some (h.user.srseed.setWidth 64)
  | 0x020 => some (c.weir.wmember.setWidth 64)
  | 0x100 => some (c.coreid.setWidth 64)
  | 0x101 => some (BitVec.ofNat 64 s.hartNo)
  | 0x102 => some h.user.cyc
  | 0x103 => some ((c.sluice.chans.get 0).done.setWidth 64)
  | 0x104 => some ((c.sluice.chans.get 1).done.setWidth 64)
  | 0x105 => some ((c.sluice.chans.get 2).done.setWidth 64)
  | 0x106 => some ((c.sluice.chans.get 3).done.setWidth 64)
  | 0x400 => some h.trap.status.word
  | 0x401 => some (h.trap.cause.setWidth 64)
  | 0x402 => some h.trap.epc
  | 0x403 => some h.trap.tval
  | 0x404 => some h.trap.restart
  | 0x405 => some h.trap.tvec
  | 0x406 => some h.trap.sscratch
  | 0xC00 => some (h.trap.mcause.setWidth 64)
  | 0xC01 => some h.trap.mepc
  | 0xC02 => some h.trap.mtval
  | 0xC03 => some h.trap.mtvec
  | 0xC04 => some h.trap.mscratch
  | 0xC05 => some (h.trap.tdeleg.setWidth 64)
  | _ => none

/-- The register may be accessed at a level. -/
def levelOk (priv : BitVec 2) (n : BitVec 12) : Bool := decide (regLevel n ≤ priv.toNat)

/-- A register that no `sput` writes (R41). -/
def readOnly (n : BitVec 12) : Bool := decide (n.toNat ≤ 2) || (decide (0x100 ≤ n.toNat) && decide (n.toNat < 0x200))

/-- `status` after an `sput` (R47, R231): `spp` does not take 0b11 from S, `mpp` does not take 0b10; `sigen` and `mpp` are written only at M. That
`spp` does not take 0b10 at M either is the model's choice (log 41). -/
def Status.put (t : Status) (v : Word) (m : Bool) : Status :=
  let spp : BitVec 2 := BitVec.ofNat 2 (bitsOf v.toNat 4 2)
  let mpp : BitVec 2 := BitVec.ofNat 2 (bitsOf v.toNat 2 2)
  { t with mmstrong := v.getLsbD 9
           spp := if spp = 2 || (!m && spp = 3) then t.spp else spp
           sigen := if m then v.getLsbD 10 else t.sigen
           mpp := if m && mpp ≠ 2 then mpp else t.mpp }

/-- The fields of an element position that are written: row and element, and `valid` (R44). -/
def posPut (v : Word) (valid : Bool) : Word := v &&& (if valid then 0x80000000000707FF else 0x707FF)

/-- Trap registers after an `sput` (R43, R44, R47 to R49). -/
def TrapRegs.put (t : TrapRegs) (n : Nat) (v : Word) (m : Bool) : TrapRegs :=
  match n with
  | 0x400 => { t with status := t.status.put v m }
  | 0x401 => { t with cause := v.setWidth 9 }
  | 0x402 => { t with epc := v &&& ~~~3 }
  | 0x403 => { t with tval := v }
  | 0x404 => if m then { t with restart := posPut v true } else t
  | 0x405 => { t with tvec := v &&& ~~~3 }
  | 0x406 => { t with sscratch := v }
  | 0xC00 => { t with mcause := v.setWidth 9 }
  | 0xC01 => { t with mepc := v &&& ~~~3 }
  | 0xC02 => { t with mtval := v }
  | 0xC03 => { t with mtvec := v &&& ~~~3 }
  | 0xC04 => { t with mscratch := v }
  | 0xC05 => { t with tdeleg := v.setWidth 11 }
  | _ => t

/-- The hart after an `sput` of one of its registers (R231). -/
def Hart.putReg (h : Hart) (n : Nat) (v : Word) (m : Bool) : Hart :=
  match n with
  | 0x003 => { h with shape := { h.shape with vstart := posPut v false } }
  | 0x004 => { h with shape := { h.shape with vstop := posPut v true } }
  | 0x005 => { h with shape := { h.shape with vslip := v.setWidth 4 } }
  | 0x010 => { h with user := { h.user with frm := v.setWidth 3 } }
  | 0x011 => { h with user := { h.user with fflags := v.setWidth 5 } }
  | 0x012 => { h with user := { h.user with srseed := v.setWidth 32 } }
  | n => { h with trap := h.trap.put n v m }

/-- The state after an `sput` that passes its checks (R204, R231). -/
def putSysReg (s : State) (n : BitVec 12) (v : Word) : State :=
  if n = 0x020 then putWmember s (v.setWidth 16) else s.setH (s.h.putReg n.toNat v (s.priv = 3))

/-- `sget`: R231. -/
def execSget (rd : BitVec 5) (num : BitVec 12) (s : State) : Out :=
  match sysReg s num, levelOk s.priv num with
  | some v, true => finish (s.setX rd v)
  | _, _ => raise s (Trap.operand (num.setWidth 64))

/-- `sput`: R231. A write of `frm` traps by the field's three bits, and `tval` is the whole value; for a value above 7 that is the model's choice
(log 41). -/
def execSput (rs1 : BitVec 5) (num : BitVec 12) (s : State) : Out :=
  let v := s.x rs1
  if (sysReg s num).isNone || !levelOk s.priv num || readOnly num then raise s (Trap.operand (num.setWidth 64))
  else if num = 0x010 ∧ 5 ≤ v.toNat % 8 then raise s (Trap.operand v)
  else finish (putSysReg s num v)

/-! ## Traps and returns (R232, R233) -/

/-- `trap`: R232. -/
def execTrap (num : BitVec 12) (s : State) : Out := raise s (Trap.of (0x044 + s.priv.setWidth 9) (num.setWidth 64))

/-- `break`: R232. -/
def execBrk (num : BitVec 12) (s : State) : Out := raise s (Trap.of 0x048 (num.setWidth 64))

/-- An instruction below its level (R230). -/
def privileged (s : State) : Out := raise s (Trap.of 0x043 s.wordVal)

/-- A return is an end word: it has its effect, and a signature that differs then traps at M (R233, R256 to R258). -/
def returnWith (s : State) (f : Hart → Hart) : Out :=
  let ck := s.checkerNext
  let t := s.setH (f s.h.running)
  .next (if ck.differs then takeTrapAt t (s.pc + 4) (Trap.of 0x160 ck.block) true else t)

/-- `sret`: R233. -/
def execSret (s : State) : Out := if s.priv = 0 then privileged s else returnWith s Hart.returnS

/-- `mret`: R233. -/
def execMret (s : State) : Out := if s.priv ≠ 3 then privileged s else returnWith s Hart.returnM

/-! ## Fences and caches (R234, R235) -/

/-- `ifence`: R234. -/
def execIfence (s : State) : Out :=
  let s := flushAll s s.agent
  finish (s.setC { s.c with caches := { s.c.caches with l1i := [] } })

/-- Where a cache-maintenance address lies: canonical, translated as a load (R235). -/
def maintPlace (s : State) (ea : Word) : Res (Loc × State) :=
  if canonical ea = false then .error (s, Trap.of 0x0E1 ea)
  else if s.priv = 3 then .ok (physLoc s.agent ea.toNat, s)
  else
    match translate s s.agent ea 0 (s.priv = 0) false with
    | .error c => .error (s, Trap.of c ea)
    | .ok (x, s) => .ok (x.loc, s)

/-- A maintenance operation on one line, after every earlier store of the hart; `f` acts on its place. -/
def maintLine (s : State) (ea : Word) (f : State → Loc → State) : Out :=
  match maintPlace s ea with
  | .error (s, t) => raise s t
  | .ok (l, s) => finish (f (flushAll s s.agent) l)

/-- Drops the lines of the executing core's scalar L1 data cache that a predicate accepts. -/
def dropLines (s : State) (f : Nat → Bool) : State :=
  s.setC { s.c with caches := { s.c.caches with l1d := s.c.caches.l1d.filter fun l => !f l } }

/-- `cinv`: R235. -/
def execCinv (rs1 : BitVec 5) (s : State) : Out :=
  maintLine s (s.x rs1) fun s l => match l with
    | .dev pa => dropLines s fun k => decide (k = lineOf pa)
    | _ => s

/-- `cinvall`: R235. -/
def execCinvall (s : State) : Out := finish (dropLines (flushAll s s.agent) fun _ => true)

/-- `cwb`: R235. The line in memory is the line at its home, so a write-back changes no value (R283). -/
def execCwb (rs1 : BitVec 5) (s : State) : Out := if s.priv = 0 then privileged s else maintLine s (s.x rs1) fun s _ => s

/-- `cwbinv`: R235. As `cwb`: invalidating the home's copy leaves its bytes in memory. -/
def execCwbinv (rs1 : BitVec 5) (s : State) : Out := if s.priv = 0 then privileged s else maintLine s (s.x rs1) fun s _ => s

/-! ## Halting (R236, R461) -/

/-- `halt`: R236. A basin controller waits until an event is held (R461), a cistern until its firmware interface has one; a core's hart
stops, its block compared first (R254, R256). -/
def execHalt (s : State) : Out :=
  if s.priv ≠ 3 then privileged s
  else if s.onCore then
    let ck := s.checkerNext
    if ck.differs then finishEnd s (s.pc + 4)
    else
      let t := retireEnd s (s.pc + 4)
      .next (t.setH { t.h.waitOn 0x11 0 0 with run := .halted }).afterHalt
  else if s.agent < 4160 then
    if (s.basin (s.agent - 4096)).ncev = [] then waiting s 0x11 0 0 else finishEnd s (s.pc + 4)
  else if Config.cisternEvent s.freeCtr then finishEnd { s with freeCtr := s.freeCtr + 1 } (s.pc + 4)
  else waiting { s with freeCtr := s.freeCtr + 1 } 0x11 0 0

end Sys2Proof.Machine
end

