-- ==== Sys2Proof/Machine/Dispatch.lean ====
section
/-! DEFINITION. One arm per constructor of `Instr`: what each instruction and event does. -/

namespace Sys2Proof.Machine

/-- The meaning of an instruction or event. -/
def exec (i : Instr) (s : State) : Host.Outcome State Fault Refusal :=
  match i with
  | .add rd rs1 rs2 => Sys2Proof.Machine.execAdd rd rs1 rs2 s
  | .sub rd rs1 rs2 => Sys2Proof.Machine.execSub rd rs1 rs2 s
  | .and rd rs1 rs2 => Sys2Proof.Machine.execAnd rd rs1 rs2 s
  | .or rd rs1 rs2 => Sys2Proof.Machine.execOr rd rs1 rs2 s
  | .xor rd rs1 rs2 => Sys2Proof.Machine.execXor rd rs1 rs2 s
  | .sll rd rs1 rs2 => Sys2Proof.Machine.execSll rd rs1 rs2 s
  | .srl rd rs1 rs2 => Sys2Proof.Machine.execSrl rd rs1 rs2 s
  | .sra rd rs1 rs2 => Sys2Proof.Machine.execSra rd rs1 rs2 s
  | .slt rd rs1 rs2 => Sys2Proof.Machine.execSlt rd rs1 rs2 s
  | .sltz rd rs1 rs2 => Sys2Proof.Machine.execSltz rd rs1 rs2 s
  | .addw rd rs1 rs2 => Sys2Proof.Machine.execAddw rd rs1 rs2 s
  | .subw rd rs1 rs2 => Sys2Proof.Machine.execSubw rd rs1 rs2 s
  | .min rd rs1 rs2 => Sys2Proof.Machine.execMin rd rs1 rs2 s
  | .max rd rs1 rs2 => Sys2Proof.Machine.execMax rd rs1 rs2 s
  | .minz rd rs1 rs2 => Sys2Proof.Machine.execMinz rd rs1 rs2 s
  | .maxz rd rs1 rs2 => Sys2Proof.Machine.execMaxz rd rs1 rs2 s
  | .mul rd rs1 rs2 => Sys2Proof.Machine.execMul rd rs1 rs2 s
  | .mulh rd rs1 rs2 => Sys2Proof.Machine.execMulh rd rs1 rs2 s
  | .mulhz rd rs1 rs2 => Sys2Proof.Machine.execMulhz rd rs1 rs2 s
  | .div rd rs1 rs2 => Sys2Proof.Machine.execDiv rd rs1 rs2 s
  | .divz rd rs1 rs2 => Sys2Proof.Machine.execDivz rd rs1 rs2 s
  | .rem rd rs1 rs2 => Sys2Proof.Machine.execRem rd rs1 rs2 s
  | .remz rd rs1 rs2 => Sys2Proof.Machine.execRemz rd rs1 rs2 s
  | .slli rd rs1 sh => Sys2Proof.Machine.execSlli rd rs1 sh s
  | .srli rd rs1 sh => Sys2Proof.Machine.execSrli rd rs1 sh s
  | .srai rd rs1 sh => Sys2Proof.Machine.execSrai rd rs1 sh s
  | .rori rd rs1 sh => Sys2Proof.Machine.execRori rd rs1 sh s
  | .clz rd rs1 => Sys2Proof.Machine.execClz rd rs1 s
  | .ctz rd rs1 => Sys2Proof.Machine.execCtz rd rs1 s
  | .cpop rd rs1 => Sys2Proof.Machine.execCpop rd rs1 s
  | .rev8 rd rs1 => Sys2Proof.Machine.execRev8 rd rs1 s
  | .zeqz rd rs1 rs2 => Sys2Proof.Machine.execZeqz rd rs1 rs2 s
  | .znez rd rs1 rs2 => Sys2Proof.Machine.execZnez rd rs1 rs2 s
  | .addi rd rs1 imm => Sys2Proof.Machine.execAddi rd rs1 imm s
  | .andi rd rs1 imm => Sys2Proof.Machine.execAndi rd rs1 imm s
  | .ori rd rs1 imm => Sys2Proof.Machine.execOri rd rs1 imm s
  | .lui rd imm => Sys2Proof.Machine.execLui rd imm s
  | .auipc rd imm => Sys2Proof.Machine.execAuipc rd imm s
  | .jal rd off => Sys2Proof.Machine.execJal rd off s
  | .jalr rd rs1 imm => Sys2Proof.Machine.execJalr rd rs1 imm s
  | .beq rs1 rs2 off => Sys2Proof.Machine.execBeq rs1 rs2 off s
  | .bne rs1 rs2 off => Sys2Proof.Machine.execBne rs1 rs2 off s
  | .blt rs1 rs2 off => Sys2Proof.Machine.execBlt rs1 rs2 off s
  | .bge rs1 rs2 off => Sys2Proof.Machine.execBge rs1 rs2 off s
  | .bsig imm => Sys2Proof.Machine.execBsig imm s
  | .ld rd rs1 imm => Sys2Proof.Machine.execLd rd rs1 imm s
  | .lw rd rs1 imm => Sys2Proof.Machine.execLw rd rs1 imm s
  | .lwz rd rs1 imm => Sys2Proof.Machine.execLwz rd rs1 imm s
  | .lbz rd rs1 imm => Sys2Proof.Machine.execLbz rd rs1 imm s
  | .sd rs rs1 imm => Sys2Proof.Machine.execSd rs rs1 imm s
  | .sw rs rs1 imm => Sys2Proof.Machine.execSw rs rs1 imm s
  | .lx rd rs1 rs2 width => Sys2Proof.Machine.execLx rd rs1 rs2 width s
  | .sx rs rs1 rs2 width => Sys2Proof.Machine.execSx rs rs1 rs2 width s
  | .lsp rd rs1 rs2 width => Sys2Proof.Machine.execLsp rd rs1 rs2 width s
  | .ssp rs rs1 rs2 width => Sys2Proof.Machine.execSsp rs rs1 rs2 width s
  | .amoswapD rd rs1 rs2 scope ord => Sys2Proof.Machine.execAmoswapD rd rs1 rs2 scope ord s
  | .amoswapW rd rs1 rs2 scope ord => Sys2Proof.Machine.execAmoswapW rd rs1 rs2 scope ord s
  | .amoaddD rd rs1 rs2 scope ord => Sys2Proof.Machine.execAmoaddD rd rs1 rs2 scope ord s
  | .amoaddW rd rs1 rs2 scope ord => Sys2Proof.Machine.execAmoaddW rd rs1 rs2 scope ord s
  | .amoandD rd rs1 rs2 scope ord => Sys2Proof.Machine.execAmoandD rd rs1 rs2 scope ord s
  | .amoandW rd rs1 rs2 scope ord => Sys2Proof.Machine.execAmoandW rd rs1 rs2 scope ord s
  | .amoorD rd rs1 rs2 scope ord => Sys2Proof.Machine.execAmoorD rd rs1 rs2 scope ord s
  | .amoorW rd rs1 rs2 scope ord => Sys2Proof.Machine.execAmoorW rd rs1 rs2 scope ord s
  | .amoxorD rd rs1 rs2 scope ord => Sys2Proof.Machine.execAmoxorD rd rs1 rs2 scope ord s
  | .amoxorW rd rs1 rs2 scope ord => Sys2Proof.Machine.execAmoxorW rd rs1 rs2 scope ord s
  | .amominD rd rs1 rs2 scope ord => Sys2Proof.Machine.execAmominD rd rs1 rs2 scope ord s
  | .amominW rd rs1 rs2 scope ord => Sys2Proof.Machine.execAmominW rd rs1 rs2 scope ord s
  | .amomaxD rd rs1 rs2 scope ord => Sys2Proof.Machine.execAmomaxD rd rs1 rs2 scope ord s
  | .amomaxW rd rs1 rs2 scope ord => Sys2Proof.Machine.execAmomaxW rd rs1 rs2 scope ord s
  | .amominzD rd rs1 rs2 scope ord => Sys2Proof.Machine.execAmominzD rd rs1 rs2 scope ord s
  | .amominzW rd rs1 rs2 scope ord => Sys2Proof.Machine.execAmominzW rd rs1 rs2 scope ord s
  | .amomaxzD rd rs1 rs2 scope ord => Sys2Proof.Machine.execAmomaxzD rd rs1 rs2 scope ord s
  | .amomaxzW rd rs1 rs2 scope ord => Sys2Proof.Machine.execAmomaxzW rd rs1 rs2 scope ord s
  | .amocasD rd rs1 rs2 scope ord => Sys2Proof.Machine.execAmocasD rd rs1 rs2 scope ord s
  | .amocasW rd rs1 rs2 scope ord => Sys2Proof.Machine.execAmocasW rd rs1 rs2 scope ord s
  | .amoaddF32 rd rs1 rs2 scope ord => Sys2Proof.Machine.execAmoaddF32 rd rs1 rs2 scope ord s
  | .ldaW rd rs1 scope => Sys2Proof.Machine.execLdaW rd rs1 scope s
  | .ldaD rd rs1 scope => Sys2Proof.Machine.execLdaD rd rs1 scope s
  | .staW rs1 rs2 scope => Sys2Proof.Machine.execStaW rs1 rs2 scope s
  | .staD rs1 rs2 scope => Sys2Proof.Machine.execStaD rs1 rs2 scope s
  | .fence scope ord => Sys2Proof.Machine.execFence scope ord s
  | .faddF64 rd rs1 rs2 => Sys2Proof.Machine.execFaddF64 rd rs1 rs2 s
  | .fsubF64 rd rs1 rs2 => Sys2Proof.Machine.execFsubF64 rd rs1 rs2 s
  | .fmulF64 rd rs1 rs2 => Sys2Proof.Machine.execFmulF64 rd rs1 rs2 s
  | .fdivF64 rd rs1 rs2 => Sys2Proof.Machine.execFdivF64 rd rs1 rs2 s
  | .fsqrtF64 rd rs1 => Sys2Proof.Machine.execFsqrtF64 rd rs1 s
  | .fmacF64 rd rs1 rs2 => Sys2Proof.Machine.execFmacF64 rd rs1 rs2 s
  | .fmscF64 rd rs1 rs2 => Sys2Proof.Machine.execFmscF64 rd rs1 rs2 s
  | .fnmacF64 rd rs1 rs2 => Sys2Proof.Machine.execFnmacF64 rd rs1 rs2 s
  | .faddF32 rd rs1 rs2 => Sys2Proof.Machine.execFaddF32 rd rs1 rs2 s
  | .fsubF32 rd rs1 rs2 => Sys2Proof.Machine.execFsubF32 rd rs1 rs2 s
  | .fmulF32 rd rs1 rs2 => Sys2Proof.Machine.execFmulF32 rd rs1 rs2 s
  | .fdivF32 rd rs1 rs2 => Sys2Proof.Machine.execFdivF32 rd rs1 rs2 s
  | .fsqrtF32 rd rs1 => Sys2Proof.Machine.execFsqrtF32 rd rs1 s
  | .fmacF32 rd rs1 rs2 => Sys2Proof.Machine.execFmacF32 rd rs1 rs2 s
  | .fmscF32 rd rs1 rs2 => Sys2Proof.Machine.execFmscF32 rd rs1 rs2 s
  | .fnmacF32 rd rs1 rs2 => Sys2Proof.Machine.execFnmacF32 rd rs1 rs2 s
  | .ftoi rd rs1 single ty => Sys2Proof.Machine.execFtoi rd rs1 single ty s
  | .ftrc rd rs1 single ty => Sys2Proof.Machine.execFtrc rd rs1 single ty s
  | .itof rd rs1 single ty => Sys2Proof.Machine.execItof rd rs1 single ty s
  | .fnarrowF32 rd rs1 => Sys2Proof.Machine.execFnarrowF32 rd rs1 s
  | .fnarrowF16 rd rs1 => Sys2Proof.Machine.execFnarrowF16 rd rs1 s
  | .fnarrowBf16 rd rs1 => Sys2Proof.Machine.execFnarrowBf16 rd rs1 s
  | .fwidenF32 rd rs1 => Sys2Proof.Machine.execFwidenF32 rd rs1 s
  | .fwidenF16 rd rs1 => Sys2Proof.Machine.execFwidenF16 rd rs1 s
  | .fwidenBf16 rd rs1 => Sys2Proof.Machine.execFwidenBf16 rd rs1 s
  | .feq rd rs1 rs2 single => Sys2Proof.Machine.execFeq rd rs1 rs2 single s
  | .flt rd rs1 rs2 single => Sys2Proof.Machine.execFlt rd rs1 rs2 single s
  | .fle rd rs1 rs2 single => Sys2Proof.Machine.execFle rd rs1 rs2 single s
  | .fmin rd rs1 rs2 single => Sys2Proof.Machine.execFmin rd rs1 rs2 single s
  | .fmax rd rs1 rs2 single => Sys2Proof.Machine.execFmax rd rs1 rs2 single s
  | .fclass rd rs1 single => Sys2Proof.Machine.execFclass rd rs1 single s
  | .vshape rd rs1 rs2 sew => Sys2Proof.Machine.execVshape rd rs1 rs2 sew s
  | .vmvx vd vs1 vs2 conv => Sys2Proof.Machine.execVmvx vd vs1 vs2 conv s
  | .vmvxz vd vs1 vs2 conv => Sys2Proof.Machine.execVmvxz vd vs1 vs2 conv s
  | .vmvv vd vs1 vs2 conv => Sys2Proof.Machine.execVmvv vd vs1 vs2 conv s
  | .vbcast vd vs1 mask conv => Sys2Proof.Machine.execVbcast vd vs1 mask conv s
  | .vmv vd vs1 mask conv => Sys2Proof.Machine.execVmv vd vs1 mask conv s
  | .vid vd mask conv => Sys2Proof.Machine.execVid vd mask conv s
  | .vidr vd mask conv => Sys2Proof.Machine.execVidr vd mask conv s
  | .vidf vd mask conv => Sys2Proof.Machine.execVidf vd mask conv s
  | .vadd vd vs1 vs2 mask conv scalar ty => Sys2Proof.Machine.execVadd vd vs1 vs2 mask conv scalar ty s
  | .vsub vd vs1 vs2 mask conv scalar ty => Sys2Proof.Machine.execVsub vd vs1 vs2 mask conv scalar ty s
  | .vrsub vd vs1 vs2 mask conv scalar ty => Sys2Proof.Machine.execVrsub vd vs1 vs2 mask conv scalar ty s
  | .vmin vd vs1 vs2 mask conv scalar ty => Sys2Proof.Machine.execVmin vd vs1 vs2 mask conv scalar ty s
  | .vminz vd vs1 vs2 mask conv scalar ty => Sys2Proof.Machine.execVminz vd vs1 vs2 mask conv scalar ty s
  | .vmax vd vs1 vs2 mask conv scalar ty => Sys2Proof.Machine.execVmax vd vs1 vs2 mask conv scalar ty s
  | .vmaxz vd vs1 vs2 mask conv scalar ty => Sys2Proof.Machine.execVmaxz vd vs1 vs2 mask conv scalar ty s
  | .vsadd vd vs1 vs2 mask conv scalar ty => Sys2Proof.Machine.execVsadd vd vs1 vs2 mask conv scalar ty s
  | .vsaddz vd vs1 vs2 mask conv scalar ty => Sys2Proof.Machine.execVsaddz vd vs1 vs2 mask conv scalar ty s
  | .vssub vd vs1 vs2 mask conv scalar ty => Sys2Proof.Machine.execVssub vd vs1 vs2 mask conv scalar ty s
  | .vssubz vd vs1 vs2 mask conv scalar ty => Sys2Proof.Machine.execVssubz vd vs1 vs2 mask conv scalar ty s
  | .vwadd vd vs1 vs2 mask conv scalar ty => Sys2Proof.Machine.execVwadd vd vs1 vs2 mask conv scalar ty s
  | .vwaddz vd vs1 vs2 mask conv scalar ty => Sys2Proof.Machine.execVwaddz vd vs1 vs2 mask conv scalar ty s
  | .vwsub vd vs1 vs2 mask conv scalar ty => Sys2Proof.Machine.execVwsub vd vs1 vs2 mask conv scalar ty s
  | .vwsubz vd vs1 vs2 mask conv scalar ty => Sys2Proof.Machine.execVwsubz vd vs1 vs2 mask conv scalar ty s
  | .vext vd vs1 mask conv ty => Sys2Proof.Machine.execVext vd vs1 mask conv ty s
  | .vextz vd vs1 mask conv ty => Sys2Proof.Machine.execVextz vd vs1 mask conv ty s
  | .vnarrow vd vs1 mask conv ty => Sys2Proof.Machine.execVnarrow vd vs1 mask conv ty s
  | .vnsat vd vs1 mask conv ty => Sys2Proof.Machine.execVnsat vd vs1 mask conv ty s
  | .vnsatz vd vs1 mask conv ty => Sys2Proof.Machine.execVnsatz vd vs1 mask conv ty s
  | .vnclampz vd vs1 mask conv ty => Sys2Proof.Machine.execVnclampz vd vs1 mask conv ty s
  | .vmul vd vs1 vs2 mask conv scalar ty => Sys2Proof.Machine.execVmul vd vs1 vs2 mask conv scalar ty s
  | .vmulh vd vs1 vs2 mask conv scalar ty => Sys2Proof.Machine.execVmulh vd vs1 vs2 mask conv scalar ty s
  | .vmulhz vd vs1 vs2 mask conv scalar ty => Sys2Proof.Machine.execVmulhz vd vs1 vs2 mask conv scalar ty s
  | .vdiv vd vs1 vs2 mask conv scalar ty => Sys2Proof.Machine.execVdiv vd vs1 vs2 mask conv scalar ty s
  | .vdivz vd vs1 vs2 mask conv scalar ty => Sys2Proof.Machine.execVdivz vd vs1 vs2 mask conv scalar ty s
  | .vrem vd vs1 vs2 mask conv scalar ty => Sys2Proof.Machine.execVrem vd vs1 vs2 mask conv scalar ty s
  | .vremz vd vs1 vs2 mask conv scalar ty => Sys2Proof.Machine.execVremz vd vs1 vs2 mask conv scalar ty s
  | .vwmul vd vs1 vs2 mask conv scalar ty => Sys2Proof.Machine.execVwmul vd vs1 vs2 mask conv scalar ty s
  | .vwmulz vd vs1 vs2 mask conv scalar ty => Sys2Proof.Machine.execVwmulz vd vs1 vs2 mask conv scalar ty s
  | .vand vd vs1 vs2 mask conv scalar ty => Sys2Proof.Machine.execVand vd vs1 vs2 mask conv scalar ty s
  | .vor vd vs1 vs2 mask conv scalar ty => Sys2Proof.Machine.execVor vd vs1 vs2 mask conv scalar ty s
  | .vxor vd vs1 vs2 mask conv scalar ty => Sys2Proof.Machine.execVxor vd vs1 vs2 mask conv scalar ty s
  | .vandn vd vs1 vs2 mask conv scalar ty => Sys2Proof.Machine.execVandn vd vs1 vs2 mask conv scalar ty s
  | .vsll vd vs1 vs2 mask conv scalar ty => Sys2Proof.Machine.execVsll vd vs1 vs2 mask conv scalar ty s
  | .vsrl vd vs1 vs2 mask conv scalar ty => Sys2Proof.Machine.execVsrl vd vs1 vs2 mask conv scalar ty s
  | .vsra vd vs1 vs2 mask conv scalar ty => Sys2Proof.Machine.execVsra vd vs1 vs2 mask conv scalar ty s
  | .vror vd vs1 vs2 mask conv scalar ty => Sys2Proof.Machine.execVror vd vs1 vs2 mask conv scalar ty s
  | .vseq vd vs1 vs2 mask conv scalar ty => Sys2Proof.Machine.execVseq vd vs1 vs2 mask conv scalar ty s
  | .vsne vd vs1 vs2 mask conv scalar ty => Sys2Proof.Machine.execVsne vd vs1 vs2 mask conv scalar ty s
  | .vslt vd vs1 vs2 mask conv scalar ty => Sys2Proof.Machine.execVslt vd vs1 vs2 mask conv scalar ty s
  | .vsltz vd vs1 vs2 mask conv scalar ty => Sys2Proof.Machine.execVsltz vd vs1 vs2 mask conv scalar ty s
  | .vsle vd vs1 vs2 mask conv scalar ty => Sys2Proof.Machine.execVsle vd vs1 vs2 mask conv scalar ty s
  | .vslez vd vs1 vs2 mask conv scalar ty => Sys2Proof.Machine.execVslez vd vs1 vs2 mask conv scalar ty s
  | .vsgt vd vs1 vs2 mask conv scalar ty => Sys2Proof.Machine.execVsgt vd vs1 vs2 mask conv scalar ty s
  | .vsgtz vd vs1 vs2 mask conv scalar ty => Sys2Proof.Machine.execVsgtz vd vs1 vs2 mask conv scalar ty s
  | .mand vd vs1 vs2 conv => Sys2Proof.Machine.execMand vd vs1 vs2 conv s
  | .mor vd vs1 vs2 conv => Sys2Proof.Machine.execMor vd vs1 vs2 conv s
  | .mxor vd vs1 vs2 conv => Sys2Proof.Machine.execMxor vd vs1 vs2 conv s
  | .mandn vd vs1 vs2 conv => Sys2Proof.Machine.execMandn vd vs1 vs2 conv s
  | .mnot vd vs1 conv => Sys2Proof.Machine.execMnot vd vs1 conv s
  | .mset vd conv => Sys2Proof.Machine.execMset vd conv s
  | .mclr vd conv => Sys2Proof.Machine.execMclr vd conv s
  | .mpop vd vs1 conv => Sys2Proof.Machine.execMpop vd vs1 conv s
  | .mfirst vd vs1 conv => Sys2Proof.Machine.execMfirst vd vs1 conv s
  | .vmerge vd vs1 vs2 mask conv scalar ty => Sys2Proof.Machine.execVmerge vd vs1 vs2 mask conv scalar ty s
  | .vfadd vd vs1 vs2 mask conv scalar ty => Sys2Proof.Machine.execVfadd vd vs1 vs2 mask conv scalar ty s
  | .vfsub vd vs1 vs2 mask conv scalar ty => Sys2Proof.Machine.execVfsub vd vs1 vs2 mask conv scalar ty s
  | .vfrsub vd vs1 vs2 mask conv scalar ty => Sys2Proof.Machine.execVfrsub vd vs1 vs2 mask conv scalar ty s
  | .vfmul vd vs1 vs2 mask conv scalar ty => Sys2Proof.Machine.execVfmul vd vs1 vs2 mask conv scalar ty s
  | .vfdiv vd vs1 vs2 mask conv scalar ty => Sys2Proof.Machine.execVfdiv vd vs1 vs2 mask conv scalar ty s
  | .vfrdiv vd vs1 vs2 mask conv scalar ty => Sys2Proof.Machine.execVfrdiv vd vs1 vs2 mask conv scalar ty s
  | .vfsqrt vd vs1 mask conv ty => Sys2Proof.Machine.execVfsqrt vd vs1 mask conv ty s
  | .vfmin vd vs1 vs2 mask conv scalar ty => Sys2Proof.Machine.execVfmin vd vs1 vs2 mask conv scalar ty s
  | .vfmax vd vs1 vs2 mask conv scalar ty => Sys2Proof.Machine.execVfmax vd vs1 vs2 mask conv scalar ty s
  | .vfsgnj vd vs1 vs2 mask conv scalar ty => Sys2Proof.Machine.execVfsgnj vd vs1 vs2 mask conv scalar ty s
  | .vfsgnjn vd vs1 vs2 mask conv scalar ty => Sys2Proof.Machine.execVfsgnjn vd vs1 vs2 mask conv scalar ty s
  | .vfsgnjx vd vs1 vs2 mask conv scalar ty => Sys2Proof.Machine.execVfsgnjx vd vs1 vs2 mask conv scalar ty s
  | .vfmac vd vs1 vs2 vs3 mask conv bf16 => Sys2Proof.Machine.execVfmac vd vs1 vs2 vs3 mask conv bf16 s
  | .vfmsc vd vs1 vs2 vs3 mask conv bf16 => Sys2Proof.Machine.execVfmsc vd vs1 vs2 vs3 mask conv bf16 s
  | .vfnmac vd vs1 vs2 vs3 mask conv bf16 => Sys2Proof.Machine.execVfnmac vd vs1 vs2 vs3 mask conv bf16 s
  | .vfnmsc vd vs1 vs2 vs3 mask conv bf16 => Sys2Proof.Machine.execVfnmsc vd vs1 vs2 vs3 mask conv bf16 s
  | .vmac vd vs1 vs2 vs3 mask conv => Sys2Proof.Machine.execVmac vd vs1 vs2 vs3 mask conv s
  | .vnmac vd vs1 vs2 vs3 mask conv => Sys2Proof.Machine.execVnmac vd vs1 vs2 vs3 mask conv s
  | .vwmac vd vs1 vs2 vs3 mask conv => Sys2Proof.Machine.execVwmac vd vs1 vs2 vs3 mask conv s
  | .vwmacz vd vs1 vs2 vs3 mask conv => Sys2Proof.Machine.execVwmacz vd vs1 vs2 vs3 mask conv s
  | .vdot4 vd vs1 vs2 vs3 mask conv => Sys2Proof.Machine.execVdot4 vd vs1 vs2 vs3 mask conv s
  | .vdot4z vd vs1 vs2 vs3 mask conv => Sys2Proof.Machine.execVdot4z vd vs1 vs2 vs3 mask conv s
  | .vfeq vd vs1 vs2 mask conv scalar ty => Sys2Proof.Machine.execVfeq vd vs1 vs2 mask conv scalar ty s
  | .vfne vd vs1 vs2 mask conv scalar ty => Sys2Proof.Machine.execVfne vd vs1 vs2 mask conv scalar ty s
  | .vflt vd vs1 vs2 mask conv scalar ty => Sys2Proof.Machine.execVflt vd vs1 vs2 mask conv scalar ty s
  | .vfle vd vs1 vs2 mask conv scalar ty => Sys2Proof.Machine.execVfle vd vs1 vs2 mask conv scalar ty s
  | .vfgt vd vs1 vs2 mask conv scalar ty => Sys2Proof.Machine.execVfgt vd vs1 vs2 mask conv scalar ty s
  | .vfge vd vs1 vs2 mask conv scalar ty => Sys2Proof.Machine.execVfge vd vs1 vs2 mask conv scalar ty s
  | .vfclass vd vs1 mask conv ty => Sys2Proof.Machine.execVfclass vd vs1 mask conv ty s
  | .vcvt vd vs1 mask conv alt src dst => Sys2Proof.Machine.execVcvt vd vs1 mask conv alt src dst s
  | .vbsq vd vs1 vs3 mask conv fmt => Sys2Proof.Machine.execVbsq vd vs1 vs3 mask conv fmt s
  | .vbsdq vd vs1 vs3 mask conv fmt => Sys2Proof.Machine.execVbsdq vd vs1 vs3 mask conv fmt s
  | .vslideup vd vs1 vs2 mask conv ty => Sys2Proof.Machine.execVslideup vd vs1 vs2 mask conv ty s
  | .vslidedown vd vs1 vs2 mask conv ty => Sys2Proof.Machine.execVslidedown vd vs1 vs2 mask conv ty s
  | .vrgather vd vs1 vs2 mask conv scalar ty => Sys2Proof.Machine.execVrgather vd vs1 vs2 mask conv scalar ty s
  | .vcompress vd vs1 mask conv ty => Sys2Proof.Machine.execVcompress vd vs1 mask conv ty s
  | .vrowbc vd vs1 vs2 mask conv ty => Sys2Proof.Machine.execVrowbc vd vs1 vs2 mask conv ty s
  | .vredsum vd vs1 vs2 mask conv toX perRow => Sys2Proof.Machine.execVredsum vd vs1 vs2 mask conv toX perRow s
  | .vredmin vd vs1 vs2 mask conv toX perRow => Sys2Proof.Machine.execVredmin vd vs1 vs2 mask conv toX perRow s
  | .vredminz vd vs1 vs2 mask conv toX perRow => Sys2Proof.Machine.execVredminz vd vs1 vs2 mask conv toX perRow s
  | .vredmax vd vs1 vs2 mask conv toX perRow => Sys2Proof.Machine.execVredmax vd vs1 vs2 mask conv toX perRow s
  | .vredmaxz vd vs1 vs2 mask conv toX perRow => Sys2Proof.Machine.execVredmaxz vd vs1 vs2 mask conv toX perRow s
  | .vfredo vd vs1 vs2 mask conv => Sys2Proof.Machine.execVfredo vd vs1 vs2 mask conv s
  | .vfredoBf16 vd vs1 vs2 mask conv => Sys2Proof.Machine.execVfredoBf16 vd vs1 vs2 mask conv s
  | .vfredt vd vs1 vs2 mask conv toX perRow => Sys2Proof.Machine.execVfredt vd vs1 vs2 mask conv toX perRow s
  | .vfredtBf16 vd vs1 vs2 mask conv toX perRow => Sys2Proof.Machine.execVfredtBf16 vd vs1 vs2 mask conv toX perRow s
  | .vfredmin vd vs1 vs2 mask conv toX perRow => Sys2Proof.Machine.execVfredmin vd vs1 vs2 mask conv toX perRow s
  | .vfredminBf16 vd vs1 vs2 mask conv toX perRow => Sys2Proof.Machine.execVfredminBf16 vd vs1 vs2 mask conv toX perRow s
  | .vfredmax vd vs1 vs2 mask conv toX perRow => Sys2Proof.Machine.execVfredmax vd vs1 vs2 mask conv toX perRow s
  | .vfredmaxBf16 vd vs1 vs2 mask conv toX perRow => Sys2Proof.Machine.execVfredmaxBf16 vd vs1 vs2 mask conv toX perRow s
  | .vexit vd vs1 conv => Sys2Proof.Machine.execVexit vd vs1 conv s
  | .lsplit rs1 rs2 mask => Sys2Proof.Machine.execLsplit rs1 rs2 mask s
  | .ljoin => Sys2Proof.Machine.execLjoin s
  | .vld vd base idx token orient conv mask width => Sys2Proof.Machine.execVld vd base idx token orient conv mask width s
  | .vldCw vd base idx token orient conv chunk width => Sys2Proof.Machine.execVldCw vd base idx token orient conv chunk width s
  | .vldIndexed vd base idx token orient conv mask width => Sys2Proof.Machine.execVldIndexed vd base idx token orient conv mask width s
  | .vldIndexedCw vd base idx token orient conv chunk width => Sys2Proof.Machine.execVldIndexedCw vd base idx token orient conv chunk width s
  | .vst vs base idx token orient conv mask unord width => Sys2Proof.Machine.execVst vs base idx token orient conv mask unord width s
  | .vstm vs base idx token conv mask unord width => Sys2Proof.Machine.execVstm vs base idx token conv mask unord width s
  | .vstIndexed vs base idx token orient conv mask unord width => Sys2Proof.Machine.execVstIndexed vs base idx token orient conv mask unord width s
  | .vstmIndexed vs base idx token conv mask unord width => Sys2Proof.Machine.execVstmIndexed vs base idx token conv mask unord width s
  | .vamoaddW vs base idx token conv mask => Sys2Proof.Machine.execVamoaddW vs base idx token conv mask s
  | .vamoaddD vs base idx token conv mask => Sys2Proof.Machine.execVamoaddD vs base idx token conv mask s
  | .vamominW vs base idx token conv mask => Sys2Proof.Machine.execVamominW vs base idx token conv mask s
  | .vamomaxW vs base idx token conv mask => Sys2Proof.Machine.execVamomaxW vs base idx token conv mask s
  | .vamoaddF32 vs base idx token conv mask => Sys2Proof.Machine.execVamoaddF32 vs base idx token conv mask s
  | .vamoaddF16 vs base idx token orient conv mask => Sys2Proof.Machine.execVamoaddF16 vs base idx token orient conv mask s
  | .vamoaddBf16 vs base idx token orient conv mask => Sys2Proof.Machine.execVamoaddBf16 vs base idx token orient conv mask s
  | .vamoaddWDup vs base idx token conv mask => Sys2Proof.Machine.execVamoaddWDup vs base idx token conv mask s
  | .vamoaddDDup vs base idx token conv mask => Sys2Proof.Machine.execVamoaddDDup vs base idx token conv mask s
  | .vamominWDup vs base idx token conv mask => Sys2Proof.Machine.execVamominWDup vs base idx token conv mask s
  | .vamomaxWDup vs base idx token conv mask => Sys2Proof.Machine.execVamomaxWDup vs base idx token conv mask s
  | .vamoaddF32Dup vs base idx token conv mask => Sys2Proof.Machine.execVamoaddF32Dup vs base idx token conv mask s
  | .vamoaddF16Dup vs base idx token orient conv mask => Sys2Proof.Machine.execVamoaddF16Dup vs base idx token orient conv mask s
  | .vamoaddBf16Dup vs base idx token orient conv mask => Sys2Proof.Machine.execVamoaddBf16Dup vs base idx token orient conv mask s
  | .vpin perm base len token => Sys2Proof.Machine.execVpin perm base len token s
  | .vunpin token => Sys2Proof.Machine.execVunpin token s
  | .vspill vs base kind token conv => Sys2Proof.Machine.execVspill vs base kind token conv s
  | .vfill vd base kind token conv => Sys2Proof.Machine.execVfill vd base kind token conv s
  | .mmul vc va vb fmt fromSp orient conv => Sys2Proof.Machine.execMmul vc va vb fmt fromSp orient conv s
  | .mmulz vc va vb fmt fromSp orient conv => Sys2Proof.Machine.execMmulz vc va vb fmt fromSp orient conv s
  | .mmulBs vc va vb fmt fromSp orient conv => Sys2Proof.Machine.execMmulBs vc va vb fmt fromSp orient conv s
  | .mmulzBs vc va vb fmt fromSp orient conv => Sys2Proof.Machine.execMmulzBs vc va vb fmt fromSp orient conv s
  | .mzero vc fmt conv => Sys2Proof.Machine.execMzero vc fmt conv s
  | .mcvt vc vd fmt conv => Sys2Proof.Machine.execMcvt vc vd fmt conv s
  | .mcvtSr vc vd fmt conv => Sys2Proof.Machine.execMcvtSr vc vd fmt conv s
  | .mdrain vc xc xm fmt conv => Sys2Proof.Machine.execMdrain vc xc xm fmt conv s
  | .mdrainz vc xc xm fmt conv => Sys2Proof.Machine.execMdrainz vc xc xm fmt conv s
  | .msend xo xc xm => Sys2Proof.Machine.execMsend xo xc xm s
  | .mput xv xc xm width => Sys2Proof.Machine.execMput xv xc xm width s
  | .mwake xc xm => Sys2Proof.Machine.execMwake xc xm s
  | .mwait rd xe tag => Sys2Proof.Machine.execMwait rd xe tag s
  | .mcount rd tag => Sys2Proof.Machine.execMcount rd tag s
  | .locq rd xc => Sys2Proof.Machine.execLocq rd xc s
  | .scopyin rd xa xp mask ch => Sys2Proof.Machine.execScopyin rd xa xp mask ch s
  | .scopyout rd xa xp mask ch => Sys2Proof.Machine.execScopyout rd xa xp mask ch s
  | .scopy2inRow rd xa xp mask ch => Sys2Proof.Machine.execScopy2inRow rd xa xp mask ch s
  | .scopy2inCol rd xa xp mask ch => Sys2Proof.Machine.execScopy2inCol rd xa xp mask ch s
  | .scopy2outRow rd xa xp mask ch => Sys2Proof.Machine.execScopy2outRow rd xa xp mask ch s
  | .scopy2outCol rd xa xp mask ch => Sys2Proof.Machine.execScopy2outCol rd xa xp mask ch s
  | .scopyr rd xc xp ch => Sys2Proof.Machine.execScopyr rd xc xp ch s
  | .sgatherRow rd vi xp mask ch => Sys2Proof.Machine.execSgatherRow rd vi xp mask ch s
  | .sgatherCol rd vi xp mask ch => Sys2Proof.Machine.execSgatherCol rd vi xp mask ch s
  | .swait rd xt ch => Sys2Proof.Machine.execSwait rd xt ch s
  | .sfault rd xs => Sys2Proof.Machine.execSfault rd xs s
  | .sreplay rd xt ch => Sys2Proof.Machine.execSreplay rd xt ch s
  | .warrive chan => Sys2Proof.Machine.execWarrive chan s
  | .wwait chan => Sys2Proof.Machine.execWwait chan s
  | .wtest rd chan => Sys2Proof.Machine.execWtest rd chan s
  | .tend => Sys2Proof.Machine.execTend s
  | .thold xv xc xs => Sys2Proof.Machine.execThold xv xc xs s
  | .tready xv xc xs => Sys2Proof.Machine.execTready xv xc xs s
  | .tenable xv xc xs => Sys2Proof.Machine.execTenable xv xc xs s
  | .tpost xs xp => Sys2Proof.Machine.execTpost xs xp s
  | .glaunch rd xs => Sys2Proof.Machine.execGlaunch rd xs s
  | .wreserve rd xq xn => Sys2Proof.Machine.execWreserve rd xq xn s
  | .wcommit xq xi => Sys2Proof.Machine.execWcommit xq xi s
  | .qpush vs1 xs2 mask conv => Sys2Proof.Machine.execQpush vs1 xs2 mask conv s
  | .qend xs2 => Sys2Proof.Machine.execQend xs2 s
  | .pxlock vs1 xs2 mask conv => Sys2Proof.Machine.execPxlock vs1 xs2 mask conv s
  | .pxunlock vs1 mask conv => Sys2Proof.Machine.execPxunlock vs1 mask conv s
  | .pxskip vs1 xs2 mask conv => Sys2Proof.Machine.execPxskip vs1 xs2 mask conv s
  | .tsample vd vs1 xs2 mask conv token => Sys2Proof.Machine.execTsample vd vs1 xs2 mask conv token s
  | .tsampleLod vd vs1 xs2 mask conv token => Sys2Proof.Machine.execTsampleLod vd vs1 xs2 mask conv token s
  | .rquery vd vs1 xs2 mask conv token => Sys2Proof.Machine.execRquery vd vs1 xs2 mask conv token s
  | .rqueryAny vd vs1 xs2 mask conv token => Sys2Proof.Machine.execRqueryAny vd vs1 xs2 mask conv token s
  | .sget rd num => Sys2Proof.Machine.execSget rd num s
  | .sput rs1 num => Sys2Proof.Machine.execSput rs1 num s
  | .trap num => Sys2Proof.Machine.execTrap num s
  | .sret => Sys2Proof.Machine.execSret s
  | .mret => Sys2Proof.Machine.execMret s
  | .ifence => Sys2Proof.Machine.execIfence s
  | .cinv rs1 => Sys2Proof.Machine.execCinv rs1 s
  | .cinvall => Sys2Proof.Machine.execCinvall s
  | .cwb rs1 => Sys2Proof.Machine.execCwb rs1 s
  | .cwbinv rs1 => Sys2Proof.Machine.execCwbinv rs1 s
  | .halt => Sys2Proof.Machine.execHalt s
  | .brk num => Sys2Proof.Machine.execBrk num s
  | .illegalEncoding word => Sys2Proof.Machine.execIllegalEncoding word s
  | .hartStateMachineCheck hart coreState => Sys2Proof.Machine.execHartStateMachineCheck hart coreState s
  | .taskStart core => Sys2Proof.Machine.execTaskStart core s
  | .budgetExpiry hart => Sys2Proof.Machine.execBudgetExpiry hart s
  | .freezeMarkArrival core peer mark => Sys2Proof.Machine.execFreezeMarkArrival core peer mark s
  | .coreCompleteReport core => Sys2Proof.Machine.execCoreCompleteReport core s
  | .runAheadStart core => Sys2Proof.Machine.execRunAheadStart core s
  | .ownerReserve basin => Sys2Proof.Machine.execOwnerReserve basin s
  | .messageDelivery item => Sys2Proof.Machine.execMessageDelivery item s
  | .drainDelivery item => Sys2Proof.Machine.execDrainDelivery item s
  | .scopyrPartDelivery item => Sys2Proof.Machine.execScopyrPartDelivery item s
  | .taskBitMessage item => Sys2Proof.Machine.execTaskBitMessage item s
  | .locqQuery src dst => Sys2Proof.Machine.execLocqQuery src dst s
  | .locqReply hart value => Sys2Proof.Machine.execLocqReply hart value s
  | .fragmentArrival die path f => Sys2Proof.Machine.execFragmentArrival die path f s
  | .reassemblyTimerExpiry die peer seq => Sys2Proof.Machine.execReassemblyTimerExpiry die peer seq s
  | .decodedPacketAccepted die peer seq => Sys2Proof.Machine.execDecodedPacketAccepted die peer seq s
  | .sprayAck die peer ack lostmap => Sys2Proof.Machine.execSprayAck die peer ack lostmap s
  | .sprayRequest die peer seq held => Sys2Proof.Machine.execSprayRequest die peer seq held s
  | .sprayProbe die peer next => Sys2Proof.Machine.execSprayProbe die peer next s
  | .probeIntervalExpiry die peer => Sys2Proof.Machine.execProbeIntervalExpiry die peer s
  | .weirBroadcast chan core => Sys2Proof.Machine.execWeirBroadcast chan core s
  | .sluiceChunk core ch id chunk => Sys2Proof.Machine.execSluiceChunk core ch id chunk s
  | .prgResponse item success => Sys2Proof.Machine.execPrgResponse item success s
  | .pageRequestTimeout item => Sys2Proof.Machine.execPageRequestTimeout item s
  | .atsInvalidate pasid page => Sys2Proof.Machine.execAtsInvalidate pasid page s
  | .frameOpen basin => Sys2Proof.Machine.execFrameOpen basin s
  | .binRecord basin => Sys2Proof.Machine.execBinRecord basin s
  | .qendMarkArrival basin => Sys2Proof.Machine.execQendMarkArrival basin s
  | .tileResolve basin => Sys2Proof.Machine.execTileResolve basin s
  | .tileNotification basin core => Sys2Proof.Machine.execTileNotification basin core s
  | .frameComplete basin => Sys2Proof.Machine.execFrameComplete basin s
  | .pixelLockGrant basin x y => Sys2Proof.Machine.execPixelLockGrant basin x y s
  | .ctxActivate ctx => Sys2Proof.Machine.execCtxActivate ctx s
  | .ctxSave ctx => Sys2Proof.Machine.execCtxSave ctx s
  | .saveRecordWrite core => Sys2Proof.Machine.execSaveRecordWrite core s
  | .ctxRestore ctx => Sys2Proof.Machine.execCtxRestore ctx s
  | .ctxRelease ctx => Sys2Proof.Machine.execCtxRelease ctx s
  | .ctxInvalidCommand ctx cmd => Sys2Proof.Machine.execCtxInvalidCommand ctx cmd s
  | .queueEnable queue => Sys2Proof.Machine.execQueueEnable queue s
  | .queueDisable queue => Sys2Proof.Machine.execQueueDisable queue s
  | .doorbell queue wr => Sys2Proof.Machine.execDoorbell queue wr s
  | .qerrClear queue => Sys2Proof.Machine.execQerrClear queue s
  | .gangLaunchPacket queue => Sys2Proof.Machine.execGangLaunchPacket queue s
  | .framePacket queue => Sys2Proof.Machine.execFramePacket queue s
  | .indirectPacket queue => Sys2Proof.Machine.execIndirectPacket queue s
  | .signalPacket queue => Sys2Proof.Machine.execSignalPacket queue s
  | .loadPacket queue => Sys2Proof.Machine.execLoadPacket queue s
  | .shootdownPacket queue => Sys2Proof.Machine.execShootdownPacket queue s
  | .launchCompletion id => Sys2Proof.Machine.execLaunchCompletion id s
  | .poolDispatch ctx entry => Sys2Proof.Machine.execPoolDispatch ctx entry s
  | .hostDeviceMemoryAccess a => Sys2Proof.Machine.execHostDeviceMemoryAccess a s
  | .hostAtomicCompleter a => Sys2Proof.Machine.execHostAtomicCompleter a s
  | .hostBar0AccessError offset size => Sys2Proof.Machine.execHostBar0AccessError offset size s
  | .hostSnoop addr => Sys2Proof.Machine.execHostSnoop addr s
  | .biasFlipGo toHost count => Sys2Proof.Machine.execBiasFlipGo toHost count s
  | .biasPageFlip => Sys2Proof.Machine.execBiasPageFlip s
  | .postAreaScan ctx slot => Sys2Proof.Machine.execPostAreaScan ctx slot s
  | .functionLevelReset => Sys2Proof.Machine.execFunctionLevelReset s
  | .hotReset => Sys2Proof.Machine.execHotReset s
  | .powerOn => Sys2Proof.Machine.execPowerOn s
  | .standbyEntry => Sys2Proof.Machine.execStandbyEntry s
  | .standbyExit failed => Sys2Proof.Machine.execStandbyExit failed s
  | .correctedError site src loc => Sys2Proof.Machine.execCorrectedError site src loc s
  | .leakTick site => Sys2Proof.Machine.execLeakTick site s
  | .patrolScrub target found => Sys2Proof.Machine.execPatrolScrub target found s
  | .basinHeartbeat basin missed => Sys2Proof.Machine.execBasinHeartbeat basin missed s
  | .agentFailed cistern n => Sys2Proof.Machine.execAgentFailed cistern n s
  | .fatalSequence ctx => Sys2Proof.Machine.execFatalSequence ctx s
  | .siphonHold die => Sys2Proof.Machine.execSiphonHold die s
  | .siphonCopy die => Sys2Proof.Machine.execSiphonCopy die s
  | .siphonState die => Sys2Proof.Machine.execSiphonState die s
  | .siphonFlip die => Sys2Proof.Machine.execSiphonFlip die s
  | .siphonRelease die => Sys2Proof.Machine.execSiphonRelease die s
  | .siphonAbort die why => Sys2Proof.Machine.execSiphonAbort die why s
  | .waitCycleWalk hart => Sys2Proof.Machine.execWaitCycleWalk hart s
  | .waitCycleConfirm item => Sys2Proof.Machine.execWaitCycleConfirm item s
  | .scanSite site pkg => Sys2Proof.Machine.execScanSite site pkg s
  | .linkFlitCrcDrop die path => Sys2Proof.Machine.execLinkFlitCrcDrop die path s
  | .pathLeakTick die path => Sys2Proof.Machine.execPathLeakTick die path s
  | .pathRetrain die path passed => Sys2Proof.Machine.execPathRetrain die path passed s
  | .leaseHeartbeatSend die => Sys2Proof.Machine.execLeaseHeartbeatSend die s
  | .leaseHeartbeatReceive die sender term seq => Sys2Proof.Machine.execLeaseHeartbeatReceive die sender term seq s
  | .leaseLapse die => Sys2Proof.Machine.execLeaseLapse die s
  | .leaseClaim die candidate term => Sys2Proof.Machine.execLeaseClaim die candidate term s
  | .romSidebandTimeout die => Sys2Proof.Machine.execRomSidebandTimeout die s
  | .selfTestComplete die results => Sys2Proof.Machine.execSelfTestComplete die results s
  | .discoveryFlood die => Sys2Proof.Machine.execDiscoveryFlood die s
  | .discoveryReport die site => Sys2Proof.Machine.execDiscoveryReport die site s
  | .discoveryTimeout die => Sys2Proof.Machine.execDiscoveryTimeout die s
  | .multicastGo die len offset => Sys2Proof.Machine.execMulticastGo die len offset s
  | .multicastAck die site => Sys2Proof.Machine.execMulticastAck die site s
  | .multicastTimeout die => Sys2Proof.Machine.execMulticastTimeout die s
  | .siteasgWrite site value => Sys2Proof.Machine.execSiteasgWrite site value s
  | .sitegoGo site pc => Sys2Proof.Machine.execSitegoGo site pc s
  | .sitegoClr site => Sys2Proof.Machine.execSitegoClr site s
  | .ncevPop basin => Sys2Proof.Machine.execNcevPop basin s
  | .ncpost basin slot target => Sys2Proof.Machine.execNcpost basin slot target s
  | .memoryTrainingStep die far device o => Sys2Proof.Machine.execMemoryTrainingStep die far device o s
  | .ucieTraining die module passed => Sys2Proof.Machine.execUcieTraining die module passed s
  | .fabricPortTraining die port o => Sys2Proof.Machine.execFabricPortTraining die port o s
  | .pcieTraining o => Sys2Proof.Machine.execPcieTraining o s
  | .pkgidWrite value => Sys2Proof.Machine.execPkgidWrite value s
  | .pkgidTimeout => Sys2Proof.Machine.execPkgidTimeout s
  | .powerWindow watts tj => Sys2Proof.Machine.execPowerWindow watts tj s
  | .spdmGetVersion => Sys2Proof.Machine.execSpdmGetVersion s
  | .spdmGetCapabilities => Sys2Proof.Machine.execSpdmGetCapabilities s
  | .spdmNegotiateAlgorithms => Sys2Proof.Machine.execSpdmNegotiateAlgorithms s
  | .spdmGetDigests => Sys2Proof.Machine.execSpdmGetDigests s
  | .spdmGetCertificate slot => Sys2Proof.Machine.execSpdmGetCertificate slot s
  | .spdmChallenge slot nonce => Sys2Proof.Machine.execSpdmChallenge slot nonce s
  | .spdmGetMeasurements index => Sys2Proof.Machine.execSpdmGetMeasurements index s
  | .spdmUnsupported code => Sys2Proof.Machine.execSpdmUnsupported code s
  | .registerWrite host addr size value => Sys2Proof.Machine.execRegisterWrite host addr size value s
  | .leaseHeartbeatAck die follower term seq => Sys2Proof.Machine.execLeaseHeartbeatAck die follower term seq s
  | .leaderLeaseExpiry die => Sys2Proof.Machine.execLeaderLeaseExpiry die s
  | .claimRetry die => Sys2Proof.Machine.execClaimRetry die s
  | .hostWriteRefusal core item => Sys2Proof.Machine.execHostWriteRefusal core item s
  | .configurationRequest write offset value => Sys2Proof.Machine.execConfigurationRequest write offset value s
  | .storePerformed core item => Sys2Proof.Machine.execStorePerformed core item s

end Sys2Proof.Machine
end

