-- ==== Sys2Proof/Machine/Run.lean ====
section
/-! DEFINITION. The turn of a hart or of a lane thread: fetching and executing, asynchronous causes between and inside instructions, and transfers
that go wrong (R38 to R40, R98, R140, R142, R244, R245, R256, R259, R268, R448).

The definitions stand in a noncomputable section because they build instructions (see Sys2Proof/Decode.lean). -/

namespace Sys2Proof.Machine

noncomputable section

/-- What a word stands for: its instruction, or the illegal encoding that traps (R84). -/
def instrOfWord (w : BitVec 32) : Instr :=
  match decode w with
  | .ok i => i
  | .error _ => .illegalEncoding w

/-- The executing hart executes the instruction at its pc; a fetch that fails traps (R98). -/
def runInstr (s : State) : Out :=
  match fetch s with
  | .error (s, t) => raise s t
  | .ok (w, s) => exec (instrOfWord w) { s with word := w }

/-! ## Lane threads (R38 to R40, R140) -/

/-- A lane thread's instruction transfers control out of its region (R140). -/
def leavesRegion (i : Instr) (s t : State) : Bool :=
  transfers i s && t.lane.isSome && (match t.h.lanes with | some r => r.outside t.pc | none => false)

/-- Lane thread `l` of the executing hart executes one instruction (R38 to R40, R140). -/
def runLane (s : State) (l : Nat) : Out :=
  match s.h.lanes with
  | none => .next s
  | some r =>
    let ln := r.lanes.get (Fin.ofNat 16 l)
    if ln.started = false ∨ ln.joined then .next s
    else
      let s := { s with lane := some l }
      match laneFetch s r with
      | none => laneTrap s l
      | some w =>
        if laneWord w = false then laneTrap s l
        else
          match exec (instrOfWord w) { s with word := w } with
          | .next t => if leavesRegion (instrOfWord w) s t then laneTrap s l else .next { t with lane := none }
          | o => o

/-! ## A hart's turn (R245, R268, R276) -/

/-- The executing hart is a cistern's and stands in its mask ROM (R448). -/
def State.inRom (s : State) : Bool := decide (4160 ≤ s.agent) && decide (s.hartNo = 0) && atRom s (s.agent - 4160)

/-- The executing hart fetches its instructions: it runs, and does not stand where the machine runs code the spec gives no words of (log 22). -/
def State.fetches (s : State) : Bool :=
  (match s.h.run with | .task _ | .firmware => true | .free | .halted => false) && !s.atFirmware && !s.inRom

/-- The executing hart's next instruction, or that of the lowest lane that can run. -/
def runNext (s : State) : Out :=
  match s.h.lanes with
  | some r => (match r.next with | some l => runLane s l | none => .next s)
  | none => runInstr s

/-- A waiting instruction of the executing hart has completed. -/
def completed (s t : State) : Bool :=
  decide (t.h.run = .free) || (decide (t.h.wait.reason = 0) && decide (t.h.pc = s.h.pc + 4) && decide (t.h.trap = s.h.trap))

/-- An asynchronous cause is due, and `t` is the state after its trap. An instruction that waits completes first where what it waits for has
arrived (R268). A cause that is due while lane threads run ends the region: `epc` is the `lsplit`, `vstop` stays, and what the lanes have done stays
(R142 speaks of a lane's own trap only: log 41). -/
def runDue (s t : State) : Out :=
  if s.h.wait.reason ≠ 0 ∧ s.h.lanes.isNone then
    match runInstr s with
    | .next u => .next (if completed s u then u else t)
    | o => o
  else .next t

/-- The executing hart's turn: a free or halted hart does nothing; code the spec gives no words of, the core machine firmware and the mask ROM,
runs as one step (log 22); an asynchronous cause that is due comes before the next instruction. -/
def runHart (s : State) : Out :=
  match s.h.run with
  | .free | .halted => .next s
  | _ =>
    if s.atFirmware then .next (coreFirmware s)
    else if s.inRom then .next (romTurn s (s.agent - 4160))
    else
      match asyncTurn s with
      | some t => runDue s t
      | none => runNext s

/-! ## An asynchronous cause inside an instruction (R244 to R247) -/

/-- A queued instruction word can stop at each of its active positions (R244): not a move to or from a scalar register, a search or a count of a
mask, `vcompress`, a reduction that is not ordered, `vexit`, a pin, or anything outside the tile sweeps; `vbsq`, frames and `qpush` have stops of
their own. -/
def byElement (w : BitVec 32) : Bool :=
  let m := w.toNat / 2 ^ 26
  let op := bitsOf w.toNat 3 4
  if m = 0x20 then decide (0x0B ≤ bitsOf w.toNat 0 7)
  else if m = 0x26 then decide (op ≠ 1)
  else if m = 0x2C then w.getLsbD 2
  else if m = 0x2D then decide (op ≠ 3)
  else if m = 0x2E then decide (op = 5) || decide (op = 6)
  else if m = 0x35 then decide (bitsOf w.toNat 0 3 ≠ 7)
  else if m = 0x3D then decide (2 ≤ op)
  else (decide (0x21 ≤ m) && decide (m ≤ 0x2C)) || (decide (0x30 ≤ m) && decide (m ≤ 0x34))

/-- The mask that predicates a word's positions, by its format (R76): none selects or waits rather than predicates in `vmerge` and in a chunk-wait
load (R130, R161). -/
def predicate (w : BitVec 32) : BitVec 3 :=
  let m := w.toNat / 2 ^ 26
  if m = 0x26 ∨ (m = 0x30 ∨ m = 0x31) ∧ w.getLsbD 2 then 0
  else if m = 0x28 ∨ m = 0x29 ∨ m = 0x2C then BitVec.ofNat 3 (bitsOf w.toNat 4 2)
  else if 0x30 ≤ m ∧ m ≤ 0x35 then BitVec.ofNat 3 (bitsOf w.toNat 3 3)
  else BitVec.ofNat 3 (bitsOf w.toNat 8 3)

/-- A vector frame: `vspill` or `vfill` of kind 0 (R166). -/
def vectorFrame (w : BitVec 32) : Bool :=
  let k := bitsOf w.toNat 3 3
  decide (w.toNat / 2 ^ 26 = 0x35) && decide (bitsOf w.toNat 0 3 = 7) && (decide (k = 2) || decide (k = 3)) && decide (bitsOf w.toNat 11 5 = 0)

/-- The first active position of each block: a `vbsq` that stopped elsewhere would choose another scale when it resumed (R69, R74; log 41). -/
def blockStarts (ps : List (Nat × Nat)) : List (Nat × Nat) := ps.filter fun p => decide ((blockOf ps p.1 (p.2 / 32)).head? = some p)

/-- The positions at which an instruction can be stopped, in element order: those of a vector frame ignore the mask and `vstop` (R166), those of
`qpush` are its records (R217). -/
def stops (s : State) (w : BitVec 32) : List (Nat × Nat) :=
  let m := w.toNat / 2 ^ 26
  if vectorFrame w then reached s false
  else if m = 0x3D ∧ bitsOf w.toNat 0 7 = 0 then presented s (predicate w)
  else if m = 0x2C ∧ w.getLsbD 2 = false then blockStarts (active s (predicate w))
  else if byElement w then active s (predicate w)
  else []

/-- The position at which an instruction is stopped: its stop of a number. -/
def stopPoint (s : State) (w : BitVec 32) (n : Nat) : Option (Nat × Nat) := (stops s w)[n]?

/-- `s` with the bound of the sweep at a position (R138). -/
def State.boundAt (s : State) (p : Nat × Nat) : State :=
  s.setH { s.h with shape := { s.h.shape with vstop := posWord true p.1 p.2 } }

/-- An unordered store under another mask register; no other instruction. In strong mode every store is ordered (R306). -/
def unorderedUnder : Instr → BitVec 3 → Option Instr
  | .vst vs base idx token orient conv _ true width, k => some (.vst vs base idx token orient conv k true width)
  | .vstm vs base idx token conv _ true width, k => some (.vstm vs base idx token conv k true width)
  | .vstIndexed vs base idx token orient conv _ true width, k => some (.vstIndexed vs base idx token orient conv k true width)
  | .vstmIndexed vs base idx token conv _ true width, k => some (.vstmIndexed vs base idx token conv k true width)
  | _, _ => none

/-- An instruction with its sweep bounded at `p`; a frame, which ignores `vstop`, too (R166). -/
def boundedRun (i : Instr) (s : State) (p : Nat × Nat) : Out :=
  match i with
  | .vspill vs base 0 token conv => spillFrame vs base token conv true (s.boundAt p)
  | .vfill vd base 0 token conv => fillFrame vd base token conv true (s.boundAt p)
  | i => exec i (s.boundAt p)

/-- The elements that an instruction stopped at `p` performs: those before `p`, and of an unordered store any subset of the others (R244). -/
def stoppedRun (i : Instr) (w : BitVec 32) (s : State) (p : Nat × Nat) : Out :=
  match if s.strong then none else unorderedUnder i 1 with
  | none => boundedRun i s p
  | some j =>
    let keep := (active s (predicate w)).filter fun q =>
      beforeStop (posWord true p.1 p.2) q.1 q.2 || Config.storeEarly s.freeCtr q.1 q.2
    match exec j (s.setH ((s.h.setMask 1 0).putMask 1 keep fun _ _ => true)) with
    | .next t => .next (t.setH { t.h with m := s.h.m })
    | o => o

/-- The executing hart is stopped at position `p` of the instruction whose run up to there gave `t`: the pc and `vstop` as before it, `vstart` at
`p`; the cause's trap follows. -/
def stopAtPos (s t : State) (p : Nat × Nat) : State :=
  let u := t.setH { t.h with pc := s.h.pc, shape := { t.h.shape with vstart := posWord false p.1 p.2, vstop := s.h.shape.vstop } }
  (asyncTurn u).getD u

/-- The instruction has completed its sweep up to the bound. -/
def swept (s t : State) : Bool := decide (t.h.pc = s.h.pc + 4) && !t.h.convoy.isEmpty && decide (t.h.trap = s.h.trap)

/-- The instruction comes as far as `p`: a memory access or a push checks every position before it performs the first (R155, R217), and one whose
own trap comes before `p` never stands there. -/
def comesTo (i : Instr) (w : BitVec 32) (s : State) (p : Nat × Nat) : Bool :=
  let m := w.toNat / 2 ^ 26
  if (0x30 ≤ m ∧ m ≤ 0x35) ∨ m = 0x3D then
    match exec i s with
    | .next t =>
      let v := t.h.shape.vstart
      swept s t || !beforeStop (posWord true p.1 p.2) (posRow v) (posElem v)
    | _ => false
  else true

/-- The asynchronous cause that is due strikes inside the next instruction, at its stop of number `n`; before the instruction, where it has no such
position, does not resume by element, or does not come so far (R244, R245). -/
def runStopped (s : State) (n : Nat) : Out :=
  match asyncTurn s, s.h.lanes, fetch s with
  | some _, none, .ok (w, u) =>
    let u := { u with word := w }
    (match if s.fetches then stopPoint u w n else none with
     | some p =>
       if comesTo (instrOfWord w) w u p = false then runHart s
       else
       (match stoppedRun (instrOfWord w) w u p with
        | .next t => if swept u t then .next (stopAtPos u t p) else runHart s
        | o => o)
     | none => runHart s)
  | _, _, _ => runHart s

/-! ## A transfer that goes wrong (R256, R258, R259) -/

/-- A branch or `jalr` can go wrong to `target`: a branch the other way, `jalr` to any other word. -/
def goesWrong (i : Instr) (s : State) (target : Word) : Bool :=
  let other := fun off : BitVec 16 =>
    let dest := s.pc + (off.signExtend 64 <<< 2)
    dest ≠ s.pc + 4 && decide (target = if transfers i s then s.pc + 4 else dest)
  match i with
  | .beq _ _ off | .bne _ _ off | .blt _ _ off | .bge _ _ off => other off
  | .jalr _ rs1 imm =>
    let dest := baseImm s rs1 imm
    decide (dest.toNat % 4 = 0) && decide (target.toNat % 4 = 0) && target ≠ dest
  | _ => false

/-- The transfer has taken control to `target`: an armed checker finds that the outcome differs, and raises 0x160 with bit 0 of `mtval` set
(R256, R258); nothing else does (log 37). -/
def goWrong (i : Instr) (s : State) (target : Word) : State :=
  let t := match i with
    | .jalr rd _ _ => s.setX rd (s.pc + 4)
    | _ => s
  let ck := t.checkerNext
  let u := t.setH { t.h.running with checker := ck.close, pc := target }
  match ck with
  | .armed b _ _ false => takeTrapAt u (s.pc + 4) (Trap.of 0x160 (b + 1)) true
  | _ => u

/-- The executing hart's turn, in which a branch or `jalr` goes wrong (log 37). -/
def runUpset (s : State) (target : Word) : Out :=
  match asyncTurn s, s.h.lanes, fetch s with
  | none, none, .ok (w, u) =>
    let u := { u with word := w }
    if s.onCore && s.fetches && goesWrong (instrOfWord w) u target then
      .next (goWrong (instrOfWord w) u target)
    else runHart s
  | _, _, _ => runHart s

end

end Sys2Proof.Machine
end

