-- ==== Sys2Proof/Machine/Step.lean ====
section
/-! DEFINITION. One step of the machine: the next turn of the agenda, or one instruction of the executing hart (log 4).

The definitions stand in a noncomputable section because they build instructions (see Sys2Proof/Decode.lean). -/

namespace Sys2Proof.Machine

noncomputable section

/-- The oldest turn of the agenda, or the executing hart's next instruction where the agenda is empty. -/
def turn (s : State) : Host.Outcome State Fault Refusal :=
  match s.agenda with
  | [] => runHart s
  | .event i :: r => exec i { s with agenda := r }
  | .run k :: r => runHart { s with agenda := r, cur := k }
  | .lane k l :: r => runLane { s with agenda := r, cur := k } l
  | .cycles k n :: r => .next (passCycles { s with agenda := r } k n)
  | .stop k n :: r => runStopped { s with agenda := r, cur := k } n
  | .upset k a :: r => runUpset { s with agenda := r, cur := k } a
  | .outside e :: r => .next (outside { s with agenda := r } e)

/-- One step: a turn, after which the lease holder writes the repair log anew where the turn changed what it holds (R441). -/
def step (s : State) : Host.Outcome State Fault Refusal := logged s (turn s)

/-- `s` with an instruction word stored where the next step fetches: hart 0 of site (0, 0) of die 0 runs boot code at M
under boot fetch, its pc at scratchpad offset 0, as `sitego` starts it (R460, log 5). -/
def State.withFetchWord (s : State) (nbits w : Nat) : State :=
  let k := 0
  let h := (s.hartOf k).running
  let c := s.coreOf 0
  let h1 := { h with
    pc := 0, run := .firmware, lanes := none, pending := [], refused := [], checker := .idle
    trap := { h.trap with status := { h.trap.status with priv := 3, lthr := false } } }
  let s1 := { s with agenda := [], cur := k, lane := none }
  (s1.setHartOf k h1).setCoreOf 0
    { c with sp := writeLE c.sp 0 4 (w % 2 ^ nbits), spBad := [], bootFetch := true }

end

end Sys2Proof.Machine
end

