-- ==== Sys2Proof/Safety.lean ====
section
/-! DEFINITION. The terms in which statements about the machine are made: what it means that only one hart has changed, that an
instruction has completed, and which states are well formed.

A statement about an instruction names the whole next state: what it does not name is as before. -/

namespace Sys2Proof.Machine

/-! ## What has changed -/

/-- From `s` to `t` the executing hart has become `h` and nothing else has changed: no other hart, no byte of any memory, no core,
die, basin, context, queue, message or register of the package. -/
def Becomes (s t : State) (h : Hart) : Prop :=
  t.h = h ∧ (∀ k, k ≠ s.cur → t.hartOf k = s.hartOf k) ∧ t = { s with harts := t.harts }

/-- As `Becomes`, where the executing core has become `c` too. -/
def BecomesOn (s t : State) (h : Hart) (c : Core) : Prop :=
  t.h = h ∧ (∀ k, k ≠ s.cur → t.hartOf k = s.hartOf k)
    ∧ t.c = c ∧ (∀ k, k ≠ s.agent → t.coreOf k = s.coreOf k) ∧ t = { s with harts := t.harts, cores := t.cores }

/-- A hart that has completed an instruction goes on at `p`: its wait word shows that it runs (R269), and the block-signature checker
has folded the word in execution (R256, `State.checkerNext`). -/
def Hart.doneAt (h : Hart) (ck : Checker) (p : Word) : Hart :=
  { h with pc := p, checker := ck, wait := { h.wait with reason := 0, tag := 0, peer := 0 }, reply := none, asked := false }

/-- The scalar registers with rd written; x0 stays as it is (R19). -/
def Hart.xWith (h : Hart) (rd : BitVec 5) (v : Word) : Vector Word 32 :=
  if rd = 0 then h.x else h.x.set rd.toNat v rd.isLt

/-- Lane l's copy of a scalar register: bits [64l+63:64l] of row 0 of vr (R38). -/
def laneX (h : Hart) (r : Fin 32) (l : Nat) : Nat := (h.v.get r).toNat / 2 ^ (64 * l) % 2 ^ 64

/-- The executing thread is lane `l` of a region in progress, one of 16. -/
def InLane (s : State) (l : Nat) (r : LaneRegion) : Prop := s.lane = some l ∧ l < 16 ∧ s.h.lanes = some r

/-- The executing thread is a hart, or one of the lanes of a lane-threaded hart. -/
def OneThread (s : State) : Prop := s.lane = none ∨ ∃ l r, InLane s l r

/-- The hart `g` of lane `l` after the lane's scalar instruction: the lane's own rd holds `v`, its own pc is `p`, `fflags` of the hart has
gained `f`, and every other lane's registers and pc are as before, and so is the rest of the hart. -/
def LaneDone (h g : Hart) (l : Nat) (r : LaneRegion) (rd : BitVec 5) (v : Word) (f : BitVec 5) (p : Word) : Prop :=
  ∃ rows : Vector Row 32, ∃ lanes : Vector Lane 16,
    g = { (h.doneAt h.checker h.pc) with
          v := rows, lanes := some { r with lanes := lanes }, user := { h.user with fflags := h.user.fflags ||| f } }
    ∧ (∀ n : Fin 32, ∀ k, k < 64 → laneX g n k = if n = rd.toFin ∧ rd ≠ 0 ∧ k = l then v.toNat else laneX h n k)
    ∧ (∀ k : Fin 16, lanes.get k = if k.val = l then { r.lanes.get k with pc := p } else r.lanes.get k)

/-- The hart `g` after a scalar instruction of `s`'s executing thread has completed: rd holds `v`, `fflags` has gained `f`, the pc is `p`,
the signature checker is `ck`, and nothing else of the hart has changed. -/
def HartDone (s : State) (g : Hart) (rd : BitVec 5) (v : Word) (f : BitVec 5) (p : Word) (ck : Checker) : Prop :=
  (s.lane = none → g = { s.h with x := s.h.xWith rd v, user := { s.h.user with fflags := s.h.user.fflags ||| f } }.doneAt ck p)
    ∧ (∀ l r, InLane s l r → LaneDone s.h g l r rd v f p)

/-- A scalar instruction that touches registers alone has completed: from `s` to `t` nothing else has changed. -/
def ScalarDone (s t : State) (rd : BitVec 5) (v : Word) (f : BitVec 5) (p : Word) (ck : Checker) : Prop :=
  Becomes s t t.h ∧ HartDone s t.h rd v f p ck

/-! ## Traps (R237) -/

/-- The cause a hart takes: poison consumed at S becomes 0x162. -/
def causeTaken (s : State) (c : BitVec 9) : BitVec 9 :=
  if 0x140 ≤ c.toNat ∧ c.toNat < 0x160 ∧ s.h.trap.status.priv = 1 then 0x162 else c

/-- The trap is taken at S: the cause's group is delegated and the hart is not at M. -/
abbrev atS (s : State) (c : BitVec 9) : Prop :=
  (causeTaken s c).toNat < 0x160 ∧ s.h.trap.tdeleg.getLsbD ((causeTaken s c).toNat / 32) = true ∧ s.h.trap.status.priv ≠ 3

/-- What trap entry at S leaves in the trap registers. -/
def trapRegsS (r : TrapRegs) (c : BitVec 9) (tval epc restart : Word) : TrapRegs :=
  { r with cause := c, tval := tval, epc := epc &&& ~~~3, restart := restart
           status := { r.status with spp := r.status.priv, priv := 1, lthr := false } }

/-- What trap entry at M leaves in the trap registers. -/
def trapRegsM (r : TrapRegs) (c : BitVec 9) (tval epc restart : Word) : TrapRegs :=
  { r with mcause := c, mtval := tval, mepc := epc &&& ~~~3, restart := restart
           status := { r.status with mpp := r.status.priv, priv := 3, lthr := false } }

/-- From `s` to `t` the executing thread has taken a trap of cause `c` for the instruction at `epc`: the trap registers are
those of R237, the pc is at the handler, the next vector instruction starts a convoy, the signature checker is idle, and no x, v or m
register, pin, shape register or flag of the hart, no other hart and no byte of device or host memory has changed, but that a trap of lane
thread l leaves l in `vstop` (R142). Unless the hart has halted, because `mtvec` was 0 (R462), nothing else has changed but the queues
of its core and basins in which it waited. -/
def Trapped (s t : State) (c : BitVec 9) (tval epc restart : Word) : Prop :=
  (atS s c → t.h.trap = trapRegsS s.h.trap (causeTaken s c) tval epc restart ∧ t.h.pc = s.h.trap.tvec)
    ∧ (¬ atS s c → t.h.trap = trapRegsM s.h.trap (causeTaken s c) tval epc restart ∧ t.h.pc = s.h.trap.mtvec)
    ∧ t.h.x = s.h.x ∧ t.h.v = s.h.v ∧ t.h.m = s.h.m ∧ t.h.pins = s.h.pins ∧ t.h.user = s.h.user
    ∧ (t.h.shape = match s.lane with
        | none => s.h.shape
        | some l => { s.h.shape with vstop := BitVec.ofNat 64 (2 ^ 63 + l) })
    ∧ (c ≠ 0x042 → t.h.refused = s.h.refused) ∧ t.h.convoy = [] ∧ t.h.fresh = true ∧ t.h.checker = .idle ∧ t.h.lanes = none ∧ t.lane = none
    ∧ (t.h.run = if s.h.trap.mtvec = 0 ∧ ¬ atS s c then .halted else s.h.run)
    ∧ (∀ k, k ≠ s.cur → t.hartOf k = s.hartOf k) ∧ t.mem = s.mem ∧ t.hostMem = s.hostMem ∧ t.poison = s.poison
    ∧ ((atS s c ∨ s.h.trap.mtvec ≠ 0) ∧ s.h.run ≠ .halted →
        t = { s with lane := none, harts := t.harts, cores := t.cores, basins := t.basins }
        ∧ ∀ k, (t.coreOf k).sp = (s.coreOf k).sp ∧ (t.coreOf k).tasks = (s.coreOf k).tasks)

/-- An instruction traps with an illegal operand or another cause that is not consumed poison, at its own address. -/
def Traps (i : Instr) (s : State) (c : BitVec 9) (tval : Word) : Prop :=
  ∃ t, exec i s = .next t ∧ Trapped s t c tval s.pc 0

end Sys2Proof.Machine
end

