-- ==== Sys2Proof/Safety/Memory.lean ====
section
/-! DEFINITION. What loads, stores, atomics and releases do to memory: the bytes a core sees, and the tables of R105, R106 and R111. -/

namespace Sys2Proof.Machine.Spec

/-! ## Bytes -/

/-- The byte of device memory that the harts of core `k` see: that of its newest store on its way, else the one in memory (R283, R287). -/
def sees (s : State) (k a : Nat) : Byte := coreByte (s.coreOf k).pstores (.dev a) (readByte s.mem a)

/-- The byte that a read of host address `a` by core `k` meets: it is performed at the host, behind the core's own writes to it (R282, R300), at the
place that the context's PASID selects (R391). -/
def seesHost (s : State) (k a : Nat) : Byte := readByte (hostSync s k).hostMem (hostPlace s k 0 + a)

/-- The host and its memory are as in `s`, or as the core's writes to the host leave them once they are performed there; of the lines that the host
held some may have been taken back. -/
def HostAsIn (s t : State) : Prop :=
  (∀ l ∈ t.hostif.held, l ∈ s.hostif.held)
    ∧ ∃ u, (u = s ∨ u = hostSync s s.agent) ∧ t.hostMem = u.hostMem ∧ { t.hostif with held := [] } = { u.hostif with held := [] }

/-- The little-endian value of `n` bytes from `a` (R10). -/
def leOf (f : Nat → Byte) (a n : Nat) : Nat := ((List.range n).map fun i => (f (a + i)).toNat * 256 ^ i).sum

/-- Byte `i` of a value (R10). -/
def byteOf (v i : Nat) : Byte := BitVec.ofNat 8 (v / 256 ^ i)

/-- Byte `a` after the `n` low bytes of `v` have been written from `base`. -/
def patched (f : Nat → Byte) (base n v a : Nat) : Byte := if base ≤ a ∧ a < base + n then byteOf v (a - base) else f a

/-- A value of `n` bytes as a load writes it: sign-extended or zero-extended (R105, R106). -/
def extended (signed : Bool) (n v : Nat) : Word :=
  if signed then BitVec.ofInt 64 ((v : Int).bmod (2 ^ (8 * n))) else BitVec.ofNat 64 v

/-- Every store of core `k` that is on its way lies in one line: what R107's alignment rule leaves. -/
def StoresInLine (s : State) (k : Nat) : Prop :=
  ∀ q ∈ (s.coreOf k).pstores, ∀ a, q.loc = .dev a → q.data ≠ [] ∧ a / 128 = (a + q.data.length - 1) / 128

/-! ## Scalar forms -/

/-- R105, R106, R111: a global load's destination, address, size and whether it sign-extends. -/
def loadForm (i : Instr) (s : State) : Option (BitVec 5 × Word × Nat × Bool) :=
  match i with
  | .ld rd a imm => some (rd, s.x a + imm.signExtend 64, 8, false)
  | .lw rd a imm => some (rd, s.x a + imm.signExtend 64, 4, true)
  | .lwz rd a imm => some (rd, s.x a + imm.signExtend 64, 4, false)
  | .lbz rd a imm => some (rd, s.x a + imm.signExtend 64, 1, false)
  | .lx rd a b w => some (rd, s.x a + s.x b, 2 ^ (w.toNat / 2), decide (w.toNat % 2 = 0))
  | .ldaW rd a _ => some (rd, s.x a, 4, true)
  | .ldaD rd a _ => some (rd, s.x a, 8, false)
  | _ => none

/-- A release has come before an access: the core's stores to device memory are performed, at system scope those to the host too (R114, R293,
R300). -/
def released (s : State) (scope : BitVec 3) : State := if scope.toNat ≤ 4 then flushDev s s.agent else flushAll s s.agent

/-- In strong mode every store and every atomic is a release at core scope at least (R306). -/
def inMode (s : State) : State := if s.h.trap.status.mmstrong then flushDev s s.agent else s

/-- R105, R106, R111: a global store's address, size, value and the state after the releases before it. -/
def storeForm (i : Instr) (s : State) : Option (Word × Nat × Word × State) :=
  match i with
  | .sd rs a imm => some (s.x a + imm.signExtend 64, 8, s.x rs, inMode s)
  | .sw rs a imm => some (s.x a + imm.signExtend 64, 4, s.x rs, inMode s)
  | .sx rs a b w => some (s.x a + s.x b, 2 ^ (w.toNat / 2), s.x rs, inMode s)
  | .staW a b sc => some (s.x a, 4, s.x b, inMode (released s sc))
  | .staD a b sc => some (s.x a, 8, s.x b, inMode (released s sc))
  | _ => none

/-- An atomic as R111 lists it: destination, address, size, whether the result is zero-extended, whether the host takes it as an AtomicOp
(R113), the state after the release before it, and the new value from the old one: none where nothing is written. -/
structure AtomForm where
  rd : BitVec 5
  ea : Word
  size : Nat
  zext : Bool
  hostOp : Bool
  start : State
  new : Nat → Option Nat

/-- The signed value of `n` bytes. -/
def signedBytes (n v : Nat) : Int := (v : Int).bmod (2 ^ (8 * n))

/-- R111, but for `amoadd.f32`. -/
def atomForm (i : Instr) (s : State) : Option AtomForm :=
  let rel := fun (scope : BitVec 3) (ord : BitVec 2) => if 2 ≤ ord.toNat then released s scope else inMode s
  let form := fun (n : Nat) (z h : Bool) (rd a b : BitVec 5) (sc : BitVec 3) (o : BitVec 2) (f : Nat → Nat → Option Nat) =>
    some ({ rd := rd, ea := s.x a, size := n, zext := z, hostOp := h, start := rel sc o
            new := fun c => f c ((s.x b).toNat % 2 ^ (8 * n)) } : AtomForm)
  let smin := fun (n c b : Nat) => some (if signedBytes n b ≤ signedBytes n c then b else c)
  let smax := fun (n c b : Nat) => some (if signedBytes n c ≤ signedBytes n b then b else c)
  let cas := fun (n : Nat) (rd : BitVec 5) (c b : Nat) => if c = (s.x rd).toNat % 2 ^ (8 * n) then some b else none
  match i with
  | .amoswapD rd a b sc o => form 8 false true rd a b sc o fun _ b => some b
  | .amoaddD rd a b sc o => form 8 false true rd a b sc o fun c b => some ((c + b) % 2 ^ 64)
  | .amoandD rd a b sc o => form 8 false false rd a b sc o fun c b => some (c &&& b)
  | .amoorD rd a b sc o => form 8 false false rd a b sc o fun c b => some (c ||| b)
  | .amoxorD rd a b sc o => form 8 false false rd a b sc o fun c b => some (c ^^^ b)
  | .amominD rd a b sc o => form 8 false false rd a b sc o (smin 8)
  | .amomaxD rd a b sc o => form 8 false false rd a b sc o (smax 8)
  | .amominzD rd a b sc o => form 8 false false rd a b sc o fun c b => some (min c b)
  | .amomaxzD rd a b sc o => form 8 false false rd a b sc o fun c b => some (max c b)
  | .amocasD rd a b sc o => form 8 false true rd a b sc o (cas 8 rd)
  | .amoswapW rd a b sc o => form 4 false true rd a b sc o fun _ b => some b
  | .amoaddW rd a b sc o => form 4 false true rd a b sc o fun c b => some ((c + b) % 2 ^ 32)
  | .amoandW rd a b sc o => form 4 false false rd a b sc o fun c b => some (c &&& b)
  | .amoorW rd a b sc o => form 4 false false rd a b sc o fun c b => some (c ||| b)
  | .amoxorW rd a b sc o => form 4 false false rd a b sc o fun c b => some (c ^^^ b)
  | .amominW rd a b sc o => form 4 false false rd a b sc o (smin 4)
  | .amomaxW rd a b sc o => form 4 false false rd a b sc o (smax 4)
  | .amominzW rd a b sc o => form 4 true false rd a b sc o fun c b => some (min c b)
  | .amomaxzW rd a b sc o => form 4 true false rd a b sc o fun c b => some (max c b)
  | .amocasW rd a b sc o => form 4 false true rd a b sc o (cas 4 rd)
  | _ => none

/-! ## Places -/

/-- The value a scalar access reads at a place: as the core sees device and host memory, a controller's own bytes, a register of control
space, or 0 where there is no memory. -/
def valueAt (u : State) (l : Loc) (n : Nat) : Nat :=
  match l with
  | .dev a => leOf (sees u u.agent) a n
  | .host a => leOf (seesHost u u.agent) a n
  | .own a => leOf (readByte u.c.sp) a n
  | .ctl a => ctlRead u a n
  | .hole => 0

/-- Nothing at the place stops a load: no poisoned word (R250), and the host accepts the access (R392). -/
def readable (u : State) (l : Loc) (n : Nat) : Prop :=
  match l with
  | .dev a => poisonAt u a n = none
  | .host a => hostRefuses u u.agent a false = false
  | _ => True

end Sys2Proof.Machine.Spec
end

