-- ==== Sys2Proof/Safety/Scalar.lean ====
section
/-! DEFINITION. What the tables of R99 to R103 and R115 to R118 say of scalar instructions: the register written and its value, in integer
arithmetic, written apart from the meanings. -/

namespace Sys2Proof.Machine.Spec

/-- 1 or 0. -/
def flag (p : Bool) : Word := if p then 1#64 else 0#64

/-- The smaller of two values by an order, or the larger. -/
def pick (less : Bool) (a b : Word) : Word := if less then a else b

/-- How many of bits 63 to 0 satisfy a condition. -/
def countBits (p : Nat → Bool) : Word := BitVec.ofNat 64 ((List.range 64).countP p)

/-- The bytes of a value in reverse order: byte i goes to byte 7 - i (R101). -/
def bytesReversed (a : Word) : Word :=
  BitVec.ofNat 64 ((List.range 8).map fun i => a.toNat / 256 ^ i % 256 * 256 ^ (7 - i)).sum

/-- The signed value of the low 32 bits, as a 64-bit value (R99). -/
def sext32 (i : Int) : Word := BitVec.ofInt 64 (i.bmod (2 ^ 32))

/-- R99 to R102: the register an integer instruction writes and the value it writes. -/
def intResult (i : Instr) (s : State) : Option (BitVec 5 × Word) :=
  let x := s.x
  match i with
  | .add rd a b => some (rd, BitVec.ofInt 64 ((x a).toInt + (x b).toInt))
  | .sub rd a b => some (rd, BitVec.ofInt 64 ((x a).toInt - (x b).toInt))
  | .and rd a b => some (rd, BitVec.ofNat 64 ((x a).toNat &&& (x b).toNat))
  | .or rd a b => some (rd, BitVec.ofNat 64 ((x a).toNat ||| (x b).toNat))
  | .xor rd a b => some (rd, BitVec.ofNat 64 ((x a).toNat ^^^ (x b).toNat))
  | .sll rd a b => some (rd, BitVec.ofNat 64 ((x a).toNat * 2 ^ ((x b).toNat % 64)))
  | .srl rd a b => some (rd, BitVec.ofNat 64 ((x a).toNat / 2 ^ ((x b).toNat % 64)))
  | .sra rd a b => some (rd, BitVec.ofInt 64 ((x a).toInt / 2 ^ ((x b).toNat % 64)))
  | .slt rd a b => some (rd, flag (decide ((x a).toInt < (x b).toInt)))
  | .sltz rd a b => some (rd, flag (decide ((x a).toNat < (x b).toNat)))
  | .addw rd a b => some (rd, sext32 ((x a).toInt + (x b).toInt))
  | .subw rd a b => some (rd, sext32 ((x a).toInt - (x b).toInt))
  | .min rd a b => some (rd, pick (decide ((x a).toInt ≤ (x b).toInt)) (x a) (x b))
  | .max rd a b => some (rd, pick (decide ((x b).toInt ≤ (x a).toInt)) (x a) (x b))
  | .minz rd a b => some (rd, pick (decide ((x a).toNat ≤ (x b).toNat)) (x a) (x b))
  | .maxz rd a b => some (rd, pick (decide ((x b).toNat ≤ (x a).toNat)) (x a) (x b))
  | .mul rd a b => some (rd, BitVec.ofInt 64 ((x a).toInt * (x b).toInt))
  | .mulh rd a b => some (rd, BitVec.ofInt 64 ((x a).toInt * (x b).toInt / 2 ^ 64))
  | .mulhz rd a b => some (rd, BitVec.ofNat 64 ((x a).toNat * (x b).toNat / 2 ^ 64))
  | .div rd a b => some (rd, if x b = 0 then BitVec.ofNat 64 0xFFFFFFFFFFFFFFFF else BitVec.ofInt 64 ((x a).toInt.tdiv (x b).toInt))
  | .divz rd a b => some (rd, if x b = 0 then BitVec.ofNat 64 0xFFFFFFFFFFFFFFFF else BitVec.ofNat 64 ((x a).toNat / (x b).toNat))
  | .rem rd a b => some (rd, if x b = 0 then x a
      else BitVec.ofInt 64 ((x a).toInt - (x b).toInt * (x a).toInt.tdiv (x b).toInt))
  | .remz rd a b => some (rd, if x b = 0 then x a
      else BitVec.ofNat 64 ((x a).toNat - (x b).toNat * ((x a).toNat / (x b).toNat)))
  | .slli rd a sh => some (rd, BitVec.ofNat 64 ((x a).toNat * 2 ^ sh.toNat))
  | .srli rd a sh => some (rd, BitVec.ofNat 64 ((x a).toNat / 2 ^ sh.toNat))
  | .srai rd a sh => some (rd, BitVec.ofInt 64 ((x a).toInt / 2 ^ sh.toNat))
  | .rori rd a sh =>
    some (rd, BitVec.ofNat 64 ((x a).toNat / 2 ^ sh.toNat + (x a).toNat % 2 ^ sh.toNat * 2 ^ (64 - sh.toNat)))
  | .clz rd a => some (rd, countBits fun k => (x a).toNat / 2 ^ k = 0)
  | .ctz rd a => some (rd, countBits fun k => (x a).toNat % 2 ^ (k + 1) = 0)
  | .cpop rd a => some (rd, countBits fun k => (x a).getLsbD k)
  | .rev8 rd a => some (rd, bytesReversed (x a))
  | .zeqz rd a b => some (rd, if x b = 0 then 0 else x a)
  | .znez rd a b => some (rd, if x b = 0 then x a else 0)
  | .addi rd a imm => some (rd, BitVec.ofInt 64 ((x a).toInt + imm.toInt))
  | .andi rd a imm => some (rd, x a &&& BitVec.ofInt 64 imm.toInt)
  | .ori rd a imm => some (rd, x a ||| BitVec.ofNat 64 imm.toNat)
  | .lui rd imm => some (rd, BitVec.ofInt 64 (imm.toInt * 2 ^ 16))
  | .auipc rd imm => some (rd, BitVec.ofInt 64 (s.pc.toInt + imm.toInt * 2 ^ 16))
  | _ => none

/-- R103: the pc after a control transfer, and the register that receives pc + 4; `jalr` to an address that is no multiple of 4 transfers
nothing. -/
def transfer (i : Instr) (s : State) : Option (Word × BitVec 5) :=
  let x := s.x
  let dest := fun (taken : Bool) (off : BitVec 16) =>
    if taken then BitVec.ofInt 64 (s.pc.toInt + 4 * off.toInt) else BitVec.ofInt 64 (s.pc.toInt + 4)
  match i with
  | .jal rd off => some (BitVec.ofInt 64 (s.pc.toInt + 4 * off.toInt), rd)
  | .jalr rd a imm =>
    let t := BitVec.ofInt 64 ((x a).toInt + imm.toInt)
    if t.toNat % 4 = 0 then some (t, rd) else none
  | .beq a b off => some (dest (decide (x a = x b)) off, 0)
  | .bne a b off => some (dest (decide (x a ≠ x b)) off, 0)
  | .blt a b off => some (dest (decide ((x a).toInt < (x b).toInt)) off, 0)
  | .bge a b off => some (dest (decide ((x b).toInt ≤ (x a).toInt)) off, 0)
  | _ => none

/-- R103: the target of a transfer that is taken: every jump, and a branch whose condition holds. -/
def taken (i : Instr) (s : State) : Option Word :=
  let x := s.x
  let goes := fun (p : Bool) => if p then (transfer i s).map Prod.fst else none
  match i with
  | .jal .. | .jalr .. => goes true
  | .beq a b _ => goes (decide (x a = x b))
  | .bne a b _ => goes (decide (x a ≠ x b))
  | .blt a b _ => goes (decide ((x a).toInt < (x b).toInt))
  | .bge a b _ => goes (decide ((x b).toInt ≤ (x a).toInt))
  | _ => none

/-- The bits of a scalar FP32 or FP64 operand: bits [31:0] or all of it (R19). -/
def fpBits (f : FpFmt) (v : Word) : Nat := v.toNat % 2 ^ fpWidth f

/-- A scalar floating-point result: the bits above its format are ones (R19). -/
def fpWord (f : FpFmt) (n : Nat) : Word := BitVec.ofNat 64 (2 ^ 64 - 2 ^ fpWidth f + n % 2 ^ fpWidth f)

/-- The format the selector of R117 and R118 names. -/
def selFmt (single : Bool) : FpFmt := if single then .f32 else .f64

/-- Width and signedness of the integer types `.w`, `.wz`, `.d`, `.dz` of R117. -/
def intType (ty : BitVec 2) : Nat × Bool := (if ty.toNat < 2 then 32 else 64, decide (ty.toNat % 2 = 0))

/-- A value of an integer type as a register holds it: sign-extended, or zero-extended. -/
def intWord (ty : BitVec 2) (n : Nat) : Word :=
  if (intType ty).2 then BitVec.ofInt 64 ((n : Int).bmod (2 ^ (intType ty).1)) else BitVec.ofNat 64 n

/-- The value of an integer type that a register holds. -/
def intValue (ty : BitVec 2) (v : Word) : Int :=
  if (intType ty).2 then (v.toInt).bmod (2 ^ (intType ty).1) else (v.toNat % 2 ^ (intType ty).1 : Nat)

/-- R116 to R118: the register a scalar floating-point instruction writes, its value and the flags it sets, over the number operations of
R55 to R68 (`fAdd`, `fFma` and the others of Machine/Float.lean). -/
def fpResult (i : Instr) (s : State) : Option (BitVec 5 × Word × BitVec 5) :=
  let m := rndOf s.h.user.frm
  let bin := fun (f : FpFmt) (op : FpFmt → Rnd → Nat → Nat → Nat × Flags) (rd a b : BitVec 5) =>
    some (rd, fpWord f (op f m (fpBits f (s.x a)) (fpBits f (s.x b))).1, (op f m (fpBits f (s.x a)) (fpBits f (s.x b))).2)
  let fma := fun (f : FpFmt) (np nc : Bool) (rd a b : BitVec 5) =>
    let r := fFma f m np nc (fpBits f (s.x a)) (fpBits f (s.x b)) (fpBits f (s.x rd))
    some (rd, fpWord f r.1, r.2)
  let toInt := fun (single : Bool) (mode : Rnd) (rd a : BitVec 5) (ty : BitVec 2) =>
    let r := fToInt (selFmt single) mode (intType ty).2 (intType ty).1 (fpBits (selFmt single) (s.x a))
    some (rd, intWord ty r.1, r.2)
  let cvt := fun (f g : FpFmt) (rd a : BitVec 5) =>
    let r := fConvert f g false m none (fpBits f (s.x a))
    some (rd, fpWord g r.1, r.2)
  let cmp := fun (c : FCmp) (single : Bool) (rd a b : BitVec 5) =>
    let r := fCompare (selFmt single) c (fpBits (selFmt single) (s.x a)) (fpBits (selFmt single) (s.x b))
    some (rd, flag r.1, r.2)
  let mm := fun (max : Bool) (single : Bool) (rd a b : BitVec 5) =>
    let r := fMinMax (selFmt single) max (fpBits (selFmt single) (s.x a)) (fpBits (selFmt single) (s.x b))
    some (rd, fpWord (selFmt single) r.1, r.2)
  match i with
  | .faddF64 rd a b => bin .f64 fAdd rd a b
  | .fsubF64 rd a b => bin .f64 fSub rd a b
  | .fmulF64 rd a b => bin .f64 fMul rd a b
  | .fdivF64 rd a b => bin .f64 fDiv rd a b
  | .fsqrtF64 rd a => bin .f64 (fun f m n _ => fSqrt f m n) rd a a
  | .fmacF64 rd a b => fma .f64 false false rd a b
  | .fmscF64 rd a b => fma .f64 false true rd a b
  | .fnmacF64 rd a b => fma .f64 true false rd a b
  | .faddF32 rd a b => bin .f32 fAdd rd a b
  | .fsubF32 rd a b => bin .f32 fSub rd a b
  | .fmulF32 rd a b => bin .f32 fMul rd a b
  | .fdivF32 rd a b => bin .f32 fDiv rd a b
  | .fsqrtF32 rd a => bin .f32 (fun f m n _ => fSqrt f m n) rd a a
  | .fmacF32 rd a b => fma .f32 false false rd a b
  | .fmscF32 rd a b => fma .f32 false true rd a b
  | .fnmacF32 rd a b => fma .f32 true false rd a b
  | .ftoi rd a single ty => toInt single m rd a ty
  | .ftrc rd a single ty => toInt single .rtz rd a ty
  | .itof rd a single ty =>
    let r := fFromInt (selFmt single) m (intValue ty (s.x a))
    some (rd, fpWord (selFmt single) r.1, r.2)
  | .fnarrowF32 rd a => cvt .f64 .f32 rd a
  | .fnarrowF16 rd a => cvt .f32 .f16 rd a
  | .fnarrowBf16 rd a => cvt .f32 .bf16 rd a
  | .fwidenF32 rd a => cvt .f32 .f64 rd a
  | .fwidenF16 rd a => cvt .f16 .f32 rd a
  | .fwidenBf16 rd a => cvt .bf16 .f32 rd a
  | .feq rd a b single => cmp .eq single rd a b
  | .flt rd a b single => cmp .lt single rd a b
  | .fle rd a b single => cmp .le single rd a b
  | .fmin rd a b single => mm false single rd a b
  | .fmax rd a b single => mm true single rd a b
  | .fclass rd a single => some (rd, BitVec.ofNat 64 (fClass (selFmt single) (fpBits (selFmt single) (s.x a))), 0)
  | _ => none

end Sys2Proof.Machine.Spec
end

