-- ==== Sys2Proof/Safety/Vector.lean ====
section
/-! DEFINITION. What the vector instructions write, position by position: the tables of R125 to R138, in integer arithmetic and written apart
from the meanings. -/

namespace Sys2Proof.Machine.Spec

/-! ## Elements and positions -/

/-- Element e, of w bits, of register r of a vector file. -/
def elemOf (v : Vector Row 32) (r w e : Nat) : Nat := (v.get (Fin.ofNat 32 r)).toNat / 2 ^ (w * e) % 2 ^ w

/-- Element (j, e) of the group that field `n` names. -/
def el (s : State) (n : BitVec 5) (w j e : Nat) : Nat := elemOf s.h.v (n.toNat + j) w e

/-- Bit (j, i) of a mask register; m0 reads as all ones (R21). -/
def bitIn (m : Vector Mask 8) (n : BitVec 3) (j i : Nat) : Bool := n = 0 || (m.get n.toFin).getLsbD (1024 * j + i)

/-- A legal shape, which every `vshape` grants (R23): 1, 2, 4 or 8 rows of at most 4,096 bits. -/
abbrev ShapeOk (p : Shape) : Prop :=
  (p.vrows = 1 ∨ p.vrows = 2 ∨ p.vrows = 4 ∨ p.vrows = 8) ∧ p.sew.toNat ≤ 3 ∧ p.vl.toNat * (8 * 2 ^ p.sew.toNat) ≤ 4096

/-- Row and element of a position register (R44). -/
def row (p : Word) : Nat := p.toNat / 2 ^ 16 % 8

def col (p : Word) : Nat := p.toNat % 2 ^ 11

/-- Position (j, i) lies in the tile, not before `vstart`, and before `vstop` where that bounds (R119, R138). -/
def inSweep (s : State) (bound : Bool) (j i : Nat) : Bool :=
  decide (j < s.h.shape.vrows.toNat ∧ i < s.h.shape.vl.toNat
    ∧ row s.h.shape.vstart * 2048 + col s.h.shape.vstart ≤ j * 2048 + i)
    && !(bound && s.h.shape.vstop.getLsbD 63 && decide (row s.h.shape.vstop * 2048 + col s.h.shape.vstop ≤ j * 2048 + i))

/-- The positions an instruction is active at: those of the sweep whose mask bit is 1 (R119). -/
def activeAt (s : State) (mask : BitVec 3) (j i : Nat) : Bool := inSweep s true j i && bitIn s.h.m mask j i

/-- Every position of the tile, in element order (R25). -/
def tileOf (s : State) : List (Nat × Nat) :=
  (List.range s.h.shape.vrows.toNat).flatMap fun j => (List.range s.h.shape.vl.toNat).map fun i => (j, i)

/-- `vstart` lies in the tile, or is 0, or the tile is empty (R44). -/
abbrev StartOk (s : State) : Prop :=
  s.h.shape.vl = 0 ∨ s.h.shape.vstart = 0
    ∨ (row s.h.shape.vstart < s.h.shape.vrows.toNat ∧ col s.h.shape.vstart < s.h.shape.vl.toNat)

/-- The field names a group (R24). -/
abbrev Group (s : State) (n : BitVec 5) : Prop := n.toNat % s.h.shape.vrows.toNat = 0

/-- Element width (R26). -/
def sewOf (s : State) : Nat := 8 * 2 ^ s.h.shape.sew.toNat

/-- The width a width code names is `vtype.sew` (R121). -/
abbrev WidthIs (s : State) (ty : BitVec 2) : Prop := 8 * 2 ^ ty.toNat = sewOf s

/-- The wide elements fit a row, and SEW is at most 32 (R122, R126, R127). -/
abbrev WideOk (s : State) : Prop := sewOf s ≤ 32 ∧ s.h.shape.vl.toNat * (2 * sewOf s) ≤ 4096

/-- Two groups overlap. -/
abbrev Overlap (s : State) (a b : BitVec 5) : Prop :=
  a.toNat < b.toNat + s.h.shape.vrows.toNat ∧ b.toNat < a.toNat + s.h.shape.vrows.toNat

/-- The registers of a group. -/
def regs (s : State) (n : BitVec 5) : List Nat := (List.range s.h.shape.vrows.toNat).map (n.toNat + ·)

/-! ## Convoys (R33 to R37) -/

/-- The convoy that an instruction joins: none where it starts one (R33). -/
def convoyBefore (s : State) (c : Claim) : List Member :=
  if c.conv = true ∨ s.h.fresh = true ∨ 8 ≤ s.h.convoy.length then [] else s.h.convoy

/-- An earlier member stands in the way of an instruction: it holds a unit the instruction claims, or it wrote a register that the
instruction reads as a cross-group reader (R35 to R37). -/
def Clash (m : Member) (c : Claim) : Prop :=
  m.units &&& c.units ≠ 0 ∨ (c.cross = true ∧ ((∃ r ∈ m.vregs, r ∈ c.rv) ∨ ∃ r ∈ m.mregs, r ≠ 0 ∧ r ∈ c.rm))

/-- The instruction conflicts with no earlier member of its convoy. -/
def Joins (s : State) (c : Claim) : Prop := ∀ m ∈ convoyBefore s c, ¬ Clash m c

/-- A vector-queue instruction has completed: the hart has become `g` but for what every such instruction does: `vstart` is 0, the convoy has
one member more, and the pc has advanced. -/
def VectorDone (s t : State) (c : Claim) (g : Hart) : Prop :=
  Becomes s t (Hart.doneAt { g with
    convoy := convoyBefore s c ++ [{ addr := s.h.pc, units := c.units, vregs := c.wv, mregs := c.wm }]
    fresh := false, shape := { g.shape with vstart := 0 } } s.checkerNext (s.h.pc + 4))

/-! ## Element forms -/

/-- An instruction that writes elements of one group: its operand conditions and claim, and at which positions it writes which value and
raises which flags. -/
structure ElemForm where
  legal : Bool
  claim : Claim
  vd : BitVec 5
  /-- Width of a destination element. -/
  w : Nat
  writes : Nat → Nat → Bool
  val : Nat → Nat → Nat
  flags : Nat → Nat → BitVec 5

/-- `v'` is `v` with `val` at the elements that `writes` accepts, and every other bit as before. -/
def ElementsWritten (v v' : Vector Row 32) (vd w : Nat) (writes : Nat → Nat → Bool) (val : Nat → Nat → Nat) : Prop :=
  (∀ j e, writes j e = true → elemOf v' (vd + j) w e = val j e % 2 ^ w)
    ∧ (∀ (r : Fin 32) (k : Nat), (∀ j e, writes j e = true → ¬ (vd + j = r.val ∧ k / w = e)) →
        (v'.get r).getLsbD k = (v.get r).getLsbD k)

/-- The flags of every position written, ORed. -/
def flagsOver (s : State) (writes : Nat → Nat → Bool) (flags : Nat → Nat → BitVec 5) : BitVec 5 :=
  ((tileOf s).filter fun p => writes p.1 p.2).foldl (fun a p => a ||| flags p.1 p.2) 0

/-! ### Arithmetic -/

/-- The signed value of w bits. -/
def sgn (w a : Nat) : Int := (a : Int).bmod (2 ^ w)

/-- An integer clamped to a range. -/
def clampTo (lo hi v : Int) : Int := max lo (min hi v)

def sLo (w : Nat) : Int := -(2 ^ (w - 1))
def sHi (w : Nat) : Int := 2 ^ (w - 1) - 1
def uHi (w : Nat) : Int := 2 ^ w - 1

/-- R126, R127: the result of an elementwise integer operation of w bits, to be taken mod 2^w. -/
def intOp (i : Instr) (w a b : Nat) : Option Int :=
  let sa := sgn w a
  let sb := sgn w b
  let sh := b % w
  match i with
  | .vadd .. => some (a + b)
  | .vsub .. => some (a - b)
  | .vrsub .. => some (b - a)
  | .vmin .. => some (min sa sb)
  | .vminz .. => some (min a b : Nat)
  | .vmax .. => some (max sa sb)
  | .vmaxz .. => some (max a b : Nat)
  | .vsadd .. => some (clampTo (sLo w) (sHi w) (sa + sb))
  | .vsaddz .. => some (clampTo 0 (uHi w) (a + b))
  | .vssub .. => some (clampTo (sLo w) (sHi w) (sa - sb))
  | .vssubz .. => some (clampTo 0 (uHi w) (a - b))
  | .vmul .. => some (a * b)
  | .vmulh .. => some (sa * sb / 2 ^ w)
  | .vmulhz .. => some (a * b / 2 ^ w)
  | .vdiv .. => some (if b = 0 then -1 else sa.tdiv sb)
  | .vdivz .. => some (if b = 0 then -1 else (a / b : Nat))
  | .vrem .. => some (if b = 0 then a else sa - sb * sa.tdiv sb)
  | .vremz .. => some (if b = 0 then a else (a % b : Nat))
  | .vand .. => some (a &&& b : Nat)
  | .vor .. => some (a ||| b : Nat)
  | .vxor .. => some (a ^^^ b : Nat)
  | .vandn .. => some (a - (a &&& b : Nat))
  | .vsll .. => some (a * 2 ^ sh)
  | .vsrl .. => some (a / 2 ^ sh : Nat)
  | .vsra .. => some (sa / 2 ^ sh)
  | .vror .. => some (a / 2 ^ sh + a % 2 ^ sh * 2 ^ (w - sh) : Nat)
  | _ => none

/-- R126, R127: the result of a widening operation on operands of w bits. -/
def wideOp (i : Instr) (w a b : Nat) : Option Int :=
  match i with
  | .vwadd .. => some (sgn w a + sgn w b)
  | .vwaddz .. => some (a + b)
  | .vwsub .. => some (sgn w a - sgn w b)
  | .vwsubz .. => some (a - b)
  | .vwmul .. => some (sgn w a * sgn w b)
  | .vwmulz .. => some (a * b)
  | .vext .. => some (sgn w a)
  | .vextz .. => some a
  | _ => none

/-- R127: the result of a narrowing operation from 2w to w bits. -/
def narrowOp (i : Instr) (w a : Nat) : Option Int :=
  match i with
  | .vnarrow .. => some a
  | .vnsat .. => some (clampTo (sLo w) (sHi w) (sgn (2 * w) a))
  | .vnsatz .. => some (clampTo 0 (uHi w) a)
  | .vnclampz .. => some (clampTo 0 (uHi w) (sgn (2 * w) a))
  | _ => none

/-- An integer mod 2^w, as a number. -/
def modOf (w : Nat) (i : Int) : Nat := (i % 2 ^ w).toNat

/-- The four byte products of R128. -/
def dotBytes (ext : Nat → Int) (a b : Nat) : Int :=
  ((List.range 4).map fun q => ext (a / 256 ^ q % 256) * ext (b / 256 ^ q % 256)).sum

/-! ### The table -/

/-- The vs2 operand: an element, or the low bits of an x register (R120). -/
def opnd (s : State) (scalar : Bool) (n : BitVec 5) (w j e : Nat) : Nat :=
  if scalar then (s.x n).toNat % 2 ^ w else el s n w j e

/-- An elementwise claim, and a claim of a width-changing form (R124). -/
def claimPlain (conv : Bool) (mask : BitVec 3) (rv wv wm : List Nat) : Claim :=
  { conv := conv, units := 0, cross := false, rv := rv, rm := [mask.toNat], wv := wv, wm := wm }

def claimWide (conv : Bool) (mask : BitVec 3) (rv wv : List Nat) : Claim :=
  { claimPlain conv mask rv wv [] with cross := true }

/-- The claim of the permute network (R124). -/
def claimPerm (conv : Bool) (rm rv wv : List Nat) : Claim :=
  { conv := conv, units := 1, cross := true, rv := rv, rm := rm, wv := wv, wm := [] }

def second (s : State) (scalar : Bool) (n : BitVec 5) : List Nat := if scalar then [] else regs s n

/-- A form of layout R121 at SEW. -/
def formInt (i : Instr) (s : State) (vd a b : BitVec 5) (mask : BitVec 3) (conv scalar : Bool) (ty : BitVec 2) : ElemForm :=
  let w := sewOf s
  { legal := decide (StartOk s ∧ WidthIs s ty ∧ Group s vd ∧ Group s a ∧ (scalar = false → Group s b))
    claim := claimPlain conv mask (regs s a ++ second s scalar b) (regs s vd) []
    vd := vd, w := w, writes := activeAt s mask
    val := fun j e => modOf w ((intOp i w (el s a w j e) (opnd s scalar b w j e)).getD 0), flags := fun _ _ => 0 }

/-- A widening form. -/
def formWide (i : Instr) (s : State) (vd a b : BitVec 5) (mask : BitVec 3) (conv two scalar : Bool) (ty : BitVec 2) : ElemForm :=
  let w := sewOf s
  let vec := two && !scalar
  { legal := decide (StartOk s ∧ WidthIs s ty ∧ WideOk s ∧ Group s vd ∧ Group s a ∧ (vec = true → Group s b) ∧ vd ≠ a ∧ (vec = true → vd ≠ b))
    claim := claimWide conv mask (regs s a ++ second s (!vec) b) (regs s vd)
    vd := vd, w := 2 * w, writes := activeAt s mask
    val := fun j e => modOf (2 * w) ((wideOp i w (el s a w j e) (opnd s scalar b w j e)).getD 0), flags := fun _ _ => 0 }

/-- A narrowing form. -/
def formNarrow (i : Instr) (s : State) (vd a : BitVec 5) (mask : BitVec 3) (conv : Bool) (ty : BitVec 2) : ElemForm :=
  let w := sewOf s
  { legal := decide (StartOk s ∧ WidthIs s ty ∧ WideOk s ∧ Group s vd ∧ Group s a ∧ vd ≠ a)
    claim := claimWide conv mask (regs s a) (regs s vd)
    vd := vd, w := w, writes := activeAt s mask
    val := fun j e => modOf w ((narrowOp i w (el s a (2 * w) j e)).getD 0), flags := fun _ _ => 0 }

/-- A form of major 0x20 that writes a value at every active position (R125). -/
def formMove (s : State) (vd : BitVec 5) (mask : BitVec 3) (conv : Bool) (src : Option (BitVec 5)) (val : Nat → Nat → Nat) : ElemForm :=
  { legal := decide (StartOk s ∧ Group s vd ∧ src.all (fun a => decide (Group s a)) = true)
    claim := claimPlain conv mask (match src with | some a => regs s a | none => []) (regs s vd) []
    vd := vd, w := sewOf s, writes := activeAt s mask, val := val, flags := fun _ _ => 0 }

/-- A multiply-add at SEW (R128). -/
def formMac (s : State) (ok : Bool) (vd a b c : BitVec 5) (mask : BitVec 2) (conv : Bool) (f : Nat → Nat → Nat → Int) : ElemForm :=
  let w := sewOf s
  { legal := decide (StartOk s ∧ ok ∧ Group s vd ∧ Group s a ∧ Group s b ∧ Group s c)
    claim := claimPlain conv (mask.setWidth 3) (regs s a ++ regs s b ++ regs s c) (regs s vd) []
    vd := vd, w := w, writes := activeAt s (mask.setWidth 3)
    val := fun j e => modOf w (f (el s a w j e) (el s b w j e) (el s c w j e)), flags := fun _ _ => 0 }

/-- `vwmac` (R128). -/
def formWmac (s : State) (ext : Nat → Int) (vd a b c : BitVec 5) (mask : BitVec 2) (conv : Bool) : ElemForm :=
  let w := sewOf s
  { legal := decide (StartOk s ∧ WideOk s ∧ Group s vd ∧ Group s a ∧ Group s b ∧ Group s c ∧ vd ≠ a ∧ vd ≠ b)
    claim := claimWide conv (mask.setWidth 3) (regs s a ++ regs s b ++ regs s c) (regs s vd)
    vd := vd, w := 2 * w, writes := activeAt s (mask.setWidth 3)
    val := fun j e => modOf (2 * w) ((el s c (2 * w) j e : Int) + ext (el s a w j e) * ext (el s b w j e)), flags := fun _ _ => 0 }

/-- A mask as a selector: `vmerge` writes every position of the sweep (R130). -/
def formMerge (s : State) (vd a b : BitVec 5) (mask : BitVec 3) (conv scalar : Bool) (ty : BitVec 2) : ElemForm :=
  let w := sewOf s
  { legal := decide (StartOk s ∧ WidthIs s ty ∧ Group s vd ∧ Group s a ∧ (scalar = false → Group s b))
    claim := claimPlain conv mask (regs s a ++ second s scalar b) (regs s vd) []
    vd := vd, w := w, writes := inSweep s true
    val := fun j e => if bitIn s.h.m mask j e then opnd s scalar b w j e else el s a w j e, flags := fun _ _ => 0 }

/-- Element k of row j of a group as a permute reads it: 0 from `vl` on (R136). -/
def elOr0 (s : State) (a : BitVec 5) (j k : Nat) : Nat := if k < s.h.shape.vl.toNat then el s a (sewOf s) j k else 0

/-- A permute (R136). -/
def formPerm (s : State) (ok : Bool) (vd a b : BitVec 5) (mask : BitVec 3) (conv two : Bool) (ty : BitVec 2)
    (keeps : Nat → Nat → Bool) (val : Nat → Nat → Nat) : ElemForm :=
  { legal := decide (StartOk s ∧ WidthIs s ty ∧ Group s vd ∧ Group s a ∧ (two = true → Group s b) ∧ ¬ Overlap s vd a
      ∧ (two = true → ¬ Overlap s vd b) ∧ ok)
    claim := claimPerm conv [mask.toNat] (regs s a ++ second s (!two) b) (regs s vd)
    vd := vd, w := sewOf s, writes := fun j e => activeAt s mask j e && !keeps j e, val := val, flags := fun _ _ => 0 }

/-- The format code of R121 and the format of SEW (R132, R137). -/
def codeFmt (ty : BitVec 2) : FpFmt := match ty with | 0 => .f64 | 1 => .f32 | 2 => .f16 | _ => .bf16

def sewFmt (s : State) (bf16 : Bool) : FpFmt :=
  if bf16 then .bf16 else if sewOf s = 64 then .f64 else if sewOf s = 32 then .f32 else .f16

/-- The second operand of a floating-point form (R115, R120). -/
def opndF (s : State) (scalar : Bool) (b : BitVec 5) (f : FpFmt) (j e : Nat) : Nat :=
  if scalar then fpBits f (s.x b) else el s b (fpWidth f) j e

/-- A floating-point form of layout R121. -/
def formFp (s : State) (vd a b : BitVec 5) (mask : BitVec 3) (conv two scalar : Bool) (ty : BitVec 2)
    (op : FpFmt → Nat → Nat → Nat × Flags) : ElemForm :=
  let f := codeFmt ty
  let vec := two && !scalar
  let r := fun j e => op f (el s a (fpWidth f) j e) (opndF s scalar b f j e)
  { legal := decide (StartOk s ∧ fpWidth f = sewOf s ∧ Group s vd ∧ Group s a ∧ (vec = true → Group s b))
    claim := claimPlain conv mask (regs s a ++ second s (!vec) b) (regs s vd) []
    vd := vd, w := fpWidth f, writes := activeAt s mask, val := fun j e => (r j e).1, flags := fun j e => (r j e).2 }

/-- A fused form (R132). -/
def formFma (s : State) (np nc : Bool) (vd a b c : BitVec 5) (mask : BitVec 2) (conv bf16 : Bool) : ElemForm :=
  let f := sewFmt s bf16
  let w := fpWidth f
  let r := fun j e => fFma f (rndOf s.h.user.frm) np nc (el s a w j e) (el s b w j e) (el s c w j e)
  { legal := decide (StartOk s ∧ (if bf16 then sewOf s = 16 else sewOf s ≠ 8) ∧ Group s vd ∧ Group s a ∧ Group s b ∧ Group s c)
    claim := claimPlain conv (mask.setWidth 3) (regs s a ++ regs s b ++ regs s c) (regs s vd) []
    vd := vd, w := w, writes := activeAt s (mask.setWidth 3), val := fun j e => (r j e).1, flags := fun j e => (r j e).2 }

/-- The formats of R134; code 7 is an integer of the other operand's width. -/
def cvtCode (c : BitVec 3) : Option FpFmt :=
  match c with
  | 0 => some .f64 | 1 => some .f32 | 2 => some .f16 | 3 => some .bf16 | 4 => some .e4m3 | 5 => some .e5m2 | 6 => some .e2m1 | _ => none

/-- The width of a code, beside the other operand's. -/
def cvtBits (c other : BitVec 3) : Nat := ((cvtCode c).orElse fun _ => cvtCode other).elim 64 fpWidth

/-- R134: one element of a conversion. A stochastic one draws by the key of R62. -/
def cvtOne (s : State) (alt : Bool) (src dst : BitVec 3) (vd : BitVec 5) (j e a : Nat) : Nat × Flags :=
  let m := rndOf s.h.user.frm
  match cvtCode src, cvtCode dst with
  | some f, some g =>
    let key : BitVec 64 := BitVec.ofNat 64 (2 ^ 63 + vd.toNat * 2 ^ 14 + j * 2 ^ 11 + e)
    let x : BitVec 32 := if fpWidth f = 64 then BitVec.ofNat 32 a ^^^ BitVec.ofNat 32 (a / 2 ^ 32) else BitVec.ofNat 32 a
    fConvert f g (decide (g = .e5m2)) m (if alt then some (srDraw s.h.user.srseed key x) else none) a
  | some f, none => fToInt f m (!alt) (fpWidth f) a
  | none, some g => fFromInt g m (if alt then (a : Int) else sgn (fpWidth g) a)
  | none, none => (a, 0)

/-- `vcvt` (R134). -/
def formCvt (s : State) (vd a : BitVec 5) (mask : BitVec 3) (conv alt : Bool) (src dst : BitVec 3) : ElemForm :=
  let ws := cvtBits src dst
  let wd := cvtBits dst src
  let r := fun j e => cvtOne s alt src dst vd j e (el s a ws j e)
  { legal := decide (StartOk s ∧ max ws wd = sewOf s ∧ Group s vd ∧ Group s a ∧ (ws ≠ wd → vd ≠ a))
    claim := if ws = wd then claimPlain conv mask (regs s a) (regs s vd) [] else claimWide conv mask (regs s a) (regs s vd)
    vd := vd, w := wd, writes := activeAt s mask, val := fun j e => (r j e).1, flags := fun j e => (r j e).2 }

/-- The narrow format of R135. -/
def narrowFmt (c : BitVec 2) : FpFmt := match c with | 0 => .e4m3 | 1 => .e5m2 | _ => .e2m1

/-- `vbsdq` (R68, R135). -/
def formDq (s : State) (vd a c : BitVec 5) (mask : BitVec 2) (conv : Bool) (fmt : BitVec 2) : ElemForm :=
  let f := narrowFmt fmt
  let r := fun j e => fDeliver .f32 false (rndOf s.h.user.frm) none
    (fScale (BitVec.ofNat 8 (el s c 8 j (e / 32))) (fpDecode f (el s a (fpWidth f) j e)))
  { legal := decide (StartOk s ∧ sewOf s = 32 ∧ Group s vd ∧ Group s a ∧ Group s c ∧ vd ≠ a ∧ c ≠ vd ∧ c ≠ a)
    claim := claimWide conv (mask.setWidth 3) (regs s a ++ regs s c) (regs s vd)
    vd := vd, w := 32, writes := activeAt s (mask.setWidth 3), val := fun j e => (r j e).1, flags := fun j e => (r j e).2 }

/-- The vector instructions that write elements of one group, each at its own positions (R125 to R136). -/
def elemForm (i : Instr) (s : State) : Option ElemForm :=
  let w := sewOf s
  let m := rndOf s.h.user.frm
  let x := fun (r : BitVec 5) => (s.x r).toNat
  match i with
  | .vadd vd a b k c sc t => some (formInt i s vd a b k c sc t)
  | .vsub vd a b k c sc t => some (formInt i s vd a b k c sc t)
  | .vrsub vd a b k c sc t => some (formInt i s vd a b k c sc t)
  | .vmin vd a b k c sc t => some (formInt i s vd a b k c sc t)
  | .vminz vd a b k c sc t => some (formInt i s vd a b k c sc t)
  | .vmax vd a b k c sc t => some (formInt i s vd a b k c sc t)
  | .vmaxz vd a b k c sc t => some (formInt i s vd a b k c sc t)
  | .vsadd vd a b k c sc t => some (formInt i s vd a b k c sc t)
  | .vsaddz vd a b k c sc t => some (formInt i s vd a b k c sc t)
  | .vssub vd a b k c sc t => some (formInt i s vd a b k c sc t)
  | .vssubz vd a b k c sc t => some (formInt i s vd a b k c sc t)
  | .vmul vd a b k c sc t => some (formInt i s vd a b k c sc t)
  | .vmulh vd a b k c sc t => some (formInt i s vd a b k c sc t)
  | .vmulhz vd a b k c sc t => some (formInt i s vd a b k c sc t)
  | .vdiv vd a b k c sc t => some (formInt i s vd a b k c sc t)
  | .vdivz vd a b k c sc t => some (formInt i s vd a b k c sc t)
  | .vrem vd a b k c sc t => some (formInt i s vd a b k c sc t)
  | .vremz vd a b k c sc t => some (formInt i s vd a b k c sc t)
  | .vand vd a b k c sc t => some (formInt i s vd a b k c sc t)
  | .vor vd a b k c sc t => some (formInt i s vd a b k c sc t)
  | .vxor vd a b k c sc t => some (formInt i s vd a b k c sc t)
  | .vandn vd a b k c sc t => some (formInt i s vd a b k c sc t)
  | .vsll vd a b k c sc t => some (formInt i s vd a b k c sc t)
  | .vsrl vd a b k c sc t => some (formInt i s vd a b k c sc t)
  | .vsra vd a b k c sc t => some (formInt i s vd a b k c sc t)
  | .vror vd a b k c sc t => some (formInt i s vd a b k c sc t)
  | .vwadd vd a b k c sc t => some (formWide i s vd a b k c true sc t)
  | .vwaddz vd a b k c sc t => some (formWide i s vd a b k c true sc t)
  | .vwsub vd a b k c sc t => some (formWide i s vd a b k c true sc t)
  | .vwsubz vd a b k c sc t => some (formWide i s vd a b k c true sc t)
  | .vwmul vd a b k c sc t => some (formWide i s vd a b k c true sc t)
  | .vwmulz vd a b k c sc t => some (formWide i s vd a b k c true sc t)
  | .vext vd a k c t => some (formWide i s vd a 0 k c false false t)
  | .vextz vd a k c t => some (formWide i s vd a 0 k c false false t)
  | .vnarrow vd a k c t => some (formNarrow i s vd a k c t)
  | .vnsat vd a k c t => some (formNarrow i s vd a k c t)
  | .vnsatz vd a k c t => some (formNarrow i s vd a k c t)
  | .vnclampz vd a k c t => some (formNarrow i s vd a k c t)
  | .vbcast vd a k c => some (formMove s vd k c none fun _ _ => x a)
  | .vmv vd a k c => some (formMove s vd k c (some a) fun j e => el s a w j e)
  | .vid vd k c => some (formMove s vd k c none fun _ e => e)
  | .vidr vd k c => some (formMove s vd k c none fun j _ => j)
  | .vidf vd k c => some (formMove s vd k c none fun j e => j * s.h.shape.vl.toNat + e)
  | .vmac vd a b d k c => some (formMac s true vd a b d k c fun p q r => p * q + r)
  | .vnmac vd a b d k c => some (formMac s true vd a b d k c fun p q r => r - p * q)
  | .vdot4 vd a b d k c => some (formMac s (decide (sewOf s = 32)) vd a b d k c fun p q r => r + dotBytes (sgn 8) p q)
  | .vdot4z vd a b d k c => some (formMac s (decide (sewOf s = 32)) vd a b d k c fun p q r => r + dotBytes (fun n => n) p q)
  | .vwmac vd a b d k c => some (formWmac s (sgn w) vd a b d k c)
  | .vwmacz vd a b d k c => some (formWmac s (fun n => n) vd a b d k c)
  | .vmerge vd a b k c sc t => some (formMerge s vd a b k c sc t)
  | .vslideup vd a b k c t =>
    some (formPerm s true vd a b k c false t (fun _ e => decide (e < x b)) fun j e => elOr0 s a j (e - x b))
  | .vslidedown vd a b k c t => some (formPerm s true vd a b k c false t (fun _ _ => false) fun j e => elOr0 s a j (e + x b))
  | .vrgather vd a b k c sc t =>
    some (formPerm s true vd a b k c (!sc) t (fun _ _ => false) fun j e => elOr0 s a j (if sc then x b else el s b w j e))
  | .vrowbc vd a b k c t =>
    some (formPerm s (decide (x b < s.h.shape.vrows.toNat)) vd a b k c false t (fun _ _ => false) fun _ e => el s a w (x b) e)
  | .vfadd vd a b k c sc t => some (formFp s vd a b k c true sc t fun f p q => fAdd f m p q)
  | .vfsub vd a b k c sc t => some (formFp s vd a b k c true sc t fun f p q => fSub f m p q)
  | .vfrsub vd a b k c sc t => some (formFp s vd a b k c true sc t fun f p q => fSub f m q p)
  | .vfmul vd a b k c sc t => some (formFp s vd a b k c true sc t fun f p q => fMul f m p q)
  | .vfdiv vd a b k c sc t => some (formFp s vd a b k c true sc t fun f p q => fDiv f m p q)
  | .vfrdiv vd a b k c sc t => some (formFp s vd a b k c true sc t fun f p q => fDiv f m q p)
  | .vfsqrt vd a k c t => some (formFp s vd a 0 k c false false t fun f p _ => fSqrt f m p)
  | .vfmin vd a b k c sc t => some (formFp s vd a b k c true sc t fun f p q => fMinMax f false p q)
  | .vfmax vd a b k c sc t => some (formFp s vd a b k c true sc t fun f p q => fMinMax f true p q)
  | .vfsgnj vd a b k c sc t => some (formFp s vd a b k c true sc t fun f p q =>
      (p % 2 ^ (fpWidth f - 1) + q / 2 ^ (fpWidth f - 1) % 2 * 2 ^ (fpWidth f - 1), 0))
  | .vfsgnjn vd a b k c sc t => some (formFp s vd a b k c true sc t fun f p q =>
      (p % 2 ^ (fpWidth f - 1) + (q / 2 ^ (fpWidth f - 1) + 1) % 2 * 2 ^ (fpWidth f - 1), 0))
  | .vfsgnjx vd a b k c sc t => some (formFp s vd a b k c true sc t fun f p q =>
      (p % 2 ^ (fpWidth f - 1) + (p / 2 ^ (fpWidth f - 1) + q / 2 ^ (fpWidth f - 1)) % 2 * 2 ^ (fpWidth f - 1), 0))
  | .vfclass vd a k c t => some (formFp s vd a 0 k c false false t fun f p _ => (fClass f p, 0))
  | .vfmac vd a b d k c bf => some (formFma s false false vd a b d k c bf)
  | .vfmsc vd a b d k c bf => some (formFma s false true vd a b d k c bf)
  | .vfnmac vd a b d k c bf => some (formFma s true false vd a b d k c bf)
  | .vfnmsc vd a b d k c bf => some (formFma s true true vd a b d k c bf)
  | .vcvt vd a k c alt src dst => some (formCvt s vd a k c alt src dst)
  | .vbsdq vd a d k c fmt => some (formDq s vd a d k c fmt)
  | _ => none

/-! ## Mask forms -/

/-- An instruction that writes bits of one mask register. -/
structure MaskForm where
  legal : Bool
  claim : Claim
  md : BitVec 3
  writes : Nat → Nat → Bool
  val : Nat → Nat → Bool
  flags : Nat → Nat → BitVec 5

/-- `m'` is `m` with `val` at the bits that `writes` accepts, and every other bit as before. -/
def MaskWritten (m m' : Vector Mask 8) (md : BitVec 3) (writes : Nat → Nat → Bool) (val : Nat → Nat → Bool) : Prop :=
  (∀ j i, writes j i = true → (m'.get md.toFin).getLsbD (1024 * j + i) = val j i)
    ∧ (∀ k : Nat, (∀ j i, writes j i = true → k ≠ 1024 * j + i) → (m'.get md.toFin).getLsbD k = (m.get md.toFin).getLsbD k)
    ∧ (∀ r, r ≠ md.toFin → m'.get r = m.get r)

/-- An integer or floating-point compare (R129, R133). -/
def formCmp (s : State) (ok : Bool) (md : BitVec 3) (a b : BitVec 5) (mask : BitVec 3) (conv scalar : Bool) (r : Nat → Nat → Bool × Flags) :
    MaskForm :=
  { legal := decide (StartOk s ∧ ok ∧ Group s a ∧ (scalar = false → Group s b) ∧ md ≠ 0)
    claim := claimPlain conv mask (regs s a ++ second s scalar b) [] [md.toNat]
    md := md, writes := activeAt s mask, val := fun j e => (r j e).1, flags := fun j e => (r j e).2 }

/-- A mask operation (R130). -/
def formLogic (s : State) (md : BitVec 3) (rm : List Nat) (conv : Bool) (val : Nat → Nat → Bool) : MaskForm :=
  { legal := decide (StartOk s ∧ md ≠ 0)
    claim := { conv := conv, units := 0, cross := false, rv := [], rm := rm, wv := [], wm := [md.toNat] }
    md := md, writes := inSweep s true, val := val, flags := fun _ _ => 0 }

/-- The instructions that write bits of one mask register (R129, R130, R133). -/
def maskForm (i : Instr) (s : State) : Option MaskForm :=
  let w := sewOf s
  let cmp := fun (md : BitVec 3) (a b : BitVec 5) (k : BitVec 3) (c sc : Bool) (t : BitVec 2) (p : Nat → Nat → Bool) =>
    some (formCmp s (decide (WidthIs s t)) md a b k c sc fun j e => (p (el s a w j e) (opnd s sc b w j e), 0))
  let fcmp := fun (o : FCmp) (md : BitVec 3) (a b : BitVec 5) (k : BitVec 3) (c sc : Bool) (t : BitVec 2) =>
    some (formCmp s (decide (fpWidth (codeFmt t) = w)) md a b k c sc fun j e =>
      fCompare (codeFmt t) o (el s a (fpWidth (codeFmt t)) j e) (opndF s sc b (codeFmt t) j e))
  let bit := fun (r : BitVec 3) j e => bitIn s.h.m r j e
  match i with
  | .vseq md a b k c sc t => cmp md a b k c sc t fun p q => p = q
  | .vsne md a b k c sc t => cmp md a b k c sc t fun p q => p ≠ q
  | .vslt md a b k c sc t => cmp md a b k c sc t fun p q => sgn w p < sgn w q
  | .vsltz md a b k c sc t => cmp md a b k c sc t fun p q => p < q
  | .vsle md a b k c sc t => cmp md a b k c sc t fun p q => sgn w p ≤ sgn w q
  | .vslez md a b k c sc t => cmp md a b k c sc t fun p q => p ≤ q
  | .vsgt md a b k c sc t => cmp md a b k c sc t fun p q => sgn w p > sgn w q
  | .vsgtz md a b k c sc t => cmp md a b k c sc t fun p q => p > q
  | .vfeq md a b k c sc t => fcmp .eq md a b k c sc t
  | .vfne md a b k c sc t => fcmp .ne md a b k c sc t
  | .vflt md a b k c sc t => fcmp .lt md a b k c sc t
  | .vfle md a b k c sc t => fcmp .le md a b k c sc t
  | .vfgt md a b k c sc t => fcmp .gt md a b k c sc t
  | .vfge md a b k c sc t => fcmp .ge md a b k c sc t
  | .mand md a b c => some (formLogic s md [a.toNat, b.toNat] c fun j e => bit a j e && bit b j e)
  | .mor md a b c => some (formLogic s md [a.toNat, b.toNat] c fun j e => bit a j e || bit b j e)
  | .mxor md a b c => some (formLogic s md [a.toNat, b.toNat] c fun j e => bit a j e != bit b j e)
  | .mandn md a b c => some (formLogic s md [a.toNat, b.toNat] c fun j e => bit a j e && !bit b j e)
  | .mnot md a c => some (formLogic s md [a.toNat] c fun j e => !bit a j e)
  | .mset md c => some (formLogic s md [] c fun _ _ => true)
  | .mclr md c => some (formLogic s md [] c fun _ _ => false)
  | _ => none

/-! ## Results in x registers and single elements -/

/-- The bits of a mask that a scan reads, in element order (R130, R138). -/
def onesIn (s : State) (bound : Bool) (r : BitVec 3) : List (Nat × Nat) :=
  (tileOf s).filter fun p => inSweep s bound p.1 p.2 && bitIn s.h.m r p.1 p.2

/-- The number of a position in the tile, or all ones. -/
def firstOf (s : State) (l : List (Nat × Nat)) : Word :=
  match l with
  | (j, i) :: _ => BitVec.ofNat 64 (j * s.h.shape.vl.toNat + i)
  | [] => BitVec.allOnes 64

/-- An integer reduction of the active elements of rows that `rows` accepts, from an initial value (R137). -/
def reduceInt (i : Instr) (s : State) (mask : BitVec 3) (a : BitVec 5) (init : Nat) (rows : Nat → Bool) : Nat :=
  let w := sewOf s
  let xs := ((tileOf s).filter fun p => rows p.1 && activeAt s mask p.1 p.2).map fun p => el s a w p.1 p.2
  match i with
  | .vredsum .. => (init + xs.sum) % 2 ^ w
  | .vredminz .. => xs.foldl min init
  | .vredmaxz .. => xs.foldl max init
  | .vredmin .. => xs.foldl (fun p q => if sgn w q < sgn w p then q else p) init
  | _ => xs.foldl (fun p q => if sgn w p < sgn w q then q else p) init

/-- The fields of an integer reduction. -/
def intRedForm (i : Instr) : Option (BitVec 5 × BitVec 5 × BitVec 5 × BitVec 3 × Bool × Bool × Bool) :=
  match i with
  | .vredsum vd a x k c tx pr => some (vd, a, x, k, c, tx, pr)
  | .vredmin vd a x k c tx pr => some (vd, a, x, k, c, tx, pr)
  | .vredminz vd a x k c tx pr => some (vd, a, x, k, c, tx, pr)
  | .vredmax vd a x k c tx pr => some (vd, a, x, k, c, tx, pr)
  | .vredmaxz vd a x k c tx pr => some (vd, a, x, k, c, tx, pr)
  | _ => none

/-- The result of an unsigned reduction is zero-extended (R137). -/
def redUnsigned (i : Instr) : Bool := match i with | .vredminz .. => true | .vredmaxz .. => true | _ => false

/-- A floating-point reduction's fields, BF16, and its kind: 0 ordered, 1 tree, 2 minimum, 3 maximum. -/
def fpRedForm (i : Instr) : Option (BitVec 5 × BitVec 5 × BitVec 5 × BitVec 3 × Bool × Bool × Bool × Bool × Nat) :=
  match i with
  | .vfredo vd a x k c => some (vd, a, x, k, c, false, false, false, 0)
  | .vfredoBf16 vd a x k c => some (vd, a, x, k, c, false, false, true, 0)
  | .vfredt vd a x k c tx pr => some (vd, a, x, k, c, tx, pr, false, 1)
  | .vfredtBf16 vd a x k c tx pr => some (vd, a, x, k, c, tx, pr, true, 1)
  | .vfredmin vd a x k c tx pr => some (vd, a, x, k, c, tx, pr, false, 2)
  | .vfredminBf16 vd a x k c tx pr => some (vd, a, x, k, c, tx, pr, true, 2)
  | .vfredmax vd a x k c tx pr => some (vd, a, x, k, c, tx, pr, false, 3)
  | .vfredmaxBf16 vd a x k c tx pr => some (vd, a, x, k, c, tx, pr, true, 3)
  | _ => none

/-- Values with the flags gathered on the way. -/
abbrev WithFlags := Nat × Flags

/-- An operation that gathers flags. -/
def gather (op : Nat → Nat → Nat × Flags) (p q : WithFlags) : WithFlags := ((op p.1 q.1).1, p.2 ||| q.2 ||| (op p.1 q.1).2)

/-- One level of the pairwise tree of R73: slots 2k and 2k + 1 meet; an absent slot passes the other on. -/
def pairUp (op : Nat → Nat → Nat × Flags) : List (Option WithFlags) → List (Option WithFlags)
  | a :: b :: r =>
    (match a, b with
      | some p, some q => some (gather op p q)
      | some p, none => some p
      | none, q => q) :: pairUp op r
  | l => l

/-- The root of the tree after n levels (R73). -/
def treeOf (op : Nat → Nat → Nat × Flags) : Nat → List (Option WithFlags) → Option WithFlags
  | 0, l => l.head?.join
  | n + 1, l => treeOf op n (pairUp op l)

/-- R72, R73, R137: a floating-point reduction of slots, absent where a position is not active. -/
def reduceFp (f : FpFmt) (m : Rnd) (kind : Nat) (init : Nat) (slots : List (Option Nat)) : WithFlags :=
  let l := slots.map (Option.map fun v => ((v, 0) : WithFlags))
  if kind = 1 then
    match treeOf (fAdd f m) 13 l with
    | none => (init, 0)
    | some r => gather (fAdd f m) (init, 0) r
  else
    let op := if kind = 0 then fAdd f m else fMinMax f (decide (kind = 3))
    (l.filterMap id).foldl (gather op) (init, 0)

end Sys2Proof.Machine.Spec
end

