-- ==== Sys2Proof/Safety/VecMem.lean ====
section
/-! DEFINITION. What the vector loads, stores, atomics and frames of majors 0x30 to 0x35 access: their positions, values, faults and places
(R151 to R167). -/

namespace Sys2Proof.Machine.Spec

/-! ## Accesses -/

/-- What one access of a vector memory instruction names, and the register group it moves. -/
structure VecAccess where
  acc : VAcc
  reg : BitVec 5
  /-- The operand checks hold (R24, R44, R154). -/
  legal : Bool
  claim : Claim
  /-- The accesses are performed in any order (R158). -/
  unord : Bool
  /-- The store goes to every replica (R160). -/
  multi : Bool
  /-- The positions accessed, in element order. -/
  at_ : List (Nat × Nat)
  /-- A store's value at a position. -/
  val : Nat → Nat → Nat

/-- The port that an access claims (R167). -/
def port (token : BitVec 3) : BitVec 5 := if token = 0 then 2 else 4

/-- Registers of the index group. -/
def indexRegs (s : State) (f : VForm) : List Nat := match f with | .indexed vi => regs s vi | _ => []

/-- The index operand names a group; the destination group of a load does not overlap it (R154). -/
def indexOk (s : State) (f : VForm) (vd : Option (BitVec 5)) : Bool :=
  match f with
  | .indexed vi => decide (Group s vi) && vd.all fun d => !decide (Overlap s d vi)
  | _ => true

/-- The positions of the tile that a predicate accepts, in element order. -/
def positions (s : State) (p : Nat → Nat → Bool) : List (Nat × Nat) := (tileOf s).filter fun q => p q.1 q.2

/-- Unit stride or strided addressing (R151, R152). -/
def stride (s : State) (idx : BitVec 5) : VForm := if idx = 0 then .unit else .strided (s.x idx).toInt

/-- A load of R156. -/
def formLoad (s : State) (f : VForm) (vd base : BitVec 5) (token : BitVec 3) (col conv : Bool) (mask : BitVec 3) (width : BitVec 2) :
    VecAccess :=
  let w := 2 ^ width.toNat
  { acc := { form := f, base := s.x base, token := token, col := col, w := w, perm := 0 }, reg := vd
    legal := decide (StartOk s ∧ Group s vd ∧ 8 * w = sewOf s) && indexOk s f (some vd)
    claim := { conv := conv, units := port token, cross := false, rv := indexRegs s f, rm := [mask.toNat], wv := regs s vd, wm := [] }
    unord := false, multi := false, at_ := positions s (activeAt s mask), val := fun _ _ => 0 }

/-- A store of R157 or R160. -/
def formStore (s : State) (f : VForm) (vs base : BitVec 5) (token : BitVec 3) (col conv : Bool) (mask : BitVec 3) (width : BitVec 2)
    (unord multi : Bool) : VecAccess :=
  let w := 2 ^ width.toNat
  { acc := { form := f, base := s.x base, token := token, col := col, w := w, perm := 1 }, reg := vs
    legal := decide (StartOk s ∧ Group s vs ∧ 8 * w = sewOf s) && indexOk s f none
    claim := { conv := conv, units := port token, cross := false, rv := regs s vs ++ indexRegs s f, rm := [mask.toNat], wv := [], wm := [] }
    unord := unord && !s.h.trap.status.mmstrong, multi := multi, at_ := positions s (activeAt s mask), val := fun j e => el s vs (8 * w) j e }

/-- A vector frame (R166): unit stride at SEW, unmasked, every position from `vstart`. -/
def formFrame (s : State) (store : Bool) (v base : BitVec 5) (token : BitVec 3) (conv : Bool) : VecAccess :=
  let w := sewOf s / 8
  { acc := { form := .unit, base := s.x base, token := token, col := false, w := w, perm := if store then 1 else 0 }, reg := v
    legal := decide (StartOk s ∧ Group s v)
    claim := { conv := conv, units := port token, cross := false, rv := if store then regs s v else [], rm := []
               wv := if store then [] else regs s v, wm := [] }
    unord := false, multi := false, at_ := positions s (inSweep s false), val := fun j e => el s v (8 * w) j e }

/-- A mask frame (R166): 128 words of 8 bytes; bit (j, i) of the mask is bit i mod 8 of byte 128j + i div 8. -/
def formMaskFrame (s : State) (store : Bool) (n base : BitVec 5) (token : BitVec 3) (conv : Bool) : VecAccess :=
  { acc := { form := .strided 0, base := s.x base, token := token, col := false, w := 8, perm := if store then 1 else 0 }, reg := n
    legal := store || decide (n ≠ 0)
    claim := { conv := conv, units := port token, cross := false, rv := [], rm := if store then [n.toNat] else []
               wv := [], wm := if store then [] else [n.toNat] }
    unord := false, multi := false, at_ := (List.range 128).map fun k => (0, k)
    val := fun _ k => ((List.range 64).map fun b =>
      if bitIn s.h.m (n.setWidth 3) ((64 * k + b) / 1024) ((64 * k + b) % 1024) then 2 ^ b else 0).sum }

/-- The vector loads and fills of a register group. -/
def vecLoadForm (i : Instr) (s : State) : Option VecAccess :=
  match i with
  | .vld vd base idx token col conv mask width => some (formLoad s (stride s idx) vd base token col conv mask width)
  | .vldIndexed vd base idx token col conv mask width => some (formLoad s (.indexed idx) vd base token col conv mask width)
  | .vfill vd base kind token conv => if kind = 0 then some (formFrame s false vd base token conv) else none
  | _ => none

/-- The vector stores and spills. -/
def vecStoreForm (i : Instr) (s : State) : Option VecAccess :=
  match i with
  | .vst vs base idx token col conv mask u width => some (formStore s (stride s idx) vs base token col conv mask width u false)
  | .vstIndexed vs base idx token col conv mask u width => some (formStore s (.indexed idx) vs base token col conv mask width u false)
  | .vstm vs base idx token conv mask u width => some (formStore s (stride s idx) vs base token false conv mask width u true)
  | .vstmIndexed vs base idx token conv mask u width => some (formStore s (.indexed idx) vs base token false conv mask width u true)
  | .vspill v base kind token conv =>
    some (if kind = 0 then formFrame s true v base token conv else formMaskFrame s true v base token conv)
  | _ => none

/-! ## Faults and places -/

/-- The first check of R155 that fails at a position: its cause and `tval`. -/
def accessFault (s : State) (a : VAcc) (j i : Nat) : Option (BitVec 9 × Word) :=
  let e := a.addr s j i
  let v : Word := BitVec.ofInt 64 e
  if a.token = 0 then
    if e < 0 ∨ 0x40000 < e + a.w then some (0x0E2, v) else if e % a.w ≠ 0 then some (0x0E0, v) else none
  else
    match s.h.pins.get a.token.toFin with
    | none => some (0x080, a.token.setWidth 64)
    | some p =>
      if v.toNat / 2 ^ 55 ≠ 0 ∧ v.toNat / 2 ^ 55 ≠ 511 then some (0x0E1, v)
      else if e % a.w ≠ 0 then some (0x0E0, v)
      else if e < p.base.toNat ∨ (p.base.toNat + p.len : Nat) < e + a.w then some (0x081, v)
      else if p.perms.getLsbD a.perm = false then some (0x082, v)
      else if a.perm = 2 ∧ (a.loc s j i).isHost = true then some (0x0E3, v)
      else none

/-- No access faults. -/
def NoFault (s : State) (f : VecAccess) : Prop := ∀ p ∈ f.at_, accessFault s f.acc p.1 p.2 = none

/-- What an element reads: the core's own scratchpad through k0, else what its harts see at the place (R143, R156). -/
def elementAt (s : State) (a : VAcc) (j i : Nat) : Nat :=
  if a.token = 0 then leOf (readByte s.c.sp) (a.addr s j i).toNat a.w
  else
    match a.loc s j i with
    | .dev pa => leOf (sees s s.agent) pa a.w
    | .host h => leOf (seesHost s s.agent) h a.w
    | .own o => leOf (readByte s.c.sp) o a.w
    | _ => 0

/-- No word with an uncorrectable error is read (R145, R250). -/
def elementClean (s : State) (a : VAcc) (j i : Nat) : Prop :=
  if a.token = 0 then ∀ x ∈ s.c.spBad, ¬ ((a.addr s j i).toNat / 4 ≤ x ∧ x ≤ ((a.addr s j i).toNat + a.w - 1) / 4)
  else
    match a.loc s j i with
    | .dev pa => poisonAt s pa a.w = none
    | .host h => hostRefuses s s.agent h false = false
    | _ => True

/-- Where a store element goes: on a replica page under `vstm` all four dies' replicas, else the place the core reaches (R157, R160). -/
def storePlaces (s : State) (f : VecAccess) : List (Loc × Nat) :=
  f.at_.flatMap fun q =>
    let e := (f.acc.addr s q.1 q.2).toNat
    match s.h.pins.get f.acc.token.toFin with
    | none => []
    | some p =>
      (if f.multi && p.isReplica e then [0, 1, 2, 3] else [dieOfAgent s.agent]).map fun d => (p.locate s.agent d e, f.val q.1 q.2)

/-- A byte of device memory after the elements have been written in order. -/
def devAfter (n : Nat) (l : List (Loc × Nat)) (f : Nat → Byte) (a : Nat) : Byte :=
  l.foldl (fun b p => match p.1 with | .dev pa => if pa ≤ a ∧ a < pa + n then byteOf p.2 (a - pa) else b | _ => b) (f a)

/-- A byte of host memory after the elements have been written in order. -/
def hostAfter (n : Nat) (l : List (Loc × Nat)) (f : Nat → Byte) (a : Nat) : Byte :=
  l.foldl (fun b p => match p.1 with | .host h => if h ≤ a ∧ a < h + n then byteOf p.2 (a - h) else b | _ => b) (f a)

/-- A byte of the scratchpad after the elements have been written in order. -/
def spAfter (s : State) (f : VecAccess) (a : Nat) : Byte :=
  f.at_.foldl (fun b q =>
    let e := (f.acc.addr s q.1 q.2).toNat
    if e ≤ a ∧ a < e + f.acc.w then byteOf (f.val q.1 q.2) (a - e) else b) (readByte s.c.sp a)

/-- Two positions of an access share no byte. -/
def Disjoint (s : State) (f : VecAccess) : Prop :=
  ∀ p ∈ f.at_, ∀ q ∈ f.at_, p ≠ q →
    f.acc.addr s p.1 p.2 + f.acc.w ≤ f.acc.addr s q.1 q.2 ∨ f.acc.addr s q.1 q.2 + f.acc.w ≤ f.acc.addr s p.1 p.2

/-! ## What has changed -/

/-- The hart after a vector-queue instruction has completed, which left it `g` otherwise. -/
def vectorHart (s : State) (c : Claim) (g : Hart) : Hart :=
  Hart.doneAt { g with
    convoy := convoyBefore s c ++ [{ addr := s.h.pc, units := c.units, vregs := c.wv, mregs := c.wm }]
    fresh := false, shape := { g.shape with vstart := 0 } } s.checkerNext (s.h.pc + 4)

/-- Only the executing hart has changed, and stores on their way may have been performed: every byte the core's harts see is the same. -/
def Reads (s t : State) (h : Hart) : Prop :=
  t.h = h ∧ (∀ k, k ≠ s.cur → t.hartOf k = s.hartOf k)
    ∧ (∀ a, sees t s.agent a = sees s s.agent a ∧ seesHost t s.agent a = seesHost s s.agent a)
    ∧ (∀ k, (t.coreOf k).sp = (s.coreOf k).sp) ∧ HostAsIn s t
    ∧ t = { s with harts := t.harts, cores := t.cores, mem := t.mem, poison := t.poison, hostMem := t.hostMem, hostif := t.hostif }

/-! ## Atomics -/

/-- The operation of an atomic at one element: its address, the old value and the addend give the new value and its flags (R162). -/
def atomOp (i : Instr) (s : State) : Option (Nat → Nat → Nat → Nat × Flags) :=
  let m := rndOf s.h.user.frm
  let add := fun (w : Nat) => some fun (_ c b : Nat) => (((c + b) % 2 ^ w, 0) : Nat × Flags)
  let pick := fun (p : Int → Int → Bool) => some fun (_ c b : Nat) => ((if p (sgn 32 c) (sgn 32 b) then c else b, 0) : Nat × Flags)
  let half := fun (f : FpFmt) (sr : Bool) (va c b : Nat) =>
    if sr then fAddSr f (srDraw s.h.user.srseed (BitVec.ofNat 64 va) (BitVec.ofNat 32 b)) c b else fAdd f m c b
  let pair := fun (f : FpFmt) (sr : Bool) => some fun (va c b : Nat) =>
    let lo := half f sr va (c % 2 ^ 16) (b % 2 ^ 16)
    let hi := half f sr (va + 2) (c / 2 ^ 16) (b / 2 ^ 16)
    ((hi.1 * 2 ^ 16 + lo.1, hi.2 ||| lo.2) : Nat × Flags)
  match i with
  | .vamoaddW .. | .vamoaddWDup .. => add 32
  | .vamoaddD .. | .vamoaddDDup .. => add 64
  | .vamominW .. | .vamominWDup .. => pick fun p q => decide (p ≤ q)
  | .vamomaxW .. | .vamomaxWDup .. => pick fun p q => decide (q < p)
  | .vamoaddF32 .. | .vamoaddF32Dup .. => some fun _ c b => fAdd .f32 m c b
  | .vamoaddF16 _ _ _ _ sr _ _ | .vamoaddF16Dup _ _ _ _ sr _ _ => pair .f16 sr
  | .vamoaddBf16 _ _ _ _ sr _ _ | .vamoaddBf16Dup _ _ _ _ sr _ _ => pair .bf16 sr
  | _ => none

/-- The access of a scatter-add atomic, and whether repeated addresses are permitted (R162 to R165). -/
def atomAccess (i : Instr) (s : State) : Option (VecAccess × Bool) :=
  let form := fun (w : Nat) (vs base idx : BitVec 5) (token : BitVec 3) (conv : Bool) (mask : BitVec 3) (dup : Bool) =>
    some (({ acc := { form := .indexed idx, base := s.x base, token := token, col := false, w := w, perm := 2 }, reg := vs
             legal := decide (StartOk s ∧ Group s vs ∧ Group s idx ∧ 8 * w = sewOf s)
             claim := { conv := conv, units := 4, cross := false, rv := regs s vs ++ regs s idx, rm := [mask.toNat], wv := [], wm := [] }
             unord := false, multi := false, at_ := positions s (activeAt s mask), val := fun j e => el s vs (8 * w) j e } : VecAccess), dup)
  match i with
  | .vamoaddW a b x t c m => form 4 a b x t c m false
  | .vamoaddD a b x t c m => form 8 a b x t c m false
  | .vamominW a b x t c m => form 4 a b x t c m false
  | .vamomaxW a b x t c m => form 4 a b x t c m false
  | .vamoaddF32 a b x t c m => form 4 a b x t c m false
  | .vamoaddF16 a b x t _ c m => form 4 a b x t c m false
  | .vamoaddBf16 a b x t _ c m => form 4 a b x t c m false
  | .vamoaddWDup a b x t c m => form 4 a b x t c m true
  | .vamoaddDDup a b x t c m => form 8 a b x t c m true
  | .vamominWDup a b x t c m => form 4 a b x t c m true
  | .vamomaxWDup a b x t c m => form 4 a b x t c m true
  | .vamoaddF32Dup a b x t c m => form 4 a b x t c m true
  | .vamoaddF16Dup a b x t _ c m => form 4 a b x t c m true
  | .vamoaddBf16Dup a b x t _ c m => form 4 a b x t c m true
  | _ => none

/-- Device memory and the flags gathered, after the element operations at a list of positions, in order. -/
def atomAfter (s : State) (f : VecAccess) (op : Nat → Nat → Nat → Nat × Flags) (l : List (Nat × Nat)) (m : Nat → Byte) : (Nat → Byte) × Flags :=
  l.foldl (fun p q =>
    match f.acc.loc s q.1 q.2 with
    | .dev pa =>
      let r := op (f.acc.addr s q.1 q.2).toNat (leOf p.1 pa f.acc.w) (f.val q.1 q.2)
      (patched p.1 pa f.acc.w r.1, p.2 ||| r.2)
    | _ => p) (m, 0)

/-! ## Chunk-wait loads (R161) -/

/-- A chunk-wait load: its access over every position of the sweep, its chunk mask, and the chunk of a position. -/
def chunkForm (i : Instr) (s : State) : Option (VecAccess × BitVec 3 × (Nat → Nat → Nat)) :=
  let form := fun (f : VForm) (vd base : BitVec 5) (token : BitVec 3) (col conv : Bool) (mc : BitVec 3) (width : BitVec 2) =>
    let a := formLoad s f vd base token col conv 0 width
    { a with claim := { conv := conv, units := port token, cross := true, rv := [], rm := [mc.toNat], wv := regs s vd, wm := [] }
             at_ := positions s (inSweep s true) }
  match i with
  | .vldCw vd base idx token col conv mc width =>
    some (form .unit vd base token col conv mc width, mc,
      fun j e => (s.x idx).toNat + (j * s.h.shape.vl.toNat + e) * 2 ^ width.toNat / 512)
  | .vldIndexedCw vd base idx token col conv mc width =>
    some (form (.indexed idx) vd base token col conv mc width, mc, fun j e => el s idx (sewOf s) j e / 512)
  | _ => none

/-- The chunk's bit of the chunk mask is 1. -/
def arrived (s : State) (mc : BitVec 3) (n : Nat) : Bool := bitIn s.h.m mc (n / 1024) (n % 1024)

end Sys2Proof.Machine.Spec
end

