-- ==== Sys2Proof/Safety/Units.lean ====
section
/-! DEFINITION. Message, Sluice, Weir and task instructions as statements name them (R184 to R211). -/

namespace Sys2Proof.Machine.Spec

/-! ## Coordinates and descriptors (R184, R185) -/

/-- A coordinate: column below 80, row below 50, any package, every other bit 0. -/
def coordValid (v : Word) : Prop :=
  v.toNat % 2 ^ 7 < 80 ∧ v.toNat / 2 ^ 8 % 2 ^ 6 < 50 ∧ v.toNat / 2 ^ 7 % 2 = 0 ∧ v.toNat / 2 ^ 14 % 2 ^ 8 = 0 ∧ v.toNat < 2 ^ 32

/-- The fields of a message descriptor. -/
def dOffset (d : Word) : Nat := d.toNat % 2 ^ 18
def dChan (d : Word) : Nat := d.toNat / 2 ^ 18 % 64
def dTag (d : Word) : Nat := d.toNat / 2 ^ 24 % 32
def dWake (d : Word) : Bool := decide (d.toNat / 2 ^ 29 % 2 = 1)
def dLen (d : Word) : Nat := d.toNat / 2 ^ 32 % 2 ^ 13
def descValid (d : Word) : Prop := d.toNat / 2 ^ 30 % 4 = 0 ∧ d.toNat < 2 ^ 45

/-- The message of a sending instruction: the sender's coordinate and its context's tag, the receiver with this package's identifier in place of
0x3FF, the descriptor and the payload (R184, R189, R313). -/
def messageOf (s : State) (dst : BitVec 32) (desc : Word) (kind : BitVec 3) (width : BitVec 2) (data : List Byte) : Message :=
  { src := s.c.coreid
    dst := if dst.toNat / 2 ^ 22 = 0x3FF then BitVec.ofNat 32 (dst.toNat % 2 ^ 22 + s.hostif.regs.pkgid.toNat * 2 ^ 22) else dst
    desc := desc, kind := kind, width := width, rownib := 0, data := data
    ctag := match ctxOfAgent s s.agent with | some (_, c) => c.tag | none => 0
    hart := s.cur, serial := s.h.serial, req := none, copy := 0, launch := s.c.part.launch }

/-- A sending instruction with its register operands. -/
structure SendForm where
  dst : Word
  desc : Word
  /-- The descriptor's length field, and for `mwake` its wake bit, hold what the form asks for. -/
  lenOk : Prop
  /-- The checks of ranges and alignment, in order: cause and `tval` of the first that fails. -/
  range : Option (BitVec 9 × Word)
  kind : BitVec 3
  width : BitVec 2
  data : List Byte
  /-- Scratchpad bytes read. -/
  reads : Nat × Nat

def sendForm (i : Instr) (s : State) : Option SendForm :=
  let bytes := fun (o n : Nat) => (List.range n).map fun k => readByte s.c.sp (o + k)
  let w := fun (n : Nat) => (BitVec.ofNat 64 n : Word)
  match i with
  | .msend xo xc xm =>
    let o := (s.x xo).toNat
    let d := s.x xm
    let n := dLen d
    some ⟨s.x xc, d, 4 ≤ n ∧ n ≤ 4096 ∧ n % 4 = 0,
      if o % 4 ≠ 0 then some (0x0E0, w o) else if dOffset d % 4 ≠ 0 then some (0x0E0, w (dOffset d))
      else if 0x40000 < o + n then some (0x0E2, w o) else if 0x40000 < dOffset d + n then some (0x0E2, w (dOffset d)) else none,
      0, 0, bytes o n, (o, n)⟩
  | .mput xv xc xm width =>
    let d := s.x xm
    let n := 2 ^ width.toNat
    some ⟨s.x xc, d, dLen d = 0,
      if dOffset d % n ≠ 0 then some (0x0E0, w (dOffset d)) else if 0x40000 < dOffset d + n then some (0x0E2, w (dOffset d)) else none,
      1, width, (List.range n).map (byteOf (s.x xv).toNat), (0, 0)⟩
  | .mwake xc xm => some ⟨s.x xc, s.x xm, dLen (s.x xm) = 0 ∧ dWake (s.x xm) = true, none, 2, 0, [], (0, 0)⟩
  | _ => none

/-! ## Sluice requests (R195 to R198) -/

/-- The fields of a copy descriptor (R196). -/
def cSpoff (d : Word) : Nat := d.toNat % 2 ^ 18
def cToken (d : Word) : Nat := d.toNat / 2 ^ 28 % 8
def cLen (d : Word) : Nat := d.toNat / 2 ^ 32 % 2 ^ 19
def cChunk (d : Word) : Nat := d.toNat / 2 ^ 51

/-- The rows of a request: the global address of each row's start and its scratchpad offset for byte b (R197). -/
structure SluiceForm where
  rd : BitVec 5
  ch : BitVec 2
  xp : BitVec 5
  /-- Registers of the run. -/
  run : Nat
  mask : BitVec 3
  form : SForm
  base : Word

def sluiceForm (i : Instr) (s : State) : Option SluiceForm :=
  match i with
  | .scopyin rd xa xp m ch => some ⟨rd, ch, xp, 1, m, .copyIn, s.x xa⟩
  | .scopyout rd xa xp m ch => some ⟨rd, ch, xp, 1, m, .copyOut, s.x xa⟩
  | .scopy2inRow rd xa xp m ch => some ⟨rd, ch, xp, 2, m, .in2Row, s.x xa⟩
  | .scopy2inCol rd xa xp m ch => some ⟨rd, ch, xp, 2, m, .in2Col, s.x xa⟩
  | .scopy2outRow rd xa xp m ch => some ⟨rd, ch, xp, 2, m, .out2Row, s.x xa⟩
  | .scopy2outCol rd xa xp m ch => some ⟨rd, ch, xp, 2, m, .out2Col, s.x xa⟩
  | .scopyr rd xc xp ch => some ⟨rd, ch, xp, 2, 0, .toCore, s.x xc⟩
  | _ => none

/-- What a request that has been issued holds of its operands (R196, R197). -/
def RequestOf (s : State) (r : SluiceReq) (form : SForm) (mask : BitVec 3) (base d e : Word) : Prop :=
  r.form = form ∧ r.mask = mask ∧ r.spoff = cSpoff d ∧ r.len = cLen d ∧ r.token.toNat = cToken d ∧ r.chunk0 = cChunk d
    ∧ r.hart = s.hartNo ∧ r.serial = s.h.serial ∧ r.priv = s.priv
    ∧ (form ≠ .gatherRow ∧ form ≠ .gatherCol → r.base = base)
    ∧ (form = .in2Row ∨ form = .in2Col ∨ form = .out2Row ∨ form = .out2Col →
        r.rows = e.toNat % 1024 ∧ r.pitch = BitVec.ofInt 64 (((e.toNat / 2 ^ 32 : Nat) : Int).bmod (2 ^ 32)))
    ∧ r.pin = (if r.token = 0 then none else s.h.pins.get r.token.toFin)

/-- The channel's request has been accepted: it takes the channel's next identifier, which rd receives, and stands last in the channel unless it has no
chunk (R198). The core's stores have been performed (R301), which changes no byte of device memory that the core sees; nothing else has changed. -/
def Issued (s t : State) (rd : BitVec 5) (ch : BitVec 2) (r : SluiceReq) (h : Hart) : Prop :=
  let c := s.c.sluice.chans.get ch.toFin
  t.h = { h with x := h.xWith rd (c.next.setWidth 64) }
    ∧ (∀ k, k ≠ s.cur → t.hartOf k = s.hartOf k)
    ∧ (∀ k, k ≠ s.agent → t.coreOf k = (flushAll s s.agent).coreOf k)
    ∧ t = { flushAll s s.agent with harts := t.harts, cores := t.cores }
    ∧ (s.mem.wf = true → ∀ a, Spec.sees t s.agent a = Spec.sees s s.agent a)
    ∧ t.c.pstores = [] ∧ t.c.sluice.faults = s.c.sluice.faults
    ∧ (∀ k, k ≠ ch.toFin → t.c.sluice.chans.get k = s.c.sluice.chans.get k)
    ∧ t.c.sluice.chans.get ch.toFin =
        { next := c.next + 1, reqs := if r.chunks = [] then c.reqs else c.reqs ++ [{ r with id := c.next }] }
    ∧ t.c = { (flushAll s s.agent).c with sluice := t.c.sluice } ∧ (∀ k, (t.coreOf k).sp = (s.coreOf k).sp)

/-! ## Weir (R203, R204) -/

/-- A chunk of a Sluice request of which a record waits: for room in the fault queue, or for a page request (R201, R393). -/
def waits : ChunkState → Bool
  | .blocked _ _ _ => true
  | .asking _ _ _ => true
  | _ => false

/-- A chunk that stands still until it is issued again. -/
def stands (x : ChunkState) : Bool := x == .faulted || waits x

/-- Every member core has arrived on a channel, with no earlier completion's broadcast on its way to it, and some core has; and no gang that holds
the channel has cores that have started beside cores that have not. -/
def weirAll (s : State) (c : BitVec 4) : Prop :=
  (∀ e ∈ s.cores, e.2.weir.wmember.getLsbD c.toNat = true →
      e.2.weir.arrived.getLsbD c.toNat = true ∧ e.2.weir.owed.get c.toFin = 0)
    ∧ (∃ e ∈ s.cores, e.2.weir.arrived.getLsbD c.toNat = true ∧ e.2.weir.owed.get c.toFin = 0)
    ∧ ∀ l ∈ s.launches, l.kind = .gang → l.wmember.getLsbD c.toNat = true →
        (s.ctx l.ctx).st = .saved ∨ (s.ctx l.ctx).st = .restoring ∨ l.toStart = [] ∨ ∀ v ∈ l.cores, v ∈ l.toStart

end Sys2Proof.Machine.Spec
end

