-- ==== Sys2Proof/Safety/Events.lean ====
section
/-! DEFINITION. Events as statements name them: what it means that only one hart, core, die, basin, context or queue has changed, and the
conditions under which the device's own events are due. -/

namespace Sys2Proof.Machine.Spec

/-! ## One part of the machine has changed, and nothing else -/

def HartBecomes (s t : State) (k : Nat) (h : Hart) : Prop :=
  t.hartOf k = h ∧ (∀ j, j ≠ k → t.hartOf j = s.hartOf j) ∧ t = { s with harts := t.harts }

def CoreBecomes (s t : State) (k : Nat) (c : Core) : Prop :=
  t.coreOf k = c ∧ (∀ j, j ≠ k → t.coreOf j = s.coreOf j) ∧ t = { s with cores := t.cores }

/-- `d` is one of the four dies. -/
def DieBecomes (s t : State) (d : Nat) (v : Die) : Prop :=
  t.die d = v ∧ (∀ j, j < 4 → j ≠ d → t.die j = s.die j) ∧ t = { s with dies := t.dies }

/-- The dies other than `d` stand as they were. -/
def OtherDies (s t : State) (d : Nat) : Prop := ∀ e, e < 4 → e ≠ d → t.die e = s.die e

def BasinBecomes (s t : State) (b : Nat) (v : Basin) : Prop :=
  t.basin b = v ∧ (∀ j, j ≠ b → t.basin j = s.basin j) ∧ t = { s with basins := t.basins }

def CtxBecomes (s t : State) (n : Nat) (v : Ctx) : Prop :=
  t.ctx n = v ∧ (∀ j, j ≠ n → t.ctx j = s.ctx j) ∧ t = { s with ctxs := t.ctxs }

def QueueBecomes (s t : State) (n : Nat) (v : Queue) : Prop :=
  t.queue n = v ∧ (∀ j, j ≠ n → t.queue j = s.queue j) ∧ t = { s with queues := t.queues }

/-- Only the host side of the package has changed. -/
def HostBecomes (s t : State) (v : HostIf) : Prop := t = { s with hostif := v }

/-! ## Harts and tasks (R260, R263, R273) -/

/-- The hart runs a task. -/
def onTask (h : Hart) : Prop := ∃ ch, h.run = .task ch

/-- A channel may start (R263). -/
def eligible (t : TaskEntry) : Prop :=
  t.decl = true ∧ t.enable = true ∧ t.ready = true ∧ t.pending = true ∧ t.hold = false ∧ t.preempt = false ∧ t.siphon = false ∧ t.busy = false

/-- `ch` is the channel that R263 starts: eligible, none eligible at a higher priority, and among those of its priority the first above the
pointer or, where none lies above it, the first. -/
def Chosen (c : Core) (ch : Nat) : Prop :=
  let t := c.task ch
  let p := (c.rr.get t.priority.toFin).toNat
  ch < 64 ∧ eligible t ∧ (∀ n, n < 64 → eligible (c.task n) → (c.task n).priority.toNat ≤ t.priority.toNat)
    ∧ (∀ n, n < 64 → eligible (c.task n) → (c.task n).priority = t.priority →
        if p < ch then (p < n → ch ≤ n) else (n ≤ p ∧ ch ≤ n))

/-- A table lists each key once, in rising order. -/
def Rising {α : Type} (m : SMap α) : Prop := m.Pairwise fun a b => a.1 < b.1

/-- The start values of a task's scalar registers (R264). -/
def startX (ch : Nat) (t : TaskEntry) (gangid : BitVec 32) (i : Nat) : Nat :=
  if i = 1 then ch else if i = 2 then t.s2.toNat else if i = 3 then t.s3.toNat else if i = 4 then t.s4.toNat else if i = 5 then t.s5.toNat
  else if i = 6 then gangid.toNat else 0

/-- The core's part of its gang is quiescent (R273, R426). -/
def Quiescent (s : State) (site : Nat) : Prop :=
  let c := s.coreOf site
  (∀ j, j < 8 → ¬ onTask (s.hartOf (8 * site + j)))
    ∧ (∀ e ∈ c.tasks, ¬ eligible e.2 ∧ ¬ (e.2.pending = true ∧ e.2.enable = true ∧ e.2.preempt = false ∧ e.2.siphon = false))
    ∧ (∀ n : Fin 4, (c.sluice.chans.get n).reqs = [])
    ∧ (∀ m, (s.die (dieOfCoord c.coreid)).move = some m → m.coord ≠ c.coreid)

/-! ## Arriving messages (R190, R192, R207, R363) -/

/-- The mailbox `m'` is `m` with one more message counted under `tag` (R192). -/
def Counted (m m' : Mailbox) (tag : Nat) : Prop :=
  m'.fifos = m.fifos ∧ m'.losses = m.losses
    ∧ ∀ n : Fin 32, if n.val = tag
        then (if (m.counters.get n).toNat = 2 ^ 32 - 1 then m'.counters.get n = m.counters.get n ∧ m'.overflow.getLsbD n.val = true
              else (m'.counters.get n).toNat = (m.counters.get n).toNat + 1 ∧ m'.overflow.getLsbD n.val = m.overflow.getLsbD n.val)
        else m'.counters.get n = m.counters.get n ∧ m'.overflow.getLsbD n.val = m.overflow.getLsbD n.val

/-- Channel `ch` of core `c` has been posted with a start record, unless it was pending already (R207). -/
def Posted (c c' : Core) (ch : Nat) (s2 : BitVec 32) (s3 s4 s5 : Nat) : Prop :=
  c'.task ch = (if (c.task ch).pending = true then c.task ch
      else { c.task ch with pending := true, s2 := s2, s3 := BitVec.ofNat 5 s3, s4 := BitVec.ofNat 32 s4, s5 := BitVec.ofNat 32 s5 })
    ∧ ∀ n, n ≠ ch → c'.task n = c.task n

/-- The bytes of `c'` are those of `c` but for `data` at `o`. -/
def Written (c c' : Core) (o : Nat) (data : List Byte) : Prop :=
  ∀ a, readByte c'.sp a = if o ≤ a ∧ a < o + data.length then data.getD (a - o) 0 else readByte c.sp a

/-- The core `c` has become `c'` by applying a message of kind 0, 1 or 2 (R190). -/
def Applied (c c' : Core) (m : Message) : Prop :=
  Written c c' (dOffset m.desc) (if m.kind = 2 then [] else m.data)
    ∧ Counted c.mail c'.mail (dTag m.desc)
    ∧ (dWake m.desc = true → Posted c c' (dChan m.desc) m.src (dTag m.desc) (dOffset m.desc) (if m.kind = 2 then 0 else m.data.length))
    ∧ (dWake m.desc = false → c'.tasks = c.tasks)
    ∧ c'.coreid = c.coreid ∧ c'.sluice = c.sluice ∧ c'.weir = c.weir ∧ c'.part = c.part ∧ c'.caches = c.caches

/-- The message is taken at its receiver: an Active or Saving context of its tag owns the row, the core's record is not written, no move
diverts its arrivals, and the core is placed at site `k` (R310, R363, R384, R427). -/
def TakenAt (s : State) (m : Message) (k : Nat) : Prop :=
  (∃ n cx, ctxFor s m = some (n, cx) ∧ cx.recorded m.dst = false)
    ∧ (∀ mv, (s.die (dieOfCoord m.dst)).move = some mv → mv.coord ≠ m.dst ∨ mv.st = .hold)
    ∧ (remapOf s m.dst).valid = true ∧ coordPkg m.dst = s.hostif.regs.pkgid.toNat
    ∧ k = 1024 * dieOfCoord m.dst + 32 * (remapOf s m.dst).prow.toNat + (remapOf s m.dst).pcol.toNat

/-! ## Spray (R317 to R325) -/

/-- The halves of a 64-bit counter register. -/
def lowHalf (w : Word) : Nat := w.toNat % 2 ^ 32
def highHalf (w : Word) : Nat := w.toNat / 2 ^ 32

/-- 16-bit field q of a counter register. -/
def quarter (w : Word) (q : Nat) : Nat := w.toNat / 2 ^ (16 * q) % 2 ^ 16

/-- The counters `c'` are `c` with field `i`, half `hi`, raised by one mod 2^32. -/
def HalfCounted (c c' : Vector Word 5) (i : Fin 5) (hi : Bool) : Prop :=
  (∀ j, j ≠ i → c'.get j = c.get j)
    ∧ (if hi then highHalf (c'.get i) = (highHalf (c.get i) + 1) % 2 ^ 32 ∧ lowHalf (c'.get i) = lowHalf (c.get i)
       else lowHalf (c'.get i) = (lowHalf (c.get i) + 1) % 2 ^ 32 ∧ highHalf (c'.get i) = highHalf (c.get i))

/-- The stream table entry of a source, and the sending side of a stream. -/
def rxOf (sp : Spray) (peer : Nat) : StreamRx := smGet StreamRx.reset peer sp.rx
def txOf (sp : Spray) (peer : Nat) : StreamTx := smGet StreamTx.reset peer sp.tx

/-- The message of a sequence is finished: below `ack`, or marked in the finished map (R317). -/
def finished (r : StreamRx) (seq : BitVec 32) : Prop :=
  2 ^ 31 ≤ (seq - r.ack).toNat ∨ (seq - r.ack).toNat < 32 ∧ r.finished.getLsbD (seq - r.ack).toNat = true

/-- A control fragment of `peer` reaches die `die`: one of a die of this package was in flight, and none of its copies is any longer; one from
another package is no part of the state before. -/
def ControlTaken (s u : State) (die peer type : Nat) (seq : BitVec 32) (data : List Byte) : Prop :=
  let f := ctlFragment peer (4 * s.hostif.regs.pkgid.toNat + die) type seq data
  let copy := fun g : Flight => decide (g.die = die) && decide (g.frag = f)
  (peer / 4 ≠ s.hostif.regs.pkgid.toNat ∧ u = s)
    ∨ (peer / 4 = s.hostif.regs.pkgid.toNat ∧ (∃ g ∈ s.ctls, copy g = true) ∧ u = { s with ctls := s.ctls.filter fun g => !copy g })

/-- Die `die` sends the control fragment `f`: two copies, each on another live path of the route to its receiver, as far as there are live ones; they
stay in the package or leave it, and nothing else changes (R320). -/
def ControlSent (s t : State) (die : Nat) (f : Fragment) : Prop :=
  match routeClass s die f.dst with
  | none => t = s
  | some cls => ∃ l : List Flight,
      l.length = min 2 (livePaths s die cls f.dst).length ∧ l.Nodup
      ∧ (∀ g ∈ l, g.frag = f ∧ ∃ r ∈ livePaths s die cls f.dst, g.die = r.die ∧ g.path = r.port)
      ∧ t = (if cls = 3 then { s with outFrags := s.outFrags ++ l } else { s with ctls := s.ctls ++ l })

end Sys2Proof.Machine.Spec
end

