-- ==== Sys2Proof/Safety/Graphics.lean ====
section
/-! DEFINITION. The graphics instructions as statements name them: binning, pixel interlocks, texture samples and ray queries (R212 to R229,
R336 to R345). -/

namespace Sys2Proof.Machine.Spec

/-! ## Binning (R217) -/

/-- The 64 bytes of a record: eight 64-bit elements of row j from element 8r. -/
def recordBytes (s : State) (vs : BitVec 5) (j r : Nat) : List Byte := (List.range 64).map (byteOf (elemOf s.h.v (vs.toNat + j) 512 r))

/-- The positions of the records that a `qpush` presents, in element order. -/
def records (s : State) (mask : BitVec 3) : List (Nat × Nat) :=
  (positions s (activeAt s mask)).filter fun p => decide (p.2 % 8 = 0 ∧ p.2 + 8 ≤ s.h.shape.vl.toNat)

/-- The claim of a `qpush`. -/
def pushClaim (s : State) (vs : BitVec 5) (mask : BitVec 3) (conv : Bool) : Claim :=
  { conv := conv, units := 4, cross := false, rv := regs s vs, rm := [mask.toNat], wv := [], wm := [] }

/-- A basin's queue takes records of the context that the executing core belongs to (R217, R328). -/
def queueTakes (s : State) (b : Nat) : Prop :=
  (s.basin b).gfx.st = .binning ∧ ∃ cx, ctxOfAgent s s.agent = some ((s.basin b).gfx.ctx, cx)

/-- From `s` to `t` the executing hart has become `h`, no other hart has changed, and the stores of its core to device memory may have been performed:
every byte that the core's harts see is the same; beyond that only basins have changed. -/
def FedBasins (s t : State) (h : Hart) : Prop :=
  t.h = h ∧ (∀ k, k ≠ s.cur → t.hartOf k = s.hartOf k) ∧ (∀ a, sees t s.agent a = sees s s.agent a)
    ∧ t = { s with harts := t.harts, basins := t.basins, cores := t.cores, mem := t.mem, poison := t.poison
                   hostif := { s.hostif with held := t.hostif.held } }

/-! ## Pixels (R219) -/

/-- The pixel an element names: x in its low half, y in its high half. -/
def pixel (s : State) (vs : BitVec 5) (p : Nat × Nat) : Nat × Nat := (el s vs 32 p.1 p.2 % 2 ^ 16, el s vs 32 p.1 p.2 / 2 ^ 16)

/-- The hart holds or asks for the pixel's lock in some basin. -/
def locked (s : State) (hart : Nat) (q : Nat × Nat) : Prop :=
  ∃ e ∈ s.basins, ∃ l ∈ e.2.gfx.locks, l.hart = hart ∧ l.x = q.1 ∧ l.y = q.2

/-! ## Reads through a pin (R156, R225, R229) -/

/-- Byte i of n bytes read through a pin from address a, 32-bit word by word. -/
def pinByte (s : State) (p : Pin) (a i : Nat) : Byte :=
  let w := max a ((a + i) / 4 * 4)
  match p.locate s.agent (dieOfAgent s.agent) w with
  | .dev pa => sees s s.agent (pa + (a + i - w))
  | .host h => seesHost s s.agent (h + (a + i - w))
  | .own o => readByte s.c.sp (o + (a + i - w))
  | _ => 0

def pinRead (s : State) (p : Pin) (a n : Nat) : List Byte := (List.range n).map (pinByte s p a)

/-- No byte that the pin reaches is poisoned or refused by the host. -/
def PinClean (s : State) (p : Pin) : Prop :=
  ∀ a n, n ≤ 4 →
    match p.locate s.agent (dieOfAgent s.agent) a with
    | .dev pa => poisonAt s pa n = none
    | .host h => hostRefuses s s.agent h false = false
    | _ => True

/-- A descriptor or header of 64 bytes at d can be read through the pin of a token (R225). -/
def HeaderOk (s : State) (token : BitVec 3) (d : Word) (p : Pin) : Prop :=
  token ≠ 0 ∧ s.h.pins.get token.toFin = some p ∧ (d.toNat / 2 ^ 55 = 0 ∨ d.toNat / 2 ^ 55 = 511) ∧ d.toNat % 64 = 0
    ∧ p.base.toNat ≤ d.toNat ∧ d.toNat + 64 ≤ p.base.toNat + p.len ∧ p.perms.getLsbD 0 = true

/-- [a, a + n) lies in the pin, where it is not empty. -/
def RangeOk (p : Pin) (a n : Nat) : Prop := n ≠ 0 → p.base.toNat ≤ a ∧ a + n ≤ p.base.toNat + p.len

/-! ## Texture samples (R225, R338 to R340) -/

/-- A texture instruction's fields, and whether it names a level. -/
def sampleForm (i : Instr) : Option (BitVec 5 × BitVec 5 × BitVec 5 × BitVec 3 × Bool × BitVec 3 × Bool) :=
  match i with
  | .tsample vd vs x m c t => some (vd, vs, x, m, c, t, false)
  | .tsampleLod vd vs x m c t => some (vd, vs, x, m, c, t, true)
  | _ => none

/-- The four channels of a texel at the indices of a tap, or of the border (R224, R339). -/
def texel (s : State) (p : Pin) (t : Texture) (layer : Nat) (k : Tap) : List Nat :=
  match mapIndex (t.addr % 4) (t.w k.level) k.x, mapIndex (t.addr / 4) (t.h k.level) k.y with
  | some x, some y => expandTexel t.format (pinRead s p (t.texelAt layer k.level x y) (texelBytes t.format))
  | _, _ => t.border

/-- Channel c of a sample of the coordinates, layer and level that four source registers hold (R225, R340). -/
def sampled (s : State) (p : Pin) (t : Texture) (lod : Bool) (src : Nat → Nat) (c : Nat) : Nat :=
  let layer := min (src 2) (t.layers - 1)
  let taps := t.taps (prepCoord (src 0)) (prepCoord (src 1)) (t.lambda (if lod then some (src 3) else none))
  mixChannel (taps.map fun k => (k.weight, fpDecode .f32 ((texel s p t layer k).getD c 0)))

/-! ## Ray queries (R229, R341 to R345) -/

def queryForm (i : Instr) : Option (BitVec 5 × BitVec 5 × BitVec 5 × BitVec 3 × Bool × BitVec 3) :=
  match i with
  | .rquery vd vs x m c t => some (vd, vs, x, m, c, t)
  | .rqueryAny vd vs x m c t => some (vd, vs, x, m, c, t)
  | _ => none

/-- The eight values are those of a degenerate ray (R341). -/
def degenerate (v : Nat → Nat) : Prop :=
  (∃ k, k < 8 ∧ isNan (fpDecode .f32 (v k)) = true)
    ∨ (∃ k, k < 6 ∧ (fpDecode .f32 (v k)).rat = none)
    ∨ (∀ k, 3 ≤ k → k < 6 → (fpDecode .f32 (v k)).rat = some 0)
    ∨ (f32Ext (v 6)).le (f32Ext (v 7)) = false

end Sys2Proof.Machine.Spec
end

