-- ==== Sys2Proof/Safety/Matrix.lean ====
section
/-! DEFINITION. The matrix instructions as statements name them: formats, operand tiles, accumulation, conversions and drains (R168 to R183). -/

namespace Sys2Proof.Machine.Spec

/-! ## Formats and tiles (R82, R168 to R172) -/

/-- A matrix format: the formats of A and B, the steps K, the accumulator width s. -/
structure MatFmt where
  fa : FpFmt
  fb : FpFmt
  steps : Nat
  acc : Nat

def matFmt (code : BitVec 5) : MatFmt :=
  match code.toNat with
  | 0 => ⟨.f64, .f64, 8, 64⟩
  | 1 => ⟨.f32, .f32, 8, 32⟩
  | 2 => ⟨.bf16, .bf16, 16, 32⟩
  | 3 => ⟨.f16, .f16, 16, 32⟩
  | 4 => ⟨.e4m3, .e4m3, 32, 32⟩
  | 5 => ⟨.e4m3, .e5m2, 32, 32⟩
  | 6 => ⟨.e5m2, .e4m3, 32, 32⟩
  | 7 => ⟨.e5m2, .e5m2, 32, 32⟩
  | _ => ⟨.e2m1, .e2m1, 64, 32⟩

/-- a(j, k): element jK + k of register va (R169). -/
def aTile (s : State) (code : BitVec 5) (va j k : Nat) : Nat :=
  elemOf s.h.v va (fpWidth (matFmt code).fa) (j * (matFmt code).steps + k)

/-- Scratchpad offset of word c of image row q (R171). -/
def imageAt (base : Nat) (col : Bool) (q c : Nat) : Nat := if col then base + 512 * c + 4 * q else base + 512 * q + 4 * c

/-- b(k, i): K/8 values in each slot i of row k div (K/8), in a group of eight registers or a scratchpad image (R170, R171). -/
def bTile (s : State) (code : BitVec 5) (fromSp col : Bool) (vb : BitVec 5) (k i : Nat) : Nat :=
  let f := matFmt code
  let w := fpWidth f.fb
  let per := f.steps / 8
  let lo := f.acc * i + w * (k % per)
  if fromSp then
    let word := fun (c : Nat) => leOf (readByte s.c.sp) (imageAt (s.x vb).toNat col (k / per) c) 4
    if w = 64 then word (lo / 32) + word (lo / 32 + 1) * 2 ^ 32 else word (lo / 32) / 2 ^ (lo % 32) % 2 ^ w
  else (s.h.v.get (Fin.ofNat 32 (vb.toNat + k / per))).toNat / 2 ^ lo % 2 ^ w

/-- A block scale: byte n of register va + 1 (R172). -/
def matScale (s : State) (va n : Nat) : Byte := BitVec.ofNat 8 (elemOf s.h.v (va + 1) 8 n)

/-- C element (j, i) after a multiply, and its flags (R174): K fused steps at FP64 and FP32, else one exact sum rounded once. -/
def matValue (s : State) (code va vb : BitVec 5) (fromSp col bs : Bool) (c j i : Nat) : Nat × Flags :=
  let f := matFmt code
  let a := fun k => aTile s code va.toNat j k
  let b := fun k => bTile s code fromSp col vb k i
  let ks := List.range f.steps
  if code.toNat ≤ 1 then
    ks.foldl (fun p k => let r := fFma f.fa (rndOf s.h.user.frm) false false (a k) (b k) p.1; (r.1, p.2 ||| r.2)) (c, 0)
  else
    let q := f.steps / 32
    let sa := fun k v => if bs then fScale (matScale s va.toNat (256 + q * j + k / 32)) v else v
    let sb := fun k v => if bs then fScale (matScale s va.toNat (q * i + k / 32)) v else v
    exactDot (fpDecode .f32 c) (ks.map fun k => (sa k (fpDecode f.fa (a k)), sb k (fpDecode f.fb (b k))))

/-! ## Multiplies (R173 to R177) -/

structure MatForm where
  zero : Bool
  bs : Bool
  vc : BitVec 5
  va : BitVec 5
  vb : BitVec 5
  code : BitVec 5
  fromSp : Bool
  col : Bool
  conv : Bool

def matForm (i : Instr) : Option MatForm :=
  match i with
  | .mmul vc va vb f sp o c => some ⟨false, false, vc, va, vb, f, sp, o, c⟩
  | .mmulz vc va vb f sp o c => some ⟨true, false, vc, va, vb, f, sp, o, c⟩
  | .mmulBs vc va vb f sp o c => some ⟨false, true, vc, va, vb, f, sp, o, c⟩
  | .mmulzBs vc va vb f sp o c => some ⟨true, true, vc, va, vb, f, sp, o, c⟩
  | _ => none

/-- The registers of A, its scales and a B group. -/
def MatForm.named (f : MatForm) : List Nat :=
  f.va.toNat :: (if f.bs then [f.va.toNat + 1] else []) ++ (if f.fromSp then [] else (List.range 8).map (f.vb.toNat + ·))

/-- The operand checks of R173 and R175. -/
def MatForm.legal (f : MatForm) (s : State) : Prop :=
  (s.h.shape.vl = 0 ∨ s.h.shape.vstart = 0) ∧ sewOf s = (matFmt f.code).acc ∧ Group s f.vc
    ∧ (f.fromSp = false → f.vb.toNat % 8 = 0) ∧ (f.bs = true → f.va ≠ 31) ∧ (∀ r ∈ f.named, r ∉ regs s f.vc)

/-- The words of a scratchpad B tile that the elements use lie in the scratchpad and are correctable (R171, R175, R176). -/
def MatForm.image (f : MatForm) (s : State) : Prop :=
  f.fromSp = true → s.h.shape.vl ≠ 0 →
    (s.x f.vb).toNat % 4 = 0 ∧
      ∀ q c, q < 8 → c < s.h.shape.vl.toNat * ((matFmt f.code).acc / 32) →
        imageAt (s.x f.vb).toNat f.col q c + 4 ≤ 0x40000 ∧ imageAt (s.x f.vb).toNat f.col q c / 4 ∉ s.c.spBad

def MatForm.claim (f : MatForm) (s : State) : Claim :=
  { conv := f.conv, units := if f.fromSp then 10 else 8, cross := true
    rv := (if f.zero then [] else regs s f.vc) ++ f.named, rm := [], wv := regs s f.vc, wm := [] }

/-! ## Conversions and drains (R180 to R182) -/

/-- The destination format of a code. -/
def toFmt (code : BitVec 5) : FpFmt :=
  match code.toNat with
  | 0 => .f64
  | 1 => .f32
  | 2 => .bf16
  | 3 => .f16
  | 4 => .e4m3
  | 7 => .e5m2
  | _ => .e2m1

/-- An accumulator element converted: a copy in its own format, else rounded in `frm` or by a draw; code 7 saturates (R180). -/
def converted (s : State) (code : BitVec 5) (draw : Option (BitVec 16)) (v : Nat) : Nat × Flags :=
  let src := if sewOf s = 64 then FpFmt.f64 else FpFmt.f32
  if toFmt code = src then (v, 0) else fConvert src (toFmt code) (decide (code = 7)) (rndOf s.h.user.frm) draw v

/-- The bytes of a drain (R182, R313): row by row, its elements packed at the destination width and padded to whole 32-bit words. -/
def drainBytes (s : State) (vc code : BitVec 5) : List Byte :=
  let w := fpWidth (toFmt code)
  let vl := s.h.shape.vl.toNat
  (List.range s.h.shape.vrows.toNat).flatMap fun j =>
    let v := ((List.range vl).map fun i => (converted s code none (el s vc (sewOf s) j i)).1 % 2 ^ w * 2 ^ (w * i)).sum
    (List.range ((vl * w + 31) / 32 * 4)).map (byteOf v)

end Sys2Proof.Machine.Spec
end

