-- ==== Sys2Proof/Safety/System.lean ====
section
/-! DEFINITION. System registers, traps and returns as statements name them: the tables of R42 to R49 and R233, written apart from the
meanings. -/

namespace Sys2Proof.Machine.Spec

/-- The value of the system register of a number; none where the number is unassigned (R42 to R49). -/
def sysValue (s : State) (n : Nat) : Option Word :=
  let h := s.h
  let t := h.trap
  let st := t.status
  let n32 := fun (v : BitVec 32) => some (v.setWidth 64)
  if n = 0x000 then some (h.shape.vl.setWidth 64) else if n = 0x001 then some (h.shape.vrows.setWidth 64)
  else if n = 0x002 then some (h.shape.sew.setWidth 64) else if n = 0x003 then some h.shape.vstart
  else if n = 0x004 then some h.shape.vstop else if n = 0x005 then some (h.shape.vslip.setWidth 64)
  else if n = 0x010 then some (h.user.frm.setWidth 64) else if n = 0x011 then some (h.user.fflags.setWidth 64)
  else if n = 0x012 then n32 h.user.srseed else if n = 0x020 then some (s.c.weir.wmember.setWidth 64)
  else if n = 0x100 then n32 s.c.coreid else if n = 0x101 then some (BitVec.ofNat 64 (s.cur % 8))
  else if n = 0x102 then some h.user.cyc
  else if 0x103 ≤ n ∧ n ≤ 0x106 then n32 (s.c.sluice.chans.get (Fin.ofNat 4 (n - 0x103))).done
  else if n = 0x400 then
    some ((BitVec.ofBool st.lthr ++ BitVec.ofBool st.sigen ++ BitVec.ofBool st.mmstrong ++ (0 : BitVec 3) ++ st.spp ++ st.mpp ++ st.priv).setWidth 64)
  else if n = 0x401 then some (t.cause.setWidth 64) else if n = 0x402 then some t.epc else if n = 0x403 then some t.tval
  else if n = 0x404 then some t.restart else if n = 0x405 then some t.tvec else if n = 0x406 then some t.sscratch
  else if n = 0xC00 then some (t.mcause.setWidth 64) else if n = 0xC01 then some t.mepc else if n = 0xC02 then some t.mtval
  else if n = 0xC03 then some t.mtvec else if n = 0xC04 then some t.mscratch else if n = 0xC05 then some (t.tdeleg.setWidth 64)
  else none

/-- The register may be read at the executing level: bits [11:10] of the number give the lowest (R41). -/
abbrev levelAllows (s : State) (n : Nat) : Prop := n / 1024 ≤ s.priv.toNat

/-- The register's number is assigned and it is not read-only (R41 to R43). -/
abbrev writable (s : State) (n : Nat) : Prop := (sysValue s n).isSome = true ∧ ¬ n ≤ 2 ∧ ¬ (0x100 ≤ n ∧ n ≤ 0x106)

/-- The word without its two low bits. -/
def wordAligned (v : Word) : Word := BitVec.ofNat 64 (v.toNat / 4 * 4)

/-- `status` after a write at M or at S (R47, R231). -/
def statusPut (t : Status) (v : Word) (m : Bool) : Status :=
  let f := fun (lo : Nat) => v.toNat / 2 ^ lo % 4
  let bit := fun (i : Nat) => decide (v.toNat / 2 ^ i % 2 = 1)
  { lthr := t.lthr, priv := t.priv, mmstrong := bit 9
    sigen := if m then bit 10 else t.sigen
    spp := if f 4 ≤ 1 ∨ (f 4 = 3 ∧ m) then BitVec.ofNat 2 (f 4) else t.spp
    mpp := if m ∧ f 2 ≠ 2 then BitVec.ofNat 2 (f 2) else t.mpp }

/-- Row and element of a position register as they are written, with `valid` where there is one (R44). -/
def positionPut (v : Word) (valid : Bool) : Word :=
  BitVec.ofNat 64 (row v * 2 ^ 16 + col v + if valid ∧ 2 ^ 63 ≤ v.toNat then 2 ^ 63 else 0)
where
  row (p : Word) : Nat := p.toNat / 2 ^ 16 % 8
  col (p : Word) : Nat := p.toNat % 2 ^ 11

/-- The hart after a write of one of its own system registers at M or below (R42 to R49, R231). -/
def hartPut (h : Hart) (m : Bool) (n : Nat) (v : Word) : Hart :=
  let t := h.trap
  let trap := fun (r : TrapRegs) => { h with trap := r }
  if n = 0x003 then { h with shape := { h.shape with vstart := positionPut v false } }
  else if n = 0x004 then { h with shape := { h.shape with vstop := positionPut v true } }
  else if n = 0x005 then { h with shape := { h.shape with vslip := BitVec.ofNat 4 v.toNat } }
  else if n = 0x010 then { h with user := { h.user with frm := BitVec.ofNat 3 v.toNat } }
  else if n = 0x011 then { h with user := { h.user with fflags := BitVec.ofNat 5 v.toNat } }
  else if n = 0x012 then { h with user := { h.user with srseed := BitVec.ofNat 32 v.toNat } }
  else if n = 0x400 then trap { t with status := statusPut t.status v m }
  else if n = 0x401 then trap { t with cause := BitVec.ofNat 9 v.toNat } else if n = 0x402 then trap { t with epc := wordAligned v }
  else if n = 0x403 then trap { t with tval := v }
  else if n = 0x404 then trap { t with restart := if m then positionPut v true else t.restart }
  else if n = 0x405 then trap { t with tvec := wordAligned v } else if n = 0x406 then trap { t with sscratch := v }
  else if n = 0xC00 then trap { t with mcause := BitVec.ofNat 9 v.toNat } else if n = 0xC01 then trap { t with mepc := wordAligned v }
  else if n = 0xC02 then trap { t with mtval := v } else if n = 0xC03 then trap { t with mtvec := wordAligned v }
  else if n = 0xC04 then trap { t with mscratch := v } else if n = 0xC05 then trap { t with tdeleg := BitVec.ofNat 11 v.toNat }
  else h

/-- The hart goes on at an address at a level after a return: its next vector instruction starts a convoy (R33), but where one was refused at this
address and level it stands in the convoy it was refused in (R249); no refusal at this level is remembered any longer (log 36). -/
def resumed (h : Hart) (priv : BitVec 2) (addr : Word) : Hart :=
  let here := h.refused.filter fun r => decide (r.priv = priv ∧ r.addr = addr)
  { h with pc := addr, checker := .idle
           convoy := match here with | [] => [] | r :: _ => r.members
           fresh := here.isEmpty
           refused := h.refused.filter fun r => decide (r.priv ≠ priv)
           wait := { h.wait with reason := 0, tag := 0, peer := 0 }, reply := none, asked := false }

/-- The hart as `sret` leaves it (R233). -/
def afterSret (h : Hart) : Hart :=
  { resumed h h.trap.status.spp h.trap.epc with
           trap := { h.trap with status := { h.trap.status with priv := h.trap.status.spp, spp := 0 } } }

/-- The hart as `mret` leaves it (R233). -/
def afterMret (h : Hart) : Hart :=
  { resumed h h.trap.status.mpp h.trap.mepc with
           trap := { h.trap with status := { h.trap.status with priv := h.trap.status.mpp, mpp := 0 } } }

/-- The `sub` of an illegal word (R84): 1 its major is unassigned, 2 its minor, 3 a reserved field is not zero, 4 a field holds a value that is
not assigned; as the decoder tells them. -/
def illegalSub (w : BitVec 32) : Nat := if subOf w.toNat = 0 then 1 else subOf w.toNat

end Sys2Proof.Machine.Spec
end

