-- ==== Sys2Proof/Safety/Claims.lean ====
section
/-! DEFINITION. The last terms that statements of Certificates/Slice0/Obligations.lean use: forms, chains and results that more than one of their
clauses names. -/

namespace Sys2Proof.Machine.Spec

/-- The fold of R255 by the word's format. -/
def formatMask (m : Nat) : Nat :=
  if m = 0x00 ∨ (0x1C ≤ m ∧ m ≤ 0x1F) ∨ m = 0x3F then 0xFC000000
  else if m ∈ [0x01, 0x02, 0x03, 0x16, 0x17, 0x18, 0x19, 0x1A, 0x1B] ∨ (0x36 ≤ m ∧ m ≤ 0x3C) then 0xFFFFF800
  else if m ∈ [0x07, 0x08, 0x09, 0x0F] then 0xFFE00000
  else if (0x04 ≤ m ∧ m ≤ 0x15) ∨ m = 0x3E then 0xFFFF0000
  else if m ∈ [0x28, 0x29, 0x2C] then 0xFFFFFFF0
  else if (0x20 ≤ m ∧ m ≤ 0x2F) ∨ m = 0x3D then 0xFFFFFF00
  else 0xFFFFFF38

/-- `rotl21(s, 3)` of R255. -/
def rotl3 (n : Nat) : Nat := n * 8 % 2 ^ 21 + n / 2 ^ 18

/-- What R137 asks of the operands of a reduction. -/
def redLegal (s : State) (vd a : BitVec 5) (tx pr : Bool) : Prop :=
  Spec.StartOk s ∧ Spec.Group s a ∧ (pr = true → Spec.Group s vd) ∧ ¬ (tx = true ∧ pr = true)
    ∧ (tx = true ∨ ¬ (a.toNat ≤ vd.toNat ∧ vd.toNat < a.toNat + s.h.shape.vrows.toNat))

/-- The registers and units a reduction claims (R124). -/
def redClaim (s : State) (vd a : BitVec 5) (k : BitVec 3) (c tx pr : Bool) : Claim :=
  Spec.claimPerm c [k.toNat] (Spec.regs s a) (if tx then [] else if pr then Spec.regs s vd else [vd.toNat])

/-- From `s` a reduction has written `val j` to element 0 of row j of vd (row 0 alone without the per-row form), or `toX` to the x register, added
its flags, and changed nothing else. -/
def ReducedTo (i : Instr) (s : State) (vd : BitVec 5) (cl : Claim) (w : Nat) (tx pr : Bool) (flags : BitVec 5) (toX : Word)
    (val : Nat → Nat) : Prop :=
  ∃ t v, exec i s = .next t
    ∧ Spec.VectorDone s t cl { s.h with
        v := v, x := if tx then s.h.xWith vd toX else s.h.x, user := { s.h.user with fflags := s.h.user.fflags ||| flags } }
    ∧ (if tx then v = s.h.v
       else Spec.ElementsWritten s.h.v v vd.toNat w (fun j e => decide (e = 0 ∧ j < if pr then s.h.shape.vrows.toNat else 1)) (fun j _ => val j))

/-- The value of a finite number. -/
def ratOf : FVal → Rat
  | .fin n m e => (if n then -1 else 1) * (m : Rat) * (2 : Rat) ^ e
  | _ => 0

/-- The task bit that an instruction writes: 0 hold, 1 ready, 2 enable, and its operands. -/
def taskBitForm (i : Instr) : Option (Nat × BitVec 5 × BitVec 5 × BitVec 5) :=
  match i with
  | .thold xv xc xs => some (0, xv, xc, xs)
  | .tready xv xc xs => some (1, xv, xc, xs)
  | .tenable xv xc xs => some (2, xv, xc, xs)
  | _ => none

/-- Queue `n` is enabled and running for an Active context, and its next packet, at `rd` of its ring, is `p` and passes its checks; every packet
dispatched before it is complete. `u` is the state after the translations that reading the packet and checking its signal's place take. -/
def NextPacket (s u : State) (n : Nat) (p : List Byte) : Prop :=
  let q := s.queue n
  let cx := s.ctx q.ctx.toNat
  q.en = true ∧ q.stopping = false ∧ q.errValid = false ∧ s.hostif.regs.pwrState = 0 ∧ cx.st = .active ∧ q.ibs = [] ∧ q.wr ≠ q.rd ∧ q.running = []
    ∧ (∃ v, ctxRead s cx (BitVec.ofNat 64 (q.base.toNat * 4096 + 64 * (q.rd.toNat % 2 ^ q.lsize.toNat))) 64 = (.ok p, v)
      ∧ (pktSignal p = true → ∃ l, signalPlace v cx (BitVec.ofNat 64 (fieldAt p 8 8)) = (.ok l, u)) ∧ (pktSignal p = false → u = v))
    ∧ pktPseq p = q.seq.toNat ∧ pktReservedOk p = true

/-- The package has answered the host with `r`, and nothing else has changed. -/
def Answered (s t : State) (r : HostReply) : Prop := t = { s with hostif := { s.hostif with replies := s.hostif.replies ++ [r] } }

/-- What R450 makes of a bundle. -/
def bootChain (v : Verified) (scanKey : List Byte) : List Byte :=
  let ext := fun (m : List Byte) (k : Byte) (d : List Byte) => sha3 (m ++ [k, 0] ++ d)
  ext (ext (ext (ext (ext (List.replicate 32 0) 0 romHash) 2 (sha3 v.manifest.signed)) 3 (sha3 v.cistern.signed)) 4 (sha3 v.basin.signed)) 5 (sha3 scanKey)

/-- The edges are a cycle of waiting harts, of the context or told by other packages, from its lowest coordinate: each waits for the core of the
next (R432, R433). -/
def WaitChain (s : State) (cx : Ctx) (l : List Edge) : Prop :=
  (∀ i, (h : i < l.length) → (l[i]).peer = (l[(i + 1) % l.length]'(Nat.mod_lt _ (Nat.zero_lt_of_lt h))).who.core)
    ∧ (∀ e ∈ l, (e ∈ ctxEdges s cx ∧ waitEdge s e.who.hart = some (e.who.core, e.peer) ∨ ∃ r ∈ s.remote, e = r.edge)
        ∧ ∀ f ∈ l.head?, f.who.core.toNat ≤ e.who.core.toNat)

/-- `sp` is the spare of a die nearest to a site: the lowest row and then the lowest column of those fewest mesh hops away (R424). -/
def NearestSpare (s : State) (site sp : Nat) : Prop :=
  let hops := fun k : Nat => ((site % 1024 / 32 : Int) - (k % 1024 / 32 : Nat)).natAbs + ((site % 32 : Int) - (k % 32 : Nat)).natAbs
  let spare := fun k => k / 1024 = site / 1024 ∧ k ≠ site ∧ (s.coreOf k).asg.valid = true ∧ (s.coreOf k).asg.spare = true ∧ (s.coreOf k).pool = .normal
  spare sp ∧ ∀ k, spare k → hops sp ≤ hops k ∧ (hops k = hops sp → sp ≤ k)

/-- A context owns the row of a coordinate: it is Active, Saving or Restoring (R362). -/
def ownsRow (c : Ctx) (v : BitVec 32) : Prop := (c.st = .active ∨ c.st = .saving ∨ c.st = .restoring) ∧ c.rows.getLsbD (coordRow v) = true

/-- The context number an event of a coordinate carries: the one that owns its row, or 0xFF. -/
def rowContext (s : State) (v : BitVec 32) (n : Nat) : Prop :=
  (∃ c, (n, c) ∈ s.ctxs ∧ ownsRow c v) ∨ (n = 0xFF ∧ ∀ e ∈ s.ctxs, ¬ ownsRow e.2 v)

/-- The registers that training step results leave in a memory's `nmtrn` or `fmtrn` (R463, R464). -/
def trained (m : MemTrn) (far : Bool) (margin : BitVec 16) (repaired : BitVec 8) : MemTrn :=
  { m with step := m.step + 1, state := if m.step = 7 then 2 else 1, tries := 0
           rdmarg := if m.step = 4 then margin else m.rdmarg, wrmarg := if m.step = 5 then margin else m.wrmarg
           repaired := if m.step = 3 ∧ far = false then repaired else m.repaired }

/-- Every memory of the machine is in its canonical form: addresses rise strictly and no byte listed is the zero that an unlisted one reads as. -/
def Canonical (s : State) : Prop :=
  s.mem.wf = true ∧ s.hostMem.wf = true ∧ s.hostif.ring.missed.wf = true ∧ s.hostif.msix.wf = true ∧ ∀ k, (s.coreOf k).sp.wf = true

/-- Every hart's x0 holds zero (R19), and its shape is one that `vshape` grants (R23). -/
def HartsLegal (s : State) : Prop :=
  ∀ k, let h := s.hartOf k
    h.x.get 0 = 0 ∧ h.shape.sew.toNat ≤ 3 ∧ (h.shape.vrows = 1 ∨ h.shape.vrows = 2 ∨ h.shape.vrows = 4 ∨ h.shape.vrows = 8)
      ∧ h.shape.vl.toNat ≤ 4096 / 2 ^ (3 + h.shape.sew.toNat)

/-- The executing hart goes on with the instruction at its pc: it runs a task or its own code, has no lane region and no cause to take
first (an answer it has received comes before one), and does not stand where the machine runs code that the spec gives no words of. -/
def Fetches (s : State) : Prop :=
  (Spec.onTask s.h ∨ s.h.run = .firmware) ∧ s.h.lanes = none ∧ (s.h.reply ≠ none ∨ s.h.pending = [] ∧ budgetDue s s.cur = false)
    ∧ s.atFirmware = false ∧ s.inRom = false

end Sys2Proof.Machine.Spec
end

