-- ==== Sys2Proof/Certificates/Slice0/Obligations.lean ====
section
/-! DEFINITION. The obligations. Each is one statement about the machine; a statement of several parts is the conjunction of the claims named in
it, which stand before it in namespace Sys2Proof.Machine.Claims. Every claim says for which states it holds, that exec answers a next state there, what
that state holds, and what is unchanged. -/

namespace Sys2Proof.Machine.Claims

/-- R97 to R102: an integer instruction writes the value of its table row to rd, goes on at pc + 4 and changes nothing else, for a hart and for
a lane thread; x0 stays zero. -/
def IntegerResult : Prop :=
  ∀ (i : Instr) (s : State) (rd : BitVec 5) (v : Word), OneThread s → Spec.intResult i s = some (rd, v) →
    ∃ t, exec i s = .next t ∧ ScalarDone s t rd v 0 (s.pc + 4) s.checkerNext

end Sys2Proof.Machine.Claims

/-- Integer instructions write rd, advance the pc and change nothing else (R19, R97, R99, R100, R101, R102). -/
def Obligations.IntegerResults : Prop :=
  Sys2Proof.Machine.Claims.IntegerResult

namespace Sys2Proof.Machine.Claims

/-- R115 to R118: a scalar floating-point instruction writes its result (over the number operations of R52 to R67) to rd, adds its flags to
`fflags`, goes on at pc + 4 and changes nothing else. -/
def FloatResult : Prop :=
  ∀ (i : Instr) (s : State) (rd : BitVec 5) (v : Word) (f : BitVec 5), OneThread s → Spec.fpResult i s = some (rd, v, f) →
    ∃ t, exec i s = .next t ∧ ScalarDone s t rd v f (s.pc + 4) s.checkerNext

end Sys2Proof.Machine.Claims

/-- Scalar floating-point instructions write rd and fflags and change nothing else (R19, R115, R116, R117, R118). -/
def Obligations.FloatResults : Prop :=
  Sys2Proof.Machine.Claims.FloatResult

namespace Sys2Proof.Machine.Claims

/-- R103, R75: jumps and branches go where the table says, the link register receives pc + 4, and nothing else changes; the block-signature
checker closes its block without a difference (R256). -/
def ControlTransfer : Prop :=
  ∀ (i : Instr) (s : State) (p : Word) (rd : BitVec 5), OneThread s → Spec.transfer i s = some (p, rd) →
    (s.lane = none → s.checkerNext.differs = false) →
    ∃ t, exec i s = .next t ∧ ScalarDone s t rd (s.pc + 4) 0 p s.checkerNext.close

/-- R98, R103: `jalr` to an address that is no multiple of 4 traps with 0x041 and that address. -/
def MisalignedJump : Prop :=
  ∀ (s : State) (rd rs1 : BitVec 5) (imm : BitVec 16), OneThread s → (s.x rs1 + imm.signExtend 64).toNat % 4 ≠ 0 →
    Traps (.jalr rd rs1 imm) s 0x041 (s.x rs1 + imm.signExtend 64)

end Sys2Proof.Machine.Claims

/-- Jumps and branches set the pc and the link register; jalr to a misaligned address traps (R103). -/
def Obligations.ControlTransfers : Prop :=
  Sys2Proof.Machine.Claims.ControlTransfer ∧ Sys2Proof.Machine.Claims.MisalignedJump

namespace Sys2Proof.Machine.Claims

/-- R237, R49, R252: what taking a trap saves, where the pc goes, what the status becomes, and that nothing else changes. -/
def TrapEntry : Prop :=
  ∀ (s : State) (t : Trap), OneThread s →
    Trapped s (takeTrap s t) t.cause t.tval s.pc
      (match t.restart with
       | none => 0
       | some (row, elem) => BitVec.ofNat 64 (2 ^ 63 + row.toNat * 2 ^ 16 + elem.toNat))

/-- R84, R98: an illegal encoding traps with cause equal to its major and the word and its `sub` in `tval`. -/
def IllegalEncoding : Prop :=
  ∀ (s : State) (w : BitVec 32), OneThread s → subOf w.toNat ≠ 0 →
    Traps (.illegalEncoding w) s (BitVec.ofNat 9 (w.toNat / 2 ^ 26)) (BitVec.ofNat 64 (w.toNat + 2 ^ 32 * subOf w.toNat))

end Sys2Proof.Machine.Claims

/-- Trap entry saves cause, tval, epc and level and goes to the handler; an illegal word traps (R49, R84, R98, R142, R237, R252). -/
def Obligations.TrapEntry : Prop :=
  Sys2Proof.Machine.Claims.TrapEntry ∧ Sys2Proof.Machine.Claims.IllegalEncoding

namespace Sys2Proof.Machine.Claims

/-- R232: `trap n` takes cause 0x044 + `status.priv` and `break n` cause 0x048, with `tval` = n, at the instruction's own address. -/
def SoftwareTraps : Prop :=
  ∀ (s : State) (n : BitVec 12), s.lane = none →
    Traps (.trap n) s (BitVec.ofNat 9 (0x44 + s.priv.toNat)) (n.setWidth 64) ∧ Traps (.brk n) s 0x048 (n.setWidth 64)

end Sys2Proof.Machine.Claims

/-- trap n and break n trap with their cause and n at their own address (R232). -/
def Obligations.SoftwareTraps : Prop :=
  Sys2Proof.Machine.Claims.SoftwareTraps

namespace Sys2Proof.Machine.Claims

/-- R233, R257, R249: `sret` and `mret` restore the level and the pc that trap entry saved, leave the trap registers otherwise, and the next vector
instruction starts a convoy, but one that was refused at that address stands in the convoy it was refused in (log 36); below their level they trap
with 0x043. -/
def ReturnFromTrap : Prop :=
  ∀ (s : State), s.lane = none →
    (s.priv = 0 → Traps .sret s 0x043 (s.word.setWidth 64))
    ∧ (s.priv ≠ 3 → Traps .mret s 0x043 (s.word.setWidth 64))
    ∧ (s.checkerNext.differs = false →
        (s.priv ≠ 0 → ∃ t, exec .sret s = .next t ∧ Becomes s t (Spec.afterSret s.h))
        ∧ (s.priv = 3 → ∃ t, exec .mret s = .next t ∧ Becomes s t (Spec.afterMret s.h)))
    ∧ (s.checkerNext.differs = true →
        (s.priv ≠ 0 → ∃ u t, Becomes s u (Spec.afterSret s.h) ∧ exec .sret s = .next t ∧ Trapped u t 0x160 s.checkerNext.block (s.pc + 4) 0)
        ∧ (s.priv = 3 → ∃ u t, Becomes s u (Spec.afterMret s.h) ∧ exec .mret s = .next t ∧ Trapped u t 0x160 s.checkerNext.block (s.pc + 4) 0))

end Sys2Proof.Machine.Claims

/-- sret and mret restore the level and the pc, or trap below their level (R233, R249, R257). -/
def Obligations.ReturnFromTrap : Prop :=
  Sys2Proof.Machine.Claims.ReturnFromTrap

namespace Sys2Proof.Machine.Claims

/-- R105 to R108, R111: a global load writes the little-endian bytes its core sees, sign- or zero-extended, to rd and stores nothing. `u` is
the state after the translation, which can only change page-table bits and cached translations (R367, R368). -/
def ScalarLoad : Prop :=
  ∀ (i : Instr) (s u : State) (rd : BitVec 5) (ea : Word) (n : Nat) (sx : Bool) (p : Place), OneThread s →
    Spec.loadForm i s = some (rd, ea, n, sx) → place s ea n 0 = .ok (p, u) → Spec.readable u p.loc n →
    u.mem.wf = true → Spec.StoresInLine u u.agent →
    ∃ t, exec i s = .next t
      ∧ HartDone s t.h rd (Spec.extended sx n (Spec.valueAt u p.loc n)) 0 (s.pc + 4) s.checkerNext
      ∧ (∀ k, k ≠ s.cur → t.hartOf k = s.hartOf k)
      ∧ (∀ a, Spec.sees t s.agent a = Spec.sees u s.agent a ∧ Spec.seesHost t s.agent a = Spec.seesHost u s.agent a)
      ∧ (∀ k, (t.coreOf k).sp = (s.coreOf k).sp) ∧ Spec.HostAsIn u t
      ∧ t = { u with harts := t.harts, cores := t.cores, mem := t.mem, poison := t.poison, hostMem := t.hostMem, hostif := t.hostif }
      ∧ (s.priv = 3 → u = s)

end Sys2Proof.Machine.Claims

/-- Global loads write the bytes their core sees to rd and store nothing (R97, R105, R106, R107, R108, R111). -/
def Obligations.ScalarLoads : Prop :=
  Sys2Proof.Machine.Claims.ScalarLoad

namespace Sys2Proof.Machine.Claims

/-- R105 to R108, R111, R114, R283, R306: a global store changes exactly its bytes, as its core sees them, and no register but the pc; an I/O store
is in memory when it completes. `w` is the state after the releases before it, and host memory changes where the host accepts the write (R392). -/
def ScalarStore : Prop :=
  ∀ (i : Instr) (s w u : State) (ea : Word) (n : Nat) (v : Word) (p : Place), OneThread s →
    Spec.storeForm i s = some (ea, n, v, w) → place w ea n 1 = .ok (p, u) →
    (∀ a, p.loc ≠ .ctl a) → u.mem.wf = true → u.hostMem.wf = true → u.c.sp.wf = true → Spec.StoresInLine u u.agent →
    ∃ t, exec i s = .next t
      ∧ HartDone s t.h 0 0 0 (s.pc + 4) s.checkerNext
      ∧ (∀ k, k ≠ s.cur → t.hartOf k = s.hartOf k)
      ∧ (∀ a, Spec.sees t s.agent a = match p.loc with
          | .dev pa => Spec.patched (Spec.sees u s.agent) pa n v.toNat a
          | _ => Spec.sees u s.agent a)
      ∧ (∀ a, (∀ h, p.loc = .host h → hostRefuses u s.agent h true = false) → Spec.seesHost t s.agent a = match p.loc with
          | .host h => Spec.patched (Spec.seesHost u s.agent) h n v.toNat a
          | _ => Spec.seesHost u s.agent a)
      ∧ (∀ k a, readByte (t.coreOf k).sp a = match p.loc with
          | .own o => if k = s.agent ∧ ¬ (4160 ≤ s.agent ∧ o < 0x20000)
              then Spec.patched (readByte (u.coreOf k).sp) o n v.toNat a else readByte (u.coreOf k).sp a
          | _ => readByte (u.coreOf k).sp a)
      ∧ (p.io = true → ∀ pa, p.loc = .dev pa → ∀ a, pa ≤ a ∧ a < pa + n → readByte t.mem a = Spec.byteOf v.toNat (a - pa))
      ∧ (p.io = true → ∀ h, p.loc = .host h → ∀ q ∈ t.c.pstores, ∃ a, q.loc = .dev a)

/-- R283, R287, R392: a store of a core reaches memory once no earlier store it has to follow is on its way; a host that refuses the write is
reported by an event 0x06 and host memory stays as it was. -/
def StoresPerformed : Prop :=
  ∀ (s : State) (core : Nat) (before after : List PStore) (p : PStore),
    let c := s.coreOf core
    let u := s.setCoreOf core { c with pstores := before ++ after }
    c.pstores = before ++ p :: after → (∀ q ∈ before, q.before p = false) →
    (∀ pa, p.loc = .dev pa → s.mem.wf = true → ∃ t, exec (.storePerformed core before.length) s = .next t
      ∧ t = devWrite u (some core) pa p.data ∧ (∀ l ∈ t.hostif.held, touches pa p.data.length l = false)
      ∧ (∀ a, readByte t.mem a = if pa ≤ a ∧ a < pa + p.data.length then p.data.getD (a - pa) 0 else readByte s.mem a)
      ∧ (t.coreOf core).pstores = before ++ after ∧ t.hostMem = s.hostMem ∧ t.harts = s.harts)
    ∧ (∀ h, p.loc = .host h →
      (hostRefuses s core h true = false → s.hostMem.wf = true → ∃ t, exec (.storePerformed core before.length) s = .next t
        ∧ t = { u with hostMem := t.hostMem }
        ∧ let at_ := hostPlace s core h
          ∀ a, readByte t.hostMem a = if at_ ≤ a ∧ a < at_ + p.data.length then p.data.getD (a - at_) 0 else readByte s.hostMem a)
      ∧ (hostRefuses s core h true = true → ∃ t, exec (.hostWriteRefusal core before.length) s = .next t
        ∧ t = u.emit 0x06 (match ctxOfAgent s core with | some (n, _) => n | none => 0xFF) 0xFFFF h 1 0))

/-- R443, R444: a store of 4 or 8 bytes to control space writes what its windows let it write (`ctlWrite`, which RegisterWrites describes field by
field) once the instruction has completed: `q` is the state between; in a site window the scratchpad takes the bytes and `mtvec` of a hart takes the
address. Accesses of 1 or 2 bytes and atomics trap with 0x0E0. `w` is the state after the releases before the access. -/
def ControlStore : Prop :=
  ∀ (i : Instr) (s w : State) (ea : Word) (n : Nat), OneThread s →
    (∀ (u : State) (v : Word) (p : Place) (o : Nat), Spec.storeForm i s = some (ea, n, v, w) → place w ea n 1 = .ok (p, u) → p.loc = .ctl o →
      ∃ t q, exec i s = .next t ∧ q = { u with harts := q.harts } ∧ (∀ k, k ≠ s.cur → q.hartOf k = s.hartOf k)
        ∧ HartDone s q.h 0 0 0 (s.pc + 4) s.checkerNext ∧ t = ctlWrite q o n v.toNat
        ∧ ∀ d m a, d < 4 → m < 1024 → o = 2 ^ 32 * d + 0x10000000 + 0x100000 * m + a → let site := 1024 * d + m
          (a < 0x40000 → (u.coreOf site).sp.wf = true → ∀ k b, readByte (t.coreOf k).sp b =
              if k = site then Spec.patched (readByte (u.coreOf k).sp) a n v.toNat b else readByte (u.coreOf k).sp b)
          ∧ ∀ j, j < 8 → a = 0x80300 + 8 * j → n = 8 → (t.hartOf (8 * site + j)).trap.mtvec = v &&& ~~~3)
    ∧ (s.h.trap.status.priv = 3 → 2 ^ 50 ≤ ea.toNat → ea.toNat < 2 ^ 51 →
      (n < 4 ∧ ((∃ rd sx, Spec.loadForm i s = some (rd, ea, n, sx) ∧ w = s) ∨ ∃ v, Spec.storeForm i s = some (ea, n, v, w)))
        ∨ (∃ f, Spec.atomForm i s = some f ∧ f.ea = ea ∧ f.size = n ∧ f.start = w) →
      ∃ t, exec i s = .next t ∧ Trapped w t 0x0E0 ea s.pc 0)

end Sys2Proof.Machine.Claims

/-- Global stores change exactly their bytes, and reach memory in their order; control space takes aligned words (R105, R106, R107, R108, R114, R283,
R287, R306, R392, R443, R444). -/
def Obligations.ScalarStores : Prop :=
  Sys2Proof.Machine.Claims.ScalarStore ∧ Sys2Proof.Machine.Claims.StoresPerformed ∧ Sys2Proof.Machine.Claims.ControlStore

namespace Sys2Proof.Machine.Claims

/-- R107: a global access outside the canonical addresses traps with 0x0E1, and a misaligned one with 0x0E0, before anything is loaded or
stored; a release that precedes it has taken effect: `w` is the state after it. -/
def AccessFault : Prop :=
  ∀ (i : Instr) (s w : State) (ea : Word) (n : Nat), OneThread s →
    ((∃ rd sx, Spec.loadForm i s = some (rd, ea, n, sx) ∧ w = s)
      ∨ (∃ v, Spec.storeForm i s = some (ea, n, v, w))
      ∨ (∃ f, Spec.atomForm i s = some f ∧ f.ea = ea ∧ f.size = n ∧ f.start = w)) →
    (ea.toNat / 2 ^ 55 ≠ 0 ∧ ea.toNat / 2 ^ 55 ≠ 511 →
      ∃ t, exec i s = .next t ∧ Trapped w t 0x0E1 ea s.pc 0)
    ∧ (ea.toNat / 2 ^ 55 = 0 ∨ ea.toNat / 2 ^ 55 = 511 → ea.toNat % n ≠ 0 →
      ∃ t, exec i s = .next t ∧ Trapped w t 0x0E0 ea s.pc 0)

/-- R155: the first active element, in element order, that meets an access fault makes the vector access trap with that fault's cause and
`tval`, before any element is accessed. -/
def VectorAccessFault : Prop :=
  ∀ (i : Instr) (s : State) (f : Spec.VecAccess) (c : BitVec 9) (tval : Word), s.lane = none → Spec.ShapeOk s.h.shape →
    (Spec.vecLoadForm i s = some f ∨ (Spec.vecStoreForm i s = some f ∧ ∀ v b k n c, i = .vspill v b k n c → k = 0) ∨ ∃ dup, Spec.atomAccess i s = some (f, dup)) →
    f.legal = true → Spec.Joins s f.claim →
    f.at_.findSome? (fun p => Spec.accessFault s f.acc p.1 p.2) = some (c, tval) → Traps i s c tval

end Sys2Proof.Machine.Claims

/-- Non-canonical and misaligned accesses trap before they access anything (R107, R111, R155). -/
def Obligations.AccessFaults : Prop :=
  Sys2Proof.Machine.Claims.AccessFault ∧ Sys2Proof.Machine.Claims.VectorAccessFault

namespace Sys2Proof.Machine.Claims

/-- R111, R112: an atomic on device memory writes the old value to rd and the new value to its bytes in memory, and changes no other byte. -/
def AtomicResult : Prop :=
  ∀ (i : Instr) (s u : State) (f : Spec.AtomForm) (p : Place) (pa : Nat), OneThread s →
    Spec.atomForm i s = some f → place f.start f.ea f.size 3 = .ok (p, u) → p.loc = .dev pa → p.io = false →
    poisonAt (bypass u u.agent pa f.size) pa f.size = none → u.mem.wf = true → Spec.StoresInLine u u.agent →
    let old := Spec.leOf (Spec.sees u u.agent) pa f.size
    ∃ t, exec i s = .next t
      ∧ HartDone s t.h f.rd (if f.zext then BitVec.ofNat 64 old else Spec.extended true f.size old) 0 (s.pc + 4) s.checkerNext
      ∧ (∀ k, k ≠ s.cur → t.hartOf k = s.hartOf k)
      ∧ (∀ a, Spec.sees t s.agent a = match f.new old with
          | some v => Spec.patched (Spec.sees u s.agent) pa f.size v a
          | none => Spec.sees u s.agent a)
      ∧ (∀ v, f.new old = some v → ∀ a, pa ≤ a ∧ a < pa + f.size → readByte t.mem a = Spec.byteOf v (a - pa))
      ∧ t.hostMem = u.hostMem ∧ (∀ k, (t.coreOf k).sp = (s.coreOf k).sp)

/-- R111, R112: `amoadd.f32` writes the old value to rd, the rounded sum to memory, and its flags to `fflags`, and changes nothing else. -/
def AtomicFloatAdd : Prop :=
  ∀ (s u : State) (rd a b : BitVec 5) (sc : BitVec 3) (o : BitVec 2) (p : Place) (pa : Nat), OneThread s →
    place (if 2 ≤ o.toNat then Spec.released s sc else Spec.inMode s) (s.x a) 4 3 = .ok (p, u) → p.loc = .dev pa → p.io = false →
    poisonAt (bypass u u.agent pa 4) pa 4 = none → u.mem.wf = true → Spec.StoresInLine u u.agent →
    let old := Spec.leOf (Spec.sees u u.agent) pa 4
    let r := fAdd .f32 (rndOf s.h.user.frm) old (Spec.fpBits .f32 (s.x b))
    ∃ t, exec (.amoaddF32 rd a b sc o) s = .next t
      ∧ HartDone s t.h rd (Spec.fpWord .f32 old) r.2 (s.pc + 4) s.checkerNext
      ∧ (∀ k, k ≠ s.cur → t.hartOf k = s.hartOf k)
      ∧ (∀ a, Spec.sees t s.agent a = Spec.patched (Spec.sees u s.agent) pa 4 r.1 a)
      ∧ (∀ a, pa ≤ a ∧ a < pa + 4 → readByte t.mem a = Spec.byteOf r.1 (a - pa))
      ∧ t.hostMem = u.hostMem ∧ (∀ k, (t.coreOf k).sp = (s.coreOf k).sp)

/-- R113, R392, R394: an atomic on host memory that is no AtomicOp, whose size the host does not route, or that the host does not take, traps with
0x0E3 and writes nothing; one that the host takes is performed there, behind the core's writes to it, writes the old value to rd and changes its
bytes of host memory alone. -/
def HostAtomics : Prop :=
  ∀ (i : Instr) (s u : State) (f : Spec.AtomForm) (p : Place) (h : Nat), OneThread s →
    Spec.atomForm i s = some f → place f.start f.ea f.size 3 = .ok (p, u) → p.loc = .host h → p.io = false →
    let routed := if f.size = 4 then u.hostif.routing4 else u.hostif.routing8
    let taken := (hostPage u (hostPlace u u.agent h)).atomicOk && !hostRefuses u u.agent h true
    ((f.hostOp = false ∨ routed = false ∨ taken = false) → ∃ t, exec i s = .next t ∧ Trapped u t 0x0E3 f.ea s.pc 0)
    ∧ (f.hostOp = true → routed = true → taken = true → u.hostMem.wf = true →
        let old := Spec.leOf (Spec.seesHost u u.agent) h f.size
        ∃ t, exec i s = .next t
          ∧ HartDone s t.h f.rd (if f.zext then BitVec.ofNat 64 old else Spec.extended true f.size old) 0 (s.pc + 4) s.checkerNext
          ∧ (∀ k, k ≠ s.cur → t.hartOf k = s.hartOf k)
          ∧ (∀ a, Spec.seesHost t s.agent a = match f.new old with
              | some v => Spec.patched (Spec.seesHost u s.agent) h f.size v a
              | none => Spec.seesHost u s.agent a)
          ∧ (∀ q ∈ t.c.pstores, ∃ a, q.loc = .dev a) ∧ t.mem = u.mem ∧ ∀ k, (t.coreOf k).sp = (s.coreOf k).sp)

/-- R113: `amoadd.f32` is no AtomicOp: on host memory it traps with 0x0E3 and writes nothing. -/
def HostFloatAddRefused : Prop :=
  ∀ (s u : State) (rd a b : BitVec 5) (sc : BitVec 3) (o : BitVec 2) (p : Place) (h : Nat), OneThread s →
    place (if 2 ≤ o.toNat then Spec.released s sc else Spec.inMode s) (s.x a) 4 3 = .ok (p, u) → p.loc = .host h → p.io = false →
    ∃ t, exec (.amoaddF32 rd a b sc o) s = .next t ∧ Trapped u t 0x0E3 (s.x a) s.pc 0

end Sys2Proof.Machine.Claims

/-- Atomics write the old value to rd and the new value to memory; the host may refuse one (R111, R112, R113, R392, R394). -/
def Obligations.Atomics : Prop :=
  Sys2Proof.Machine.Claims.AtomicResult ∧ Sys2Proof.Machine.Claims.AtomicFloatAdd ∧ Sys2Proof.Machine.Claims.HostAtomics
    ∧ Sys2Proof.Machine.Claims.HostFloatAddRefused

namespace Sys2Proof.Machine.Claims

/-- R114, R297, R234: a fence orders and changes no register; a release of any scope has performed the core's stores to device memory, one at system
scope those to the host too; `ifence` empties the instruction cache after the core's stores have been performed. -/
def Fences : Prop :=
  ∀ (s : State) (sc : BitVec 3) (o : BitVec 2), OneThread s →
    (∃ t, exec (.fence sc o) s = .next t ∧ ScalarDone (if 2 ≤ o.toNat then Spec.released s sc else s) t 0 0 0 (s.pc + 4) s.checkerNext)
    ∧ (∀ q ∈ ((Spec.released s sc).coreOf s.agent).pstores, (∀ a, q.loc ≠ .dev a) ∧ sc.toNat ≤ 4)
    ∧ (s.lane = none → ∃ t, exec .ifence s = .next t ∧ HartDone s t.h 0 0 0 (s.pc + 4) s.checkerNext
        ∧ t.c.caches.l1i = [] ∧ t.c.pstores = [])

/-- R235: cache maintenance completes after the core's stores have been performed, drops the lines it names, changes no byte beyond those
stores, and `cwb` and `cwbinv` are privileged. -/
def CacheMaintenance : Prop :=
  ∀ (s : State) (r : BitVec 5), s.lane = none →
    (∃ t, exec .cinvall s = .next t ∧ HartDone s t.h 0 0 0 (s.pc + 4) s.checkerNext ∧ t.c.caches.l1d = [] ∧ t.c.pstores = [])
    ∧ (∀ l u, maintPlace s (s.x r) = .ok (l, u) →
        (∃ t, exec (.cinv r) s = .next t ∧ HartDone s t.h 0 0 0 (s.pc + 4) s.checkerNext ∧ t.c.pstores = []
          ∧ (∀ pa, l = .dev pa → lineOf pa ∉ t.c.caches.l1d) ∧ t.mem = (flushAll u u.agent).mem)
        ∧ (s.priv ≠ 0 → ∀ i, i = .cwb r ∨ i = .cwbinv r →
            ∃ t, exec i s = .next t ∧ HartDone s t.h 0 0 0 (s.pc + 4) s.checkerNext ∧ t.c.pstores = []
              ∧ t.mem = (flushAll u u.agent).mem))
    ∧ (s.priv = 0 → ∀ i, i = .cwb r ∨ i = .cwbinv r → Traps i s 0x043 (s.word.setWidth 64))

end Sys2Proof.Machine.Claims

/-- Fences and cache maintenance perform the stores they order and change no register (R114, R234, R235, R293, R297). -/
def Obligations.FencesAndCaches : Prop :=
  Sys2Proof.Machine.Claims.Fences ∧ Sys2Proof.Machine.Claims.CacheMaintenance

namespace Sys2Proof.Machine.Claims

/-- R106, R109: `lsp` reads the bytes at its offset, sign- or zero-extended, where the offset lies in the scratchpad and is aligned and no word it
reads is uncorrectable. -/
def ScratchpadLoad : Prop :=
  ∀ (s : State) (rd a b : BitVec 5) (w : BitVec 3), OneThread s →
    let o := (s.x a + s.x b).toNat
    let n := 2 ^ (w.toNat / 2)
    o < 0x40000 → o % n = 0 → (∀ x ∈ s.c.spBad, ¬ (o / 4 ≤ x ∧ x ≤ (o + n - 1) / 4)) →
    ∃ t, exec (.lsp rd a b w) s = .next t
      ∧ ScalarDone s t rd (Spec.extended (decide (w.toNat % 2 = 0)) n (Spec.leOf (readByte s.c.sp) o n)) 0 (s.pc + 4) s.checkerNext

/-- R106, R109, R145, R306: `ssp` writes its bytes of the scratchpad and nothing else, after every earlier store of the core has been performed where
the hart is in strong mode; a store of whole words makes them correctable again. -/
def ScratchpadStore : Prop :=
  ∀ (s : State) (r a b : BitVec 5) (w : BitVec 3), OneThread s → s.c.sp.wf = true →
    let o := (s.x a + s.x b).toNat
    let n := 2 ^ (w.toNat / 2)
    let u := if s.h.trap.status.mmstrong then flushAll s s.agent else s
    o < 0x40000 → o % n = 0 → (n < 4 → ∀ x ∈ s.c.spBad, ¬ (o / 4 ≤ x ∧ x ≤ (o + n - 1) / 4)) →
    ∃ t c, exec (.ssp r a b w) s = .next t
      ∧ BecomesOn u t t.h { u.c with sp := c, spBad := s.c.spBad.filter fun x => !(decide (o ≤ 4 * x) && decide (4 * x + 4 ≤ o + n)) }
      ∧ HartDone s t.h 0 0 0 (s.pc + 4) s.checkerNext ∧ (s.h.trap.status.mmstrong = true → u.c.pstores = [])
      ∧ ∀ k, readByte c k = Spec.patched (readByte s.c.sp) o n (s.x r).toNat k

/-- R106, R109: a scratchpad access, load or store, checks its offset, then its alignment, and otherwise reads or writes exactly its bytes; a store of
whole words makes them correctable again (R145). In strong mode a store checks after the core's earlier stores have been performed (R306). -/
def ScratchpadAccess : Prop :=
  ∀ (s : State) (r a b : BitVec 5) (w : BitVec 3), OneThread s → s.c.sp.wf = true →
    let o := (s.x a + s.x b).toNat
    let n := 2 ^ (w.toNat / 2)
    (0x40000 ≤ o → Traps (.lsp r a b w) s 0x0E2 (s.x a + s.x b))
    ∧ (o < 0x40000 → o % n ≠ 0 → Traps (.lsp r a b w) s 0x0E0 (s.x a + s.x b))
    ∧ (let u := if s.h.trap.status.mmstrong then flushAll s s.agent else s
       (0x40000 ≤ o → ∃ t, exec (.ssp r a b w) s = .next t ∧ Trapped u t 0x0E2 (s.x a + s.x b) s.pc 0)
       ∧ (o < 0x40000 → o % n ≠ 0 → ∃ t, exec (.ssp r a b w) s = .next t ∧ Trapped u t 0x0E0 (s.x a + s.x b) s.pc 0))
    ∧ (o < 0x40000 → o % n = 0 → (∀ x ∈ s.c.spBad, ¬ (o / 4 ≤ x ∧ x ≤ (o + n - 1) / 4)) →
        ∃ t, exec (.lsp r a b w) s = .next t
          ∧ ScalarDone s t r (Spec.extended (decide (w.toNat % 2 = 0)) n (Spec.leOf (readByte s.c.sp) o n)) 0 (s.pc + 4) s.checkerNext)
    ∧ (s.h.trap.status.mmstrong = false → o < 0x40000 → o % n = 0 →
        (n < 4 → ∀ x ∈ s.c.spBad, ¬ (o / 4 ≤ x ∧ x ≤ (o + n - 1) / 4)) →
        ∃ t c, exec (.ssp r a b w) s = .next t
          ∧ BecomesOn s t t.h { s.c with sp := c, spBad := s.c.spBad.filter fun x => !(decide (o ≤ 4 * x) && decide (4 * x + 4 ≤ o + n)) }
          ∧ HartDone s t.h 0 0 0 (s.pc + 4) s.checkerNext
          ∧ ∀ k, readByte c k = Spec.patched (readByte s.c.sp) o n (s.x r).toNat k)

end Sys2Proof.Machine.Claims

/-- Scratchpad loads and stores check their offset, then touch exactly their bytes (R106, R109, R145, R306). -/
def Obligations.ScratchpadAccesses : Prop :=
  Sys2Proof.Machine.Claims.ScratchpadLoad ∧ Sys2Proof.Machine.Claims.ScratchpadStore ∧ Sys2Proof.Machine.Claims.ScratchpadAccess

namespace Sys2Proof.Machine.Claims

/-- R255: one step of the fold. -/
def SignatureFold : Prop :=
  ∀ (r : BitVec 21) (w : BitVec 32),
    let q := w.toNat &&& Spec.formatMask (w.toNat / 2 ^ 26)
    (sigFold r w).toNat = Spec.rotl3 r.toNat ^^^ (q % 2 ^ 21) ^^^ (q / 2 ^ 21 * 2 ^ 10)

/-- R255: the checker's running value over a block's words, from 0, is the spec's fold. -/
def SignatureOfBlock : Prop :=
  ∀ (b : Word) (e : BitVec 21) (ws : List (BitVec 32)),
    let sig := ws.foldl (fun r w =>
      let q := w.toNat &&& Spec.formatMask (w.toNat / 2 ^ 26)
      Spec.rotl3 r ^^^ (q % 2 ^ 21) ^^^ (q / 2 ^ 21 * 2 ^ 10)) 0
    sig < 2 ^ 21 ∧ ws.foldl (fun k w => k.fold w) (Checker.armed b e 0 false) = .armed b e (BitVec.ofNat 21 sig) false

end Sys2Proof.Machine.Claims

/-- The block signature is the fold of R255 over the words of the block (R255). -/
def Obligations.SignatureFolds : Prop :=
  Sys2Proof.Machine.Claims.SignatureFold ∧ Sys2Proof.Machine.Claims.SignatureOfBlock

namespace Sys2Proof.Machine.Claims

/-- R104, R256 to R258: `bsig` compares while armed and arms the checker, every other word of the block is folded, and a difference at an
end word traps with 0x160 after the block has taken effect. That the value compared is the running one of the hart's own checker, and that a
lane thread is not checked, are R256 and R257. -/
def BlockSignature : Prop :=
  ∀ (s : State) (imm : BitVec 21), s.lane = none →
    (s.agent < 4096 → s.h.trap.status.sigen = true →
      (s.h.checker.differs = false →
        ∃ t, exec (.bsig imm) s = .next t ∧ ScalarDone s t 0 0 0 (s.pc + 4) (.armed s.pc imm 0 false))
      ∧ (s.h.checker.differs = true → Traps (.bsig imm) s 0x160 s.h.checker.block)
      ∧ (∀ b e r, s.h.checker = .armed b e r false → s.checkerNext = .armed b e (sigFold r s.word) false))
    ∧ (s.h.trap.status.sigen = false →
        s.checkerNext = .idle ∧ ∃ t, exec (.bsig imm) s = .next t ∧ ScalarDone s t 0 0 0 (s.pc + 4) .idle)
    ∧ (∀ i p rd, Spec.transfer i s = some (p, rd) → s.checkerNext.differs = true →
        ∃ u t, ScalarDone s u rd (s.pc + 4) 0 p s.checkerNext.close
          ∧ exec i s = .next t ∧ Trapped u t 0x160 s.checkerNext.block (s.pc + 4) 0)

/-- R140, R257: a word of a lane thread leaves its hart's checker as it is, and `bsig` has no effect there. -/
def LaneSignature : Prop :=
  ∀ (s : State) (imm : BitVec 21) (l : Nat) (r : LaneRegion), InLane s l r →
    s.checkerNext = s.h.checker ∧ ∃ t, exec (.bsig imm) s = .next t ∧ ScalarDone s t 0 0 0 (s.pc + 4) s.h.checker

/-- R256, R258, R259: a branch that goes the other way than its operands say, or a `jalr` that goes to another word than its target, is found by an
armed checker, which traps at M with 0x160, the word after the transfer in `mepc` and bit 0 set beside the address of the `bsig` in `mtval`; where
the checker is not armed the transfer takes control there and nothing traps (log 37). -/
def WrongTransfer : Prop :=
  ∀ (s u : State) (w : BitVec 32) (i : Instr) (p q : Word) (rd : BitVec 5), s.lane = none → s.h.lanes = none → asyncTurn s = none →
    (Spec.onTask s.h ∨ s.h.run = .firmware) → s.agent < 4096 → s.atFirmware = false → fetch s = .ok (w, u) → decode w = .ok i →
    let v := { u with word := w }
    Spec.transfer i v = some (p, rd) → q ≠ p →
    ((∃ a b off, (i = .beq a b off ∨ i = .bne a b off ∨ i = .blt a b off ∨ i = .bge a b off)
        ∧ (q = v.pc + 4 ∨ q = BitVec.ofInt 64 (v.pc.toInt + 4 * off.toInt)))
      ∨ (∃ a imm, i = .jalr rd a imm) ∧ q.toNat % 4 = 0) →
    ∃ g, ScalarDone v g rd (s.pc + 4) 0 q v.checkerNext.close
      ∧ (∀ b e r, v.checkerNext = .armed b e r false →
          ∃ t, runUpset s q = .next t ∧ Trapped g t 0x160 (b + 1) (s.pc + 4) 0)
      ∧ ((∀ b e r, v.checkerNext ≠ .armed b e r false) → runUpset s q = .next g)

end Sys2Proof.Machine.Claims

/-- bsig compares and arms the checker; a difference or a wrong transfer traps with 0x160 (R104, R256, R257, R258, R259). -/
def Obligations.BlockSignatures : Prop :=
  Sys2Proof.Machine.Claims.BlockSignature ∧ Sys2Proof.Machine.Claims.LaneSignature ∧ Sys2Proof.Machine.Claims.WrongTransfer

namespace Sys2Proof.Machine.Claims

/-- R23, R125: `vshape` grants min(request, 4096 bits / width) elements and 1, 2, 4 or 8 rows, writes the granted `vl` to rd, keeps `vstart`,
`vstop` and `vslip`, and traps on a reserved width. -/
def ShapeGrant : Prop :=
  ∀ (s : State) (rd a b : BitVec 5) (sew : BitVec 3), s.lane = none →
    (3 < sew.toNat → Traps (.vshape rd a b sew) s 0x040 (sew.setWidth 64))
    ∧ (sew.toNat ≤ 3 →
        let vl : BitVec 10 := BitVec.ofNat 10 (min (s.x a).toNat (4096 / 2 ^ (3 + sew.toNat)))
        let rows : BitVec 4 := if 8 ≤ (s.x b).toNat then 8 else if 4 ≤ (s.x b).toNat then 4 else if 2 ≤ (s.x b).toNat then 2 else 1
        let g := { s.h.shape with vl := vl, vrows := rows, sew := sew }
        ∃ t, exec (.vshape rd a b sew) s = .next t
          ∧ Becomes s t (Hart.doneAt { s.h with x := s.h.xWith rd (vl.setWidth 64), fresh := true, shape := g } s.checkerNext (s.h.pc + 4))
          ∧ Spec.ShapeOk g)

/-- R125: moves between an x register and one element named by a position in an x register; a position outside the tile is an illegal operand. -/
def ScalarVectorMoves : Prop :=
  ∀ (s : State) (a b d : BitVec 5) (c : Bool), s.lane = none → Spec.ShapeOk s.h.shape → Spec.StartOk s →
    let p := s.x b
    let w := Spec.sewOf s
    let inTile := Spec.row p < s.h.shape.vrows.toNat ∧ Spec.col p < s.h.shape.vl.toNat
    (inTile → Spec.Group s a → Spec.Joins s (Spec.claimPerm c [] (Spec.regs s a) []) →
      (∃ t, exec (.vmvx d a b c) s = .next t ∧ Spec.VectorDone s t (Spec.claimPerm c [] (Spec.regs s a) [])
        { s.h with x := s.h.xWith d (BitVec.ofInt 64 (Spec.sgn w (Spec.el s a w (Spec.row p) (Spec.col p)))) })
      ∧ (∃ t, exec (.vmvxz d a b c) s = .next t ∧ Spec.VectorDone s t (Spec.claimPerm c [] (Spec.regs s a) [])
        { s.h with x := s.h.xWith d (BitVec.ofNat 64 (Spec.el s a w (Spec.row p) (Spec.col p))) }))
    ∧ (inTile → Spec.Group s d → Spec.Joins s (Spec.claimPerm c [] [] (Spec.regs s d)) →
      ∃ t v, exec (.vmvv d a b c) s = .next t ∧ Spec.VectorDone s t (Spec.claimPerm c [] [] (Spec.regs s d)) { s.h with v := v }
        ∧ Spec.ElementsWritten s.h.v v d.toNat w (fun j e => decide (j = Spec.row p ∧ e = Spec.col p)) (fun _ _ => (s.x a).toNat))
    ∧ (¬ inTile → Spec.Group s a → Traps (.vmvx d a b c) s 0x040 p ∧ Traps (.vmvxz d a b c) s 0x040 p)
    ∧ (¬ inTile → Spec.Group s d → Traps (.vmvv d a b c) s 0x040 p)

end Sys2Proof.Machine.Claims

/-- vshape grants a shape and writes vl; element moves touch one element, which lies in the tile (R23, R26, R125). -/
def Obligations.ShapesAndMoves : Prop :=
  Sys2Proof.Machine.Claims.ShapeGrant ∧ Sys2Proof.Machine.Claims.ScalarVectorMoves

namespace Sys2Proof.Machine.Claims

/-- R24 to R26, R119 to R122, R124, R126 to R128, R131, R132, R134, R135: every vector instruction that computes element by element writes
its value at every active position at or after `vstart`, adds the flags of those positions, leaves every other element and register, clears
`vstart`, joins the convoy, and changes nothing else. -/
def VectorElements : Prop :=
  ∀ (i : Instr) (s : State) (f : Spec.ElemForm), s.lane = none → Spec.ShapeOk s.h.shape → Spec.elemForm i s = some f →
    f.legal = true → Spec.Joins s f.claim →
    ∃ t v, exec i s = .next t
      ∧ Spec.VectorDone s t f.claim { s.h with v := v, user := { s.h.user with fflags := s.h.user.fflags ||| Spec.flagsOver s f.writes f.flags } }
      ∧ Spec.ElementsWritten s.h.v v f.vd.toNat f.w f.writes f.val

end Sys2Proof.Machine.Claims

/-- Vector instructions write each active element with its value and nothing else (R25, R119, R120, R121, R122, R126, R127, R128, R131, R132, R134,
R136). -/
def Obligations.VectorElementResults : Prop :=
  Sys2Proof.Machine.Claims.VectorElements

namespace Sys2Proof.Machine.Claims

/-- R129, R130, R133: a compare or mask instruction writes one bit per active position of its mask register and leaves every other bit. -/
def VectorMasks : Prop :=
  ∀ (i : Instr) (s : State) (f : Spec.MaskForm), s.lane = none → Spec.ShapeOk s.h.shape → Spec.maskForm i s = some f →
    f.legal = true → Spec.Joins s f.claim →
    ∃ t m, exec i s = .next t
      ∧ Spec.VectorDone s t f.claim { s.h with m := m, user := { s.h.user with fflags := s.h.user.fflags ||| Spec.flagsOver s f.writes f.flags } }
      ∧ Spec.MaskWritten s.h.m m f.md f.writes f.val

/-- R130, R138: `mpop`, `mfirst` and `vexit` count and find the set bits of a mask over the tile, and `vexit` sets `vstop` to the position it found. -/
def MaskScans : Prop :=
  ∀ (s : State) (rd : BitVec 5) (a : BitVec 3) (c : Bool), s.lane = none → Spec.ShapeOk s.h.shape → Spec.StartOk s →
    let cl := Spec.claimPerm c [a.toNat] [] []
    Spec.Joins s cl →
    (∃ t, exec (.mpop rd a c) s = .next t
      ∧ Spec.VectorDone s t cl { s.h with x := s.h.xWith rd (BitVec.ofNat 64 (Spec.onesIn s true a).length) })
    ∧ (∃ t, exec (.mfirst rd a c) s = .next t
      ∧ Spec.VectorDone s t cl { s.h with x := s.h.xWith rd (Spec.firstOf s (Spec.onesIn s true a)) })
    ∧ (∃ t, exec (.vexit rd a c) s = .next t
      ∧ Spec.VectorDone s t cl { s.h with
          x := s.h.xWith rd (Spec.firstOf s (Spec.onesIn s false a))
          shape := { s.h.shape with vstop := match Spec.onesIn s false a with
            | (j, e) :: _ => BitVec.ofNat 64 (2 ^ 63 + j * 2 ^ 16 + e)
            | [] => 0 } })

end Sys2Proof.Machine.Claims

/-- Compares and mask instructions write mask bits; mask scans write an x register (R129, R130, R133, R138). -/
def Obligations.VectorMaskResults : Prop :=
  Sys2Proof.Machine.Claims.VectorMasks ∧ Sys2Proof.Machine.Claims.MaskScans

namespace Sys2Proof.Machine.Claims

/-- R123, R24, R122: an element or mask instruction whose operands break a rule of its row traps with 0x040. -/
def VectorIllegalOperand : Prop :=
  ∀ (i : Instr) (s : State), s.lane = none → Spec.ShapeOk s.h.shape →
    ((∃ f, Spec.elemForm i s = some f ∧ f.legal = false) ∨ (∃ f, Spec.maskForm i s = some f ∧ f.legal = false)) →
    ∃ tval, Traps i s 0x040 tval

/-- R33 to R37, R124: a member that clashes with an earlier member of its convoy traps with 0x042 and the address of the first such member; `u`
remembers the refusal, so that a return to it is refused again (R249, log 36). -/
def IllegalConvoy : Prop :=
  ∀ (i : Instr) (s : State) (c : Claim) (m : Member) (before after : List Member), s.lane = none → Spec.ShapeOk s.h.shape →
    ((∃ f, Spec.elemForm i s = some f ∧ f.legal = true ∧ f.claim = c) ∨ (∃ f, Spec.maskForm i s = some f ∧ f.legal = true ∧ f.claim = c)) →
    Spec.convoyBefore s c = before ++ m :: after → (∀ q ∈ before, ¬ Spec.Clash q c) → Spec.Clash m c →
    ∃ t, exec i s = .next t
      ∧ Trapped (s.setH { s.h with refused :=
          { priv := s.priv, addr := s.pc, members := Spec.convoyBefore s c } :: s.h.refused.filter fun q => decide (q.priv ≠ s.priv) })
          t 0x042 m.addr s.pc 0

end Sys2Proof.Machine.Claims

/-- Illegal vector operands trap with 0x040 and a convoy clash with 0x042 (R33, R35, R36, R37, R123). -/
def Obligations.VectorTraps : Prop :=
  Sys2Proof.Machine.Claims.VectorIllegalOperand ∧ Sys2Proof.Machine.Claims.IllegalConvoy

namespace Sys2Proof.Machine.Claims

/-- R137: an integer reduction writes the reduction of the active elements and its initial value to element 0 of vd, to element 0 of each
row, or to an x register, and nothing else. -/
def IntegerReductions : Prop :=
  ∀ (i : Instr) (s : State) (vd a x : BitVec 5) (k : BitVec 3) (c tx pr : Bool), s.lane = none → Spec.ShapeOk s.h.shape →
    Spec.intRedForm i = some (vd, a, x, k, c, tx, pr) → Spec.redLegal s vd a tx pr → Spec.Joins s (Spec.redClaim s vd a k c tx pr) →
    let w := Spec.sewOf s
    let all := Spec.reduceInt i s k a ((s.x x).toNat % 2 ^ w) (fun _ => true)
    Spec.ReducedTo i s vd (Spec.redClaim s vd a k c tx pr) w tx pr 0
      (if Spec.redUnsigned i then BitVec.ofNat 64 all else BitVec.ofInt 64 (Spec.sgn w all))
      (fun j => if pr then Spec.reduceInt i s k a ((s.x x).toNat % 2 ^ w) (fun r => decide (r = j)) else all)

/-- R72, R73, R137, R247: an ordered reduction combines in element order and an unordered one in the spec's tree, with the flags of every
combination. -/
def FloatReductions : Prop :=
  ∀ (i : Instr) (s : State) (vd a x : BitVec 5) (k : BitVec 3) (c tx pr bf : Bool) (kind : Nat), s.lane = none → Spec.ShapeOk s.h.shape →
    Spec.fpRedForm i = some (vd, a, x, k, c, tx, pr, bf, kind) → Spec.redLegal s vd a tx pr →
    (if bf then Spec.sewOf s = 16 else Spec.sewOf s ≠ 8) → Spec.Joins s (Spec.redClaim s vd a k c tx pr) →
    let f := Spec.sewFmt s bf
    let w := Spec.sewOf s
    let init := if kind = 0 ∧ s.h.shape.vstart ≠ 0 ∧ s.h.shape.vl ≠ 0 then Spec.el s vd w 0 0 else (s.x x).toNat % 2 ^ w
    let slot := fun (p : Nat × Nat) => if Spec.activeAt s k p.1 p.2 then some (Spec.el s a w p.1 p.2) else none
    let m := rndOf s.h.user.frm
    let all := Spec.reduceFp f m kind init ((Spec.tileOf s).map slot)
    let one := fun j => Spec.reduceFp f m kind init (((List.range s.h.shape.vl.toNat).map fun e => (j, e)).map slot)
    Spec.ReducedTo i s vd (Spec.redClaim s vd a k c tx pr) w tx pr
      (if pr then ((List.range s.h.shape.vrows.toNat).foldl (fun g j => g ||| (one j).2) 0) else all.2)
      (Spec.fpWord f all.1) (fun j => if pr then (one j).1 else all.1)

/-- R136: `vcompress` packs each row's active elements to the row's low end and leaves the rest of vd. -/
def Compress : Prop :=
  ∀ (s : State) (vd a : BitVec 5) (k : BitVec 3) (c : Bool) (ty : BitVec 2), s.lane = none → Spec.ShapeOk s.h.shape →
    let sel := fun j => (List.range s.h.shape.vl.toNat).filter fun e => Spec.activeAt s k j e
    let w := Spec.sewOf s
    let cl := Spec.claimPerm c [k.toNat] (Spec.regs s a) (Spec.regs s vd)
    (s.h.shape.vl = 0 ∨ s.h.shape.vstart = 0) → Spec.WidthIs s ty → Spec.Group s vd → Spec.Group s a → ¬ Spec.Overlap s vd a →
    Spec.Joins s cl →
    ∃ t v, exec (.vcompress vd a k c ty) s = .next t ∧ Spec.VectorDone s t cl { s.h with v := v }
      ∧ Spec.ElementsWritten s.h.v v vd.toNat w (fun j e => decide (j < s.h.shape.vrows.toNat ∧ e < (sel j).length))
          (fun j e => Spec.el s a w j ((sel j).getD e 0))

/-- R69, R135: `vbsq` writes each block's scale and its quantized elements, and adds the flags of both. -/
def BlockQuantize : Prop :=
  ∀ (s : State) (vd a d : BitVec 5) (k : BitVec 2) (c : Bool) (fmt : BitVec 2), s.lane = none → Spec.ShapeOk s.h.shape →
    let f := Spec.narrowFmt fmt
    let m := rndOf s.h.user.frm
    let act := Spec.activeAt s (k.setWidth 3)
    let value := fun j e => fpDecode .f32 (Spec.el s a 32 j e)
    let members := fun j b => (List.range s.h.shape.vl.toNat).filter fun e => act j e && decide (e / 32 = b)
    let scale := fun j b => blockScale f ((members j b).map (value j))
    let blocks := fun j b => decide (j < s.h.shape.vrows.toNat) && !(members j b).isEmpty
    let elem := fun j e => blockQuant f m (scale j (e / 32)).1 (value j e)
    let cl := Spec.claimWide c (k.setWidth 3) (Spec.regs s a) (Spec.regs s vd ++ Spec.regs s d)
    Spec.StartOk s → Spec.sewOf s = 32 → Spec.Group s vd → Spec.Group s a → Spec.Group s d → vd ≠ a → d ≠ vd → d ≠ a → Spec.Joins s cl →
    ∃ t v1 v2, exec (.vbsq vd a d k c fmt) s = .next t
      ∧ Spec.VectorDone s t cl { s.h with v := v2, user := { s.h.user with fflags :=
          (s.h.user.fflags ||| Spec.flagsOver s act (fun j e => (elem j e).2) ||| Spec.flagsOver s blocks (fun j b => (scale j b).2)) } }
      ∧ Spec.ElementsWritten s.h.v v1 vd.toNat (fpWidth f) act (fun j e => (elem j e).1)
      ∧ Spec.ElementsWritten v1 v2 d.toNat 8 blocks (fun j b => (scale j b).1)

end Sys2Proof.Machine.Claims

/-- Reductions, vcompress and vbsq write their results and nothing else (R69, R72, R73, R135, R136, R137, R247). -/
def Obligations.ReductionsAndPacking : Prop :=
  Sys2Proof.Machine.Claims.IntegerReductions ∧ Sys2Proof.Machine.Claims.FloatReductions ∧ Sys2Proof.Machine.Claims.Compress ∧ Sys2Proof.Machine.Claims.BlockQuantize

namespace Sys2Proof.Machine.Claims

/-- R41, R42, R231: `sget` reads the value the register has, and traps where there is no such register or the level forbids it. -/
def SystemRegisterRead : Prop :=
  ∀ (s : State) (rd : BitVec 5) (n : BitVec 12), s.lane = none →
    (∀ v, Spec.sysValue s n.toNat = some v → Spec.levelAllows s n.toNat →
      ∃ t, exec (.sget rd n) s = .next t ∧ ScalarDone s t rd v 0 (s.pc + 4) s.checkerNext)
    ∧ (Spec.sysValue s n.toNat = none ∨ ¬ Spec.levelAllows s n.toNat → Traps (.sget rd n) s 0x040 (n.setWidth 64))

/-- R41 to R49, R204, R231: `sput` changes the fields the register's map lets the level write and nothing else; `wmember` changes only channels of the
gang's set and drops the arrivals of channels it leaves (R203). That an `frm` above 7 traps by its low three bits with the whole value as `tval`, and
that a write of `spp` = 0b10 at M leaves the field, are the model's choices (log 41). -/
def SystemRegisterWrite : Prop :=
  ∀ (s : State) (r : BitVec 5) (n : BitVec 12), s.lane = none →
    (¬ Spec.writable s n.toNat ∨ ¬ Spec.levelAllows s n.toNat → Traps (.sput r n) s 0x040 (n.setWidth 64))
    ∧ (n = 0x010 → 4 < (s.x r).toNat % 8 → Traps (.sput r n) s 0x040 (s.x r))
    ∧ (Spec.writable s n.toNat → Spec.levelAllows s n.toNat → n ≠ 0x020 → ¬ (n = 0x010 ∧ 4 < (s.x r).toNat % 8) →
        let g := Spec.hartPut s.h (decide (s.priv = 3)) n.toNat (s.x r)
        ∃ t, exec (.sput r n) s = .next t ∧ Becomes s t (g.doneAt (s.setH g).checkerNext (s.pc + 4)))
    ∧ (n = 0x020 →
        let w := s.c.weir
        let m : BitVec 16 := (w.wmember &&& ~~~w.gangSet) ||| (BitVec.ofNat 16 (s.x r).toNat &&& w.gangSet)
        let a : BitVec 16 := w.arrived &&& ~~~(w.wmember &&& ~~~m)
        ∃ t, exec (.sput r n) s = .next t
          ∧ HartDone s t.h 0 0 0 (s.pc + 4) s.checkerNext ∧ (∀ k, k ≠ s.cur → t.hartOf k = s.hartOf k)
          ∧ t = { s with harts := t.harts, cores := t.cores }
          ∧ ∀ k, ∃ o, t.coreOf k =
              let c := if k = s.agent then { s.c with weir := { w with wmember := m, arrived := a } } else s.coreOf k
              { c with weir := { c.weir with owed := o } })

end Sys2Proof.Machine.Claims

/-- sget and sput read and write the system registers their level allows (R41, R42, R43, R44, R45, R47, R49, R204, R231). -/
def Obligations.SystemRegisters : Prop :=
  Sys2Proof.Machine.Claims.SystemRegisterRead ∧ Sys2Proof.Machine.Claims.SystemRegisterWrite

namespace Sys2Proof.Machine.Claims

/-- R236, R460: `halt` halts a core's hart at M, clears a core on which `sitego.clr` is pending when hart 0 halts, waits for an event on a
controller, and is privileged. Whether an event stands for a cistern is a free value (`Config.cisternEvent`, log 24). -/
def HaltInstruction : Prop :=
  ∀ (s : State), s.lane = none →
    (s.priv ≠ 3 → Traps .halt s 0x043 (s.word.setWidth 64))
    ∧ (s.priv = 3 → s.agent < 4096 → s.checkerNext.differs = false →
        ∃ t, exec .halt s = .next t
          ∧ t.h = { s.h.doneAt s.checkerNext.close (s.pc + 4) with
                    run := .halted, wait := { s.h.wait with reason := 0x11, tag := 0, peer := 0 } }
          ∧ (∀ k, k ≠ s.cur → t.hartOf k = s.hartOf k)
          ∧ (¬ (s.cur % 8 = 0 ∧ s.c.clrPending = true) → Becomes s t t.h)
          ∧ (s.cur % 8 = 0 → s.c.clrPending = true →
              BecomesOn s t t.h { s.c with sp := [], spBad := [], bootFetch := false, clrPending := false }))
    ∧ (s.priv = 3 → 4096 ≤ s.agent → s.agent < 4160 →
        ((s.basin (s.agent - 4096)).ncev ≠ [] → ∃ t, exec .halt s = .next t ∧ ScalarDone s t 0 0 0 (s.pc + 4) .idle)
        ∧ ((s.basin (s.agent - 4096)).ncev = [] → ∃ t, exec .halt s = .next t
            ∧ Becomes s t { s.h with wait := { s.h.wait with reason := 0x11, tag := 0, peer := 0 } }))
    ∧ (s.priv = 3 → 4160 ≤ s.agent →
        let u := { s with freeCtr := s.freeCtr + 1 }
        ∃ t, exec .halt s = .next t
          ∧ (Config.cisternEvent s.freeCtr = true → ScalarDone u t 0 0 0 (s.pc + 4) .idle)
          ∧ (Config.cisternEvent s.freeCtr = false →
              Becomes u t { s.h with wait := { s.h.wait with reason := 0x11, tag := 0, peer := 0 } }))

end Sys2Proof.Machine.Claims

/-- halt stops a core's hart at M, waits for an event on a controller, and traps below M (R236, R270, R460). -/
def Obligations.HaltInstruction : Prop :=
  Sys2Proof.Machine.Claims.HaltInstruction

namespace Sys2Proof.Machine.Claims

/-- R151 to R156: a vector load whose checks pass writes the bytes its core sees to every active element and leaves every other element. -/
def VectorLoads : Prop :=
  ∀ (i : Instr) (s : State) (f : Spec.VecAccess), s.lane = none → Spec.ShapeOk s.h.shape → Spec.vecLoadForm i s = some f →
    f.legal = true → Spec.Joins s f.claim → s.mem.wf = true → Spec.StoresInLine s s.agent →
    Spec.NoFault s f → (∀ p ∈ f.at_, Spec.elementClean s f.acc p.1 p.2) →
    ∃ t v, exec i s = .next t
      ∧ Spec.Reads s t (Spec.vectorHart s f.claim { s.h with v := v })
      ∧ (f.acc.token = 0 → Spec.VectorDone s t f.claim { s.h with v := v })
      ∧ Spec.ElementsWritten s.h.v v f.reg.toNat (8 * f.acc.w) (fun j e => decide ((j, e) ∈ f.at_)) (fun j e => Spec.elementAt s f.acc j e)

/-- R166: `vfill` of a mask register reads it whole; `vfill` of m0 traps. -/
def MaskFill : Prop :=
  ∀ (s : State) (vd base kind : BitVec 5) (token : BitVec 3) (conv : Bool), s.lane = none → kind ≠ 0 →
    let f := Spec.formMaskFrame s false vd base token conv
    (vd = 0 → Traps (.vfill vd base kind token conv) s 0x040 0)
    ∧ (vd ≠ 0 → vd.toNat < 8 → Spec.Joins s f.claim → s.mem.wf = true → Spec.StoresInLine s s.agent → Spec.NoFault s f →
      (∀ p ∈ f.at_, Spec.elementClean s f.acc p.1 p.2) →
      ∃ t m, exec (.vfill vd base kind token conv) s = .next t
        ∧ Spec.Reads s t (Spec.vectorHart s f.claim { s.h with m := m })
        ∧ (∀ k b, k < 128 → b < 64 →
            (m.get (vd.setWidth 3).toFin).getLsbD (64 * k + b) = decide (Spec.elementAt s f.acc 0 k / 2 ^ b % 2 = 1))
        ∧ (∀ r, r ≠ (vd.setWidth 3).toFin → m.get r = s.h.m.get r))

end Sys2Proof.Machine.Claims

/-- Vector loads write each active element with the bytes their core sees (R151, R152, R153, R156, R166). -/
def Obligations.VectorLoads : Prop :=
  Sys2Proof.Machine.Claims.VectorLoads ∧ Sys2Proof.Machine.Claims.MaskFill

namespace Sys2Proof.Machine.Claims

/-- R151 to R159, R166, R306: a vector store whose checks pass leaves in memory, or in the scratchpad, exactly the bytes of its active elements in
element order, in strong mode after the core's earlier stores to device memory; an unordered store says so where its elements do not overlap. -/
def VectorStores : Prop :=
  ∀ (i : Instr) (s : State) (f : Spec.VecAccess), s.lane = none → s.agent < 4096 → Spec.ShapeOk s.h.shape →
    Spec.vecStoreForm i s = some f → f.legal = true → Spec.Joins s f.claim → Spec.NoFault s f →
    (f.unord = true → Spec.Disjoint s f) →
    (f.acc.token = 0 → s.c.sp.wf = true → s.c.spBad = [] →
      ∃ t sp, exec i s = .next t
        ∧ (∃ n, BecomesOn { Spec.inMode s with freeCtr := n } t (Spec.vectorHart s f.claim s.h) { (Spec.inMode s).c with sp := sp })
        ∧ ∀ a, readByte sp a = Spec.spAfter s f a)
    ∧ (f.acc.token ≠ 0 → s.mem.wf = true → s.hostMem.wf = true → Spec.StoresInLine s s.agent →
      (∀ p ∈ Spec.storePlaces s f, ∀ h, p.1 = .host h → hostRefuses s s.agent h true = false) →
      (∀ q ∈ s.c.pstores, ∀ h, q.loc = .host h → hostRefuses s s.agent h true = false) →
      ∃ t, exec i s = .next t ∧ t.h = Spec.vectorHart s f.claim s.h
        ∧ (∀ k, k ≠ s.cur → t.hartOf k = s.hartOf k) ∧ (∀ k, (t.coreOf k).sp = (s.coreOf k).sp)
        ∧ (∀ a, Spec.sees t s.agent a = Spec.devAfter f.acc.w (Spec.storePlaces s f) (Spec.sees s s.agent) a)
        ∧ (∀ a, Spec.seesHost t s.agent a = Spec.hostAfter f.acc.w (Spec.storePlaces s f) (Spec.seesHost s s.agent) a)
        ∧ t = { s with harts := t.harts, cores := t.cores, mem := t.mem, poison := t.poison, hostMem := t.hostMem, freeCtr := t.freeCtr
                       hostif := { s.hostif with held := t.hostif.held } })

end Sys2Proof.Machine.Claims

/-- Vector stores change exactly the bytes of their active elements (R151, R152, R157, R158, R159, R306). -/
def Obligations.VectorStores : Prop :=
  Sys2Proof.Machine.Claims.VectorStores

namespace Sys2Proof.Machine.Claims

/-- R162 to R165, R248: a vector atomic performs its active positions in element order, adds the flags, and writes no register; a repeated
address in a distinct-index form traps with 0x083 at that position, with `vstart` there and the earlier positions performed. -/
def VectorAtomics : Prop :=
  ∀ (i : Instr) (s : State) (f : Spec.VecAccess) (dup : Bool) (op : Nat → Nat → Nat → Nat × Flags), s.lane = none →
    Spec.ShapeOk s.h.shape → Spec.atomAccess i s = some (f, dup) → Spec.atomOp i s = some op → f.legal = true →
    Spec.Joins s f.claim → s.mem.wf = true → Spec.StoresInLine s s.agent → Spec.NoFault s f → f.acc.token ≠ 0 →
    (∀ p ∈ f.at_, ∃ pa, f.acc.loc s p.1 p.2 = .dev pa ∧ poisonAt s pa f.acc.w = none) →
    ((dup = true ∨ (f.at_.map fun p => f.acc.addr s p.1 p.2).Nodup) →
      let r := Spec.atomAfter s f op f.at_ (Spec.sees s s.agent)
      ∃ t, exec i s = .next t
        ∧ t.h = Spec.vectorHart s f.claim { s.h with user := { s.h.user with fflags := s.h.user.fflags ||| r.2 } }
        ∧ (∀ k, k ≠ s.cur → t.hartOf k = s.hartOf k) ∧ (∀ k, (t.coreOf k).sp = (s.coreOf k).sp)
        ∧ t.hostMem = s.hostMem ∧ ∀ a, Spec.sees t s.agent a = r.1 a)
    ∧ (dup = false → ∀ before q after, f.at_ = before ++ q :: after →
      (before.map fun p => f.acc.addr s p.1 p.2).Nodup → f.acc.addr s q.1 q.2 ∈ before.map (fun p => f.acc.addr s p.1 p.2) →
      let r := Spec.atomAfter s f op before (Spec.sees s s.agent)
      ∃ u t, exec i s = .next t
        ∧ Trapped u t 0x083 (BitVec.ofNat 64 (q.1 * 2 ^ 16 + q.2)) s.pc 0
        ∧ u.h = { s.h with
            user := { s.h.user with fflags := s.h.user.fflags ||| r.2 }
            shape := { s.h.shape with vstart := BitVec.ofNat 64 (q.1 * 2 ^ 16 + q.2) } }
        ∧ (∀ k, k ≠ s.cur → t.hartOf k = s.hartOf k) ∧ (∀ k, (t.coreOf k).sp = (s.coreOf k).sp)
        ∧ t.hostMem = s.hostMem ∧ ∀ a, Spec.sees t s.agent a = r.1 a)

end Sys2Proof.Machine.Claims

/-- Vector atomics perform their active positions in element order (R162, R163, R164, R165, R248). -/
def Obligations.VectorAtomics : Prop :=
  Sys2Proof.Machine.Claims.VectorAtomics

namespace Sys2Proof.Machine.Claims

/-- R147, R148: `vpin` binds a token to a range or traps, `vunpin` frees it, and both wait while a request holds the token. -/
def PinBinding : Prop :=
  ∀ (s : State) (perm : BitVec 3) (base len : BitVec 5) (token : BitVec 3), s.lane = none →
    let page := fun (p : Page) => ({ va := p.va, size := p.size, pa := p.pa, replica := decide (p.mtype = 1) } : PinPage)
    let bound := fun (ps : List Page) =>
      ({ base := s.x base, len := (s.x len).toNat, perms := perm, holds := [], pages := ps.map page } : Pin)
    let held := fun (n : BitVec 3) => (s.c.requestsOf s.hartNo s.h.serial).any fun r => decide (r.token = n)
    (held token = true → ∀ i, i = .vpin perm base len token ∨ i = .vunpin token →
      ∃ t, exec i s = .next t ∧ Becomes s t { s.h with wait := { s.h.wait with reason := 0x01, tag := 0, peer := 0 } })
    ∧ (held token = false →
      (∃ t, exec (.vunpin token) s = .next t
        ∧ Becomes s t (Hart.doneAt { s.h with pins := s.h.pins.set token.toNat none token.isLt } s.checkerNext (s.h.pc + 4)))
      ∧ (s.x len = 0 ∨ 2 ^ 40 < (s.x len).toNat → Traps (.vpin perm base len token) s 0x040 (s.x len))
      ∧ ∀ ps, vpinCheck s perm (s.x base) (s.x len) token = .ok ps →
          ∃ t, exec (.vpin perm base len token) s = .next t
            ∧ t.h = Hart.doneAt { s.h with pins := s.h.pins.set token.toNat (some (bound ps)) token.isLt } s.checkerNext (s.h.pc + 4)
            ∧ (s.priv = 3 → Becomes s t t.h) ∧ ∀ k, k ≠ s.cur → t.hartOf k = s.hartOf k)

/-- R146, R147: the pages of a pin cover its whole range, within the limits on pins and pages. -/
def PinCoversRange : Prop :=
  ∀ (s : State) (perm token : BitVec 3) (base len : Word) (ps : List Page), vpinCheck s perm base len token = .ok ps →
    len ≠ 0 ∧ len.toNat ≤ 2 ^ 40 ∧ s.h.pins.get token.toFin = none
      ∧ (pinsOf s s.agent).length < 32 ∧ ((pinsOf s s.agent).map fun p => p.pages.length).sum + ps.length ≤ 256
      ∧ (∀ p ∈ ps, p.mtype ≠ 2)
      ∧ ∀ a, base.toNat ≤ a → a < base.toNat + len.toNat → ∃ p ∈ ps, p.va ≤ a ∧ a < p.va + p.size

/-- R161: a chunk-wait load loads the elements whose chunks have arrived, and waits at the first whose chunk has not, with `vstart` there. -/
def ChunkWaitLoads : Prop :=
  ∀ (i : Instr) (s : State) (f : Spec.VecAccess) (mc : BitVec 3) (chunk : Nat → Nat → Nat), s.lane = none → Spec.ShapeOk s.h.shape →
    Spec.chunkForm i s = some (f, mc, chunk) → f.legal = true → Spec.Joins s f.claim → s.mem.wf = true → Spec.StoresInLine s s.agent →
    Spec.NoFault s f → (∀ p ∈ f.at_, chunk p.1 p.2 < 8192) →
    let ready := fun (p : Nat × Nat) => Spec.arrived s mc (chunk p.1 p.2)
    (∀ p ∈ f.at_, ready p = true → Spec.elementClean s f.acc p.1 p.2) →
    ((∀ p ∈ f.at_, ready p = true) →
      ∃ t v, exec i s = .next t ∧ Spec.Reads s t (Spec.vectorHart s f.claim { s.h with v := v })
        ∧ Spec.ElementsWritten s.h.v v f.reg.toNat (8 * f.acc.w) (fun j e => decide ((j, e) ∈ f.at_)) (fun j e => Spec.elementAt s f.acc j e))
    ∧ (∀ before p after, f.at_ = before ++ p :: after → (∀ q ∈ before, ready q = true) → ready p = false →
      ∃ t v, exec i s = .next t
        ∧ Spec.Reads s t { s.h with
            v := v, shape := { s.h.shape with vstart := BitVec.ofNat 64 (p.1 * 2 ^ 16 + p.2) }
            wait := { s.h.wait with reason := 0x09, tag := mc.setWidth 6, peer := 0 } }
        ∧ Spec.ElementsWritten s.h.v v f.reg.toNat (8 * f.acc.w) (fun j e => decide ((j, e) ∈ before)) (fun j e => Spec.elementAt s f.acc j e))

end Sys2Proof.Machine.Claims

/-- vpin and vunpin bind and free tokens; chunk-wait loads wait for their chunks (R146, R147, R148, R161). -/
def Obligations.PinsAndChunkWaits : Prop :=
  Sys2Proof.Machine.Claims.PinBinding ∧ Sys2Proof.Machine.Claims.PinCoversRange ∧ Sys2Proof.Machine.Claims.ChunkWaitLoads

namespace Sys2Proof.Machine.Claims

/-- R70, R71, R168 to R174: a multiply writes every element of its C group with the product over its A and B operands and adds the flags. -/
def MatrixMultiply : Prop :=
  ∀ (i : Instr) (s : State) (f : Spec.MatForm), s.lane = none → Spec.ShapeOk s.h.shape → Spec.matForm i = some f →
    f.legal s → f.image s → Spec.Joins s (f.claim s) →
    let w := (Spec.matFmt f.code).acc
    let val := fun j e => Spec.matValue s f.code f.va f.vb f.fromSp f.col f.bs (if f.zero then 0 else Spec.el s f.vc w j e) j e
    let all := fun j e => decide (j < s.h.shape.vrows.toNat ∧ e < s.h.shape.vl.toNat)
    let fl := s.h.user.fflags ||| Spec.flagsOver s all (fun j e => (val j e).2)
    ∃ t v, exec i s = .next t
      ∧ Spec.VectorDone s t (f.claim s) { s.h with v := v, user := { s.h.user with fflags := fl } }
      ∧ Spec.ElementsWritten s.h.v v f.vc.toNat w all (fun j e => (val j e).1)

/-- R179, R180: `mzero` clears the C group; `mcvt` converts it, stochastically in the `.sr` form. -/
def MatrixConvert : Prop :=
  ∀ (s : State) (vc vd code : BitVec 5) (c : Bool), s.lane = none → Spec.ShapeOk s.h.shape →
    (s.h.shape.vl = 0 ∨ s.h.shape.vstart = 0) → Spec.Group s vc →
    let all := fun j e => decide (j < s.h.shape.vrows.toNat ∧ e < s.h.shape.vl.toNat)
    let c0 : Claim := { conv := c, units := 8, cross := true, rv := [], rm := [], wv := Spec.regs s vc, wm := [] }
    let cl : Claim := { conv := c, units := 8, cross := true, rv := Spec.regs s vc, rm := [], wv := Spec.regs s vd, wm := [] }
    let draw := fun (v j e : Nat) =>
      let n := BitVec.ofNat 32 (v % 2 ^ 32) ^^^ BitVec.ofNat 32 (v / 2 ^ 32)
      srDraw s.h.user.srseed (BitVec.ofNat 64 (2 ^ 63 + vd.toNat * 2 ^ 14 + j * 2 ^ 11 + e)) n
    let val := fun (sr : Bool) j e =>
      let v := Spec.el s vc (Spec.sewOf s) j e
      Spec.converted s code (if sr then some (draw v j e) else none) v
    (Spec.sewOf s = (Spec.matFmt code).acc → Spec.Joins s c0 →
      ∃ t v, exec (.mzero vc code c) s = .next t ∧ Spec.VectorDone s t c0 { s.h with v := v }
        ∧ Spec.ElementsWritten s.h.v v vc.toNat (Spec.sewOf s) all (fun _ _ => 0))
    ∧ (Spec.sewOf s = (if code = 1 then 64 else 32) → Spec.Group s vd → Spec.Joins s cl →
      ∀ i sr, (i = .mcvt vc vd code c ∧ sr = false) ∨ (i = .mcvtSr vc vd code c ∧ sr = true) →
        ∃ t v, exec i s = .next t
          ∧ Spec.VectorDone s t cl { s.h with v := v, user := { s.h.user with fflags := s.h.user.fflags ||| Spec.flagsOver s all (fun j e => (val sr j e).2) } }
          ∧ Spec.ElementsWritten s.h.v v vd.toNat (fpWidth (Spec.toFmt code)) all (fun j e => (val sr j e).1))

/-- R181 to R183: `mdrain` checks its destination in the spec's order, then hands over one message with the converted rows, waits while there
is no room for it, and clears the group in the `z` form. -/
def MatrixDrain : Prop :=
  ∀ (i : Instr) (s : State) (z : Bool) (vc xc xm code : BitVec 5) (c : Bool), s.lane = none → Spec.ShapeOk s.h.shape →
    (z = false ∧ i = .mdrain vc xc xm code c ∨ z = true ∧ i = .mdrainz vc xc xm code c) →
    (s.h.shape.vl = 0 ∨ s.h.shape.vstart = 0) → Spec.Group s vc →
    (if code = 0 then Spec.sewOf s = 64 else if code = 1 then Spec.sewOf s = 32 ∨ Spec.sewOf s = 64 else Spec.sewOf s = 32) →
    coordOk (s.x xc) = true → (s.x xm).toNat < 2 ^ 29 →
    let cl : Claim := { conv := c, units := 8, cross := true, rv := Spec.regs s vc, rm := [], wv := if z then Spec.regs s vc else [], wm := [] }
    let off := (s.x xm).toNat % 2 ^ 18
    Spec.Joins s cl →
    (off % 512 ≠ 0 → Traps i s 0x0E0 (BitVec.ofNat 64 off))
    ∧ (off % 512 = 0 → 0x40000 < off + 512 * s.h.shape.vrows.toNat → Traps i s 0x0E2 (BitVec.ofNat 64 off))
    ∧ (off % 512 = 0 → off + 512 * s.h.shape.vrows.toNat ≤ 0x40000 →
      (inReach s ((s.x xc).setWidth 32) = false → Traps i s 0x104 (s.x xc))
      ∧ (inReach s ((s.x xc).setWidth 32) = true →
        let data := Spec.drainBytes s vc code
        let w := fpWidth (Spec.toFmt code)
        let m := { newMessage s ((s.x xc).setWidth 32) (BitVec.ofNat 64 ((s.x xm).toNat + data.length * 2 ^ 32)) 3 data with
                   rownib := BitVec.ofNat 16 (s.h.shape.vl.toNat * w / 4) }
        (s.h.shape.vl = 0 → ∃ t, exec i s = .next t ∧ Spec.VectorDone s t cl s.h)
        ∧ (s.h.shape.vl ≠ 0 → hand s s.agent m = none → ∃ t, exec i s = .next t
            ∧ Becomes s t { s.h with wait := { s.h.wait with reason := 0x05, tag := 0, peer := 0 } })
        ∧ (s.h.shape.vl ≠ 0 → ∀ u, hand s s.agent m = some u →
            let all := fun j e => decide (j < s.h.shape.vrows.toNat ∧ e < s.h.shape.vl.toNat)
            let flags := Spec.flagsOver s all fun j e => (Spec.converted s code none (Spec.el s vc (Spec.sewOf s) j e)).2
            ∃ t v, exec i s = .next t
              ∧ Becomes u t (Spec.vectorHart s cl { s.h with v := v, user := { s.h.user with fflags := s.h.user.fflags ||| flags } })
              ∧ Spec.ElementsWritten s.h.v v vc.toNat (Spec.sewOf s) (fun j e => z && all j e) (fun _ _ => 0))))

end Sys2Proof.Machine.Claims

/-- Matrix multiplies, zero, conversions and drains write their group or send it (R173, R174, R179, R180, R181, R182). -/
def Obligations.MatrixInstructions : Prop :=
  Sys2Proof.Machine.Claims.MatrixMultiply ∧ Sys2Proof.Machine.Claims.MatrixConvert ∧ Sys2Proof.Machine.Claims.MatrixDrain

namespace Sys2Proof.Machine.Claims

/-- R71: the accumulation of a narrow matrix product is the exact sum, rounded once to FP32 in RNE. -/
def ExactAccumulation : Prop :=
  ∀ (c : FVal) (ab : List (FVal × FVal)),
    (∃ n m e, c = .fin n m e) → (∀ p ∈ ab, (∃ n m e, p.1 = .fin n m e) ∧ ∃ n m e, p.2 = .fin n m e) →
    let q : Rat := Spec.ratOf c + (ab.map fun p => Spec.ratOf p.1 * Spec.ratOf p.2).sum
    (q = 0 → (exactDot c ab).1 % 2 ^ 31 = 0)
    ∧ (q ≠ 0 → ∃ (m : Nat) (e : Int), |q| = (m : Rat) * (2 : Rat) ^ e ∧ exactDot c ab = roundTo .f32 false .rne (decide (q < 0)) m e false)

end Sys2Proof.Machine.Claims

/-- A narrow matrix product is the exact sum rounded once (R71). -/
def Obligations.ExactAccumulation : Prop :=
  Sys2Proof.Machine.Claims.ExactAccumulation

namespace Sys2Proof.Machine.Claims

/-- R139: `lsplit` checks its operands, waits for the lane buffer, and starts the lanes of its mask at the region's first word. -/
def LaneSplit : Prop :=
  ∀ (s : State) (a b : BitVec 5) (k : BitVec 3), s.lane = none →
    let n := (s.x b).toNat
    let started := fun (l : Nat) => Spec.bitIn s.h.m k 0 l
    (n = 0 ∨ 256 < n → Traps (.lsplit a b k) s 0x040 (s.x b))
    ∧ (0 < n → n ≤ 256 → (s.x a).toNat % 4 ≠ 0 → Traps (.lsplit a b k) s 0x041 (s.x a))
    ∧ (0 < n → n ≤ 256 → (s.x a).toNat % 4 = 0 →
      ((∀ l, l < 16 → started l = false) → ∃ t, exec (.lsplit a b k) s = .next t ∧ ScalarDone s t 0 0 0 (s.pc + 4) s.checkerNext)
      ∧ (∀ l, l < 16 → started l = true →
        (∀ h, h ≠ s.hartNo → s.c.laneHolder = some h ∨ (s.c.laneHolder = none ∧ s.c.laneWait.head? = some h) →
          ∃ t w, exec (.lsplit a b k) s = .next t
            ∧ BecomesOn s t { s.h with wait := { s.h.wait with reason := 0x0D, tag := BitVec.ofNat 6 h, peer := 0 } } { s.c with laneWait := w }
            ∧ s.hartNo ∈ w)
        ∧ (∀ u ws, (s.c.laneHolder = none ∨ s.c.laneHolder = some s.hartNo) →
            (s.c.laneWait.head? = none ∨ s.c.laneWait.head? = some s.hartNo) → fetchWords s (s.x a) n = .ok (ws, u) →
            ∃ t r, exec (.lsplit a b k) s = .next t
              ∧ t.h = { s.h.doneAt s.checkerNext s.h.pc with
                        lanes := some r, trap := { s.h.trap with status := { s.h.trap.status with lthr := true } } }
              ∧ r.base = s.x a ∧ r.n = ws.length ∧ ws.length = n
              ∧ (∀ l : Fin 16, r.lanes.get l = { started := started l.val, joined := false, pc := s.x a })
              ∧ t.c = { u.c with laneBuf := ws, laneHolder := some s.hartNo, laneWait := u.c.laneWait.filter (· ≠ s.hartNo) }
              ∧ (∀ j, j ≠ s.cur → t.hartOf j = s.hartOf j) ∧ ∀ j, (t.coreOf j).sp = (s.coreOf j).sp)))

/-- R141, R33: `ljoin` stops its lane; the hart goes on when every started lane has joined, and its next vector instruction starts a convoy. -/
def LaneJoin : Prop :=
  ∀ (s : State) (l : Nat) (r : LaneRegion), InLane s l r →
    ((∀ k : Fin 16, k.val ≠ l → (r.lanes.get k).started = true → (r.lanes.get k).joined = true) →
      ∃ t, exec .ljoin s = .next t
        ∧ BecomesOn s t (Hart.doneAt { s.h with
              lanes := none, convoy := [], fresh := true, trap := { s.h.trap with status := { s.h.trap.status with lthr := false } } }
            s.h.checker (s.h.pc + 4)) { s.c with laneHolder := none })
    ∧ (∀ k : Fin 16, k.val ≠ l → (r.lanes.get k).started = true → (r.lanes.get k).joined = false →
      ∃ t ls, exec .ljoin s = .next t ∧ Becomes s t { s.h with lanes := some { r with lanes := ls } }
        ∧ ∀ j : Fin 16, ls.get j = if j.val = l then { r.lanes.get j with joined := true } else r.lanes.get j)

/-- R38, R85, R140, R142: a lane thread runs lane words inside its region; an illegal encoding traps as such, and any other word outside the subset,
a transfer out of the region, and a lane that runs past its end (log 41) trap with 0x040 and the lane's number. -/
def LaneConfinement : Prop :=
  ∀ (s : State) (l : Nat) (r : LaneRegion), s.lane = none → l < 16 → s.h.lanes = some r →
    (r.lanes.get (Fin.ofNat 16 l)).started = true → (r.lanes.get (Fin.ofNat 16 l)).joined = false →
    let u := { s with lane := some l }
    (u.pc.toNat < r.base.toNat ∨ r.base.toNat + 4 * r.n ≤ u.pc.toNat →
      ∃ t, runLane s l = .next t ∧ Trapped u t 0x040 (BitVec.ofNat 64 l) u.pc 0)
    ∧ (∀ w, laneFetch u r = some w →
      let v := { u with word := w }
      let i := instrOfWord w
      let inside := fun (p : Word) => r.base.toNat ≤ p.toNat ∧ p.toNat < r.base.toNat + 4 * r.n
      (subOf w.toNat ≠ 0 → ∃ t, runLane s l = .next t
        ∧ Trapped v t (BitVec.ofNat 9 (w.toNat / 2 ^ 26)) (BitVec.ofNat 64 (w.toNat + 2 ^ 32 * subOf w.toNat)) u.pc 0)
      ∧ (subOf w.toNat = 0 → w.toNat / 2 ^ 26 > 0x1B → ¬ (w.toNat / 2 ^ 26 = 0x2F ∧ w.toNat % 128 = 1) →
        ∃ t, runLane s l = .next t ∧ Trapped u t 0x040 (BitVec.ofNat 64 l) u.pc 0)
      ∧ (laneWord w = true →
        (∀ p, Spec.taken i v = some p → ¬ inside p → ∃ t, runLane s l = .next t ∧ Trapped u t 0x040 (BitVec.ofNat 64 l) u.pc 0)
        ∧ ((∀ p, Spec.taken i v = some p → inside p) → ∀ t, exec i v = .next t → runLane s l = .next { t with lane := none })))

end Sys2Proof.Machine.Claims

/-- lsplit starts lane threads, ljoin ends them, and they stay in their region (R33, R38, R85, R139, R140, R141, R142). -/
def Obligations.LaneRegions : Prop :=
  Sys2Proof.Machine.Claims.LaneSplit ∧ Sys2Proof.Machine.Claims.LaneJoin ∧ Sys2Proof.Machine.Claims.LaneConfinement

namespace Sys2Proof.Machine.Claims

/-- R184 to R189, R85: a send checks the coordinate, the descriptor, its length and its scratchpad range in that order, consumes the poison of the bytes
it reads (the lowest word's, log 41), checks its reach, then hands the message over, or waits while there is no room. -/
def MessageSend : Prop :=
  ∀ (i : Instr) (s : State) (f : Spec.SendForm), s.lane = none → Spec.sendForm i s = some f →
    let bad := fun (x : Nat) => f.reads.1 / 4 ≤ x ∧ 4 * x < f.reads.1 + f.reads.2
    (¬ Spec.coordValid f.dst → Traps i s 0x040 f.dst)
    ∧ (Spec.coordValid f.dst → ¬ (Spec.descValid f.desc ∧ f.lenOk) → Traps i s 0x040 f.desc)
    ∧ (Spec.coordValid f.dst → Spec.descValid f.desc → f.lenOk →
      (∀ c v, f.range = some (c, v) → Traps i s c v)
      ∧ (f.range = none → ∀ x ∈ s.c.spBad, bad x → (∀ y ∈ s.c.spBad, bad y → x ≤ y) →
          ∃ t, exec i s = .next t ∧ Trapped s t 0x143 (BitVec.ofNat 64 (4 * x)) s.pc (BitVec.ofNat 64 (2 ^ 63)))
      ∧ (f.range = none → (∀ x ∈ s.c.spBad, ¬ bad x) → inReach s (f.dst.setWidth 32) = false → Traps i s 0x104 f.dst)
      ∧ (f.range = none → inReach s (f.dst.setWidth 32) = true → (∀ x ∈ s.c.spBad, ¬ bad x) →
        let m := Spec.messageOf s (f.dst.setWidth 32) f.desc f.kind f.width f.data
        (∀ u, hand s s.agent m = some u → ∃ t, exec i s = .next t ∧ Becomes u t (s.h.doneAt s.checkerNext (s.h.pc + 4)))
        ∧ (hand s s.agent m = none → ∃ t, exec i s = .next t
            ∧ Becomes s t { s.h with wait := { s.h.wait with reason := 0x05, tag := 0, peer := 0 } })))

/-- R308, R311, R312, R316: a message inside the die goes to the mesh; any other takes the next `seq` of its stream and is cut into fragments, which
are on their way inside the package or out of it (log 33), within 32 retained messages a stream and 1,024 a die. -/
def MessageHandover : Prop :=
  ∀ (s : State) (site : Nat) (m : Message),
    (coordPkg m.dst = s.hostif.regs.pkgid.toNat → dieOfCoord m.dst = dieOfAgent site → hand s site m = some { s with net := s.net ++ [m] })
    ∧ (¬ (coordPkg m.dst = s.hostif.regs.pkgid.toNat ∧ dieOfCoord m.dst = dieOfAgent site) → dieOfAgent site < 4 →
      let sp := (s.die (dieOfAgent site)).spray
      let tx := smGet StreamTx.reset (4 * coordPkg m.dst + dieOfCoord m.dst) sp.tx
      (32 ≤ tx.retained.length ∨ 1024 ≤ (sp.tx.map fun e => e.2.retained.length).sum → hand s site m = none)
      ∧ (tx.retained.length < 32 → (sp.tx.map fun e => e.2.retained.length).sum < 1024 →
        ∃ u r, hand s site m = some u
          ∧ r.seq = tx.next ∧ r.msg = m ∧ r.answered = false
          ∧ smGet StreamTx.reset (4 * coordPkg m.dst + dieOfCoord m.dst) (u.die (dieOfAgent site)).spray.tx
              = { next := tx.next + 1, retained := tx.retained ++ [r] }
          ∧ (∀ d, d < 4 → d ≠ dieOfAgent site → u.die d = s.die d)
          ∧ u = { s with dies := u.dies, frags := u.frags, outFrags := u.outFrags }
          ∧ ∃ l, (∀ f ∈ l, f.frag.seq = tx.next ∧ f.frag.src = m.src)
            ∧ if coordPkg m.dst = s.hostif.regs.pkgid.toNat then u.frags = s.frags ++ l ∧ u.outFrags = s.outFrags
              else u.frags = s.frags ∧ u.outFrags = s.outFrags ++ l))

/-- R192, R193, R272, R322: `mwait` waits in its FIFO, then for its count; it traps on a loss or an overflow, and otherwise takes the count. -/
def MailboxWait : Prop :=
  ∀ (s : State) (rd xe tag : BitVec 5), s.lane = none →
    let mail := s.c.mail
    let old := mail.fifos.get tag.toFin
    let queue := if old.contains s.hartNo then old else old ++ [s.hartNo]
    let left := queue.filter (· ≠ s.hartNo)
    let n := (s.x xe).toNat % 2 ^ 32
    let v := (mail.counters.get tag.toFin).toNat
    let with_ := fun (q : List Nat) => { mail with fifos := mail.fifos.set tag.toNat q tag.isLt }
    (queue.head? ≠ some s.hartNo → ∃ t, exec (.mwait rd xe tag) s = .next t
      ∧ BecomesOn s t { s.h with wait := { s.h.wait with reason := 0x03, tag := tag.setWidth 6, peer := 0 } } { s.c with mail := with_ queue })
    ∧ (queue.head? = some s.hartNo →
      (∀ a l b, mail.losses = a ++ (tag, l) :: b → (∀ p ∈ a, p.1 ≠ tag) →
        ∃ u t, exec (.mwait rd xe tag) s = .next t ∧ Trapped u t 0x102 l s.pc 0
          ∧ BecomesOn s u s.h { s.c with mail := { with_ left with losses := a ++ b } })
      ∧ ((∀ p ∈ mail.losses, p.1 ≠ tag) →
        (v < n → ∃ t peer, exec (.mwait rd xe tag) s = .next t
          ∧ BecomesOn s t { s.h with wait := { s.h.wait with reason := 0x02, tag := tag.setWidth 6, peer := peer } } { s.c with mail := with_ queue })
        ∧ (n ≤ v → mail.overflow.getLsbD tag.toNat = true →
          ∃ u t, exec (.mwait rd xe tag) s = .next t ∧ Trapped u t 0x103 (tag.setWidth 64) s.pc 0
            ∧ BecomesOn s u s.h { s.c with mail := { with_ left with overflow := mail.overflow &&& ~~~((1 : BitVec 32) <<< tag.toNat) } })
        ∧ (n ≤ v → mail.overflow.getLsbD tag.toNat = false →
          ∃ t, exec (.mwait rd xe tag) s = .next t
            ∧ BecomesOn s t t.h { s.c with mail := { with_ left with counters := mail.counters.set tag.toNat (BitVec.ofNat 32 (v - n)) tag.isLt } }
            ∧ HartDone s t.h rd (BitVec.ofNat 64 (v - n)) 0 (s.pc + 4) s.checkerNext)))

/-- R188, R194: `mcount` reads a counter and its overflow bit; `locq` returns a placement of its own package at once, and that of another package by a
query. That the query, a message of kind 6, carries no payload is the model's choice (log 16). -/
def MailboxCountAndPlacement : Prop :=
  ∀ (s : State) (rd xc tag : BitVec 5), s.lane = none →
    (∃ t, exec (.mcount rd tag) s = .next t
      ∧ ScalarDone s t rd (BitVec.ofNat 64 ((if s.c.mail.overflow.getLsbD tag.toNat then 2 ^ 32 else 0) + (s.c.mail.counters.get tag.toFin).toNat)) 0
          (s.pc + 4) s.checkerNext)
    ∧ (¬ Spec.coordValid (s.x xc) → Traps (.locq rd xc) s 0x040 (s.x xc))
    ∧ (Spec.coordValid (s.x xc) → inReach s ((s.x xc).setWidth 32) = false → Traps (.locq rd xc) s 0x104 (s.x xc))
    ∧ (Spec.coordValid (s.x xc) → inReach s ((s.x xc).setWidth 32) = true →
      let own := s.hostif.regs.pkgid.toNat
      let c := realCoord s ((s.x xc).setWidth 32)
      let e := remapOf s c
      (coordPkg c = own → ∃ t, exec (.locq rd xc) s = .next t
        ∧ ScalarDone s t rd (e.epoch.setWidth 32 ++ BitVec.ofNat 32 (own * 2 ^ 22 + dieOfCoord c * 2 ^ 18 + e.prow.toNat * 2 ^ 8 + e.pcol.toNat)) 0
            (s.pc + 4) s.checkerNext)
      ∧ (coordPkg c ≠ own →
        (∀ v, s.h.reply = some v → ∃ t, exec (.locq rd xc) s = .next t ∧ ScalarDone s t rd v 0 (s.pc + 4) s.checkerNext)
        ∧ (s.h.reply = none → s.h.asked = true → ∃ t, exec (.locq rd xc) s = .next t
            ∧ Becomes s t { s.h with wait := { s.h.wait with reason := 0x06, tag := 0, peer := c } })
        ∧ (s.h.reply = none → s.h.asked = false → ∀ u, hand s s.agent (Spec.messageOf s c 0 6 0 []) = some u →
            ∃ t, exec (.locq rd xc) s = .next t
              ∧ Becomes u t { s.h with asked := true, wait := { s.h.wait with reason := 0x06, tag := 0, peer := c } })))

end Sys2Proof.Machine.Claims

/-- Sends check and hand over messages; mwait, mcount and locq observe them (R185, R189, R192, R193, R194, R308, R312, R316). -/
def Obligations.MessageInstructions : Prop :=
  Sys2Proof.Machine.Claims.MessageSend ∧ Sys2Proof.Machine.Claims.MessageHandover ∧ Sys2Proof.Machine.Claims.MailboxWait ∧ Sys2Proof.Machine.Claims.MailboxCountAndPlacement

namespace Sys2Proof.Machine.Claims

/-- R203, R204: `warrive` releases at package scope, sets the core's bit, and, as the last arrival, owes every member a completion. -/
def WeirArrival : Prop :=
  ∀ (s : State) (c : BitVec 4), s.lane = none →
    (s.c.weir.wmember.getLsbD c.toNat = false → Traps (.warrive c) s 0x040 (c.setWidth 64))
    ∧ (s.c.weir.wmember.getLsbD c.toNat = true →
      let u := release s 3
      let v := u.setC { u.c with weir := { u.c.weir with arrived := u.c.weir.arrived ||| ((1 : BitVec 16) <<< c.toNat) } }
      ∃ t, exec (.warrive c) s = .next t
        ∧ HartDone s t.h 0 0 0 (s.pc + 4) s.checkerNext ∧ (∀ k, k ≠ s.cur → t.hartOf k = s.hartOf k)
        ∧ t = { v with harts := t.harts, cores := t.cores }
        ∧ ∀ k, t.coreOf k = { v.coreOf k with weir := { (v.coreOf k).weir with owed := (t.coreOf k).weir.owed } }
            ∧ (∀ n : Fin 16, n = c.toFin → (v.coreOf k).weir.wmember.getLsbD c.toNat = true → Spec.weirAll v c →
                (t.coreOf k).weir.owed.get n = (v.coreOf k).weir.owed.get n + 1)
            ∧ (∀ n : Fin 16, ¬ (n = c.toFin ∧ (v.coreOf k).weir.wmember.getLsbD c.toNat = true ∧ Spec.weirAll v c) →
                (t.coreOf k).weir.owed.get n = (v.coreOf k).weir.owed.get n))

/-- R204: `wwait` waits while its core's bit stands; `wtest` reads the bit and the generation. -/
def WeirWaitAndTest : Prop :=
  ∀ (s : State) (rd : BitVec 5) (c : BitVec 4), s.lane = none →
    let a := s.c.weir.arrived.getLsbD c.toNat
    (a = true → ∃ t, exec (.wwait c) s = .next t
      ∧ Becomes s t { s.h with wait := { s.h.wait with reason := 0x0A, tag := c.setWidth 6, peer := 0 } })
    ∧ (a = false → ∃ t, exec (.wwait c) s = .next t ∧ ScalarDone s t 0 0 0 (s.pc + 4) s.checkerNext)
    ∧ ∃ t, exec (.wtest rd c) s = .next t
        ∧ ScalarDone s t rd (BitVec.ofNat 64 ((if a then 2 ^ 32 else 0) + (s.c.weir.gen.get c.toFin).toNat)) 0 (s.pc + 4) s.checkerNext

/-- R203: a completion reaches one core: its bit clears and its generation rises by 1. -/
def WeirBroadcast : Prop :=
  ∀ (s : State) (c : BitVec 4) (core : Nat),
    let w := (s.coreOf core).weir
    0 < w.owed.get c.toFin →
    ∃ t, exec (.weirBroadcast c.toNat core) s = .next t
      ∧ (t.coreOf core).weir.arrived = w.arrived &&& ~~~((1 : BitVec 16) <<< c.toNat)
      ∧ (∀ n : Fin 16, (t.coreOf core).weir.gen.get n = if n = c.toFin then w.gen.get n + 1 else w.gen.get n)
      ∧ (∀ j, j ≠ core → (t.coreOf j).weir.gen = (s.coreOf j).weir.gen ∧ (t.coreOf j).weir.arrived = (s.coreOf j).weir.arrived)
      ∧ (∀ j, (t.coreOf j).sp = (s.coreOf j).sp ∧ (t.coreOf j).tasks = (s.coreOf j).tasks ∧ (t.coreOf j).weir.wmember = (s.coreOf j).weir.wmember)
      ∧ t = { s with cores := t.cores }

end Sys2Proof.Machine.Claims

/-- Weir barriers: arrival, waiting, testing and completion (R203, R204). -/
def Obligations.WeirBarriers : Prop :=
  Sys2Proof.Machine.Claims.WeirArrival ∧ Sys2Proof.Machine.Claims.WeirWaitAndTest ∧ Sys2Proof.Machine.Claims.WeirBroadcast

namespace Sys2Proof.Machine.Claims

/-- R205, R149, R256: `tend` waits for the task's Sluice requests, then ends the task, frees its channel and its hart, performs its stores and drops
its pixel locks. That it completes on a hart that runs no task is the model's choice (log 41). -/
def TaskEnd : Prop :=
  ∀ (s : State), s.lane = none →
    let mine := fun (r : SluiceReq) => r.hart = s.hartNo ∧ r.serial = s.h.serial
    ((∃ n : Fin 4, ∃ r ∈ (s.c.sluice.chans.get n).reqs, mine r) → ∃ t, exec .tend s = .next t
      ∧ Becomes s t { s.h with wait := { s.h.wait with reason := 0x0F, tag := 0, peer := 0 } })
    ∧ ((∀ n : Fin 4, ∀ r ∈ (s.c.sluice.chans.get n).reqs, ¬ mine r) →
      (s.checkerNext.differs = true → ∃ u t, ScalarDone s u 0 0 0 (s.pc + 4) s.checkerNext.close
        ∧ exec .tend s = .next t ∧ Trapped u t 0x160 s.checkerNext.block (s.pc + 4) 0)
      ∧ (s.checkerNext.differs = false → ∀ ch, s.h.run = .task ch →
        ∃ t, exec .tend s = .next t
          ∧ t.h = s.h.ended .free ∧ (∀ k, k ≠ s.cur → t.hartOf k = s.hartOf k)
          ∧ (t.c.task ch.toNat) = { s.c.task ch.toNat with busy := false }
          ∧ (∀ n, n ≠ ch.toNat → t.c.task n = s.c.task n)
          ∧ (∀ k, (t.coreOf k).sp = (s.coreOf k).sp)
          ∧ (∀ a, Spec.sees t s.agent a = Spec.sees (release s 3) s.agent a)
          ∧ (∀ b, ∀ l ∈ (t.basin b).gfx.locks, l.hart ≠ s.cur)))

/-- R206, R260: `thold`, `tready` and `tenable` write one bit of a channel, of the own core at once and of another core by a message; `enable` of a
channel that is not declared stays 0. The four payload bytes of the kind-5 message (log 16), and that the channel is checked before the coordinate and
the value (log 10), are the model's choices. -/
def TaskBits : Prop :=
  ∀ (i : Instr) (s : State) (bit : Nat) (xv xc xs : BitVec 5), s.lane = none → Spec.taskBitForm i = some (bit, xv, xc, xs) →
    let v := s.x xv
    let c := s.x xc
    let ch := (s.x xs).toNat
    let one := decide (v = 1)
    (64 ≤ ch → Traps i s 0x040 (s.x xs))
    ∧ (ch < 64 → Spec.coordValid c → v.toNat < 2 →
      (inReach s (c.setWidth 32) = false → Traps i s 0x104 c)
      ∧ (inReach s (c.setWidth 32) = true →
        (realCoord s (c.setWidth 32) = s.c.coreid →
          let t0 := s.c.task ch
          let t1 := if bit = 0 then { t0 with hold := one } else if bit = 1 then { t0 with ready := one } else { t0 with enable := one && t0.decl }
          ∃ t, exec i s = .next t ∧ BecomesOn s t t.h (s.c.setTask ch t1) ∧ HartDone s t.h 0 0 0 (s.pc + 4) s.checkerNext)
        ∧ (realCoord s (c.setWidth 32) ≠ s.c.coreid →
          ∀ u, hand s s.agent (Spec.messageOf s (c.setWidth 32) 0 5 0 (leBytes 4 (ch + 256 * bit + 65536 * v.toNat))) = some u →
            ∃ t, exec i s = .next t ∧ Becomes u t (s.h.doneAt s.checkerNext (s.h.pc + 4)))))

/-- R207, R261: `tpost` posts a channel with its start record unless it is pending. That the channel is checked before the coordinate is the model's
choice (log 10). -/
def TaskPost : Prop :=
  ∀ (s : State) (xs xp : BitVec 5), s.lane = none →
    let ch := (s.x xs).toNat
    (64 ≤ ch → Traps (.tpost xs xp) s 0x040 (s.x xs))
    ∧ (ch < 64 →
      let t0 := s.c.task ch
      let t1 := if t0.pending then t0 else
        { t0 with pending := true, s2 := s.c.coreid, s3 := 0, s4 := BitVec.ofNat 32 (s.x xp).toNat, s5 := 0 }
      ∃ t c, exec (.tpost xs xp) s = .next t ∧ BecomesOn s t t.h c ∧ HartDone s t.h 0 0 0 (s.pc + 4) s.checkerNext
        ∧ (∀ n, c.task n = if n = ch then t1 else s.c.task n) ∧ c = { s.c with tasks := c.tasks })

end Sys2Proof.Machine.Claims

/-- tend, thold, tready, tenable and tpost change the task table as written (R205, R206, R207). -/
def Obligations.TaskInstructions : Prop :=
  Sys2Proof.Machine.Claims.TaskEnd ∧ Sys2Proof.Machine.Claims.TaskBits ∧ Sys2Proof.Machine.Claims.TaskPost

namespace Sys2Proof.Machine.Claims

/-- R186, R195 to R198: a Sluice request is checked in the spec's order, waits while its channel holds 64, and otherwise joins its channel with
its chunks to do; rd receives its number. -/
def SluiceIssue : Prop :=
  ∀ (i : Instr) (s : State) (f : Spec.SluiceForm), s.lane = none → Spec.sluiceForm i s = some f →
    let d := s.x f.xp
    let e := if f.run = 2 then s.x (f.xp + 1) else 0
    let len := Spec.cLen d
    (f.xp = 0 ∨ 32 < f.xp.toNat + f.run → Traps i s 0x040 (f.xp.setWidth 64))
    ∧ (f.xp ≠ 0 → f.xp.toNat + f.run ≤ 32 →
      (d.toNat / 2 ^ 31 % 2 = 1 ∨ d.toNat / 2 ^ 18 % 2 ^ 10 ≠ 0 ∨ len % 4 ≠ 0 ∨ len = 0
          ∨ (if f.form.is2d then 512 else 0x40000) < len → Traps i s 0x040 d)
      ∧ ∀ r, r = makeReq s f.form f.mask f.base d e 0 [] →
        (∀ t, issueCheck s r f.base d e = some t → Traps i s t.cause t.tval)
        ∧ (issueCheck s r f.base d e = none → 64 ≤ (s.c.sluice.chans.get f.ch.toFin).reqs.length →
          ∃ t, exec i s = .next t ∧ Becomes s t { s.h with wait := { s.h.wait with reason := 0x07, tag := f.ch.setWidth 6, peer := 0 } })
        ∧ (issueCheck s r f.base d e = none → (s.c.sluice.chans.get f.ch.toFin).reqs.length < 64 →
          Spec.RequestOf s r f.form f.mask f.base d e
          ∧ r.chunks = List.replicate (((if f.form.is2d then len * (e.toNat % 1024) else len) + 511) / 512) .todo
          ∧ ∃ t, exec i s = .next t ∧ Spec.Issued s t f.rd f.ch r (s.h.doneAt s.checkerNext (s.h.pc + 4))))

/-- R195, R197: a gather takes its indexes from the active elements of row 0. -/
def SluiceGather : Prop :=
  ∀ (i : Instr) (s : State) (form : SForm) (rd vi xp : BitVec 5) (mask : BitVec 3) (ch : BitVec 2), s.lane = none → Spec.ShapeOk s.h.shape →
    (i = .sgatherRow rd vi xp mask ch ∧ form = .gatherRow ∨ i = .sgatherCol rd vi xp mask ch ∧ form = .gatherCol) →
    let d := s.x xp
    let e := s.x (xp + 1)
    let rows := (List.range s.h.shape.vl.toNat).filter fun n =>
      !(s.h.shape.vstop.getLsbD 63 && decide (Spec.row s.h.shape.vstop * 2048 + Spec.col s.h.shape.vstop ≤ n))
    let idxs := rows.map fun n => Spec.el s vi (Spec.sewOf s) 0 n
    let cl : Claim := { conv := false, units := 16, cross := true, rv := [vi.toNat], rm := [], wv := [], wm := [] }
    (s.h.shape.vstart ≠ 0 → Traps i s 0x040 s.h.shape.vstart)
    ∧ (s.h.shape.vstart = 0 → xp = 0 ∨ 29 < xp.toNat → Traps i s 0x040 (xp.setWidth 64))
    ∧ (s.h.shape.vstart = 0 → xp ≠ 0 → xp.toNat ≤ 29 → Spec.Joins s cl →
      ∀ r, r = makeReq s form mask 0 d e (s.x (xp + 2)) idxs →
        issueFields s r 0 d e = none → issueRange r e = none → issueGlobal r = none →
        (64 ≤ (s.c.sluice.chans.get ch.toFin).reqs.length →
          ∃ t, exec i s = .next t ∧ Becomes s t { s.h with wait := { s.h.wait with reason := 0x07, tag := ch.setWidth 6, peer := 0 } })
        ∧ ((s.c.sluice.chans.get ch.toFin).reqs.length < 64 →
          r.base = e ∧ r.pitch = s.x (xp + 2) ∧ r.idxs = idxs ∧ Spec.RequestOf s r form mask 0 d e ∧ r.chunks = List.replicate idxs.length .todo
          ∧ ∃ t, exec i s = .next t ∧ Spec.Issued s t rd ch r (Spec.vectorHart s cl s.h)))

end Sys2Proof.Machine.Claims

/-- Sluice requests are checked in order, wait for room, or are issued (R186, R195, R196, R197, R198). -/
def Obligations.SluiceRequests : Prop :=
  Sys2Proof.Machine.Claims.SluiceIssue ∧ Sys2Proof.Machine.Claims.SluiceGather

namespace Sys2Proof.Machine.Claims

/-- R199 to R202: `swait`, `sreplay` and `sfault` observe completion, put every chunk that stands still back to do, and pop one fault record. That a
chunk whose page request waits for one of the 512 stands still as for a full fault queue is the model's reading (log 25). -/
def SluiceObservation : Prop :=
  ∀ (s : State) (rd xt : BitVec 5) (ch : BitVec 2), s.lane = none →
    let id := BitVec.ofNat 32 (s.x xt).toNat
    let q := s.c.sluice.chans.get ch.toFin
    let inFlight := ∃ r ∈ q.reqs, r.id = id
    let complete := ¬ inFlight ∧ 1 ≤ (q.next - id).toNat ∧ (q.next - id).toNat ≤ 2 ^ 31
    let record := (∃ f ∈ s.c.sluice.faults ++ s.c.sluice.late, f.chan = ch ∧ f.id = id) ∨ ∃ r ∈ q.reqs, r.id = id ∧ ∃ x ∈ r.chunks, Spec.waits x
    (complete → ∃ t, exec (.swait rd xt ch) s = .next t ∧ ScalarDone s t rd 0 0 (s.pc + 4) s.checkerNext)
    ∧ (¬ complete → record → ∃ t, exec (.swait rd xt ch) s = .next t ∧ ScalarDone s t rd 1 0 (s.pc + 4) s.checkerNext)
    ∧ (¬ complete → ¬ record → ∃ t, exec (.swait rd xt ch) s = .next t
        ∧ Becomes s t { s.h with wait := { s.h.wait with reason := 0x08, tag := ch.setWidth 6, peer := 0 } })
    ∧ (¬ inFlight → ∃ t, exec (.sreplay rd xt ch) s = .next t ∧ ScalarDone s t rd 0 0 (s.pc + 4) s.checkerNext)
    ∧ (∀ before r after, q.reqs = before ++ r :: after → (∀ p ∈ before ++ after, p.id ≠ id) → r.id = id →
        (∀ p ∈ q.reqs, ∃ x ∈ p.chunks, x ≠ .done) →
        let again := { r with chunks := r.chunks.map fun x => if Spec.stands x then .todo else x }
        ∃ t, exec (.sreplay rd xt ch) s = .next t
          ∧ HartDone s t.h rd (BitVec.ofNat 64 (r.chunks.filter fun x => Spec.stands x).length) 0 (s.pc + 4) s.checkerNext
          ∧ BecomesOn s t t.h { s.c with sluice := { s.c.sluice with
              chans := s.c.sluice.chans.set ch.toNat { q with reqs := before ++ again :: after } ch.isLt } })
    ∧ (let o := (s.x xt).toNat
       (o % 32 ≠ 0 → Traps (.sfault rd xt) s 0x0E0 (s.x xt))
       ∧ (o % 32 = 0 → 0x40000 ≤ o → Traps (.sfault rd xt) s 0x0E2 (s.x xt))
       ∧ (o % 32 = 0 → o < 0x40000 →
         (s.c.sluice.faults = [] → ∃ t, exec (.sfault rd xt) s = .next t ∧ ScalarDone s t rd 0 0 (s.pc + 4) s.checkerNext)
         ∧ (s.c.sp.wf = true → ∀ f rest, s.c.sluice.faults = f :: rest →
           ∃ t, exec (.sfault rd xt) s = .next t ∧ HartDone s t.h rd 1 0 (s.pc + 4) s.checkerNext
             ∧ (∀ k, k ≠ s.cur → t.hartOf k = s.hartOf k) ∧ t = { s with harts := t.harts, cores := t.cores }
             ∧ (∀ b, b < 32 → readByte t.c.sp (o + b) = f.bytes.getD b 0) ∧ (∀ a, a < o ∨ o + 32 ≤ a → readByte t.c.sp a = readByte s.c.sp a)
             ∧ (t.c.sluice.faults = rest ∨ ∃ g, t.c.sluice.faults = rest ++ [g]))))

/-- R198, R201: a chunk moves exactly its words, sets its bit of the mask register, and ends a complete request; a translation fault queues one record
for each run of chunks on the page. That the failure of a walk covers every unfinished chunk on the page of its level, with one record for each run of
them, is the model's reading (log 25). -/
def SluiceChunk : Prop :=
  ∀ (s u : State) (core q : Nat) (ch : BitVec 2) (before after : List SluiceReq) (r : SluiceReq) (ps : List (Word × Nat × Loc)),
    ((s.coreOf core).sluice.chans.get ch.toFin).reqs = before ++ r :: after → (∀ p ∈ before ++ after, p.id ≠ r.id) → r.form ≠ .toCore →
    (∀ p ∈ before ++ r :: after, ∀ x ∈ p.chunks, x.isBlocked = false) → (∀ p ∈ before ++ after, ∃ x ∈ p.chunks, x ≠ .done) →
    (∀ f ∈ (s.coreOf core).sluice.late, f.chan ≠ ch) → r.chunks[q]? = some .todo →
    (chunkPlaces s core r (r.words q) = .ok (ps, u) → (∀ p ∈ ps, wordPoison u core r p = none) →
      ps.Pairwise (fun a b => a.2.1 + 4 ≤ b.2.1 ∨ b.2.1 + 4 ≤ a.2.1) → (u.coreOf core).sp.wf = true → u.mem.wf = true → Spec.StoresInLine u core →
      let marked := { r with chunks := r.chunks.mapIdx fun i x => if i = q then ChunkState.done else x }
      let left := before ++ (if marked.chunks.all (fun x => decide (x = .done)) then [] else [marked]) ++ after
      ∃ t, exec (.sluiceChunk core ch.toNat r.id q) s = .next t
        ∧ ((t.coreOf core).sluice.chans.get ch.toFin).reqs = left
        ∧ (r.mask ≠ 0 → r.chunk0 + q < 8192 → (t.hartOf (8 * core + r.hart)).maskBit r.mask ((r.chunk0 + q) / 1024) ((r.chunk0 + q) % 1024) = true)
        ∧ (r.mask = 0 → t.harts = u.harts)
        ∧ (r.form.isIn = true → (∀ a, Spec.sees t core a = Spec.sees u core a ∧ Spec.seesHost t core a = Spec.seesHost u core a)
            ∧ (∀ p ∈ ps, ∀ b, b < 4 → readByte (t.coreOf core).sp (p.2.1 + b) = match p.2.2 with
                | .dev pa => Spec.sees u core (pa + b)
                | .host h => Spec.seesHost u core (h + b)
                | _ => 0)
            ∧ ∀ a, (∀ p ∈ ps, ¬ (p.2.1 ≤ a ∧ a < p.2.1 + 4)) → readByte (t.coreOf core).sp a = readByte (u.coreOf core).sp a)
        ∧ (r.form.isIn = false → (t.coreOf core).sp = (u.coreOf core).sp
            ∧ ((∀ p ∈ ps, ∃ pa, p.2.2 = .dev pa) → ps.Pairwise (fun a b => ∀ x y, a.2.2 = .dev x → b.2.2 = .dev y → x + 4 ≤ y ∨ y + 4 ≤ x) →
                (∀ p ∈ ps, ∀ pa b, p.2.2 = .dev pa → b < 4 → readByte t.mem (pa + b) = readByte (u.coreOf core).sp (p.2.1 + b))
                ∧ ∀ a, (∀ p ∈ ps, ∀ pa, p.2.2 = .dev pa → ¬ (pa ≤ a ∧ a < pa + 4)) → Spec.sees t core a = Spec.sees u core a)))
    ∧ (∀ va cause size, chunkPlaces s core r (r.words q) = .error (u, .xlat va cause size) →
      let runs := pageRuns r (va.toNat / size * size) size
      let c := u.coreOf core
      c.sluice.faults.length + runs.length ≤ 16 →
      ∃ t, exec (.sluiceChunk core ch.toNat r.id q) s = .next t
        ∧ (t.coreOf core).sluice.faults = c.sluice.faults ++ runs.map (fun x =>
            { id := r.id, chan := ch, hart := BitVec.ofNat 3 r.hart, kind := 0, vaddr := x.2.2, first := BitVec.ofNat 32 x.1,
              count := BitVec.ofNat 32 x.2.1, cause := cause })
        ∧ t.harts = u.harts ∧ t.mem = u.mem ∧ (t.coreOf core).sp = c.sp)

/-- R200: a `scopyr` chunk sends the lowest part that has not been sent, of 4,096 bytes, as one message; while an earlier part waits for its replay,
none is sent. Every part names the copy it belongs to (the model's number, log 38). -/
def SluicePart : Prop :=
  ∀ (s : State) (core q q0 : Nat) (ch : BitVec 2) (before after : List SluiceReq) (r : SluiceReq),
    let c := s.coreOf core
    let i := q0 / 8
    let n := min (r.len - 4096 * i) 4096
    let m := partMessage s core ch r i
    (c.sluice.chans.get ch.toFin).reqs = before ++ r :: after → (∀ p ∈ before ++ after, p.id ≠ r.id) → r.form = .toCore →
    (∀ p ∈ before ++ r :: after, ∀ x ∈ p.chunks, x.isBlocked = false) → (∀ p ∈ before ++ after, ∃ x ∈ p.chunks, x ≠ .done) →
    (∀ f ∈ c.sluice.late, f.chan ≠ ch) → r.chunks[q]? = some .todo → q0 < r.chunks.length →
    r.chunks[q0]? ≠ some .sent → r.chunks[q0]? ≠ some .done → (∀ j, j < q0 → r.chunks[j]? = some .sent ∨ r.chunks[j]? = some .done) →
    (m.kind = 4 ∧ m.src = c.coreid ∧ m.dst = r.dst ∧ m.data = readBytes c.sp (r.spoff + 4096 * i) n ∧ m.req = some (ch, r.id)
      ∧ m.copy = 1 + 4 * (2 ^ 32 * (match c.part.launch with | some l => l + 1 | none => 0) + r.id.toNat) + ch.toNat)
    ∧ (r.chunks[q0]? ≠ some .todo → exec (.sluiceChunk core ch.toNat r.id q) s = .next s)
    ∧ (r.chunks[q0]? = some .todo → (∀ x ∈ c.spBad, ¬ ((r.spoff + 4096 * i) / 4 ≤ x ∧ 4 * x < r.spoff + 4096 * i + n)) →
      (hand s core m = none → ∃ t, exec (.sluiceChunk core ch.toNat r.id q) s = .next t ∧ t = s)
      ∧ ∀ u, hand s core m = some u → ∃ t, exec (.sluiceChunk core ch.toNat r.id q) s = .next t
          ∧ Spec.CoreBecomes u t core (t.coreOf core)
          ∧ ((t.coreOf core).sluice.chans.get ch.toFin).reqs =
              before ++ { r with chunks := r.chunks.mapIdx fun j x => if j / 8 = i then ChunkState.sent else x } :: after
          ∧ (t.coreOf core).sp = c.sp)

end Sys2Proof.Machine.Claims

/-- Sluice chunks move exactly their words; swait, sreplay and sfault observe them (R198, R199, R200, R201, R202). -/
def Obligations.SluiceProgress : Prop :=
  Sys2Proof.Machine.Claims.SluiceObservation ∧ Sys2Proof.Machine.Claims.SluiceChunk ∧ Sys2Proof.Machine.Claims.SluicePart

namespace Sys2Proof.Machine.Claims

/-- R208: `glaunch` checks its address, posts its packet and returns the status. -/
def LaunchFromCode : Prop :=
  ∀ (s u : State) (rd xs : BitVec 5) (p : List Byte), s.lane = none →
    ((s.x xs).toNat / 2 ^ 55 ≠ 0 ∧ (s.x xs).toNat / 2 ^ 55 ≠ 511 → Traps (.glaunch rd xs) s 0x0E1 (s.x xs))
    ∧ ((s.x xs).toNat / 2 ^ 55 = 0 ∨ (s.x xs).toNat / 2 ^ 55 = 511 → (s.x xs).toNat % 64 ≠ 0 → Traps (.glaunch rd xs) s 0x0E0 (s.x xs))
    ∧ (loadBlock s (s.x xs) = .ok (p, u) →
      let r := postLaunch (release u 3) s.agent p
      ∃ t, exec (.glaunch rd xs) s = .next t ∧ Becomes r.2 t t.h
        ∧ HartDone s t.h rd (BitVec.ofNat 64 r.1) 0 (s.pc + 4) s.checkerNext)

/-- R208, R381: a packet is refused with status 1, 2 or 3 in that order, or stored in a free slot of the pool. That order is the model's (log 18). -/
def PoolPost : Prop :=
  ∀ (s : State) (k n : Nat) (cx : Ctx) (p : List Byte), ctxOfAgent s k = some (n, cx) → p.length = 64 → s.mem.wf = true →
    let parent := (s.coreOf k).part.launch
    let depth := ((parent.bind fun id => s.launches.find? fun l => l.id = id).map (·.depth)).getD 0 + 1
    let r := postLaunch s k p
    r.1 ≤ 3
    ∧ (4096 ≤ cx.entries.length → r = (1, s))
    ∧ (cx.entries.length < 4096 → 24 < depth → r = (2, s))
    ∧ (cx.entries.length < 4096 → depth ≤ 24 → r.1 = 0 ∨ r.1 = 3)
    ∧ (r.1 = 3 → (r.2.ctx n).entries = cx.entries ∧ r.2.launches = s.launches ∧ r.2.harts = s.harts)
    ∧ (r.1 = 0 → ∃ e, e.slot < 4096 ∧ (∀ q ∈ cx.entries, q.slot ≠ e.slot) ∧ e.depth = depth ∧ e.launch = none
        ∧ (r.2.ctx n).entries = cx.entries ++ [e] ∧ r.2.harts = s.harts
        ∧ ∀ b, b < 64 → readByte r.2.mem (cx.pool.toNat * 2 ^ 18 + 64 * e.slot + b) = p.getD b 0)

/-- R381, R379: the first pool entry that may dispatch, where it passes the checks of a launch, becomes a gang launch of its depth. -/
def PoolDispatch : Prop :=
  ∀ (s t0 t1 : State) (n slot : Nat) (before after : List PoolEntry) (e : PoolEntry) (l : List Byte),
    let cx := s.ctx n
    let p := readBytes s.mem (cx.pool.toNat * 2 ^ 18 + 64 * slot) 64
    cx.entries = before ++ e :: after → e.slot = slot → (∀ x ∈ before ++ after, x.slot ≠ slot) → cx.st = .active → e.launch = none →
    (e.barrier = true → ∀ x ∈ before, x.parent ≠ e.parent) →
    (∀ b x a, before = b ++ x :: a → x.launch ≠ none ∨ (x.barrier = true ∧ ∃ y ∈ b, y.parent = x.parent)) →
    (gangPacket p).handle.toNat % 64 = 0 → canonical (gangPacket p).handle = true → ctxRead s cx (gangPacket p).handle 64 = (.ok l, t0) →
    launchReason t0 cx true p (handleOf l) = (none, t1) →
    ∃ t g, exec (.poolDispatch n slot) s = .next t
      ∧ t.launches = t1.launches ++ [g] ∧ g.id = t1.nextLaunch ∧ g.kind = .gang ∧ g.ctx = n ∧ g.queue = none ∧ g.depth = e.depth
      ∧ g.parent = (if e.parent = 0 then none else some e.parent) ∧ g.gangid = (gangPacket p).gangid ∧ g.wmember = (gangPacket p).wmember
      ∧ (t.ctx n).entries = before ++ { e with launch := some g.id } :: after ∧ t.mem = t1.mem ∧ t.harts = s.harts

/-- R381: pool entries are dispatched in the order they were accepted: while an earlier entry may dispatch, a later one does not. -/
def PoolOrder : Prop :=
  ∀ (s : State) (n slot : Nat) (before mid after : List PoolEntry) (x e : PoolEntry),
    (s.ctx n).entries = before ++ x :: mid ++ e :: after → e.slot = slot → (∀ y ∈ before ++ x :: mid ++ after, y.slot ≠ slot) →
    x.launch = none → (x.barrier = true → ∀ y ∈ before, y.parent ≠ x.parent) → exec (.poolDispatch n slot) s = .next s

end Sys2Proof.Machine.Claims

/-- glaunch posts a packet in the pool, and a pool entry becomes a gang launch (R208, R379, R381). -/
def Obligations.PoolLaunches : Prop :=
  Sys2Proof.Machine.Claims.LaunchFromCode ∧ Sys2Proof.Machine.Claims.PoolPost ∧ Sys2Proof.Machine.Claims.PoolDispatch
    ∧ Sys2Proof.Machine.Claims.PoolOrder

namespace Sys2Proof.Machine.Claims

/-- R209: `wreserve` asks the owner of the block once and waits for the answer. -/
def WorkGraphReserve : Prop :=
  ∀ (s : State) (rd xq xn : BitVec 5), s.lane = none →
    let n := (s.x xn).toNat
    (∀ v, s.h.reply = some v → ∃ t, exec (.wreserve rd xq xn) s = .next t ∧ ScalarDone s t rd v 0 (s.pc + 4) s.checkerNext)
    ∧ (s.h.reply = none → s.h.asked = true → exec (.wreserve rd xq xn) s = .next s)
    ∧ (s.h.reply = none → s.h.asked = false →
      (n = 0 ∨ 4096 < n → Traps (.wreserve rd xq xn) s 0x040 (s.x xn))
      ∧ (0 < n → n ≤ 4096 → ∀ l u, loadBlock s (s.x xq) = .ok (l, u) →
        let owner := (l.getD 26 0).toNat
        ∃ t q, exec (.wreserve rd xq xn) s = .next t
          ∧ t.h = { s.h with asked := true, wait := { s.h.wait with reason := 0x10, tag := BitVec.ofNat 6 owner, peer := 0 } }
          ∧ (∀ k, k ≠ s.cur → t.hartOf k = s.hartOf k)
          ∧ (t.basin owner).asks = (u.basin owner).asks ++ [q] ∧ (∀ b, b ≠ owner → t.basin b = u.basin b)
          ∧ q.hart = s.cur ∧ q.serial = s.h.serial ∧ q.launch = s.c.part.launch ∧ q.block = s.x xq ∧ q.data = l ∧ q.count = n))

/-- R210, R211: `wcommit` commits a slot its own hart has reserved and tells the owner, and traps with 0x106 on any other slot. -/
def WorkGraphCommit : Prop :=
  ∀ (s u : State) (xq xi : BitVec 5) (l : List Byte), s.lane = none → loadBlock s (s.x xq) = .ok (l, u) →
    let b := release u 3
    let idx := (s.x xi).toNat
    (commitAt b (s.x xq) l idx = none → ∃ t, exec (.wcommit xq xi) s = .next t ∧ Trapped u t 0x106 (s.x xi) s.pc 0)
    ∧ (∀ cn cx w, ctxOfAgent b s.agent = some (cn, cx) → (queueBlock l).ok = true →
        w = (b.basin (l.getD 26 0).toNat).work cn (s.x xq) (queueBlock l) → smFind idx w.slots = some (.reserved s.cur s.h.serial) →
        ∃ t, exec (.wcommit xq xi) s = .next t ∧ HartDone s t.h 0 0 0 (s.pc + 4) s.checkerNext
          ∧ (∀ k, k ≠ s.cur → t.hartOf k = s.hartOf k)
          ∧ (t.basin (l.getD 26 0).toNat).ncev = (b.basin (l.getD 26 0).toNat).ncev ++
              [{ block := s.x xq, slot := BitVec.ofNat 32 idx, kind := 1 }]
          ∧ ∃ w1 ∈ (t.basin (l.getD 26 0).toNat).works, w1 = { w with slots := smSet idx (.committed s.c.coreid) w.slots })

/-- R277 to R280: the owner grants slots while there is room, node choice takes events in order, and `ncpost` posts a committed slot to a ready
channel or answers why not. The order of the answers 1, 3, 2, and 1 for a queue that the basin does not hold, are the model's choices (log 20). -/
def WorkGraphEvents : Prop :=
  ∀ (s : State) (n : Nat),
    let b := s.basin n
    (∀ r rs, b.asks = r :: rs → ∃ t v, exec (.ownerReserve n) s = .next t
      ∧ (t.basin n).asks = rs ∧ (∀ j, j ≠ n → t.basin j = s.basin j)
      ∧ ((s.hartOf r.hart).asked = true ∧ (s.hartOf r.hart).serial = r.serial → t.hartOf r.hart = { s.hartOf r.hart with reply := some v })
      ∧ (∀ k, k ≠ r.hart → t.hartOf k = s.hartOf k)
      ∧ (let w := b.work r.ctx r.block (queueBlock r.data)
         let ok := (queueBlock r.data).ok = true ∧ r.count ≤ w.capacity - (w.head - w.tail).toNat
         (¬ ok → v = BitVec.allOnes 64 ∧ (t.basin n).works = b.works)
         ∧ (ok → v.toNat = w.head.toNat % w.capacity ∧ ∃ q ∈ (t.basin n).works, q.block = r.block ∧ q.ctx = r.ctx
             ∧ q.head = w.head + BitVec.ofNat 32 r.count ∧ q.tail = w.tail ∧ (∀ g, g ∈ q.gangs ↔ g ∈ w.gangs ∨ r.launch = some g)
             ∧ (∀ i, i < r.count → smFind ((w.head.toNat + i) % w.capacity) q.slots = some (.reserved r.hart r.serial)))))
    ∧ (∀ e es, b.ncev = e :: es → ∃ t, exec (.ncevPop n) s = .next t ∧ Spec.BasinBecomes s t n { b with ncev := es })
    ∧ (∀ (slot target : BitVec 32),
        ((∀ q ∈ b.works, q.block ≠ b.ncpq) → ∃ t, exec (.ncpost n slot target) s = .next t ∧ Spec.BasinBecomes s t n { b with ncstat := 1 })
        ∧ (∀ before q after, b.works = before ++ q :: after → (∀ w ∈ before ++ after, w.block ≠ q.block) → q.block = b.ncpq →
          ((∀ src, smFind slot.toNat q.slots ≠ some (.committed src)) →
            ∃ t, exec (.ncpost n slot target) s = .next t ∧ Spec.BasinBecomes s t n { b with ncstat := 1 })
          ∧ (∀ src, smFind slot.toNat q.slots = some (.committed src) →
            (postTarget s n q src target = none → ∃ t, exec (.ncpost n slot target) s = .next t ∧ Spec.BasinBecomes s t n { b with ncstat := 3 })
            ∧ (∀ k, postTarget s n q src target = some k →
              let e := (s.coreOf k).task q.channel
              ((e.pending = true ∨ e.busy = true ∨ e.preempt = true ∨ e.siphon = true) →
                ∃ t, exec (.ncpost n slot target) s = .next t ∧ Spec.BasinBecomes s t n { b with ncstat := 2 })
              ∧ (e.pending = false → e.busy = false → e.preempt = false → e.siphon = false →
                ∃ t, exec (.ncpost n slot target) s = .next t
                  ∧ t = { s with cores := t.cores, basins := t.basins }
                  ∧ (t.basin n).ncstat = 0 ∧ (∀ j, j ≠ n → t.basin j = s.basin j) ∧ (∀ j, j ≠ k → t.coreOf j = s.coreOf j)
                  ∧ (t.coreOf k).task q.channel = { e with pending := true, s2 := src, s3 := 0, s4 := slot, s5 := BitVec.ofNat 32 q.recsize }
                  ∧ (∀ c, c ≠ q.channel → (t.coreOf k).task c = (s.coreOf k).task c)
                  ∧ { q with slots := smSet slot.toNat (.started (s.coreOf k).coreid (BitVec.ofNat 6 q.channel)) q.slots } ∈ (t.basin n).works)))))

end Sys2Proof.Machine.Claims

/-- Work graphs: reserving, committing, granting and posting slots (R209, R210, R211, R278, R279, R280). -/
def Obligations.WorkGraphs : Prop :=
  Sys2Proof.Machine.Claims.WorkGraphReserve ∧ Sys2Proof.Machine.Claims.WorkGraphCommit ∧ Sys2Proof.Machine.Claims.WorkGraphEvents

namespace Sys2Proof.Machine.Claims

/-- R217: `qpush` whose records are well formed hands every one of them, in element order, to a queue that is open for its context and has room, and
completes. -/
def PushCompletes : Prop :=
  ∀ (s : State) (vs xs2 : BitVec 5) (mask : BitVec 3) (c : Bool), s.lane = none → s.mem.wf = true → Spec.ShapeOk s.h.shape → Spec.StartOk s →
    Spec.sewOf s = 64 → Spec.Group s vs → (s.x xs2).toNat < 64 → Spec.Joins s (Spec.pushClaim s vs mask c) →
    let b := (s.x xs2).toNat
    let rec_ := fun (p : Nat × Nat) => Spec.recordBytes s vs p.1 (p.2 / 8)
    (∀ p ∈ Spec.records s mask, primOk (rec_ p) = true) → Spec.queueTakes s b →
    ((s.basin b).gfx.queue.filter Option.isSome).length + (Spec.records s mask).length ≤ 512 →
    ∃ t, exec (.qpush vs xs2 mask c) s = .next t ∧ Spec.FedBasins s t (Spec.vectorHart s (Spec.pushClaim s vs mask c) s.h)
      ∧ (t.basin b).gfx.queue = (s.basin b).gfx.queue ++ (Spec.records s mask).map (fun p => some (primOf (rec_ p)))
      ∧ (∀ n, n ≠ b → t.basin n = s.basin n)

/-- R218: `qend` puts one end mark on a queue that is open for its context, and completes. -/
def EndMarkCompletes : Prop :=
  ∀ (s : State) (xs2 : BitVec 5), s.lane = none → s.mem.wf = true → (s.x xs2).toNat < 64 → Spec.queueTakes s (s.x xs2).toNat →
    let b := (s.x xs2).toNat
    ∃ t, exec (.qend xs2) s = .next t ∧ Spec.FedBasins s t (s.h.doneAt s.checkerNext (s.h.pc + 4))
      ∧ ∀ n, t.basin n = if n = b then { s.basin b with gfx := { (s.basin b).gfx with queue := (s.basin b).gfx.queue ++ [none] } } else s.basin n

/-- R216 to R218: `qpush` pushes the records of its active positions in order up to the room of the queue; `qend` pushes one end mark. -/
def Binning : Prop :=
  ∀ (s : State) (vs xs2 : BitVec 5) (mask : BitVec 3) (c : Bool), s.lane = none → s.mem.wf = true →
    let b := (s.x xs2).toNat
    let opened := Spec.queueTakes s b
    (64 ≤ b → Traps (.qend xs2) s 0x040 (s.x xs2))
    ∧ (b < 64 → ¬ opened → Traps (.qend xs2) s 0x107 (BitVec.ofNat 64 b))
    ∧ (b < 64 → opened →
        ∃ t, exec (.qend xs2) s = .next t ∧ HartDone s t.h 0 0 0 (s.pc + 4) s.checkerNext ∧ (∀ k, k ≠ s.cur → t.hartOf k = s.hartOf k)
          ∧ (∀ n, t.basin n = if n = b then { s.basin b with gfx := { (s.basin b).gfx with queue := (s.basin b).gfx.queue ++ [none] } } else s.basin n)
          ∧ ∀ a, Spec.sees t s.agent a = Spec.sees s s.agent a)
    ∧ (Spec.ShapeOk s.h.shape → Spec.StartOk s → Spec.sewOf s = 64 → Spec.Group s vs → b < 64 →
        let ps := Spec.records s mask
        let rec_ := fun (p : Nat × Nat) => Spec.recordBytes s vs p.1 (p.2 / 8)
        let room := 512 - ((s.basin b).gfx.queue.filter Option.isSome).length
        (∀ q a p, ps = q ++ p :: a → (∀ x ∈ q, primOk (rec_ x) = true) → primOk (rec_ p) = false →
          Traps (.qpush vs xs2 mask c) s 0x040 (BitVec.ofNat 64 (p.1 * 2 ^ 16 + p.2)))
        ∧ ((∀ p ∈ ps, primOk (rec_ p) = true) → Spec.Joins s (Spec.pushClaim s vs mask c) →
          (¬ opened → Traps (.qpush vs xs2 mask c) s 0x107 (BitVec.ofNat 64 b))
          ∧ (opened →
            ∃ t, exec (.qpush vs xs2 mask c) s = .next t
              ∧ (t.basin b).gfx.queue = (s.basin b).gfx.queue ++ (ps.take room).map (fun p => some (primOf (rec_ p)))
              ∧ (∀ n, n ≠ b → t.basin n = s.basin n) ∧ (∀ k, k ≠ s.cur → t.hartOf k = s.hartOf k)
              ∧ (∀ a, Spec.sees t s.agent a = Spec.sees s s.agent a)
              ∧ (ps.length ≤ room → t.h = Spec.vectorHart s (Spec.pushClaim s vs mask c) s.h)
              ∧ (∀ p rest, ps.drop room = p :: rest → t.h = { s.h with
                  shape := { s.h.shape with vstart := BitVec.ofNat 64 (p.1 * 2 ^ 16 + p.2) }
                  wait := { s.h.wait with reason := 0x0B, tag := BitVec.ofNat 6 b, peer := 0 } }))))

/-- R219, R220: a `pxlock` whose locks have all been granted completes and keeps them; one without an active position completes at once. -/
def LockCompletes : Prop :=
  ∀ (s : State) (vs xs2 : BitVec 5) (mask : BitVec 3) (c : Bool), s.lane = none → Spec.ShapeOk s.h.shape → Spec.StartOk s →
    Spec.sewOf s = 32 → Spec.Group s vs → (s.x xs2).toNat < 2 ^ 32 → Spec.Joins s (Spec.claimPlain c mask (Spec.regs s vs) [] []) →
    (s.h.asked = true ∧ s.h.wait.reason = 0x0C ∧ ∀ e ∈ s.basins, ∀ r ∈ e.2.gfx.reqs, r.hart ≠ s.cur)
      ∨ (s.h.asked = false ∧ Spec.positions s (Spec.activeAt s mask) = []) →
    ∃ t, exec (.pxlock vs xs2 mask c) s = .next t ∧ t.h = Spec.vectorHart s (Spec.claimPlain c mask (Spec.regs s vs) [] []) s.h
      ∧ (∀ k, k ≠ s.cur → t.hartOf k = s.hartOf k) ∧ t = { s with harts := t.harts, basins := t.basins }
      ∧ (s.h.asked = true → ∀ e ∈ t.basins, ∀ l ∈ e.2.gfx.locks, l.hart = s.cur → l.held = true)

/-- R221, R336: `pxunlock` of pixels whose locks the hart holds gives them up and completes. -/
def UnlockCompletes : Prop :=
  ∀ (s : State) (vs : BitVec 5) (mask : BitVec 3) (c : Bool), s.lane = none → Spec.ShapeOk s.h.shape → Spec.StartOk s → s.mem.wf = true →
    Spec.sewOf s = 32 → Spec.Group s vs → Spec.Joins s (Spec.claimPlain c mask (Spec.regs s vs) [] []) →
    (∀ p ∈ Spec.positions s (Spec.activeAt s mask), Spec.locked s s.cur (Spec.pixel s vs p)) →
    ∃ t, exec (.pxunlock vs mask c) s = .next t
      ∧ Spec.FedBasins s t (Spec.vectorHart s (Spec.claimPlain c mask (Spec.regs s vs) [] []) s.h)
      ∧ (∀ q ∈ t.c.pstores, ∀ a, q.loc ≠ .dev a)
      ∧ ∀ p ∈ Spec.positions s (Spec.activeAt s mask), ¬ Spec.locked t s.cur (Spec.pixel s vs p)

/-- R222, R336, R337: `pxskip` of pixels of the open frame that the hart holds no lock on retires their entries and completes. -/
def SkipCompletes : Prop :=
  ∀ (s : State) (vs xs2 : BitVec 5) (mask : BitVec 3) (c : Bool) (d : FrameDesc), s.lane = none → Spec.ShapeOk s.h.shape → Spec.StartOk s →
    s.mem.wf = true → Spec.sewOf s = 32 → Spec.Group s vs → (s.x xs2).toNat < 2 ^ 32 →
    Spec.Joins s (Spec.claimPlain c mask (Spec.regs s vs) [] []) → openFrame s = some d →
    (∀ p ∈ Spec.positions s (Spec.activeAt s mask), (Spec.pixel s vs p).1 < d.width ∧ (Spec.pixel s vs p).2 < d.height
      ∧ ¬ Spec.locked s s.cur (Spec.pixel s vs p)) →
    ∃ t, exec (.pxskip vs xs2 mask c) s = .next t
      ∧ Spec.FedBasins s t (Spec.vectorHart s (Spec.claimPlain c mask (Spec.regs s vs) [] []) s.h)
      ∧ ∀ p ∈ Spec.positions s (Spec.activeAt s mask),
          let q := Spec.pixel s vs p
          let i := d.tileAt q.1 q.2
          (s.basin (d.owner i)).gfx.launch = openLaunch s → (s.basin (d.owner i)).gfx.desc = d →
          (∃ r ∈ ((s.basin (d.owner i)).gfx.tile i).list, r.covers q.1 q.2 = true ∧ r.seq.toNat = (s.x xs2).toNat) →
          (q.1, q.2, (s.x xs2).toNat) ∈ ((t.basin (d.owner i)).gfx.tile i).retired

/-- R219 to R222, R337: `pxlock` requests the locks of its pixels and waits for them, `pxunlock` and `pxskip` retire the entries, and a wrong
pixel traps with 0x049 at its position. -/
def PixelInterlocks : Prop :=
  ∀ (s : State) (vs xs2 : BitVec 5) (mask : BitVec 3) (c : Bool), s.lane = none → Spec.ShapeOk s.h.shape → Spec.StartOk s →
    Spec.sewOf s = 32 → Spec.Group s vs →
    let cl := Spec.claimPlain c mask (Spec.regs s vs) [] []
    Spec.Joins s cl →
    let ps := Spec.positions s (Spec.activeAt s mask)
    let px := fun (p : Nat × Nat) => Spec.pixel s vs p
    let at_ := fun (p : Nat × Nat) => (BitVec.ofNat 64 (p.1 * 2 ^ 16 + p.2) : Word)
    let seq := (s.x xs2).toNat
    (2 ^ 32 ≤ seq → Traps (.pxlock vs xs2 mask c) s 0x040 (s.x xs2) ∧ Traps (.pxskip vs xs2 mask c) s 0x040 (s.x xs2))
    ∧ (seq < 2 ^ 32 → ∀ d, openFrame s = some d →
      let inside := fun (p : Nat × Nat) => (px p).1 < d.width ∧ (px p).2 < d.height
      (s.h.asked = false →
        (∀ q a p, ps = q ++ p :: a → (∀ x ∈ q, inside x ∧ ¬ Spec.locked s s.cur (px x)) → ¬ (inside p ∧ ¬ Spec.locked s s.cur (px p)) →
          ((q.map px).dedup.length + (locksOf s s.cur).length ≤ 1024 → Traps (.pxlock vs xs2 mask c) s 0x049 (at_ p))
          ∧ Traps (.pxskip vs xs2 mask c) s 0x049 (at_ p))
        ∧ ((∀ p ∈ ps, inside p ∧ ¬ Spec.locked s s.cur (px p)) → ps ≠ [] → (ps.map px).dedup.length + (locksOf s s.cur).length ≤ 1024 →
            ∃ t, exec (.pxlock vs xs2 mask c) s = .next t
              ∧ t.h = { s.h with asked := true, shape := { s.h.shape with vstart := 0 }
                                 wait := { s.h.wait with reason := 0x0C, tag := 0, peer := 0 } }
              ∧ (∀ k, k ≠ s.cur → t.hartOf k = s.hartOf k)
              ∧ ∀ p ∈ ps, ({ x := (px p).1, y := (px p).2, seq := seq, hart := s.cur, launch := openLaunch s, held := false } : PixReq)
                  ∈ (t.basin (d.owner (d.tileAt (px p).1 (px p).2))).gfx.reqs))
      ∧ ((∀ p ∈ ps, inside p ∧ ¬ Spec.locked s s.cur (px p)) →
          ∃ t, exec (.pxskip vs xs2 mask c) s = .next t ∧ t.h = Spec.vectorHart s cl s.h ∧ (∀ k, k ≠ s.cur → t.hartOf k = s.hartOf k)))
    ∧ (s.h.asked = true → s.h.wait.reason = 0x0C → seq < 2 ^ 32 →
      let waits := ∃ e ∈ s.basins, ∃ r ∈ e.2.gfx.reqs, r.hart = s.cur
      (waits → exec (.pxlock vs xs2 mask c) s = .next s)
      ∧ (¬ waits → ∃ t, exec (.pxlock vs xs2 mask c) s = .next t ∧ t.h = Spec.vectorHart s cl s.h
          ∧ (∀ e ∈ t.basins, ∀ l ∈ e.2.gfx.locks, l.hart = s.cur → l.held = true)))
    ∧ (∀ q a p, ps = q ++ p :: a → (∀ x ∈ q, Spec.locked s s.cur (px x)) → ¬ Spec.locked s s.cur (px p) →
        Traps (.pxunlock vs mask c) s 0x049 (at_ p))
    ∧ ((∀ p ∈ ps, Spec.locked s s.cur (px p)) →
        ∃ t, exec (.pxunlock vs mask c) s = .next t ∧ t.h = Spec.vectorHart s cl s.h ∧ (∀ k, k ≠ s.cur → t.hartOf k = s.hartOf k)
          ∧ (∀ p ∈ ps, ¬ Spec.locked t s.cur (px p))
          ∧ (∀ k q, (k ≠ s.cur ∨ q ∉ ps.map px) → (Spec.locked t k q ↔ Spec.locked s k q))
          ∧ ∀ x, Spec.sees t s.agent x = Spec.sees (release s 3) s.agent x)

end Sys2Proof.Machine.Claims

/-- qpush and qend feed a basin; pxlock, pxunlock and pxskip hold and retire pixels (R217, R218, R219, R220, R221, R222, R336, R337). -/
def Obligations.BinningAndLocks : Prop :=
  Sys2Proof.Machine.Claims.PushCompletes ∧ Sys2Proof.Machine.Claims.EndMarkCompletes ∧ Sys2Proof.Machine.Claims.LockCompletes
    ∧ Sys2Proof.Machine.Claims.UnlockCompletes ∧ Sys2Proof.Machine.Claims.SkipCompletes ∧ Sys2Proof.Machine.Claims.Binning
    ∧ Sys2Proof.Machine.Claims.PixelInterlocks

namespace Sys2Proof.Machine.Claims

/-- R223 to R225, R338 to R340: `tsample` and `tsample.lod` through a pin that holds a well-formed descriptor and its texture write four channels of
every active position, and complete. -/
def SampleCompletes : Prop :=
  ∀ (i : Instr) (s : State) (vd vs x : BitVec 5) (mask : BitVec 3) (c : Bool) (token : BitVec 3) (lod : Bool) (p : Pin),
    (i = .tsample vd vs x mask c token ∧ lod = false ∨ i = .tsampleLod vd vs x mask c token ∧ lod = true) →
    let rows := s.h.shape.vrows.toNat
    let n := if lod then 4 else 3
    let run := fun (r : BitVec 5) (k : Nat) => (List.range (k * rows)).map (r.toNat + ·)
    let cl : Claim := { conv := c, units := 4, cross := false, rv := run vs n, rm := [mask.toNat], wv := run vd 4, wm := [] }
    let l := Spec.pinRead s p (s.x x).toNat 64
    let t0 := textureOf l
    s.lane = none → Spec.ShapeOk s.h.shape → Spec.StartOk s → Spec.sewOf s = 32 → Spec.Group s vd → Spec.Group s vs →
    vd.toNat + 4 * rows ≤ 32 → vs.toNat + n * rows ≤ 32 → (vd.toNat + 4 * rows ≤ vs.toNat ∨ vs.toNat + n * rows ≤ vd.toNat) →
    Spec.Joins s cl → s.mem.wf = true → Spec.StoresInLine s s.agent → Spec.HeaderOk s token (s.x x) p → Spec.PinClean s p →
    textureOk l = true → Spec.RangeOk p t0.base.toNat (t0.layers * t0.pitch) →
    ∃ t v, exec i s = .next t ∧ Spec.Reads s t (Spec.vectorHart s cl { s.h with v := v })
      ∧ Spec.ElementsWritten s.h.v v vd.toNat 32 (fun j e => decide (j < 4 * rows) && Spec.activeAt s mask (j % rows) e)
          (fun j e => Spec.sampled s p t0 lod (fun q => Spec.elemOf s.h.v (vs.toNat + q * rows + j % rows) 32 e) (j / rows))

/-- R223 to R225, R338 to R340: `tsample` checks the pin and the descriptor and writes four channels of every active position. -/
def TextureSample : Prop :=
  ∀ (i : Instr) (s : State) (vd vs x : BitVec 5) (mask : BitVec 3) (c : Bool) (token : BitVec 3) (lod : Bool) (p : Pin),
    s.lane = none → Spec.ShapeOk s.h.shape → Spec.sampleForm i = some (vd, vs, x, mask, c, token, lod) →
    let rows := s.h.shape.vrows.toNat
    let n := if lod then 4 else 3
    let run := fun (r : BitVec 5) (k : Nat) => (List.range (k * rows)).map (r.toNat + ·)
    let cl : Claim := { conv := c, units := 4, cross := false, rv := run vs n, rm := [mask.toNat], wv := run vd 4, wm := [] }
    let d := s.x x
    let l := Spec.pinRead s p d.toNat 64
    Spec.StartOk s → Spec.sewOf s = 32 → Spec.Group s vd → Spec.Group s vs → vd.toNat + 4 * rows ≤ 32 → vs.toNat + n * rows ≤ 32 →
    (vd.toNat + 4 * rows ≤ vs.toNat ∨ vs.toNat + n * rows ≤ vd.toNat) → Spec.Joins s cl →
    s.mem.wf = true → Spec.StoresInLine s s.agent →
    (Spec.positions s (Spec.activeAt s mask) = [] → ∃ t, exec i s = .next t ∧ Spec.VectorDone s t cl s.h)
    ∧ (Spec.positions s (Spec.activeAt s mask) ≠ [] →
      (token = 0 ∨ s.h.pins.get token.toFin = none → Traps i s 0x080 (token.setWidth 64))
      ∧ (Spec.HeaderOk s token d p → Spec.PinClean s p →
        (textureOk l = false → ∃ u t, exec i s = .next t ∧ Trapped u t 0x088 d s.pc 0 ∧ Spec.Reads s u s.h)
        ∧ (textureOk l = true → Spec.RangeOk p (textureOf l).base.toNat ((textureOf l).layers * (textureOf l).pitch) →
          ∃ t v, exec i s = .next t ∧ Spec.Reads s t (Spec.vectorHart s cl { s.h with v := v })
            ∧ Spec.ElementsWritten s.h.v v vd.toNat 32 (fun j e => decide (j < 4 * rows) && Spec.activeAt s mask (j % rows) e)
                (fun j e => Spec.sampled s p (textureOf l) lod (fun q => Spec.elemOf s.h.v (vs.toNat + q * rows + j % rows) 32 e) (j / rows)))))

/-- R226 to R229, R341, R344, R345: `rquery` and `rquery.any` through a pin that holds a well-formed header, its nodes, triangles and instances write the
six words of each active ray's result, and complete; rays of equal operands have equal results. -/
def QueryCompletes : Prop :=
  ∀ (i : Instr) (s : State) (vd vs x : BitVec 5) (mask : BitVec 3) (c : Bool) (token : BitVec 3) (p : Pin),
    (i = .rquery vd vs x mask c token ∨ i = .rqueryAny vd vs x mask c token) →
    let run := fun (r : BitVec 5) (k : Nat) => (List.range k).map (r.toNat + ·)
    let cl : Claim := { conv := c, units := 4, cross := false, rv := run vs 8, rm := [mask.toNat], wv := run vd 6, wm := [] }
    let l := Spec.pinRead s p (s.x x).toNat 64
    let b := bvhOf l
    s.lane = none → Spec.ShapeOk s.h.shape → Spec.StartOk s → Spec.sewOf s = 32 → s.h.shape.vrows = 1 → vs.toNat % 8 = 0 → vd.toNat ≤ 26 →
    (vd.toNat + 6 ≤ vs.toNat ∨ vs.toNat + 8 ≤ vd.toNat) → Spec.Joins s cl → s.mem.wf = true → Spec.StoresInLine s s.agent →
    Spec.HeaderOk s token (s.x x) p → Spec.PinClean s p → bvhOk l = true →
    Spec.RangeOk p b.nodes (128 * b.nodecount) → Spec.RangeOk p b.tris (48 * b.tricount) → Spec.RangeOk p b.insts (64 * b.instcount) →
    let val := fun (e k : Nat) => Spec.elemOf s.h.v (vs.toNat + k) 32 e
    ∃ t v, ∃ r : Nat → Ended, exec i s = .next t ∧ Spec.Reads s t (Spec.vectorHart s cl { s.h with v := v })
      ∧ Spec.ElementsWritten s.h.v v vd.toNat 32 (fun j e => decide (j < 6) && Spec.activeAt s mask 0 e) (fun j e => hitRecord (r e) j)
      ∧ (∀ e, Spec.activeAt s mask 0 e = true → (r e).status ≤ 3 ∧ (Spec.degenerate (val e) → r e = { status := 0, best := none }))
      ∧ ∀ e f, Spec.activeAt s mask 0 e = true → Spec.activeAt s mask 0 f = true → (∀ k, k < 8 → val e k = val f k) → r e = r f

/-- R226 to R229, R341 to R345: `rquery` checks the pin and the header and writes the six words of each active ray's result; a degenerate ray has
status 0, and a hit lies between the ray's two distances. -/
def RayQuery : Prop :=
  ∀ (i : Instr) (s : State) (vd vs x : BitVec 5) (mask : BitVec 3) (c : Bool) (token : BitVec 3) (p : Pin),
    s.lane = none → Spec.ShapeOk s.h.shape → Spec.queryForm i = some (vd, vs, x, mask, c, token) →
    let run := fun (r : BitVec 5) (k : Nat) => (List.range k).map (r.toNat + ·)
    let cl : Claim := { conv := c, units := 4, cross := false, rv := run vs 8, rm := [mask.toNat], wv := run vd 6, wm := [] }
    let d := s.x x
    let l := Spec.pinRead s p d.toNat 64
    let b := bvhOf l
    Spec.StartOk s → Spec.sewOf s = 32 → s.h.shape.vrows = 1 → vs.toNat % 8 = 0 → vd.toNat ≤ 26 →
    (vd.toNat + 6 ≤ vs.toNat ∨ vs.toNat + 8 ≤ vd.toNat) → Spec.Joins s cl → s.mem.wf = true → Spec.StoresInLine s s.agent →
    (Spec.positions s (Spec.activeAt s mask) = [] → ∃ t, exec i s = .next t ∧ Spec.VectorDone s t cl s.h)
    ∧ (Spec.positions s (Spec.activeAt s mask) ≠ [] → Spec.HeaderOk s token d p → Spec.PinClean s p →
      (bvhOk l = false → ∃ u t, exec i s = .next t ∧ Trapped u t 0x089 d s.pc 0 ∧ Spec.Reads s u s.h)
      ∧ (bvhOk l = true → Spec.RangeOk p b.nodes (128 * b.nodecount) → Spec.RangeOk p b.tris (48 * b.tricount) → Spec.RangeOk p b.insts (64 * b.instcount) →
        let val := fun (e k : Nat) => Spec.elemOf s.h.v (vs.toNat + k) 32 e
        ∃ t v, ∃ r : Nat → Ended, exec i s = .next t
          ∧ Spec.Reads s t (Spec.vectorHart s cl { s.h with v := v })
          ∧ Spec.ElementsWritten s.h.v v vd.toNat 32 (fun j e => decide (j < 6) && Spec.activeAt s mask 0 e) (fun j e => hitRecord (r e) j)
          ∧ ∀ e, Spec.activeAt s mask 0 e = true →
              (r e).status ≤ 3
              ∧ (Spec.degenerate (val e) → r e = { status := 0, best := none })
              ∧ ((r e).status = 1 → ∃ h, (r e).best = some h ∧ (f32Ext (val e 6)).le (.fin h.hit.t) = true ∧ (Ext.fin h.hit.t).le (f32Ext (val e 7)) = true)))

end Sys2Proof.Machine.Claims

/-- tsample and rquery check their descriptors and write their results (R223, R224, R225, R226, R227, R229, R341, R344, R345). -/
def Obligations.TextureAndRays : Prop :=
  Sys2Proof.Machine.Claims.SampleCompletes ∧ Sys2Proof.Machine.Claims.QueryCompletes ∧ Sys2Proof.Machine.Claims.TextureSample
    ∧ Sys2Proof.Machine.Claims.RayQuery

namespace Sys2Proof.Machine.Claims

/-- R263, R264, R18: a task starts on the lowest free hart, on the channel the scheduler's order chooses, with the start values of every register. -/
def TaskStart : Prop :=
  ∀ (s : State) (core j ch : Nat), j < 8 →
    let c := s.coreOf core
    let k := 8 * core + j
    let e := c.task ch
    c.part.launch.isSome = true → Spec.Rising c.tasks → (∀ x ∈ c.tasks, x.1 < 64) → Spec.Chosen c ch →
    (s.hartOf k).run = .free → (∀ i, i < j → (s.hartOf (8 * core + i)).run ≠ .free) →
    ∃ t, exec (.taskStart core) s = .next t
      ∧ t = { s with harts := t.harts, cores := t.cores }
      ∧ (∀ n, n ≠ k → t.hartOf n = s.hartOf n) ∧ (∀ n, n ≠ core → t.coreOf n = s.coreOf n)
      ∧ (t.coreOf core).task ch = { e with busy := true, pending := false }
      ∧ (∀ n, n ≠ ch → (t.coreOf core).task n = c.task n)
      ∧ (∀ p : Fin 4, ((t.coreOf core).rr.get p).toNat = if p = e.priority.toFin then ch else (c.rr.get p).toNat)
      ∧ (t.coreOf core).sp = c.sp ∧ (t.coreOf core).mail = c.mail
      ∧ (let h := t.hartOf k
         h.run = .task (BitVec.ofNat 6 ch) ∧ h.pc = e.entry ∧ (∀ i : Fin 32, (h.x.get i).toNat = Spec.startX ch e c.part.gangid i.val)
         ∧ h.v = Vector.replicate 32 0 ∧ (∀ i : Fin 8, i ≠ 0 → h.m.get i = 0) ∧ h.pins = Vector.replicate 8 none ∧ h.user = UserRegs.reset
         ∧ h.convoy = [] ∧ h.checker = .idle ∧ h.lanes = none ∧ h.pending = []
         ∧ h.trap.cause = 0 ∧ h.trap.epc = 0 ∧ h.trap.tval = 0 ∧ h.trap.restart = 0
         ∧ h.trap.mcause = (s.hartOf k).trap.mcause ∧ h.trap.mepc = (s.hartOf k).trap.mepc ∧ h.trap.mtval = (s.hartOf k).trap.mtval
         ∧ h.shape = { Shape.reset with vslip := c.part.lflags.setWidth 4 }
         ∧ h.trap.status = { Status.reset with mmstrong := c.part.lflags.getLsbD 4 }
         ∧ h.trap.tvec = c.part.supTvec ∧ h.trap.sscratch = c.part.supScratch ∧ h.trap.tdeleg = c.part.supDeleg
         ∧ h.trap.mtvec = (s.hartOf k).trap.mtvec ∧ h.trap.mscratch = (s.hartOf k).trap.mscratch
         ∧ h.wait.reason = 0 ∧ h.wait.count = 0 ∧ h.wait.limit = e.budget ∧ h.wait.expired = false)

/-- R241, R266 to R268, R271, R273: machine checks, budget expiry, freeze marks (that of a peer of this package as its `fhold` bits and its harts in
fault service say), and the report of a quiescent core. -/
def HartEvents : Prop :=
  ∀ (s : State) (k : Nat),
    let h := s.hartOf k
    (∀ b : Bool, Spec.onTask h ∨ h.run = .firmware → ∃ t, exec (.hartStateMachineCheck k b) s = .next t
      ∧ Spec.HartBecomes s t k { h with pending := h.pending ++ [{ cause := if b then 0x163 else 0x161, tval := 0 }] })
    ∧ (s.lane = none → Spec.onTask h → h.trap.status.priv ≠ 3 → frozen s k = false → h.wait.limit.toNat ≤ h.wait.count.toNat →
        h.wait.reason = 0 → h.pending = [] →
        let u := { s with cur := k }
        (h.wait.expired = false → ∃ v t, Trapped u v 0x100 (h.wait.budget.setWidth 64) h.pc 0
          ∧ exec (.budgetExpiry k) s = .next t
          ∧ t = { v with cur := s.cur, harts := t.harts }
          ∧ t.hartOf k = { v.hartOf k with wait := { (v.hartOf k).wait with expired := true, count := 0, limit := 65536 } }
          ∧ ∀ j, j ≠ k → t.hartOf j = s.hartOf j)
        ∧ (h.wait.expired = true → ∃ t, exec (.budgetExpiry k) s = .next t
          ∧ (t.hartOf k).trap = trapRegsM h.trap 0x100 65536 h.pc 0 ∧ (t.hartOf k).pc = h.trap.mtvec
          ∧ (t.hartOf k).x = h.x ∧ (t.hartOf k).v = h.v ∧ (t.hartOf k).wait.count = 0 ∧ (t.hartOf k).wait.limit = 65536
          ∧ (∀ j, j ≠ k → t.hartOf j = s.hartOf j) ∧ t.mem = s.mem))
    ∧ (∀ (core : Nat) (peer : BitVec 32) (mark : Bool),
        let due := coordPkg peer ≠ s.hostif.regs.pkgid.toNat
          ∨ (mark = true ↔ ∃ site, siteOf s peer = some site ∧ ((∃ e ∈ (s.coreOf site).tasks, e.2.preempt = true ∨ e.2.siphon = true)
              ∨ ∃ j, j < 8 ∧ Spec.onTask (s.hartOf (8 * site + j)) ∧ (s.hartOf (8 * site + j)).trap.status.priv = 3))
        (due → ∃ t m, exec (.freezeMarkArrival core peer mark) s = .next t
          ∧ Spec.CoreBecomes s t core { s.coreOf core with marks := m }
          ∧ ∀ p, p ∈ m ↔ if p = peer then mark = true else p ∈ (s.coreOf core).marks)
        ∧ (¬ due → exec (.freezeMarkArrival core peer mark) s = .next s))
    ∧ (∀ core : Nat, (s.coreOf core).part.launch.isSome = true → Spec.Quiescent s core → ∃ t, exec (.coreCompleteReport core) s = .next t
        ∧ Spec.CoreBecomes s t core { s.coreOf core with part := { (s.coreOf core).part with reported := true } })

/-- R245, R268: where an asynchronous cause is due, a waiting instruction that can complete completes first; one that cannot is stopped, and the
cause's trap is taken. -/
def WaitBeforeCause : Prop :=
  ∀ (s t u : State), s.lane = none → Spec.onTask s.h → s.atFirmware = false → s.inRom = false → s.h.lanes = none → s.h.wait.reason ≠ 0 →
    asyncTurn s = some t → runInstr s = .next u →
    let done := u.h.wait.reason = 0 ∧ u.h.pc = s.h.pc + 4 ∧ u.h.trap = s.h.trap
    (done → runHart s = .next u) ∧ (¬ done → u.h.run ≠ .free → runHart s = .next t)

/-- R274, R275: a core starts the oldest launch that names it, with every unit of it at its start value and channel 0 posted; the weir channels of its
set are those of no other gang any longer. -/
def RunAheadStart : Prop :=
  ∀ (s : State) (core : Nat) (before after : List Launch) (l : Launch),
    let c := s.coreOf core
    c.part.launch = none → c.asg.valid = true → c.asg.spare = false →
    s.launches = before ++ l :: after → (∀ e ∈ before, c.coreid ∉ e.toStart) → (∀ e ∈ before ++ after, e.id ≠ l.id) →
    c.coreid ∈ l.toStart → (s.ctx l.ctx).st = .active → weirBusy s l = false →
    ∃ t, exec (.runAheadStart core) s = .next t
      ∧ t.launches = before ++ { l with toStart := l.toStart.filter (· ≠ c.coreid) } :: after
      ∧ (let d := t.coreOf core
         d.rr = Vector.replicate 4 63 ∧ d.mail = Mailbox.reset ∧ d.sluice = Sluice.reset ∧ d.weir = { Weir.reset with wmember := l.wmember, gangSet := l.wmember }
         ∧ d.part.gangid = l.gangid ∧ d.part.launch = some l.id ∧ d.part.lflags = l.lflags ∧ d.part.reported = false
         ∧ d.caches.l1d = [] ∧ d.caches.l1i = [] ∧ d.spBad = [] ∧ (l.panes = 0 → d.sp = [])
         ∧ (d.task 0).pending = true ∧ (d.task 0).s2 = c.coreid ∧ (d.task 0).s3 = 0 ∧ (d.task 0).s4 = 0 ∧ (d.task 0).s5 = 0
         ∧ (∀ n, n < 64 → n ≠ 0 → (d.task n).pending = false) ∧ (∀ n, n < 64 → (d.task n).busy = false ∧ (d.task n).hold = false)
         ∧ (∀ n, n < 64 → (d.task n).entry.toNat % 4 = 0) ∧ d.coreid = c.coreid)
      ∧ (∀ j, j ≠ core → (s.coreOf j).part.launch ≠ some l.id → (t.coreOf j).weir.wmember &&& l.wmember = 0)
      ∧ (∀ j, j < 8 → (t.hartOf (8 * core + j)).convoy = [] ∧ (t.hartOf (8 * core + j)).trap.status.mmstrong = l.lflags.getLsbD 4
          ∧ (t.hartOf (8 * core + j)).x = (s.hartOf (8 * core + j)).x)
      ∧ (∀ k, k / 8 ≠ core → t.hartOf k = s.hartOf k)

end Sys2Proof.Machine.Claims

/-- Tasks start on the lowest free hart; budgets, machine checks and launches reach harts (R18, R241, R245, R263, R264, R268, R271, R273, R274, R275).
-/
def Obligations.TasksAndHarts : Prop :=
  Sys2Proof.Machine.Claims.TaskStart ∧ Sys2Proof.Machine.Claims.HartEvents ∧ Sys2Proof.Machine.Claims.WaitBeforeCause
    ∧ Sys2Proof.Machine.Claims.RunAheadStart

namespace Sys2Proof.Machine.Claims

/-- R190, R181, R200, R206: what a delivered message does to its receiver: payload, counter and posted channel, a drain's rows, a copy's part, a task
bit. The payload layout of kind 5 (log 16) and the number that tells copies of kind 4 apart (log 38) are the model's. -/
def MessageDelivery : Prop :=
  ∀ (s : State) (a b : List Message) (m : Message) (k : Nat), s.net = a ++ m :: b → Spec.TakenAt s m k → (s.coreOf k).sp.wf = true →
    let c := s.coreOf k
    let o := Spec.dOffset m.desc
    (m.kind.toNat < 3 → m.req = none → ∃ t c', exec (.messageDelivery a.length) s = .next t
      ∧ Spec.CoreBecomes { s with net := a ++ b } t k c' ∧ Spec.Applied c c' m)
    ∧ (∀ rows st, m.kind = 3 → m.req = none → 0 < m.rownib.toNat → m.rownib.toNat ≤ 1024 → st = (m.rownib.toNat + 7) / 8 * 4 →
        m.data.length = rows * st →
        ∃ t c', exec (.drainDelivery a.length) s = .next t
          ∧ Spec.CoreBecomes { s with net := a ++ b } t k c'
          ∧ Spec.Counted c.mail c'.mail (Spec.dTag m.desc)
          ∧ Spec.Posted c c' (Spec.dChan m.desc) m.src (Spec.dTag m.desc) o (512 * rows)
          ∧ (∀ j i, j < rows → i < m.rownib.toNat / 2 → readByte c'.sp (o + 512 * j + i) = m.data.getD (st * j + i) 0)
          ∧ (∀ j, j < rows → m.rownib.toNat % 2 = 1 → let i := m.rownib.toNat / 2
              readByte c'.sp (o + 512 * j + i)
                = BitVec.ofNat 8 ((readByte c.sp (o + 512 * j + i)).toNat / 16 * 16 + (m.data.getD (st * j + i) 0).toNat % 16))
          ∧ (∀ x, (∀ j, j < rows → ¬ (o + 512 * j ≤ x ∧ x < o + 512 * j + (m.rownib.toNat + 1) / 2)) → readByte c'.sp x = readByte c.sp x))
    ∧ (∀ ch id, m.kind = 4 → m.req = some (ch, id) →
        let i := m.rownib.toNat % 64
        let n := m.rownib.toNat / 256 % 64 + 1
        let p := c.copyOf m.src m.copy
        ∃ t, exec (.scopyrPartDelivery a.length) s = .next t
          ∧ t = { s with net := a ++ b, cores := t.cores }
          ∧ (∀ j, j ≠ k → j ≠ m.hart / 8 → t.coreOf j = s.coreOf j)
          ∧ Spec.Written c (t.coreOf k) o m.data
          ∧ (p.got.length + 1 < n ∨ p.lost = true → (t.coreOf k).mail = c.mail ∧ (t.coreOf k).tasks = c.tasks)
          ∧ (n ≤ p.got.length + 1 → p.lost = false → 4096 * i ≤ o → Spec.Counted c.mail (t.coreOf k).mail (Spec.dTag m.desc)
              ∧ (Spec.dWake m.desc = true → Spec.Posted c (t.coreOf k) (Spec.dChan m.desc) m.src (Spec.dTag m.desc) (o - 4096 * i) (p.bytes + m.data.length)))
          ∧ ((t.coreOf (m.hart / 8)).sluice.chans.get ch.toFin).reqs =
              (((s.coreOf (m.hart / 8)).sluice.chans.get ch.toFin).reqs.map fun r =>
                if r.id = id then { r with chunks := r.chunks.mapIdx fun q x => if q / 8 = i then .done else x } else r).filter
                fun r => r.chunks.any fun x => decide (x ≠ .done))
    ∧ (∀ ch bit v, m.kind = 5 → m.req = none → ch < 64 → bit < 3 → m.data = leBytes 4 (ch + 256 * bit + if v = true then 65536 else 0) →
        let e := c.task ch
        ∃ t, exec (.taskBitMessage a.length) s = .next t
          ∧ Spec.CoreBecomes { s with net := a ++ b } t k (t.coreOf k) ∧ (t.coreOf k) = { c with tasks := (t.coreOf k).tasks }
          ∧ (t.coreOf k).task ch = (if bit = 0 then { e with hold := v } else if bit = 1 then { e with ready := v } else { e with enable := e.decl && v })
          ∧ ∀ n, n ≠ ch → (t.coreOf k).task n = c.task n)

/-- R190, R422: a message for a context that is free or fatal is dropped. -/
def RefusedMessage : Prop :=
  ∀ (s : State) (a b : List Message) (m : Message) (i : Instr), s.net = a ++ m :: b →
    (∀ e ∈ s.ctxs, e.2.tag = m.ctag → e.2.rows.getLsbD (coordRow m.dst) = true → e.2.st = .free ∨ e.2.st = .fatal) →
    (m.kind.toNat < 3 ∧ i = .messageDelivery a.length ∨ m.kind = 3 ∧ i = .drainDelivery a.length
      ∨ m.kind = 4 ∧ i = .scopyrPartDelivery a.length ∨ m.kind = 5 ∧ i = .taskBitMessage a.length) →
    ∃ t, exec i s = .next t ∧ t = { s with net := a ++ b }

/-- R194: a package answers a query with the placement its remap table holds. That the query carries no payload is the model's choice (log 16). -/
def PlacementQuery : Prop :=
  ∀ (s : State) (src dst : BitVec 32) (k : Nat) (v : Word),
    let e := remapOf s dst
    (∃ t, exec (.locqQuery src dst) s = .next t
      ∧ t = { s with answers := s.answers ++ [(src, e.epoch.setWidth 32
            ++ BitVec.ofNat 32 (s.hostif.regs.pkgid.toNat * 2 ^ 22 + dieOfCoord dst * 2 ^ 18 + e.prow.toNat * 2 ^ 8 + e.pcol.toNat))] })
    ∧ ((s.hartOf k).asked = true → (s.hartOf k).wait.reason = 0x06 →
        ∃ t, exec (.locqReply k v) s = .next t ∧ Spec.HartBecomes s t k { s.hartOf k with reply := some v })

end Sys2Proof.Machine.Claims

/-- A delivered message changes its receiver as R190 says, and a refused one nothing (R181, R190, R194, R200, R206). -/
def Obligations.MessageDelivery : Prop :=
  Sys2Proof.Machine.Claims.MessageDelivery ∧ Sys2Proof.Machine.Claims.RefusedMessage ∧ Sys2Proof.Machine.Claims.PlacementQuery

namespace Sys2Proof.Machine.Claims

/-- The fragment reaches die `die` on a path: one in flight there, as it was sent or spoiled so that its `crc` fails; or from another package, at a
fabric port. `u` is the state without the flight. -/
def Arriving (s u : State) (die path : Nat) (f : Fragment) : Prop :=
  let here := fun x : Flight => x.die = die ∧ x.path = path
  (∃ a b g, s.frags = a ++ { die := die, path := path, frag := g } :: b ∧ (∀ x ∈ a, ¬ here x) ∧ (f = g ∨ f.crc ≠ fragCrc f)
      ∧ u = { s with frags := a ++ b })
    ∨ (16 ≤ path ∧ dieOfCoord f.dst = die ∧ (∀ x ∈ s.frags ++ s.ctls, ¬ here x) ∧ u = s)

/-- R313, R318, R319, R325, R358, R436: an arriving fragment of a message is dropped and counted, opens a buffer, or joins its buffer; `decoded` and
`rebuilt` rise when every group is complete; one whose `crc` fails counts on its path too. -/
def FragmentReceipt : Prop :=
  ∀ (s u : State) (die path : Nat) (f : Fragment), die < 4 → Arriving s u die path f → (f.kind.toNat % 8 = 7 → f.crc ≠ fragCrc f) →
    let sp := (s.die die).spray
    let peer := 4 * coordPkg f.src + dieOfCoord f.src
    let r := Spec.rxOf sp peer
    let old := sp.bufs.find? fun x => decide (x.peer = peer) && decide (x.seq = f.seq)
    let kept := fun (t : State) => (t.die die).spray.rx = sp.rx ∧ (t.die die).spray.bufs = sp.bufs ∧ (t.die die).spray.tx = sp.tx ∧ t.net = s.net
    let whole := f.crc = fragCrc f ∧ ∀ x, old = some x → ∀ g, x.frags.head? = some g → g.rate = f.rate
    let late := Spec.finished r f.seq ∨ (f.seq - r.ack).toNat < 32 ∧ ∃ x, old = some x
      ∧ (x.decoded (f.grp.toNat / 16) = true ∨ ∃ g ∈ x.frags, g.grp.toNat / 16 = f.grp.toNat / 16 ∧ g.index = f.index)
    let health := fun (t : State) => (t.die die).paths.get (Fin.ofNat 22 path)
    ∃ t, exec (.fragmentArrival die path f) s = .next t
      ∧ (∀ d, d < 4 → d ≠ die → (t.die d).spray = (s.die d).spray) ∧ t.harts = s.harts ∧ (∀ k, (t.coreOf k).sp = (s.coreOf k).sp)
      ∧ (whole → t = { u with dies := t.dies })
      ∧ (¬ whole → kept t ∧ Spec.HalfCounted sp.cnts (t.die die).spray.cnts 3 false
          ∧ (health t).level = (if (health s).level = 0xFFFF then (health s).level else (health s).level + 1))
      ∧ (whole → 32 ≤ (f.seq - r.ack).toNat → ¬ Spec.finished r f.seq → kept t ∧ Spec.HalfCounted sp.cnts (t.die die).spray.cnts 3 true)
      ∧ (whole → late → kept t ∧ Spec.HalfCounted sp.cnts (t.die die).spray.cnts 2 false)
      ∧ (whole → (f.seq - r.ack).toNat < 32 → ¬ late → old = none → 512 ≤ sp.bufs.length →
          (t.die die).spray.bufs = sp.bufs ∧ Spec.HalfCounted sp.cnts (t.die die).spray.cnts 2 true
          ∧ ((f.seq + 1 - r.high).toNat < 2 ^ 31 → (Spec.rxOf (t.die die).spray peer).high = f.seq + 1))
      ∧ (whole → (f.seq - r.ack).toNat < 32 → ¬ late → (old ≠ none ∨ sp.bufs.length < 512) →
          ∃ x ∈ (t.die die).spray.bufs, x.peer = peer ∧ x.seq = f.seq
            ∧ x.frags = (match old with | some y => y.frags | none => []) ++ [f]
            ∧ (x.st = .deliver ↔ x.complete = true ∨ ∃ y, old = some y ∧ y.st = .deliver)
            ∧ (let c := sp.cnts
               let c' := (t.die die).spray.cnts
               if x.complete = true
               then (∀ i, i ≠ 1 → c'.get i = c.get i) ∧ Spec.lowHalf (c'.get 1) = (Spec.lowHalf (c.get 1) + 1) % 2 ^ 32
                 ∧ Spec.highHalf (c'.get 1) = (Spec.highHalf (c.get 1) + if x.rebuilds = true then 1 else 0) % 2 ^ 32
               else c' = c))

/-- R311, R316: a fragment from another package that arrives at a fabric port of another die than its own goes on over UCIe, undecoded, on the live
path that its index gives. -/
def FragmentRelay : Prop :=
  ∀ (s : State) (die path : Nat) (f : Fragment) (cls : BitVec 2), die < 4 → 16 ≤ path → (∀ x ∈ s.frags ++ s.ctls, ¬ (x.die = die ∧ x.path = path)) →
    coordPkg f.dst = s.hostif.regs.pkgid.toNat → dieOfCoord f.dst ≠ die → routeClass s die f.dst = some cls →
    let live := livePaths s die cls f.dst
    (live = [] → exec (.fragmentArrival die path f) s = .next s)
    ∧ (∀ r, live[f.index.toNat % live.length]? = some r →
        let g : Flight := { die := r.die, path := r.port, frag := f }
        exec (.fragmentArrival die path f) s
          = .next (if f.kind.toNat % 8 = 7 then { s with ctls := s.ctls ++ [g] } else { s with frags := s.frags ++ [g] }))

/-- R200, R319, R320, R322, R323, R325, R390: the first expiry requests the missing fragments, the second loses the message, of a copy once, and a
whole message is applied once. -/
def ReassemblyAndAcceptance : Prop :=
  ∀ (s : State) (die peer : Nat) (seq : BitVec 32) (x : DecodeBuf), die < 4 →
    let sp := (s.die die).spray
    let r := Spec.rxOf sp peer
    let key := 4 * s.hostif.regs.pkgid.toNat + die
    (sp.bufs.find? fun y => decide (y.peer = peer) && decide (y.seq = seq)) = some x → (seq - r.ack).toNat < 32 →
    let gone := fun (t : State) => Spec.finished (Spec.rxOf (t.die die).spray peer) seq ∧ ∀ y ∈ (t.die die).spray.bufs, ¬ (y.peer = peer ∧ y.seq = seq)
    let losses := fun (t : State) => Spec.quarter ((t.die die).spray.cnts.get 4) 0
    (x.st = .collect → ∃ t v, exec (.reassemblyTimerExpiry die peer seq) s = .next t
      ∧ { x with st := .requested } ∈ (v.die die).spray.bufs
      ∧ Spec.quarter ((v.die die).spray.cnts.get 4) 3 = (Spec.quarter (sp.cnts.get 4) 3 + 1) % 2 ^ 16
      ∧ (v.die die).spray.rx = sp.rx ∧ v = { s with dies := v.dies }
      ∧ Spec.ControlSent v t die (ctlFragment key peer 1 seq (requestData x.groupEntries)))
    ∧ (∀ f fs, x.frags = f :: fs → let (k, m) := rateKM f.rate.toNat
        x.groupEntries.length = f.grp.toNat % 16
        ∧ ∀ g e, x.groupEntries[g]? = some e →
            let held := x.frags.filter fun h => decide (h.grp.toNat / 16 = g)
            e / 2 ^ 56 = held.length ∧ ∀ i, i < k + m → (e.testBit i = true ↔ ∀ h ∈ held, h.index.toNat ≠ i))
    ∧ (x.st = .requested → ∃ t, exec (.reassemblyTimerExpiry die peer seq) s = .next t ∧ gone t
        ∧ ((∀ f ∈ x.frags.head?, f.kind.toNat % 8 ≠ 4) → losses t = (losses s + 1) % 2 ^ 16)
        ∧ (∀ k, (t.coreOf k).sp = (s.coreOf k).sp ∧ (t.coreOf k).tasks = (s.coreOf k).tasks ∧ (t.coreOf k).mail.counters = (s.coreOf k).mail.counters)
        ∧ (∀ f fs k n cx, x.frags = f :: fs → f.kind.toNat % 8 < 4 → siteOf s f.dst = some k → (s.coreOf k).lossrec.valid = false →
            ctxTagged s f.dst f.ctag = some (n, cx) → cx.recorded f.dst = false →
            (t.coreOf k).lossrec = { peer := f.src, kind := BitVec.ofNat 3 f.kind.toNat, tag := BitVec.ofNat 5 (Spec.dTag f.desc),
                                     more := (s.coreOf k).lossrec.more, atEnd := true, valid := true }
            ∧ (t.ctx n).lossCount = cx.lossCount + 1
            ∧ (∀ h hs, (s.coreOf k).mail.fifos.get (BitVec.ofNat 5 (Spec.dTag f.desc)).toFin = h :: hs →
                ∃ p ∈ (t.hartOf (8 * k + h)).pending, p.cause = 0x102))
        ∧ (∀ f fs k, x.frags = f :: fs → f.kind.toNat % 8 = 4 → siteOf s f.dst = some k →
            (∀ n cx, ctxTagged s f.dst f.ctag = some (n, cx) → cx.recorded f.dst = false) → ((s.coreOf k).copyOf f.src f.copy).lost = true →
            losses t = losses s ∧ (t.coreOf k).lossrec = (s.coreOf k).lossrec ∧ t.ctxs = s.ctxs ∧ t.harts = s.harts))
    ∧ (∀ m k, x.st = .deliver → x.message = some m → m.kind.toNat < 3 → Spec.TakenAt s m k → (s.coreOf k).sp.wf = true →
        ∃ t, exec (.decodedPacketAccepted die peer seq) s = .next t ∧ gone t
          ∧ Spec.Applied (s.coreOf k) (t.coreOf k) m ∧ (∀ j, j ≠ k → t.coreOf j = s.coreOf j)
          ∧ (t.die die).spray.cnts = sp.cnts
          ∧ t = { s with cores := t.cores, dies := t.dies, ctls := t.ctls, outFrags := t.outFrags })

/-- R312, R313, R316, R320, R321: what acknowledgements, requests and probes do to the sender's retained messages, and what is sent for them. -/
def SendingEngine : Prop :=
  ∀ (s u : State) (die peer : Nat), die < 4 →
    let sp := (s.die die).spray
    let tx := Spec.txOf sp peer
    let key := 4 * s.hostif.regs.pkgid.toNat + die
    (∀ src dst type seq data, let f := ctlFragment src dst type seq data
      f.kind = 7 ∧ f.index = 0xFF ∧ f.grp = BitVec.ofNat 8 type ∧ f.seq = seq ∧ f.data = data ∧ f.crc = fragCrc f
      ∧ (src < 4096 → 4 * coordPkg f.src + dieOfCoord f.src = src) ∧ (dst < 4096 → 4 * coordPkg f.dst + dieOfCoord f.dst = dst))
    ∧ (∀ ack lostmap, Spec.ControlTaken s u die peer 0 ack (ackData lostmap) →
      let covered := fun (e : Retained) => 1 ≤ (ack - e.seq).toNat ∧ (ack - e.seq).toNat ≤ 32
      ∃ t, exec (.sprayAck die peer ack lostmap) s = .next t
        ∧ (Spec.txOf (t.die die).spray peer).retained = tx.retained.filter (fun e => decide ¬ covered e)
        ∧ (Spec.txOf (t.die die).spray peer).next = tx.next
        ∧ (t.die die).spray.rx = sp.rx ∧ (t.die die).spray.bufs = sp.bufs ∧ t.ctls = u.ctls ∧ t.mem = s.mem
        ∧ (∀ k, (t.coreOf k).sp = (s.coreOf k).sp ∧ (t.coreOf k).mail = (s.coreOf k).mail)
        ∧ ((∀ e ∈ tx.retained, ¬ (covered e ∧ lostmap.getLsbD ((ack - e.seq).toNat - 1) = true)) → t.harts = s.harts ∧ (t.die die).spray.cnts = sp.cnts)
        ∧ (∀ e ∈ tx.retained, covered e → lostmap.getLsbD ((ack - e.seq).toNat - 1) = true → e.msg.req = none →
            Spec.onTask (s.hartOf e.msg.hart) → (s.hartOf e.msg.hart).serial = e.msg.serial →
            ∃ p ∈ (t.hartOf e.msg.hart).pending, p.cause = 0x101
              ∧ p.tval.toNat = e.msg.dst.toNat * 2 ^ 32 + e.msg.kind.toNat * 2 ^ 13 + Spec.dTag e.msg.desc * 2 ^ 8))
    ∧ (∀ seq groups before e after, Spec.ControlTaken s u die peer 1 seq (requestData groups) →
      tx.retained = before ++ e :: after → (∀ x ∈ before ++ after, x.seq ≠ seq) → e.seq = seq →
      let km := rateKM e.rate.toNat
      (e.answered = true → ∃ t, exec (.sprayRequest die peer seq groups) s = .next t ∧ t = u)
      ∧ (e.answered = false → ∃ t l, exec (.sprayRequest die peer seq groups) s = .next t
          ∧ Spec.txOf (t.die die).spray peer = { tx with retained := before ++ { e with answered := true } :: after }
          ∧ t = (if e.cls = 3 then { u with dies := t.dies, outFrags := s.outFrags ++ l } else { u with dies := t.dies, frags := s.frags ++ l })
          ∧ (∀ f ∈ l, f.frag.seq = seq ∧ f.frag.rate = e.rate ∧ km.1 + km.2 ≤ f.frag.index.toNat
              ∧ ∃ r ∈ livePaths s die e.cls e.msg.dst, f.die = r.die ∧ f.path = r.port)
          ∧ (livePaths s die e.cls e.msg.dst ≠ [] →
              l.length = ((List.range (groupCount e.msg.data.length km.1)).map fun g => km.1 - groups.getD g 0 / 2 ^ 56 % 256).sum)
          ∧ Spec.quarter ((t.die die).spray.cnts.get 4) 2 = (Spec.quarter (sp.cnts.get 4) 2 + 1) % 2 ^ 16))
    ∧ (∀ next, Spec.ControlTaken s u die peer 2 next [] →
      let r := Spec.rxOf sp peer
      ∃ t v, exec (.sprayProbe die peer next) s = .next t
        ∧ Spec.rxOf (v.die die).spray peer = { r with high := if (next - r.high).toNat < 2 ^ 31 then next else r.high }
        ∧ (v.die die).spray.tx = sp.tx ∧ (∃ l, (v.die die).spray.bufs = sp.bufs ++ l ∧ ∀ x ∈ l, x.st = .collect ∧ x.frags = [])
        ∧ v = { u with dies := v.dies } ∧ Spec.ControlSent v t die (ctlFragment key peer 0 r.ack (ackData r.lostmap)))
    ∧ (tx.retained ≠ [] → ∃ t, exec (.probeIntervalExpiry die peer) s = .next t
        ∧ Spec.ControlSent s t die (ctlFragment key peer 2 tx.next []))
    ∧ (tx.retained = [] → ∃ t, exec (.probeIntervalExpiry die peer) s = .next t ∧ t = s)

end Sys2Proof.Machine.Claims

/-- Spray: fragments, reassembly, loss and retransmission (R311, R312, R313, R316, R318, R319, R320, R321, R322, R325, R358). -/
def Obligations.SprayStreams : Prop :=
  Sys2Proof.Machine.Claims.FragmentReceipt ∧ Sys2Proof.Machine.Claims.FragmentRelay ∧ Sys2Proof.Machine.Claims.ReassemblyAndAcceptance
    ∧ Sys2Proof.Machine.Claims.SendingEngine

namespace Sys2Proof.Machine.Claims

/-- R398, R399: a bias flip takes its pages in ascending order and reports its end; of a page that goes to device bias the host holds no line any
longer. -/
def BiasFlips : Prop :=
  ∀ (s : State) (toHost : Bool) (count : BitVec 16),
    let h := s.hostif
    let b := h.bias
    (b.flip = none → ∃ t, exec (.biasFlipGo toHost count) s = .next t ∧ Spec.HostBecomes s t { h with bias :=
        { b with toHost := toHost, count := count, err := 0, done := 0
                 flip := some { page := b.page.toNat, left := count.toNat + 1, toHost := toHost } } })
    ∧ (b.flip.isSome = true → ∃ t, exec (.biasFlipGo toHost count) s = .next t ∧ Spec.HostBecomes s t { h with bias :=
        { b with toHost := toHost, count := count, err := 1 } })
    ∧ (∀ f, b.flip = some f → isDev (4096 * f.page) = false → ∃ t, exec .biasPageFlip s = .next t
        ∧ Spec.HostBecomes s t { h with bias := { b with err := 2, flip := none } })
    ∧ (∀ f, b.flip = some f → isDev (4096 * f.page) = true → ∃ t l, exec .biasPageFlip s = .next t
        ∧ (∀ p, p ∈ l ↔ if p = f.page then f.toHost = true else p ∈ b.host)
        ∧ (let kept := if f.toHost = true then h.held else h.held.filter fun line => decide (line / 32 ≠ f.page)
        (f.left ≠ 1 → Spec.HostBecomes s t { h with held := kept, bias :=
            { b with host := l, done := b.done + 1, flip := some { f with page := f.page + 1, left := f.left - 1 } } })
        ∧ (f.left = 1 → ∃ u, Spec.HostBecomes s u { h with held := kept, bias := { b with host := l, done := b.done + 1, flip := none } }
            ∧ t = u.emit 0x07 0xFF 0xFFFF (b.page.toNat * 4096) ((b.done + 1).toNat * 2 ^ 32 + b.err.toNat * 256) 0)))

/-- R396: the post area's slots are checked and passed to the host, or refused with state 4. Which words of a slot are read is the model's choice (log 31). -/
def AtomicProxy : Prop :=
  ∀ (s : State) (n slot : Nat),
    let cx := s.ctx n
    let a := cx.post.toNat * 4096 + 64 * slot
    let va : Word := BitVec.ofNat 64 (readLE s.mem (a + 16) 8)
    let op := readLE s.mem (a + 8) 1
    let size := readLE s.mem (a + 9) 1
    let put := fun (u t : State) (v : Nat) => t.hostMem = u.hostMem ∧ t.harts = u.harts
      ∧ ∀ x, readByte t.mem x = if a ≤ x ∧ x < a + 8 then (leBytes 8 v).getD (x - a) 0 else readByte u.mem x
    duties s = true → cx.st = .active → cx.post ≠ 0 → slot < 64 → s.mem.wf = true → isDev a = true → isDev (a + 63) = true → poisonAt s a 64 = none →
    readLE s.mem a 8 = 1 →
    (canonical va = false → ∃ t, exec (.postAreaScan n slot) s = .next t ∧ put s t 4)
    ∧ (∀ e, canonical va = true → walkCheck s cx va.toNat 3 false = .error e → ∃ t, exec (.postAreaScan n slot) s = .next t ∧ put s t 4)
    ∧ (∀ p, canonical va = true → walkCheck s cx va.toNat 3 false = .ok p → p.mtype = 2 → ∃ t, exec (.postAreaScan n slot) s = .next t ∧ put s t 4)
    ∧ (∀ p, canonical va = true → walkCheck s cx va.toNat 3 false = .ok p → p.mtype ≠ 2 → (walkUpdate s p 3).mem.wf = true →
        let u := walkUpdate s p 3
        let good := op ≤ 2 ∧ (size = 4 ∨ size = 8) ∧ va.toNat % size = 0
          ∧ (∀ i, i < 6 → readByte s.mem (a + 10 + i) = 0) ∧ (∀ i, i < 16 → readByte s.mem (a + 48 + i) = 0)
        (∀ h, paLoc (p.pa + (va.toNat - p.va)) = .host h → good →
          ∃ t v, exec (.postAreaScan n slot) s = .next t ∧ put u v 2 ∧ t = v.emit 0x04 n 0xFFFF a h (op + 256 * size))
        ∧ ((∀ h, paLoc (p.pa + (va.toNat - p.va)) ≠ .host h) ∨ ¬ good → ∃ t, exec (.postAreaScan n slot) s = .next t ∧ put u t 4))

/-- R393, R412: a page request that is answered, refused or late. -/
def PageRequests : Prop :=
  ∀ (s : State) (a b : List PageReq) (p : PageReq), s.hostif.prgs = a ++ p :: b →
    let u := { s with hostif := { s.hostif with prgs := a ++ b } }
    (∃ t, exec (.prgResponse a.length true) s = .next t ∧ t = u)
    ∧ (∀ i, i = .prgResponse a.length false ∨ i = .pageRequestTimeout a.length →
      ((∀ r ∈ ((s.coreOf p.core).sluice.chans.get p.chan.toFin).reqs, r.id ≠ p.id) → ∃ t, exec i s = .next t
        ∧ Spec.CoreBecomes u t p.core (s.coreOf p.core))
      ∧ (∀ before r after, ((s.coreOf p.core).sluice.chans.get p.chan.toFin).reqs = before ++ r :: after → (∀ x ∈ before, x.id ≠ p.id) → r.id = p.id →
          (s.coreOf p.core).sluice.faults.length + p.runs.length ≤ 16 →
          ∃ t, exec i s = .next t
            ∧ Spec.CoreBecomes u t p.core { s.coreOf p.core with sluice := { (s.coreOf p.core).sluice with
                faults := (s.coreOf p.core).sluice.faults ++ p.runs.map fun x =>
                  { id := r.id, chan := p.chan, hart := BitVec.ofNat 3 r.hart, kind := 2, vaddr := x.2.2, first := BitVec.ofNat 32 x.1,
                    count := BitVec.ofNat 32 x.2.1, cause := p.cause } } }))

/-- R393: an invalidation removes the translation and drains the stores to its page. -/
def AtsInvalidate : Prop :=
  ∀ (s : State) (pasid : BitVec 20) (page : Nat),
    ∃ t, exec (.atsInvalidate pasid page) s = .next t
      ∧ (pasid, page) ∉ t.hostif.ats ∧ (∀ e, e ≠ (pasid, page) → (e ∈ t.hostif.ats ↔ e ∈ s.hostif.ats))
      ∧ (∀ k n c, ctxOfAgent s k = some (n, c) → c.pasidEn = true → c.pasid = pasid →
          ∀ p ∈ (t.coreOf k).pstores, ∀ h, p.loc = .host h → h / 4096 ≠ page)
      ∧ t.mem = s.mem ∧ t.harts = s.harts ∧ ∀ k, (t.coreOf k).sp = (s.coreOf k).sp

end Sys2Proof.Machine.Claims

/-- Bias flips, the atomic proxy, page requests and ATS invalidations (R393, R396, R398, R399, R412). -/
def Obligations.HostServices : Prop :=
  Sys2Proof.Machine.Claims.BiasFlips ∧ Sys2Proof.Machine.Claims.AtomicProxy ∧ Sys2Proof.Machine.Claims.PageRequests ∧ Sys2Proof.Machine.Claims.AtsInvalidate

namespace Sys2Proof.Machine.Claims

/-- R326 to R328, R331 to R336: the oldest frame of an Active context opens, its buffers translated; a frame takes end marks, resolves its tiles in order
to the pages captured, notifies their cores, grants pixel locks and completes. -/
def FrameEvents : Prop :=
  ∀ (s : State) (n : Nat),
    let b := s.basin n
    let g := b.gfx
    let becomes := fun (t : State) (v : Gfx) => Spec.BasinBecomes s t n { b with gfx := v }
    (∀ before id after l, g.waiting = before ++ id :: after →
      (∀ j ∈ before, ∀ e, s.launch? j = some e → (s.ctx e.ctx).st ≠ .active) → s.launch? id = some l → g.st = .idle → (s.ctx l.ctx).st = .active →
      ∃ t v, exec (.frameOpen n) s = .next t ∧ Spec.BasinBecomes (framePages s l.ctx l.desc).2 t n { b with gfx := v }
        ∧ v.st = .binning ∧ v.ctx = l.ctx ∧ v.launch = id ∧ v.desc = l.desc ∧ v.pages = (framePages s l.ctx l.desc).1
        ∧ v.waiting = g.waiting.filter (fun j => decide (j ≠ id)) ∧ v.queue = [] ∧ v.held = [] ∧ v.tiles = []
        ∧ v.marks = 0 ∧ v.accepted = 0 ∧ v.dupseq = 0 ∧ v.badprim = 0 ∧ v.ovf = 0 ∧ v.blovf = 0 ∧ v.locks = g.locks ∧ v.reqs = g.reqs)
    ∧ (none ∈ g.queue → g.st = .binning →
      (g.marks.toNat + 1 < 4096 →
        (g.marks.toNat + 1 < g.desc.nmarks → ∃ t, exec (.qendMarkArrival n) s = .next t
          ∧ becomes t { g with queue := g.queue.erase none, marks := g.marks + 1 })
        ∧ (g.desc.nmarks ≤ g.marks.toNat + 1 → ∃ t v, exec (.qendMarkArrival n) s = .next t ∧ becomes t v
          ∧ v.queue = [] ∧ v.marks = g.marks + 1
          ∧ v.st = (if (g.desc.ownedBy n) = [] then .draining else .resolving)
          ∧ ∀ i ∈ g.desc.ownedBy n, (v.tile i).state = 1)))
    ∧ (∀ i, g.st = .resolving → (s.ctx g.ctx).st = .active → i ∈ g.desc.ownedBy n → (g.tile i).state = 1 →
        (∀ j ∈ g.desc.ownedBy n, (g.tile j).state = 1 → i ≤ j) →
        let at_ := g.desc.visbuf.toNat + 131072 * i
        let l := g.region i
        ∃ t, exec (.tileResolve n) s = .next t
          ∧ Spec.BasinBecomes (frameWrite s g at_ l) t n { b with gfx := { g with
              tiles := smSet i { g.tile i with state := 2, prims := BitVec.ofNat 16 (min 0xFFFF (g.opaqueOf i).length) } g.tiles } }
          ∧ ∀ e pa, g.pages = [e] → e.va ≤ at_ → at_ + l.length ≤ e.va + e.size → (∀ k, k < l.length → e.locate 0 (at_ + k) = .dev (pa + k)) →
              s.mem.wf = true →
              ∀ x, readByte t.mem x = if pa ≤ x ∧ x < pa + l.length then l.getD (x - pa) 0 else readByte s.mem x)
    ∧ (∀ core i, let d := g.desc
        let c := s.coreOf core
        let e := c.task d.notifych.toNat
        i ∈ d.ownedBy n → (g.tile i).state = 2 → siteOf s (d.shadeCore s i) = some core → (s.ctx g.ctx).st = .active →
        (∀ j ∈ d.ownedBy n, (g.tile j).state = 2 → siteOf s (d.shadeCore s j) = some core → i ≤ j) →
        e.pending = false → e.busy = false → e.preempt = false → e.siphon = false →
        ∃ t, exec (.tileNotification n core) s = .next t
          ∧ t = { s with cores := t.cores, basins := t.basins }
          ∧ Spec.Counted c.mail (t.coreOf core).mail d.notifytag.toNat
          ∧ Spec.Posted c (t.coreOf core) d.notifych.toNat c.coreid d.notifytag.toNat i
              ((g.tile i).prims.toNat * 2 ^ 16 + (g.tile i).blends.toNat * 2 ^ 5 + b2n (g.tile i).bovf * 8 + b2n (g.tile i).ovf * 4 + 3)
          ∧ (t.coreOf core).sp = c.sp ∧ (∀ j, j ≠ core → t.coreOf j = s.coreOf j) ∧ (∀ j, j ≠ n → t.basin j = s.basin j)
          ∧ ((t.basin n).gfx.tile i).state = 3 ∧ (∀ j, j ≠ i → (t.basin n).gfx.tile j = g.tile j)
          ∧ (g.st = .resolving → (∀ j ∈ d.ownedBy n, j ≠ i → (g.tile j).state = 3) → (t.basin n).gfx.st = .draining))
    ∧ (g.st = .draining → (∀ l ∈ g.locks, l.launch ≠ g.launch) →
        (∀ i ∈ g.desc.ownedBy n, ∀ p ∈ (g.tile i).list, ∀ q ∈ g.desc.pixels i, p.covers q.1 q.2 = true → (q.1, q.2, p.seq.toNat) ∈ (g.tile i).retired) →
        ∃ t, exec (.frameComplete n) s = .next t ∧ (t.basin n).gfx = { g with st := .idle } ∧ (∀ j, j ≠ n → t.basin j = s.basin j)
          ∧ t.launches = s.launches.map (fun l => if l.id = g.launch then { l with basins := l.basins.filter (· ≠ n) } else l)
          ∧ t = { s with basins := t.basins, launches := t.launches })
    ∧ (∀ r x y, let ti := g.tile (g.desc.tileAt x y)
        let free := fun (q : PixReq) => q.x = x ∧ q.y = y ∧ q.launch = g.launch ∧ 2 ≤ ti.state.toNat
          ∧ ∀ p ∈ ti.list, p.covers x y = true → p.seq.toNat < q.seq → (x, y, p.seq.toNat) ∈ ti.retired
        ∀ before after, g.reqs = before ++ r :: after → free r → (∀ q ∈ before, free q → r.seq < q.seq) → (∀ q ∈ after, free q → r.seq ≤ q.seq) →
        (∀ l ∈ g.locks, ¬ (l.x = x ∧ l.y = y ∧ l.launch = g.launch)) → g.locks.length < 16384 →
        ∃ t, exec (.pixelLockGrant n x y) s = .next t ∧ becomes t { g with reqs := before ++ after, locks := g.locks ++ [r] })

/-- R329, R330, R335: a record is rejected, found empty, found a duplicate, found not to fit, or binned; it takes 64 bytes and 4 for each tile it
touches. -/
def RecordBinning : Prop :=
  ∀ (s : State) (n k : Nat) (p : Prim) (rest : List (Option Prim)),
    let b := s.basin n
    let g := b.gfx
    let d := g.desc
    let ts := (p.tiles d).filter fun i => decide (d.owner i = n)
    let cost := 64 + 4 * (p.tiles d).length
    let base := { g with queue := List.replicate k none ++ rest, accepted := g.accepted + 1 }
    let sat := fun (v : BitVec 16) (m : Nat) => BitVec.ofNat 16 (min 0xFFFF (v.toNat + m))
    let becomes := fun (t : State) (v : Gfx) => Spec.BasinBecomes s t n { b with gfx := v }
    g.queue = List.replicate k none ++ some p :: rest → g.st = .binning →
    (p.good = false → ∃ t, exec (.binRecord n) s = .next t ∧ becomes t { base with badprim := sat g.badprim 1 })
    ∧ (p.good = true → p.empty = true ∨ ts = [] ∨ p.seq ∈ g.dups → ∃ t, exec (.binRecord n) s = .next t ∧ becomes t base)
    ∧ (p.good = true → p.empty = false → ts ≠ [] → p.seq ∉ g.dups →
      (∀ q, q ∈ g.held → q.seq = p.seq → ∃ t v, exec (.binRecord n) s = .next t ∧ becomes t v
        ∧ v.held = g.held.filter (fun r => decide (r.seq ≠ p.seq)) ∧ v.dupseq = sat g.dupseq 2 ∧ v.dups = g.dups ++ [p.seq] ∧ v.used ≤ g.used
        ∧ v.queue = base.queue)
      ∧ ((∀ q ∈ g.held, q.seq ≠ p.seq) →
        (d.binbufsize.toNat / d.basinList.length - 4096 < g.used + cost → ∃ t v, exec (.binRecord n) s = .next t ∧ becomes t v
          ∧ v.held = g.held ∧ v.used = g.used ∧ v.ovf = sat g.ovf 1 ∧ (∀ i ∈ ts, (v.tile i).ovf = true) ∧ (∀ i, i ∉ ts → v.tile i = g.tile i))
        ∧ (g.used + cost ≤ d.binbufsize.toNat / d.basinList.length - 4096 →
          ∃ t v, exec (.binRecord n) s = .next t ∧ becomes t v
            ∧ (∀ q, q ∈ v.held ↔ q = p ∨ q ∈ g.held)
            ∧ (g.held.Pairwise (fun x y => x.seq.toNat < y.seq.toNat) → v.held.Pairwise (fun x y => x.seq.toNat < y.seq.toNat))
            ∧ v.used = g.used + cost ∧ v.ovf = g.ovf ∧ v.badprim = g.badprim ∧ v.dupseq = g.dupseq
            ∧ (p.blend = false → v.tiles = g.tiles)
            ∧ (p.blend = true → ∀ i ∈ ts, (v.tile i).list = (v.held.filter fun q => q.blend && (q.tiles d).contains i).take 1024
                ∧ (1024 < (v.held.filter fun q => q.blend && (q.tiles d).contains i).length → (v.tile i).bovf = true)))))

/-- R331, R332: the entry of one pixel is that of the nearest covering record, the earliest among equals. -/
def VisibilityEntry : Prop :=
  ∀ (d : FrameDesc) (ps : List Prim) (p : Prim) (x y : Nat),
    let entry := fun (z primid seq st : Nat) => leBytes 4 z ++ leBytes 4 primid ++ leBytes 4 seq ++ leBytes 4 st
    let inside := x < d.width ∧ y < d.height
    let old := leValue ((pixelEntry d ps x y).take 4)
    (¬ inside → pixelEntry d ps x y = entry d.zclear.toNat 0xFFFFFFFF 0xFFFFFFFF 2)
    ∧ (inside → pixelEntry d [] x y = entry d.zclear.toNat 0xFFFFFFFF 0xFFFFFFFF 0)
    ∧ (inside → p.covers x y = true → (fCompare .f32 .lt (p.depthAt x y) old).1 = true → (∀ q ∈ ps, q.depthAt x y < 2 ^ 32) →
        pixelEntry d (ps ++ [p]) x y = entry (p.depthAt x y) p.primid p.seq.toNat 1)
    ∧ (inside → p.covers x y = false ∨ (fCompare .f32 .lt (p.depthAt x y) old).1 = false → (∀ q ∈ ps, q.depthAt x y < 2 ^ 32) →
        pixelEntry d (ps ++ [p]) x y = pixelEntry d ps x y)

end Sys2Proof.Machine.Claims

/-- Frames open, bin, resolve, notify and complete; a pixel keeps its nearest record (R326, R328, R329, R330, R331, R332, R334, R336). -/
def Obligations.Frames : Prop :=
  Sys2Proof.Machine.Claims.FrameEvents ∧ Sys2Proof.Machine.Claims.RecordBinning ∧ Sys2Proof.Machine.Claims.VisibilityEntry

namespace Sys2Proof.Machine.Claims

/-- R361, R362, R372, R470: what each command of a context does, and the error it leaves where its state or its rows forbid it; before `ready` none does
anything. -/
def ContextCommands : Prop :=
  ∀ (s : State) (n : Nat),
    let c := s.ctx n
    let refuse := fun (i : Instr) (e : BitVec 8) => ∃ t, exec i s = .next t ∧ Spec.CtxBecomes s t n { c with err := e }
    let inMem := isDev (c.root.toNat * 2 ^ 20) = true ∧ isDev (c.reach.toNat * 128) = true ∧ isDev (c.save.toNat * 4096) = true
      ∧ isDev (c.pool.toNat * 2 ^ 18) = true ∧ isDev (c.sup.toNat * 64) = true ∧ isDev (c.post.toNat * 4096) = true
    let rowsFree := ∀ e ∈ s.ctxs, e.1 ≠ n → e.2.st = .active ∨ e.2.st = .saving ∨ e.2.st = .restoring → e.2.rows &&& c.rows = 0
    (s.hostif.regs.ready = false → ∀ i, i = .ctxActivate n ∨ i = .ctxSave n ∨ i = .ctxRelease n ∨ (∃ cmd, i = .ctxInvalidCommand n cmd)
      ∨ i = .ctxRestore n ∧ c.st ≠ .restoring → exec i s = .next s)
    ∧ (s.hostif.regs.ready = true →
    (c.st ≠ .free → refuse (.ctxActivate n) 1)
    ∧ (c.st = .free → ¬ inMem → refuse (.ctxActivate n) 3)
    ∧ (c.st = .free → inMem → ¬ rowsFree → refuse (.ctxActivate n) 2)
    ∧ (c.st = .free → inMem → rowsFree → ∃ t, exec (.ctxActivate n) s = .next t
        ∧ Spec.CtxBecomes s t n { c with err := 0, st := .active, lossCount := 0, lossLast := 0, entries := [], savedCores := [], sides := []
                                         frames := [], fatal := none
                                         reachMap := BitVec.ofNat 1024 (readLE s.mem (c.reach.toNat * 128) 128 % 2 ^ 1023) })
    ∧ (c.st ≠ .active → refuse (.ctxSave n) 1)
    ∧ (c.st ≠ .saved → c.st ≠ .restoring → refuse (.ctxRestore n) 1)
    ∧ (c.st = .saved → ¬ rowsFree → refuse (.ctxRestore n) 2)
    ∧ (c.st ≠ .saved → c.st ≠ .fatal → refuse (.ctxRelease n) 1)
    ∧ (c.st = .saved ∨ c.st = .fatal → ∃ t, exec (.ctxRelease n) s = .next t
        ∧ (t.ctx n).st = .free ∧ (t.ctx n).err = 0 ∧ (t.ctx n).entries = [] ∧ (∀ j, j ≠ n → t.ctx j = s.ctx j)
        ∧ (∀ l, l ∈ t.launches ↔ l ∈ s.launches ∧ l.ctx ≠ n)
        ∧ (∀ k, (t.coreOf k).caches.tlb = (s.coreOf k).caches.tlb.filter fun e => decide (e.ctx ≠ n))
        ∧ (∀ j, (t.basin j).tlb = (s.basin j).tlb.filter fun e => decide (e.ctx ≠ n))
        ∧ (∀ q, (s.queue q).ctx.toNat = n → (t.queue q).en = false
            ∧ ((s.queue q).en = true → (s.queue q).wr ≠ (s.queue q).rd ∨ (s.queue q).ibs ≠ [] ∨ (s.queue q).running ≠ [] →
                (t.queue q).errValid = true ∧ (t.queue q).errCode = 0x07))
        ∧ ((∀ q, (s.queue q).ctx.toNat = n → (s.queue q).running = []) → t.mem = s.mem) ∧ t.harts = s.harts)
    ∧ (∀ cmd : BitVec 3, cmd = 0 ∨ 5 ≤ cmd.toNat → refuse (.ctxInvalidCommand n cmd) 1))

/-- R275, R305, R382 to R384: a save holds every channel and writes the record of each quiet core; a restore reads the records and releases the
channels. A restored context takes its weir channels from gangs that have reported. The copies and losses that R383's record has no place for come
back from the context itself: the model's choice (log 32). -/
def SaveAndRestore : Prop :=
  ∀ (s : State) (n : Nat),
    let c := s.ctx n
    let mine := fun (k : Nat) => k < 4096 ∧ (∃ e ∈ s.cores, e.1 = k) ∧ (s.coreOf k).asg.valid = true ∧ (s.coreOf k).asg.spare = false
      ∧ c.rows.getLsbD (coordRow (s.coreOf k).coreid) = true
    Spec.Rising s.cores →
    (s.hostif.regs.ready = true → c.st = .active → (∃ k, mine k) → ∃ t, exec (.ctxSave n) s = .next t
      ∧ Spec.CtxBecomes { s with cores := t.cores } t n { c with err := 0, st := .saving, savedCores := [] }
      ∧ (∀ k, mine k → (t.coreOf k) = { s.coreOf k with tasks := (t.coreOf k).tasks }
          ∧ ∀ ch, ch < 64 → (t.coreOf k).task ch = { (s.coreOf k).task ch with preempt := true })
      ∧ (∀ k, ¬ mine k → t.coreOf k = s.coreOf k))
    ∧ (∀ core, let k := s.coreOf core
        let v := k.coreid
        let u := flushAll (settleWeir s core) core
        c.st = .saving → ctxOfAgent s core = some (n, c) → coreIndex v ∉ c.savedCores →
        (∀ j, j < 8 → ¬ Spec.onTask (s.hartOf (8 * core + j))) → k.sluice.faults = [] → (∀ j : Fin 4, (k.sluice.chans.get j).reqs = []) →
        (∀ m ∈ s.net, m.src ≠ v) → (∀ d, d < 4 → ∀ e ∈ (s.die d).spray.tx, ∀ r ∈ e.2.retained, r.msg.src ≠ v) →
        (∀ m, (s.die (dieOfCoord v)).move = some m → m.coord ≠ v) →
        (∃ j, mine j ∧ coreIndex (s.coreOf j).coreid ∉ c.savedCores ∧ coreIndex (s.coreOf j).coreid ≠ coreIndex v) → u.mem.wf = true →
        (u.coreOf core).sp.wf = true →
        ∃ t, exec (.saveRecordWrite core) s = .next t
          ∧ (t.ctx n).st = .saving ∧ (t.ctx n).savedCores = c.savedCores ++ [coreIndex v]
          ∧ (let pa := c.save.toNat * 4096 + 0x41000 * coreIndex v
             let r := u.coreOf core
             (∀ o, o < 0x40000 → readByte t.mem (pa + o) = readByte r.sp o)
             ∧ (∀ i : Fin 32, readLE t.mem (pa + 0x40800 + 4 * i.val) 4 = (r.mail.counters.get i).toNat)
             ∧ readLE t.mem (pa + 0x40880) 4 = r.mail.overflow.toNat
             ∧ readLE t.mem (pa + 0x40884) 2 = r.weir.wmember.toNat ∧ readLE t.mem (pa + 0x40886) 2 = r.weir.arrived.toNat
             ∧ readLE t.mem (pa + 0x40888) 4 = r.part.gangid.toNat ∧ readLE t.mem (pa + 0x4088C) 1 = r.part.lflags.toNat
             ∧ readLE t.mem (pa + 0x4088E) 2 = r.weir.gangSet.toNat
             ∧ (∀ i : Fin 4, readLE t.mem (pa + 0x40890 + 4 * i.val) 4 = (r.sluice.chans.get i).next.toNat
                  ∧ readLE t.mem (pa + 0x408A0 + 4 * i.val) 4 = (r.sluice.chans.get i).next.toNat
                  ∧ readLE t.mem (pa + 0x408B0 + i.val) 1 = (r.rr.get i).toNat)
             ∧ (∀ i : Fin 16, readLE t.mem (pa + 0x40900 + 4 * i.val) 4 = (r.weir.gen.get i).toNat)
             ∧ ∀ a, a < pa ∨ pa + 0x41000 ≤ a → readByte t.mem a = readByte u.mem a))
    ∧ (c.st = .restoring → weirsFree s n = true → (∀ e ∈ c.frames, (s.basin e.1).gfx.st = .idle) →
        ∃ t, exec (.ctxRestore n) s = .next t
          ∧ (t.ctx n).st = .active ∧ (t.ctx n).savedCores = [] ∧ (∀ j, j ≠ n → t.ctx j = s.ctx j)
          ∧ (∀ k, mine k → (∀ ch, ch < 64 → ((t.coreOf k).task ch).preempt = false) ∧ (t.coreOf k).caches.l1d = []
              ∧ (t.coreOf k).copies = (c.side (s.coreOf k).coreid).copies ∧ (t.coreOf k).mail.losses = (c.side (s.coreOf k).coreid).losses
              ∧ (let pa := c.save.toNat * 4096 + 0x41000 * coreIndex (s.coreOf k).coreid
                 (s.mem.wf = true → ∀ o, o < 0x40000 → readByte (t.coreOf k).sp o = readByte s.mem (pa + o))
                 ∧ ∀ i : Fin 32, ((t.coreOf k).mail.counters.get i).toNat = readLE (sliceOf s.mem pa 0x41000) (0x40800 + 4 * i.val) 4))
          ∧ (∀ k, ¬ mine k →
              let w := (s.coreOf k).weir
              let w1 := (t.coreOf k).weir
              t.coreOf k = { s.coreOf k with weir := { w with wmember := w1.wmember, gangSet := w1.gangSet, arrived := w1.arrived } }
              ∧ ∀ i, i < 16 →
                let taken := ∃ l ∈ s.launches, l.ctx = n ∧ l.kind = .gang ∧ l.done = false ∧ (s.coreOf k).part.launch ≠ some l.id
                  ∧ l.wmember.getLsbD i = true
                (w1.wmember.getLsbD i = true ↔ w.wmember.getLsbD i = true ∧ ¬ taken)
                ∧ (w1.gangSet.getLsbD i = true ↔ w.gangSet.getLsbD i = true ∧ ¬ taken)
                ∧ (w1.arrived.getLsbD i = true ↔ w.arrived.getLsbD i = true ∧ ¬ taken))
          ∧ t.mem = s.mem)

end Sys2Proof.Machine.Claims

/-- Context commands, saving and restoring (R275, R305, R361, R362, R372, R382, R383, R384, R470). -/
def Obligations.Contexts : Prop :=
  Sys2Proof.Machine.Claims.ContextCommands ∧ Sys2Proof.Machine.Claims.SaveAndRestore

namespace Sys2Proof.Machine.Claims

/-- R370 to R372, R377, R470: enabling and stopping a queue, its doorbell, and clearing its error; before `ready` none of them. -/
def QueueRegisters : Prop :=
  ∀ (s : State) (n : Nat) (wr : BitVec 32),
    let q := s.queue n
    let fails := fun (t : State) (v : Queue) => (t.queue n) = { v with errValid := true, errCode := 0x08, errDetail := 0, errSeq := v.seq }
      ∧ (∀ j, j ≠ n → t.queue j = s.queue j) ∧ t.hostif.ring.seq = s.hostif.ring.seq + 1 ∧ t.mem = s.mem ∧ t.harts = s.harts ∧ t.cores = s.cores
    let started := { q with en := true, stopping := false, rd := 0, seq := 0, skip := false, ibs := [], running := [] }
    let stopped := { q with stopping := true, ibs := [] }
    let rung := { q with wr := wr }
    let cleared := { q with errValid := false, rd := if q.skip then q.rd + 1 else q.rd, skip := false }
    (s.hostif.regs.ready = false → ∀ i ∈ [Instr.queueEnable n, .queueDisable n, .doorbell n wr, .qerrClear n], exec i s = .next s)
    ∧ (s.hostif.regs.ready = true →
    (q.en = false → q.errValid = true ∨ q.wr.toNat ≤ 2 ^ q.lsize.toNat →
      ∃ t, exec (.queueEnable n) s = .next t ∧ Spec.QueueBecomes s t n started)
    ∧ (q.en = false → q.errValid = false → 2 ^ q.lsize.toNat < q.wr.toNat → ∃ t, exec (.queueEnable n) s = .next t ∧ fails t started)
    ∧ (q.en = true → ∃ t, exec (.queueEnable n) s = .next t ∧ t = s)
    ∧ (q.en = true → q.running = [] → ∃ t, exec (.queueDisable n) s = .next t ∧ Spec.QueueBecomes s t n { stopped with en := false, stopping := false })
    ∧ (q.en = true → q.running ≠ [] → (∀ d ∈ q.running, ∃ id ∈ d.launches, (s.launch? id).isSome = true) →
        ∃ t, exec (.queueDisable n) s = .next t ∧ Spec.QueueBecomes s t n stopped)
    ∧ (¬ (q.en = true ∧ q.stopping = false ∧ q.errValid = false ∧ 2 ^ q.lsize.toNat < (wr - q.rd).toNat) →
        ∃ t, exec (.doorbell n wr) s = .next t ∧ Spec.QueueBecomes s t n rung)
    ∧ (q.en = true → q.stopping = false → q.errValid = false → 2 ^ q.lsize.toNat < (wr - q.rd).toNat →
        ∃ t, exec (.doorbell n wr) s = .next t ∧ fails t rung)
    ∧ (q.errValid = true → ¬ (q.en = true ∧ q.stopping = false ∧ 2 ^ q.lsize.toNat < (q.wr - cleared.rd).toNat) →
        ∃ t, exec (.qerrClear n) s = .next t ∧ Spec.QueueBecomes s t n cleared))

/-- R369, R371, R373 to R376, R378 to R380: what each kind of packet does when it dispatches. -/
def QueuePackets : Prop :=
  ∀ (s u : State) (n : Nat) (p : List Byte), Spec.NextPacket s u n p →
    let q := s.queue n
    let cx := u.ctx q.ctx.toNat
    let next := { q with rd := q.rd + 1, ringSeq := q.seq, seq := q.seq + 1 }
    let waits := fun (ids : List Nat) (t : State) => t.queue n = { next with running := [{ launches := ids, shoots := [], pseq := q.seq, sig := pktSig p }] }
    let fails := fun (t : State) (code detail : Nat) => (t.queue n).errValid = true ∧ (t.queue n).errCode = BitVec.ofNat 8 code
      ∧ (t.queue n).errDetail = BitVec.ofNat 8 detail ∧ (t.queue n).errSeq = q.seq ∧ t.launches = s.launches
    (∀ v l w, pktKind p = 4 → v = BitVec.ofNat 64 (fieldAt p 16 8) → signalPlace u cx (BitVec.ofNat 64 (fieldAt p 8 8)) = (.ok l, w) →
        (∀ h, l = .host h → ctxRefused u cx h true = false) →
        ∃ t, exec (.signalPacket n) s = .next t ∧ t.queue n = next ∧ t.harts = s.harts
          ∧ (let x := ctxStore w q.ctx.toNat l (leBytes 8 v.toNat)
             t.mem = x.mem ∧ t.hostMem = x.hostMem))
    ∧ (∀ w, pktKind p = 3 → (let a := BitVec.ofNat 64 (fieldAt p 24 8)
        let k := fieldAt p 32 4
        1 ≤ k → k ≤ 65536 →
        (∀ l, readBlock64 u cx a = (.ok l, w) → ∃ t, exec (.indirectPacket n) s = .next t
          ∧ Spec.QueueBecomes w t n { next with ibs := [{ addr := a, left := k, launches := [], shoots := [], sig := pktSig p }] })
        ∧ (∀ code detail, readBlock64 u cx a = (.error (code, detail), w) → ∃ t, exec (.indirectPacket n) s = .next t ∧ fails t code detail)))
    ∧ (∀ l w v, pktKind p = 1 → (let g := gangPacket p
        readBlock64 u cx g.handle = (.ok l, w) →
        (∀ r, launchReason w cx false p (handleOf l) = (some r, v) → ∃ t, exec (.gangLaunchPacket n) s = .next t ∧ fails t 0x05 r)
        ∧ (launchReason w cx false p (handleOf l) = (none, v) →
          ∃ t e, exec (.gangLaunchPacket n) s = .next t ∧ t.launches = s.launches ++ [e] ∧ t.nextLaunch = s.nextLaunch + 1 ∧ waits [e.id] t
            ∧ e.id = s.nextLaunch ∧ e.kind = .gang ∧ e.ctx = q.ctx.toNat ∧ e.queue = some n ∧ e.depth = 0 ∧ e.gangid = g.gangid ∧ e.wmember = g.wmember
            ∧ e.lflags = g.lflags ∧ e.toStart = e.cores ∧ e.cores.length = g.cols * g.rows ∧ e.base = (handleOf l).base ∧ t.mem = v.mem)))
    ∧ (∀ l w v, pktKind p = 2 → (let a := BitVec.ofNat 64 (fieldAt p 24 8)
        let d := frameDesc l
        readBlock64 u cx a = (.ok l, w) →
        (frameOk w cx l = (false, v) → ∃ t, exec (.framePacket n) s = .next t ∧ fails t 0x05 7)
        ∧ (frameOk w cx l = (true, v) →
        ∃ t e, exec (.framePacket n) s = .next t ∧ t.launches = s.launches ++ [e] ∧ waits [e.id] t
          ∧ e.kind = .frame ∧ e.desc = d ∧ e.id = s.nextLaunch ∧ e.ctx = q.ctx.toNat ∧ (∀ b, b ∈ e.basins ↔ b < 64 ∧ d.basinmask.getLsbD b = true)
          ∧ (∀ b, (t.basin b).gfx = if b < 64 ∧ d.basinmask.getLsbD b = true then { (s.basin b).gfx with waiting := (s.basin b).gfx.waiting ++ [e.id] }
              else (s.basin b).gfx))))
    ∧ (∀ l w w1 y z : _, pktKind p = 5 → pktSig p = none → (let tzo := BitVec.ofNat 64 (fieldAt p 24 8)
        let region := BitVec.ofNat 64 (fieldAt p 40 8)
        let hout := BitVec.ofNat 64 (fieldAt p 56 8)
        let c := q.ctx.toNat
        let x := (ctxWrite w1 c hout (leBytes 4 0)).2
        canonical tzo = true → canonical region = true → region.toNat % 4096 = 0 → canonical hout = true → hout.toNat % 64 = 0 →
        ctxRead u cx tzo (fieldAt p 32 4) = (.ok l, w) → ctxWritable w cx hout 64 = (true, w1) →
        (objectReason l = none → (codeObject l).imageSize ≤ fieldAt p 48 4 → ctxWritable x cx region (fieldAt p 48 4) = (true, y) →
          ctxWrites c ((codeObject l).writes l region hout) y = (.ok (), z) →
          ∃ t, exec (.loadPacket n) s = .next t ∧ t.queue n = next ∧ t.mem = z.mem ∧ t.hostMem = z.hostMem)
        ∧ (∀ r, objectReason l = some r → ∃ t, exec (.loadPacket n) s = .next t ∧ fails t 0x06 r ∧ t.mem = x.mem)))
    ∧ (pktKind p = 6 → pktSig p = none → (let b := fieldAt p 24 8
        let k := fieldAt p 32 8
        let hit := fun (a m : Nat) => k = 0 ∨ (a < b + k ∧ b < a + m)
        ∃ t, exec (.shootdownPacket n) s = .next t
          ∧ (∀ j e, e ∈ (t.coreOf j).caches.tlb ↔ e ∈ (u.coreOf j).caches.tlb ∧ ¬ (e.ctx = q.ctx.toNat ∧ hit e.va e.size))
          ∧ (∀ j e, e ∈ (t.basin j).tlb ↔ e ∈ (u.basin j).tlb ∧ ¬ (e.ctx = q.ctx.toNat ∧ hit e.va e.size))
          ∧ (t.queue n).rd = q.rd + 1 ∧ (t.queue n).seq = q.seq + 1
          ∧ (Spec.Rising u.harts → (∀ j m c, ctxOfAgent u (j / 8) = some (m, c) → m = q.ctx.toNat → ∀ i : Fin 8, ∀ pin, (u.hartOf j).pins.get i = some pin →
                ¬ hit pin.base.toNat pin.len) → (∀ j, ∀ i : Fin 8, ∀ pin, (u.hartOf j).pins.get i = some pin → u.nextLaunch ∉ pin.holds) → t.queue n = next)))

/-- R371, R373, R377: a packet that cannot be read, is out of sequence, is malformed or names a bad signal stops the queue with its code. -/
def PacketErrors : Prop :=
  ∀ (s : State) (n : Nat) (i : Instr),
    let q := s.queue n
    let cx := s.ctx q.ctx.toNat
    let a : Word := BitVec.ofNat 64 (q.base.toNat * 4096 + 64 * (q.rd.toNat % 2 ^ q.lsize.toNat))
    i ∈ [.gangLaunchPacket n, .framePacket n, .indirectPacket n, .signalPacket n, .loadPacket n, .shootdownPacket n] →
    q.en = true → q.stopping = false → q.errValid = false → s.hostif.regs.pwrState = 0 → cx.st = .active → q.ibs = [] → q.wr ≠ q.rd →
    let fails := fun (u : State) (code detail : Nat) (pseq : BitVec 32) (adv : Bool) => ∃ t, exec i s = .next t
      ∧ t.queue n = { q with errValid := true, errCode := BitVec.ofNat 8 code, errDetail := BitVec.ofNat 8 detail, errSeq := pseq, skip := true
                             seq := if adv then q.seq + 1 else q.seq }
      ∧ t.hostif.ring.seq = s.hostif.ring.seq + 1 ∧ t.harts = s.harts ∧ t.cores = u.cores ∧ t.launches = s.launches ∧ t.mem = u.mem
    (∀ c u, ctxRead s cx a 64 = (.error c, u) → fails u 0x04 (c.toNat % 256) q.seq true)
    ∧ (∀ p u, ctxRead s cx a 64 = (.ok p, u) →
      (pktPseq p ≠ q.seq.toNat → fails u 0x02 0 (BitVec.ofNat 32 (pktPseq p)) false)
      ∧ (pktPseq p = q.seq.toNat → pktReservedOk p = false → fails u 0x01 0 q.seq true)
      ∧ (pktPseq p = q.seq.toNat → pktReservedOk p = true → ∀ f v, pktSignal p = true → signalPlace u cx (BitVec.ofNat 64 (fieldAt p 8 8)) = (.error f, v) →
          fails v 0x04 f q.seq true))

/-- R273, R277, R375, R380: a launch ends when every core has reported, nothing it sent is under way and it has no child; no owner of a work-graph queue
holds the queue for it any more. -/
def LaunchesEnd : Prop :=
  ∀ (s : State) (id : Nat) (l : Launch), s.launch? id = some l → l.done = false → l.id = id →
    (s.ctx l.ctx).st = .active ∨ (s.ctx l.ctx).st = .saving →
    (l.kind = .frame → l.basins = []) →
    (l.kind = .gang → l.toStart = [] ∧ (∀ v ∈ l.cores, reportStands s id v = true) ∧ (∀ m ∈ s.net, m.launch ≠ some id)
      ∧ ∀ d, d < 4 → ∀ e ∈ (s.die d).spray.tx, ∀ r ∈ e.2.retained, r.msg.launch ≠ some id) →
    (∀ e ∈ s.launches, e.parent ≠ some id) → (∀ c ∈ s.ctxs, ∀ e ∈ c.2.entries, e.parent ≠ id) →
    ∃ t, exec (.launchCompletion id) s = .next t
      ∧ (∀ e ∈ t.launches, e.id ≠ id)
      ∧ (∀ v ∈ l.cores, ∀ k, siteOf s v = some k → (t.coreOf k).part.launch ≠ some id ∧ (t.coreOf k).pstores = []
          ∧ ((s.coreOf k).part.launch = some id → (t.coreOf k).weir.wmember = 0 ∧ (t.coreOf k).weir.arrived = 0))
      ∧ (∀ e ∈ (t.ctx l.ctx).entries, e.launch ≠ some id)
      ∧ (l.kind = .gang → ∀ b, ∀ w ∈ (t.basin b).works, w.ctx = l.ctx → id ∉ w.gangs)
      ∧ (∀ n, ∀ d ∈ (t.queue n).running, (∃ x ∈ d.launches, ∃ e ∈ t.launches, e.id = x) ∨ ∃ x ∈ d.shoots, shootDone t x = false)

end Sys2Proof.Machine.Claims

/-- Host queues: registers, packets, errors and the end of launches (R369, R370, R371, R372, R373, R374, R375, R377, R378, R379, R380, R470). -/
def Obligations.Queues : Prop :=
  Sys2Proof.Machine.Claims.QueueRegisters ∧ Sys2Proof.Machine.Claims.QueuePackets ∧ Sys2Proof.Machine.Claims.PacketErrors ∧ Sys2Proof.Machine.Claims.LaunchesEnd

namespace Sys2Proof.Machine.Claims

/-- R439: the records that wait are placed when the duties are taken up, the oldest first, each as an event with its `seq` would be. -/
def EventsWait : Prop :=
  ∀ (s : State),
    let r := s.hostif.ring
    (r.waiting = [] → placeWaiting s = s)
    ∧ ∀ q l rest, r.waiting = (q, l) :: rest → placeWaiting s = placeWaiting (placeRecord (s.setRing { r with waiting := rest }) q l)

/-- R389, R401 to R404, R439: every event takes the next `seq`; while the ring is enabled and no cistern holds a valid lease, its record waits; else
it is written to the ring and raises the vector, which becomes pending where it is masked, or counts in `ovf` and is kept in the missed-event buffer.
Where the mask bit lies is the model's choice (log 39). -/
def EventRecords : Prop :=
  ∀ (s : State) (type ctx queue a b c : Nat),
    let r := s.hostif.ring
    let t := s.emit type ctx queue a b c
    let masked := (readByte s.hostif.msix (16 * (r.vector.toNat % 8) + 12)).getLsbD 0 = true
    let bytes := fun (m : Memory) (o : Nat) =>
      readLE m o 4 = r.seq.toNat ∧ readLE m (o + 4) 1 = type % 256 ∧ readLE m (o + 5) 1 = ctx % 256 ∧ readLE m (o + 6) 2 = queue % 2 ^ 16
        ∧ readLE m (o + 8) 8 = a % 2 ^ 64 ∧ readLE m (o + 16) 8 = b % 2 ^ 64 ∧ readLE m (o + 24) 8 = c % 2 ^ 64
    let waits := r.en = true ∧ duties s = false
    t.hostif.ring.seq = r.seq + 1 ∧ t.hostif.ring.tail = r.tail ∧ t.hostif.ring.base = r.base ∧ t.hostif.ring.lsize = r.lsize
      ∧ t = { s with hostMem := t.hostMem, hostif := { s.hostif with ring := t.hostif.ring, raised := t.hostif.raised, pba := t.hostif.pba } }
      ∧ (waits → ∃ l, t = s.setRing { r with seq := r.seq + 1, waiting := r.waiting ++ [(r.seq, l)] } ∧ l.length = 32
          ∧ ∀ m, m.wf = true → bytes (writeBytes m 0 l) 0)
      ∧ (¬ waits → t.hostif.ring.waiting = r.waiting)
      ∧ (¬ waits → r.en = true → (r.head - r.tail).toNat < 2 ^ r.lsize.toNat →
          t.hostif.ring.head = r.head + 1 ∧ t.hostif.ring.ovf = r.ovf ∧ t.hostif.ring.missed = r.missed
          ∧ t.hostif.raised = (if masked then s.hostif.raised else s.hostif.raised ++ [r.vector])
          ∧ (∀ i, i < 8 → (t.hostif.pba.getLsbD i = true ↔ s.hostif.pba.getLsbD i = true ∨ masked ∧ i = r.vector.toNat % 8))
          ∧ (s.hostMem.wf = true →
              let o := r.base.toNat * 4096 + 32 * (r.head.toNat % 2 ^ r.lsize.toNat)
              bytes t.hostMem o ∧ ∀ x, x < o ∨ o + 32 ≤ x → readByte t.hostMem x = readByte s.hostMem x))
      ∧ (¬ waits → ¬ (r.en = true ∧ (r.head - r.tail).toNat < 2 ^ r.lsize.toNat) →
          t.hostif.ring.head = r.head ∧ t.hostif.ring.ovf = r.ovf + 1 ∧ t.hostif.raised = s.hostif.raised ∧ t.hostif.pba = s.hostif.pba
          ∧ t.hostMem = s.hostMem ∧ (r.missed.wf = true →
              let o := 32 * (r.seq.toNat % 256)
              bytes t.hostif.ring.missed o ∧ ∀ x, x < o ∨ o + 32 ≤ x → readByte t.hostif.ring.missed x = readByte r.missed x))

/-- R388, R389, R391, R395, R397, R469: what the host's reads, writes, AtomicOps and configuration requests of the package do. That a read outside
memory is answered as poisoned and a write there is dropped is the model's choice (log 31). -/
def HostAccesses : Prop :=
  ∀ (s : State),
    let mem := fun (pa n : Nat) => isDev pa = true ∧ isDev (pa + n - 1) = true
    (∀ cxl pa n, mem pa n → poisonAt s pa n = none → ∃ t, exec (.hostDeviceMemoryAccess { pa := pa, data := none, size := n, cxl := cxl }) s = .next t
        ∧ Spec.Answered s t (.data ((List.range n).map fun i => readByte s.mem (pa + i))))
    ∧ (∀ cxl pa n, ¬ mem pa n ∨ (poisonAt s pa n).isSome = true →
        ∃ t, exec (.hostDeviceMemoryAccess { pa := pa, data := none, size := n, cxl := cxl }) s = .next t ∧ Spec.Answered s t .poisoned)
    ∧ (∀ cxl pa n l, mem pa l.length → s.mem.wf = true → ∃ t, exec (.hostDeviceMemoryAccess { pa := pa, data := some l, size := n, cxl := cxl }) s = .next t
        ∧ t.hostif.replies = s.hostif.replies ++ [.written] ∧ t.hostMem = s.hostMem
        ∧ ∀ a, readByte t.mem a = if pa ≤ a ∧ a < pa + l.length then l.getD (a - pa) 0 else readByte s.mem a)
    ∧ (∀ cxl pa n l, ¬ mem pa l.length → ∃ t, exec (.hostDeviceMemoryAccess { pa := pa, data := some l, size := n, cxl := cxl }) s = .next t
        ∧ ∃ u, Spec.Answered s u .written ∧ t = u.emit 0x06 0xFF 0xFFFF pa 0x101 0)
    ∧ (∀ a : HostAtomic,
        let ok := a.op.toNat ≤ 2 ∧ (a.size = 4 ∨ a.size = 8) ∧ a.pa % a.size = 0 ∧ mem a.pa a.size
        let old := readLE s.mem a.pa a.size
        let w := 2 ^ (8 * a.size)
        (¬ ok → ∃ t, exec (.hostAtomicCompleter a) s = .next t ∧ Spec.Answered s t .unsupported)
        ∧ (ok → (poisonAt s a.pa a.size).isSome = true → ∃ t, exec (.hostAtomicCompleter a) s = .next t ∧ Spec.Answered s t .poisoned)
        ∧ (ok → poisonAt s a.pa a.size = none → s.mem.wf = true → ∃ t, exec (.hostAtomicCompleter a) s = .next t
            ∧ (∃ d, t.hostif.replies = s.hostif.replies ++ [.data d] ∧ d.length = a.size ∧ leValue d = old)
            ∧ readLE t.mem a.pa a.size = (if a.op = 0 then (old + a.operand) % w else if a.op = 1 then a.operand % w
                else if old = a.compare % w then a.operand % w else old)
            ∧ ∀ x, x < a.pa ∨ a.pa + a.size ≤ x → readByte t.mem x = readByte s.mem x))
    ∧ (∀ o n, ¬ ((n = 4 ∨ n = 8) ∧ o % n = 0) → ∃ t, exec (.hostBar0AccessError o n) s = .next t ∧ Spec.Answered s t .unsupported)
    ∧ (∀ a, ∃ t, exec (.hostSnoop a) s = .next t ∧ Spec.Answered s t .rspIHitI)
    ∧ (∀ wr o v, s.hostif.regs.configured = false → ∃ t, exec (.configurationRequest wr o v) s = .next t ∧ Spec.Answered s t .retry)
    ∧ (∀ o v, s.hostif.regs.configured = true → ¬ (o / 4 = 0x16 ∧ v.getLsbD 15 = true) → ¬ (o / 4 = 0x11 ∧ v.toNat % 4 = 3) →
        ∃ t c, exec (.configurationRequest true o v) s = .next t ∧ (∀ k, smGet 0 k c = if k = o / 4 then v else smGet 0 k s.hostif.config)
          ∧ Spec.Answered { s with hostif := { s.hostif with
              config := c, routing4 := if o / 4 = 0x7B then v.getLsbD 0 else s.hostif.routing4
              routing8 := if o / 4 = 0x7B then v.getLsbD 1 else s.hostif.routing8 } } t .written)
    ∧ (∀ o v, s.hostif.regs.configured = true → ∃ t, exec (.configurationRequest false o v) s = .next t
        ∧ Spec.Answered s t (.data (leBytes 4 (configWord s.hostif (o / 4)).toNat)))
    ∧ (∀ r ∈ configRegs, r.num ≠ 0x18 → configWord s.hostif r.num &&& ~~~r.mask = r.fixed &&& ~~~r.mask)
    ∧ (∀ n, (∀ r ∈ configRegs, r.num ≠ n) → n ≠ 0x18 → configWord s.hostif n = 0)

/-- R387, R388, R397, R410, R420, R467: what the host's own memory, the CXL decoder, DOE discovery and the management port do, and an uncorrectable error
that a read finds. The places of the decoder's registers and of the management registers' answers are the model's choice (log 39, 33). -/
def OutsideAccesses : Prop :=
  ∀ (s : State),
    (∀ place data, s.hostMem.wf = true → let t := outside s (.hostStore place data)
      t = { s with hostMem := t.hostMem }
      ∧ ∀ a, readByte t.hostMem a = if place ≤ a ∧ a < place + data.length then data.getD (a - place) 0 else readByte s.hostMem a)
    ∧ (∀ pa l2, isDev pa = true → let t := outside s (.readError l2 pa)
      t = { s with poison := t.poison } ∧ smFind (pa / 8) t.poison = some (if l2 = true then 2 else if pa % 2 ^ 41 < 2 ^ 40 then 0 else 1))
    ∧ (∀ a b, hdmBase s.hostif = some b → b ≤ a.pa → a.pa < b + 2 ^ 43 →
        outside s (.hdmAccess a) = hostAccess s { a with pa := a.pa - b, cxl := true })
    ∧ (∀ pa, isDev pa = true → s.hostif.regs.cxl = true → pa / 4096 ∈ s.hostif.bias.host →
        (∀ n, n ∈ (outside s (.hostLine pa none)).hostif.held ↔ n ∈ s.hostif.held ∨ n = pa / 128)
        ∧ (∀ n, n ∈ (outside s (.hostEvict pa)).hostif.held ↔ n ∈ s.hostif.held ∧ n ≠ pa / 128))
    ∧ (s.hostif.regs.configured = true → ∀ i, outside s (.doeDiscovery i) = { s with hostif := { s.hostif with doe := s.hostif.doe ++
        [if i = 0 then { vendor := 1, protocol := 0, next := 1 } else if i = 1 then { vendor := 1, protocol := 1, next := 0 }
         else { vendor := 0xFFFF, protocol := 0, next := 0 }] } })
    ∧ ∀ reg, outside s (.mgmtRead reg) = { s with hostif := { s.hostif with mgmt := s.hostif.mgmt ++
        [if reg = 0x00 then b2n s.hostif.regs.pkgidValid * 2 ^ 15 + s.hostif.regs.pkgid.toNat else if reg = 0x08 then bar0Read s 0x400 8
         else if reg = 0x10 then bar0Read s 0x508 8 else 0] } }

end Sys2Proof.Machine.Claims

/-- Event records go to the ring or are kept; host accesses are answered (R387, R388, R389, R395, R397, R401, R402, R403, R404, R439, R467, R469). -/
def Obligations.EventsAndHostAccesses : Prop :=
  Sys2Proof.Machine.Claims.EventRecords ∧ Sys2Proof.Machine.Claims.EventsWait ∧ Sys2Proof.Machine.Claims.HostAccesses
    ∧ Sys2Proof.Machine.Claims.OutsideAccesses

namespace Sys2Proof.Machine.Claims

/-- R453 to R455: the answers of the responder before and after boot, over the measurements and the certificate chain. The request codes for all
measurements are the model's choice (log 31). -/
def Attestation : Prop :=
  ∀ (s : State),
    let err := s.hostif.regs.devErr
    let phase := fun d => (s.die d).boot.phase.toNat
    let early := if err ≠ 0 then phase s.hostif.regs.devDie.toNat < 2 else ∃ d, d < 4 ∧ phase d < 2
    let replies := fun (i : Instr) (r : SpdmReply) => ∃ t, exec i s = .next t
      ∧ t = { s with hostif := { s.hostif with spdm := s.hostif.spdm ++ [r] }, freeCtr := t.freeCtr }
    let idok := fun d => (s.die d).boot.idok
    let m := fun d => leBytes 32 (s.die d).meas.toNat
    let chain := fun d =>
      let i := (s.die d).ident
      let tbs := Config.aliasTbs (MlDsa.keyGen i.aliasSeed).1 (m d) (s.die d).boot.owner
      i.cert ++ Config.certOf tbs (MlDsa.sign (MlDsa.keyGen i.deviceSeed).2 tbs (Config.certRandom i.deviceSeed))
    let i0 := (s.die 0).ident
    let all := m 0 ++ m 1 ++ m 2 ++ m 3 ++ romHash ++ i0.hman ++ i0.firmware ++ i0.versions
    (early → ∀ i ∈ [Instr.spdmGetVersion, .spdmGetCapabilities, .spdmNegotiateAlgorithms, .spdmGetDigests, .spdmGetCertificate 0, .spdmChallenge 0 [],
        .spdmGetMeasurements 0, .spdmUnsupported 0], replies i .busy)
    ∧ (¬ early →
      replies .spdmGetVersion (.version [0x1400]) ∧ replies .spdmGetCapabilities .capabilities
      ∧ replies .spdmNegotiateAlgorithms (.algorithms .mlDsa44 .sha3_256)
      ∧ replies .spdmGetDigests (.digests ((List.range 4).map fun d => if idok d = true then sha3 (chain d) else []))
      ∧ (∀ k, 4 ≤ k → replies (.spdmGetCertificate k) .invalidRequest)
      ∧ (∀ k, k < 4 → idok k = false → replies (.spdmGetCertificate k) .unspecified)
      ∧ (∀ k, k < 4 → idok k = true → replies (.spdmGetCertificate k) (.certificate k (chain k)))
      ∧ (∀ k nonce, 4 ≤ k → replies (.spdmChallenge k nonce) .invalidRequest)
      ∧ (∀ k nonce, k < 4 → idok k = false → replies (.spdmChallenge k nonce) .unspecified)
      ∧ (∀ k nonce, k < 4 → idok k = true → idok 0 = true → replies (.spdmChallenge k nonce) (.challengeAuth k nonce (sha3 all)
          (MlDsa.sign (MlDsa.keyGen i0.aliasSeed).2 (Config.spdmSigned s.freeCtr nonce (sha3 all)) (Config.signRandom s.freeCtr))))
      ∧ (∀ k, 1 ≤ k → k ≤ 4 → idok (k - 1) = true → replies (.spdmGetMeasurements k) (.measurements k (m (k - 1))))
      ∧ replies (.spdmGetMeasurements 5) (.measurements 5 romHash) ∧ replies (.spdmGetMeasurements 6) (.measurements 6 i0.hman)
      ∧ replies (.spdmGetMeasurements 7) (.measurements 7 i0.firmware) ∧ replies (.spdmGetMeasurements 8) (.measurements 8 i0.versions)
      ∧ (∀ k, 8 < k → k ≠ 0xFF → replies (.spdmGetMeasurements k) .invalidRequest)
      ∧ ∀ code, replies (.spdmUnsupported code) .unsupportedRequest)

end Sys2Proof.Machine.Claims

/-- The SPDM responder answers from the measurements and certificates (R453, R454, R455). -/
def Obligations.Attestation : Prop :=
  Sys2Proof.Machine.Claims.Attestation

namespace Sys2Proof.Machine.Claims

/-- R12, R389, R390, R398, R400, R417, R438, R443 to R445, R459, R472, R474, R478: which fields an aligned write of the host or of M changes, and what
`pkgmir` reads. That unmasking a pending vector raises it is the model's choice (log 39). -/
def RegisterWrites : Prop :=
  ∀ (s : State) (v : Word),
    let h := s.hostif
    let r := h.ring
    let w := fun (o size : Nat) => exec (.registerWrite true o size v) s
    let bits := fun (lo len : Nat) => v.toNat / 2 ^ lo % 2 ^ len
    (∀ o size, ¬ ((size = 4 ∨ size = 8) ∧ o % size = 0) → w o size = .next s)
    ∧ (r.en = false → ∃ t, w 0x100 8 = .next t ∧ Spec.HostBecomes s t { h with ring := { r with base := BitVec.ofNat 52 (bits 12 52) } })
    ∧ (r.en = true → ∃ t, w 0x100 8 = .next t ∧ t = s)
    ∧ (∃ t, w 0x108 8 = .next t ∧ Spec.HostBecomes s t { h with ring := { r with
          en := v.getLsbD 31, vector := BitVec.ofNat 8 (bits 8 8), lsize := if 6 ≤ bits 0 5 ∧ bits 0 5 ≤ 16 then BitVec.ofNat 5 (bits 0 5) else r.lsize } })
    ∧ (∃ t, w 0x118 8 = .next t ∧ Spec.HostBecomes s t { h with ring := { r with tail := BitVec.ofNat 32 (bits 0 32) } })
    ∧ (∃ t, w 0x200 8 = .next t ∧ Spec.HostBecomes s t { h with bias := { h.bias with page := BitVec.ofNat 40 (bits 12 40) } })
    ∧ (∃ t, w 0x500 8 = .next t ∧ Spec.HostBecomes s t { h with regs := { h.regs with
          pwrlim := if 1000 ≤ bits 0 16 ∧ bits 0 16 ≤ 3000 then BitVec.ofNat 16 (bits 0 16) else h.regs.pwrlim } })
    ∧ (h.regs.ready = false → ∀ o size, 0x10000 ≤ o → w o size = .next s)
    ∧ (h.regs.ready = true → ∀ n, n < 64 →
        let c := s.ctx n
        let b := 0x10000 + 128 * n
        (c.st = .free →
          (∃ t, w b 8 = .next t ∧ Spec.CtxBecomes s t n { c with root := BitVec.ofNat 32 (bits 20 32) })
          ∧ (∃ t, w (b + 0x08) 8 = .next t ∧ Spec.CtxBecomes s t n { c with rows := BitVec.ofNat 50 (bits 0 50) })
          ∧ (∃ t, w (b + 0x10) 8 = .next t ∧ Spec.CtxBecomes s t n { c with tag := BitVec.ofNat 16 (bits 0 16) })
          ∧ (∃ t, w (b + 0x18) 8 = .next t ∧ Spec.CtxBecomes s t n { c with reach := BitVec.ofNat 45 (bits 7 45) })
          ∧ (∃ t, w (b + 0x20) 8 = .next t ∧ Spec.CtxBecomes s t n { c with save := BitVec.ofNat 40 (bits 12 40) })
          ∧ (∃ t, w (b + 0x28) 8 = .next t ∧ Spec.CtxBecomes s t n { c with pool := BitVec.ofNat 34 (bits 18 34) })
          ∧ (∃ t, w (b + 0x40) 8 = .next t ∧ Spec.CtxBecomes s t n { c with pasidEn := v.getLsbD 20, pasid := BitVec.ofNat 20 (bits 0 20) })
          ∧ (∃ t, w (b + 0x48) 8 = .next t ∧ Spec.CtxBecomes s t n { c with post := BitVec.ofNat 40 (bits 12 40) })
          ∧ (∃ t, w (b + 0x50) 8 = .next t ∧ Spec.CtxBecomes s t n { c with sup := BitVec.ofNat 46 (bits 6 46) }))
        ∧ (c.st ≠ .free → ∀ o ∈ [0x00, 0x08, 0x10, 0x18, 0x20, 0x28, 0x40, 0x48, 0x50], ∃ t, w (b + o) 8 = .next t ∧ Spec.CtxBecomes s t n c))
    ∧ (h.regs.ready = true → ∀ n, n < 256 → ∃ t, w (0x20000 + 64 * n) 8 = .next t
        ∧ Spec.QueueBecomes s t n { s.queue n with base := BitVec.ofNat 52 (bits 12 52) })
    ∧ (∀ d, d < 4 → let c := fun (o : Nat) => exec (.registerWrite false (2 ^ 32 * d + o) 8 v) s
        let die := s.die d
        (∃ t, c 0x0100 = .next t ∧ Spec.DieBecomes s t d { die with
              hben := v.getLsbD 2, memscrub := v.getLsbD 1, scrub := v.getLsbD 0, scrubint := if 16 ≤ bits 32 32 then BitVec.ofNat 32 (bits 32 32) else die.scrubint })
        ∧ (∃ t, c 0x0108 = .next t ∧ Spec.DieBecomes s t d { die with lease := { die.lease with
              hbint := if 4096 ≤ bits 0 32 then BitVec.ofNat 32 (bits 0 32) else die.lease.hbint } })
        ∧ (∃ t, c 0x0010 = .next t ∧ Spec.DieBecomes s t d { die with aoreg := if d = 0 then BitVec.ofNat 32 (bits 0 32) else die.aoreg })
        ∧ (∃ t, c 0x0000 = .next t ∧ t = s)
        ∧ (v.getLsbD 0 = false → v.getLsbD 1 = false → ∃ t, c 0x9000 = .next t
            ∧ Spec.DieBecomes s t d { die with mcast := { die.mcast with len := BitVec.ofNat 19 (bits 27 19), offset := BitVec.ofNat 18 (bits 9 18) } })
        ∧ ctlRead s (2 ^ 32 * d + 8) 8 = (if h.regs.pkgidValid = true then 2 ^ 15 else 0) + h.regs.pkgid.toNat)
    ∧ (h.regs.ready = true → h.msix.wf = true → ∀ i, i < 8 → v.getLsbD 0 = false → h.pba = (1 : BitVec 8) <<< i → ∃ t, w (0x80000C + 16 * i) 4 = .next t
        ∧ Spec.HostBecomes s t { h with msix := t.hostif.msix, pba := 0, raised := h.raised ++ [BitVec.ofNat 8 i] })
    ∧ (∀ o size, (size = 4 ∨ size = 8) → o % size = 0 → ∃ t, exec (.registerWrite false o size v) s = .next t ∧ t = ctlWrite s o size v.toNat)

end Sys2Proof.Machine.Claims

/-- Aligned register writes change the fields their maps let them change (R12, R361, R370, R389, R390, R398, R400, R417, R438, R459, R474, R478). -/
def Obligations.RegisterWrites : Prop :=
  Sys2Proof.Machine.Claims.RegisterWrites

namespace Sys2Proof.Machine.Claims

/-- R406, R471: a reset before the package is ready is held; one after discards the contexts and the queues, counts in `aoreg` and is the first event
of the new ring, and leaves boot state, configuration and, where no move is under way, memory but for the repair log's copies. What stays as it is, the MSI-X table, configuration
space and boot state, and that the host's held lines are dropped, is the model's reading (log 29). -/
def FunctionLevelReset : Prop :=
  ∀ (s : State),
    let h := s.hostif
    let epoch := h.regs.hepoch + 1
    (h.regs.ready = false → ∃ t, exec .functionLevelReset s = .next t ∧ Spec.HostBecomes s t { h with regs := { h.regs with heldFlr := true } })
    ∧ (h.regs.ready = true → ∃ t, ∃ u : State, exec .functionLevelReset s = .next t ∧ t = logUpdate (u.emit 0x08 0xFF 0xFFFF epoch.toNat 0 0)
        ∧ (∀ n, t.ctx n = Ctx.reset) ∧ (∀ n, t.queue n = Queue.reset) ∧ t.flash = s.flash
        ∧ u.hostif.ring = EventRing.reset ∧ u.hostif.bias = Bias.reset ∧ u.hostif.ats = [] ∧ u.hostif.prgs = [] ∧ u.hostif.held = []
        ∧ u.hostif.regs = { h.regs with hepoch := epoch } ∧ u.hostif.config = h.config ∧ u.hostif.msix = h.msix ∧ t.hostif.ring.seq = 1
        ∧ (t.die 0).aoreg = epoch ∧ (∀ d, d < 4 → (t.die d).boot = (s.die d).boot)
        ∧ ((∀ d, d < 4 → (s.die d).move = none) → u.mem = s.mem ∧ u.poison = s.poison ∧ ∀ d, d < 4 → (u.die d).lease = (s.die d).lease))

/-- R406, R448, R449, R472: power-on and a hot reset with a flash that holds no directory: die 0 fails with code 0x02. That the ROM runs as one
step, whether a ROM self-check fails and what pre-boot state a restart keeps are the model's choices (log 22, log 27). -/
def RestartsWithoutBundle : Prop :=
  ∀ (s : State), directory s.flash = none →
    let bad := Config.romFault s.freeCtr 0
    let code := fun d => if Config.romFault s.freeCtr d = true then (1 : BitVec 8) else if d = 0 then 2 else 0
    let restarted := fun t : State => t.mem = [] ∧ t.poison = [] ∧ t.ctxs = [] ∧ t.queues = [] ∧ t.launches = [] ∧ t.hostMem = s.hostMem ∧ t.flash = s.flash
      ∧ t.agenda = s.agenda ∧ t.hostif.ring = EventRing.reset ∧ t.hostif.bias = Bias.reset ∧ t.hostif.ats = [] ∧ t.hostif.regs.ready = false
      ∧ (∀ d, d < 4 → (t.die d).boot = { BootSt.reset with err := code d }
          ∧ ((t.hartOf (8 * (4160 + d))).run = .halted ↔ code d ≠ 0))
      ∧ t.hostif.regs.devErr = code 0 ∧ t.hostif.regs.devDie = 0
    (∃ t, exec .powerOn s = .next t ∧ restarted t ∧ (t.die 0).aoreg = 0 ∧ t.hostif.regs.pkgidValid = false
      ∧ t.hostif.regs.hepoch = (if bad = true then 0 else 1) ∧ t.hostif.regs.pciState = (if bad = true then 0 else 1))
    ∧ (∃ t, exec .hotReset s = .next t ∧ restarted t ∧ (t.die 0).aoreg = (s.die 0).aoreg
      ∧ t.hostif.regs.pkgid = s.hostif.regs.pkgid ∧ t.hostif.regs.pkgidValid = s.hostif.regs.pkgidValid ∧ t.hostif.regs.pkgTimeout = s.hostif.regs.pkgTimeout
      ∧ t.hostif.regs.hepoch = (if bad = true then 0 else (s.die 0).aoreg + 1))

/-- R446 to R453, R472: with a bundle that verifies every die enters phase 1 with its measurement, its identity seeds and the cistern firmware. The
ROM as one step and the answers of the unclonable function are the model's (log 22, log 27). That `configured` is set as die 0's firmware starts (log
27), and that an entry point's low two bits are taken as 0 (log 22), are the model's readings. -/
def ColdBoot : Prop :=
  ∀ (s : State) (es : List DirEntry) (v : Verified),
    directory s.flash = some es → verifyBundle s.flash es = .ok v →
    (∀ d, d < 4 → Config.romFault (s.freeCtr + d) d = false ∧ Config.sidebandUp (s.freeCtr + d) d = true) →
    ∃ t, exec .powerOn s = .next t
      ∧ t.hostif.regs.hepoch = 1 ∧ (t.die 0).aoreg = 1 ∧ t.hostif.regs.pciState = 1 ∧ t.hostif.regs.devErr = 0 ∧ t.hostif.regs.ready = false
      ∧ t.hostif.ring.seq = 1 ∧ t.mem = [] ∧ t.ctxs = [] ∧ t.hostMem = s.hostMem ∧ t.hostif.regs.configured = true
      ∧ ∀ d, d < 4 →
          let key := itemBytes s.flash es 5 0
          let m := Spec.bootChain v key
          let seed := pufSeed ((List.range 1022).map (Config.puf d)) (itemBytes s.flash es 7 d)
          let b := (t.die d).boot
          b.phase = 1 ∧ b.err = 0 ∧ b.ready = false ∧ b.owner = v.owner ∧ b.scanok = decide (sha3 key = Config.romScanHash) ∧ b.idok = seed.isSome
          ∧ (t.die d).meas = BitVec.ofNat 256 (leValue m)
          ∧ (t.hartOf (8 * (4160 + d))).pc = v.cistern.entry ∧ v.cistern.entry.toNat % 4 = 0 ∧ (t.hartOf (8 * (4160 + d))).run = .firmware
          ∧ (t.hartOf (8 * (4160 + d))).trap.status.priv = 3
          ∧ (∀ i, i < v.cistern.body.length → readByte (t.coreOf (4160 + d)).sp (v.cistern.load + i) = v.cistern.body.getD i 0)
          ∧ (∀ x, seed = some x →
              let hman := sha3 v.manifest.signed
              let dev := sha3 (([0x4B, 0x57, 0x44, 0x45, 0x56, 0x49, 0x44] : List Byte) ++ x ++ hman)
              (t.die d).ident.deviceSeed = dev
              ∧ (t.die d).ident.aliasSeed = sha3 (([0x4B, 0x57, 0x41, 0x4C, 0x49, 0x41, 0x53] : List Byte) ++ dev ++ m))

end Sys2Proof.Machine.Claims

/-- Function level reset, power-on and hot reset leave the state the spec names (R406, R449, R450, R451, R453, R471, R472). -/
def Obligations.Resets : Prop :=
  Sys2Proof.Machine.Claims.FunctionLevelReset ∧ Sys2Proof.Machine.Claims.RestartsWithoutBundle ∧ Sys2Proof.Machine.Claims.ColdBoot

namespace Sys2Proof.Machine.Claims

/-- R467, R470, R449: writing the package identifier, its time-out, and the time-out of the side band. -/
def BootIdentifiers : Prop :=
  ∀ (s : State),
    let h := s.hostif
    let r := h.regs
    let early := ∀ d, d < 4 → (s.die d).boot.phase.toNat < 2
    let begins := fun (t : State) (r : PkgRegs) => (∀ d, d < 4 →
        let v := s.die d
        let go := (r.pkgidValid = true ∨ r.pkgTimeout = true) ∧ v.boot.phase = 1 ∧ v.boot.err = 0
        let ports := if r.pkgTimeout = true then v.fabports.map fun p => { p with state := 4 } else v.fabports
        t.die d = (if go then { v with boot := { v.boot with phase := 2 }, fabports := ports } else v))
      ∧ t.hostif.regs = r ∧ t = { s with dies := t.dies, hostif := { h with regs := t.hostif.regs } }
    (∀ v : BitVec 16, early → v.toNat % 1024 ≠ 0x3FF → ∃ t, exec (.pkgidWrite v) s = .next t
        ∧ begins t { r with pkgid := v.setWidth 10, pkgidValid := v.getLsbD 15 })
    ∧ (∀ v : BitVec 16, ¬ early ∨ v.toNat % 1024 = 0x3FF → ∃ t, exec (.pkgidWrite v) s = .next t ∧ t = s)
    ∧ (early → r.pkgidValid = false → ∃ t, exec .pkgidTimeout s = .next t ∧ begins t { r with pkgid := 0, pkgTimeout := true })
    ∧ (∀ d, d < 4 →
        let k := 8 * (4160 + d)
        (s.die d).boot.phase = 0 → (s.die d).boot.err = 0 → (s.hartOf k).run = .firmware → (s.hartOf k).pc.toNat < 0x20000 →
        ∃ t, exec (.romSidebandTimeout d) s = .next t ∧ (t.die d).boot = { (s.die d).boot with err := 0x0C } ∧ (t.hartOf k).run = .halted
          ∧ (r.devErr = 0 → t.hostif.regs.devErr = 0x0C ∧ t.hostif.regs.devDie = BitVec.ofNat 2 d) ∧ (r.devErr ≠ 0 → t.hostif.regs = r)
          ∧ (∀ j, j ≠ k → t.hartOf j = s.hartOf j) ∧ t = { s with dies := t.dies, harts := t.harts, hostif := { h with regs := t.hostif.regs } })

/-- R456, R457: what self-test leaves in the sites' registers, and what the discovery flood collects. Where both 0x07 and 0x06 apply, that 0x07 stands
is the model's reading (log 27). -/
def SelfTestAndDiscovery : Prop :=
  ∀ (s : State) (d : Nat), d < 4 →
    let v := s.die d
    let m := v.mcast
    (∀ results : List (Nat × BitVec 16), v.boot.phase = 2 → v.boot.err = 0 → (∀ k, k / 1024 = d → (s.coreOf k).test.rtrok = false) →
        let word := fun k => match results.find? (fun r => decide (r.1 % 1024 = k % 1024)) with | some r => r.2 | none => (0x8000 : BitVec 16)
        let bad := fun k => k / 1024 = d ∧ ((word k).getLsbD 15 = false ∨ (word k).toNat % 256 ≠ 0)
        ∃ t, exec (.selfTestComplete d results) s = .next t
          ∧ (∀ k, t.coreOf k = if k / 1024 = d then { s.coreOf k with
              test := { rtrok := (word k).getLsbD 15, rtrspare := (word k).getLsbD 14, fail := (word k).setWidth 8 } } else s.coreOf k)
          ∧ ((∃ k, k / 1024 = d ∧ (word k).getLsbD 15 = false) → (t.die d).boot.err = 0x07)
          ∧ ((∀ k, k / 1024 = d → (word k).getLsbD 15 = true) → (∃ l : List Nat, l.Nodup ∧ l.length = 25 ∧ ∀ k ∈ l, bad k) → (t.die d).boot.err = 0x06)
          ∧ ((∀ k, ¬ bad k) → t = { s with cores := t.cores })
          ∧ (t.die d).boot.phase = 2 ∧ t.harts = s.harts ∧ t.mem = s.mem)
    ∧ (∃ t, exec (.discoveryFlood d) s = .next t ∧ Spec.DieBecomes s t d { v with disc := [], mcast := { m with flood := true, reports := 0 } })
    ∧ (∀ i, i < 1024 → m.flood = true → smFind i v.disc = none →
        let c := (s.coreOf (1024 * d + i)).test
        let w : BitVec 32 := BitVec.ofNat 32 (2 ^ 31 + (i / 32 + i % 32) * 2 ^ 16 + (b2n c.rtrok * 2 ^ 15 + b2n c.rtrspare * 2 ^ 14 + c.fail.toNat))
        ∃ t, exec (.discoveryReport d (1024 * d + i)) s = .next t
          ∧ Spec.DieBecomes s t d { v with disc := (t.die d).disc, mcast := { m with reports := m.reports + 1 } }
          ∧ ∀ j, smFind j (t.die d).disc = if j = i then some w else smFind j v.disc)
    ∧ (m.flood = true → m.reports ≠ 1024 → v.boot.err = 0 → ∃ t, exec (.discoveryTimeout d) s = .next t
        ∧ Spec.DieBecomes { s with hostif := t.hostif } t d { v with boot := { v.boot with err := 0x08 } })
    ∧ (¬ (m.flood = true ∧ m.reports ≠ 1024) → ∃ t, exec (.discoveryTimeout d) s = .next t ∧ t = s)

/-- R457 to R460: multicast of the staging buffer, `siteasg`, and starting and clearing a site. A copy in progress keeps the length and offset it
began with (log 41). That `coreid` takes a `coord` with reserved bits set as it is written is the model's choice (log 41). -/
def MulticastAndPlacement : Prop :=
  ∀ (s : State) (d : Nat), d < 4 →
    let v := s.die d
    let m := v.mcast
    (∀ (len : BitVec 19) (off : BitVec 18),
        let ok := len.toNat % 512 = 0 ∧ 512 ≤ len.toNat ∧ off.toNat % 512 = 0 ∧ off.toNat + len.toNat ≤ 0x40000
        (m.busy = true ∨ ¬ ok → ∃ t, exec (.multicastGo d len off) s = .next t ∧ Spec.DieBecomes s t d { v with mcast := { m with len := len, offset := off } })
        ∧ (m.busy = false → ok → (∃ k, k / 1024 = d ∧ (s.coreOf k).asg.valid = true) → ∃ t, exec (.multicastGo d len off) s = .next t
            ∧ Spec.DieBecomes s t d { v with mcast := { m with len := len, offset := off, runLen := len.toNat, runOff := off.toNat, acks := [], busy := true } }))
    ∧ (∀ site, m.busy = true → site / 1024 = d → (s.coreOf site).asg.valid = true → site ∉ m.acks →
        (s.coreOf site).sp.wf = true → (s.coreOf (4160 + d)).sp.wf = true →
        ∃ t, exec (.multicastAck d site) s = .next t
          ∧ (let o := m.runOff
             let n := m.runLen
             (∀ a, readByte (t.coreOf site).sp a = if o ≤ a ∧ a < o + n then readByte (s.coreOf (4160 + d)).sp (0x40000 + a)
                else readByte (s.coreOf site).sp a)
             ∧ (∀ w, w ∈ (t.coreOf site).spBad ↔ w ∈ (s.coreOf site).spBad ∧ ¬ (o ≤ 4 * w ∧ 4 * w < o + n)))
          ∧ (t.die d).mcast.acks = m.acks ++ [site]
          ∧ (∀ j, j / 1024 = d → j ≠ site → (s.coreOf j).asg.valid = true → j ∉ m.acks → m.acks.Nodup →
              (∀ k ∈ m.acks, k / 1024 = d ∧ (s.coreOf k).asg.valid = true) →
              (t.die d).mcast.busy = true)
          ∧ (∀ k, k ≠ site → t.coreOf k = s.coreOf k) ∧ t.harts = s.harts ∧ t.mem = s.mem)
    ∧ (m.busy = true → v.boot.err = 0 → ∃ t, exec (.multicastTimeout d) s = .next t
        ∧ Spec.DieBecomes { s with hostif := t.hostif } t d { v with mcast := { m with err := true }, boot := { v.boot with err := 0x08 } })
    ∧ (∀ (site : Nat) (w : Word), site / 1024 = d →
        let asg : SiteAsg := { valid := w.getLsbD 63, spare := w.getLsbD 62, coord := w.setWidth 32 }
        let holds := asg.valid = true ∧ asg.spare = false
        ∃ t, exec (.siteasgWrite site w) s = .next t
          ∧ t.coreOf site = { s.coreOf site with asg := asg, coreid := if holds then asg.coord else 0 }
          ∧ (∀ k, k ≠ site → t.coreOf k = s.coreOf k)
          ∧ (¬ (holds ∧ v.boot.phase = 2) → t = { s with cores := t.cores })
          ∧ (holds → v.boot.phase = 2 → t = { s with cores := t.cores, dies := t.dies }
              ∧ smFind (remapIndex asg.coord) (t.die d).remap
                = some { epoch := 0, valid := true, prow := BitVec.ofNat 5 (site % 1024 / 32), pcol := BitVec.ofNat 5 (site % 32) }))
    ∧ (∀ (site : Nat) (pc : BitVec 16), ∃ t, exec (.sitegoGo site pc) s = .next t
          ∧ t.coreOf site = { s.coreOf site with bootFetch := true, gopc := pc }
          ∧ (let h := t.hartOf (8 * site)
             h.pc.toNat = 4 * pc.toNat ∧ h.run = .firmware ∧ h.trap.status.priv = 3 ∧ h.fresh = true
               ∧ h.convoy = [] ∧ h.lanes = none ∧ h.checker = .idle ∧ h.x = (s.hartOf (8 * site)).x)
          ∧ (∀ k, k ≠ 8 * site → t.hartOf k = s.hartOf k) ∧ (∀ k, k ≠ site → t.coreOf k = s.coreOf k) ∧ t = { s with harts := t.harts, cores := t.cores })
    ∧ (∀ site, let c := s.coreOf site
          ∃ t, exec (.sitegoClr site) s = .next t
          ∧ Spec.CoreBecomes s t site (if c.bootFetch = true ∧ (s.hartOf (8 * site)).run = .firmware then { c with clrPending := true }
              else { c with sp := [], spBad := [], bootFetch := false, clrPending := false }))

end Sys2Proof.Machine.Claims

/-- Boot: the package identifier, self-test, discovery, multicast and placement (R456, R457, R459, R460, R467, R470). -/
def Obligations.BootPhases : Prop :=
  Sys2Proof.Machine.Claims.BootIdentifiers ∧ Sys2Proof.Machine.Claims.SelfTestAndDiscovery ∧ Sys2Proof.Machine.Claims.MulticastAndPlacement

namespace Sys2Proof.Machine.Claims

/-- R463 to R465, R470, R475: the steps of memory training, what they leave in the registers, that memory is zero after step 6 of its last device, and
the phase that follows; steps 5 and 6 once more at the end of Standby. That the zero fill comes with the last memory of a kind to pass is the model's
reading (log 27). -/
def Training : Prop :=
  ∀ (s : State) (d i : Nat) (far : Bool), d < 4 → i < (if far then 12 else 3) →
    let v := s.die d
    let reg := fun (u : Die) (f : Bool) (j : Nat) => if f then u.fmtrn.get (Fin.ofNat 12 j) else u.nmtrn.get (Fin.ofNat 3 j)
    let m := reg v far i
    let only := fun (t : State) (n : MemTrn) => ∀ f j, j < (if f then 12 else 3) → reg (t.die d) f j = if f = far ∧ j = i then n else reg v f j
    let code : BitVec 8 := if far then 0x0A else 0x09
    (v.boot.phase = 3 → v.boot.err = 0 → m.state.toNat < 2 → m.step.toNat < 8 → m.again = false →
      (∀ margin repaired, (m.step = 4 ∨ m.step = 5 → 1 ≤ margin.toNat ∧ margin.toNat ≤ 64) → m.step ≠ 7 →
          (m.step = 6 → ∃ j, j < (if far then 12 else 3) ∧ j ≠ i ∧ (reg v far j).step.toNat < 7) →
        ∃ t, exec (.memoryTrainingStep d far i (.pass margin repaired)) s = .next t
          ∧ only t (Spec.trained m far margin repaired) ∧ t = { s with dies := t.dies } ∧ (t.die d).boot = v.boot)
      ∧ (∀ margin repaired, m.step = 6 → (∀ j, j < (if far then 12 else 3) → j ≠ i → 7 ≤ (reg v far j).step.toNat) →
        ∃ t, exec (.memoryTrainingStep d far i (.pass margin repaired)) s = .next t
          ∧ only t (Spec.trained m far margin repaired)
          ∧ (let lo := d * 2 ^ 41 + (if far then 2 ^ 40 else 0)
             s.mem.wf = true → (∀ a, readByte t.mem a = if lo ≤ a ∧ a < lo + 2 ^ 40 then 0 else readByte s.mem a)))
      ∧ (∀ margin repaired, m.step = 7 → (∃ f j, j < (if f then 12 else 3) ∧ ¬ (f = far ∧ j = i) ∧ (reg v f j).state ≠ 2) →
        ∃ t, exec (.memoryTrainingStep d far i (.pass margin repaired)) s = .next t
          ∧ only t (Spec.trained m far margin repaired) ∧ (t.die d).boot = v.boot ∧ t.mem = s.mem)
      ∧ (∀ margin repaired, m.step = 7 → (∀ f j, j < (if f then 12 else 3) → ¬ (f = far ∧ j = i) → (reg v f j).state = 2) →
        ∃ t, exec (.memoryTrainingStep d far i (.pass margin repaired)) s = .next t
          ∧ only t (Spec.trained m far margin repaired) ∧ (t.die d).boot = { v.boot with phase := 4 }
          ∧ ∀ k, k / 1024 = d → (s.coreOf k).test.rtrok = true → (s.coreOf k).test.fail = 0 → ∀ j, j < 8 →
              (t.hartOf (8 * k + j)).trap.mtvec.toNat = d * 2 ^ 41 + 108 * 2 ^ 30 - 2 ^ 16 - 2 ^ 20)
      ∧ (m.tries < 2 → ∃ t, exec (.memoryTrainingStep d far i .fail) s = .next t ∧ t = { s with dies := t.dies }
          ∧ only t { m with state := 1, tries := m.tries + 1 } ∧ (t.die d).boot = v.boot)
      ∧ (2 ≤ m.tries → ∃ t, exec (.memoryTrainingStep d far i .fail) s = .next t
          ∧ only t { m with state := 3, step := m.step + 1, tries := 0 } ∧ (t.die d).boot = { v.boot with err := code })
      ∧ (m.step = 3 → far = false → ∃ t, exec (.memoryTrainingStep d far i .noSpare) s = .next t
          ∧ only t { m with state := 3, step := 4, tries := 0 } ∧ (t.die d).boot = { v.boot with err := code })
      ∧ (m.step ≠ 3 ∨ far = true → ∃ t, exec (.memoryTrainingStep d far i .noSpare) s = .next t ∧ t = s))
    ∧ (v.boot.phase ≠ 3 → v.boot.phase ≠ 2 → m.again = false → ∀ o, ∃ t, exec (.memoryTrainingStep d far i o) s = .next t ∧ t = s)
    ∧ (v.boot.phase ≠ 3 → v.boot.phase ≠ 2 → m.again = true → m.state.toNat < 2 →
      let settled := ∀ e, e < 4 → (∀ f j, j < (if f then 12 else 3) → ¬ (e = d ∧ f = far ∧ j = i) → (reg (s.die e) f j).again = false)
        ∧ (∀ p : Fin 22, p.val < 16 → ((s.die e).paths.get p).trained = true ∨ ((s.die e).paths.get p).retired = true)
        ∧ ∀ p : Fin 6, 2 ≤ ((s.die e).fabports.get p).state.toNat ∨ ((s.die e).fabports.get p).step = 1
      (∀ margin repaired, m.step = 4 → 1 ≤ margin.toNat → margin.toNat ≤ 64 → ∃ t, exec (.memoryTrainingStep d far i (.pass margin repaired)) s = .next t
          ∧ only t { m with step := 5, state := 1, tries := 0, rdmarg := margin } ∧ t = { s with dies := t.dies })
      ∧ (∀ margin repaired, m.step = 5 → 1 ≤ margin.toNat → margin.toNat ≤ 64 → ∃ t, exec (.memoryTrainingStep d far i (.pass margin repaired)) s = .next t
          ∧ only t { m with step := 6, state := 2, tries := 0, wrmarg := margin, again := false }
          ∧ t = { s with dies := t.dies, hostif := { s.hostif with regs := { s.hostif.regs with pwrState := t.hostif.regs.pwrState } } }
          ∧ (s.hostif.regs.pwrState = 3 → settled → t.hostif.regs.pwrState = 0)
          ∧ (s.hostif.regs.pwrState ≠ 3 ∨ ¬ settled → t.hostif.regs.pwrState = s.hostif.regs.pwrState))
      ∧ (2 ≤ m.tries → v.boot.err = 0 → ∃ t, exec (.memoryTrainingStep d far i .fail) s = .next t
          ∧ (t.die d).boot = { v.boot with err := code } ∧ t.hostif.regs.ready = false))

/-- R451, R466, R468, R469, R475: UCIe, fabric-port and PCI Express training; `u` is the state before the repair log takes a new path map. That UCIe
links train only while both dies are in phase 4 is the model's reading (log 27). -/
def LinkTraining : Prop :=
  ∀ (s : State) (d : Nat), d < 4 → (∃ k, k < 4 ∧ (s.die k).boot.phase ≠ 4) →
    let path := fun (t : State) (e i : Nat) => (t.die e).paths.get (Fin.ofNat 22 i)
    let ready := fun (e : Nat) => (s.die e).boot.phase = 4 ∧ (s.die e).boot.err = 0
    let r := s.hostif.regs
    (∀ p ok, p < 16 →
        let far := if p < 8 then d ^^^ 1 else d ^^^ 2
        let h := path s d p
        h.trained = false → h.retired = false →
        let after := fun (t : State) => ∀ e i, e < 4 → i < 22 → path t e i =
          if i = p ∧ (e = d ∨ e = far) then { path s e i with trained := ok, retired := !ok } else path s e i
        let gone := ok = false ∧ ∀ j, j < 8 → p / 8 * 8 + j ≠ p → (path s d (p / 8 * 8 + j)).retired = true ∧ (path s d (p / 8 * 8 + j)).trained = false
        (r.pwrState ≠ 3 → ready d → ready far → ∃ t, exec (.ucieTraining d p ok) s = .next t
          ∧ after t ∧ t = { s with dies := t.dies, hostif := t.hostif }
          ∧ (gone → (∀ e, e < 4 → (t.die e).boot = if e = d ∨ e = far then { (s.die e).boot with err := 0x0B } else (s.die e).boot)
              ∧ (r.devErr = 0 → t.hostif.regs.devErr = 0x0B ∧ t.hostif.regs.devDie.toNat = min d far))
          ∧ (¬ gone → t = { s with dies := t.dies } ∧ ∀ e, e < 4 → (t.die e).boot = (s.die e).boot))
        ∧ (r.pwrState ≠ 3 → ¬ (ready d ∧ ready far) → ∃ t, exec (.ucieTraining d p ok) s = .next t ∧ t = s)
        ∧ (r.pwrState = 3 → ∃ t, exec (.ucieTraining d p ok) s = .next t ∧ after t ∧ (gone → t.hostif.regs.ready = false)
            ∧ (¬ gone → ∀ e, e < 4 → (t.die e).boot = (s.die e).boot)))
    ∧ (∀ p o, p < 6 → ready d → r.pwrState ≠ 3 →
        let f := (s.die d).fabports.get (Fin.ofNat 6 p)
        let becomes := fun (g : FabPort) => ∃ t u, exec (.fabricPortTraining d p o) s = .next t ∧ t = logUpdate u
          ∧ (∀ j, j < 6 → (u.die d).fabports.get (Fin.ofNat 6 j) = if j = p then g else (s.die d).fabports.get (Fin.ofNat 6 j))
          ∧ (∀ i, i < 22 → path u d i = if i = 16 + p then { path s d i with trained := decide (g.state = 2) } else path s d i)
          ∧ (∀ e, e < 4 → e ≠ d → u.die e = s.die e) ∧ u = { s with dies := u.dies }
        (f.state = 4 ∨ f.state = 2 → ∃ t, exec (.fabricPortTraining d p o) s = .next t ∧ t = s)
        ∧ (f.state ≠ 4 → f.state ≠ 2 →
          (∀ peer port, o = .up peer port → port.toNat ≤ 23 → peer ≠ r.pkgid → becomes { peerpkg := peer, peerport := port, step := 7, state := 2, mapped := true })
          ∧ (∀ peer port, o = .up peer port → port.toNat ≤ 23 → peer = r.pkgid → becomes { f with peerpkg := peer, peerport := port, step := 7, state := 3 })
          ∧ (o = .noSignal → becomes { f with step := 1, state := 0 })
          ∧ (∀ n, o = .failed n → 2 ≤ n.toNat → n.toNat ≤ 7 → becomes { f with step := n, state := 3 })))
    ∧ (let h := s.hostif
       (r.pciState ≠ 1 → ∀ o, ∃ t, exec (.pcieTraining o) s = .next t ∧ t = s)
       ∧ (r.pciState = 1 →
         (∀ rate width flit cxl, 4 ≤ rate.toNat → rate.toNat ≤ 6 → width = 4 ∨ width = 8 ∨ width = 16 →
          ∃ t, exec (.pcieTraining (.up rate width flit cxl)) s = .next t
            ∧ Spec.HostBecomes s t { h with regs := { r with pciRate := rate, pciWidth := width, pciFlit := flit, pciState := 2, cxl := cxl } })
         ∧ (let n := if r.pciRetries.toNat = 255 then r.pciRetries else r.pciRetries + 1
            ∃ t, exec (.pcieTraining .detect) s = .next t
              ∧ Spec.HostBecomes s t { h with regs := { r with pciRetries := n, pciState := if 8 ≤ n.toNat then 3 else 1 } })))

/-- R456, R473 to R475: the power window's clock steps, entry to Standby and the beginning of its exit: memories repeat steps 5 and 6, links retrain,
an assigned site takes the result of its test, and a router beyond repair fails its die. What a core keeps across Standby, that the flags of the power
window stay at 700 MHz, and that `pwrst.state` is 3 until memory and links are settled, are the model's readings (log 27). -/
def PowerAndStandby : Prop :=
  ∀ (s : State) (watts : BitVec 16) (tj : BitVec 8),
    let h := s.hostif
    let r := h.regs
    let hot := decide (105 ≤ tj.toNat)
    let past := decide (r.pwrlim.toNat < watts.toNat)
    let becomes := fun (i : Instr) (q : PkgRegs) => ∃ t, exec i s = .next t ∧ Spec.HostBecomes s t { h with regs := q }
    let window := becomes (.powerWindow watts tj)
    (tj.toNat < 115 → duties s = true →
      (hot = true ∨ past = true → 700 < r.mhz.toNat →
          window { r with watts := watts, tj := tj, mhz := BitVec.ofNat 24 (max 700 (r.mhz.toNat - 100)), thermal := hot, power := past })
      ∧ (hot = true ∨ past = true → r.mhz.toNat ≤ 700 → window { r with watts := watts, tj := tj })
      ∧ (100 * watts.toNat < 95 * r.pwrlim.toNat → tj.toNat < 100 → window { r with watts := watts, tj := tj, mhz := BitVec.ofNat 24 (min 1400 (r.mhz.toNat + 100)) })
      ∧ (hot = false → past = false → 95 * r.pwrlim.toNat ≤ 100 * watts.toNat ∨ 100 ≤ tj.toNat → window { r with watts := watts, tj := tj }))
    ∧ (115 ≤ tj.toNat → ∃ t, exec (.powerWindow watts tj) s = .next t
        ∧ (∀ d, d < 4 → (t.hartOf (8 * (4160 + d))).run = .halted) ∧ t.mem = [] ∧ t.ctxs = [] ∧ t.hostMem = s.hostMem ∧ t.flash = s.flash)
    ∧ (r.ready = false → becomes .standbyEntry { r with heldD3 := true })
    ∧ (r.ready = true → 2 ≤ r.pwrState.toNat → ∃ t, exec .standbyEntry s = .next t ∧ t = s)
    ∧ (r.ready = true → r.pwrState.toNat < 2 → (∃ e ∈ s.ctxs, e.2.st = .saving ∨ e.2.st = .restoring) → (∀ e ∈ s.ctxs, e.2.st ≠ .active) →
        becomes .standbyEntry { r with pwrState := 1 })
    ∧ (r.ready = true → r.pwrState.toNat < 2 → (∀ e ∈ s.ctxs, e.2.st = .free ∨ e.2.st = .saved ∨ e.2.st = .fatal) →
        (∀ d, d < 4 → (s.die d).move = none) → h.bias.flip = none → (∀ e ∈ s.cores, e.2.pool ≠ .scan) → (∀ e ∈ s.cores, e.2.pstores = []) →
        Spec.Rising s.cores → Spec.Rising s.harts →
        ∃ t, exec .standbyEntry s = .next t ∧ t.hostif = { h with regs := { r with pwrState := 2 } } ∧ t.mem = s.mem ∧ t.ctxs = s.ctxs ∧ t.queues = s.queues
          ∧ (∀ k, k < 4096 → (∃ e ∈ s.cores, e.1 = k) → t.coreOf k = { Core.reset with
              asg := (s.coreOf k).asg, coreid := (s.coreOf k).coreid, test := (s.coreOf k).test, err := (s.coreOf k).err, pool := (s.coreOf k).pool })
          ∧ (∀ k, k < 8 * 4160 → t.hartOf k = hartAtReset k) ∧ (∀ k, 8 * 4160 ≤ k → t.hartOf k = s.hartOf k)
          ∧ (∀ d p, d < 4 → p < 6 → (((t.die d).fabports.get (Fin.ofNat 6 p)).state =
              if ((s.die d).fabports.get (Fin.ofNat 6 p)).state = 4 then 4 else 0)))
    ∧ (∀ results, r.pwrState ≠ 2 → ∃ t, exec (.standbyExit results) s = .next t ∧ t = s)
    ∧ (r.pwrState = 2 → ∃ t u, exec (.standbyExit []) s = .next t ∧ t = logUpdate u ∧ u.hostif = { h with regs := { r with pwrState := 3 } }
        ∧ u.mem = s.mem ∧ u.ctxs = s.ctxs ∧ u.queues = s.queues
        ∧ (∀ b, b < 64 → u.hartOf (8 * (4096 + b)) = { Hart.resetM .firmware with pc := (s.die (b / 16)).ident.basinEntry })
        ∧ (∀ k, k < 4096 → u.coreOf k = s.coreOf k)
        ∧ (∀ e ∈ s.cores, e.1 < 4096 → e.2.asg.valid = true → ∀ j, j < 8 →
            (u.hartOf (8 * e.1 + j)).trap.mtvec.toNat = e.1 / 1024 * 2 ^ 41 + 108 * 2 ^ 30 - 2 ^ 16 - 2 ^ 20)
        ∧ (∀ d, d < 4 → (∀ i : Fin 3, (u.die d).nmtrn.get i = { (s.die d).nmtrn.get i with step := 4, state := 1, tries := 0, again := true })
            ∧ (∀ i : Fin 12, (u.die d).fmtrn.get i = { (s.die d).fmtrn.get i with step := 4, state := 1, tries := 0, again := true })
            ∧ (∀ p : Fin 22, (u.die d).paths.get p =
                if ((s.die d).paths.get p).retired = true then (s.die d).paths.get p else { (s.die d).paths.get p with trained := false })
            ∧ ∀ p : Fin 6, ((u.die d).fabports.get p).state = if ((s.die d).fabports.get p).state = 4 then 4 else 1))
    ∧ (∀ (k : Nat) (w : BitVec 16), r.pwrState = 2 → k < 4096 → (s.coreOf k).asg.valid = true → w.getLsbD 15 = false → (s.die (k / 1024)).boot.err = 0 →
        ∃ t, exec (.standbyExit [(k, w)]) s = .next t ∧ (t.die (k / 1024)).boot.err = 0x07 ∧ t.hostif.regs.ready = false ∧ t.hostif.regs.pwrState = 3)
    ∧ (∀ (k : Nat) (w : BitVec 16), r.pwrState = 2 → k < 4096 → (s.coreOf k).asg.valid = true → w.getLsbD 15 = true → w.setWidth 8 = (0 : BitVec 8) →
        ∃ t, exec (.standbyExit [(k, w)]) s = .next t ∧ t.hostif.regs.pwrState = 3
          ∧ t.coreOf k = { s.coreOf k with test := { rtrok := true, rtrspare := w.getLsbD 14, fail := 0 } }
          ∧ (∀ j, j ≠ k → t.coreOf j = s.coreOf j) ∧ (∀ d, d < 4 → (t.die d).boot = (s.die d).boot))

end Sys2Proof.Machine.Claims

/-- Memory and link training, the power window and Standby (R451, R456, R463, R464, R466, R468, R469, R470, R473, R474, R475). -/
def Obligations.TrainingAndPower : Prop :=
  Sys2Proof.Machine.Claims.Training ∧ Sys2Proof.Machine.Claims.LinkTraining ∧ Sys2Proof.Machine.Claims.PowerAndStandby

namespace Sys2Proof.Machine.Claims

/-- R416 to R420: corrected errors, leaks and patrol scrub; a parity error of an L1 cache loses one of its lines. -/
def ErrorWindows : Prop :=
  ∀ (s : State),
    (∀ (site : Nat) (src : BitVec 4) (loc : BitVec 24),
      let c := s.coreOf site
      let e := c.err
      let level := if e.level.toNat = 0xFFFF then e.level else e.level + 1
      let sends := e.req = false ∧ e.thresh ≠ 0 ∧ level = e.thresh ∧ e.level.toNat ≠ 0xFFFF
      let d := site / 1024
      site < 4096 → ∃ t, exec (.correctedError site src loc) s = .next t
        ∧ t.coreOf site = { c with caches := (t.coreOf site).caches
                                   err := { e with level := level, total := e.total + 1, src := src, loc := loc, req := (t.coreOf site).err.req } }
        ∧ ((t.coreOf site).err.req = true ↔ e.req = true ∨ sends)
        ∧ t.die d = { s.die d with evac := if sends then (s.die d).evac ++ [site] else (s.die d).evac }
        ∧ (∀ k, k ≠ site → t.coreOf k = s.coreOf k) ∧ (∀ k, k < 4 → k ≠ d → t.die k = s.die k)
        ∧ (src ≠ 3 → (t.coreOf site).caches = c.caches ∧ t = { s with cores := t.cores, dies := t.dies })
        ∧ (src = 3 → (c.caches.l1d = [] ∧ c.caches.l1i = [] ∧ (t.coreOf site).caches = c.caches
              ∨ ∃ n, (n < c.caches.l1d.length ∧ (t.coreOf site).caches = { c.caches with l1d := c.caches.l1d.eraseIdx n })
                ∨ (n < c.caches.l1i.length ∧ (t.coreOf site).caches = { c.caches with l1i := c.caches.l1i.eraseIdx n }))
            ∧ t = { s with cores := t.cores, dies := t.dies, freeCtr := s.freeCtr + 1 }))
    ∧ (∀ site, let c := s.coreOf site
        ∃ t, exec (.leakTick site) s = .next t ∧ Spec.CoreBecomes s t site { c with err := { c.err with level := BitVec.ofNat 16 (c.err.level.toNat - 1) } })
    ∧ (∀ target, ∃ t, exec (.patrolScrub target .clean) s = .next t ∧ t = s)
    ∧ (∀ site off, (s.die (site / 1024)).scrub = true → ∃ t, exec (.patrolScrub (.scratchpad site off) .corrected) s = .next t
        ∧ exec (.correctedError site 0 (BitVec.ofNat 24 (off / 4))) s = .next t)
    ∧ (∀ site off, (s.die (site / 1024)).scrub = true → off < 0x40000 → off / 4 ∉ (s.coreOf site).spBad →
        ∃ t l, exec (.patrolScrub (.scratchpad site off) .uncorrectable) s = .next t ∧ Spec.CoreBecomes s t site { s.coreOf site with spBad := l }
          ∧ ∀ w, w ∈ l ↔ w = off / 4 ∨ w ∈ (s.coreOf site).spBad)
    ∧ (∀ pa, isDev pa = true → (s.die (pa / 2 ^ 41)).memscrub = true → ∃ t, exec (.patrolScrub (.memory pa) .uncorrectable) s = .next t
        ∧ t = { s with poison := t.poison }
        ∧ ∀ w, smFind w t.poison = if w = pa / 8 then some (if pa % 2 ^ 41 < 2 ^ 40 then 0 else 1) else smFind w s.poison)
    ∧ (∀ pa, isDev pa = true → (s.die (pa / 2 ^ 41)).scrub = true → ∃ t, exec (.patrolScrub (.l2 pa) .uncorrectable) s = .next t
        ∧ t = { s with poison := t.poison } ∧ ∀ w, smFind w t.poison = if w = pa / 8 then some 2 else smFind w s.poison)
    ∧ (∀ pa, ∃ t, exec (.patrolScrub (.memory pa) .corrected) s = .next t ∧ t = s)

/-- R436, R437, R439, R468: a path's level, its retirement at both ends, at once or when the lease holder takes its duties up, and its retraining; `u`
is the state before the repair log takes the path maps. -/
def PathHealth : Prop :=
  ∀ (s : State) (d p : Nat), d < 4 → p < 22 →
    let h := (s.die d).paths.get (Fin.ofNat 22 p)
    let level := if h.level.toNat = 0xFFFF then h.level else h.level + 1
    let path := fun (t : State) (e i : Nat) => (t.die e).paths.get (Fin.ofNat 22 i)
    let far := if p < 8 then d ^^^ 1 else d ^^^ 2
    let ends := fun (e i : Nat) => i = p ∧ (e = d ∨ (p < 16 ∧ e = far))
    (¬ (h.thresh ≠ 0 ∧ h.thresh.toNat ≤ level.toNat ∧ h.retired = false ∧ (p < 16 ∨ duties s = true)) →
      ∃ t, exec (.linkFlitCrcDrop d p) s = .next t
        ∧ Spec.DieBecomes s t d { s.die d with paths := (t.die d).paths }
        ∧ ∀ i, i < 22 → path t d i = if i = p then { h with level := level } else path s d i)
    ∧ (h.thresh ≠ 0 → h.thresh.toNat ≤ level.toNat → h.retired = false → p < 16 ∨ duties s = true →
      ∃ t u, exec (.linkFlitCrcDrop d p) s = .next t ∧ t = logUpdate u
        ∧ (∀ e i, e < 4 → i < 22 → (path u e i).retired = if ends e i then true else (path s e i).retired)
        ∧ (∀ e i, e < 4 → i < 22 → (path u e i).level = if i = p ∧ e = d then level else (path s e i).level)
        ∧ (∀ g, g ∈ u.frags ↔ g ∈ s.frags ∧ ¬ ends g.die g.path) ∧ (∀ g, g ∈ u.ctls ↔ g ∈ s.ctls ∧ ¬ ends g.die g.path)
        ∧ u.hostif.ring.seq = s.hostif.ring.seq + 1 ∧ u.mem = s.mem ∧ u.harts = s.harts ∧ u.cores = s.cores)
    ∧ (∃ t, exec (.pathLeakTick d p) s = .next t ∧ Spec.DieBecomes s t d { s.die d with paths := (t.die d).paths }
        ∧ ∀ i, i < 22 → path t d i = if i = p then { h with level := BitVec.ofNat 16 (h.level.toNat - 1) } else path s d i)
    ∧ ((∀ e i, e < 4 → 16 ≤ i → i < 22 → let g := path s e i; ¬ (g.thresh ≠ 0 ∧ g.thresh.toNat ≤ g.level.toNat ∧ g.retired = false)) → retireDue s = s)
    ∧ (∀ e i, e < 4 → 16 ≤ i → i < 22 → (let g := path s e i; g.thresh ≠ 0 ∧ g.thresh.toNat ≤ g.level.toNat ∧ g.retired = false) →
        (path (retireDue s) e i).retired = true)
    ∧ (∀ ok, 16 ≤ p → duties s = false → ∃ t, exec (.pathRetrain d p ok) s = .next t ∧ t = s)
    ∧ (h.retired = true → p < 16 ∨ duties s = true → ∃ t u, exec (.pathRetrain d p true) s = .next t ∧ t = logUpdate u
        ∧ (∀ e i, e < 4 → i < 22 → path u e i = if ends e i then { path s e i with trained := true, retired := false, level := 0 } else path s e i)
        ∧ (16 ≤ p → ((u.die d).fabports.get (Fin.ofNat 6 (p - 16))).state = 2)
        ∧ u.hostif.ring.seq = s.hostif.ring.seq + 1 ∧ u.mem = s.mem ∧ u.harts = s.harts ∧ u.cores = s.cores ∧ u.frags = s.frags)
    ∧ (h.retired = true → p < 16 ∨ duties s = true → ∃ t, exec (.pathRetrain d p false) s = .next t
        ∧ (∀ e i, e < 4 → i < 22 → path t e i = if ends e i then { path s e i with trained := false } else path s e i)
        ∧ (16 ≤ p → ((t.die d).fabports.get (Fin.ofNat 6 (p - 16))).state = 3) ∧ t = { s with dies := t.dies })
    ∧ (∀ ok, h.retired = false → ∃ t, exec (.pathRetrain d p ok) s = .next t ∧ t = s)

end Sys2Proof.Machine.Claims

/-- Error windows count, leak and ask for evacuation; paths are retired at both ends (R416, R418, R419, R420, R436, R437, R439, R468). -/
def Obligations.ErrorsAndPaths : Prop :=
  Sys2Proof.Machine.Claims.ErrorWindows ∧ Sys2Proof.Machine.Claims.PathHealth

namespace Sys2Proof.Machine.Claims

/-- R424 to R431: a move of a logical core to the nearest spare, state by state: each changes the two cores, the remap table and the die, and nothing
else; `u` is the state before the repair log takes the change (R441). The model's choices are that Copy is one step, that a spare that fails in Hold
goes to its scan, that the losses of R322 and a request for pre-emption are taken over at Flip, and what becomes of a site without its package (log
28). -/
def SiphonMove : Prop :=
  ∀ (s : State) (d : Nat), d < 4 → duties s = true →
    let v := s.die d
    let term := leaderTerm s
    let gone : SiteAsg := { valid := false, spare := false, coord := 0 }
    let scans := fun c : Core => if c.pool = .defective then SitePool.defective else .scan
    let place := fun (x : State) (k : Nat) (e : BitVec 16) =>
      e.toNat * 2 ^ 32 + x.hostif.regs.pkgid.toNat * 2 ^ 22 + k / 1024 * 2 ^ 18 + k % 1024 / 32 * 2 ^ 8 + k % 32
    (∀ site rest, v.evac = site :: rest → v.move = none →
        let c := s.coreOf site
        (∀ n cx, ctxOfAgent s site = some (n, cx) → cx.st ≠ .saving ∧ cx.st ≠ .restoring) →
        (¬ (c.asg.valid = true ∧ c.asg.spare = false) → ∃ t u, exec (.siphonHold d) s = .next t ∧ t = logUpdate u
          ∧ u.die d = { v with evac := rest }
          ∧ u.coreOf site = { c with asg := gone, coreid := 0, pool := scans c }
          ∧ (∀ k, k ≠ site → u.coreOf k = s.coreOf k) ∧ Spec.OtherDies s u d ∧ u = { s with cores := u.cores, dies := u.dies })
        ∧ (c.asg.valid = true → c.asg.spare = false → site < 4096 →
          (∀ sp, Spec.NearestSpare s site sp → ∃ t u, exec (.siphonHold d) s = .next t ∧ t = logUpdate u
            ∧ u.die d = { v with evac := rest, move := some { coord := c.coreid, old := site, spare := sp, st := .hold, term := term, diverted := [] } }
            ∧ u.coreOf site = { c with tasks := (u.coreOf site).tasks }
            ∧ (∀ ch, ch < 64 → (u.coreOf site).task ch = { c.task ch with siphon := true })
            ∧ (∀ k, k ≠ site → u.coreOf k = s.coreOf k) ∧ Spec.OtherDies s u d ∧ u = { s with cores := u.cores, dies := u.dies })
          ∧ ((∀ sp, ¬ Spec.NearestSpare s site sp) → ∃ t, ∃ u : State, ∃ n, exec (.siphonHold d) s = .next t
            ∧ Spec.DieBecomes s u d { v with evac := rest } ∧ Spec.rowContext s c.coreid n ∧ t = u.emit 0x12 n 0xFFFF c.coreid.toNat 1 0)))
    ∧ (∀ m, v.move = some m → m.old ≠ m.spare →
        let o := s.coreOf m.old
        let p := s.coreOf m.spare
        (m.st = .hold → (∀ j, j < 8 → ¬ Spec.onTask (s.hartOf (8 * m.old + j))) → o.sluice.faults = [] → (∀ n : Fin 4, (o.sluice.chans.get n).reqs = []) →
          o.pstores = [] → m.spare < 4096 →
          ∃ t u, exec (.siphonCopy d) s = .next t ∧ t = logUpdate u ∧ u.die d = { v with move := some { m with st := .copy, term := term } }
            ∧ (u.coreOf m.spare).sp = o.sp ∧ (u.coreOf m.spare).spBad = o.spBad ∧ (u.coreOf m.spare).tasks = [] ∧ (u.coreOf m.spare).asg = p.asg
            ∧ (u.coreOf m.spare).err = p.err
            ∧ (∀ k, k ≠ m.spare → u.coreOf k = s.coreOf k) ∧ (∀ j, j < 8 → (u.hartOf (8 * m.spare + j)).run = .free)
            ∧ (∀ k, k / 8 ≠ m.spare → u.hartOf k = s.hartOf k) ∧ Spec.OtherDies s u d
            ∧ u = { s with harts := u.harts, cores := u.cores, dies := u.dies })
        ∧ (m.st = .copy → m.term = term → ∃ t u, exec (.siphonState d) s = .next t ∧ t = logUpdate u
            ∧ u.die d = { v with move := some { m with st := .state } }
            ∧ u.coreOf m.spare = { p with tasks := o.tasks, rr := o.rr, mail := o.mail, sluice := o.sluice }
            ∧ (∀ k, k ≠ m.spare → u.coreOf k = s.coreOf k) ∧ Spec.OtherDies s u d ∧ u = { s with cores := u.cores, dies := u.dies })
        ∧ (m.st = .state → m.term = term → dieOfCoord m.coord = d → ∃ t u, exec (.siphonFlip d) s = .next t ∧ t = logUpdate u
            ∧ u.die d = { v with move := some { m with st := .flip }, remap := (u.die d).remap }
            ∧ u.coreOf m.spare = { p with asg := { valid := true, spare := false, coord := o.asg.coord }, coreid := o.asg.coord, weir := o.weir, part := o.part
                                          lossrec := o.lossrec, mail := { p.mail with losses := o.mail.losses }, copies := o.copies
                                          tasks := (u.coreOf m.spare).tasks }
            ∧ (∀ ch, ch < 64 → (u.coreOf m.spare).task ch = { p.task ch with preempt := (o.task ch).preempt })
            ∧ u.coreOf m.old = { o with asg := gone, coreid := 0, weir := Weir.reset, part := GangPart.reset, tasks := [] }
            ∧ (let e := remapOf s m.coord
               remapOf u m.coord = { e with epoch := e.epoch + 1, prow := BitVec.ofNat 5 (m.spare % 1024 / 32), pcol := BitVec.ofNat 5 (m.spare % 32) })
            ∧ (∀ x, dieOfCoord x ≠ d ∨ remapIndex x ≠ remapIndex m.coord → remapOf u x = remapOf s x)
            ∧ (∀ k, k ≠ m.spare → k ≠ m.old → u.coreOf k = s.coreOf k) ∧ Spec.OtherDies s u d ∧ u = { s with cores := u.cores, dies := u.dies })
        ∧ (m.st = .flip → ∃ t, ∃ a b w u : State, ∃ n, exec (.siphonRelease d) s = .next t ∧ t = logUpdate u
            ∧ Spec.DieBecomes s a d { v with move := none } ∧ b = m.diverted.foldl arrive (logUpdate a)
            ∧ (let e := (remapOf b m.coord).epoch
               let p := b.coreOf m.spare
               w.coreOf m.spare = { p with tasks := (w.coreOf m.spare).tasks }
               ∧ (∀ ch, ch < 64 → ch ≠ 63 ∨ p.part.launch = none → (w.coreOf m.spare).task ch = { p.task ch with siphon := false })
               ∧ (p.part.launch.isSome = true → (p.task 63).pending = false →
                   (w.coreOf m.spare).task 63 = { p.task 63 with siphon := false, pending := true, s2 := p.coreid, s3 := 0, s4 := e.setWidth 32
                                                                 s5 := BitVec.ofNat 32 (place b m.spare e) })
               ∧ (∀ k, k ≠ m.spare → w.coreOf k = b.coreOf k) ∧ (∀ k, w.basin k = { b.basin k with ncev := (w.basin k).ncev })
               ∧ w = { b with cores := w.cores, basins := w.basins }
               ∧ Spec.rowContext b m.coord n
               ∧ Spec.CoreBecomes (w.emit 0x10 n 0xFFFF m.coord.toNat (place b m.old (e - 1)) (place b m.spare e)) u m.old
                   { b.coreOf m.old with asg := gone, coreid := 0, pool := scans (b.coreOf m.old) }))
        ∧ (m.st = .flip ∨ m.st = .release → ∃ t, exec (.siphonAbort d .spareFailed) s = .next t ∧ t = s)
        ∧ (m.st ≠ .copy ∧ m.st ≠ .state ∨ m.term = term → ∃ t, exec (.siphonAbort d .leaseChange) s = .next t ∧ t = s)
        ∧ (m.st = .copy ∨ m.st = .state → m.term ≠ term → o.pstores = [] → m.spare < 4096 →
          ∃ t u, exec (.siphonAbort d .leaseChange) s = .next t ∧ t = logUpdate u
            ∧ u.die d = { v with move := some { m with st := .copy, term := term } } ∧ (u.coreOf m.spare).sp = o.sp ∧ (u.coreOf m.spare).tasks = []
            ∧ (∀ k, k ≠ m.spare → u.coreOf k = s.coreOf k) ∧ (∀ k, k / 8 ≠ m.spare → u.hartOf k = s.hartOf k)
            ∧ Spec.OtherDies s u d ∧ u = { s with harts := u.harts, cores := u.cores, dies := u.dies })
        ∧ ((∀ e ∈ s.ctxs, e.2.fatal = none) → ∃ t, exec (.siphonAbort d .contextFatal) s = .next t ∧ t = s)
        ∧ (m.st = .hold → (∃ e ∈ s.ctxs, Spec.ownsRow e.2 m.coord ∧ e.2.fatal.isSome = true) →
            ∃ t, ∃ u w : State, ∃ n, exec (.siphonAbort d .contextFatal) s = .next t ∧ Spec.DieBecomes s u d { v with move := none }
              ∧ w.coreOf m.old = { (logUpdate u).coreOf m.old with tasks := (w.coreOf m.old).tasks }
              ∧ (∀ ch, ch < 64 → (w.coreOf m.old).task ch = { o.task ch with siphon := false })
              ∧ (∀ k, k ≠ m.old → w.coreOf k = (logUpdate u).coreOf k) ∧ (∀ k, w.basin k = { s.basin k with ncev := (w.basin k).ncev })
              ∧ w = { logUpdate u with cores := w.cores, basins := w.basins }
              ∧ t = logUpdate (w.emit 0x12 n 0xFFFF m.coord.toNat 2 0) ∧ Spec.rowContext s m.coord n)
        ∧ (m.st = .hold ∨ m.st = .copy ∨ m.st = .state → m.old < 4096 →
            (m.diverted = [] → (∀ sp, ¬ Spec.NearestSpare (toScan s m.spare) m.old sp) →
              ∃ t, ∃ w : State, ∃ n, exec (.siphonAbort d .spareFailed) s = .next t
                ∧ t = logUpdate (w.emit 0x12 n 0xFFFF m.coord.toNat 1 0) ∧ Spec.rowContext s m.coord n
                ∧ (t.die d).move = none ∧ (∀ ch, ch < 64 → (t.coreOf m.old).task ch = { o.task ch with siphon := false })
                ∧ (t.coreOf m.spare).pool = scans p ∧ (t.coreOf m.spare).asg.valid = false ∧ t.harts = s.harts)
            ∧ (∀ sp, Spec.NearestSpare (toScan s m.spare) m.old sp → o.pstores = [] → ∃ t u, exec (.siphonAbort d .spareFailed) s = .next t ∧ t = logUpdate u
                ∧ (u.die d).move = some (if m.st = .hold then { m with spare := sp } else { m with spare := sp, st := .copy, term := term })
                ∧ (m.st ≠ .hold → (u.coreOf sp).sp = o.sp ∧ (u.coreOf sp).spBad = o.spBad)
                ∧ (u.coreOf m.spare).pool = scans p ∧ (u.coreOf m.spare).asg.valid = false)))

/-- R441: an update of the repair log by the lease holder raises `lseq` by one and writes it to the four copies, touches no other byte of memory and
nothing else but cached copies of those lines; with no lease holder there is none. The place of `lseq` in a copy is the model's choice (log 28). -/
def RepairLog : Prop :=
  ∀ (s : State), (duties s = false → logUpdate s = s)
    ∧ (∀ d, leaderDie s = some d → s.mem.wf = true → Spec.Rising s.cores →
        let t := logUpdate s
        let l := (s.die d).lease
        let area := fun k : Nat => k * 2 ^ 41 + 108 * 2 ^ 30 - 2 ^ 16
        t.die d = { s.die d with lease := { l with lseq := l.lseq + 1 } } ∧ (∀ e, e < 4 → e ≠ d → t.die e = s.die e)
          ∧ (∀ k, k < 4 → readLE t.mem (area k + 0xFFF8) 8 = (l.lseq + 1).toNat)
          ∧ (∀ a, (∀ k, k < 4 → ¬ (area k ≤ a ∧ a < area k + 2 ^ 16)) → readByte t.mem a = readByte s.mem a)
          ∧ (∀ k, t.coreOf k = { s.coreOf k with caches := (t.coreOf k).caches })
          ∧ t = { s with dies := t.dies, mem := t.mem, poison := t.poison, cores := t.cores, hostif := { s.hostif with held := t.hostif.held } })

/-- R441: a step ends with an update of the repair log where the lease holder performs its duties, the record has changed and the step has written no
update of its own, and with none otherwise. -/
def LogFollowsSteps : Prop :=
  ∀ (s t : State),
    (duties t = false → logged s (.next t) = .next t)
    ∧ (∀ d, leaderDie t = some d →
        let term := (t.die d).lease.term
        let same := (s.die d).lease.lseq = (t.die d).lease.lseq
        (same → logRecord s term ≠ logRecord t term → logged s (.next t) = .next (logUpdate t))
        ∧ (¬ same ∨ logRecord s term = logRecord t term → logged s (.next t) = .next t))
    ∧ (∀ f, logged s (.fault f) = .fault f) ∧ ∀ r, logged s (.refused r) = .refused r

/-- R439: while no cistern holds a valid lease, its duties wait: no request is taken, no move goes on or ends, no fatal sequence and no report of a wait
cycle runs. -/
def DutiesWait : Prop :=
  ∀ (s : State), duties s = false →
    ∀ i, (∃ d, i = .siphonHold d ∨ i = .siphonCopy d ∨ i = .siphonState d ∨ i = .siphonFlip d ∨ i = .siphonRelease d)
        ∨ (∃ d why, i = .siphonAbort d why) ∨ (∃ n, i = .fatalSequence n ∨ i = .waitCycleWalk n ∨ i = .waitCycleConfirm n) →
      ∃ t, exec i s = .next t ∧ t = s

/-- R434, R435: a scan of a site that has left Release, with the package of the bundle that has the number asked for: refused, failed or passed. -/
def SiteScans : Prop :=
  ∀ (s : State) (site : Nat) (pkg : ScanPackage), site < 4096 →
    let d := site / 1024
    let v := s.die d
    let c := s.coreOf site
    let at_ := d * 2 ^ 18 + site % 1024 / 32 * 2 ^ 8 + site % 32
    (c.pool ≠ .scan ∨ bundledScan s.flash pkg.seqno = none → ∃ t, exec (.scanSite site pkg) s = .next t ∧ t = s)
    ∧ (∀ i, c.pool = .scan → bundledScan s.flash pkg.seqno = some i →
        let refused := v.boot.scanok = false ∨ MlDsa.verify v.ident.scanKey (sha3 i.signed) i.sig = false ∨ i.reservedZero = false ∨ pkg.seqno.toNat < v.scanseq.toNat
        (¬ refused → pkg.misr = i.misr → ∃ t, ∃ u : State, exec (.scanSite site pkg) s = .next t
          ∧ t = logUpdate (u.emit 0x13 0xFF 0xFFFF at_ 0 pkg.seqno.toNat) ∧ u.die d = { v with scanseq := pkg.seqno }
          ∧ (u.coreOf site).asg = { valid := true, spare := true, coord := 0 } ∧ (u.coreOf site).coreid = 0 ∧ (u.coreOf site).pool = .normal
          ∧ (u.coreOf site).sp = [] ∧ (u.coreOf site).spBad = [] ∧ (u.coreOf site).err = { c.err with level := 0, req := false }
          ∧ (∀ j, j < 8 → (u.hartOf (8 * site + j)).run = .free
              ∧ (u.hartOf (8 * site + j)).trap.mtvec.toNat = d * 2 ^ 41 + 108 * 2 ^ 30 - 2 ^ 16 - 2 ^ 20)
          ∧ (∀ k, k ≠ site → u.coreOf k = s.coreOf k) ∧ (∀ k, k / 8 ≠ site → u.hartOf k = s.hartOf k))
        ∧ (refused ∨ pkg.misr ≠ i.misr → ∃ t, ∃ u : State, exec (.scanSite site pkg) s = .next t
          ∧ t = logUpdate (u.emit 0x13 0xFF 0xFFFF at_ (if refused then 2 else 1) pkg.seqno.toNat)
          ∧ u.die d = (if refused then v else { v with scanseq := pkg.seqno })
          ∧ u.coreOf site = { c with asg := { valid := false, spare := false, coord := 0 }, coreid := 0, pool := .defective }
          ∧ (∀ k, k ≠ site → u.coreOf k = s.coreOf k) ∧ u.harts = s.harts))

end Sys2Proof.Machine.Claims

/-- A Siphon move hands a core to the nearest spare; the repair log follows; scans return sites (R424, R425, R426, R429, R430, R434, R435, R439,
R441). -/
def Obligations.SiphonMoves : Prop :=
  Sys2Proof.Machine.Claims.SiphonMove ∧ Sys2Proof.Machine.Claims.RepairLog ∧ Sys2Proof.Machine.Claims.LogFollowsSteps
    ∧ Sys2Proof.Machine.Claims.DutiesWait ∧ Sys2Proof.Machine.Claims.SiteScans

namespace Sys2Proof.Machine.Claims

/-- R417, R438 to R441, R470: heartbeats in flight, acknowledgements, lapse, claims and votes, what a lease holder does as it takes its duties up, and
the end of boot. The length of a delay is timing (log 33). That a claim counts as one that its candidate has granted, that CLAIM_RETRY raises it by 1,
and that records of an earlier term are dropped are readings of R440 (log 28), and that phase 5 ends once boot fetch has, of R470 (log 27). -/
def LeaseProtocol : Prop :=
  ∀ (s : State) (d : Nat), d < 4 →
    let v := s.die d
    let l := v.lease
    let becomes := fun (i : Instr) (l : Lease) => ∃ t, exec i s = .next t ∧ Spec.DieBecomes s t d { v with lease := l }
    let leads := l.leader.toNat = d ∧ (l.role = 1 ∨ l.role = 3) ∧ l.failed = false
    let claims := fun (l : Lease) (term : BitVec 32) =>
      { l with role := 2, claim := term, granted := if l.granted.toNat < term.toNat then term else l.granted, votes := [] }
    let lands := fun (i : Instr) (b : Beat) (l : Lease) (sent : List Beat) => ∃ t, exec i s = .next t
      ∧ Spec.DieBecomes { s with beats := s.beats.erase b ++ sent } t d { v with lease := l }
    (leads → v.hben = true → ∃ t, exec (.leaseHeartbeatSend d) s = .next t
        ∧ Spec.DieBecomes { s with beats := s.beats ++ ((List.range 4).filter fun e => decide (e ≠ d) && linked s d e).map fun e =>
            { ack := false, src := d, dst := e, term := l.term, seq := l.hbseq + 1 } } t d { v with lease := { l with hbseq := l.hbseq + 1, acks := [] } })
    ∧ (¬ leads ∨ v.hben = false → ∃ t, exec (.leaseHeartbeatSend d) s = .next t ∧ t = s)
    ∧ (∀ (e : Nat) (term seq : BitVec 32), e < 4 →
        let b : Beat := { ack := false, src := e, dst := d, term := term, seq := seq }
        let i : Instr := .leaseHeartbeatReceive d e term seq
        (b ∈ s.beats → l.term.toNat ≤ term.toNat → l.failed = false →
          lands i b { l with term := term, leader := BitVec.ofNat 2 e, role := 0, lapsed := false, since := false, votes := [] }
            (if linked s d e = true then [{ ack := true, src := d, dst := e, term := term, seq := seq }] else []))
        ∧ (b ∈ s.beats → term.toNat < l.term.toNat ∨ l.failed = true → lands i b l [])
        ∧ (b ∉ s.beats → ∃ t, exec i s = .next t ∧ t = s))
    ∧ (∀ (e : Nat) (term seq : BitVec 32), e < 4 →
        let b : Beat := { ack := true, src := e, dst := d, term := term, seq := seq }
        let i : Instr := .leaseHeartbeatAck d e term seq
        let counts := leads ∧ l.term = term ∧ l.hbseq = seq ∧ e ∉ l.acks
        (b ∈ s.beats → counts → l.role = 1 ∨ l.acks = [] → lands i b { l with acks := l.acks ++ [e] } [])
        ∧ (b ∈ s.beats → counts → l.role = 3 → l.acks ≠ [] → ∃ t u, exec i s = .next t
            ∧ Spec.DieBecomes { s with beats := s.beats.erase b } u d { v with lease := { l with acks := l.acks ++ [e], role := 1 } }
            ∧ t = logUpdate (retireDue (placeWaiting u)))
        ∧ (b ∈ s.beats → ¬ counts → lands i b l [])
        ∧ (b ∉ s.beats → ∃ t, exec i s = .next t ∧ t = s))
    ∧ becomes (.leaderLeaseExpiry d) (if l.role = 1 then { l with role := 3 } else l)
    ∧ (l.role = 0 → l.failed = false → l.lapsed = false → becomes (.leaseLapse d) { l with lapsed := true, since := false })
    ∧ (l.role = 0 → l.failed = false → l.lapsed = true → l.since = false →
        becomes (.leaseLapse d) (claims l (l.term + 1)))
    ∧ (l.role = 0 → l.failed = false → l.lapsed = true → l.since = true → becomes (.leaseLapse d) l)
    ∧ becomes (.claimRetry d) (if l.role = 2 then claims l (l.claim + 1) else l)
    ∧ (∀ e, e < 4 → e ≠ d →
        let c := (s.die e).lease
        c.role = 2 → l.lapsed = true ∨ l.term = 0 → l.granted.toNat < c.claim.toNat → l.term.toNat < c.claim.toNat → l.failed = false →
        (c.votes = [] → ∃ t, exec (.leaseClaim d e c.claim) s = .next t
          ∧ t.die d = { v with lease := { l with granted := c.claim, since := true } } ∧ t.die e = { s.die e with lease := { c with votes := [d] } }
          ∧ (∀ k, k < 4 → k ≠ d → k ≠ e → t.die k = s.die k) ∧ t = { s with dies := t.dies })
        ∧ (c.votes ≠ [] → (∃ k, k < 4 ∧ (s.die k).boot.phase ≠ 5) → ∃ t, ∃ u : State, exec (.leaseClaim d e c.claim) s = .next t
          ∧ u.die d = { v with lease := { l with granted := c.claim, since := true } }
          ∧ u.die e = { s.die e with lease := { c with
              role := 1, term := c.claim, leader := BitVec.ofNat 2 e, lapsed := false, since := false, votes := [], acks := []
              lseq := BitVec.ofNat 32 (logSeq s) } }
          ∧ (∀ k, k < 4 → k ≠ d → k ≠ e → u.die k = s.die k)
          ∧ u = { s with dies := u.dies, hostif := { s.hostif with ring := { s.hostif.ring with waiting := [] } } }
          ∧ t = logUpdate (retireDue (u.emit 0x15 0xFF 0xFFFF c.claim.toNat e (if c.term = 0 then 0xFF else c.leader.toNat)))))
    ∧ (duties s = true → (∀ k, k < 4 → (s.die k).boot.phase = 5 ∧ (s.die k).boot.err = 0) → (∀ e ∈ s.cores, e.2.asg.valid = true → e.2.bootFetch = false) →
        s.hostif.regs.heldFlr = false → s.hostif.regs.heldD3 = false → ∃ t, exec (.leaseClaim d d 0) s = .next t
          ∧ (∀ k, k < 4 → t.die k = { s.die k with boot := { (s.die k).boot with phase := 6, ready := true } })
          ∧ t = { s with dies := t.dies, hostif := { s.hostif with regs := { s.hostif.regs with ready := true } } })

/-- R241, R417, R421, R461: a basin controller that misses four heartbeats or whose lockstep pair disagrees, and a cistern that the others have
lost. -/
def FailedAgents : Prop :=
  ∀ (s : State),
    let due := fun (p : Ctx → Prop) (from_ : Nat) (t : State) => ∀ n c, s.ctxs.find? (fun e => decide (e.1 = n)) = some (n, c) →
      ((c.st = .active ∨ c.st = .saving ∨ c.st = .restoring) → p c → c.fatal = none → t.ctx n = { c with fatal := some (0, BitVec.ofNat 32 from_) })
        ∧ (¬ ((c.st = .active ∨ c.st = .saving ∨ c.st = .restoring) ∧ p c ∧ c.fatal = none) → t.ctx n = c)
    Spec.Rising s.ctxs → Spec.Rising s.cores →
    (∀ b, (s.die (b / 16)).hben = true →
      (∃ t, exec (.basinHeartbeat b true) s = .next t ∧ Spec.BasinBecomes s t b { s.basin b with missed := (s.basin b).missed + 1 })
      ∧ (∃ t, exec (.basinHeartbeat b false) s = .next t ∧ Spec.BasinBecomes s t b { s.basin b with missed := 0 }))
    ∧ (∀ b, b < 64 →
        let id := (s.die (b / 16)).ident
        ((s.basin b).missed < 4 → (s.basin b).lockstep = false → ∃ t, exec (.agentFailed false b) s = .next t ∧ t = s)
        ∧ (4 ≤ (s.basin b).missed ∨ (s.basin b).lockstep = true → ∃ t, exec (.agentFailed false b) s = .next t
          ∧ (t.basin b).missed = 0 ∧ (t.basin b).lockstep = false
          ∧ (∀ i, i < id.basinBody.length → readByte (t.coreOf (4096 + b)).sp (id.basinLoad + i) = id.basinBody.getD i 0)
          ∧ t.hartOf (8 * (4096 + b)) = { Hart.resetM .firmware with pc := id.basinEntry }
          ∧ (∀ k, k ≠ 8 * (4096 + b) → t.hartOf k = s.hartOf k)
          ∧ due (fun c => ∃ k, (∃ e ∈ s.cores, e.1 = k) ∧ k < 4096 ∧ (s.coreOf k).asg.valid = true ∧ (s.coreOf k).asg.spare = false
              ∧ c.rows.getLsbD (coordRow (s.coreOf k).coreid) = true ∧ 16 * (k / 1024) + 4 * (k % 1024 / 256) + k % 32 / 8 = b) b t
          ∧ t.hostif.ring.seq = s.hostif.ring.seq + 1))
    ∧ (∀ d, d < 4 → let lost := (∀ e, e < 4 → e ≠ d → (s.die e).lease.lapsed = true ∧ (s.die e).lease.leader.toNat = d) ∧ (s.die d).lease.failed = false
        (¬ lost → ∃ t, exec (.agentFailed true d) s = .next t ∧ t = s)
        ∧ (lost → ∃ t, exec (.agentFailed true d) s = .next t
          ∧ t.die d = { s.die d with lease := { (s.die d).lease with failed := true } } ∧ t.harts = s.harts ∧ t.cores = s.cores
          ∧ due (fun c => ∃ r, r < 25 ∧ c.rows.getLsbD (25 * (d / 2) + r) = true) d t
          ∧ t.hostif.ring.seq = s.hostif.ring.seq + 1))

/-- R421, R422: the fatal sequence clears the context's cores and leaves every other core, context and byte of memory. -/
def FatalContext : Prop :=
  ∀ (s : State) (n : Nat) (cause : BitVec 9) (from_ : BitVec 32),
    let c := s.ctx n
    let mine := fun (k : Nat) => k < 4096 ∧ (∃ e ∈ s.cores, e.1 = k) ∧ (s.coreOf k).asg.valid = true ∧ (s.coreOf k).asg.spare = false
      ∧ c.rows.getLsbD (coordRow (s.coreOf k).coreid) = true
    Spec.Rising s.cores → c.fatal = some (cause, from_) → c.st = .active ∨ c.st = .saving ∨ c.st = .restoring → duties s = true →
    (∀ d, d < 4 → ∀ m, (s.die d).move = some m → c.rows.getLsbD (coordRow m.coord) = false) →
    ∃ t, ∃ u : State, exec (.fatalSequence n) s = .next t ∧ t = logUpdate (u.emit 0x02 n 0xFFFF cause.toNat from_.toNat 0)
      ∧ (t.ctx n).st = .fatal ∧ (t.ctx n).entries = [] ∧ (t.ctx n).root = c.root ∧ (t.ctx n).rows = c.rows ∧ (∀ j, j ≠ n → t.ctx j = s.ctx j)
      ∧ (∀ k, mine k →
          let d := t.coreOf k
          d.sp = [] ∧ d.spBad = [] ∧ d.tasks = [] ∧ d.mail = Mailbox.reset ∧ d.weir = Weir.reset ∧ d.sluice = Sluice.reset ∧ d.part = GangPart.reset
          ∧ d.coreid = (s.coreOf k).coreid
          ∧ ∀ j, j < 8 → ¬ Spec.onTask (t.hartOf (8 * k + j)) ∧ (t.hartOf (8 * k + j)).run ≠ .halted
              ∧ (Spec.onTask (s.hartOf (8 * k + j)) → (t.hartOf (8 * k + j)).run = .free ∧ (t.hartOf (8 * k + j)).x = Vector.replicate 32 0
                  ∧ (t.hartOf (8 * k + j)).v = Vector.replicate 32 0 ∧ (t.hartOf (8 * k + j)).pins = Vector.replicate 8 none))
      ∧ (∀ k, ¬ mine k → (t.coreOf k).sp = (s.coreOf k).sp ∧ (t.coreOf k).tasks = (s.coreOf k).tasks ∧ (t.coreOf k).mail = (s.coreOf k).mail
          ∧ ∀ j, j < 8 → t.hartOf (8 * k + j) = s.hartOf (8 * k + j))
      ∧ (∀ l, l ∈ t.launches ↔ l ∈ s.launches ∧ l.ctx ≠ n) ∧ u.mem = s.mem

/-- R432, R433: a cycle of waiting harts, of this package or told by another, is found, checked again after 2^15 cycles and reported, once for its
sequence of cores. How the lease holders of packages share it is a reading of R432 (log 28). -/
def WaitCycles : Prop :=
  ∀ (s : State),
    let stands := fun m : WaitMember =>
      (coordPkg m.core = s.hostif.regs.pkgid.toNat → (s.coreOf (m.hart / 8)).coreid = m.core ∧ (s.hartOf m.hart).serial = m.serial
        ∧ waitWord s m.hart = m.word ∧ 2 ^ 15 ≤ ((s.hartOf m.hart).user.cyc - m.cyc).toNat)
      ∧ (coordPkg m.core ≠ s.hostif.regs.pkgid.toNat → ∃ r ∈ s.remote, r.core = m.core ∧ r.hart = m.hart ∧ r.serial = m.serial ∧ r.word = m.word
        ∧ 2 ^ 15 ≤ (r.cyc - m.cyc).toNat)
    (∀ (k n : Nat) (cx : Ctx), ctxOfAgent s (k / 8) = some (n, cx) → ∃ t, exec (.waitCycleWalk k) s = .next t
        ∧ t = { s with walks := t.walks }
        ∧ ∀ w ∈ t.walks, (∃ x ∈ s.walks, x.members = w.members ∧ x.reported = w.reported)
            ∨ w.reported = false ∧ ∃ l, Spec.WaitChain s cx l ∧ k ∈ l.map (·.who.hart) ∧ w.members = l.map fun e => e.who)
    ∧ (∀ (k j n : Nat) (cx : Ctx) (u v : BitVec 32), ctxOfAgent s (k / 8) = some (n, cx) → duties s = true → s.walks = [] →
        waitEdge s k = some (u, v) → waitEdge s j = some (v, u) → u ≠ v → { who := waitMember s k, peer := v } ∈ ctxEdges s cx →
        { who := waitMember s j, peer := u } ∈ ctxEdges s cx → ∃ t w, exec (.waitCycleWalk k) s = .next t
          ∧ t = { s with walks := [w] } ∧ w.reported = false ∧ k ∈ w.members.map (·.hart))
    ∧ (∀ (k n : Nat) (cx : Ctx) (r : RemoteEdge), ctxOfAgent s (k / 8) = some (n, cx) → duties s = true → s.walks = [] → r ∈ s.remote →
        waitEdge s k = some (r.peer, r.core) → r.peer ≠ r.core → { who := waitMember s k, peer := r.core } ∈ ctxEdges s cx →
        ∃ t w, exec (.waitCycleWalk k) s = .next t ∧ t = { s with walks := [w] } ∧ w.reported = false ∧ k ∈ w.members.map (·.hart))
    ∧ (∀ (k : Nat) (cx : Nat × Ctx), ctxOfAgent s (k / 8) = some cx → waitEdge s k = none → ∃ t, exec (.waitCycleWalk k) s = .next t ∧ t = s)
    ∧ (∀ (before after : List WaitCycle) (w : WaitCycle), s.walks = before ++ w :: after → duties s = true → w.reported = false →
        let told := ∃ x ∈ before ++ after, x.reported = true ∧ x.members.map (·.core) = w.members.map (·.core)
        ((∃ m ∈ w.members, ¬ stands m) ∨ told →
          ∃ t, exec (.waitCycleConfirm before.length) s = .next t ∧ t = { s with walks := before ++ after })
        ∧ ((∀ m ∈ w.members, stands m) → ¬ told →
          ∃ t, exec (.waitCycleConfirm before.length) s = .next t ∧ t.walks = before ++ { w with reported := true } :: after
            ∧ t.hostif.ring.seq = s.hostif.ring.seq + BitVec.ofNat 32 ((w.members.length + 4) / 5)
            ∧ t.harts = s.harts ∧ t.cores = s.cores ∧ t.ctxs = s.ctxs ∧ t.mem = s.mem))

end Sys2Proof.Machine.Claims

/-- The lease, failed agents, the fatal sequence and wait cycles (R417, R421, R422, R432, R433, R438, R439, R440, R441, R461). -/
def Obligations.FailuresAndLease : Prop :=
  Sys2Proof.Machine.Claims.LeaseProtocol ∧ Sys2Proof.Machine.Claims.FailedAgents ∧ Sys2Proof.Machine.Claims.FatalContext ∧ Sys2Proof.Machine.Claims.WaitCycles

namespace Sys2Proof.Machine.Claims

/-- R75, R84, R97, R98: the next step of a hart that goes on runs the instruction its pc names; every other step runs the turn that the agenda names
(log 4); after either the repair log follows (`logged`, R441). `withFetchWord` places a word where the next step runs it (log 5). -/
def StepRunsInstruction : Prop :=
  ∀ (s : State),
    (∀ u, (s.agenda = [] ∧ u = s) ∨ (∃ k r, s.agenda = .run k :: r ∧ u = { s with agenda := r, cur := k }) → Spec.Fetches u →
      (∀ w v i, fetch u = .ok (w, v) → decode w = .ok i → step s = logged s (exec i { v with word := w }))
      ∧ (∀ w v e, fetch u = .ok (w, v) → decode w = .error e → step s = logged s (exec (.illegalEncoding w) { v with word := w }))
      ∧ (∀ v t, fetch u = .error (v, t) → step s = logged s (.next (takeTrap v t))))
    ∧ (∀ i r, s.agenda = .event i :: r → step s = logged s (exec i { s with agenda := r }))
    ∧ (∀ k l r, s.agenda = .lane k l :: r → step s = logged s (runLane { s with agenda := r, cur := k } l))
    ∧ (∀ k n r, s.agenda = .stop k n :: r → step s = logged s (runStopped { s with agenda := r, cur := k } n))
    ∧ (∀ k a r, s.agenda = .upset k a :: r → step s = logged s (runUpset { s with agenda := r, cur := k } a))
    ∧ (∀ k n r, s.agenda = .cycles k n :: r → step s = logged s (.next (passCycles { s with agenda := r } k n)))
    ∧ (∀ e r, s.agenda = .outside e :: r → step s = logged s (.next (outside { s with agenda := r } e)))
    ∧ (∀ w i, i.wellFormed = true → encode i = some w →
        let s := State.reset.withFetchWord 32 w.toNat
        step s = logged s (exec i { s with word := w }))

/-- R244, R245, R247: an asynchronous cause stops a queued instruction that resumes by element at one of its active positions: the elements before it and
their flags are retired, no other element changes, an ordered reduction leaves its running value, `vstart` is the position, and the hart takes
the cause at the instruction. -/
def StoppedInside : Prop :=
  ∀ (s u : State) (w : BitVec 32) (i : Instr) (n j e : Nat) (p : Pending) (ps : List Pending), s.lane = none → s.h.lanes = none → s.h.reply = none →
    s.h.pending = p :: ps → (Spec.onTask s.h ∨ s.h.run = .firmware) → s.atFirmware = false → s.inRom = false →
    fetch s = .ok (w, u) → decode w = .ok i →
    let v := { u with word := w }
    let b := v.setH { v.h with shape := { v.h.shape with vstop := BitVec.ofNat 64 (2 ^ 63 + j * 2 ^ 16 + e) } }
    byElement w = true → (active v (predicate w))[n]? = some (j, e) → Spec.ShapeOk v.h.shape →
    let stops := fun (t : State) (rows : Vector Row 32) (flags : BitVec 5) => Trapped (v.setH { v.h with
        v := rows, pending := ps, user := { v.h.user with fflags := v.h.user.fflags ||| flags }
        shape := { v.h.shape with vstart := BitVec.ofNat 64 (j * 2 ^ 16 + e) } }) t p.cause p.tval s.pc 0
    (∀ f : Spec.ElemForm, Spec.elemForm i b = some f → f.legal = true → Spec.Joins b f.claim →
      ∃ t rows, runStopped s n = .next t ∧ stops t rows (Spec.flagsOver b f.writes f.flags)
        ∧ Spec.ElementsWritten v.h.v rows f.vd.toNat f.w f.writes f.val ∧ ∀ y x, f.writes y x = true → y < j ∨ y = j ∧ x < e)
    ∧ (∀ (vd a x : BitVec 5) (k : BitVec 3) (c bf : Bool), Spec.fpRedForm i = some (vd, a, x, k, c, false, false, bf, 0) → Spec.redLegal b vd a false false →
      (if bf then Spec.sewOf b = 16 else Spec.sewOf b ≠ 8) → Spec.Joins b (Spec.redClaim b vd a k c false false) →
      let m := Spec.sewOf b
      let init := if v.h.shape.vstart ≠ 0 then Spec.el b vd m 0 0 else (b.x x).toNat % 2 ^ m
      let acc := Spec.reduceFp (Spec.sewFmt b bf) (rndOf v.h.user.frm) 0 init
        ((Spec.tileOf b).map fun q => if Spec.activeAt b k q.1 q.2 then some (Spec.el b a m q.1 q.2) else none)
      ∃ t rows, runStopped s n = .next t ∧ stops t rows acc.2
        ∧ Spec.ElementsWritten v.h.v rows vd.toNat m (fun y x => decide (y = 0 ∧ x = 0)) (fun _ _ => acc.1))

end Sys2Proof.Machine.Claims

/-- A step runs the instruction its pc names, or the next turn; a cause stops it at a position (R75, R84, R97, R98, R244, R245, R247, R441). -/
def Obligations.StepRunsInstruction : Prop :=
  Sys2Proof.Machine.Claims.StepRunsInstruction ∧ Sys2Proof.Machine.Claims.StoppedInside

namespace Sys2Proof.Machine.Claims

/-- Words whose encodings the spec's examples give (R76 to R83). -/
def DecodeWords : Prop :=
  decode 0x20A00002 = .ok (.auipc 5 2) ∧ decode 0x10A5A7F0 = .ok (.addi 5 5 0xA7F0) ∧ decode 0x2CA0FFFD = .ok (.beq 5 0 0xFFFD)
    ∧ decode 0x5CA63DC1 = .ok (.amoaddD 5 6 7 5 3) ∧ decode 0x80A63802 = .ok (.vshape 5 6 7 2) ∧ decode 0x9D088281 = .ok (.vfadd 8 8 16 2 true false 1)
    ∧ decode 0x94224836 = .ok (.vsgt 1 2 9 0 false true 2) ∧ decode 0xB94100E8 = .ok (.vexit 10 1 true)
    ∧ decode 0xC10500DA = .ok (.vld 8 5 0 0 true true 3 2) ∧ decode 0xD4653207 = .ok (.vpin 3 5 6 2)
    ∧ decode 0xE92A5800 = .ok (.msend 9 10 11) ∧ decode 0xECA63C80 = .ok (.scopyin 5 6 7 4 2) ∧ decode 0xF0000008 = .ok .tend
    ∧ decode 0xF608A0A4 = .ok (.rquery 16 8 20 0 true 4)

end Sys2Proof.Machine.Claims

/-- Words written out from the spec decode to their instructions (R76, R83, R138). -/
def Obligations.DecodeWords : Prop :=
  Sys2Proof.Machine.Claims.DecodeWords

namespace Sys2Proof.Machine.Claims

/-- R76 to R84: no bit of a well-formed instruction's word is dropped. -/
def EncodeDecode : Prop :=
  ∀ i : Instr, (i.wellFormed = true → ∃ w, encode i = some w ∧ decode w = .ok i) ∧ (i.wellFormed = false → ∀ w, decode w ≠ .ok i)

end Sys2Proof.Machine.Claims

/-- Every well-formed instruction decodes from its word, and no other instruction is decoded (R76, R77, R78, R79, R80, R81, R82, R83, R84). -/
def Obligations.EncodeDecode : Prop :=
  Sys2Proof.Machine.Claims.EncodeDecode

namespace Sys2Proof.Machine.Claims

/-- The canonical form of every memory is an invariant of the machine (log 2, log 3). -/
def MemoryStaysCanonical : Prop :=
  ∀ s t : State, Spec.Canonical s → step s = .next t → Spec.Canonical t

end Sys2Proof.Machine.Claims

/-- Every step keeps every memory in its canonical form (R10, R365). -/
def Obligations.MemoryStaysCanonical : Prop :=
  Sys2Proof.Machine.Claims.MemoryStaysCanonical

namespace Sys2Proof.Machine.Claims

/-- R19, R23: x0 and every shape stay legal. -/
def HartsStayLegal : Prop :=
  ∀ s t : State, Spec.HartsLegal s → step s = .next t → Spec.HartsLegal t

end Sys2Proof.Machine.Claims

/-- Every step keeps x0 zero and every shape one that vshape grants (R19, R23, R26). -/
def Obligations.HartsStayLegal : Prop :=
  Sys2Proof.Machine.Claims.HartsStayLegal

namespace Sys2Proof.Machine.Claims

/-- R13 and the Reset columns of R324, R361, R370, R400, R417, R418, R436, R438, R448, R470 and R474. -/
def ResetState : Prop :=
  let s := State.reset
  Spec.Canonical s ∧ Spec.HartsLegal s
    ∧ (∀ d, d < 4 →
        let h := s.hartOf (8 * (4160 + d))
        let v := s.die d
        h.run = .firmware ∧ h.pc = 0 ∧ h.trap.status.priv = 3
        ∧ v.boot.phase = 0 ∧ v.boot.err = 0 ∧ v.boot.ready = false ∧ v.scrubint = 256 ∧ v.scrub = true ∧ v.memscrub = true ∧ v.hben = true
        ∧ v.lease.hbint = 65536
        ∧ (∀ p : Fin 22, ((v.paths.get p).thresh, (v.paths.get p).leaklog) = (1024, 20))
        ∧ (∀ c : Fin 4, (v.spray.wins.get c).2 = if c.val < 2 then 4096 else if c.val = 2 then 8192 else 65536))
    ∧ (∀ k, k < 4096 →
        let c := s.coreOf k
        (c.err.level, c.err.thresh, c.err.leaklog, c.err.req) = (0, 32, 24, false) ∧ c.asg.valid = false
        ∧ ∀ j, j < 8 → (s.hartOf (8 * k + j)).run = .free)
    ∧ (∀ n, (s.ctx n).st = .free ∧ (s.queue n).en = false ∧ (s.queue n).lsize = 6)
    ∧ s.hostif.ring.en = false ∧ s.hostif.ring.lsize = 6 ∧ s.hostif.ring.seq = 0 ∧ s.hostif.regs.ready = false ∧ s.hostif.regs.pwrlim = 3000
    ∧ s.launches = [] ∧ s.net = [] ∧ s.frags = [] ∧ s.agenda = [] ∧ ∀ a, readByte s.mem a = 0

end Sys2Proof.Machine.Claims

/-- The state after power-on meets the invariants and holds the reset values of the spec (R13, R324, R361, R370, R400, R417, R418, R436, R438, R448, R470, R474);
that memory then reads as zero and that no turn is due are the model's choice (log 3, log 4). -/
def Obligations.ResetState : Prop :=
  Sys2Proof.Machine.Claims.ResetState

namespace Sys2Proof.Machine.Claims

/-- R84, R97, R237: a trap is a next state; nothing stops the machine. -/
def EveryStepCompletes : Prop :=
  ∀ s : State, ∃ t, step s = .next t

end Sys2Proof.Machine.Claims

/-- Every step answers a next state: no instruction faults or is refused (R84, R97, R237). -/
def Obligations.EveryStepCompletes : Prop :=
  Sys2Proof.Machine.Claims.EveryStepCompletes
end

