-- ==== Sys2Proof/Laws/Bits.lean ====
section
/-! SUPPORT. Laws of bit fields: which bits `bitsOf` reads and `rowPut` writes. -/

namespace Sys2Proof.Machine

theorem testBit_bitsOf (n lo len i : Nat) : (bitsOf n lo len).testBit i = (decide (i < len) && n.testBit (lo + i)) := by
  simp [bitsOf, Nat.testBit_mod_two_pow, Nat.testBit_div_two_pow, Nat.add_comm]

theorem bitsOf_lt (n lo len : Nat) : bitsOf n lo len < 2 ^ len := Nat.mod_lt _ (Nat.two_pow_pos _)

/-- The bits of a row after a field of it is written. -/
theorem testBit_rowPut (r : Row) {lo len : Nat} (v : Nat) (h : lo + len ≤ 4096) (i : Nat) :
    (rowPut r lo len v).toNat.testBit i = if lo ≤ i ∧ i < lo + len then v.testBit (i - lo) else r.toNat.testBit i := by
  have hr : r.toNat < 2 ^ 4096 := r.isLt
  have e1 : r.toNat % 2 ^ lo + 2 ^ lo * (v % 2 ^ len) = 2 ^ lo * (v % 2 ^ len) ||| r.toNat % 2 ^ lo := by
    rw [Nat.add_comm]; exact Nat.two_pow_add_eq_or_of_lt (Nat.mod_lt _ (Nat.two_pow_pos _)) _
  have l1 : r.toNat % 2 ^ lo + 2 ^ lo * (v % 2 ^ len) < 2 ^ (lo + len) := by
    have a := Nat.mod_lt r.toNat (Nat.two_pow_pos lo)
    have b := Nat.mod_lt v (Nat.two_pow_pos len)
    calc _ < 2 ^ lo + 2 ^ lo * (v % 2 ^ len) := by omega
      _ = 2 ^ lo * (v % 2 ^ len + 1) := by ring
      _ ≤ 2 ^ lo * 2 ^ len := Nat.mul_le_mul_left _ b
      _ = _ := (Nat.pow_add ..).symm
  unfold rowPut
  rw [BitVec.toNat_ofNat, Nat.testBit_mod_two_pow, Nat.add_comm (_ + _), Nat.two_pow_add_eq_or_of_lt l1, e1]
  simp only [Nat.testBit_or, Nat.testBit_two_pow_mul, Nat.testBit_mod_two_pow, Nat.testBit_div_two_pow]
  by_cases hi : i < 4096
  · by_cases h1 : i < lo
    · have a : ¬ lo ≤ i := by omega
      have b : ¬ lo + len ≤ i := by omega
      simp [h1, a, b, hi]
    · by_cases h2 : i < lo + len
      · have a : lo ≤ i := by omega
        have b : ¬ lo + len ≤ i := by omega
        have c : i - lo < len := by omega
        simp [h1, h2, a, b, c, hi]
      · have a : lo ≤ i := by omega
        have b : lo + len ≤ i := by omega
        have c : ¬ i - lo < len := by omega
        simp [h1, h2, a, b, c, hi]
  · have a : ¬ (lo ≤ i ∧ i < lo + len) := by omega
    have b : r.toNat.testBit i = false := Nat.testBit_lt_two_pow (lt_of_lt_of_le hr (Nat.pow_le_pow_right (by decide) (by omega)))
    simp only [hi, a, if_false, b, decide_false, Bool.false_and]

/-- The field written reads back as the value written, cut to its width. -/
theorem bitsOf_rowPut_self (r : Row) {lo len : Nat} (v : Nat) (h : lo + len ≤ 4096) :
    bitsOf (rowPut r lo len v).toNat lo len = v % 2 ^ len := by
  apply Nat.eq_of_testBit_eq
  intro i
  rw [testBit_bitsOf, testBit_rowPut r v h, Nat.testBit_mod_two_pow]
  by_cases hi : i < len
  · have a : lo + i < lo + len := by omega
    simp [hi]
  · simp [hi]

/-- A field that shares no bit with the one written is as before. -/
theorem bitsOf_rowPut_ne (r : Row) {lo len : Nat} (v : Nat) (h : lo + len ≤ 4096) {a n : Nat} (d : a + n ≤ lo ∨ lo + len ≤ a) :
    bitsOf (rowPut r lo len v).toNat a n = bitsOf r.toNat a n := by
  apply Nat.eq_of_testBit_eq
  intro i
  rw [testBit_bitsOf, testBit_bitsOf, testBit_rowPut r v h]
  by_cases hi : i < n
  · have : ¬ (lo ≤ a + i ∧ a + i < lo + len) := by omega
    simp [hi, this]
  · simp [hi]

/-- Rows of a hart after one is written. -/
theorem Hart.row_setRow (h : Hart) (n k : Nat) (r : Row) :
    (h.setRow n r).row k = if k % 32 = n % 32 then r else h.row k := by
  have e : (h.setRow n r).row k = (h.v.set (n % 32) r (Nat.mod_lt _ (by decide)))[k % 32]'(Nat.mod_lt _ (by decide)) := rfl
  rw [e, Vector.getElem_set]
  by_cases e : n % 32 = k % 32
  · simp [e]
  · have e' : ¬ k % 32 = n % 32 := fun x => e x.symm
    simp only [e, e', if_false]
    rfl

end Sys2Proof.Machine
end

