-- ==== Sys2Proof/Laws/Memory.lean ====
section
/-! SUPPORT. Laws of memory: a read after a write, what a write leaves alone, and that every memory operation keeps the canonical form. -/

namespace Sys2Proof.Machine

/-! ## The canonical form -/

theorem cellsFrom_mono {lo lo' : Nat} (h : lo' ≤ lo) : ∀ {m : Memory}, cellsFrom lo m = true → cellsFrom lo' m = true
  | [], _ => rfl
  | (k, v) :: r, w => by
    simp only [cellsFrom, Bool.and_eq_true, decide_eq_true_eq] at w ⊢
    exact ⟨⟨h.trans w.1.1, w.1.2⟩, w.2⟩

/-- The canonical form, said of the list: its keys lie at or above `lo` and rise, and no byte is zero. -/
theorem cellsFrom_iff (lo : Nat) (m : Memory) :
    cellsFrom lo m = true ↔ (∀ c ∈ m, lo ≤ c.1 ∧ c.2 ≠ 0) ∧ m.Pairwise fun a b => a.1 < b.1 := by
  induction m generalizing lo with
  | nil => simp [cellsFrom]
  | cons e r ih =>
    obtain ⟨k, v⟩ := e
    simp only [cellsFrom, Bool.and_eq_true, decide_eq_true_eq, ih (k + 1), List.mem_cons, forall_eq_or_imp, List.pairwise_cons]
    constructor
    · rintro ⟨⟨h1, h2⟩, h3, h4⟩
      exact ⟨⟨⟨h1, h2⟩, fun c hc => ⟨h1.trans (by have := (h3 c hc).1; omega), (h3 c hc).2⟩⟩,
        fun c hc => (h3 c hc).1, h4⟩
    · rintro ⟨⟨⟨h1, h2⟩, h3⟩, h4, h5⟩
      exact ⟨⟨h1, h2⟩, fun c hc => ⟨h4 c hc, (h3 c hc).2⟩, h5⟩

theorem Memory.wf_iff (m : Memory) : m.wf = true ↔ (∀ c ∈ m, c.2 ≠ 0) ∧ m.Pairwise fun a b => a.1 < b.1 := by
  simp [Memory.wf, cellsFrom_iff]

@[simp] theorem Memory.wf_nil : Memory.wf [] = true := rfl

theorem cellsFrom_filter {lo : Nat} {m : Memory} (p : Nat × Byte → Bool) (h : cellsFrom lo m = true) : cellsFrom lo (m.filter p) = true := by
  rw [cellsFrom_iff] at h ⊢
  exact ⟨fun c hc => h.1 c (List.mem_of_mem_filter hc), h.2.filter _⟩

/-! ## One byte -/

theorem readByte_lt {lo : Nat} {a : Nat} (ha : a < lo) : ∀ {m : Memory}, cellsFrom lo m = true → readByte m a = 0
  | [], _ => rfl
  | (k, v) :: r, w => by
    simp only [cellsFrom, Bool.and_eq_true, decide_eq_true_eq] at w
    have h1 : ¬ a = k := by omega
    have h2 : a < k := by omega
    simp [readByte, h1, h2]

theorem readByte_writeByte {lo : Nat} (a b : Nat) (v : Byte) : ∀ {m : Memory}, cellsFrom lo m = true →
    readByte (writeByte m a v) b = if b = a then v else readByte m b
  | [], _ => by
    unfold writeByte
    by_cases hv : v = 0#8 <;> by_cases hb : b = a <;> simp [readByte, hv, hb]
  | (k, w) :: r, h => by
    simp only [cellsFrom, Bool.and_eq_true, decide_eq_true_eq] at h
    unfold writeByte
    by_cases hak : a = k
    · subst hak
      by_cases hv : v = 0#8
      · simp only [hv, if_true]
        by_cases hb : b = a
        · simp [hb, readByte_lt (Nat.lt_succ_self a) h.2]
        · by_cases hlt : b < a
          · simp [readByte, hb, hlt, readByte_lt (by omega : b < a + 1) h.2]
          · simp [readByte, hb, hlt]
      · by_cases hb : b = a <;> simp [readByte, hv, hb]
    · by_cases hlt : a < k
      · by_cases hv : v = 0#8
        · simp only [hak, hlt, hv, if_true, if_false]
          by_cases hb : b = a
          · subst hb; simp [readByte, hak, hlt]
          · simp [hb]
        · by_cases hb : b = a
          · subst hb; simp [readByte, hak, hlt, hv]
          · by_cases hba : b < a
            · have h1 : ¬ b = k := by omega
              have h2 : b < k := by omega
              simp [readByte, hak, hlt, hv, hb, hba, h1, h2]
            · simp [readByte, hak, hlt, hv, hb, hba]
      · simp only [hak, hlt, if_false]
        have ih := readByte_writeByte (lo := k + 1) a b v h.2
        by_cases hb : b = k
        · subst hb; simp [readByte, Ne.symm hak]
        · by_cases hbk : b < k
          · have : ¬ b = a := by omega
            simp [readByte, hb, hbk, this]
          · simp [readByte, hb, hbk, ih]

theorem cellsFrom_writeByte {lo : Nat} {a : Nat} (v : Byte) (ha : lo ≤ a) : ∀ {m : Memory}, cellsFrom lo m = true → cellsFrom lo (writeByte m a v) = true
  | [], _ => by
    unfold writeByte
    by_cases hv : v = 0#8 <;> simp [cellsFrom, hv, ha]
  | (k, w) :: r, h => by
    simp only [cellsFrom, Bool.and_eq_true, decide_eq_true_eq] at h
    unfold writeByte
    by_cases hak : a = k
    · subst hak
      by_cases hv : v = 0#8
      · simp only [hv, if_true]; exact cellsFrom_mono (by omega) h.2
      · simp [cellsFrom, hv, ha, h.2]
    · by_cases hlt : a < k
      · have : a + 1 ≤ k := hlt
        by_cases hv : v = 0#8 <;> simp_all [cellsFrom]
      · have hk : k + 1 ≤ a := by omega
        simp only [hak, hlt, if_false, cellsFrom, Bool.and_eq_true, decide_eq_true_eq]
        exact ⟨h.1, cellsFrom_writeByte v hk h.2⟩

/-- Writing a byte keeps the canonical form. -/
theorem wf_writeByte {m : Memory} (h : m.wf = true) (a : Nat) (v : Byte) : (writeByte m a v).wf = true := cellsFrom_writeByte v (Nat.zero_le _) h

/-- A read after a write: the byte written, and every other byte as before. -/
theorem readByte_writeByte_wf {m : Memory} (h : m.wf = true) (a b : Nat) (v : Byte) :
    readByte (writeByte m a v) b = if b = a then v else readByte m b := readByte_writeByte a b v h

/-! ## Wider accesses -/

theorem wf_writeLE {m : Memory} (h : m.wf = true) (a n v : Nat) : (writeLE m a n v).wf = true := by
  induction n generalizing m a v with
  | zero => exact h
  | succ n ih => exact ih (wf_writeByte h _ _) _ _

theorem wf_writeBytes {m : Memory} (h : m.wf = true) (a : Nat) (l : List Byte) : (writeBytes m a l).wf = true := by
  induction l generalizing m a with
  | nil => exact h
  | cons b bs ih => exact ih (wf_writeByte h _ _) _

/-- What a little-endian write leaves: byte i of the value at a + i, and every other byte as before. -/
theorem readByte_writeLE {m : Memory} (h : m.wf = true) (a n v b : Nat) :
    readByte (writeLE m a n v) b = if a ≤ b ∧ b < a + n then BitVec.ofNat 8 (v / 256 ^ (b - a)) else readByte m b := by
  induction n generalizing m a v with
  | zero => simp [writeLE]
  | succ n ih =>
    rw [writeLE, ih (wf_writeByte h _ _), readByte_writeByte_wf h]
    by_cases hb : b = a
    · subst hb
      simp
    · by_cases hr : a + 1 ≤ b ∧ b < a + 1 + n
      · have h2 : a ≤ b ∧ b < a + (n + 1) := by omega
        have e : b - a = (b - (a + 1)) + 1 := by omega
        rw [if_pos hr, if_pos h2, e, pow_succ', Nat.div_div_eq_div_mul]
      · have h2 : ¬ (a ≤ b ∧ b < a + (n + 1)) := by omega
        rw [if_neg hr, if_neg hb, if_neg (by simpa using h2)]

/-- What writing a list of bytes leaves. -/
theorem readByte_writeBytes {m : Memory} (h : m.wf = true) (a b : Nat) (l : List Byte) :
    readByte (writeBytes m a l) b = if a ≤ b ∧ b < a + l.length then l.getD (b - a) 0 else readByte m b := by
  induction l generalizing m a with
  | nil => simp [writeBytes]
  | cons c cs ih =>
    rw [writeBytes, ih (wf_writeByte h _ _), readByte_writeByte_wf h]
    by_cases hb : b = a
    · subst hb
      simp
    · by_cases hr : a + 1 ≤ b ∧ b < a + 1 + cs.length
      · have h2 : a ≤ b ∧ b < a + (cs.length + 1) := by omega
        have e : b - a = (b - (a + 1)) + 1 := by omega
        simp only [List.length_cons]
        rw [if_pos hr, if_pos h2, e, List.getD_cons_succ]
      · have h2 : ¬ (a ≤ b ∧ b < a + (cs.length + 1)) := by omega
        rw [if_neg hr, if_neg hb, if_neg (by simpa using h2)]

@[simp] theorem length_readBytes (m : Memory) (a n : Nat) : (readBytes m a n).length = n := by
  induction n generalizing a with
  | zero => rfl
  | succ n ih => simp [readBytes, ih]

theorem getD_readBytes (m : Memory) (a n i : Nat) (h : i < n) : (readBytes m a n).getD i 0 = readByte m (a + i) := by
  induction n generalizing a i with
  | zero => omega
  | succ n ih =>
    cases i with
    | zero => simp [readBytes]
    | succ i =>
      rw [readBytes, List.getD_cons_succ, ih _ _ (by omega)]
      congr 1; omega

theorem readLE_lt (m : Memory) (a n : Nat) : readLE m a n < 256 ^ n := by
  induction n generalizing a with
  | zero => simp [readLE]
  | succ n ih =>
    have h1 := (readByte m a).isLt
    have h2 := ih (a + 1)
    simp only [readLE, pow_succ]
    omega

/-- A little-endian read after a write of the same bytes. -/
theorem readLE_writeLE_self {m : Memory} (h : m.wf = true) (a n v : Nat) : readLE (writeLE m a n v) a n = v % 256 ^ n := by
  have key : ∀ (k : Nat) (m : Memory) (v : Nat), (∀ i, i < n → readByte m (a + i) = BitVec.ofNat 8 (v / 256 ^ i)) →
      ∀ j, j + k = n → readLE m (a + j) k = v / 256 ^ j % 256 ^ k := by
    intro k
    induction k with
    | zero => intro m v _ j _; simp [readLE, Nat.mod_one]
    | succ k ih =>
      intro m v hm j hj
      have h1 := ih m v hm (j + 1) (by omega)
      rw [readLE, hm j (by omega), Nat.add_assoc, h1, BitVec.toNat_ofNat, pow_succ' 256 k, Nat.mod_mul, Nat.div_div_eq_div_mul, ← pow_succ]
  have := key n (writeLE m a n v) v (fun i hi => by
    rw [readByte_writeLE h]
    have : a ≤ a + i ∧ a + i < a + n := by omega
    simp [this]) 0 (by omega)
  simpa using this

/-! ## Moving blocks -/

theorem wf_filter {m : Memory} (p : Nat × Byte → Bool) (h : m.wf = true) : Memory.wf (m.filter p) = true := cellsFrom_filter p h

/-- A block cut out of a memory is canonical. -/
theorem wf_sliceOf {m : Memory} (h : m.wf = true) (base n : Nat) : (sliceOf m base n).wf = true := by
  rw [Memory.wf_iff] at h ⊢
  unfold sliceOf
  constructor
  · rintro ⟨k, v⟩ hc
    obtain ⟨⟨j, w⟩, h1, h2⟩ := List.mem_map.mp hc
    obtain ⟨-, rfl⟩ := Prod.mk.inj h2
    exact h.1 (j, w) (List.mem_of_mem_filter h1)
  · refine List.Pairwise.map _ (R := fun a b => base ≤ a.1 ∧ a.1 < b.1) ?_ ?_
    · rintro ⟨a, _⟩ ⟨b, _⟩ ⟨h1, h2⟩
      have h1 : base ≤ a := h1
      have h2 : a < b := h2
      show a - base < b - base
      omega
    · have h3 := h.2.filter (fun c => decide (base ≤ c.1) && decide (c.1 < base + n))
      refine h3.imp_of_mem ?_
      intro a b ha _ hab
      have := (List.mem_filter.mp ha).2
      simp only [Bool.and_eq_true, decide_eq_true_eq] at this
      exact ⟨this.1, hab⟩

/-- Laying a block over a memory keeps the canonical form. -/
theorem wf_overlay {m img : Memory} (h : m.wf = true) (hi : img.wf = true) (base n : Nat) : (overlay m base n img).wf = true := by
  rw [Memory.wf_iff] at h hi ⊢
  unfold overlay
  constructor
  · rintro c hc
    rcases List.mem_append.mp hc with hc | hc
    · rcases List.mem_append.mp hc with hc | hc
      · exact h.1 _ (List.mem_of_mem_filter hc)
      · obtain ⟨⟨j, w⟩, h1, rfl⟩ := List.mem_map.mp hc
        exact hi.1 (j, w) (List.mem_of_mem_filter h1)
    · exact h.1 _ (List.mem_of_mem_filter hc)
  · rw [List.pairwise_append, List.pairwise_append]
    refine ⟨⟨h.2.filter _, ?_, ?_⟩, h.2.filter _, ?_⟩
    · refine List.Pairwise.map _ (R := fun a b => a.1 < b.1) ?_ (hi.2.filter _)
      intro a b hab
      exact Nat.add_lt_add_left hab base
    · intro a ha b hb
      obtain ⟨⟨j, w⟩, _, rfl⟩ := List.mem_map.mp hb
      have := (List.mem_filter.mp ha).2
      simp only [decide_eq_true_eq] at this
      show a.1 < base + j
      omega
    · intro a ha b hb
      have hb := (List.mem_filter.mp hb).2
      simp only [decide_eq_true_eq] at hb
      rcases List.mem_append.mp ha with ha | ha
      · have := (List.mem_filter.mp ha).2
        simp only [decide_eq_true_eq] at this
        omega
      · obtain ⟨⟨j, w⟩, h1, rfl⟩ := List.mem_map.mp ha
        have := (List.mem_filter.mp h1).2
        simp only [decide_eq_true_eq] at this
        show base + j < b.1
        omega

end Sys2Proof.Machine
end

