-- ==== Sys2Proof/Laws/State.lean ====
section
/-! SUPPORT. Laws of the state: what each update of the state leaves in each field, and reading a table after writing it. -/

namespace Sys2Proof

/-! ## Sparse tables -/

@[simp] theorem smGet_smSet_self {α : Type} (d v : α) (k : Nat) (m : SMap α) : smGet d k (smSet k v m) = v := by
  induction m with
  | nil => simp [smSet, smGet]
  | cons e r ih =>
    obtain ⟨j, u⟩ := e
    unfold smSet
    split
    · simp [smGet]
    · split
      · simp [smGet]
      · have h : j ≠ k := fun h => ‹¬ k = j› h.symm
        simp [smGet, h, ih]

theorem smGet_smSet_ne {α : Type} (d v : α) {k j : Nat} (h : k ≠ j) (m : SMap α) :
    smGet d k (smSet j v m) = smGet d k m := by
  induction m with
  | nil => simp [smSet, smGet, Ne.symm h]
  | cons e r ih =>
    obtain ⟨i, u⟩ := e
    unfold smSet
    split
    · next e => subst e; simp [smGet, Ne.symm h]
    · split
      · simp [smGet, Ne.symm h]
      · simp [smGet, ih]

namespace Machine

/-! ## Updates of the state -/

@[simp] theorem State.setHartOf_cur (s : State) (k : Nat) (v : Hart) : (s.setHartOf k v).cur = s.cur := rfl
@[simp] theorem State.setHartOf_lane (s : State) (k : Nat) (v : Hart) : (s.setHartOf k v).lane = s.lane := rfl
@[simp] theorem State.setHartOf_word (s : State) (k : Nat) (v : Hart) : (s.setHartOf k v).word = s.word := rfl
@[simp] theorem State.setHartOf_agenda (s : State) (k : Nat) (v : Hart) : (s.setHartOf k v).agenda = s.agenda := rfl
@[simp] theorem State.setHartOf_cores (s : State) (k : Nat) (v : Hart) : (s.setHartOf k v).cores = s.cores := rfl
@[simp] theorem State.setHartOf_dies (s : State) (k : Nat) (v : Hart) : (s.setHartOf k v).dies = s.dies := rfl
@[simp] theorem State.setHartOf_basins (s : State) (k : Nat) (v : Hart) : (s.setHartOf k v).basins = s.basins := rfl
@[simp] theorem State.setHartOf_ctxs (s : State) (k : Nat) (v : Hart) : (s.setHartOf k v).ctxs = s.ctxs := rfl
@[simp] theorem State.setHartOf_queues (s : State) (k : Nat) (v : Hart) : (s.setHartOf k v).queues = s.queues := rfl
@[simp] theorem State.setHartOf_launches (s : State) (k : Nat) (v : Hart) : (s.setHartOf k v).launches = s.launches := rfl
@[simp] theorem State.setHartOf_nextLaunch (s : State) (k : Nat) (v : Hart) : (s.setHartOf k v).nextLaunch = s.nextLaunch := rfl
@[simp] theorem State.setHartOf_mem (s : State) (k : Nat) (v : Hart) : (s.setHartOf k v).mem = s.mem := rfl
@[simp] theorem State.setHartOf_poison (s : State) (k : Nat) (v : Hart) : (s.setHartOf k v).poison = s.poison := rfl
@[simp] theorem State.setHartOf_hostMem (s : State) (k : Nat) (v : Hart) : (s.setHartOf k v).hostMem = s.hostMem := rfl
@[simp] theorem State.setHartOf_hostif (s : State) (k : Nat) (v : Hart) : (s.setHartOf k v).hostif = s.hostif := rfl
@[simp] theorem State.setHartOf_net (s : State) (k : Nat) (v : Hart) : (s.setHartOf k v).net = s.net := rfl
@[simp] theorem State.setHartOf_frags (s : State) (k : Nat) (v : Hart) : (s.setHartOf k v).frags = s.frags := rfl
@[simp] theorem State.setHartOf_ctls (s : State) (k : Nat) (v : Hart) : (s.setHartOf k v).ctls = s.ctls := rfl
@[simp] theorem State.setHartOf_outFrags (s : State) (k : Nat) (v : Hart) : (s.setHartOf k v).outFrags = s.outFrags := rfl
@[simp] theorem State.setHartOf_beats (s : State) (k : Nat) (v : Hart) : (s.setHartOf k v).beats = s.beats := rfl
@[simp] theorem State.setHartOf_answers (s : State) (k : Nat) (v : Hart) : (s.setHartOf k v).answers = s.answers := rfl
@[simp] theorem State.setHartOf_walks (s : State) (k : Nat) (v : Hart) : (s.setHartOf k v).walks = s.walks := rfl
@[simp] theorem State.setHartOf_remote (s : State) (k : Nat) (v : Hart) : (s.setHartOf k v).remote = s.remote := rfl
@[simp] theorem State.setHartOf_told (s : State) (k : Nat) (v : Hart) : (s.setHartOf k v).told = s.told := rfl
@[simp] theorem State.setHartOf_flash (s : State) (k : Nat) (v : Hart) : (s.setHartOf k v).flash = s.flash := rfl
@[simp] theorem State.setHartOf_freeCtr (s : State) (k : Nat) (v : Hart) : (s.setHartOf k v).freeCtr = s.freeCtr := rfl

@[simp] theorem State.setRing_cur (s : State) (r : EventRing) : (s.setRing r).cur = s.cur := rfl
@[simp] theorem State.setRing_lane (s : State) (r : EventRing) : (s.setRing r).lane = s.lane := rfl
@[simp] theorem State.setRing_word (s : State) (r : EventRing) : (s.setRing r).word = s.word := rfl
@[simp] theorem State.setRing_agenda (s : State) (r : EventRing) : (s.setRing r).agenda = s.agenda := rfl
@[simp] theorem State.setRing_harts (s : State) (r : EventRing) : (s.setRing r).harts = s.harts := rfl
@[simp] theorem State.setRing_cores (s : State) (r : EventRing) : (s.setRing r).cores = s.cores := rfl
@[simp] theorem State.setRing_dies (s : State) (r : EventRing) : (s.setRing r).dies = s.dies := rfl
@[simp] theorem State.setRing_basins (s : State) (r : EventRing) : (s.setRing r).basins = s.basins := rfl
@[simp] theorem State.setRing_ctxs (s : State) (r : EventRing) : (s.setRing r).ctxs = s.ctxs := rfl
@[simp] theorem State.setRing_queues (s : State) (r : EventRing) : (s.setRing r).queues = s.queues := rfl
@[simp] theorem State.setRing_launches (s : State) (r : EventRing) : (s.setRing r).launches = s.launches := rfl
@[simp] theorem State.setRing_nextLaunch (s : State) (r : EventRing) : (s.setRing r).nextLaunch = s.nextLaunch := rfl
@[simp] theorem State.setRing_mem (s : State) (r : EventRing) : (s.setRing r).mem = s.mem := rfl
@[simp] theorem State.setRing_poison (s : State) (r : EventRing) : (s.setRing r).poison = s.poison := rfl
@[simp] theorem State.setRing_hostMem (s : State) (r : EventRing) : (s.setRing r).hostMem = s.hostMem := rfl
@[simp] theorem State.setRing_net (s : State) (r : EventRing) : (s.setRing r).net = s.net := rfl
@[simp] theorem State.setRing_frags (s : State) (r : EventRing) : (s.setRing r).frags = s.frags := rfl
@[simp] theorem State.setRing_ctls (s : State) (r : EventRing) : (s.setRing r).ctls = s.ctls := rfl
@[simp] theorem State.setRing_outFrags (s : State) (r : EventRing) : (s.setRing r).outFrags = s.outFrags := rfl
@[simp] theorem State.setRing_beats (s : State) (r : EventRing) : (s.setRing r).beats = s.beats := rfl
@[simp] theorem State.setRing_answers (s : State) (r : EventRing) : (s.setRing r).answers = s.answers := rfl
@[simp] theorem State.setRing_walks (s : State) (r : EventRing) : (s.setRing r).walks = s.walks := rfl
@[simp] theorem State.setRing_remote (s : State) (r : EventRing) : (s.setRing r).remote = s.remote := rfl
@[simp] theorem State.setRing_told (s : State) (r : EventRing) : (s.setRing r).told = s.told := rfl
@[simp] theorem State.setRing_flash (s : State) (r : EventRing) : (s.setRing r).flash = s.flash := rfl
@[simp] theorem State.setRing_freeCtr (s : State) (r : EventRing) : (s.setRing r).freeCtr = s.freeCtr := rfl
@[simp] theorem State.setRing_ring (s : State) (r : EventRing) : (s.setRing r).hostif.ring = r := rfl
@[simp] theorem State.setRing_regs (s : State) (r : EventRing) : (s.setRing r).hostif.regs = s.hostif.regs := rfl
@[simp] theorem State.setRing_setRing (s : State) (r q : EventRing) : (s.setRing r).setRing q = s.setRing q := rfl

@[simp] theorem State.setCoreOf_cur (s : State) (k : Nat) (v : Core) : (s.setCoreOf k v).cur = s.cur := rfl
@[simp] theorem State.setCoreOf_lane (s : State) (k : Nat) (v : Core) : (s.setCoreOf k v).lane = s.lane := rfl
@[simp] theorem State.setCoreOf_word (s : State) (k : Nat) (v : Core) : (s.setCoreOf k v).word = s.word := rfl
@[simp] theorem State.setCoreOf_agenda (s : State) (k : Nat) (v : Core) : (s.setCoreOf k v).agenda = s.agenda := rfl
@[simp] theorem State.setCoreOf_harts (s : State) (k : Nat) (v : Core) : (s.setCoreOf k v).harts = s.harts := rfl
@[simp] theorem State.setCoreOf_dies (s : State) (k : Nat) (v : Core) : (s.setCoreOf k v).dies = s.dies := rfl
@[simp] theorem State.setCoreOf_basins (s : State) (k : Nat) (v : Core) : (s.setCoreOf k v).basins = s.basins := rfl
@[simp] theorem State.setCoreOf_ctxs (s : State) (k : Nat) (v : Core) : (s.setCoreOf k v).ctxs = s.ctxs := rfl
@[simp] theorem State.setCoreOf_queues (s : State) (k : Nat) (v : Core) : (s.setCoreOf k v).queues = s.queues := rfl
@[simp] theorem State.setCoreOf_launches (s : State) (k : Nat) (v : Core) : (s.setCoreOf k v).launches = s.launches := rfl
@[simp] theorem State.setCoreOf_nextLaunch (s : State) (k : Nat) (v : Core) : (s.setCoreOf k v).nextLaunch = s.nextLaunch := rfl
@[simp] theorem State.setCoreOf_mem (s : State) (k : Nat) (v : Core) : (s.setCoreOf k v).mem = s.mem := rfl
@[simp] theorem State.setCoreOf_poison (s : State) (k : Nat) (v : Core) : (s.setCoreOf k v).poison = s.poison := rfl
@[simp] theorem State.setCoreOf_hostMem (s : State) (k : Nat) (v : Core) : (s.setCoreOf k v).hostMem = s.hostMem := rfl
@[simp] theorem State.setCoreOf_hostif (s : State) (k : Nat) (v : Core) : (s.setCoreOf k v).hostif = s.hostif := rfl
@[simp] theorem State.setCoreOf_net (s : State) (k : Nat) (v : Core) : (s.setCoreOf k v).net = s.net := rfl
@[simp] theorem State.setCoreOf_frags (s : State) (k : Nat) (v : Core) : (s.setCoreOf k v).frags = s.frags := rfl
@[simp] theorem State.setCoreOf_ctls (s : State) (k : Nat) (v : Core) : (s.setCoreOf k v).ctls = s.ctls := rfl
@[simp] theorem State.setCoreOf_outFrags (s : State) (k : Nat) (v : Core) : (s.setCoreOf k v).outFrags = s.outFrags := rfl
@[simp] theorem State.setCoreOf_beats (s : State) (k : Nat) (v : Core) : (s.setCoreOf k v).beats = s.beats := rfl
@[simp] theorem State.setCoreOf_answers (s : State) (k : Nat) (v : Core) : (s.setCoreOf k v).answers = s.answers := rfl
@[simp] theorem State.setCoreOf_walks (s : State) (k : Nat) (v : Core) : (s.setCoreOf k v).walks = s.walks := rfl
@[simp] theorem State.setCoreOf_remote (s : State) (k : Nat) (v : Core) : (s.setCoreOf k v).remote = s.remote := rfl
@[simp] theorem State.setCoreOf_told (s : State) (k : Nat) (v : Core) : (s.setCoreOf k v).told = s.told := rfl
@[simp] theorem State.setCoreOf_flash (s : State) (k : Nat) (v : Core) : (s.setCoreOf k v).flash = s.flash := rfl
@[simp] theorem State.setCoreOf_freeCtr (s : State) (k : Nat) (v : Core) : (s.setCoreOf k v).freeCtr = s.freeCtr := rfl

@[simp] theorem State.setDie_cur (s : State) (k : Nat) (v : Die) : (s.setDie k v).cur = s.cur := rfl
@[simp] theorem State.setDie_lane (s : State) (k : Nat) (v : Die) : (s.setDie k v).lane = s.lane := rfl
@[simp] theorem State.setDie_word (s : State) (k : Nat) (v : Die) : (s.setDie k v).word = s.word := rfl
@[simp] theorem State.setDie_agenda (s : State) (k : Nat) (v : Die) : (s.setDie k v).agenda = s.agenda := rfl
@[simp] theorem State.setDie_harts (s : State) (k : Nat) (v : Die) : (s.setDie k v).harts = s.harts := rfl
@[simp] theorem State.setDie_cores (s : State) (k : Nat) (v : Die) : (s.setDie k v).cores = s.cores := rfl
@[simp] theorem State.setDie_basins (s : State) (k : Nat) (v : Die) : (s.setDie k v).basins = s.basins := rfl
@[simp] theorem State.setDie_ctxs (s : State) (k : Nat) (v : Die) : (s.setDie k v).ctxs = s.ctxs := rfl
@[simp] theorem State.setDie_queues (s : State) (k : Nat) (v : Die) : (s.setDie k v).queues = s.queues := rfl
@[simp] theorem State.setDie_launches (s : State) (k : Nat) (v : Die) : (s.setDie k v).launches = s.launches := rfl
@[simp] theorem State.setDie_nextLaunch (s : State) (k : Nat) (v : Die) : (s.setDie k v).nextLaunch = s.nextLaunch := rfl
@[simp] theorem State.setDie_mem (s : State) (k : Nat) (v : Die) : (s.setDie k v).mem = s.mem := rfl
@[simp] theorem State.setDie_poison (s : State) (k : Nat) (v : Die) : (s.setDie k v).poison = s.poison := rfl
@[simp] theorem State.setDie_hostMem (s : State) (k : Nat) (v : Die) : (s.setDie k v).hostMem = s.hostMem := rfl
@[simp] theorem State.setDie_hostif (s : State) (k : Nat) (v : Die) : (s.setDie k v).hostif = s.hostif := rfl
@[simp] theorem State.setDie_net (s : State) (k : Nat) (v : Die) : (s.setDie k v).net = s.net := rfl
@[simp] theorem State.setDie_frags (s : State) (k : Nat) (v : Die) : (s.setDie k v).frags = s.frags := rfl
@[simp] theorem State.setDie_ctls (s : State) (k : Nat) (v : Die) : (s.setDie k v).ctls = s.ctls := rfl
@[simp] theorem State.setDie_outFrags (s : State) (k : Nat) (v : Die) : (s.setDie k v).outFrags = s.outFrags := rfl
@[simp] theorem State.setDie_beats (s : State) (k : Nat) (v : Die) : (s.setDie k v).beats = s.beats := rfl
@[simp] theorem State.setDie_answers (s : State) (k : Nat) (v : Die) : (s.setDie k v).answers = s.answers := rfl
@[simp] theorem State.setDie_walks (s : State) (k : Nat) (v : Die) : (s.setDie k v).walks = s.walks := rfl
@[simp] theorem State.setDie_remote (s : State) (k : Nat) (v : Die) : (s.setDie k v).remote = s.remote := rfl
@[simp] theorem State.setDie_told (s : State) (k : Nat) (v : Die) : (s.setDie k v).told = s.told := rfl
@[simp] theorem State.setDie_flash (s : State) (k : Nat) (v : Die) : (s.setDie k v).flash = s.flash := rfl
@[simp] theorem State.setDie_freeCtr (s : State) (k : Nat) (v : Die) : (s.setDie k v).freeCtr = s.freeCtr := rfl

@[simp] theorem State.setBasin_cur (s : State) (k : Nat) (v : Basin) : (s.setBasin k v).cur = s.cur := rfl
@[simp] theorem State.setBasin_lane (s : State) (k : Nat) (v : Basin) : (s.setBasin k v).lane = s.lane := rfl
@[simp] theorem State.setBasin_word (s : State) (k : Nat) (v : Basin) : (s.setBasin k v).word = s.word := rfl
@[simp] theorem State.setBasin_agenda (s : State) (k : Nat) (v : Basin) : (s.setBasin k v).agenda = s.agenda := rfl
@[simp] theorem State.setBasin_harts (s : State) (k : Nat) (v : Basin) : (s.setBasin k v).harts = s.harts := rfl
@[simp] theorem State.setBasin_cores (s : State) (k : Nat) (v : Basin) : (s.setBasin k v).cores = s.cores := rfl
@[simp] theorem State.setBasin_dies (s : State) (k : Nat) (v : Basin) : (s.setBasin k v).dies = s.dies := rfl
@[simp] theorem State.setBasin_ctxs (s : State) (k : Nat) (v : Basin) : (s.setBasin k v).ctxs = s.ctxs := rfl
@[simp] theorem State.setBasin_queues (s : State) (k : Nat) (v : Basin) : (s.setBasin k v).queues = s.queues := rfl
@[simp] theorem State.setBasin_launches (s : State) (k : Nat) (v : Basin) : (s.setBasin k v).launches = s.launches := rfl
@[simp] theorem State.setBasin_nextLaunch (s : State) (k : Nat) (v : Basin) : (s.setBasin k v).nextLaunch = s.nextLaunch := rfl
@[simp] theorem State.setBasin_mem (s : State) (k : Nat) (v : Basin) : (s.setBasin k v).mem = s.mem := rfl
@[simp] theorem State.setBasin_poison (s : State) (k : Nat) (v : Basin) : (s.setBasin k v).poison = s.poison := rfl
@[simp] theorem State.setBasin_hostMem (s : State) (k : Nat) (v : Basin) : (s.setBasin k v).hostMem = s.hostMem := rfl
@[simp] theorem State.setBasin_hostif (s : State) (k : Nat) (v : Basin) : (s.setBasin k v).hostif = s.hostif := rfl
@[simp] theorem State.setBasin_net (s : State) (k : Nat) (v : Basin) : (s.setBasin k v).net = s.net := rfl
@[simp] theorem State.setBasin_frags (s : State) (k : Nat) (v : Basin) : (s.setBasin k v).frags = s.frags := rfl
@[simp] theorem State.setBasin_ctls (s : State) (k : Nat) (v : Basin) : (s.setBasin k v).ctls = s.ctls := rfl
@[simp] theorem State.setBasin_outFrags (s : State) (k : Nat) (v : Basin) : (s.setBasin k v).outFrags = s.outFrags := rfl
@[simp] theorem State.setBasin_beats (s : State) (k : Nat) (v : Basin) : (s.setBasin k v).beats = s.beats := rfl
@[simp] theorem State.setBasin_answers (s : State) (k : Nat) (v : Basin) : (s.setBasin k v).answers = s.answers := rfl
@[simp] theorem State.setBasin_walks (s : State) (k : Nat) (v : Basin) : (s.setBasin k v).walks = s.walks := rfl
@[simp] theorem State.setBasin_remote (s : State) (k : Nat) (v : Basin) : (s.setBasin k v).remote = s.remote := rfl
@[simp] theorem State.setBasin_told (s : State) (k : Nat) (v : Basin) : (s.setBasin k v).told = s.told := rfl
@[simp] theorem State.setBasin_flash (s : State) (k : Nat) (v : Basin) : (s.setBasin k v).flash = s.flash := rfl
@[simp] theorem State.setBasin_freeCtr (s : State) (k : Nat) (v : Basin) : (s.setBasin k v).freeCtr = s.freeCtr := rfl

@[simp] theorem State.setCtx_cur (s : State) (k : Nat) (v : Ctx) : (s.setCtx k v).cur = s.cur := rfl
@[simp] theorem State.setCtx_lane (s : State) (k : Nat) (v : Ctx) : (s.setCtx k v).lane = s.lane := rfl
@[simp] theorem State.setCtx_word (s : State) (k : Nat) (v : Ctx) : (s.setCtx k v).word = s.word := rfl
@[simp] theorem State.setCtx_agenda (s : State) (k : Nat) (v : Ctx) : (s.setCtx k v).agenda = s.agenda := rfl
@[simp] theorem State.setCtx_harts (s : State) (k : Nat) (v : Ctx) : (s.setCtx k v).harts = s.harts := rfl
@[simp] theorem State.setCtx_cores (s : State) (k : Nat) (v : Ctx) : (s.setCtx k v).cores = s.cores := rfl
@[simp] theorem State.setCtx_dies (s : State) (k : Nat) (v : Ctx) : (s.setCtx k v).dies = s.dies := rfl
@[simp] theorem State.setCtx_basins (s : State) (k : Nat) (v : Ctx) : (s.setCtx k v).basins = s.basins := rfl
@[simp] theorem State.setCtx_queues (s : State) (k : Nat) (v : Ctx) : (s.setCtx k v).queues = s.queues := rfl
@[simp] theorem State.setCtx_launches (s : State) (k : Nat) (v : Ctx) : (s.setCtx k v).launches = s.launches := rfl
@[simp] theorem State.setCtx_nextLaunch (s : State) (k : Nat) (v : Ctx) : (s.setCtx k v).nextLaunch = s.nextLaunch := rfl
@[simp] theorem State.setCtx_mem (s : State) (k : Nat) (v : Ctx) : (s.setCtx k v).mem = s.mem := rfl
@[simp] theorem State.setCtx_poison (s : State) (k : Nat) (v : Ctx) : (s.setCtx k v).poison = s.poison := rfl
@[simp] theorem State.setCtx_hostMem (s : State) (k : Nat) (v : Ctx) : (s.setCtx k v).hostMem = s.hostMem := rfl
@[simp] theorem State.setCtx_hostif (s : State) (k : Nat) (v : Ctx) : (s.setCtx k v).hostif = s.hostif := rfl
@[simp] theorem State.setCtx_net (s : State) (k : Nat) (v : Ctx) : (s.setCtx k v).net = s.net := rfl
@[simp] theorem State.setCtx_frags (s : State) (k : Nat) (v : Ctx) : (s.setCtx k v).frags = s.frags := rfl
@[simp] theorem State.setCtx_ctls (s : State) (k : Nat) (v : Ctx) : (s.setCtx k v).ctls = s.ctls := rfl
@[simp] theorem State.setCtx_outFrags (s : State) (k : Nat) (v : Ctx) : (s.setCtx k v).outFrags = s.outFrags := rfl
@[simp] theorem State.setCtx_beats (s : State) (k : Nat) (v : Ctx) : (s.setCtx k v).beats = s.beats := rfl
@[simp] theorem State.setCtx_answers (s : State) (k : Nat) (v : Ctx) : (s.setCtx k v).answers = s.answers := rfl
@[simp] theorem State.setCtx_walks (s : State) (k : Nat) (v : Ctx) : (s.setCtx k v).walks = s.walks := rfl
@[simp] theorem State.setCtx_remote (s : State) (k : Nat) (v : Ctx) : (s.setCtx k v).remote = s.remote := rfl
@[simp] theorem State.setCtx_told (s : State) (k : Nat) (v : Ctx) : (s.setCtx k v).told = s.told := rfl
@[simp] theorem State.setCtx_flash (s : State) (k : Nat) (v : Ctx) : (s.setCtx k v).flash = s.flash := rfl
@[simp] theorem State.setCtx_freeCtr (s : State) (k : Nat) (v : Ctx) : (s.setCtx k v).freeCtr = s.freeCtr := rfl

@[simp] theorem State.setQueue_cur (s : State) (k : Nat) (v : Queue) : (s.setQueue k v).cur = s.cur := rfl
@[simp] theorem State.setQueue_lane (s : State) (k : Nat) (v : Queue) : (s.setQueue k v).lane = s.lane := rfl
@[simp] theorem State.setQueue_word (s : State) (k : Nat) (v : Queue) : (s.setQueue k v).word = s.word := rfl
@[simp] theorem State.setQueue_agenda (s : State) (k : Nat) (v : Queue) : (s.setQueue k v).agenda = s.agenda := rfl
@[simp] theorem State.setQueue_harts (s : State) (k : Nat) (v : Queue) : (s.setQueue k v).harts = s.harts := rfl
@[simp] theorem State.setQueue_cores (s : State) (k : Nat) (v : Queue) : (s.setQueue k v).cores = s.cores := rfl
@[simp] theorem State.setQueue_dies (s : State) (k : Nat) (v : Queue) : (s.setQueue k v).dies = s.dies := rfl
@[simp] theorem State.setQueue_basins (s : State) (k : Nat) (v : Queue) : (s.setQueue k v).basins = s.basins := rfl
@[simp] theorem State.setQueue_ctxs (s : State) (k : Nat) (v : Queue) : (s.setQueue k v).ctxs = s.ctxs := rfl
@[simp] theorem State.setQueue_launches (s : State) (k : Nat) (v : Queue) : (s.setQueue k v).launches = s.launches := rfl
@[simp] theorem State.setQueue_nextLaunch (s : State) (k : Nat) (v : Queue) : (s.setQueue k v).nextLaunch = s.nextLaunch := rfl
@[simp] theorem State.setQueue_mem (s : State) (k : Nat) (v : Queue) : (s.setQueue k v).mem = s.mem := rfl
@[simp] theorem State.setQueue_poison (s : State) (k : Nat) (v : Queue) : (s.setQueue k v).poison = s.poison := rfl
@[simp] theorem State.setQueue_hostMem (s : State) (k : Nat) (v : Queue) : (s.setQueue k v).hostMem = s.hostMem := rfl
@[simp] theorem State.setQueue_hostif (s : State) (k : Nat) (v : Queue) : (s.setQueue k v).hostif = s.hostif := rfl
@[simp] theorem State.setQueue_net (s : State) (k : Nat) (v : Queue) : (s.setQueue k v).net = s.net := rfl
@[simp] theorem State.setQueue_frags (s : State) (k : Nat) (v : Queue) : (s.setQueue k v).frags = s.frags := rfl
@[simp] theorem State.setQueue_ctls (s : State) (k : Nat) (v : Queue) : (s.setQueue k v).ctls = s.ctls := rfl
@[simp] theorem State.setQueue_outFrags (s : State) (k : Nat) (v : Queue) : (s.setQueue k v).outFrags = s.outFrags := rfl
@[simp] theorem State.setQueue_beats (s : State) (k : Nat) (v : Queue) : (s.setQueue k v).beats = s.beats := rfl
@[simp] theorem State.setQueue_answers (s : State) (k : Nat) (v : Queue) : (s.setQueue k v).answers = s.answers := rfl
@[simp] theorem State.setQueue_walks (s : State) (k : Nat) (v : Queue) : (s.setQueue k v).walks = s.walks := rfl
@[simp] theorem State.setQueue_remote (s : State) (k : Nat) (v : Queue) : (s.setQueue k v).remote = s.remote := rfl
@[simp] theorem State.setQueue_told (s : State) (k : Nat) (v : Queue) : (s.setQueue k v).told = s.told := rfl
@[simp] theorem State.setQueue_flash (s : State) (k : Nat) (v : Queue) : (s.setQueue k v).flash = s.flash := rfl
@[simp] theorem State.setQueue_freeCtr (s : State) (k : Nat) (v : Queue) : (s.setQueue k v).freeCtr = s.freeCtr := rfl

@[simp] theorem State.setH_cur (s : State) (v : Hart) : (s.setH v).cur = s.cur := rfl
@[simp] theorem State.setH_lane (s : State) (v : Hart) : (s.setH v).lane = s.lane := rfl
@[simp] theorem State.setH_word (s : State) (v : Hart) : (s.setH v).word = s.word := rfl
@[simp] theorem State.setH_agenda (s : State) (v : Hart) : (s.setH v).agenda = s.agenda := rfl
@[simp] theorem State.setH_cores (s : State) (v : Hart) : (s.setH v).cores = s.cores := rfl
@[simp] theorem State.setH_dies (s : State) (v : Hart) : (s.setH v).dies = s.dies := rfl
@[simp] theorem State.setH_basins (s : State) (v : Hart) : (s.setH v).basins = s.basins := rfl
@[simp] theorem State.setH_ctxs (s : State) (v : Hart) : (s.setH v).ctxs = s.ctxs := rfl
@[simp] theorem State.setH_queues (s : State) (v : Hart) : (s.setH v).queues = s.queues := rfl
@[simp] theorem State.setH_launches (s : State) (v : Hart) : (s.setH v).launches = s.launches := rfl
@[simp] theorem State.setH_nextLaunch (s : State) (v : Hart) : (s.setH v).nextLaunch = s.nextLaunch := rfl
@[simp] theorem State.setH_mem (s : State) (v : Hart) : (s.setH v).mem = s.mem := rfl
@[simp] theorem State.setH_poison (s : State) (v : Hart) : (s.setH v).poison = s.poison := rfl
@[simp] theorem State.setH_hostMem (s : State) (v : Hart) : (s.setH v).hostMem = s.hostMem := rfl
@[simp] theorem State.setH_hostif (s : State) (v : Hart) : (s.setH v).hostif = s.hostif := rfl
@[simp] theorem State.setH_net (s : State) (v : Hart) : (s.setH v).net = s.net := rfl
@[simp] theorem State.setH_frags (s : State) (v : Hart) : (s.setH v).frags = s.frags := rfl
@[simp] theorem State.setH_ctls (s : State) (v : Hart) : (s.setH v).ctls = s.ctls := rfl
@[simp] theorem State.setH_outFrags (s : State) (v : Hart) : (s.setH v).outFrags = s.outFrags := rfl
@[simp] theorem State.setH_beats (s : State) (v : Hart) : (s.setH v).beats = s.beats := rfl
@[simp] theorem State.setH_answers (s : State) (v : Hart) : (s.setH v).answers = s.answers := rfl
@[simp] theorem State.setH_walks (s : State) (v : Hart) : (s.setH v).walks = s.walks := rfl
@[simp] theorem State.setH_remote (s : State) (v : Hart) : (s.setH v).remote = s.remote := rfl
@[simp] theorem State.setH_told (s : State) (v : Hart) : (s.setH v).told = s.told := rfl
@[simp] theorem State.setH_flash (s : State) (v : Hart) : (s.setH v).flash = s.flash := rfl
@[simp] theorem State.setH_freeCtr (s : State) (v : Hart) : (s.setH v).freeCtr = s.freeCtr := rfl

@[simp] theorem State.setC_cur (s : State) (v : Core) : (s.setC v).cur = s.cur := rfl
@[simp] theorem State.setC_lane (s : State) (v : Core) : (s.setC v).lane = s.lane := rfl
@[simp] theorem State.setC_word (s : State) (v : Core) : (s.setC v).word = s.word := rfl
@[simp] theorem State.setC_agenda (s : State) (v : Core) : (s.setC v).agenda = s.agenda := rfl
@[simp] theorem State.setC_harts (s : State) (v : Core) : (s.setC v).harts = s.harts := rfl
@[simp] theorem State.setC_dies (s : State) (v : Core) : (s.setC v).dies = s.dies := rfl
@[simp] theorem State.setC_basins (s : State) (v : Core) : (s.setC v).basins = s.basins := rfl
@[simp] theorem State.setC_ctxs (s : State) (v : Core) : (s.setC v).ctxs = s.ctxs := rfl
@[simp] theorem State.setC_queues (s : State) (v : Core) : (s.setC v).queues = s.queues := rfl
@[simp] theorem State.setC_launches (s : State) (v : Core) : (s.setC v).launches = s.launches := rfl
@[simp] theorem State.setC_nextLaunch (s : State) (v : Core) : (s.setC v).nextLaunch = s.nextLaunch := rfl
@[simp] theorem State.setC_mem (s : State) (v : Core) : (s.setC v).mem = s.mem := rfl
@[simp] theorem State.setC_poison (s : State) (v : Core) : (s.setC v).poison = s.poison := rfl
@[simp] theorem State.setC_hostMem (s : State) (v : Core) : (s.setC v).hostMem = s.hostMem := rfl
@[simp] theorem State.setC_hostif (s : State) (v : Core) : (s.setC v).hostif = s.hostif := rfl
@[simp] theorem State.setC_net (s : State) (v : Core) : (s.setC v).net = s.net := rfl
@[simp] theorem State.setC_frags (s : State) (v : Core) : (s.setC v).frags = s.frags := rfl
@[simp] theorem State.setC_ctls (s : State) (v : Core) : (s.setC v).ctls = s.ctls := rfl
@[simp] theorem State.setC_outFrags (s : State) (v : Core) : (s.setC v).outFrags = s.outFrags := rfl
@[simp] theorem State.setC_beats (s : State) (v : Core) : (s.setC v).beats = s.beats := rfl
@[simp] theorem State.setC_answers (s : State) (v : Core) : (s.setC v).answers = s.answers := rfl
@[simp] theorem State.setC_walks (s : State) (v : Core) : (s.setC v).walks = s.walks := rfl
@[simp] theorem State.setC_remote (s : State) (v : Core) : (s.setC v).remote = s.remote := rfl
@[simp] theorem State.setC_told (s : State) (v : Core) : (s.setC v).told = s.told := rfl
@[simp] theorem State.setC_flash (s : State) (v : Core) : (s.setC v).flash = s.flash := rfl
@[simp] theorem State.setC_freeCtr (s : State) (v : Core) : (s.setC v).freeCtr = s.freeCtr := rfl

@[simp] theorem State.hartOf_setHartOf_self (s : State) (k : Nat) (v : Hart) : (s.setHartOf k v).hartOf k = v := smGet_smSet_self _ _ _ _

theorem State.hartOf_setHartOf_ne (s : State) (v : Hart) {k j : Nat} (h : k ≠ j) : (s.setHartOf j v).hartOf k = s.hartOf k :=
  smGet_smSet_ne _ _ h _

@[simp] theorem State.coreOf_setCoreOf_self (s : State) (k : Nat) (v : Core) : (s.setCoreOf k v).coreOf k = v := smGet_smSet_self _ _ _ _

theorem State.coreOf_setCoreOf_ne (s : State) (v : Core) {k j : Nat} (h : k ≠ j) : (s.setCoreOf j v).coreOf k = s.coreOf k :=
  smGet_smSet_ne _ _ h _

@[simp] theorem State.basin_setBasin_self (s : State) (k : Nat) (v : Basin) : (s.setBasin k v).basin k = v := smGet_smSet_self _ _ _ _

theorem State.basin_setBasin_ne (s : State) (v : Basin) {k j : Nat} (h : k ≠ j) : (s.setBasin j v).basin k = s.basin k :=
  smGet_smSet_ne _ _ h _

@[simp] theorem State.ctx_setCtx_self (s : State) (k : Nat) (v : Ctx) : (s.setCtx k v).ctx k = v := smGet_smSet_self _ _ _ _

theorem State.ctx_setCtx_ne (s : State) (v : Ctx) {k j : Nat} (h : k ≠ j) : (s.setCtx j v).ctx k = s.ctx k :=
  smGet_smSet_ne _ _ h _

@[simp] theorem State.queue_setQueue_self (s : State) (k : Nat) (v : Queue) : (s.setQueue k v).queue k = v := smGet_smSet_self _ _ _ _

theorem State.queue_setQueue_ne (s : State) (v : Queue) {k j : Nat} (h : k ≠ j) : (s.setQueue j v).queue k = s.queue k :=
  smGet_smSet_ne _ _ h _

/-! ## The executing hart and core -/

@[simp] theorem State.h_setH (s : State) (h : Hart) : (s.setH h).h = h := smGet_smSet_self _ _ _ _

@[simp] theorem State.c_setC (s : State) (c : Core) : (s.setC c).c = c := smGet_smSet_self _ _ _ _

theorem State.hartOf_setH_ne (s : State) (h : Hart) {k : Nat} (hk : k ≠ s.cur) : (s.setH h).hartOf k = s.hartOf k :=
  smGet_smSet_ne _ _ hk _

theorem State.coreOf_setC_ne (s : State) (c : Core) {k : Nat} (hk : k ≠ s.agent) : (s.setC c).coreOf k = s.coreOf k :=
  smGet_smSet_ne _ _ hk _

@[simp] theorem State.c_setH (s : State) (h : Hart) : (s.setH h).c = s.c := rfl

@[simp] theorem State.coreOf_setH (s : State) (h : Hart) (k : Nat) : (s.setH h).coreOf k = s.coreOf k := rfl

@[simp] theorem State.h_setC (s : State) (c : Core) : (s.setC c).h = s.h := rfl

@[simp] theorem State.hartOf_setC (s : State) (c : Core) (k : Nat) : (s.setC c).hartOf k = s.hartOf k := rfl

@[simp] theorem State.agent_setH (s : State) (h : Hart) : (s.setH h).agent = s.agent := rfl

@[simp] theorem State.agent_setC (s : State) (c : Core) : (s.setC c).agent = s.agent := rfl

@[simp] theorem State.onCore_setH (s : State) (h : Hart) : (s.setH h).onCore = s.onCore := rfl

@[simp] theorem State.hartNo_setH (s : State) (h : Hart) : (s.setH h).hartNo = s.hartNo := rfl

/-! ## Registers of a hart -/

@[simp] theorem Hart.setX_v (h : Hart) (r : BitVec 5) (v : Word) : (h.setX r v).v = h.v := by simp only [Hart.setX]; split <;> rfl
@[simp] theorem Hart.setX_m (h : Hart) (r : BitVec 5) (v : Word) : (h.setX r v).m = h.m := by simp only [Hart.setX]; split <;> rfl
@[simp] theorem Hart.setX_pins (h : Hart) (r : BitVec 5) (v : Word) : (h.setX r v).pins = h.pins := by simp only [Hart.setX]; split <;> rfl
@[simp] theorem Hart.setX_pc (h : Hart) (r : BitVec 5) (v : Word) : (h.setX r v).pc = h.pc := by simp only [Hart.setX]; split <;> rfl
@[simp] theorem Hart.setX_shape (h : Hart) (r : BitVec 5) (v : Word) : (h.setX r v).shape = h.shape := by simp only [Hart.setX]; split <;> rfl
@[simp] theorem Hart.setX_user (h : Hart) (r : BitVec 5) (v : Word) : (h.setX r v).user = h.user := by simp only [Hart.setX]; split <;> rfl
@[simp] theorem Hart.setX_trap (h : Hart) (r : BitVec 5) (v : Word) : (h.setX r v).trap = h.trap := by simp only [Hart.setX]; split <;> rfl
@[simp] theorem Hart.setX_convoy (h : Hart) (r : BitVec 5) (v : Word) : (h.setX r v).convoy = h.convoy := by simp only [Hart.setX]; split <;> rfl
@[simp] theorem Hart.setX_fresh (h : Hart) (r : BitVec 5) (v : Word) : (h.setX r v).fresh = h.fresh := by simp only [Hart.setX]; split <;> rfl
@[simp] theorem Hart.setX_checker (h : Hart) (r : BitVec 5) (v : Word) : (h.setX r v).checker = h.checker := by simp only [Hart.setX]; split <;> rfl
@[simp] theorem Hart.setX_run (h : Hart) (r : BitVec 5) (v : Word) : (h.setX r v).run = h.run := by simp only [Hart.setX]; split <;> rfl
@[simp] theorem Hart.setX_wait (h : Hart) (r : BitVec 5) (v : Word) : (h.setX r v).wait = h.wait := by simp only [Hart.setX]; split <;> rfl
@[simp] theorem Hart.setX_lanes (h : Hart) (r : BitVec 5) (v : Word) : (h.setX r v).lanes = h.lanes := by simp only [Hart.setX]; split <;> rfl
@[simp] theorem Hart.setX_pending (h : Hart) (r : BitVec 5) (v : Word) : (h.setX r v).pending = h.pending := by simp only [Hart.setX]; split <;> rfl
@[simp] theorem Hart.setX_serial (h : Hart) (r : BitVec 5) (v : Word) : (h.setX r v).serial = h.serial := by simp only [Hart.setX]; split <;> rfl
@[simp] theorem Hart.setX_reply (h : Hart) (r : BitVec 5) (v : Word) : (h.setX r v).reply = h.reply := by simp only [Hart.setX]; split <;> rfl
@[simp] theorem Hart.setX_asked (h : Hart) (r : BitVec 5) (v : Word) : (h.setX r v).asked = h.asked := by simp only [Hart.setX]; split <;> rfl

@[simp] theorem Hart.setRow_x (h : Hart) (n : Nat) (v : Row) : (h.setRow n v).x = h.x := rfl
@[simp] theorem Hart.setRow_m (h : Hart) (n : Nat) (v : Row) : (h.setRow n v).m = h.m := rfl
@[simp] theorem Hart.setRow_pins (h : Hart) (n : Nat) (v : Row) : (h.setRow n v).pins = h.pins := rfl
@[simp] theorem Hart.setRow_pc (h : Hart) (n : Nat) (v : Row) : (h.setRow n v).pc = h.pc := rfl
@[simp] theorem Hart.setRow_shape (h : Hart) (n : Nat) (v : Row) : (h.setRow n v).shape = h.shape := rfl
@[simp] theorem Hart.setRow_user (h : Hart) (n : Nat) (v : Row) : (h.setRow n v).user = h.user := rfl
@[simp] theorem Hart.setRow_trap (h : Hart) (n : Nat) (v : Row) : (h.setRow n v).trap = h.trap := rfl
@[simp] theorem Hart.setRow_convoy (h : Hart) (n : Nat) (v : Row) : (h.setRow n v).convoy = h.convoy := rfl
@[simp] theorem Hart.setRow_fresh (h : Hart) (n : Nat) (v : Row) : (h.setRow n v).fresh = h.fresh := rfl
@[simp] theorem Hart.setRow_checker (h : Hart) (n : Nat) (v : Row) : (h.setRow n v).checker = h.checker := rfl
@[simp] theorem Hart.setRow_run (h : Hart) (n : Nat) (v : Row) : (h.setRow n v).run = h.run := rfl
@[simp] theorem Hart.setRow_wait (h : Hart) (n : Nat) (v : Row) : (h.setRow n v).wait = h.wait := rfl
@[simp] theorem Hart.setRow_lanes (h : Hart) (n : Nat) (v : Row) : (h.setRow n v).lanes = h.lanes := rfl
@[simp] theorem Hart.setRow_pending (h : Hart) (n : Nat) (v : Row) : (h.setRow n v).pending = h.pending := rfl
@[simp] theorem Hart.setRow_serial (h : Hart) (n : Nat) (v : Row) : (h.setRow n v).serial = h.serial := rfl
@[simp] theorem Hart.setRow_reply (h : Hart) (n : Nat) (v : Row) : (h.setRow n v).reply = h.reply := rfl
@[simp] theorem Hart.setRow_asked (h : Hart) (n : Nat) (v : Row) : (h.setRow n v).asked = h.asked := rfl

@[simp] theorem Hart.setMask_x (h : Hart) (n : BitVec 3) (v : Mask) : (h.setMask n v).x = h.x := by simp only [Hart.setMask]; split <;> rfl
@[simp] theorem Hart.setMask_v (h : Hart) (n : BitVec 3) (v : Mask) : (h.setMask n v).v = h.v := by simp only [Hart.setMask]; split <;> rfl
@[simp] theorem Hart.setMask_pins (h : Hart) (n : BitVec 3) (v : Mask) : (h.setMask n v).pins = h.pins := by simp only [Hart.setMask]; split <;> rfl
@[simp] theorem Hart.setMask_pc (h : Hart) (n : BitVec 3) (v : Mask) : (h.setMask n v).pc = h.pc := by simp only [Hart.setMask]; split <;> rfl
@[simp] theorem Hart.setMask_shape (h : Hart) (n : BitVec 3) (v : Mask) : (h.setMask n v).shape = h.shape := by simp only [Hart.setMask]; split <;> rfl
@[simp] theorem Hart.setMask_user (h : Hart) (n : BitVec 3) (v : Mask) : (h.setMask n v).user = h.user := by simp only [Hart.setMask]; split <;> rfl
@[simp] theorem Hart.setMask_trap (h : Hart) (n : BitVec 3) (v : Mask) : (h.setMask n v).trap = h.trap := by simp only [Hart.setMask]; split <;> rfl
@[simp] theorem Hart.setMask_convoy (h : Hart) (n : BitVec 3) (v : Mask) : (h.setMask n v).convoy = h.convoy := by simp only [Hart.setMask]; split <;> rfl
@[simp] theorem Hart.setMask_fresh (h : Hart) (n : BitVec 3) (v : Mask) : (h.setMask n v).fresh = h.fresh := by simp only [Hart.setMask]; split <;> rfl
@[simp] theorem Hart.setMask_checker (h : Hart) (n : BitVec 3) (v : Mask) : (h.setMask n v).checker = h.checker := by simp only [Hart.setMask]; split <;> rfl
@[simp] theorem Hart.setMask_run (h : Hart) (n : BitVec 3) (v : Mask) : (h.setMask n v).run = h.run := by simp only [Hart.setMask]; split <;> rfl
@[simp] theorem Hart.setMask_wait (h : Hart) (n : BitVec 3) (v : Mask) : (h.setMask n v).wait = h.wait := by simp only [Hart.setMask]; split <;> rfl
@[simp] theorem Hart.setMask_lanes (h : Hart) (n : BitVec 3) (v : Mask) : (h.setMask n v).lanes = h.lanes := by simp only [Hart.setMask]; split <;> rfl
@[simp] theorem Hart.setMask_pending (h : Hart) (n : BitVec 3) (v : Mask) : (h.setMask n v).pending = h.pending := by simp only [Hart.setMask]; split <;> rfl
@[simp] theorem Hart.setMask_serial (h : Hart) (n : BitVec 3) (v : Mask) : (h.setMask n v).serial = h.serial := by simp only [Hart.setMask]; split <;> rfl
@[simp] theorem Hart.setMask_reply (h : Hart) (n : BitVec 3) (v : Mask) : (h.setMask n v).reply = h.reply := by simp only [Hart.setMask]; split <;> rfl
@[simp] theorem Hart.setMask_asked (h : Hart) (n : BitVec 3) (v : Mask) : (h.setMask n v).asked = h.asked := by simp only [Hart.setMask]; split <;> rfl

@[simp] theorem Hart.orFlags_x (h : Hart) (f : BitVec 5) : (h.orFlags f).x = h.x := rfl
@[simp] theorem Hart.orFlags_v (h : Hart) (f : BitVec 5) : (h.orFlags f).v = h.v := rfl
@[simp] theorem Hart.orFlags_m (h : Hart) (f : BitVec 5) : (h.orFlags f).m = h.m := rfl
@[simp] theorem Hart.orFlags_pins (h : Hart) (f : BitVec 5) : (h.orFlags f).pins = h.pins := rfl
@[simp] theorem Hart.orFlags_pc (h : Hart) (f : BitVec 5) : (h.orFlags f).pc = h.pc := rfl
@[simp] theorem Hart.orFlags_shape (h : Hart) (f : BitVec 5) : (h.orFlags f).shape = h.shape := rfl
@[simp] theorem Hart.orFlags_trap (h : Hart) (f : BitVec 5) : (h.orFlags f).trap = h.trap := rfl
@[simp] theorem Hart.orFlags_convoy (h : Hart) (f : BitVec 5) : (h.orFlags f).convoy = h.convoy := rfl
@[simp] theorem Hart.orFlags_fresh (h : Hart) (f : BitVec 5) : (h.orFlags f).fresh = h.fresh := rfl
@[simp] theorem Hart.orFlags_checker (h : Hart) (f : BitVec 5) : (h.orFlags f).checker = h.checker := rfl
@[simp] theorem Hart.orFlags_run (h : Hart) (f : BitVec 5) : (h.orFlags f).run = h.run := rfl
@[simp] theorem Hart.orFlags_wait (h : Hart) (f : BitVec 5) : (h.orFlags f).wait = h.wait := rfl
@[simp] theorem Hart.orFlags_lanes (h : Hart) (f : BitVec 5) : (h.orFlags f).lanes = h.lanes := rfl
@[simp] theorem Hart.orFlags_pending (h : Hart) (f : BitVec 5) : (h.orFlags f).pending = h.pending := rfl
@[simp] theorem Hart.orFlags_serial (h : Hart) (f : BitVec 5) : (h.orFlags f).serial = h.serial := rfl
@[simp] theorem Hart.orFlags_reply (h : Hart) (f : BitVec 5) : (h.orFlags f).reply = h.reply := rfl
@[simp] theorem Hart.orFlags_asked (h : Hart) (f : BitVec 5) : (h.orFlags f).asked = h.asked := rfl

@[simp] theorem Hart.running_x (h : Hart) : h.running.x = h.x := rfl
@[simp] theorem Hart.running_v (h : Hart) : h.running.v = h.v := rfl
@[simp] theorem Hart.running_m (h : Hart) : h.running.m = h.m := rfl
@[simp] theorem Hart.running_pins (h : Hart) : h.running.pins = h.pins := rfl
@[simp] theorem Hart.running_pc (h : Hart) : h.running.pc = h.pc := rfl
@[simp] theorem Hart.running_shape (h : Hart) : h.running.shape = h.shape := rfl
@[simp] theorem Hart.running_user (h : Hart) : h.running.user = h.user := rfl
@[simp] theorem Hart.running_trap (h : Hart) : h.running.trap = h.trap := rfl
@[simp] theorem Hart.running_convoy (h : Hart) : h.running.convoy = h.convoy := rfl
@[simp] theorem Hart.running_fresh (h : Hart) : h.running.fresh = h.fresh := rfl
@[simp] theorem Hart.running_checker (h : Hart) : h.running.checker = h.checker := rfl
@[simp] theorem Hart.running_run (h : Hart) : h.running.run = h.run := rfl
@[simp] theorem Hart.running_lanes (h : Hart) : h.running.lanes = h.lanes := rfl
@[simp] theorem Hart.running_pending (h : Hart) : h.running.pending = h.pending := rfl
@[simp] theorem Hart.running_serial (h : Hart) : h.running.serial = h.serial := rfl

@[simp] theorem Hart.waitOn_x (h : Hart) (r : BitVec 5) (t : BitVec 6) (p : BitVec 32) : (h.waitOn r t p).x = h.x := rfl
@[simp] theorem Hart.waitOn_v (h : Hart) (r : BitVec 5) (t : BitVec 6) (p : BitVec 32) : (h.waitOn r t p).v = h.v := rfl
@[simp] theorem Hart.waitOn_m (h : Hart) (r : BitVec 5) (t : BitVec 6) (p : BitVec 32) : (h.waitOn r t p).m = h.m := rfl
@[simp] theorem Hart.waitOn_pins (h : Hart) (r : BitVec 5) (t : BitVec 6) (p : BitVec 32) : (h.waitOn r t p).pins = h.pins := rfl
@[simp] theorem Hart.waitOn_pc (h : Hart) (r : BitVec 5) (t : BitVec 6) (p : BitVec 32) : (h.waitOn r t p).pc = h.pc := rfl
@[simp] theorem Hart.waitOn_shape (h : Hart) (r : BitVec 5) (t : BitVec 6) (p : BitVec 32) : (h.waitOn r t p).shape = h.shape := rfl
@[simp] theorem Hart.waitOn_user (h : Hart) (r : BitVec 5) (t : BitVec 6) (p : BitVec 32) : (h.waitOn r t p).user = h.user := rfl
@[simp] theorem Hart.waitOn_trap (h : Hart) (r : BitVec 5) (t : BitVec 6) (p : BitVec 32) : (h.waitOn r t p).trap = h.trap := rfl
@[simp] theorem Hart.waitOn_convoy (h : Hart) (r : BitVec 5) (t : BitVec 6) (p : BitVec 32) : (h.waitOn r t p).convoy = h.convoy := rfl
@[simp] theorem Hart.waitOn_fresh (h : Hart) (r : BitVec 5) (t : BitVec 6) (p : BitVec 32) : (h.waitOn r t p).fresh = h.fresh := rfl
@[simp] theorem Hart.waitOn_checker (h : Hart) (r : BitVec 5) (t : BitVec 6) (p : BitVec 32) : (h.waitOn r t p).checker = h.checker := rfl
@[simp] theorem Hart.waitOn_run (h : Hart) (r : BitVec 5) (t : BitVec 6) (p : BitVec 32) : (h.waitOn r t p).run = h.run := rfl
@[simp] theorem Hart.waitOn_lanes (h : Hart) (r : BitVec 5) (t : BitVec 6) (p : BitVec 32) : (h.waitOn r t p).lanes = h.lanes := rfl
@[simp] theorem Hart.waitOn_pending (h : Hart) (r : BitVec 5) (t : BitVec 6) (p : BitVec 32) : (h.waitOn r t p).pending = h.pending := rfl
@[simp] theorem Hart.waitOn_serial (h : Hart) (r : BitVec 5) (t : BitVec 6) (p : BitVec 32) : (h.waitOn r t p).serial = h.serial := rfl
@[simp] theorem Hart.waitOn_reply (h : Hart) (r : BitVec 5) (t : BitVec 6) (p : BitVec 32) : (h.waitOn r t p).reply = h.reply := rfl
@[simp] theorem Hart.waitOn_asked (h : Hart) (r : BitVec 5) (t : BitVec 6) (p : BitVec 32) : (h.waitOn r t p).asked = h.asked := rfl

/-- x0 reads as zero (R19). -/
@[simp] theorem State.x_zero (s : State) : s.x 0 = 0 := rfl

/-- Writing x0 has no effect (R19). -/
@[simp] theorem Hart.setX_zero (h : Hart) (v : Word) : h.setX 0 v = h := rfl

/-- m0 reads as all ones (R21). -/
@[simp] theorem Hart.mask_zero (h : Hart) : h.mask 0 = BitVec.allOnes 8192 := rfl

@[simp] theorem Hart.maskBit_zero (h : Hart) (j i : Nat) : h.maskBit 0 j i = true := rfl

end Machine

end Sys2Proof
end

