-- ==== Sys2Proof/Laws/Ops.lean ====
section
/-! SUPPORT. Laws of the shared operations: one lemma each that says what completing, waiting, joining a convoy, performing a write and
emitting an event can do. -/

namespace Sys2Proof.Machine

/-! ## Writing the executing hart -/

theorem becomes_setH (s : State) (h : Hart) : Becomes s (s.setH h) h :=
  ⟨by simp, fun k hk => State.hartOf_setH_ne s h hk, rfl⟩

theorem becomes_setH_setH (s : State) (h g : Hart) : Becomes s ((s.setH h).setH g) g :=
  ⟨by simp, fun k hk => by rw [State.hartOf_setH_ne _ _ (by simpa using hk), State.hartOf_setH_ne _ _ hk], rfl⟩

/-- Outside lane threads a scalar register write is one of the hart (R19). -/
theorem setX_of_hart (s : State) (rd : BitVec 5) (v : Word) (h : s.lane = none) :
    s.setX rd v = s.setH { s.h with x := s.h.xWith rd v } := by
  simp only [State.setX, h, Hart.setX, Hart.xWith]
  split <;> rfl

theorem pc_of_hart (s : State) (h : s.lane = none) : s.pc = s.h.pc := by simp [State.pc, h]

theorem setPc_of_hart (g : Hart) (p : Word) : g.setPc none p = { g with pc := p } := by simp [Hart.setPc]

/-! ## Completing and waiting -/

/-- Outside lane threads an instruction that completes leaves its hart at pc + 4, running, with the checker's fold, and nothing else changed. -/
theorem finish_becomes (s : State) (h : s.lane = none) :
    ∃ t, finish s = .next t ∧ Becomes s t (s.h.doneAt s.checkerNext (s.h.pc + 4)) := by
  refine ⟨_, rfl, ?_⟩
  have e : retire s = s.setH (s.h.doneAt s.checkerNext (s.h.pc + 4)) := by
    simp only [retire, h, setPc_of_hart, pc_of_hart s h]; rfl
  rw [e]
  exact becomes_setH _ _

/-- The checker's next value is that of the state before its hart's registers were written. -/
theorem checkerNext_setH (s : State) (g : Hart) (h1 : g.checker = s.h.checker) (h2 : g.trap = s.h.trap) :
    (s.setH g).checkerNext = s.checkerNext := by
  simp only [State.checkerNext, State.checking, State.onCore, State.agent, State.setH_cur, State.setH_lane, State.h_setH, State.setH_word, h1, h2]
  rfl

/-- As `finish_becomes`, after the hart's own registers were written. -/
theorem finish_setH (s : State) (g : Hart) (h : s.lane = none) (h1 : g.checker = s.h.checker) (h2 : g.trap = s.h.trap) :
    ∃ t, finish (s.setH g) = .next t ∧ Becomes s t (g.doneAt s.checkerNext (g.pc + 4)) := by
  refine ⟨_, rfl, ?_⟩
  have e : retire (s.setH g) = (s.setH g).setH (g.doneAt s.checkerNext (g.pc + 4)) := by
    simp only [retire, State.setH_lane, h, setPc_of_hart, pc_of_hart (s.setH g) h, State.h_setH, checkerNext_setH s g h1 h2]; rfl
  rw [e]
  exact becomes_setH_setH _ _ _

/-- A result in rd completes the instruction: rd holds it, x0 stays zero, and the hart goes on at pc + 4. -/
theorem finish_setX (s : State) (rd : BitVec 5) (v : Word) (h : s.lane = none) :
    ∃ t, finish (s.setX rd v) = .next t
      ∧ Becomes s t (Hart.doneAt { s.h with x := s.h.xWith rd v } s.checkerNext (s.h.pc + 4)) := by
  rw [setX_of_hart s rd v h]
  exact finish_setH s _ h rfl rfl

/-- An instruction that waits leaves its hart at it with the wait word, and nothing else changed. -/
theorem waiting_becomes (s : State) (r : BitVec 5) (g : BitVec 6) (p : BitVec 32) :
    ∃ t, waiting s r g p = .next t ∧ Becomes s t (s.h.waitOn r g p) := ⟨_, rfl, becomes_setH _ _⟩

/-! ## Vector instructions -/

/-- What a vector instruction can do: its operand trap, the convoy trap, or its effect and the convoy with it (R85, R119). -/
theorem vecOp_cases (s : State) (c : Claim) (check : Option Trap) (eff : State → State) :
    (∃ t, check = some t ∧ vecOp s c check eff = raise s t)
      ∨ (check = none ∧ ∃ a, joinConvoy s c = .error a ∧ vecOp s c check eff = refuseConvoy s a)
      ∨ (check = none ∧ ∃ cv, joinConvoy s c = .ok cv ∧ vecOp s c check eff = finish ((eff s).vdone cv)) := by
  cases check with
  | some t => exact .inl ⟨t, rfl, rfl⟩
  | none =>
    cases e : joinConvoy s c with
    | error a => exact .inr (.inl ⟨rfl, a, rfl, by simp only [vecOp, e]⟩)
    | ok cv => exact .inr (.inr ⟨rfl, cv, rfl, by simp only [vecOp, e]⟩)

/-- Joining a convoy: the address of its first member that conflicts, or the members with this one last (R33 to R37). -/
theorem joinConvoy_cases (s : State) (c : Claim) :
    (∃ m, (convoyOf s.h c).find? (fun m => m.conflicts c) = some m ∧ joinConvoy s c = .error m.addr)
      ∨ ((∀ m ∈ convoyOf s.h c, m.conflicts c = false)
        ∧ joinConvoy s c = .ok (convoyOf s.h c ++ [{ addr := s.pc, units := c.units, vregs := c.wv, mregs := c.wm }])) := by
  cases e : (convoyOf s.h c).find? (fun m => m.conflicts c) with
  | some m => exact .inl ⟨m, rfl, by simp only [joinConvoy, e]⟩
  | none => exact .inr ⟨by simpa using e, by simp only [joinConvoy, e]⟩

/-! ## Performing writes -/

@[simp] theorem devWrite_mem (s : State) (w : Option Nat) (pa : Nat) (l : List Byte) : (devWrite s w pa l).mem = writeBytes s.mem pa l := rfl
@[simp] theorem devWrite_hostMem (s : State) (w : Option Nat) (pa : Nat) (l : List Byte) : (devWrite s w pa l).hostMem = s.hostMem := rfl
@[simp] theorem devWrite_harts (s : State) (w : Option Nat) (pa : Nat) (l : List Byte) : (devWrite s w pa l).harts = s.harts := rfl
@[simp] theorem devWrite_hostif (s : State) (w : Option Nat) (pa : Nat) (l : List Byte) :
    (devWrite s w pa l).hostif = s.hostif.snoop pa l.length := rfl
@[simp] theorem snoop_ring (h : HostIf) (pa n : Nat) : (h.snoop pa n).ring = h.ring := rfl
@[simp] theorem snoop_regs (h : HostIf) (pa n : Nat) : (h.snoop pa n).regs = h.regs := rfl
@[simp] theorem snoop_pages (h : HostIf) (pa n : Nat) : (h.snoop pa n).pages = h.pages := rfl

/-- A write performed at its home keeps device memory canonical and changes no byte beyond it (R283). -/
theorem devWrite_bytes {s : State} (h : s.mem.wf = true) (w : Option Nat) (pa : Nat) (l : List Byte) (a : Nat) :
    (devWrite s w pa l).mem.wf = true
      ∧ readByte (devWrite s w pa l).mem a = if pa ≤ a ∧ a < pa + l.length then l.getD (a - pa) 0 else readByte s.mem a :=
  ⟨wf_writeBytes h pa l, readByte_writeBytes h pa a l⟩

/-- The four memories that an event or a performed store can write. -/
abbrev State.memsWf (s : State) : Prop := s.mem.wf = true ∧ s.hostMem.wf = true ∧ s.hostif.ring.missed.wf = true

/-- A record that is placed changes host memory, the ring and its vector, and nothing else (R401, R402). -/
theorem placeRecord_frame (s : State) (seq : BitVec 32) (l : List Byte) :
    ∃ m r raised pba, placeRecord s seq l
      = { s with hostMem := m, hostif := { s.hostif with ring := r, raised := raised, pba := pba } } := by
  unfold placeRecord HostIf.interrupt
  dsimp only
  split
  · split <;> exact ⟨_, _, _, _, rfl⟩
  · exact ⟨_, _, _, _, rfl⟩

/-- An event waits for the lease holder, or its record is placed; either way it has taken its `seq` (R401, R439). -/
theorem emit_cases (s : State) (type ctx queue a b c : Nat) :
    let r := s.hostif.ring
    let l := eventRecord r.seq.toNat type ctx queue a b c
    (r.en = true ∧ duties s = false ∧ s.emit type ctx queue a b c = s.setRing { r with seq := r.seq + 1, waiting := r.waiting ++ [(r.seq, l)] })
      ∨ (¬ (r.en = true ∧ duties s = false) ∧ s.emit type ctx queue a b c = placeRecord (s.setRing { r with seq := r.seq + 1 }) r.seq l) := by
  dsimp only
  by_cases h : s.hostif.ring.en = true ∧ duties s = false
  · exact .inl ⟨h.1, h.2, if_pos h⟩
  · exact .inr ⟨h, if_neg h⟩

/-- A record that is placed keeps every memory canonical. -/
theorem placeRecord_memsWf {s : State} (h : s.memsWf) (seq : BitVec 32) (l : List Byte) : (placeRecord s seq l).memsWf := by
  unfold placeRecord
  dsimp only
  split
  · exact ⟨h.1, wf_writeBytes h.2.1 _ _, h.2.2⟩
  · exact ⟨h.1, h.2.1, wf_writeBytes h.2.2 _ _⟩

/-- An event writes the ring in host memory or the missed-event buffer, or waits, and keeps both canonical (R401, R402, R439). -/
theorem emit_memsWf {s : State} (h : s.memsWf) (type ctx queue a b c : Nat) : (s.emit type ctx queue a b c).memsWf := by
  obtain ⟨-, -, e⟩ | ⟨-, e⟩ := emit_cases s type ctx queue a b c
  · rw [e]; exact h
  · rw [e]
    apply placeRecord_memsWf
    exact h

/-- An event changes host memory, the ring and its vector, and nothing else. -/
theorem emit_frame (s : State) (type ctx queue a b c : Nat) :
    ∃ m r raised pba, s.emit type ctx queue a b c
      = { s with hostMem := m, hostif := { s.hostif with ring := r, raised := raised, pba := pba } } := by
  obtain ⟨-, -, e⟩ | ⟨-, e⟩ := emit_cases s type ctx queue a b c
  · exact ⟨_, _, _, _, e⟩
  · obtain ⟨m, r, raised, pba, p⟩ := placeRecord_frame (s.setRing { s.hostif.ring with seq := s.hostif.ring.seq + 1 }) s.hostif.ring.seq
      (eventRecord s.hostif.ring.seq.toNat type ctx queue a b c)
    exact ⟨m, r, raised, pba, e.trans p⟩

@[simp] theorem emit_harts (s : State) (type ctx queue a b c : Nat) : (s.emit type ctx queue a b c).harts = s.harts := by
  obtain ⟨_, _, _, _, e⟩ := emit_frame s type ctx queue a b c
  rw [e]

theorem hostWrite_memsWf {s : State} (h : s.memsWf) (agent a : Nat) (l : List Byte) : (hostWrite s agent a l).memsWf := by
  unfold hostWrite
  split
  · exact emit_memsWf h ..
  · exact ⟨h.1, wf_writeBytes h.2.1 _ _, h.2.2⟩

theorem performStore_memsWf {s : State} (h : s.memsWf) (agent : Nat) (p : PStore) : (performStore s agent p).memsWf := by
  unfold performStore
  split
  · exact ⟨wf_writeBytes h.1 _ _, h.2⟩
  · exact hostWrite_memsWf h ..
  · exact h

/-- Performing a core's stores keeps every memory canonical. -/
theorem performWhere_memsWf {s : State} (h : s.memsWf) (agent : Nat) (f : PStore → Bool) : (performWhere s agent f).memsWf := by
  unfold performWhere
  dsimp only
  have : ∀ (l : List PStore) (u : State), u.memsWf → (l.foldl (fun s p => performStore s agent p) u).memsWf := by
    intro l
    induction l with
    | nil => exact fun _ hu => hu
    | cons p r ih => exact fun u hu => ih _ (performStore_memsWf hu agent p)
  exact this _ _ h

/-- A release keeps every memory canonical (R293). -/
theorem release_memsWf {s : State} (h : s.memsWf) (scope : Nat) : (release s scope).memsWf := by
  unfold release
  split <;> exact performWhere_memsWf h _ _

/-- Performing a core's stores changes no hart. -/
@[simp] theorem performStore_harts (s : State) (agent : Nat) (p : PStore) : (performStore s agent p).harts = s.harts := by
  unfold performStore
  split
  · rfl
  · unfold hostWrite
    split
    · exact emit_harts ..
    · rfl
  · rfl

@[simp] theorem performWhere_harts (s : State) (agent : Nat) (f : PStore → Bool) : (performWhere s agent f).harts = s.harts := by
  unfold performWhere
  dsimp only
  have : ∀ (l : List PStore) (u : State), (l.foldl (fun s p => performStore s agent p) u).harts = u.harts := by
    intro l
    induction l with
    | nil => exact fun _ => rfl
    | cons p r ih => exact fun u => by rw [List.foldl_cons, ih, performStore_harts]
  exact this _ _

@[simp] theorem release_harts (s : State) (scope : Nat) : (release s scope).harts = s.harts := by
  unfold release
  split <;> exact performWhere_harts ..

/-! ## Reset -/

/-- Reset memories are canonical: they list nothing. -/
theorem reset_memsWf : State.reset.memsWf := ⟨rfl, rfl, rfl⟩

end Sys2Proof.Machine
end

