-- ==== Sys2Proof/Tests/Slice0.lean ====
section
/-! SUPPORT. Tests of the model: ill-formed instructions, words written out from the spec, single steps whose results are the spec's or are worked
out by hand, and, for every obligation with hypotheses, states that meet them. -/

namespace Sys2Proof.Tests

set_option Elab.async false

open Sys2Proof Sys2Proof.Machine

/-! ## Ill-formed instructions are refused -/

/-- One ill-formed instruction for each check of `Instr.wellFormed`, and an event and an illegal word, which have no word. -/
theorem test_ill_formed :
    ∀ i ∈ [Instr.lx 1 2 3 7, .sx 1 2 3 1, .lsp 1 2 3 7, .ssp 1 2 3 3, .amoswapD 1 2 3 6 0, .amoaddF32 1 2 3 7 0, .ldaW 1 2 6, .staD 1 2 6,
        .fence 6 1, .fence 0 0, .vcvt 1 2 0 false 0 1 1, .vcvt 1 2 0 false 1 1 0, .vbsq 1 2 3 0 false 3, .vbsdq 1 2 3 0 false 3],
      i.wellFormed = false := by decide +kernel

theorem test_ill_formed_vector :
    ∀ i ∈ [Instr.vredsum 1 2 3 0 false true true, .vfredt 1 2 3 0 false true true, .vld 1 2 0 1 true false 0 0, .vldCw 1 2 0 0 false false 0 0,
        .vst 1 2 0 1 true false 0 false 0, .vstm 1 2 0 0 false 1 false 0, .vpin 0 1 2 1, .vpin 1 1 2 0, .vunpin 0, .vspill 1 2 2 0 false,
        .vspill 8 2 1 0 false, .vfill 8 2 1 0 false],
      i.wellFormed = false := by decide +kernel

theorem test_ill_formed_units :
    ∀ i ∈ [Instr.mmul 0 8 16 9 false false false, .mmul 0 8 16 1 false true false, .mmulBs 0 8 16 3 false false false, .mzero 0 2 false,
        .mcvt 0 8 0 false, .mdrain 0 1 2 5 false, .tsample 1 2 3 0 false 0, .rquery 1 2 3 0 false 0, .powerOn, .illegalEncoding 0],
      i.wellFormed = false := by decide +kernel

/-! ## Words written out from the spec's encodings -/

/-- Major 0x08, rd = 5, imm21 = 2 (R102). -/
theorem test_decode_auipc : decode 0x20A00002 = .ok (.auipc 5 2) := by decide +kernel

/-- Major 0x04, rd = 5, rs1 = 5, imm16 = 0xA7F0 (R102). -/
theorem test_decode_addi : decode 0x10A5A7F0 = .ok (.addi 5 5 0xA7F0) := by decide +kernel

/-- Major 0x0B, rs1 = 5, rs2 = 0, offset -3 words (R103). -/
theorem test_decode_beq : decode 0x2CA0FFFD = .ok (.beq 5 0 0xFFFD) := by decide +kernel

/-- Major 0x01 with operation 0 in func: `add x1, x2, x3` (R99). -/
theorem test_decode_add : decode (BitVec.ofNat 32 (0x01 * 2 ^ 26 + 1 * 2 ^ 21 + 2 * 2 ^ 16 + 3 * 2 ^ 11)) = .ok (.add 1 2 3) := by decide +kernel

/-- Major 0x17, func[5:0] of `amoadd.d`, scope 5, ordering 3: the spec's own word (R111). -/
theorem test_decode_amoadd : decode 0x5CA63DC1 = .ok (.amoaddD 5 6 7 5 3) := by decide +kernel

/-- Major 0x20, func7 of `vshape`, width code 2 (R125). -/
theorem test_decode_vshape : decode 0x80A63802 = .ok (.vshape 5 6 7 2) := by decide +kernel

/-- Major 0x27 with m2 and C (R131). -/
theorem test_decode_vfadd : decode 0x9D088281 = .ok (.vfadd 8 8 16 2 true false 1) := by decide +kernel

/-- The spec's own sum of the fields of `vsgt.w m1, v2, x9` (R129). -/
theorem test_decode_vsgt :
    decode (BitVec.ofNat 32 (0x94000000 + 0x00200000 + 0x00020000 + 0x4800 + 0x36)) = .ok (.vsgt 1 2 9 0 false true 2) := by decide +kernel

/-- The spec's own sum of the fields of `^vexit x10, m1` (R138). -/
theorem test_decode_vexit : decode (BitVec.ofNat 32 (0xB8000000 + 0x01400000 + 0x00010000 + 0x80 + 0x68)) = .ok (.vexit 10 1 true) := by decide +kernel

/-- `^vld.w.col v8, [x5], k0, m3` (R151). -/
theorem test_decode_vld : decode 0xC10500DA = .ok (.vld 8 5 0 0 true true 3 2) := by decide +kernel

/-- `vpin k2` with permissions 3 (R147). -/
theorem test_decode_vpin : decode 0xD4653207 = .ok (.vpin 3 5 6 2) := by decide +kernel

theorem test_decode_msend : decode 0xE92A5800 = .ok (.msend 9 10 11) := by decide +kernel

theorem test_decode_scopyin : decode 0xECA63C80 = .ok (.scopyin 5 6 7 4 2) := by decide +kernel

theorem test_decode_tend : decode 0xF0000008 = .ok .tend := by decide +kernel

theorem test_decode_rquery : decode 0xF608A0A4 = .ok (.rquery 16 8 20 0 true 4) := by decide +kernel

/-- A word of zeros is an illegal encoding whose major is unassigned (R84). -/
theorem test_decode_zero : decode 0 = .error 1 := by decide +kernel

/-- The encoder writes the words that the decoder reads. -/
theorem test_encode : encode (.addi 5 5 0xA7F0) = some 0x10A5A7F0 ∧ encode (.vexit 10 1 true) = some 0xB94100E8 ∧ encode .tend = some 0xF0000008 := by
  decide +kernel

theorem test_decodeTableWord : decodeTableWord 32 0x20A00002 = some (.auipc 5 2) ∧ decodeTableWord 32 0 = none := by decide +kernel
/-! ## Small states -/

/-- A core's hart that runs a task of channel 3 at a level, with pc 0x1000, x5 = 8, x6 = 0x2000, x7 = 3, x8 = 0x2001 and a shape of one row of
four 32-bit elements; handlers at 0x8000 and 0x9000. -/
def hart (priv : BitVec 2) : Hart :=
  { Hart.reset with
    run := .task 3, pc := 0x1000
    x := ((((Vector.replicate 32 0).set 5 8).set 6 0x2000).set 7 3).set 8 0x2001
    shape := { Shape.reset with vl := 4, sew := 2 }
    trap := { TrapRegs.reset with status := { Status.reset with priv := priv }, tvec := 0x8000, mtvec := 0x9000 } }

/-- Hart 0 of site 0 executes it; its core holds logical (1, 0). -/
def one (h : Hart) : State :=
  { State.reset with
    cur := 0, harts := [(0, h)]
    cores := [(0, { Core.reset with coreid := 1, asg := { valid := true, spare := false, coord := 1 } })] }

/-- At M, where addresses are physical. -/
def atM : State := one (hart 3)

def atU : State := one (hart 0)

/-- The hart's lane 0 of a region of 2 words from 0x1000, lane 1 of it joined. -/
def inLane0 : State :=
  { one { hart 3 with lanes := some { base := 0x1000, n := 2, lanes := ((Vector.replicate 16 { started := false, joined := false, pc := 0 }).set 0
      { started := true, joined := false, pc := 0x1000 }).set 1 { started := true, joined := true, pc := 0x1004 } } } with lane := some 0 }

/-- The checker is armed with an expected value that no word gives at once. -/
def armed (p : BitVec 2) : State := one { hart p with checker := .armed 0xFFC 0x1FFFFF 0 false }

theorem lane_of_inLane0 : ∃ r, InLane inLane0 0 r := ⟨_, rfl, by decide, rfl⟩

/-! ## Single steps -/

/-- The state an instruction leaves, or the state itself where it stops. -/
def after (i : Instr) (s : State) : State := match exec i s with | .next t => t | _ => s

/-- 8 + 3 = 11; pc + 4. -/
theorem test_add : (after (.add 9 5 7) atM).x 9 = 11 ∧ (after (.add 9 5 7) atM).pc = 0x1004 := by decide +kernel

/-- x0 stays zero (R19). -/
theorem test_add_x0 : (after (.add 0 5 7) atM).x 0 = 0 := by decide +kernel

/-- 8 - 9 wraps to all ones at 32 bits, sign-extended. -/
theorem test_addi_negative : (after (.addi 9 5 0xFFF7) atM).x 9 = 0xFFFFFFFFFFFFFFFF := by decide +kernel

/-- Division by zero gives all ones, and the remainder the dividend (R100). -/
theorem test_div_by_zero : (after (.div 9 5 0) atM).x 9 = 0xFFFFFFFFFFFFFFFF ∧ (after (.rem 9 5 0) atM).x 9 = 8 := by decide +kernel

/-- A branch taken goes 3 words back from 0x1000. -/
theorem test_beq_back : (after (.beq 5 5 0xFFFD) atM).pc = 0xFF4 := by decide +kernel

theorem test_jal_links : (after (.jal 1 4) atM).x 1 = 0x1004 ∧ (after (.jal 1 4) atM).pc = 0x1010 := by decide +kernel

/-- A store of 3 is read back by the load after it, and its byte lies at the lowest address. -/
theorem test_store_load : (after (.lbz 9 6 0) (after (.sd 7 6 0) atM)).x 9 = 3 ∧ (after (.lbz 9 6 1) (after (.sd 7 6 0) atM)).x 9 = 0 := by decide +kernel

/-- A misaligned load traps with 0x0E0 and its address at M (R107). -/
theorem test_misaligned_load :
    (after (.ld 9 8 0) atM).h.trap.mcause = 0x0E0 ∧ (after (.ld 9 8 0) atM).h.trap.mtval = 0x2001 ∧ (after (.ld 9 8 0) atM).pc = 0x9000 := by
  decide +kernel

/-- `trap 7` at U takes cause 0x044 to M where nothing is delegated, and saves U (R232, R237). -/
theorem test_trap :
    (after (.trap 7) atU).h.trap.mcause = 0x044 ∧ (after (.trap 7) atU).h.trap.mtval = 7 ∧ (after (.trap 7) atU).h.trap.mepc = 0x1000
      ∧ (after (.trap 7) atU).priv = 3 ∧ (after (.trap 7) atU).h.trap.status.mpp = 0 := by decide +kernel

/-- `mret` at U traps with 0x043 (R233). -/
theorem test_mret_at_u : (after .mret atU).h.trap.mcause = 0x043 := by decide +kernel

/-- `vshape` grants 128 elements of 32 bits at most (R23). -/
theorem test_vshape : (after (.vshape 9 6 5 2) atM).x 9 = 128 ∧ (after (.vshape 9 6 5 2) atM).h.shape.vrows = 8 := by decide +kernel

/-- An atomic add returns the old value and leaves the sum in memory (R111). -/
theorem test_amoadd :
    (after (.amoaddD 9 6 7 5 3) atM).x 9 = 0 ∧ readLE (after (.amoaddD 9 6 7 5 3) atM).mem 0x2000 8 = 3 := by decide +kernel

/-- `sget` of the coordinate (R46), and of a number that names no register (R231). -/
theorem test_sget : (after (.sget 9 0x012) atM).pc = 0x1004 ∧ (after (.sget 9 0xBFF) atM).h.trap.mcause = 0x040 := by decide +kernel

/-- The first instruction after reset, placed by `withFetchWord`: `auipc x5, 2` at pc 0 writes 0x20000. -/
theorem test_first_step :
    (match step (State.reset.withFetchWord 32 0x20A00002) with | .next t => decide (t.x 5 = 0x20000 ∧ t.pc = 4) | _ => false) = true := by
  decide +kernel

/-! ## Witnesses: states that meet the hypotheses of each claim -/

theorem wit_IntegerResult : OneThread atM ∧ Spec.intResult (.add 9 5 7) atM = some (9, 11) ∧ OneThread inLane0 :=
  ⟨.inl rfl, by decide +kernel, .inr ⟨0, lane_of_inLane0⟩⟩

/-- 1.0 + 1.0 would need registers of ones; here 0 + 0 in FP32 is +0 with ones above it. -/
theorem wit_FloatResult : OneThread atM ∧ Spec.fpResult (.faddF32 9 0 0) atM = some (9, 0xFFFFFFFF00000000, 0) := ⟨.inl rfl, by decide +kernel⟩

theorem wit_ControlTransfer :
    OneThread atM ∧ Spec.transfer (.beq 5 5 0xFFFD) atM = some (0xFF4, 0) ∧ Spec.transfer (.jalr 1 6 4) atM = some (0x2004, 1)
      ∧ atM.checkerNext.differs = false := ⟨.inl rfl, by decide +kernel⟩

theorem wit_MisalignedJump : OneThread atM ∧ (atM.x 6 + BitVec.signExtend 64 (2 : BitVec 16)).toNat % 4 ≠ 0 := ⟨.inl rfl, by decide +kernel⟩

theorem wit_TrapEntry : OneThread atU ∧ OneThread inLane0 := ⟨.inl rfl, .inr ⟨0, lane_of_inLane0⟩⟩

theorem wit_IllegalEncoding : OneThread atM ∧ subOf 0 ≠ 0 ∧ subOf 0xFFFFFFFF ≠ 0 := ⟨.inl rfl, by decide +kernel⟩

theorem wit_SoftwareTraps : atM.lane = none := rfl

theorem wit_ReturnFromTrap :
    (atU.lane = none ∧ atU.priv = 0 ∧ atU.priv ≠ 3)
      ∧ ((one (hart 1)).checkerNext.differs = false ∧ (one (hart 1)).priv ≠ 0) ∧ (atM.checkerNext.differs = false ∧ atM.priv = 3)
      ∧ ((armed 1).checkerNext.differs = true ∧ (armed 1).priv ≠ 0) ∧ ((armed 3).checkerNext.differs = true ∧ (armed 3).priv = 3) := by
  decide +kernel

/-- Nothing is on its way from a core of `one`. -/
theorem stores_of_one (h : Hart) (k : Nat) : Spec.StoresInLine (one h) k := by
  intro q hq
  have e : ((one h).coreOf k).pstores = [] := by
    by_cases hk : k = 0
    · subst hk; rfl
    · simp [State.coreOf, one, smGet, Ne.symm hk, Core.reset]
  rw [e] at hq; cases hq

theorem wit_ScalarLoad :
    ∃ p : Place, OneThread atM ∧ Spec.loadForm (.ld 9 6 0) atM = some (9, 0x2000, 8, false) ∧ place atM 0x2000 8 0 = .ok (p, atM)
      ∧ Spec.readable atM p.loc 8 ∧ atM.mem.wf = true ∧ Spec.StoresInLine atM atM.agent :=
  ⟨{ loc := .dev 0x2000, io := false, level := 0 }, .inl rfl, by decide +kernel, rfl, by simp [Spec.readable]; decide, rfl, stores_of_one _ _⟩

theorem wit_ScalarStore :
    ∃ p : Place, OneThread atM ∧ Spec.storeForm (.sd 7 6 0) atM = some (0x2000, 8, 3, atM) ∧ place atM 0x2000 8 1 = .ok (p, atM)
      ∧ (∀ a, p.loc ≠ .ctl a) ∧ atM.mem.wf = true ∧ atM.hostMem.wf = true ∧ atM.c.sp.wf = true ∧ Spec.StoresInLine atM atM.agent :=
  ⟨{ loc := .dev 0x2000, io := false, level := 0 }, .inl rfl, rfl, rfl, by simp, rfl, rfl, rfl, stores_of_one _ _⟩

/-- x6 names `mtvec` of hart 0 of site 1 in control space; x8 is its new value, and x0 an offset of 0. -/
def atCtl : State := one { hart 3 with x := ((Vector.replicate 32 0).set 6 (BitVec.ofNat 64 (2 ^ 50 + 0x10180300))).set 8 0x2001 }

theorem wit_ControlStore :
    ∃ p : Place, OneThread atCtl ∧ Spec.storeForm (.sd 8 6 0) atCtl = some (BitVec.ofNat 64 (2 ^ 50 + 0x10180300), 8, 0x2001, atCtl)
      ∧ place atCtl (BitVec.ofNat 64 (2 ^ 50 + 0x10180300)) 8 1 = .ok (p, atCtl) ∧ p.loc = .ctl (2 ^ 32 * 0 + 0x10000000 + 0x100000 * 1 + (0x80300 + 8 * 0)) :=
  ⟨{ loc := .ctl 0x10180300, io := false, level := 0 }, .inl rfl, rfl, rfl, rfl⟩

/-- `mtvec` of hart 8 takes the address without its low two bits, and the storing hart goes on (R443, R462). -/
theorem test_sd_control : ((after (.sd 8 6 0) atCtl).hartOf 8).trap.mtvec = 0x2000 ∧ (after (.sd 8 6 0) atCtl).pc = 0x1004 := by decide +kernel

/-- A word of a scratchpad's window, a store of one byte and an atomic. -/
theorem wit_ControlStore_sp :
    (place atCtl (BitVec.ofNat 64 (2 ^ 50 + 0x1013FFFC)) 4 1).toOption.map (·.1.loc) = some (.ctl (2 ^ 32 * 0 + 0x10000000 + 0x100000 * 1 + 0x3FFFC))
      ∧ (atCtl.coreOf 1).sp.wf = true ∧ Spec.storeForm (.sx 8 6 0 0) atCtl = some (BitVec.ofNat 64 (2 ^ 50 + 0x10180300), 1, 0x2001, atCtl)
      ∧ (∃ f, Spec.atomForm (.amoaddD 9 6 8 1 0) atCtl = some f ∧ f.ea.toNat = 2 ^ 50 + 0x10180300) ∧ atCtl.h.trap.status.priv = 3 :=
  ⟨by decide +kernel, by decide +kernel, rfl, ⟨_, rfl, by decide +kernel⟩, rfl⟩

/-- A store to the last place before the host's part of the physical addresses, and a host store. -/
theorem wit_ScalarStore_host : ∃ p : Place, place atM (BitVec.ofNat 64 (2 ^ 51)) 8 1 = .ok (p, atM) ∧ p.loc = .host 0 :=
  ⟨{ loc := .host 0, io := false, level := 0 }, rfl, rfl⟩

theorem wit_StoresPerformed :
    let s := { atM with cores := [(0, { Core.reset with pstores := [{ hart := 0, loc := .dev 0x2000, data := [1] }, { hart := 0, loc := .host 0, data := [2] }] })] }
    ∃ p q : PStore, (s.coreOf 0).pstores = [] ++ p :: [q] ∧ p.loc = .dev 0x2000 ∧ s.mem.wf = true
      ∧ (s.coreOf 0).pstores = [p] ++ q :: [] ∧ p.before q = false ∧ q.loc = .host 0 ∧ s.hostMem.wf = true ∧ hostRefuses s 0 0 true = false :=
  ⟨{ hart := 0, loc := .dev 0x2000, data := [1] }, { hart := 0, loc := .host 0, data := [2] }, rfl, rfl, rfl, rfl, by decide +kernel, rfl, rfl, by decide +kernel⟩

/-- The first address beyond the lower half, and a misaligned one inside it. -/
theorem wit_AccessFault :
    OneThread atM ∧ Spec.loadForm (.ld 9 6 0) atM = some (9, 0x2000, 8, false) ∧ (2 ^ 55 : Nat) / 2 ^ 55 ≠ 0 ∧ (2 ^ 55 : Nat) / 2 ^ 55 ≠ 511
      ∧ Spec.storeForm (.sd 7 8 0) atM = some (0x2001, 8, 3, atM) ∧ (0x2001 : Word).toNat / 2 ^ 55 = 0 ∧ (0x2001 : Word).toNat % 8 ≠ 0
      ∧ ∃ f, Spec.atomForm (.amoaddD 9 8 7 1 0) atM = some f ∧ f.ea = 0x2001 ∧ f.size = 8 ∧ f.start = atM :=
  ⟨.inl rfl, by decide +kernel, by decide, by decide, rfl, by decide, by decide, _, rfl, rfl, rfl, rfl⟩

theorem wit_AtomicResult :
    ∃ f : Spec.AtomForm, ∃ p : Place, OneThread atM ∧ Spec.atomForm (.amoaddD 9 6 7 1 0) atM = some f
      ∧ place f.start f.ea f.size 3 = .ok (p, atM) ∧ p.loc = .dev 0x2000 ∧ p.io = false
      ∧ poisonAt (bypass atM atM.agent 0x2000 f.size) 0x2000 f.size = none ∧ atM.mem.wf = true ∧ Spec.StoresInLine atM atM.agent :=
  ⟨_, { loc := .dev 0x2000, io := false, level := 0 }, .inl rfl, rfl, rfl, rfl, rfl, by decide +kernel, rfl, stores_of_one _ _⟩

theorem wit_AtomicFloatAdd :
    ∃ p : Place, OneThread atM ∧ place (if 2 ≤ (0 : BitVec 2).toNat then Spec.released atM 1 else Spec.inMode atM) (atM.x 6) 4 3 = .ok (p, atM)
      ∧ p.loc = .dev 0x2000 ∧ p.io = false ∧ poisonAt (bypass atM atM.agent 0x2000 4) 0x2000 4 = none ∧ atM.mem.wf = true
      ∧ Spec.StoresInLine atM atM.agent :=
  ⟨{ loc := .dev 0x2000, io := false, level := 0 }, .inl rfl, rfl, rfl, rfl, by decide +kernel, rfl, stores_of_one _ _⟩

/-- x6 points to the first byte of host memory. -/
def atHost : State := one { hart 3 with x := (Vector.replicate 32 0).set 6 (BitVec.ofNat 64 (2 ^ 51)) }

/-- The host routes atomics of 8 bytes. -/
def routing : State := { atHost with hostif := { atHost.hostif with routing8 := true } }

/-- An atomic that is no AtomicOp, one of a size that is not routed, and one that the host takes. -/
theorem wit_HostAtomics :
    (∃ f : Spec.AtomForm, ∃ p : Place, OneThread atHost ∧ Spec.atomForm (.amoandD 9 6 7 1 0) atHost = some f
      ∧ place f.start f.ea f.size 3 = .ok (p, atHost) ∧ p.loc = .host 0 ∧ p.io = false ∧ f.hostOp = false)
      ∧ (∃ f : Spec.AtomForm, Spec.atomForm (.amoaddW 9 6 7 1 0) routing = some f ∧ f.size = 4 ∧ routing.hostif.routing4 = false)
      ∧ ∃ f : Spec.AtomForm, ∃ p : Place, OneThread routing ∧ Spec.atomForm (.amoaddD 9 6 7 1 0) routing = some f
        ∧ place f.start f.ea f.size 3 = .ok (p, routing) ∧ p.loc = .host 0 ∧ p.io = false ∧ f.hostOp = true ∧ f.size = 8 ∧ routing.hostif.routing8 = true
        ∧ ((hostPage routing (hostPlace routing routing.agent 0)).atomicOk && !hostRefuses routing routing.agent 0 true) = true
        ∧ routing.hostMem.wf = true :=
  ⟨⟨_, { loc := .host 0, io := false, level := 0 }, .inl rfl, rfl, rfl, rfl, rfl, rfl⟩, ⟨_, rfl, rfl, rfl⟩,
    ⟨_, { loc := .host 0, io := false, level := 0 }, .inl rfl, rfl, rfl, rfl, rfl, rfl, rfl, rfl, by decide +kernel, rfl⟩⟩

theorem wit_HostFloatAddRefused :
    ∃ p : Place, OneThread atHost ∧ place (if 2 ≤ (3 : BitVec 2).toNat then Spec.released atHost 5 else Spec.inMode atHost) (atHost.x 6) 4 3 = .ok (p, atHost)
      ∧ p.loc = .host 0 ∧ p.io = false := ⟨{ loc := .host 0, io := false, level := 0 }, .inl rfl, rfl, rfl, rfl⟩

theorem wit_Fences : OneThread atM ∧ atM.lane = none ∧ 2 ≤ (2 : BitVec 3).toNat := ⟨.inl rfl, rfl, by decide⟩

theorem wit_CacheMaintenance :
    (∃ l, maintPlace atM (atM.x 6) = .ok (l, atM)) ∧ atM.priv ≠ 0 ∧ atU.lane = none ∧ atU.priv = 0 := ⟨⟨.dev 0x2000, rfl⟩, by decide +kernel⟩

/-- The last 8 bytes of the scratchpad; a store of a word there by a hart in strong mode, whose core has a store on its way. -/
def atEnd (strong : Bool) : State :=
  let h := hart 3
  let s := one { h with x := (Vector.replicate 32 0).set 9 0x3FFF8
                        trap := { h.trap with status := { h.trap.status with mmstrong := strong } } }
  { s with cores := [(0, { s.c with pstores := [{ hart := 0, loc := .dev 0x2000, data := [1] }], spBad := [0] })] }

theorem wit_ScratchpadLoadAndStore :
    (∀ b, OneThread (atEnd b) ∧ (atEnd b).c.sp.wf = true ∧ ((atEnd b).x 9 + (atEnd b).x 0).toNat < 0x40000
        ∧ ((atEnd b).x 9 + (atEnd b).x 0).toNat % 8 = 0 ∧ ((atEnd b).x 0 + (atEnd b).x 0).toNat % 8 = 0
        ∧ (∀ x ∈ (atEnd b).c.spBad, ¬ (0x3FFF8 / 4 ≤ x ∧ x ≤ (0x3FFF8 + 8 - 1) / 4)) ∧ (atEnd b).h.trap.status.mmstrong = b) := by
  intro b; cases b <;> exact ⟨.inl rfl, by decide +kernel⟩

/-- Offsets 8 + 3 (misaligned for 4 bytes), 0x2000 + 8 and one beyond the scratchpad. -/
theorem wit_ScratchpadAccess :
    OneThread atM ∧ atM.c.sp.wf = true ∧ (atM.x 5 + atM.x 7).toNat % 4 ≠ 0 ∧ (atM.x 6 + atM.x 5).toNat < 0x40000
      ∧ (atM.x 6 + atM.x 5).toNat % 8 = 0 ∧ (∀ x ∈ atM.c.spBad, ¬ (x = 0)) ∧ 0x40000 ≤ (atHost.x 6 + atHost.x 0).toNat
      ∧ atM.h.trap.status.mmstrong = false := ⟨.inl rfl, by decide +kernel⟩

theorem wit_BlockSignature :
    (atM.agent < 4096 ∧ atM.h.trap.status.sigen = true ∧ atM.h.checker.differs = false)
      ∧ (armed 3).h.checker.differs = true ∧ (armed 3).h.checker = .armed 0xFFC 0x1FFFFF 0 false
      ∧ Spec.transfer (.jal 1 4) (armed 3) = some (0x1010, 1) ∧ (armed 3).checkerNext.differs = true
      ∧ (let h := hart 3
         (one { h with trap := { h.trap with status := { h.trap.status with sigen := false } } }).h.trap.status.sigen = false) := by decide +kernel

theorem wit_LaneSignature : ∃ r, InLane inLane0 0 r := lane_of_inLane0

/-- `beq x5, x0, -3` lies at the pc of an armed hart, or of an idle one: x5 is not 0, so it goes on at 0x1004, and an upset takes it to 0xFF4. -/
def branching (k : Checker) : State := { one { hart 3 with checker := k } with mem := writeBytes [] 0x1000 (leBytes 4 0x2CA0FFFD) }

theorem wit_WrongTransfer :
    ∀ k ∈ [Checker.armed 0xFFC 0x1FFFFF 0 false, .idle], ∃ s u, s = branching k ∧ s.lane = none ∧ s.h.lanes = none ∧ asyncTurn s = none
      ∧ Spec.onTask s.h ∧ s.agent < 4096 ∧ s.atFirmware = false ∧ fetch s = .ok (0x2CA0FFFD, u) ∧ decode 0x2CA0FFFD = .ok (.beq 5 0 0xFFFD)
      ∧ Spec.transfer (.beq 5 0 0xFFFD) { u with word := 0x2CA0FFFD } = some (0x1004, 0) ∧ (0xFF4 : Word) ≠ 0x1004
      ∧ (0xFF4 : Word) = BitVec.ofInt 64 (u.pc.toInt + 4 * (0xFFFD : BitVec 16).toInt)
      ∧ ((∃ b e r, ({ u with word := 0x2CA0FFFD } : State).checkerNext = .armed b e r false) ∨ ({ u with word := 0x2CA0FFFD } : State).checkerNext = .idle) := by
  intro k hk
  have hk : k = .armed 0xFFC 0x1FFFFF 0 false ∨ k = .idle := by simpa using hk
  obtain rfl | rfl := hk
  · exact ⟨_, _, rfl, rfl, rfl, by decide +kernel, ⟨3, rfl⟩, by decide +kernel, by decide +kernel, rfl, by decide +kernel, by decide +kernel, by decide,
      by decide +kernel, .inl ⟨_, _, _, rfl⟩⟩
  · exact ⟨_, _, rfl, rfl, rfl, by decide +kernel, ⟨3, rfl⟩, by decide +kernel, by decide +kernel, rfl, by decide +kernel, by decide +kernel, by decide,
      by decide +kernel, .inr rfl⟩

/-- `sget` and `sput` of a register of each level, of none, and of a value `frm` does not take. -/
theorem wit_SystemRegisterRead :
    atM.lane = none ∧ (∃ v, Spec.sysValue atM 0x010 = some v) ∧ Spec.levelAllows atM 0x010 ∧ Spec.sysValue atM 0xBFF = none :=
  ⟨rfl, ⟨_, rfl⟩, by decide +kernel⟩

theorem wit_SystemRegisterWrite :
    Spec.writable atM 0x010 ∧ Spec.levelAllows atM 0x010 ∧ (atM.x 5).toNat % 8 ≤ 4 ∧ 4 < (atHost.x 6 + 5).toNat % 8 ∧ ¬ Spec.writable atM 0xBFF := by
  decide +kernel

/-- Level U; a core's hart at M with and without a pending clear; a basin controller with and without an event; a cistern. -/
theorem wit_HaltInstruction :
    (atU.lane = none ∧ atU.priv ≠ 3) ∧ (atM.priv = 3 ∧ atM.agent < 4096 ∧ atM.checkerNext.differs = false ∧ atM.cur % 8 = 0 ∧ atM.c.clrPending = false)
      ∧ (let s := { State.reset with cur := 8 * 4096 }
         s.priv = 3 ∧ 4096 ≤ s.agent ∧ s.agent < 4160 ∧ (s.basin (s.agent - 4096)).ncev = [])
      ∧ (State.reset.priv = 3 ∧ 4160 ≤ State.reset.agent) := by decide +kernel
/-! ## Witnesses: vector, vector memory and matrix instructions -/

/-- No earlier member stands in the way of a hart whose next vector instruction starts a convoy. -/
theorem joins_fresh (h : Hart) (hf : h.fresh = true) (c : Claim) : Spec.Joins (one h) c := by
  intro m hm
  have e : (one h).h.fresh = true := hf
  simp [Spec.convoyBefore, e] at hm

theorem shape_atM : Spec.ShapeOk atM.h.shape := by decide +kernel

/-- Reserved widths, and requests below, at and beyond what a row holds. -/
theorem wit_ShapeGrant : atM.lane = none ∧ 3 < (4 : BitVec 3).toNat ∧ (3 : BitVec 3).toNat ≤ 3 := by decide +kernel

theorem wit_VectorElements :
    ∃ f, atM.lane = none ∧ Spec.ShapeOk atM.h.shape ∧ Spec.elemForm (.vadd 4 8 12 0 true false 2) atM = some f ∧ f.legal = true ∧ Spec.Joins atM f.claim :=
  ⟨_, rfl, shape_atM, rfl, by decide +kernel, joins_fresh _ rfl _⟩

theorem wit_VectorMasks :
    ∃ f, Spec.maskForm (.vsgt 1 4 8 0 true false 2) atM = some f ∧ f.legal = true ∧ Spec.Joins atM f.claim :=
  ⟨_, rfl, by decide +kernel, joins_fresh _ rfl _⟩

/-- A width that is not the shape's. -/
theorem wit_VectorIllegalOperand :
    (∃ f, Spec.elemForm (.vadd 4 8 12 0 true false 3) atM = some f ∧ f.legal = false)
      ∧ ∃ f, Spec.maskForm (.vsgt 1 4 8 0 true false 3) atM = some f ∧ f.legal = false := ⟨⟨_, rfl, by decide +kernel⟩, ⟨_, rfl, by decide +kernel⟩⟩

/-- A convoy whose one member wrote v8, which a permutation reads across groups. -/
def chained : State :=
  one { hart 3 with fresh := false, convoy := [{ addr := 0xFF0, units := 0, vregs := [8], mregs := [] }] }

theorem wit_IllegalConvoy :
    ∃ f m, chained.lane = none ∧ Spec.ShapeOk chained.h.shape ∧ Spec.elemForm (.vrgather 4 8 12 0 false false 2) chained = some f ∧ f.legal = true
      ∧ Spec.convoyBefore chained f.claim = [] ++ m :: [] ∧ Spec.Clash m f.claim :=
  ⟨_, { addr := 0xFF0, units := 0, vregs := [8], mregs := [] }, rfl, by decide +kernel, rfl, by decide +kernel, by decide +kernel,
    .inr ⟨rfl, .inl ⟨8, by decide +kernel, by decide +kernel⟩⟩⟩

theorem wit_MaskScans : Spec.StartOk atM ∧ Spec.Joins atM (Spec.claimPerm true [1] [] []) := ⟨by decide +kernel, joins_fresh _ rfl _⟩

/-- x6 names element 4 of row 0, behind the tile. -/
def pastTile : State := one { hart 3 with x := (Vector.replicate 32 0).set 6 4 }

theorem wit_ScalarVectorMoves_trap :
    pastTile.lane = none ∧ Spec.ShapeOk pastTile.h.shape ∧ Spec.StartOk pastTile ∧ Spec.Group pastTile 8
      ∧ ¬ (Spec.row (pastTile.x 6) < pastTile.h.shape.vrows.toNat ∧ Spec.col (pastTile.x 6) < pastTile.h.shape.vl.toNat)
      ∧ ¬ (Spec.row (0x10000 : Word) < pastTile.h.shape.vrows.toNat) := by
  and_intros <;> first | rfl | decide +kernel

/-- Position (0, 3), the last element of the row. -/
theorem wit_ScalarVectorMoves :
    Spec.StartOk atM ∧ Spec.row (atM.x 7) < atM.h.shape.vrows.toNat ∧ Spec.col (atM.x 7) < atM.h.shape.vl.toNat ∧ Spec.Group atM 8
      ∧ Spec.Joins atM (Spec.claimPerm true [] (Spec.regs atM 8) []) ∧ Spec.Joins atM (Spec.claimPerm true [] [] (Spec.regs atM 8)) :=
  ⟨by decide +kernel, by decide +kernel, by decide +kernel, by decide +kernel, joins_fresh _ rfl _, joins_fresh _ rfl _⟩

theorem wit_IntegerReductions :
    ∃ c, Spec.intRedForm (.vredsum 4 8 0 0 true false false) = some (4, 8, 0, 0, c, false, false) ∧ Spec.redLegal atM 4 8 false false
      ∧ Spec.Joins atM (Spec.redClaim atM 4 8 0 c false false) :=
  ⟨true, rfl, by unfold Spec.redLegal; decide +kernel, joins_fresh _ rfl _⟩

theorem wit_FloatReductions :
    (∃ kind, Spec.fpRedForm (.vfredt 4 8 0 0 true false false) = some (4, 8, 0, 0, true, false, false, false, kind)) ∧ Spec.redLegal atM 4 8 false false
      ∧ Spec.sewOf atM ≠ 8 ∧ Spec.Joins atM (Spec.redClaim atM 4 8 0 true false false) :=
  ⟨⟨_, rfl⟩, by unfold Spec.redLegal; decide +kernel, by decide +kernel, joins_fresh _ rfl _⟩

theorem wit_Compress :
    atM.h.shape.vstart = 0 ∧ Spec.WidthIs atM 2 ∧ Spec.Group atM 4 ∧ Spec.Group atM 8 ∧ ¬ Spec.Overlap atM 4 8
      ∧ Spec.Joins atM (Spec.claimPerm true [1] (Spec.regs atM 8) (Spec.regs atM 4)) := by
  and_intros <;> first | decide +kernel | exact joins_fresh _ rfl _

theorem wit_BlockQuantize :
    Spec.StartOk atM ∧ Spec.sewOf atM = 32 ∧ Spec.Group atM 4 ∧ Spec.Group atM 8 ∧ Spec.Group atM 12 ∧ (4 : BitVec 5) ≠ 8 ∧ (12 : BitVec 5) ≠ 4
      ∧ (12 : BitVec 5) ≠ 8 ∧ Spec.Joins atM (Spec.claimWide true 1 (Spec.regs atM 8) (Spec.regs atM 4 ++ Spec.regs atM 12)) := by
  and_intros <;> first | decide +kernel | exact joins_fresh _ rfl _

/-- A load through k0 at offset 8 of the scratchpad; x5 = 8. -/
theorem wit_VectorLoads :
    ∃ f, Spec.vecLoadForm (.vld 4 5 0 0 false true 0 2) atM = some f ∧ f.legal = true ∧ Spec.Joins atM f.claim ∧ atM.mem.wf = true
      ∧ Spec.StoresInLine atM atM.agent ∧ Spec.NoFault atM f ∧ (∀ p ∈ f.at_, Spec.elementClean atM f.acc p.1 p.2) ∧ f.acc.token = 0 := by
  refine ⟨_, rfl, by decide +kernel, joins_fresh _ rfl _, rfl, stores_of_one _ _, by unfold Spec.NoFault; decide +kernel, ?_, rfl⟩
  intro p _ x hx; cases hx

/-- k1 is bound to 4 KiB of device memory from virtual address 0x2000, with every permission. -/
def pinned : State :=
  one { hart 3 with pins := (Vector.replicate 8 none).set 1 (some { base := 0x2000, len := 4096, perms := 7, holds := []
                                                                    pages := [{ va := 0x2000, size := 4096, pa := 0x6000, replica := false }] }) }

theorem wit_VectorLoads_pin :
    ∃ f, Spec.vecLoadForm (.vld 4 6 0 1 false true 0 2) pinned = some f ∧ f.legal = true ∧ Spec.NoFault pinned f
      ∧ (∀ p ∈ f.at_, f.acc.loc pinned p.1 p.2 = .dev (0x6000 + 4 * p.2) ∧ poisonAt pinned (0x6000 + 4 * p.2) 4 = none) :=
  ⟨_, rfl, by decide +kernel, by unfold Spec.NoFault; decide +kernel, by decide +kernel⟩

theorem wit_MaskFill :
    let f := Spec.formMaskFrame atM false 1 0 0 true
    atM.lane = none ∧ (1 : BitVec 5) ≠ 0 ∧ (1 : BitVec 5).toNat < 8 ∧ Spec.Joins atM f.claim ∧ Spec.NoFault atM f
      ∧ ∀ p ∈ f.at_, Spec.elementClean atM f.acc p.1 p.2 := by
  refine ⟨rfl, by decide, by decide, joins_fresh _ rfl _, by unfold Spec.NoFault; decide +kernel, ?_⟩
  intro p _ x hx; cases hx

theorem wit_VectorStores :
    ∃ f, atM.agent < 4096 ∧ Spec.vecStoreForm (.vst 4 5 0 0 false true 0 false 2) atM = some f ∧ f.legal = true ∧ Spec.Joins atM f.claim ∧ Spec.NoFault atM f
      ∧ f.unord = false ∧ f.acc.token = 0 ∧ atM.c.sp.wf = true ∧ atM.c.spBad = [] :=
  ⟨_, by decide +kernel, rfl, by decide +kernel, joins_fresh _ rfl _, by unfold Spec.NoFault; decide +kernel, rfl, rfl, rfl, rfl⟩

theorem wit_VectorStores_pin :
    ∃ f, Spec.vecStoreForm (.vst 4 6 0 1 false true 0 true 2) pinned = some f ∧ f.legal = true ∧ Spec.NoFault pinned f ∧ Spec.Disjoint pinned f
      ∧ f.acc.token ≠ 0 ∧ (∀ p ∈ Spec.storePlaces pinned f, ∀ h, p.1 = .host h → hostRefuses pinned pinned.agent h true = false) := by
  refine ⟨_, rfl, by decide +kernel, by unfold Spec.NoFault; decide +kernel, by unfold Spec.Disjoint; decide +kernel, by decide, ?_⟩
  intro p hp h e
  have : ∀ q ∈ Spec.storePlaces pinned (Spec.formStore pinned .unit 4 6 1 false true 0 2 true false), q.1.isHost = false := by decide +kernel
  have := this p hp
  rw [e] at this; cases this

/-- The first element beyond the scratchpad, and a token without a pin. -/
theorem wit_VectorAccessFault :
    (∃ f, Spec.vecLoadForm (.vld 4 6 0 0 false true 0 2) atHost = some f ∧ f.legal = true ∧ Spec.Joins atHost f.claim
      ∧ f.at_.findSome? (fun p => Spec.accessFault atHost f.acc p.1 p.2) = some (0x0E2, BitVec.ofNat 64 (2 ^ 51)))
    ∧ ∃ f, Spec.vecLoadForm (.vld 4 6 0 1 false true 0 2) atM = some f ∧ f.at_.findSome? (fun p => Spec.accessFault atM f.acc p.1 p.2) = some (0x080, 1) :=
  ⟨⟨_, rfl, by decide +kernel, joins_fresh _ rfl _, by decide +kernel⟩, ⟨_, rfl, by decide +kernel⟩⟩

/-- Indexes 0 in every element: the second position repeats the first address; in the `.dup` form that is permitted. -/
theorem wit_VectorAtomics :
    ∃ f op, Spec.atomAccess (.vamoaddW 4 6 8 1 true 0) pinned = some (f, false) ∧ Spec.atomOp (.vamoaddW 4 6 8 1 true 0) pinned = some op ∧ f.legal = true
      ∧ Spec.Joins pinned f.claim ∧ Spec.NoFault pinned f ∧ f.acc.token ≠ 0
      ∧ (∀ p ∈ f.at_, ∃ pa, f.acc.loc pinned p.1 p.2 = .dev pa ∧ poisonAt pinned pa f.acc.w = none)
      ∧ f.at_ = [(0, 0)] ++ (0, 1) :: [(0, 2), (0, 3)] ∧ f.acc.addr pinned 0 1 = f.acc.addr pinned 0 0 := by
  refine ⟨_, _, rfl, rfl, by decide +kernel, joins_fresh _ rfl _, by unfold Spec.NoFault; decide +kernel, by decide, ?_, by decide +kernel, by decide +kernel⟩
  intro p hp
  exact ⟨0x6000, by revert p hp; decide +kernel⟩

/-- m1 holds the chunk 8 of the first half and no other. -/
def arriving : State := one { hart 3 with m := (Vector.replicate 8 0).set 1 (1 <<< 8) }

/-- x5 = 8 and x0 = 0 give chunk 8, which has arrived, and chunk 0, which has not. -/
theorem wit_ChunkWaitLoads :
    (∃ f chunk, Spec.chunkForm (.vldCw 4 5 5 0 false true 1 2) arriving = some (f, 1, chunk) ∧ f.legal = true ∧ Spec.Joins arriving f.claim
      ∧ Spec.NoFault arriving f ∧ (∀ p ∈ f.at_, chunk p.1 p.2 < 8192) ∧ ∀ p ∈ f.at_, Spec.arrived arriving 1 (chunk p.1 p.2) = true)
    ∧ ∃ f chunk, Spec.chunkForm (.vldCw 4 5 0 0 false true 1 2) arriving = some (f, 1, chunk) ∧ f.at_ = [] ++ (0, 0) :: [(0, 1), (0, 2), (0, 3)]
      ∧ Spec.arrived arriving 1 (chunk 0 0) = false :=
  ⟨⟨_, _, rfl, by decide +kernel, joins_fresh _ rfl _, by unfold Spec.NoFault; decide +kernel, by decide +kernel, by decide +kernel⟩,
    ⟨_, _, rfl, by decide +kernel, by decide +kernel⟩⟩

/-- x5 = 8 bytes at x6 = 0x2000, at M; lengths 0 and beyond 2^40. -/
theorem wit_PinBinding :
    (((atM.c.requestsOf atM.hartNo atM.h.serial).any fun r => decide (r.token = 1)) = false) ∧ (∃ ps, vpinCheck atM 3 (atM.x 6) (atM.x 5) 1 = .ok ps)
      ∧ atM.x 0 = 0 ∧ 2 ^ 40 < (atHost.x 6).toNat := ⟨by decide +kernel, ⟨_, rfl⟩, by decide +kernel⟩

theorem wit_PinCoversRange : ∃ ps, vpinCheck atM 3 (atM.x 6) (atM.x 5) 1 = .ok ps := ⟨_, rfl⟩

/-- FP32 from registers, and BF16 with a scratchpad image at x6 = 0x2000. -/
theorem wit_MatrixMultiply :
    (∃ f, Spec.matForm (.mmul 0 8 16 1 false false true) = some f ∧ f.legal atM ∧ f.image atM ∧ Spec.Joins atM (f.claim atM))
      ∧ ∃ f, Spec.matForm (.mmulz 0 8 6 2 true false true) = some f ∧ f.legal atM ∧ f.fromSp = true := by
  refine ⟨⟨_, rfl, by unfold Spec.MatForm.legal; decide +kernel, (fun h => by cases h), joins_fresh _ rfl _⟩, ⟨_, rfl, by unfold Spec.MatForm.legal; decide +kernel, rfl⟩⟩

theorem wit_MatrixConvert :
    atM.h.shape.vstart = 0 ∧ Spec.Group atM 0 ∧ Spec.sewOf atM = (Spec.matFmt 1).acc ∧ Spec.sewOf atM = 32 ∧ Spec.Group atM 8
      ∧ ∀ c, Spec.Joins atM c := by
  and_intros <;> first | decide +kernel | exact joins_fresh _ rfl

/-- x9 is the coordinate of the core itself, x10 a scratchpad offset of 512 with channel and tag 0, x11 an offset that is no multiple of 512. -/
def draining : State := one { hart 3 with x := (((Vector.replicate 32 0).set 9 1).set 10 512).set 11 8 }

theorem wit_MatrixDrain :
    Spec.Group draining 0 ∧ Spec.sewOf draining = 32 ∧ coordOk (draining.x 9) = true ∧ (draining.x 10).toNat < 2 ^ 29
      ∧ (draining.x 10).toNat % 2 ^ 18 % 512 = 0 ∧ (draining.x 11).toNat % 2 ^ 18 % 512 ≠ 0 ∧ draining.h.shape.vl ≠ 0 := by decide +kernel

theorem wit_ExactAccumulation :
    (∃ n m e, (FVal.fin false 3 0) = .fin n m e) ∧ Spec.ratOf (.fin true 3 1) = -6 := ⟨⟨_, _, _, rfl⟩, by norm_num [Spec.ratOf]⟩

/-- x0 words, 257 words, a misaligned start, no lane, and x7 = 3 words at x6 for lanes 0 of m0 (all). -/
theorem wit_LaneSplit :
    atM.lane = none ∧ (atM.x 0).toNat = 0 ∧ 256 < (atM.x 6).toNat ∧ (atM.x 8).toNat % 4 ≠ 0 ∧ 0 < (atM.x 7).toNat ∧ (atM.x 7).toNat ≤ 256
      ∧ (atM.x 6).toNat % 4 = 0 ∧ (∀ l, l < 16 → Spec.bitIn atM.h.m 0 0 l = true) ∧ (∀ l, l < 16 → Spec.bitIn atM.h.m 1 0 l = false)
      ∧ atM.c.laneHolder = none ∧ atM.c.laneWait.head? = none ∧ ∃ ws u, fetchWords atM (atM.x 6) 3 = .ok (ws, u) := by
  and_intros <;> first | decide +kernel | exact ⟨_, _, rfl⟩

/-- Lane 0 is the last lane; with lane 2 started as well it is not. -/
theorem wit_LaneJoin :
    ∃ r, InLane inLane0 0 r ∧ ∀ k : Fin 16, k.val ≠ 0 → (r.lanes.get k).started = true → (r.lanes.get k).joined = true :=
  ⟨_, ⟨rfl, by decide, rfl⟩, by decide +kernel⟩

/-- The lane of `inLane0`, not chosen yet, with its pc at an offset of the region and the words of the lane instruction buffer. -/
def inRegion (o : Nat) (ws : List (BitVec 32)) : State :=
  { one { hart 3 with lanes := some { base := 0x1000, n := 2, lanes := ((Vector.replicate 16 { started := false, joined := false, pc := 0 }).set 0
      { started := true, joined := false, pc := BitVec.ofNat 64 (0x1000 + o) }) } } with
    cores := [(0, { Core.reset with coreid := 1, asg := { valid := true, spare := false, coord := 1 }, laneBuf := ws })] }

/-- The lane past its last word; an illegal word; `vshape`, which no lane runs; at the last word, `jal` to the first and `jal` to the word after it. -/
theorem wit_LaneConfinement :
    (∀ o ws, ∃ r, (inRegion o ws).lane = none ∧ (inRegion o ws).h.lanes = some r ∧ (r.lanes.get (Fin.ofNat 16 0)).started = true
        ∧ (r.lanes.get (Fin.ofNat 16 0)).joined = false ∧ r.base = 0x1000 ∧ r.n = 2)
      ∧ 0x1000 + 4 * 2 ≤ ({ inRegion 8 [] with lane := some 0 } : State).pc.toNat
      ∧ (∃ r, (inRegion 0 [0]).h.lanes = some r ∧ laneFetch { inRegion 0 [0] with lane := some 0 } r = some 0) ∧ subOf 0 ≠ 0
      ∧ (∃ r, (inRegion 0 [0x80A63802]).h.lanes = some r ∧ laneFetch { inRegion 0 [0x80A63802] with lane := some 0 } r = some 0x80A63802)
      ∧ subOf 0x80A63802 = 0 ∧ 0x80A63802 / 2 ^ 26 > 0x1B ∧ 0x80A63802 / 2 ^ 26 ≠ 0x2F
      ∧ (∀ w ∈ [(0x241FFFFF : BitVec 32), 0x24000001], laneWord w = true
          ∧ ∃ r, (inRegion 4 [0, w]).h.lanes = some r ∧ laneFetch { inRegion 4 [0, w] with lane := some 0 } r = some w)
      ∧ Spec.taken (instrOfWord 0x241FFFFF) { inRegion 4 [] with lane := some 0, word := 0x241FFFFF } = some 0x1000
      ∧ Spec.taken (instrOfWord 0x24000001) { inRegion 4 [] with lane := some 0, word := 0x24000001 } = some 0x1008 := by
  refine ⟨fun o ws => ⟨_, rfl, rfl, rfl, rfl, rfl, rfl⟩, by decide +kernel, ⟨_, rfl, by decide +kernel⟩, by decide +kernel, ⟨_, rfl, by decide +kernel⟩,
    by decide +kernel, by decide, by decide, ?_, by decide +kernel, by decide +kernel⟩
  intro w hw
  have hw : w = 0x241FFFFF ∨ w = 0x24000001 := by simpa using hw
  obtain rfl | rfl := hw <;> exact ⟨by decide +kernel, _, rfl, by decide +kernel⟩
/-! ## Witnesses: messages, Weir, tasks and the Sluice engine -/

/-- The hart's core runs a task of an active context that owns row 0 of its own package; the registers from x9 on hold `l`. -/
def inCtx (p : BitVec 2) (l : List Word) : State :=
  { one { hart p with x := Vector.ofFn fun i => if 9 ≤ i.val then l.getD (i.val - 9) 0 else (hart p).x.get i } with
    ctxs := [(0, { Ctx.reset with st := .active, rows := 1, root := 0x100, rate := Vector.replicate 4 1 })] }

/-- x9 the core itself, x10 column 80, x11 a reserved descriptor bit, x12 a message of 4 bytes to offset 4, x13 offset 4 with no length,
x14 row 1, which is not the context's, x15 column 40, on die 1. -/
def sending : State := inCtx 3 [1, 80, 0x40000000, 0x400000004, 4, 0x100, 40]

def copyOf (n : Nat) : Retained :=
  { seq := BitVec.ofNat 32 n, cls := 0, rate := 0, answered := false
    msg := { src := 1, dst := 40, desc := 4, kind := 1, width := 0, rownib := 0, data := [0], ctag := 0, hart := 0, serial := 0, req := none, copy := 0, launch := none } }

/-- The first word of the scratchpad is uncorrectable. -/
def sendingBad : State := { sending with cores := [(0, { sending.c with spBad := [1, 0] })] }

/-- Die 0 retains 32 messages to die 1. -/
def full : State :=
  { sending with dies := sending.dies.set 0 { Die.reset with spray := { Spray.reset with tx := [(1, { next := 32, retained := (List.range 32).map copyOf })] } } }

theorem wit_MessageSend :
    (∃ f, Spec.sendForm (.mput 7 10 13 0) sending = some f ∧ ¬ Spec.coordValid f.dst)
      ∧ (∃ f, Spec.sendForm (.mput 7 9 11 0) sending = some f ∧ Spec.coordValid f.dst ∧ ¬ (Spec.descValid f.desc ∧ f.lenOk))
      ∧ (∃ f, Spec.sendForm (.mput 7 9 13 3) sending = some f ∧ Spec.coordValid f.dst ∧ Spec.descValid f.desc ∧ f.lenOk ∧ f.range = some (0x0E0, 4))
      ∧ (∃ f, Spec.sendForm (.mput 7 14 13 2) sending = some f ∧ Spec.coordValid f.dst ∧ f.lenOk ∧ f.range = none ∧ inReach sending (f.dst.setWidth 32) = false)
      ∧ (∃ f u, Spec.sendForm (.msend 0 9 12) sending = some f ∧ Spec.coordValid f.dst ∧ Spec.descValid f.desc ∧ f.lenOk ∧ f.range = none
          ∧ inReach sending (f.dst.setWidth 32) = true ∧ sending.c.spBad = []
          ∧ hand sending sending.agent (Spec.messageOf sending (f.dst.setWidth 32) f.desc f.kind f.width f.data) = some u)
      ∧ (∃ f, Spec.sendForm (.msend 0 9 12) sendingBad = some f ∧ Spec.coordValid f.dst ∧ Spec.descValid f.desc ∧ f.lenOk ∧ f.range = none
          ∧ f.reads = (0, 4) ∧ 0 ∈ sendingBad.c.spBad)
      ∧ ∃ f, Spec.sendForm (.mput 7 15 13 2) full = some f ∧ Spec.coordValid f.dst ∧ Spec.descValid f.desc ∧ f.lenOk ∧ f.range = none
          ∧ inReach full (f.dst.setWidth 32) = true
          ∧ hand full full.agent (Spec.messageOf full (f.dst.setWidth 32) f.desc f.kind f.width f.data) = none := by
  refine ⟨⟨_, rfl, ?_⟩, ⟨_, rfl, ?_, ?_⟩, ⟨_, rfl, ?_, ?_, ?_, ?_⟩, ⟨_, rfl, ?_, ?_, ?_, ?_⟩, ⟨_, _, rfl, ?_, ?_, ?_, ?_, ?_, rfl, rfl⟩, ⟨_, rfl, ?_, ?_, ?_, ?_, ?_, ?_⟩,
    ⟨_, rfl, ?_, ?_, ?_, ?_, ?_, ?_⟩⟩ <;>
    first | decide +kernel | (unfold Spec.coordValid; decide +kernel) | (unfold Spec.descValid; decide +kernel)

/-- Neighbours of one die, and a message to die 1 with the window empty and full. -/
theorem wit_MessageHandover :
    (coordPkg 2 = sending.hostif.regs.pkgid.toNat ∧ dieOfCoord 2 = dieOfAgent 0)
      ∧ ¬ (coordPkg 40 = sending.hostif.regs.pkgid.toNat ∧ dieOfCoord 40 = dieOfAgent 0) ∧ dieOfAgent 0 < 4
      ∧ (smGet StreamTx.reset 1 (full.die 0).spray.tx).retained.length = 32 ∧ (smGet StreamTx.reset 1 (sending.die 0).spray.tx).retained.length < 32 := by
  decide +kernel

/-- A core whose mailbox has counter 2 at 3 and counter 4 at 3 with its overflow bit, hart 5 waiting on tag 3, and a loss for tag 1. -/
def waitingMail : State :=
  { atM with cores := [(0, { atM.c with mail := { Mailbox.reset with
      counters := (Mailbox.reset.counters.set 2 3).set 4 3, overflow := 0x10, fifos := Mailbox.reset.fifos.set 3 [5], losses := [(1, 9)] } })] }

/-- x7 = 3 is just reached, x5 = 8 is not. -/
theorem wit_MailboxWait :
    waitingMail.c.mail.fifos.get (3 : Fin 32) = [5] ∧ waitingMail.hartNo = 0 ∧ waitingMail.c.mail.fifos.get (1 : Fin 32) = []
      ∧ waitingMail.c.mail.losses = [(1, 9)]
      ∧ waitingMail.c.mail.counters.get (2 : Fin 32) = 3 ∧ waitingMail.c.mail.counters.get (4 : Fin 32) = 3 ∧ waitingMail.x 5 = 8 ∧ waitingMail.x 7 = 3
      ∧ waitingMail.c.mail.overflow.getLsbD 2 = false ∧ waitingMail.c.mail.overflow.getLsbD 4 = true := by decide +kernel

/-- x9 the core, x10 column 80, x11 a row that is not the context's, x12 package 5, which the reach bitmap holds. -/
def asking (h : Hart → Hart) : State :=
  let s := inCtx 3 [1, 80, 0x100, 0x1400000]
  { s with harts := [(0, h (s.hartOf 0))], ctxs := [(0, { s.ctx 0 with reachMap := 1 <<< 5 })] }

theorem wit_MailboxCountAndPlacement :
    let s := asking id
    (¬ Spec.coordValid (s.x 10)) ∧ (Spec.coordValid (s.x 11) ∧ inReach s ((s.x 11).setWidth 32) = false)
      ∧ (Spec.coordValid (s.x 9) ∧ inReach s ((s.x 9).setWidth 32) = true ∧ coordPkg (realCoord s ((s.x 9).setWidth 32)) = s.hostif.regs.pkgid.toNat)
      ∧ (Spec.coordValid (s.x 12) ∧ inReach s ((s.x 12).setWidth 32) = true ∧ coordPkg (realCoord s ((s.x 12).setWidth 32)) ≠ s.hostif.regs.pkgid.toNat
          ∧ s.h.reply = none ∧ s.h.asked = false)
      ∧ (asking fun h => { h with reply := some 7 }).h.reply = some 7 ∧ (asking fun h => { h with asked := true }).h.asked = true := by
  unfold Spec.coordValid; decide +kernel

theorem wit_MailboxPlacement_query :
    ∃ u, hand (asking id) (asking id).agent (Spec.messageOf (asking id) 0x1400000 0 6 0 []) = some u := ⟨_, rfl⟩

/-- The core is a member of channel 1 and has arrived there; channel 2 is not its own. -/
def gathering : State := { atM with cores := [(0, { atM.c with weir := { Weir.reset with wmember := 2, arrived := 2 } })] }

theorem wit_Weir :
    gathering.lane = none ∧ gathering.c.weir.wmember.getLsbD 2 = false ∧ gathering.c.weir.wmember.getLsbD 1 = true
      ∧ Spec.weirAll gathering 1 ∧ gathering.c.weir.arrived.getLsbD 1 = true ∧ gathering.c.weir.arrived.getLsbD 2 = false := by
  unfold Spec.weirAll; decide +kernel

def aRequest : SluiceReq :=
  { id := 0, form := .copyIn, hart := 0, serial := 0, priv := 3, base := 0x2000, spoff := 0, len := 512, rows := 1, pitch := 0, token := 0, mask := 0
    chunk0 := 0, idxs := [], pin := none, dst := 0, desc := 0, chunks := [.todo] }

/-- The hart's core with requests of channel 1 and records of the fault queue. -/
def copying (rs : List SluiceReq) (fs : List SluiceFault) : State :=
  { atM with cores := [(0, { atM.c with sluice := { Sluice.reset with chans := Sluice.reset.chans.set 1 { next := BitVec.ofNat 32 rs.length, reqs := rs }, faults := fs } })] }

theorem wit_TaskEnd :
    (∃ n : Fin 4, ∃ r ∈ ((copying [aRequest] []).c.sluice.chans.get n).reqs, r.hart = atM.hartNo ∧ r.serial = atM.h.serial)
      ∧ (∀ n : Fin 4, (atM.c.sluice.chans.get n).reqs = []) ∧ atM.checkerNext.differs = false ∧ atM.h.run = .task 3
      ∧ (∀ n : Fin 4, ((armed 3).c.sluice.chans.get n).reqs = []) ∧ (armed 3).checkerNext.differs = true := by decide +kernel

/-- x9 channel 64, x10 channel 63, x11 the core, x12 row 1, x13 core (1, 0), x14 = 1. -/
def switching : State := inCtx 3 [64, 63, 1, 0x100, 2, 1]

theorem wit_TaskBits :
    64 ≤ (switching.x 9).toNat ∧ (switching.x 10).toNat < 64 ∧ (switching.x 14).toNat < 2 ∧ Spec.coordValid (switching.x 12)
      ∧ inReach switching ((switching.x 12).setWidth 32) = false
      ∧ Spec.coordValid (switching.x 11) ∧ inReach switching ((switching.x 11).setWidth 32) = true
      ∧ realCoord switching ((switching.x 11).setWidth 32) = switching.c.coreid
      ∧ Spec.coordValid (switching.x 13) ∧ inReach switching ((switching.x 13).setWidth 32) = true
      ∧ realCoord switching ((switching.x 13).setWidth 32) ≠ switching.c.coreid := by
  unfold Spec.coordValid; decide +kernel

theorem wit_TaskBits_message :
    ∃ u, hand switching switching.agent (Spec.messageOf switching 2 0 5 0 (leBytes 4 (63 + 256 * 2 + 65536 * 1))) = some u := ⟨_, rfl⟩

theorem wit_TaskPost : switching.lane = none ∧ 64 ≤ (switching.x 9).toNat ∧ (switching.x 10).toNat < 64 := by decide +kernel

/-- x9 a copy of 512 bytes, x10 of 0, x11 of 512 bytes to offset 0x3FFFC. -/
def issuing : State := inCtx 3 [0x20000000000, 0, 0x2000003FFFC]

theorem wit_SluiceIssue :
    (∃ f, Spec.sluiceForm (.scopyin 5 6 0 0 1) issuing = some f ∧ f.xp = 0)
      ∧ (∃ f, Spec.sluiceForm (.scopy2inRow 5 6 31 0 1) issuing = some f ∧ 32 < f.xp.toNat + f.run)
      ∧ (∃ f, Spec.sluiceForm (.scopyin 5 6 10 0 1) issuing = some f ∧ f.xp ≠ 0 ∧ f.xp.toNat + f.run ≤ 32 ∧ Spec.cLen (issuing.x f.xp) = 0)
      ∧ (∃ f t, Spec.sluiceForm (.scopyin 5 6 11 0 1) issuing = some f
          ∧ issueCheck issuing (makeReq issuing f.form f.mask f.base (issuing.x f.xp) 0 0 []) f.base (issuing.x f.xp) 0 = some t ∧ t.cause = 0x0E2)
      ∧ (∃ f, Spec.sluiceForm (.scopyin 5 6 9 0 1) issuing = some f
          ∧ issueCheck issuing (makeReq issuing f.form f.mask f.base (issuing.x f.xp) 0 0 []) f.base (issuing.x f.xp) 0 = none
          ∧ (issuing.c.sluice.chans.get f.ch.toFin).reqs.length < 64)
      ∧ ((copying (List.replicate 64 aRequest) []).c.sluice.chans.get (1 : Fin 4)).reqs.length = 64 := by
  refine ⟨⟨_, rfl, rfl⟩, ⟨_, rfl, by decide⟩, ⟨_, rfl, by decide, by decide, by decide +kernel⟩, ⟨_, _, rfl, rfl, rfl⟩, ⟨_, rfl, by decide +kernel, by decide +kernel⟩, by decide +kernel⟩

/-- v8 holds row numbers 0; the rows lie at x10 with pitch x11. -/
theorem wit_SluiceGather :
    let s := inCtx 3 [0x20000000000, 0x2000, 512]
    let r := makeReq s .gatherRow 0 0 (s.x 9) (s.x 10) (s.x 11) [0, 0, 0, 0]
    Spec.ShapeOk s.h.shape ∧ s.h.shape.vstart = 0 ∧ issueFields s r 0 (s.x 9) (s.x 10) = none ∧ issueRange r (s.x 10) = none ∧ issueGlobal r = none
      ∧ (List.range s.h.shape.vl.toNat).map (fun n => Spec.el s 8 (Spec.sewOf s) 0 n) = [0, 0, 0, 0] := by decide +kernel

/-- Register runs at the ends, a nonzero `vstart`, and a channel that is full. -/
theorem wit_SluiceGather_stops :
    29 < (30 : BitVec 5).toNat ∧ (29 : BitVec 5).toNat ≤ 29
      ∧ (one { hart 3 with shape := { (hart 3).shape with vstart := 1 } }).h.shape.vstart ≠ 0
      ∧ 64 ≤ ((copying (List.replicate 64 aRequest) []).c.sluice.chans.get (1 : Fin 4)).reqs.length := by decide +kernel

def aFault : SluiceFault := { id := 0, chan := 1, hart := 0, kind := 1, vaddr := 0, first := 0, count := 1, cause := 0 }

/-- Request 0 complete once request 1 is next; in flight; in flight with a record; with an offset just past a record's place. -/
theorem wit_SluiceObservation :
    (let s := { atM with cores := [(0, { atM.c with sluice := { Sluice.reset with chans := Sluice.reset.chans.set 1 { next := 1, reqs := [] } } })] }
     (s.c.sluice.chans.get (1 : Fin 4)).reqs = [] ∧ 1 ≤ ((s.c.sluice.chans.get (1 : Fin 4)).next - 0).toNat)
      ∧ (∃ r ∈ ((copying [aRequest] []).c.sluice.chans.get (1 : Fin 4)).reqs, r.id = 0 ∧ r.chunks = [.todo])
      ∧ (∃ r ∈ ((copying [{ aRequest with chunks := [.faulted] }] [aFault]).c.sluice.chans.get (1 : Fin 4)).reqs, r.id = 0)
      ∧ (∃ f ∈ (copying [{ aRequest with chunks := [.faulted] }] [aFault]).c.sluice.faults, f.chan = 1 ∧ f.id = 0)
      ∧ (∃ r ∈ ((copying [{ aRequest with chunks := [.asking 0x2000 0x81 0] }] []).c.sluice.chans.get (1 : Fin 4)).reqs, ∃ x ∈ r.chunks, Spec.waits x = true)
      ∧ (atM.x 7).toNat % 32 ≠ 0 ∧ (atM.x 0).toNat % 32 = 0 ∧ 0x40000 ≤ ((inCtx 3 [0x40000]).x 9).toNat ∧ atM.c.sluice.faults = [] ∧ atM.c.sp.wf = true := by
  decide +kernel

theorem wit_LaunchFromCode :
    ((2 ^ 55 : Word).toNat / 2 ^ 55 ≠ 0 ∧ (2 ^ 55 : Word).toNat / 2 ^ 55 ≠ 511) ∧ (atM.x 7).toNat % 64 ≠ 0 ∧ (atM.x 7).toNat / 2 ^ 55 = 0
      ∧ ∃ p u, loadBlock atM (atM.x 6) = .ok (p, u) := ⟨by decide +kernel, by decide +kernel, by decide +kernel, _, _, rfl⟩

/-- A pool that is empty, one that is full, and a poster at depth 24. -/
theorem wit_PoolPost :
    (∃ n cx, ctxOfAgent sending 0 = some (n, cx) ∧ cx.entries.length < 4096 ∧ sending.mem.wf = true)
      ∧ (List.replicate 4096 ({ slot := 0, parent := 0, depth := 1, barrier := false, launch := none } : PoolEntry)).length = 4096 :=
  ⟨⟨_, _, rfl, by decide +kernel, rfl⟩, List.length_replicate ..⟩

theorem wit_WorkGraphReserve :
    ((sending.x 0).toNat = 0 ∧ 4096 < (sending.x 6).toNat ∧ 0 < (sending.x 7).toNat ∧ (sending.x 7).toNat ≤ 4096)
      ∧ (sending.h.reply = none ∧ sending.h.asked = false) ∧ (∃ l u, loadBlock sending (sending.x 6) = .ok (l, u))
      ∧ (asking fun h => { h with reply := some 7 }).h.reply = some 7 ∧ (asking fun h => { h with asked := true }).h.asked = true :=
  ⟨by decide +kernel, by decide +kernel, ⟨_, _, rfl⟩, by decide +kernel, by decide +kernel⟩

/-- A block of one slot of 64 bytes at 0x3000 whose owner, basin 0, has reserved slot 0 for the hart's task. -/
def blockBytes : List Byte := leBytes 8 0x3000 ++ leBytes 4 64 ++ leBytes 4 1 ++ List.replicate 48 0

def committing : State :=
  { inCtx 3 [] with basins := [(0, { Basin.reset with works := [{ ctx := 0, block := 0x2000, head := 1, tail := 0, capacity := 1, recsize := 64
                                                                  channel := 0, place := 0, target := 0, gangs := [1], slots := [(0, .reserved 0 0)] }] })] }

theorem wit_WorkGraphCommit :
    (queueBlock blockBytes).ok = true ∧ (∃ cx, ctxOfAgent committing 0 = some (0, cx))
      ∧ smFind 0 ((committing.basin 0).work 0 0x2000 (queueBlock blockBytes)).slots = some (.reserved 0 0)
      ∧ commitAt committing 0x2000 blockBytes 1 = none ∧ (∃ l u, loadBlock committing (committing.x 6) = .ok (l, u)) :=
  ⟨by decide +kernel, ⟨_, rfl⟩, by decide +kernel, by decide +kernel, _, _, rfl⟩
/-! ## Witnesses: harts, tasks and gangs -/

def aTask : TaskEntry :=
  { TaskEntry.reset with entry := 0x4000, budget := 9, decl := true, enable := true, ready := true, pending := true, priority := 2, s2 := 5, s3 := 6, s4 := 7, s5 := 8 }

/-- Harts 1 to 7 of the core are free; channels 5 and 9 may start at priority 2 and channel 3 at 1; the last started of priority 2 is 5. -/
def posted : State :=
  { atM with cores := [(0, { atM.c with tasks := [(3, { aTask with priority := 1 }), (5, aTask), (9, aTask)], rr := Vector.replicate 4 5
                                        part := { GangPart.reset with launch := some 1, gangid := 0x77, lflags := 0x13, supTvec := 0x100, supScratch := 1, supDeleg := 3 } })] }

theorem wit_TaskStart :
    (posted.coreOf 0).part.launch.isSome = true ∧ Spec.Rising (posted.coreOf 0).tasks ∧ (∀ x ∈ (posted.coreOf 0).tasks, x.1 < 64)
      ∧ Spec.Chosen (posted.coreOf 0) 9 ∧ (posted.hartOf 1).run = .free ∧ (∀ i, i < 1 → (posted.hartOf (8 * 0 + i)).run ≠ .free) := by
  unfold Spec.Rising Spec.Chosen Spec.eligible; dsimp only
  exact ⟨by decide +kernel, by decide +kernel, by decide +kernel, ⟨by decide, by decide +kernel, by decide +kernel, by decide +kernel⟩, by decide +kernel, by decide +kernel⟩

/-- The hart's budget is spent: for the first time, or after its first expiry. -/
def overBudget (again : Bool) : State := one { hart 0 with wait := { (hart 0).wait with count := 5, limit := 5, budget := 5, expired := again } }

/-- A machine check is due while the hart's `wwait 1` waits for its barrier, or can complete. -/
def dueInWait (waits : Bool) : State :=
  let s := one { hart 3 with pending := [{ cause := 0x161, tval := 0 }], wait := { (hart 3).wait with reason := 0x0A, tag := 1 } }
  { s with mem := writeBytes [] 0x1000 (leBytes 4 0xF0000041), cores := [(0, { s.c with weir := { Weir.reset with wmember := 2, arrived := if waits then 2 else 0 } })] }

theorem wit_WaitBeforeCause :
    ∀ b, (dueInWait b).lane = none ∧ Spec.onTask (dueInWait b).h ∧ (dueInWait b).atFirmware = false ∧ (dueInWait b).inRom = false
      ∧ (dueInWait b).h.lanes = none ∧ (dueInWait b).h.wait.reason ≠ 0 ∧ (asyncTurn (dueInWait b)).isSome = true
      ∧ (match runInstr (dueInWait b) with
         | .next u => decide (u.h.run ≠ .free) && (decide (u.h.wait.reason = 0 ∧ u.h.pc = (dueInWait b).h.pc + 4 ∧ u.h.trap = (dueInWait b).h.trap) == !b)
         | _ => false) = true := by
  intro b; cases b <;> exact ⟨rfl, ⟨3, rfl⟩, by decide +kernel⟩

theorem wit_HartEvents :
    (∀ b, Spec.onTask ((overBudget b).hartOf 0) ∧ ((overBudget b).hartOf 0).trap.status.priv ≠ 3 ∧ frozen (overBudget b) 0 = false
        ∧ ((overBudget b).hartOf 0).wait.limit.toNat ≤ ((overBudget b).hartOf 0).wait.count.toNat ∧ ((overBudget b).hartOf 0).wait.reason = 0
        ∧ ((overBudget b).hartOf 0).pending = [] ∧ ((overBudget b).hartOf 0).wait.expired = b) :=
  fun b => ⟨⟨3, rfl⟩, by cases b <;> decide +kernel⟩

/-- A core of a gang none of whose harts runs a task and whose table is empty. -/
def quiet : State := { State.reset with cores := [(0, { Core.reset with coreid := 1, part := { GangPart.reset with launch := some 1 } })] }

theorem wit_HartEvents_complete : (quiet.coreOf 0).part.launch.isSome = true ∧ Spec.Quiescent quiet 0 := by
  unfold Spec.Quiescent Spec.onTask Spec.eligible
  refine ⟨rfl, fun j _ h => ?_, by decide +kernel, by decide +kernel, by intro m hm; cases hm⟩
  obtain ⟨ch, h⟩ := h
  have : ∀ j : Fin 8, (quiet.hartOf (8 * 0 + j.val)).run = .free := by decide +kernel
  have := this ⟨j, ‹_›⟩
  rw [this] at h; cases h

def aLaunch : Launch :=
  { id := 1, ctx := 0, kind := .gang, queue := none, depth := 0, parent := none, toStart := [1], cores := [1], base := 0x10000, tasks := 1, panes := 0
    wmember := 2, gangid := 0x77, lflags := 0x13, desc := FrameDesc.reset, basins := [], done := false }

/-- Launch 1 has yet to start logical core (1, 0). -/
def launching : State :=
  { inCtx 3 [] with launches := [{ aLaunch with id := 7, toStart := [2] }, aLaunch] }

theorem wit_RunAheadStart :
    (launching.coreOf 0).part.launch = none ∧ (launching.coreOf 0).asg.valid = true ∧ (launching.coreOf 0).asg.spare = false
      ∧ launching.launches = [{ aLaunch with id := 7, toStart := [2] }] ++ aLaunch :: [] ∧ (launching.coreOf 0).coreid ∈ aLaunch.toStart
      ∧ (launching.ctx aLaunch.ctx).st = .active ∧ weirBusy launching aLaunch = false := by decide +kernel

def aQueue : WorkQueue :=
  { ctx := 0, block := 0x2000, head := 1, tail := 0, capacity := 4, recsize := 64, channel := 5, place := 1, target := 0, gangs := [1], slots := [(0, .committed 1)] }

/-- A reservation that fits and one that does not, a committed slot 0, and an event. -/
def owning (place : Nat) (t : TaskEntry) (n : Nat) : State :=
  { atM with
    dies := atM.dies.set 0 { Die.reset with remap := [(1, { epoch := 0, valid := true, prow := 0, pcol := 0 })] }
    cores := [(0, { atM.c with tasks := [(5, t)] })]
    basins := [(0, { Basin.reset with works := [{ aQueue with place := place }], ncpq := 0x2000, ncev := [{ block := 0x2000, slot := 0, kind := 1 }]
                                      asks := [{ hart := 0, serial := 0, ctx := 0, launch := some 1, block := 0x2000, count := n
                                                 data := leBytes 8 0x3000 ++ leBytes 4 64 ++ leBytes 4 4 ++ List.replicate 8 0 ++ [5, 1] ++ List.replicate 38 0 }] })] }

theorem wit_WorkGraphEvents :
    ((owning 1 { TaskEntry.reset with decl := true } 3).basin 0).works = [] ++ { aQueue with place := 1 } :: []
      ∧ aQueue.block = ((owning 1 { TaskEntry.reset with decl := true } 3).basin 0).ncpq
      ∧ smFind 0 aQueue.slots = some (.committed 1) ∧ smFind 1 aQueue.slots = none
      ∧ postTarget (owning 1 { TaskEntry.reset with decl := true } 3) 0 { aQueue with place := 1 } 1 0 = some 0
      ∧ postTarget (owning 0 { TaskEntry.reset with decl := true } 3) 0 { aQueue with place := 0 } 1 0 = none
      ∧ (((owning 1 aTask 3).coreOf 0).task 5).pending = true ∧ ((owning 1 aTask 3).basin 0).asks ≠ [] ∧ ((owning 1 aTask 3).basin 0).ncev ≠ [] := by
  decide +kernel

/-- A completion of channel 1 has not reached the core. -/
def owed : State := { gathering with cores := [(0, { gathering.c with weir := { gathering.c.weir with owed := gathering.c.weir.owed.set 1 1 } })] }

theorem wit_WeirBroadcast : 0 < (owed.coreOf 0).weir.owed.get (1 : BitVec 4).toFin := by decide +kernel
/-! ## Witnesses: deliveries, Spray and the Sluice engine's own steps -/

/-- A message from core (40, 0) of die 1 to core (1, 0): offset 0x40, channel 5, tag 2, with its wake bit. -/
def mail (kind : BitVec 3) (data : List Byte) : Message :=
  { src := 40, dst := 1, desc := 0x22140040, kind := kind, width := 0, rownib := 0, data := data, ctag := 0, hart := 0, serial := 0, req := none, copy := 0, launch := none }

/-- Logical core (1, 0) is placed at site 0 of die 0; `net` holds the message, and channel 1's request 0 waits for a part's receipt. -/
def arrivingAt (m : Message) : State :=
  let s := inCtx 3 []
  { s with
    dies := s.dies.set 0 { Die.reset with remap := [(1, { epoch := 0, valid := true, prow := 0, pcol := 0 })] }
    cores := [(0, { s.c with tasks := [(5, { TaskEntry.reset with decl := true })]
                             sluice := { Sluice.reset with chans := Sluice.reset.chans.set 1 { next := 1, reqs := [{ aRequest with form := .toCore, chunks := [.sent] }] } } })]
    net := [m] }

/-- Two rows of 3 nibbles each, in strides of 4 bytes. -/
def drained : Message := { mail 3 [1, 2, 0, 0, 3, 0xF4, 0, 0] with rownib := 3 }

/-- Part 0 of 1, and part 0 of 2. -/
def aPart (n : BitVec 16) : Message := { mail 4 [1, 2, 3, 4] with rownib := 256 * (n - 1), req := some (1, 0) }

theorem wit_MessageDelivery :
    Spec.TakenAt (arrivingAt (mail 1 [7])) (mail 1 [7]) 0 ∧ ((arrivingAt (mail 1 [7])).coreOf 0).sp.wf = true
      ∧ (mail 1 [7]).kind.toNat < 3 ∧ drained.data.length = 2 * 4 ∧ 4 = (drained.rownib.toNat + 7) / 8 * 4 ∧ Spec.dWake (mail 1 [7]).desc = true
      ∧ (aPart 1).req = some (1, 0) ∧ ((arrivingAt (aPart 2)).coreOf 0).copies = []
      ∧ (mail 5 (leBytes 4 (63 + 256 * 2 + 65536))).data = leBytes 4 (63 + 256 * 2 + if true = true then 65536 else 0) := by
  refine ⟨⟨⟨0, _, rfl, by decide +kernel⟩, ?_, by decide +kernel, by decide +kernel, by decide +kernel⟩, rfl, by decide, by decide, by decide, by decide +kernel, rfl, rfl, rfl⟩
  intro mv h; cases h

/-- A peer of this package with a `fhold` bit or without one, for the marks of R271. -/
def marking (held : Bool) : State :=
  let s := arrivingAt (mail 1 [])
  { s with harts := [], cores := [(0, { s.c with tasks := [(5, { TaskEntry.reset with decl := true, siphon := held })] })] }

theorem wit_HartEvents_marks :
    coordPkg 1 = (marking true).hostif.regs.pkgid.toNat ∧ siteOf (marking true) 1 = some 0
      ∧ (∃ e ∈ ((marking true).coreOf 0).tasks, e.2.preempt = true ∨ e.2.siphon = true)
      ∧ (¬ ∃ e ∈ ((marking false).coreOf 0).tasks, e.2.preempt = true ∨ e.2.siphon = true)
      ∧ (∀ j : Fin 8, ((marking false).hartOf (8 * 0 + j.val)).run = .free)
      ∧ coordPkg (BitVec.ofNat 32 (5 * 2 ^ 22)) ≠ (marking true).hostif.regs.pkgid.toNat := by decide +kernel

/-- The context of the row is Free. -/
def freed (m : Message) : State := { arrivingAt m with ctxs := [(0, { Ctx.reset with rows := 1 })] }

theorem wit_RefusedMessage :
    (freed (mail 1 [7])).net = [] ++ mail 1 [7] :: []
      ∧ ∀ e ∈ (freed (mail 1 [7])).ctxs, e.2.tag = 0 → e.2.rows.getLsbD (coordRow 1) = true → e.2.st = .free ∨ e.2.st = .fatal := by
  refine ⟨rfl, fun e he _ _ => ?_⟩
  have : ∀ e ∈ (freed (mail 1 [7])).ctxs, e.2.st = .free := by intro e he; cases he with | head => rfl | tail _ h => cases h
  exact .inl (this e he)

/-- The hart waits for the answer to its query. -/
def asked : State := one { hart 3 with asked := true, wait := { (hart 3).wait with reason := 0x06 } }

theorem wit_PlacementQuery : (asked.hartOf 0).asked = true ∧ (asked.hartOf 0).wait.reason = 0x06 := ⟨rfl, rfl⟩

/-- Fragments of a message of four bytes at rate code 0: four of data and four of parity. -/
def piece (seq : BitVec 32) (i : Nat) : Fragment := cutFragment (mail 1 [1, 2, 3, 4]) seq 0 0 i

def bufOf (st : BufState) (is : List Nat) : DecodeBuf := { peer := 1, seq := 0, st := st, frags := is.map (piece 0) }

/-- Fragment f is on its way to die 0, whose table entry for die 1 and buffers are given. -/
def receiving (f : Fragment) (r : StreamRx) (bufs : List DecodeBuf) : State :=
  let s := arrivingAt (mail 1 [])
  { s with
    net := []
    frags := [{ die := 0, path := 3, frag := f }]
    dies := s.dies.set 0 { s.dies.get 0 with spray := { Spray.reset with rx := [(1, r)], bufs := bufs } } }

/-- A whole fragment of a sequence inside the window and just outside it, a finished one, and one whose CRC is wrong. -/
theorem wit_FragmentReceipt :
    (piece 0 5).crc = fragCrc (piece 0 5) ∧ { piece 0 5 with crc := 0 }.crc ≠ fragCrc { piece 0 5 with crc := 0 }
      ∧ 32 ≤ ((piece 32 0).seq - StreamRx.reset.ack).toNat ∧ ¬ Spec.finished StreamRx.reset 32 ∧ ((piece 31 0).seq - StreamRx.reset.ack).toNat < 32
      ∧ Spec.finished { StreamRx.reset with ack := 1 } 0 ∧ Spec.finished { StreamRx.reset with finished := 1 } 0
      ∧ (receiving (piece 0 5) StreamRx.reset [bufOf .collect [0]]).frags = [] ++ { die := 0, path := 3, frag := piece 0 5 } :: []
      ∧ (∃ g ∈ (bufOf .collect [0, 5]).frags, g.grp.toNat / 16 = (piece 0 5).grp.toNat / 16 ∧ g.index = (piece 0 5).index)
      ∧ (bufOf .collect [0, 1, 2, 3]).decoded 0 = true ∧ (List.replicate 512 (bufOf .collect [0])).length = 512 := by
  unfold Spec.finished
  refine ⟨?_, ?_, ?_, ?_, ?_, ?_, ?_, rfl, ?_, ?_, List.length_replicate ..⟩ <;> decide +kernel

/-- A buffer that collects, one that has asked for repair, and one whose message is decoded. -/
theorem wit_ReassemblyAndAcceptance :
    (∀ st, (receiving (piece 0 5) StreamRx.reset [bufOf st [0, 5, 2, 7]]).die 0 = { (arrivingAt (mail 1 [])).die 0 with
        spray := { Spray.reset with rx := [(1, StreamRx.reset)], bufs := [bufOf st [0, 5, 2, 7]] } })
      ∧ (∃ m, (bufOf .deliver [0, 5, 2, 7]).message = some m ∧ m.kind.toNat < 3 ∧ m.data = [1]) := by
  refine ⟨fun st => rfl, ⟨_, rfl, by decide +kernel, by decide +kernel⟩⟩

/-- An acknowledgement, a repair request and a probe for the stream of `full` are in flight. -/
def controlled (t : Nat) (a : BitVec 32) (l : List Byte) : State :=
  { full with ctls := [{ die := 0, path := 0, frag := ctlFragment 1 0 t a l }, { die := 0, path := 7, frag := ctlFragment 1 0 t a l }] }

/-- One from a die of package 5 needs none in flight. -/
theorem wit_SendingEngine :
    (∀ t a l, Spec.ControlTaken (controlled t a l) full 0 1 t a l ∧ Spec.ControlTaken full full 0 20 t a l)
      ∧ (∃ e ∈ (Spec.txOf (full.die 0).spray 1).retained, 1 ≤ (4 - e.seq).toNat ∧ (4 - e.seq).toNat ≤ 32 ∧ (2 : BitVec 32).getLsbD ((4 - e.seq).toNat - 1) = true)
      ∧ Spec.onTask (full.hartOf 0) ∧ (full.hartOf 0).serial = 0 ∧ (Spec.txOf (full.die 0).spray 1).retained ≠ [] ∧ (Spec.txOf (full.die 0).spray 2).retained = [] := by
  refine ⟨fun t a l => ⟨.inr ⟨rfl, ⟨_, List.mem_cons_self .., ?_⟩, ?_⟩, .inl ⟨by decide, rfl⟩⟩, by decide +kernel, ⟨3, rfl⟩, by decide +kernel, by decide +kernel,
    by decide +kernel⟩
  · simp [controlled, full, sending, inCtx, one, State.reset, HostIf.reset, PkgRegs.reset]
  · simp [controlled, full, sending, inCtx, one, State.reset, HostIf.reset, PkgRegs.reset]

/-- A copy of 8 bytes of device memory from 0x2000 to scratchpad offset 0, recorded in m1, and a copy out. -/
def moving (f : SForm) : SluiceReq := { aRequest with form := f, len := 8, mask := 1, chunks := [.todo] }

theorem wit_SluiceChunk :
    (∃ ps u, chunkPlaces (copying [moving .copyIn] []) 0 (moving .copyIn) ((moving .copyIn).words 0) = .ok (ps, u))
      ∧ (∃ ps u, chunkPlaces (copying [moving .copyOut] []) 0 (moving .copyOut) ((moving .copyOut).words 0) = .ok (ps, u))
      ∧ (∃ va cause size u, chunkPlaces (copying [{ moving .copyIn with priv := 0 }] []) 0 { moving .copyIn with priv := 0 } ((moving .copyIn).words 0)
          = .error (u, .xlat va cause size)) ∧ (moving .copyIn).chunks[0]? = some .todo := ⟨⟨_, _, rfl⟩, ⟨_, _, rfl⟩, ⟨_, _, _, _, rfl⟩, rfl⟩

/-- A `scopyr` of 4,608 bytes whose first part waits for its replay. -/
def partWaits : SluiceReq :=
  { aRequest with form := .toCore, dst := 2, desc := 0x22140040, len := 4608, chunks := List.replicate 8 .faulted ++ [.todo] }

theorem wit_SluicePart_waits :
    partWaits.chunks[8]? = some .todo ∧ partWaits.chunks[0]? = some .faulted ∧ (∀ x ∈ partWaits.chunks, x.isBlocked = false)
      ∧ ((copying [partWaits] []).c.sluice.chans.get (1 : BitVec 2).toFin).reqs = [] ++ partWaits :: [] ∧ (copying [partWaits] []).c.sluice.late = [] :=
  ⟨rfl, rfl, by decide, rfl, rfl⟩

/-- A `scopyr` of 512 bytes whose one part has not been sent. -/
def parting : SluiceReq := { aRequest with form := .toCore, dst := 2, desc := 0x22140040, chunks := [.todo] }

theorem wit_SluicePart :
    parting.form = .toCore ∧ parting.chunks[0]? = some .todo ∧ (∀ j, j < 0 → parting.chunks[j]? ≠ some .todo) ∧ (copying [parting] []).c.spBad = []
      ∧ ∃ u, hand (copying [parting] []) 0 (partMessage (copying [parting] []) 0 1 parting 0) = some u := ⟨rfl, rfl, by omega, rfl, _, rfl⟩

/-- A page request for chunk 0 of request 0, which faulted. -/
def paging : State :=
  let s := copying [{ aRequest with chunks := [.faulted] }] []
  { s with hostif := { s.hostif with prgs := [{ core := 0, chan := 1, id := 0, runs := [(0, 1, 0x2000)], page := 0, pasid := 0, cause := 0x108 }] } }

theorem wit_PageRequests :
    ∃ p r, paging.hostif.prgs = [] ++ p :: [] ∧ ((paging.coreOf p.core).sluice.chans.get p.chan.toFin).reqs = [] ++ r :: [] ∧ r.id = p.id
      ∧ (paging.coreOf p.core).sluice.faults.length + p.runs.length ≤ 16 := ⟨_, _, rfl, rfl, rfl, by decide +kernel⟩

/-- A context with a PASID whose core has a store to host page 0 on its way. -/
def invalidating : State :=
  let s := inCtx 3 []
  { s with
    ctxs := [(0, { s.ctx 0 with pasidEn := true, pasid := 5 })]
    cores := [(0, { s.c with pstores := [{ hart := 0, loc := .host 8, data := [1] }, { hart := 0, loc := .dev 8, data := [2] }] })]
    hostif := { s.hostif with ats := [(5, 0), (5, 1), (6, 0)] } }

theorem wit_AtsInvalidate : ∃ n c, ctxOfAgent invalidating 0 = some (n, c) ∧ c.pasidEn = true ∧ c.pasid = 5 := ⟨_, _, rfl, rfl, rfl⟩
/-! ## Witnesses: frames, contexts and queues -/

/-- A triangle that covers a frame of 16 × 16 pixels at depth 0.5; flags 4 make it a blend record. -/
def aPrim (seq : Nat) (flags : Nat) : Prim :=
  primOf (leBytes 4 0 ++ leBytes 4 0 ++ leBytes 4 0x3F000000 ++ leBytes 4 0x42800000 ++ leBytes 4 0 ++ leBytes 4 0x3F000000 ++ leBytes 4 0
    ++ leBytes 4 0x42800000 ++ leBytes 4 0x3F000000 ++ leBytes 4 seq ++ leBytes 4 9 ++ leBytes 4 flags ++ List.replicate 16 0)

def aFrame : FrameDesc :=
  { binbuf := 0x100000, binbufsize := 65536, width := 16, height := 16, visbuf := 0x200000, basinmask := 1, zclear := 0x3F800000, nmarks := 2
    notifych := 5, notifytag := 2, shadeorg := 1, shadecols := 1, shaderows := 1 }

/-- Context 0 is Active and maps the first GiB onto itself; logical core (1, 0) is at site 0; basin 0 holds a frame's state. -/
def drawing (g : Gfx) : State :=
  { arrivingAt (mail 1 []) with
    net := []
    mem := writeBytes (writeBytes [] 0x10000000 (leBytes 8 0x11000001)) 0x11000000 (leBytes 8 0x1FF)
    launches := [{ aLaunch with id := 1, kind := .frame, desc := aFrame, basins := [0] }]
    basins := [(0, { Basin.reset with gfx := g })] }

def binning (q : List (Option Prim)) (held : List Prim) : Gfx :=
  { Gfx.reset with st := .binning, launch := 1, desc := aFrame, queue := q, held := held, used := 68 * held.length }

def resolving (t : BitVec 2) : Gfx := { binning [] [aPrim 1 0] with st := .resolving, tiles := [(0, { Tile.reset with state := t })] }

theorem wit_FrameEvents :
    (let g := { Gfx.reset with waiting := [1] }; (drawing g).launch? 1 = some { aLaunch with id := 1, kind := .frame, desc := aFrame, basins := [0] } ∧ g.st = .idle)
      ∧ none ∈ (binning [none] []).queue ∧ (binning [none] []).marks.toNat + 1 < (binning [none] []).desc.nmarks
      ∧ (binning [none] []).desc.nmarks ≤ ({ binning [none] [] with marks := 1 } : Gfx).marks.toNat + 1
      ∧ aFrame.ownedBy 0 = [0] ∧ ((resolving 1).tile 0).state = 1 ∧ ((resolving 2).tile 0).state = 2
      ∧ siteOf (drawing (resolving 2)) (aFrame.shadeCore (drawing (resolving 2)) 0) = some 0 := by
  decide +kernel

/-- The oldest waiting launch is of a context that is not Active. -/
theorem wit_FrameEvents_open :
    let g := { Gfx.reset with waiting := [2, 1] }
    let s := { drawing g with launches := [{ aLaunch with id := 1, kind := .frame, desc := aFrame, basins := [0] }, { aLaunch with id := 2, ctx := 5, kind := .frame }] }
    g.waiting = [2] ++ 1 :: [] ∧ g.st = .idle ∧ (s.launch? 2).all (fun e => decide ((s.ctx e.ctx).st ≠ .active)) = true
      ∧ (s.launch? 1).all (fun e => decide ((s.ctx e.ctx).st = .active)) = true ∧ (framePages s 0 aFrame).1 ≠ [] := by decide +kernel

/-- One page of 1 GiB holds the region of tile 0. -/
theorem wit_FrameEvents_resolve :
    ∃ e : TlbEntry, ∃ g : Gfx, ∃ pa, g = { resolving 1 with pages := [e] } ∧ g.st = .resolving ∧ ((drawing g).ctx g.ctx).st = .active ∧ 0 ∈ g.desc.ownedBy 0
      ∧ (g.tile 0).state = 1 ∧ (drawing g).mem.wf = true ∧ e.va ≤ g.desc.visbuf.toNat + 131072 * 0
      ∧ g.desc.visbuf.toNat + 131072 * 0 + 131072 ≤ e.va + e.size
      ∧ ∀ k, k < 131072 → e.locate 0 (g.desc.visbuf.toNat + 131072 * 0 + k) = .dev (pa + k) := by
  refine ⟨{ ctx := 0, va := 0, size := 2 ^ 30, pa := 0, mtype := 0, perm := 15, dirty := true }, _, 0x200000, rfl, ?_⟩
  and_intros
  iterate 7 decide +kernel
  intro k hk
  have e : aFrame.visbuf.toNat = 0x200000 := by decide
  have j : 0x200000 + k < 2 ^ 43 := by omega
  have m : (0x200000 + k) % 2 ^ 41 = 0x200000 + k := Nat.mod_eq_of_lt (by omega)
  show paLoc _ = _
  simp only [resolving, binning, e, Nat.mul_zero, Nat.add_zero, Nat.sub_zero, Nat.zero_add]
  rw [if_neg (by decide), paLoc, if_pos j, m, if_pos (by omega), if_pos (by omega)]

/-- Hart 0 asks for pixel (3, 4) at sequence 1, with no earlier covering entry; a draining frame has no lock. -/
theorem wit_FrameEvents_end :
    (let g := { resolving 3 with st := .draining }; g.locks = [] ∧ (g.tile 0).list = [])
      ∧ (let g := { resolving 3 with reqs := [{ x := 3, y := 4, seq := 1, hart := 0, launch := 1, held := false }] }
         (g.tile (g.desc.tileAt 3 4)).state = 3 ∧ (g.tile 0).list = [] ∧ g.locks.length < 16384) := by decide +kernel

/-- A record that bins, one that is blended, a duplicate, one without a tile of the frame and one whose coordinates are not finite. -/
theorem wit_RecordBinning :
    (binning [some (aPrim 1 0)] []).queue = List.replicate 0 none ++ some (aPrim 1 0) :: [] ∧ (aPrim 1 0).good = true ∧ (aPrim 1 0).empty = false ∧ ((aPrim 1 0).tiles aFrame).length = 1
      ∧ ((aPrim 1 0).tiles aFrame).filter (fun i => decide (aFrame.owner i = 0)) = [0] ∧ (aPrim 1 4).blend = true
      ∧ (primOf (List.replicate 64 0xFF)).good = false ∧ (primOf (List.replicate 64 0)).good = true ∧ (primOf (List.replicate 64 0)).empty = true
      ∧ 0 + 64 + 4 * 1 ≤ aFrame.binbufsize.toNat / aFrame.basinList.length - 4096 ∧ 65536 - 4096 < 68 * 904 + 64 + 4 := by decide +kernel

theorem wit_VisibilityEntry :
    (15 < aFrame.width ∧ 15 < aFrame.height) ∧ ¬ 16 < aFrame.width ∧ (aPrim 1 0).covers 15 15 = true ∧ (aPrim 1 0).depthAt 15 15 < 2 ^ 32
      ∧ (fCompare .f32 .lt ((aPrim 1 0).depthAt 15 15) (leValue ((pixelEntry aFrame [] 15 15).take 4))).1 = true
      ∧ (fCompare .f32 .lt ((aPrim 1 0).depthAt 15 15) (leValue ((pixelEntry aFrame [aPrim 1 0] 15 15).take 4))).1 = false := by decide +kernel

/-- Contexts 0 and 1 in states of their own. -/
def ctxsIn (a b : CtxState) : State :=
  { arrivingAt (mail 1 []) with
    net := [], ctxs := [(0, { Ctx.reset with st := a, rows := 1 }), (1, { Ctx.reset with st := b, rows := 3 })]
    hostif := { HostIf.reset with regs := { PkgRegs.reset with ready := true } } }

theorem wit_ContextCommands :
    State.reset.hostif.regs.ready = false ∧ (ctxsIn .free .free).hostif.regs.ready = true ∧ ((ctxsIn .free .free).ctx 0).st = .free ∧ isDev 0 = true ∧ isDev (2 ^ 43) = false
      ∧ (∀ e ∈ (ctxsIn .free .free).ctxs, ¬ (e.2.st = .active ∨ e.2.st = .saving ∨ e.2.st = .restoring))
      ∧ (∃ e ∈ (ctxsIn .free .active).ctxs, e.1 ≠ 0 ∧ e.2.st = .active ∧ e.2.rows &&& 1 ≠ 0) ∧ ((ctxsIn .saved .free).ctx 0).st = .saved
      ∧ ((ctxsIn .fatal .free).ctx 0).st = .fatal := by decide +kernel

/-- The core's hart has ended its task; another core of the row has not been recorded. -/
def saving : State :=
  let s := ctxsIn .saving .free
  { s with harts := []
           cores := [(0, { s.c with sluice := Sluice.reset }), (1, { Core.reset with coreid := 2, asg := { valid := true, spare := false, coord := 2 } })] }

theorem wit_SaveAndRestore :
    Spec.Rising saving.cores ∧ (∃ e ∈ saving.cores, e.1 = 0) ∧ (saving.coreOf 0).asg.valid = true ∧ (saving.ctx 0).rows.getLsbD (coordRow (saving.coreOf 0).coreid) = true
      ∧ coreIndex (saving.coreOf 0).coreid ∉ (saving.ctx 0).savedCores ∧ coreIndex (saving.coreOf 1).coreid ≠ coreIndex (saving.coreOf 0).coreid
      ∧ (∀ j : Fin 8, (saving.hartOf j.val).run = .free) ∧ (saving.coreOf 0).sluice.faults = [] ∧ (flushAll (settleWeir saving 0) 0).mem.wf = true
      ∧ ((flushAll (settleWeir saving 0) 0).coreOf 0).sp.wf = true ∧ weirsFree (ctxsIn .restoring .free) 0 = true
      ∧ ((ctxsIn .restoring .free).ctx 0).frames = [] ∧ (ctxsIn .active .free).hostif.regs.ready = true := by
  unfold Spec.Rising; decide +kernel

/-- Queue 0: registers, and whether a packet is in progress. -/
def queueing (en ev : Bool) (wr : BitVec 32) (ids : List Nat) : State :=
  { drawing Gfx.reset with hostif := (ctxsIn .free .free).hostif, queues := [(0, { Queue.reset with en := en, errValid := ev, wr := wr, base := 0x20, running := ids.map fun i => ⟨[i], [], 0, none⟩ })] }

/-- Bounds at exactly the ring's length and one beyond. -/
theorem wit_QueueRegisters :
    (queueing false false 64 []).hostif.regs.ready = true ∧ ((queueing false false 64 []).queue 0).wr.toNat ≤ 2 ^ ((queueing false false 64 []).queue 0).lsize.toNat
      ∧ 2 ^ ((queueing false false 65 []).queue 0).lsize.toNat < ((queueing false false 65 []).queue 0).wr.toNat
      ∧ (∀ d ∈ ((queueing true false 1 [1]).queue 0).running, ∃ id ∈ d.launches, ((queueing true false 1 [1]).launch? id).isSome = true)
      ∧ ((queueing true true 1 []).queue 0).errValid = true ∧ 2 ^ 6 < ((65 : BitVec 32) - ((queueing true false 1 []).queue 0).rd).toNat := by decide +kernel

def packet (kind flags : Byte) (body : List Byte) : List Byte := [kind, flags, 0, 0] ++ leBytes 4 0 ++ body ++ List.replicate (56 - body.length) 0

/-- A packet waits at the start of queue 0's ring, with what it names in memory. -/
def ringed (p : List Byte) (more : List (Nat × List Byte)) : State :=
  let s := queueing true false 1 []
  { s with mem := more.foldl (fun m x => writeBytes m x.1 x.2) (writeBytes s.mem 0x20000 p) }

def aSignal : List Byte := packet 4 2 (leBytes 8 0x30000 ++ leBytes 8 7)
def anIndirect : List Byte := packet 3 0 (List.replicate 16 0 ++ leBytes 8 0x40000 ++ leBytes 4 1)
def aGang : List Byte := packet 1 0 (List.replicate 16 0 ++ leBytes 8 0x50000 ++ leBytes 4 1 ++ [1, 1] ++ leBytes 2 2 ++ leBytes 4 0x77 ++ [0x13])
def aHandle : List Byte := leBytes 4 0x485A544B ++ [0, 0, 0, 0] ++ leBytes 8 0x60000 ++ List.replicate 48 0
def aFramePacket : List Byte := packet 2 0 (List.replicate 16 0 ++ leBytes 8 0x70000)
def frameBytes : List Byte :=
  leBytes 8 0x100000 ++ leBytes 4 65536 ++ leBytes 2 16 ++ leBytes 2 16 ++ leBytes 8 0x200000 ++ leBytes 8 1 ++ leBytes 4 0x3F800000 ++ leBytes 2 2 ++ [5, 2]
    ++ leBytes 4 1 ++ [1, 1] ++ List.replicate 18 0
def aLoad : List Byte :=
  packet 5 0 (List.replicate 16 0 ++ leBytes 8 0x80000 ++ leBytes 4 93 ++ leBytes 4 0 ++ leBytes 8 0x90000 ++ leBytes 4 8192 ++ leBytes 4 0 ++ leBytes 8 0xA0000)
def objectBytes : List Byte :=
  leBytes 4 0x4F5A544B ++ leBytes 2 1 ++ leBytes 2 1 ++ leBytes 4 0 ++ leBytes 4 0 ++ leBytes 4 64 ++ leBytes 2 1 ++ leBytes 2 0 ++ leBytes 4 64 ++ leBytes 4 64
    ++ leBytes 4 0 ++ leBytes 4 88 ++ leBytes 4 1 ++ List.replicate 20 0
    ++ (leBytes 4 0 ++ [1] ++ [0, 0, 0] ++ leBytes 4 4 ++ leBytes 4 89 ++ leBytes 4 0 ++ leBytes 4 0) ++ [0] ++ [1, 2, 3, 4]
def aShootdown : List Byte := packet 6 0 (List.replicate 32 0)

/-- An answer is a value. -/
def okPart {ε α : Type} (r : Except ε α × State) : Bool := match r.1 with | .ok _ => true | .error _ => false

/-- What a packet's read leaves. -/
def readOf (s : State) : List Byte × State :=
  match ctxRead s (s.ctx 0) 0x20000 64 with | (.ok l, u) => (l, u) | (.error _, u) => ([], u)

/-- What the check of a signal leaves. -/
def signalOf (p : List Byte) (u : State) : Except Nat Loc × State :=
  if pktSignal p then signalPlace u (u.ctx 0) (BitVec.ofNat 64 (fieldAt p 8 8)) else (.ok .hole, u)

def ready (p : List Byte) (more : List (Nat × List Byte)) : Bool :=
  let s := ringed p more
  let u := (readOf s).2
  let q := s.queue 0
  decide ((readOf s).1 = p) && decide (pktPseq p = q.seq.toNat) && pktReservedOk p && okPart (signalOf p u)
    && decide (q.en = true ∧ q.stopping = false ∧ q.errValid = false ∧ s.hostif.regs.pwrState = 0 ∧ (s.ctx 0).st = .active ∧ q.ibs = [] ∧ q.wr ≠ q.rd
        ∧ q.running = [])

theorem wit_QueuePackets :
    ready aSignal [] = true ∧ ready anIndirect [] = true ∧ ready aGang [] = true ∧ ready aFramePacket [] = true ∧ ready aLoad [] = true
      ∧ ready aShootdown [] = true ∧ (match signalOf aSignal (readOf (ringed aSignal [])).2 with | (.ok (.dev pa), _) => decide (pa = 0x30000) | _ => false) = true := by
  decide +kernel

/-- A packet's block is read and passes a check. -/
def readCheck (s : State) (va : Word) (f : List Byte → State → Bool) : Bool :=
  match readBlock64 s (s.ctx 0) va with | (.ok l, w) => f l w | (.error _, _) => false

theorem wit_QueuePackets_blocks :
    (let s := ringed aGang [(0x50000, aHandle), (0x60008, [9])]
     readCheck (readOf s).2 0x50000 fun l w => decide ((launchReason w (s.ctx 0) false aGang (handleOf l)).1 = none)) = true
      ∧ (let s := ringed aGang []; readCheck (readOf s).2 0x50000 fun l w => (launchReason w (s.ctx 0) false aGang (handleOf l)).1.isSome) = true
      ∧ (let s := ringed aFramePacket [(0x70000, frameBytes)]; readCheck (readOf s).2 0x70000 fun l w => (frameOk w (s.ctx 0) l).1) = true
      ∧ (let s := ringed aFramePacket []; readCheck (readOf s).2 0x70000 fun l w => !(frameOk w (s.ctx 0) l).1) = true
      ∧ (let s := ringed anIndirect []; readCheck (readOf s).2 0x40000 fun _ _ => true) = true
      ∧ (let s := ringed anIndirect []; okPart (readBlock64 (readOf s).2 ((readOf s).2.ctx 0) 0x80000000) = false) := by decide +kernel

/-- The load of the object at 0x80000: its reads and writes succeed. -/
theorem wit_QueuePackets_object :
    (let u := (readOf (ringed aLoad [(0x80000, objectBytes)])).2
     let cx := u.ctx 0
     let r := ctxRead u cx 0x80000 93
     let w := ctxWritable r.2 cx 0xA0000 64
     let x := (ctxWrite w.2 0 0xA0000 (leBytes 4 0)).2
     let y := ctxWritable x cx 0x90000 8192
     okPart r && w.1 && y.1 && okPart (ctxWrites 0 ((codeObject objectBytes).writes objectBytes 0x90000 0xA0000) y.2)) = true := by decide +kernel

theorem wit_QueuePackets_load :
    objectReason objectBytes = none ∧ objectBytes.length = 93 ∧ (codeObject objectBytes).imageSize ≤ 8192 := by decide +kernel

/-- A ring that is not mapped, a packet with another `pseq`, one with a reserved bit, and a signal at an odd address. -/
theorem wit_PacketErrors :
    (let s := { ringed aSignal [] with mem := [] }; okPart (ctxRead s (s.ctx 0) 0x20000 64) = false)
      ∧ pktPseq (aSignal.set 4 1) ≠ 0 ∧ pktReservedOk (aSignal.set 1 6) = false
      ∧ okPart (signalOf (aSignal.set 8 1) (ringed (aSignal.set 8 1) [])) = false ∧ pktSignal (aSignal.set 8 1) = true := by decide +kernel

/-- Launch 1 is a gang of core (1, 0), which has reported. -/
def ending : State :=
  { drawing Gfx.reset with
    harts := [], launches := [{ aLaunch with toStart := [] }]
    cores := [(0, { (drawing Gfx.reset).coreOf 0 with sluice := Sluice.reset, part := { GangPart.reset with launch := some 1, reported := true } })] }

theorem wit_LaunchesEnd :
    ending.launch? 1 = some { aLaunch with toStart := [] } ∧ aLaunch.cores = [1] ∧ reportStands ending 1 1 = true ∧ ending.net = []
      ∧ (∀ e ∈ ending.launches, e.parent ≠ some 1) ∧ (∀ c ∈ ending.ctxs, c.2.entries = []) := by decide +kernel

/-- A pool whose one entry is a gang launch. -/
def pooled : State :=
  let s := ringed aGang [(0x50000, aHandle), (0x60008, [9]), (0, aGang)]
  { s with ctxs := [(0, { s.ctx 0 with entries := [{ slot := 0, parent := 0, depth := 1, barrier := false, launch := none }] })] }

theorem wit_PoolDispatch :
    readBytes pooled.mem 0 64 = aGang
      ∧ (readCheck pooled 0x50000 fun l w => decide ((launchReason w (pooled.ctx 0) true aGang (handleOf l)).1 = none)) = true := by decide +kernel

/-- Two entries of a pool, the first of which may dispatch. -/
theorem wit_PoolOrder :
    let e : PoolEntry := { slot := 0, parent := 0, depth := 1, barrier := false, launch := none }
    let s := { pooled with ctxs := [(0, { pooled.ctx 0 with entries := [e, { e with slot := 1 }] })] }
    (s.ctx 0).entries = [] ++ e :: [] ++ { e with slot := 1 } :: [] ∧ e.launch = none ∧ e.barrier = false := by decide +kernel
/-! ## Witnesses: the host, boot, repair and power -/

/-- Poison in word 0x1000 ÷ 8 of device memory. -/
def poisoned : State := { drawing Gfx.reset with poison := [(0x200, 0)] }

theorem wit_HostAccesses :
    isDev 0x1000 = true ∧ isDev (0x1000 + 64 - 1) = true ∧ poisonAt poisoned 0x2000 64 = none ∧ (poisonAt poisoned 0x1000 64).isSome = true
      ∧ isDev (108 * 2 ^ 30 - 1) = true ∧ isDev (108 * 2 ^ 30) = false ∧ poisoned.mem.wf = true ∧ (poisonAt poisoned 0x1000 4).isSome = true
      ∧ State.reset.hostif.regs.configured = false := by decide +kernel

/-- A flip that has one page left, in memory and outside. -/
def flipping (page : Nat) : State :=
  { State.reset with hostif := { HostIf.reset with bias := { Bias.reset with flip := some { page := page, left := 1, toHost := true } } } }

theorem wit_BiasFlips :
    State.reset.hostif.bias.flip = none ∧ (flipping 1).hostif.bias.flip = some { page := 1, left := 1, toHost := true } ∧ isDev (4096 * 1) = true
      ∧ isDev (4096 * (27 * 2 ^ 20)) = false := by decide +kernel

/-- Context 0 posts from 0x5000: slot 0 asks for a fetch-add of four bytes at the virtual address given; a page of host memory is mapped there at
2^30 where the last flag says so. -/
def posting (va : Nat) (host : Bool) : State :=
  let s := drawing Gfx.reset
  { s with
    ctxs := [(0, { s.ctx 0 with post := 5 })]
    dies := s.dies.set 0 { s.dies.get 0 with lease := { Lease.reset with role := 1, term := 1 } }
    mem := writeBytes (if host then writeBytes s.mem 0x11000008 (leBytes 8 (0x1FF + 2 ^ 51)) else s.mem) 0x5000
      (leBytes 8 1 ++ [0, 4] ++ List.replicate 6 0 ++ leBytes 8 va ++ leBytes 8 3) }

theorem wit_AtomicProxy :
    duties (posting 0x2000 false) = true ∧ ((posting 0x2000 false).ctx 0).st = .active ∧ ((posting 0x2000 false).ctx 0).post ≠ 0
      ∧ (posting 0x2000 false).mem.wf = true ∧ isDev 0x5000 = true ∧ isDev (0x5000 + 63) = true ∧ poisonAt (posting 0x2000 false) 0x5000 64 = none
      ∧ readLE (posting 0x2000 false).mem 0x5000 8 = 1 ∧ canonical 0x80000000000000 = false
      ∧ (walkCheck (posting 0x80000000 false) ((posting 0 false).ctx 0) 0x80000000 3 false).isOk = false
      ∧ (match walkCheck (posting 0x2000 false) ((posting 0x2000 false).ctx 0) 0x2000 3 false with
          | .ok p => decide (p.mtype ≠ 2) && (walkUpdate (posting 0x2000 false) p 3).mem.wf && decide (paLoc (p.pa + (0x2000 - p.va)) = .dev 0x2000)
          | .error _ => false) = true
      ∧ (match walkCheck (posting 0x40000000 true) ((posting 0x40000000 true).ctx 0) 0x40000000 3 false with
          | .ok p => decide (p.mtype ≠ 2) && decide (paLoc (p.pa + (0x40000000 - p.va)) = .host 0)
          | .error _ => false) = true := by decide +kernel

/-- Every die is in a phase, with its identity derived. -/
def inPhase (p : BitVec 4) : State := { State.reset with dies := Vector.replicate 4 { Die.reset with boot := { BootSt.reset with phase := p, idok := true } } }

theorem wit_Attestation :
    State.reset.hostif.regs.devErr = 0 ∧ (∃ d, d < 4 ∧ (State.reset.die d).boot.phase.toNat < 2) ∧ (¬ ∃ d, d < 4 ∧ ((inPhase 2).die d).boot.phase.toNat < 2)
      ∧ ((inPhase 2).die 3).boot.idok = true ∧ (State.reset.die 3).boot.idok = false :=
  have h : ∀ d : Fin 4, ¬ ((inPhase 2).die d.val).boot.phase.toNat < 2 := by decide +kernel
  ⟨rfl, ⟨0, by decide +kernel⟩, fun ⟨d, hd, e⟩ => h ⟨d, hd⟩ e, by decide +kernel, by decide +kernel⟩

/-- The package after its phase 5. -/
def isReady (s : State) : State := { s with hostif := { s.hostif with regs := { s.hostif.regs with ready := true } } }

theorem wit_RegisterWrites :
    State.reset.hostif.ring.en = false ∧ State.reset.hostif.regs.ready = false ∧ (isReady State.reset).hostif.regs.ready = true
      ∧ ((isReady State.reset).ctx 63).st = .free ∧ ((isReady (ctxsIn .active .free)).ctx 0).st ≠ .free := by decide +kernel

theorem wit_FunctionLevelReset : State.reset.hostif.regs.ready = false ∧ (isReady State.reset).hostif.regs.ready = true := ⟨rfl, rfl⟩

theorem wit_RestartsWithoutBundle : directory State.reset.flash = none := by decide +kernel

/-! A signature that verifies whatever the message: the key's t1 and the signature's z and hints are zero, so the recovered vector is zero. -/

theorem length_of (f : Nat → Nat → BitVec 64) : (Sponge.of f).length = 25 := by simp [Sponge.of]

theorem length_rounds (n : Nat) : ∀ (a : Sponge) (r : Nat), a.length = 25 → (a.rounds r n).length = 25 := by
  induction n with
  | zero => exact fun a _ h => h
  | succ n ih => exact fun a r _ => ih _ _ (by simp [Sponge.chi, length_of])

theorem length_absorb (rate n : Nat) : ∀ (a : Sponge) (l : List Byte), a.length = 25 → (a.absorb rate n l).length = 25 := by
  induction n with
  | zero => exact fun a _ h => h
  | succ n ih => exact fun a l _ => ih _ _ (length_rounds _ _ _ (length_of _))

theorem length_leBytes (n : Nat) : ∀ v, (leBytes n v).length = n := by
  induction n with
  | zero => exact fun _ => rfl
  | succ n ih => exact fun v => by simp [leBytes, ih]

theorem length_shake256 (l : List Byte) : (shake256 l 32).length = 32 := by
  have h : ∀ a : Sponge, a.length = 25 → ((a.squeeze 136 1).take 32).length = 32 := by
    intro a ha
    have e : (a.flatMap fun w => leBytes 8 w.toNat).length = 200 := by
      simp [List.length_flatMap, length_leBytes, ha]
    simp [Sponge.squeeze, e]
  exact h _ (length_absorb _ _ _ _ (length_of _))

theorem foldl_zero (f : Nat × Nat → Nat) : ∀ l : List (Nat × Nat), (∀ c ∈ l, c.1 = 0) → l.foldl (fun v c => v + c.1 * f c) 0 = 0
  | [], _ => rfl
  | c :: l, h => by
    have hc := h c (by simp)
    simp only [List.foldl_cons, hc, Nat.zero_mul, Nat.add_zero]
    exact foldl_zero f l fun c hc => h c (List.mem_cons_of_mem _ hc)

theorem zipIdx_zero : ∀ c ∈ MlDsa.zero.zipIdx, c.1 = 0 := by
  intro c hc
  exact List.eq_of_mem_replicate (List.fst_mem_of_mem_zipIdx hc)

theorem ntt_zero : MlDsa.ntt MlDsa.zero = MlDsa.zero := by
  simp only [MlDsa.ntt, foldl_zero _ _ zipIdx_zero]
  decide +kernel

theorem intt_zero : MlDsa.intt MlDsa.zero = MlDsa.zero := by
  simp only [MlDsa.intt, foldl_zero _ _ zipIdx_zero]
  decide +kernel

theorem mul_replicate : ∀ (n : Nat) (p : MlDsa.Poly), p.length = n → MlDsa.mul p (List.replicate n 0) = List.replicate n 0
  | 0, [], _ => rfl
  | n + 1, c :: p, h => by
    have e := mul_replicate n p (by simpa using h)
    unfold MlDsa.mul at e ⊢
    rw [List.replicate_succ, List.zipWith_cons_cons, e, Nat.mul_zero, Nat.zero_mod]

theorem mul_zero' (p : MlDsa.Poly) (h : p.length = 256) : MlDsa.mul p MlDsa.zero = MlDsa.zero := mul_replicate 256 p h

theorem length_rejNtt (l : List Byte) : (MlDsa.rejNtt l).length = 256 := by
  simp only [MlDsa.rejNtt, MlDsa.firstN, List.length_append, List.length_take, List.length_replicate]
  omega

open MlDsa in
theorem mulMat_zero (rho : List Byte) : mulMat (expandA rho) (List.replicate 4 zero) = List.replicate 4 zero := by
  have m := fun l => mul_zero' (rejNtt l) (length_rejNtt l)
  have r : List.range 4 = [0, 1, 2, 3] := rfl
  have z : List.replicate 4 zero = [zero, zero, zero, zero] := rfl
  have s : MlDsa.sum [zero, zero, zero, zero] = zero := by decide +kernel
  simp only [mulMat, expandA, r, z, List.map_cons, List.map_nil, List.zipWith_cons_cons, List.zipWith_nil_right, m, s]

/-- A key of zeros. -/
def zeroKey : List Byte := List.replicate 1312 0

open MlDsa in
theorem recover_zero (c : Poly) : recover zeroKey c (List.replicate 4 zero) (List.replicate 4 zero) = List.replicate 4 zero := by
  have z : List.replicate 4 zero = [zero, zero, zero, zero] := rfl
  have t : ((pieces 320 4 (zeroKey.drop 32)).map fun l => (unpack 10 256 l).map fun v => v * 8192 % MlDsa.q) = [zero, zero, zero, zero] := by decide +kernel
  have k : (ntt c).length = 256 := by simp [ntt]
  have s : sub zero zero = zero := by decide +kernel
  have u : List.zipWith useHint zero zero = zero := by decide +kernel
  have m := mulMat_zero (zeroKey.take 32)
  rw [z] at m ⊢
  simp only [recover, t, List.map_cons, List.map_nil, ntt_zero, m, mul_zero' _ k, subV, List.zipWith_cons_cons, List.zipWith_nil_right, s, intt_zero, u]

/-- The signature's z and hints. -/
def zeroTail : List Byte := (List.replicate 4 MlDsa.zero).flatMap (MlDsa.packFrom 18 MlDsa.gamma1) ++ List.replicate 84 0

/-- A signature of a message with the key of zeros. -/
def zeroSig (msg : List Byte) : List Byte :=
  MlDsa.challenge (MlDsa.representative (shake256 zeroKey 64) msg) (List.replicate 4 MlDsa.zero) ++ zeroTail

theorem length_challenge (mu : List Byte) (w : MlDsa.PolyVec) : (MlDsa.challenge mu w).length = 32 := length_shake256 _

theorem length_zeroTail : zeroTail.length = 2388 := by decide +kernel

theorem length_zeroSig (msg : List Byte) : (zeroSig msg).length = 2420 := by
  rw [zeroSig, List.length_append, length_challenge, length_zeroTail]

theorem verify_zeroSig (msg : List Byte) : MlDsa.verify zeroKey msg (zeroSig msg) = true := by
  have a : (zeroSig msg).take 32 = MlDsa.challenge (MlDsa.representative (shake256 zeroKey 64) msg) (List.replicate 4 MlDsa.zero) :=
    List.take_left' (length_challenge _ _)
  have b : (zeroSig msg).drop 32 = zeroTail := List.drop_left' (length_challenge _ _)
  have c : (zeroSig msg).drop 2336 = zeroTail.drop 2304 := by
    rw [← b, List.drop_drop]
  have d : MlDsa.unpackHint (zeroTail.drop 2304) = some (List.replicate 4 MlDsa.zero) := by decide +kernel
  have e : (MlDsa.pieces 576 4 zeroTail).map (MlDsa.unpackFrom 18 MlDsa.gamma1) = List.replicate 4 MlDsa.zero := by decide +kernel
  have f : MlDsa.norm (List.replicate 4 MlDsa.zero) < MlDsa.gamma1 - 78 := by decide +kernel
  have g : zeroKey.length = 1312 := by decide +kernel
  unfold MlDsa.verify
  simp only [a, b, c, d, e, f, g, length_zeroSig, recover_zero, decide_true, Bool.and_self]

/-! A bundle of ten items: keys and helper data of zeros, a manifest of one key that is its own, firmware items with empty bodies, and a scan package
without patterns. -/

/-- The bytes of a signed item before its signature. -/
def itemHead (kind keyidx : Nat) (body : List Byte) : List Byte :=
  ([0x4B, 0x57, 0x49, 0x4D] : List Byte) ++ leBytes 2 kind ++ leBytes 2 keyidx ++ leBytes 4 0 ++ leBytes 4 body.length ++ List.replicate 48 0 ++ body

def anItem (kind keyidx : Nat) (body : List Byte) : List Byte := itemHead kind keyidx body ++ zeroSig (sha3 (itemHead kind keyidx body))

def manifestBody : List Byte := leBytes 4 1 ++ zeroKey

/-- A scan package of seqno 7 before its signature. -/
def scanHead : List Byte := ([0x4B, 0x53, 0x43, 0x4E] : List Byte) ++ leBytes 4 7 ++ List.replicate 56 0

def scanBytes : List Byte := scanHead ++ zeroSig (sha3 scanHead)

def bundleDir : Memory :=
  let entry := fun (k d o n : Nat) => leBytes 2 k ++ leBytes 2 d ++ leBytes 4 o ++ leBytes 4 n ++ leBytes 4 0
  writeBytes [] 0 (([0x4B, 0x57, 0x42, 0x44] : List Byte) ++ leBytes 4 10 ++ entry 1 0 0x10000 1312 ++ entry 2 0 0x1000 3800 ++ entry 3 0 0x2000 2484
    ++ entry 4 0 0x3000 2484 ++ entry 5 0 0x10000 1312 ++ entry 7 0 0x10000 128 ++ entry 7 1 0x10000 128 ++ entry 7 2 0x10000 128 ++ entry 7 3 0x10000 128
    ++ entry 6 0 0x4000 2484)

def aBundle : Memory :=
  writeBytes (writeBytes (writeBytes (writeBytes bundleDir 0x1000 (anItem 2 0xFFFE manifestBody)) 0x2000 (anItem 3 0 [])) 0x3000 (anItem 4 0 [])) 0x4000 scanBytes

theorem length_anItem (k i : Nat) (b : List Byte) : (anItem k i b).length = 64 + b.length + 2420 := by
  simp [anItem, itemHead, length_leBytes, length_zeroSig]; omega

theorem readBytes_congr {m m' : Memory} (a n : Nat) (h : ∀ i, i < n → readByte m (a + i) = readByte m' (a + i)) : readBytes m a n = readBytes m' a n := by
  induction n generalizing a with
  | zero => rfl
  | succ n ih =>
    have e := ih (a + 1) fun i hi => by simpa [Nat.add_assoc, Nat.add_comm 1] using h (i + 1) (by omega)
    have f : readByte m a = readByte m' a := h 0 (by omega)
    rw [readBytes, readBytes, e, f]

theorem readBytes_written {m : Memory} (h : m.wf = true) (a : Nat) (l : List Byte) : readBytes (writeBytes m a l) a l.length = l := by
  apply List.ext_getElem (by simp)
  intro i h1 h2
  rw [← List.getD_eq_getElem _ 0 h1, getD_readBytes _ _ _ _ h2, readByte_writeBytes h]
  simp [h2]

theorem readBytes_apart {m : Memory} (h : m.wf = true) (a b n : Nat) (l : List Byte) (d : b + n ≤ a ∨ a + l.length ≤ b) :
    readBytes (writeBytes m a l) b n = readBytes m b n := by
  refine readBytes_congr _ _ fun i hi => ?_
  rw [readByte_writeBytes h, if_neg (by omega)]

theorem readLE_congr {m m' : Memory} (a n : Nat) (h : ∀ i, i < n → readByte m (a + i) = readByte m' (a + i)) : readLE m a n = readLE m' a n := by
  induction n generalizing a with
  | zero => rfl
  | succ n ih =>
    have e := ih (a + 1) fun i hi => by simpa [Nat.add_assoc, Nat.add_comm 1] using h (i + 1) (by omega)
    have f : readByte m a = readByte m' a := h 0 (by omega)
    rw [readLE, readLE, e, f]

theorem wf_bundleDir : bundleDir.wf = true := wf_writeBytes rfl _ _

/-- Below its items the bundle is its directory. -/
theorem bundle_low (a : Nat) (h : a < 0x1000) : readByte aBundle a = readByte bundleDir a := by
  have w1 := wf_writeBytes wf_bundleDir 0x1000 (anItem 2 0xFFFE manifestBody)
  have w2 := wf_writeBytes w1 0x2000 (anItem 3 0 [])
  have w3 := wf_writeBytes w2 0x3000 (anItem 4 0 [])
  rw [aBundle, readByte_writeBytes w3, if_neg (by omega), readByte_writeBytes w2, if_neg (by omega), readByte_writeBytes w1, if_neg (by omega), readByte_writeBytes wf_bundleDir, if_neg (by omega)]

def bundleEntries : List DirEntry :=
  [⟨1, 0, 0x10000, 1312, 0⟩, ⟨2, 0, 0x1000, 3800, 0⟩, ⟨3, 0, 0x2000, 2484, 0⟩, ⟨4, 0, 0x3000, 2484, 0⟩, ⟨5, 0, 0x10000, 1312, 0⟩,
    ⟨7, 0, 0x10000, 128, 0⟩, ⟨7, 1, 0x10000, 128, 0⟩, ⟨7, 2, 0x10000, 128, 0⟩, ⟨7, 3, 0x10000, 128, 0⟩, ⟨6, 0, 0x4000, 2484, 0⟩]

theorem bundle_directory : directory aBundle = some bundleEntries := by
  have n : readLE aBundle 4 4 = 10 := by
    rw [readLE_congr 4 4 fun i _ => bundle_low _ (by omega)]; decide +kernel
  have g : readBytes aBundle 0 4 = [0x4B, 0x57, 0x42, 0x44] := by
    rw [readBytes_congr 0 4 fun i _ => bundle_low _ (by omega)]; decide +kernel
  have e : (List.range 10).map (dirEntry aBundle) = bundleEntries := by
    have c : ∀ i ∈ List.range 10, dirEntry aBundle i = dirEntry bundleDir i := by
      intro i hi
      have := List.mem_range.mp hi
      rw [dirEntry, dirEntry, readBytes_congr (8 + 16 * i) 16 fun j _ => bundle_low _ (by omega)]
    rw [List.map_congr_left c]; decide +kernel
  have k : bundleEntries.all DirEntry.ok = true ∧ (List.range 5).all (fun k => decide ((entriesOf bundleEntries (k + 1) 0).length = 1)) = true
      ∧ (List.range 4).all (fun d => decide ((entriesOf bundleEntries 7 d).length = 1) && decide ((entriesOf bundleEntries 8 d).length ≤ 1)) = true := by
    decide +kernel
  simp only [directory, n, e]
  rw [if_pos ⟨g, by decide, by decide, k⟩]

theorem bundle_items :
    itemBytes aBundle bundleEntries 2 0 = anItem 2 0xFFFE manifestBody ∧ itemBytes aBundle bundleEntries 3 0 = anItem 3 0 []
      ∧ itemBytes aBundle bundleEntries 4 0 = anItem 4 0 [] ∧ readBytes aBundle 0x4000 2484 = scanBytes := by
  have w1 := wf_writeBytes wf_bundleDir 0x1000 (anItem 2 0xFFFE manifestBody)
  have w2 := wf_writeBytes w1 0x2000 (anItem 3 0 [])
  have b : manifestBody.length = 1316 := by decide +kernel
  have l2 : (anItem 2 0xFFFE manifestBody).length = 3800 := by rw [length_anItem, b]
  have l3 : (anItem 3 0 []).length = 2484 := length_anItem _ _ _
  have l4 : (anItem 4 0 []).length = 2484 := length_anItem _ _ _
  have w3 := wf_writeBytes w2 0x3000 (anItem 4 0 [])
  have l5 : scanBytes.length = 2484 := by simp [scanBytes, scanHead, length_leBytes, length_zeroSig]
  refine ⟨?_, ?_, ?_, ?_⟩
  · show readBytes aBundle 0x1000 3800 = _
    rw [aBundle, readBytes_apart w3 _ _ _ _ (by omega), readBytes_apart w2 _ _ _ _ (by omega), readBytes_apart w1 _ _ _ _ (by omega)]
    rw [show (3800 : Nat) = _ from l2.symm, readBytes_written wf_bundleDir]
  · show readBytes aBundle 0x2000 2484 = _
    rw [aBundle, readBytes_apart w3 _ _ _ _ (by omega), readBytes_apart w2 _ _ _ _ (by omega)]
    rw [show (2484 : Nat) = _ from l3.symm, readBytes_written w1]
  · show readBytes aBundle 0x3000 2484 = _
    rw [aBundle, readBytes_apart w3 _ _ _ _ (by omega)]
    rw [show (2484 : Nat) = _ from l4.symm, readBytes_written w2]
  · rw [aBundle, show (2484 : Nat) = _ from l5.symm, readBytes_written w3]

def theScan : ScanItem := { seqno := 7, misr := List.replicate 32 0, reservedZero := true, signed := scanHead, sig := zeroSig (sha3 scanHead) }

theorem scanItem_scanBytes : scanItem scanBytes = some theScan := by
  have len : scanHead.length = 64 := by decide +kernel
  have f : ∀ o n, o + n ≤ 64 → fieldAt scanBytes o n = fieldAt scanHead o n := by
    intro o n h
    rw [fieldAt, fieldAt, scanBytes, List.drop_append_of_le_length (by omega), List.take_append_of_le_length (by simp; omega)]
  have n : fieldAt scanBytes 8 4 = 0 := (f 8 4 (by omega)).trans (by decide +kernel)
  have q : fieldAt scanBytes 4 4 = 7 := (f 4 4 (by omega)).trans (by decide +kernel)
  have z : zeroAt scanBytes 48 16 = true := by rw [zeroAt, f 48 16 (by omega)]; decide +kernel
  have t : scanBytes.take 4 = [0x4B, 0x53, 0x43, 0x4E] := by rw [scanBytes, List.take_append_of_le_length (by omega)]; decide +kernel
  have r : (scanBytes.drop 16).take 32 = List.replicate 32 0 := by
    rw [scanBytes, List.drop_append_of_le_length (by omega), List.take_append_of_le_length (by simp; omega)]; decide +kernel
  have s : scanBytes.take 64 = scanHead := by rw [scanBytes, List.take_left' len]
  have d : scanBytes.drop 64 = zeroSig (sha3 scanHead) := by rw [scanBytes, List.drop_left' len]
  have l : scanBytes.length = 64 + 0 + 2420 := by rw [scanBytes, List.length_append, len, length_zeroSig]
  unfold scanItem
  rw [n, q, z, r]
  dsimp only
  rw [if_pos ⟨t, Nat.zero_mod _, l⟩, Nat.add_zero, s, d]
  rfl

theorem bundledScan_of {m : Memory} {es : List DirEntry} {o n : Nat} {b : List Byte} {i : ScanItem} {seqno : BitVec 32} (hd : directory m = some es)
    (he : entriesOf es 6 0 = [⟨6, 0, o, n, 0⟩]) (hb : readBytes m o n = b) (hi : scanItem b = some i) (hs : i.seqno = seqno) :
    bundledScan m seqno = some i := by
  simp [bundledScan, hd, he, hb, hi, hs]

theorem bundled_scan : bundledScan aBundle 7 = some theScan := by
  have e : entriesOf bundleEntries 6 0 = [⟨6, 0, 0x4000, 2484, 0⟩] := by decide +kernel
  exact bundledScan_of bundle_directory e bundle_items.2.2.2 scanItem_scanBytes rfl

/-- A well-formed item is its head and its signature. -/
theorem signedItem_anItem (k i : Nat) (b : List Byte) (hd : (itemHead k i b).take 4 = [0x4B, 0x57, 0x49, 0x4D]) (hk : fieldAt (itemHead k i b) 4 2 = k)
    (hz : zeroAt (itemHead k i b) 32 32 = true) (hn : fieldAt (itemHead k i b) 12 4 = b.length) (hi : fieldAt (itemHead k i b) 6 2 = i) :
    ∃ x, signedItem k (anItem k i b) = some x ∧ x.keyidx = i ∧ x.body = b ∧ x.signed = itemHead k i b ∧ x.sig = zeroSig (sha3 (itemHead k i b)) := by
  have len : (itemHead k i b).length = 64 + b.length := by simp [itemHead, length_leBytes]; omega
  have f : ∀ o n, o + n ≤ 64 → fieldAt (anItem k i b) o n = fieldAt (itemHead k i b) o n := by
    intro o n h
    rw [fieldAt, fieldAt, anItem, List.drop_append_of_le_length (by omega), List.take_append_of_le_length (by simp; omega)]
  have z : zeroAt (anItem k i b) 32 32 = true := by rw [zeroAt, f 32 32 (by omega)]; exact hz
  have t : (anItem k i b).take 4 = [0x4B, 0x57, 0x49, 0x4D] := by rw [anItem, List.take_append_of_le_length (by omega)]; exact hd
  have n : fieldAt (anItem k i b) 12 4 = b.length := (f 12 4 (by omega)).trans hn
  have s : (anItem k i b).take (64 + b.length) = itemHead k i b := by rw [anItem, List.take_left' len]
  have d : (anItem k i b).drop (64 + b.length) = zeroSig (sha3 (itemHead k i b)) := by rw [anItem, List.drop_left' len]
  have bd : ((anItem k i b).drop 64).take b.length = b := by
    have e : ((anItem k i b).take (64 + b.length)).drop 64 = b := by
      rw [s, itemHead]
      exact List.drop_left' (by simp [length_leBytes])
    rw [List.drop_take] at e
    simpa using e
  rw [signedItem, n, if_pos ⟨t, (f 4 2 (by omega)).trans hk, z, length_anItem _ _ _⟩]
  exact ⟨_, rfl, (f 6 2 (by omega)).trans hi, bd, s, d⟩

theorem keys_manifestBody : manifestKeys manifestBody = some [zeroKey] := by
  have n : fieldAt manifestBody 0 4 = 1 := by decide +kernel
  have l : manifestBody.length = 4 + 1312 * 1 := by rw [manifestBody, List.length_append, length_leBytes, zeroKey, List.length_replicate]
  have d : (manifestBody.drop (4 + 1312 * 0)).take 1312 = zeroKey := by
    rw [manifestBody, List.drop_left' (by simp [length_leBytes])]
    exact List.take_of_length_le (Nat.le_of_eq List.length_replicate)
  simp only [manifestKeys, n]
  rw [if_pos ⟨by decide, by decide, l⟩]
  simp only [List.range_one, List.map_cons, List.map_nil, d]

theorem verify_firmware (k : Nat) (h : k = 3 ∨ k = 4) : ∃ x, verifyItem [zeroKey] k (anItem k 0 []) = .ok x := by
  have e : ∃ x, signedItem k (anItem k 0 []) = some x ∧ x.keyidx = 0 ∧ x.body = [] ∧ x.signed = itemHead k 0 [] ∧ x.sig = zeroSig (sha3 (itemHead k 0 [])) := by
    obtain rfl | rfl := h <;> exact signedItem_anItem _ _ _ (by decide +kernel) (by decide +kernel) (by decide +kernel) (by decide +kernel) (by decide +kernel)
  obtain ⟨x, hx, hi, -, hs, hg⟩ := e
  have v : x.verifies zeroKey = true := by rw [SignedItem.verifies, hs, hg]; exact verify_zeroSig _
  refine ⟨x, ?_⟩
  simp only [verifyItem, hx, hi, List.getElem?_cons_zero, v, if_true]

theorem verify_manifest : ∃ x, verifyManifest (itemBytes aBundle bundleEntries 1 0) (anItem 2 0xFFFE manifestBody) = .ok (x, [zeroKey]) := by
  obtain ⟨x, hx, hi, hb, hs, hg⟩ := signedItem_anItem 2 0xFFFE manifestBody (by decide +kernel) (by decide +kernel) (by decide +kernel) (by decide +kernel)
    (by decide +kernel)
  have v : x.verifies zeroKey = true := by rw [SignedItem.verifies, hs, hg]; exact verify_zeroSig _
  refine ⟨x, ?_⟩
  simp only [verifyManifest, hx, hb, keys_manifestBody, hi]
  simp only [v, List.headD_cons, if_true]
  exact if_neg (by decide)

theorem verifyBundle_ok {m : Memory} {es : List DirEntry} {x a b : SignedItem} {keys : List (List Byte)}
    (hm : verifyManifest (itemBytes m es 1 0) (itemBytes m es 2 0) = .ok (x, keys)) (ha : verifyItem keys 3 (itemBytes m es 3 0) = .ok a)
    (hb : verifyItem keys 4 (itemBytes m es 4 0) = .ok b) : ∃ v, verifyBundle m es = .ok v := by
  unfold verifyBundle
  simp only [hm, ha, hb]
  exact ⟨_, rfl⟩

/-- The bundle verifies; whether the ROM's own check passes is a free value. -/
theorem wit_ColdBoot : ∃ es v, directory aBundle = some es ∧ verifyBundle aBundle es = .ok v := by
  obtain ⟨i2, i3, i4, -⟩ := bundle_items
  obtain ⟨m, hm⟩ := verify_manifest
  obtain ⟨a, ha⟩ := verify_firmware 3 (.inl rfl)
  obtain ⟨b, hb⟩ := verify_firmware 4 (.inr rfl)
  obtain ⟨v, hv⟩ := verifyBundle_ok ((congrArg (verifyManifest _) i2).trans hm) ((congrArg (verifyItem _ 3) i3).trans ha) ((congrArg (verifyItem _ 4) i4).trans hb)
  exact ⟨_, v, bundle_directory, hv⟩

/-- Phase 1 is done on every die, or phase 0 runs. -/
theorem wit_BootIdentifiers :
    (∀ d : Fin 4, ((inPhase 1).die d.val).boot.phase.toNat < 2) ∧ (inPhase 1).hostif.regs.pkgidValid = false ∧ (0x83FE : BitVec 16).toNat % 1024 ≠ 0x3FF
      ∧ (0x83FF : BitVec 16).toNat % 1024 = 0x3FF ∧ (¬ ∀ d : Fin 4, ((inPhase 2).die d.val).boot.phase.toNat < 2) ∧ (State.reset.die 3).boot.phase = 0
      ∧ (State.reset.die 3).boot.err = 0 ∧ (State.reset.hartOf (8 * (4160 + 3))).run = .firmware ∧ (State.reset.hartOf (8 * (4160 + 3))).pc.toNat < 0x20000 := by
  decide +kernel

/-- The error window of site 5: one below its threshold, at it, and full. -/
theorem wit_ErrorWindows :
    (let e := { SiteErr.reset with level := 31 }; e.req = false ∧ e.thresh ≠ 0 ∧ e.level + 1 = e.thresh) ∧ (State.reset.die 0).scrub = true
      ∧ (State.reset.die 0).memscrub = true ∧ isDev 0x2000 = true ∧ 0x3FFFC < 0x40000 ∧ (State.reset.coreOf 5).spBad = [] := by decide +kernel

/-- Module 0 of die 0 one error below its threshold; retired; port 16 where no cistern has the leader's duties. -/
def pathAt (level : BitVec 16) (ret : Bool) : State :=
  { State.reset with dies := State.reset.dies.set 0 { Die.reset with paths := Die.reset.paths.set 0 { PathHlth.reset with level := level, retired := ret } } }

/-- Port 16 of die 1 has reached its threshold while nobody held the lease; die 0 holds it now. -/
def portDue : State :=
  { State.reset with
    dies := (Vector.replicate 4 { Die.reset with lease := { Lease.reset with role := 1, term := 3 } }).set 1
      { Die.reset with paths := Die.reset.paths.set 16 { PathHlth.reset with level := 1024 } } }

theorem wit_PathHealth_due :
    duties portDue = true ∧ (let g := (portDue.die 1).paths.get (Fin.ofNat 22 16); g.thresh ≠ 0 ∧ g.thresh.toNat ≤ g.level.toNat ∧ g.retired = false)
      ∧ (∀ i : Fin 6, let g := (State.reset.die 1).paths.get (Fin.ofNat 22 (16 + i.val)); ¬ (g.thresh ≠ 0 ∧ g.thresh.toNat ≤ g.level.toNat ∧ g.retired = false)) := by
  decide +kernel

theorem wit_PathHealth :
    (let h := ((pathAt 1023 false).die 0).paths.get (Fin.ofNat 22 0); h.thresh ≠ 0 ∧ h.thresh.toNat ≤ h.level.toNat + 1 ∧ h.retired = false)
      ∧ (let h := ((pathAt 1022 false).die 0).paths.get (Fin.ofNat 22 0); ¬ h.thresh.toNat ≤ h.level.toNat + 1) ∧ duties (pathAt 1023 false) = false
      ∧ (((pathAt 1023 true).die 0).paths.get (Fin.ofNat 22 0)).retired = true := by decide +kernel

/-- Leases of the four dies. -/
def leases (l : Nat → Lease) : State := { State.reset with dies := Vector.ofFn fun d => { Die.reset with lease := l d.val } }

/-- Die 0 leads in term 3; die 1 has lapsed, and die 2 is a candidate of term 4. -/
def voting (votes : List Nat) : State :=
  leases fun d => if d = 0 then { Lease.reset with role := 1, term := 3, granted := 3 } else if d = 2 then
      { Lease.reset with role := 2, term := 3, claim := 4, granted := 4, votes := votes } else { Lease.reset with term := 3, granted := 3, lapsed := true }

theorem wit_LeaseProtocol :
    (let l := ((voting []).die 0).lease; l.leader.toNat = 0 ∧ l.role = 1 ∧ l.failed = false ∧ 1 ∉ l.acks)
      ∧ (let l := ((voting []).die 1).lease; l.role = 0 ∧ l.failed = false ∧ l.lapsed = true ∧ l.granted.toNat ≤ l.term.toNat)
      ∧ (let l := (State.reset.die 1).lease; l.role = 0 ∧ l.failed = false ∧ l.lapsed = false)
      ∧ (let l := ((leases fun _ => { Lease.reset with role := 3, acks := [2] }).die 1).lease; l.role = 3 ∧ l.acks ≠ [])
      ∧ (let c := ((voting []).die 2).lease; c.role = 2 ∧ ((voting []).die 1).lease.granted.toNat < c.claim.toNat
          ∧ ((voting []).die 1).lease.term.toNat < c.claim.toNat ∧ c.votes = [])
      ∧ ((voting [3]).die 2).lease.votes ≠ [] ∧ ((voting []).die 0).boot.phase ≠ 5 := by decide +kernel

theorem wit_FailedAgents :
    Spec.Rising (ctxsIn .active .free).ctxs ∧ Spec.Rising (ctxsIn .active .free).cores ∧ ((ctxsIn .active .free).die 0).hben = true
      ∧ (let s := leases fun _ => { Lease.reset with lapsed := true, leader := 2 }; (∀ e : Fin 4, e.val ≠ 2 → (s.die e.val).lease.lapsed = true ∧ (s.die e.val).lease.leader.toNat = 2)
          ∧ (s.die 2).lease.failed = false) := by unfold Spec.Rising; decide +kernel

/-- A cistern has the duties, and context 0 is to become Fatal. -/
def dying : State :=
  let s := ctxsIn .active .free
  { s with dies := s.dies.set 0 { s.dies.get 0 with lease := { Lease.reset with role := 1, term := 1 } }
           ctxs := [(0, { s.ctx 0 with fatal := some (0x141, 1) })] }

theorem wit_FatalContext :
    Spec.Rising dying.cores ∧ (dying.ctx 0).fatal = some (0x141, 1) ∧ (dying.ctx 0).st = .active ∧ duties dying = true
      ∧ (∀ d : Fin 4, (dying.die d.val).move = none) := by unfold Spec.Rising; decide +kernel

/-- Harts of cores (1, 0) and (2, 0) have expired while they wait for each other's messages. -/
def deadlocked (cyc : Word) : State :=
  let h := fun (peer : BitVec 32) => { hart 0 with wait := { (hart 0).wait with reason := 0x02, peer := peer, expired := true }, user := { UserRegs.reset with cyc := cyc } }
  let m := fun (tag : Nat) => { Mailbox.reset with fifos := Mailbox.reset.fifos.set (tag % 32) [0] (Nat.mod_lt _ (by decide)) }
  { dying with
    harts := [(0, h 2), (8, h 1)]
    cores := [(0, { dying.c with mail := m 0 }), (1, { Core.reset with coreid := 2, asg := { valid := true, spare := false, coord := 2 }, mail := m 0 })]
    ctxs := [(0, { dying.ctx 0 with fatal := none })] }

/-- The cycle through these cores has been reported, and is found once more through other harts of theirs. -/
theorem wit_WaitCycles_told :
    let m := fun (core : BitVec 32) (hart : Nat) => { waitMember (deadlocked 0) hart with core := core }
    let w : WaitCycle := { members := [m 1 1, m 2 9], backs := [], reported := false }
    let x : WaitCycle := { members := [m 1 0, m 2 8], backs := [], reported := true }
    let s := { deadlocked 0 with walks := [] ++ w :: [x] }
    duties s = true ∧ s.walks[0]? = some w ∧ ∃ y ∈ ([] ++ [x] : List WaitCycle), y.reported = true ∧ y.members.map (·.core) = w.members.map (·.core) := by
  decide +kernel

/-- The second hart waits in package 5, which has told of it. -/
def deadlockedFar : State :=
  let w := { (hart 0).wait with reason := 0x02, peer := 0x01400002, expired := true }
  { deadlocked 0 with
    harts := [(0, { hart 0 with wait := w })]
    remote := [{ core := 0x01400002, peer := 1, hart := 8, serial := 3, word := 0x142, cyc := 0x8000 }] }

theorem wit_WaitCycles :
    let s := deadlocked 0
    let cx := s.ctx 0
    duties s = true ∧ s.walks = [] ∧ waitEdge s 0 = some (1, 2) ∧ waitEdge s 8 = some (2, 1) ∧ ctxOfAgent s 0 = some (0, cx)
      ∧ { who := waitMember s 0, peer := 2 } ∈ ctxEdges s cx ∧ { who := waitMember s 8, peer := 1 } ∈ ctxEdges s cx ∧ waitEdge atU 0 = none
      ∧ (let m := waitMember s 0; let t := deadlocked 0x8000
         coordPkg m.core = t.hostif.regs.pkgid.toNat ∧ (t.coreOf (m.hart / 8)).coreid = m.core ∧ (t.hartOf m.hart).serial = m.serial ∧ waitWord t m.hart = m.word
           ∧ 2 ^ 15 ≤ ((t.hartOf m.hart).user.cyc - m.cyc).toNat ∧ ¬ 2 ^ 15 ≤ ((s.hartOf m.hart).user.cyc - m.cyc).toNat)
      ∧ (let t := deadlockedFar
         (∃ r ∈ t.remote, waitEdge t 0 = some (r.peer, r.core) ∧ r.peer ≠ r.core ∧ { who := waitMember t 0, peer := r.core } ∈ ctxEdges t cx
             ∧ 2 ^ 15 ≤ (r.cyc - 0).toNat)
           ∧ duties t = true ∧ t.walks = [] ∧ ctxOfAgent t 0 = some (0, cx) ∧ coordPkg (0x01400002 : BitVec 32) ≠ t.hostif.regs.pkgid.toNat) := by decide +kernel

/-- Site 0 of die 0 holds core (1, 0) and has asked to be evacuated; sites 1 and 33 are spares. -/
def evacuating (st : MoveState) (moving : Bool) (term : BitVec 32 := 1) : State :=
  let s := dying
  let sp : Core := { Core.reset with asg := { valid := true, spare := true, coord := 0 } }
  { s with
    harts := [], cores := [(0, { s.c with sluice := Sluice.reset }), (1, sp), (33, sp)], ctxs := [(0, { s.ctx 0 with fatal := none })]
    dies := s.dies.set 0 { s.dies.get 0 with
      evac := if moving then [] else [0], move := if moving then some { coord := 1, old := 0, spare := 1, st := st, term := term, diverted := [] } else none } }

/-- Only sites 1 and 33 are spares. -/
theorem spare_evacuating {s : State} {a b c : Core} (h : s.cores = [(0, a), (1, b), (33, c)]) (h0 : a.asg.spare = false) {k : Nat}
    (hk : (s.coreOf k).asg.spare = true) : k = 1 ∨ k = 33 := by
  by_contra hn
  rw [not_or] at hn
  rw [State.coreOf, h] at hk
  by_cases e : k = 0
  · subst e; simp [smGet, h0] at hk
  · have a : smGet Core.reset k [(0, a), (1, b), (33, c)] = Core.reset := by
      simp [smGet, Ne.symm e, Ne.symm hn.1, Ne.symm hn.2]
    rw [a] at hk
    exact absurd hk (by decide)

theorem wit_NearestSpare (st : MoveState) (b : Bool) (t : BitVec 32) : Spec.NearestSpare (evacuating st b t) 0 1 := by
  refine ⟨⟨rfl, by decide, rfl, rfl, rfl⟩, fun k hk => ?_⟩
  obtain rfl | rfl := spare_evacuating (s := evacuating st b t) rfl rfl hk.2.2.2.1 <;> decide

theorem wit_SiphonMove :
    duties (evacuating .hold false) = true ∧ ((evacuating .hold false).die 0).evac = [0] ∧ ((evacuating .hold false).die 0).move = none
      ∧ ((evacuating .hold false).coreOf 0).asg.valid = true ∧ ((evacuating .hold false).coreOf 0).asg.spare = false
      ∧ ((evacuating .flip true).die 0).move = some { coord := 1, old := 0, spare := 1, st := .flip, term := 1, diverted := [] }
      ∧ leaderTerm (evacuating .copy true) = 1 ∧ ((evacuating .copy true 0).die 0).move.map (·.term) = some 0
      ∧ (∀ e ∈ ctxOfAgent (evacuating .hold false) 0, e.2.st ≠ .saving ∧ e.2.st ≠ .restoring)
      ∧ (∀ j : Fin 8, ((evacuating .hold true).hartOf j.val).run = .free) ∧ ((evacuating .hold true).coreOf 0).pstores = []
      ∧ ((evacuating .hold true).coreOf 0).sluice.faults = [] ∧ dieOfCoord 1 = 0 ∧ ((evacuating .hold true).ctx 0).fatal = none
      ∧ (dying.ctx 0).fatal.isSome = true ∧ (dying.ctx 0).rows.getLsbD (coordRow 1) = true := by decide +kernel

/-- A site waits for its scan; the package of the bundle has a number that is the highest accepted, or below it. -/
def scanning (seqno : BitVec 32) : State :=
  { State.reset with flash := aBundle, cores := [(5, { Core.reset with pool := .scan })]
                     dies := State.reset.dies.set 0 { Die.reset with scanseq := seqno, ident := { (Die.reset).ident with scanKey := zeroKey }
                                                                     boot := { BootSt.reset with scanok := true } } }

theorem wit_SiteScans :
    ∃ i, bundledScan (scanning 7).flash 7 = some i ∧ ((scanning 7).coreOf 5).pool = .scan
      ∧ (let v := (scanning 7).die 0
         ¬ (v.boot.scanok = false ∨ MlDsa.verify v.ident.scanKey (sha3 i.signed) i.sig = false ∨ i.reservedZero = false ∨ (7 : BitVec 32).toNat < v.scanseq.toNat))
      ∧ i.misr = List.replicate 32 0 ∧ bundledScan (scanning 8).flash 7 = some i ∧ (7 : BitVec 32).toNat < ((scanning 8).die 0).scanseq.toNat
      ∧ ((scanning 7).coreOf 4).pool ≠ .scan := by
  have f : ∀ q, (scanning q).flash = aBundle := fun q => by simp only [scanning]
  have e : ∀ q, bundledScan (scanning q).flash 7 = some theScan := fun q => (congrArg (bundledScan · 7) (f q)).trans bundled_scan
  refine ⟨theScan, e 7, rfl, ?_, rfl, e 8, ?_, ?_⟩
  rotate_left
  · rw [show ((scanning 8).die 0).scanseq = 8 from rfl]; decide
  · rw [show ((scanning 7).coreOf 4).pool = .normal from rfl]; decide
  have g : MlDsa.verify ((scanning 7).die 0).ident.scanKey (sha3 theScan.signed) theScan.sig = true := verify_zeroSig (sha3 scanHead)
  intro v h
  obtain h | h | h | h := h
  · cases h
  · rw [g] at h; cases h
  · cases h
  · rw [show v.scanseq = 7 from rfl] at h
    exact absurd h (by decide)

theorem wit_SelfTestAndDiscovery :
    ((inPhase 2).die 0).boot.phase = 2 ∧ ((inPhase 2).die 0).boot.err = 0 ∧ ((inPhase 2).coreOf 7).test.rtrok = false
      ∧ (let v := { Die.reset with mcast := { Mcast.reset with flood := true, reports := 1023 } }; v.mcast.flood = true ∧ v.mcast.reports ≠ 1024
          ∧ smFind 1023 v.disc = none) := by decide +kernel

/-- A multicast of 512 bytes to offset 0x3FE00, of which no site has taken its copy. -/
def sending512 : State :=
  { evacuating .hold false with dies := (evacuating .hold false).dies.set 0 { (evacuating .hold false).dies.get 0 with
      mcast := { Mcast.reset with len := 512, offset := 0x3FE00, busy := true } } }

theorem wit_MulticastAndPlacement :
    (sending512.die 0).mcast.busy = true ∧ (sending512.coreOf 0).asg.valid = true ∧ 0 ∉ (sending512.die 0).mcast.acks ∧ (sending512.coreOf 0).sp.wf = true
      ∧ (sending512.coreOf 4160).sp.wf = true ∧ (sending512.die 0).boot.err = 0 ∧ ((evacuating .hold false).die 0).mcast.busy = false
      ∧ 512 ≤ (512 : BitVec 19).toNat ∧ (0x3FE00 : BitVec 18).toNat + (512 : BitVec 19).toNat ≤ 0x40000 ∧ ((inPhase 2).die 0).boot.phase = 2 := by decide +kernel

/-- Die 0 trains near memory 0; the others of its kind have passed `n` steps. -/
def training (step : BitVec 8) (tries n : Nat) : State :=
  { State.reset with dies := State.reset.dies.set 0 { Die.reset with
      boot := { BootSt.reset with phase := 3 }
      nmtrn := (Vector.replicate 3 { MemTrn.reset with step := BitVec.ofNat 8 n, state := if n = 8 then 2 else 1 }).set 0 { MemTrn.reset with step := step, state := 1, tries := tries }
      fmtrn := Vector.replicate 12 { MemTrn.reset with step := BitVec.ofNat 8 n, state := if n = 8 then 2 else 1 } } }

theorem wit_Training :
    ((training 4 0 7).die 0).boot.phase = 3 ∧ (let m := ((training 4 2 7).die 0).nmtrn.get 0; m.state.toNat < 2 ∧ m.step = 4 ∧ 2 ≤ m.tries)
      ∧ (∀ j : Fin 3, j ≠ 0 → 7 ≤ (((training 6 0 7).die 0).nmtrn.get j).step.toNat) ∧ (((training 6 0 6).die 0).nmtrn.get 1).step.toNat < 7
      ∧ (∀ j : Fin 12, (((training 7 0 8).die 0).fmtrn.get j).state = 2) ∧ (((training 7 0 7).die 0).fmtrn.get 3).state ≠ 2
      ∧ (State.reset.die 0).boot.phase ≠ 3 := by decide +kernel

/-- Dies 0 and 1 train their links; the other paths of module group 0 are retired where the flag says so. -/
def linking (alone : Bool) : State :=
  { inPhase 4 with dies := ((inPhase 4).dies.set 3 Die.reset).set 0 { (inPhase 4).dies.get 0 with
      paths := if alone then Vector.ofFn fun i => { PathHlth.reset with retired := decide (1 ≤ i.val) && decide (i.val < 8) } else Die.reset.paths } }

theorem wit_LinkTraining :
    (∃ k, k < 4 ∧ ((linking false).die k).boot.phase ≠ 4) ∧ ((linking false).die 0).boot.phase = 4 ∧ ((linking false).die 1).boot.phase = 4
      ∧ (∀ j : Fin 22, 1 ≤ j.val → j.val < 8 → (((linking true).die 0).paths.get j).retired = true ∧ (((linking true).die 0).paths.get j).trained = false)
      ∧ (((linking true).die 0).paths.get 0).retired = false ∧ (((linking false).die 0).fabports.get 0).state = 0
      ∧ (1 : BitVec 10) ≠ (linking false).hostif.regs.pkgid ∧ (linking false).hostif.regs.pciState ≠ 1 :=
  ⟨⟨3, by decide +kernel⟩, by decide +kernel⟩

/-- The package is ready and its clock at 1,400 MHz or 700 MHz. -/
def powered (mhz : BitVec 24) (st : BitVec 2) : State :=
  { dying with hostif := { HostIf.reset with regs := { PkgRegs.reset with ready := true, mhz := mhz, pwrState := st } }, ctxs := [], harts := []
               cores := [(0, { Core.reset with asg := { valid := true, spare := false, coord := 1 } })] }

theorem wit_PowerAndStandby :
    duties (powered 1400 0) = true ∧ (powered 1400 0).hostif.bias.flip = none ∧ ((powered 1400 2).coreOf 0).asg.valid = true ∧ ((powered 1400 2).die 0).boot.err = 0
      ∧ (powered 700 0).hostif.regs.mhz.toNat ≤ 700 ∧ 100 * (2849 : BitVec 16).toNat < 95 * (powered 700 0).hostif.regs.pwrlim.toNat
      ∧ ¬ 100 * (2850 : BitVec 16).toNat < 95 * (powered 700 0).hostif.regs.pwrlim.toNat ∧ (powered 1400 0).hostif.regs.ready = true
      ∧ (∀ d : Fin 4, ((powered 1400 0).die d.val).move = none) ∧ (∀ e ∈ (powered 1400 0).cores, e.2.pool ≠ .scan ∧ e.2.pstores = [])
      ∧ Spec.Rising (powered 1400 0).cores ∧ Spec.Rising (powered 1400 0).harts ∧ (powered 1400 2).hostif.regs.pwrState = 2
      ∧ (0xC000 : BitVec 16).getLsbD 15 = true ∧ (0xC000 : BitVec 16).setWidth 8 = (0 : BitVec 8)
      ∧ (∃ e ∈ (ctxsIn .saving .free).ctxs, e.2.st = .saving) ∧ (∀ e ∈ (ctxsIn .saving .free).ctxs, e.2.st ≠ .active) := by unfold Spec.Rising; decide +kernel

/-! ## Witnesses: the machine as a whole -/

theorem wit_Canonical : Spec.Canonical State.reset :=
  ⟨rfl, rfl, rfl, rfl, fun _ => rfl⟩

theorem wit_HartsLegal : Spec.HartsLegal State.reset := by
  intro k
  have e : State.reset.hartOf k = hartAtReset k := rfl
  rw [e]; unfold hartAtReset
  split <;> [skip; split] <;> exact ⟨rfl, by decide, .inl rfl, by decide⟩

/-- The state `withFetchWord` gives goes on with the instruction it holds. -/
theorem wit_StepRunsInstruction : Spec.Fetches (State.reset.withFetchWord 32 0x20A00002) :=
  ⟨.inr rfl, rfl, .inr (by decide +kernel), by decide +kernel, by decide +kernel⟩

theorem wit_EncodeDecode : (Instr.add 9 5 7).wellFormed = true := by decide

/-! ## Witnesses: graphics instructions and events of the ring -/

/-- Hart 0 of the core of `drawing` runs a task, with a shape of its own. -/
def painting (g : Gfx) (vl : BitVec 10) (sew : BitVec 3) : State :=
  { drawing g with cur := 0, harts := [(0, { hart 3 with shape := { Shape.reset with vl := vl, sew := sew } })] }

theorem joins_painting (g : Gfx) (vl : BitVec 10) (sew : BitVec 3) (c : Claim) : Spec.Joins (painting g vl sew) c := by
  intro m hm
  have e : (painting g vl sew).h.fresh = true := rfl
  simp [Spec.convoyBefore, e] at hm

/-- A record of zeros in v4 and one of ones, which is malformed, in v8; a full queue; a queue that is not open. -/
theorem wit_Binning :
    (let s := painting (binning [] []) 8 3
     s.lane = none ∧ Spec.ShapeOk s.h.shape ∧ Spec.StartOk s ∧ Spec.sewOf s = 64 ∧ Spec.Group s 4 ∧ (s.x 0).toNat < 64 ∧ 64 ≤ (s.x 6).toNat
       ∧ Spec.records s 0 = [(0, 0)] ∧ primOk (Spec.recordBytes s 4 0 0) = true ∧ Spec.positions s (Spec.activeAt s 0) ≠ []
       ∧ Spec.Joins s (Spec.pushClaim s 4 0 true))
      ∧ (let s := { painting (binning [] []) 8 3 with harts := [(0, { (painting Gfx.reset 8 3).h with v := Vector.replicate 32 (BitVec.allOnes 4096) })] }
         primOk (Spec.recordBytes s 4 0 0) = false ∧ Spec.records s 0 = [] ++ (0, 0) :: [])
      ∧ Spec.positions (painting (binning [] []) 0 3) (Spec.activeAt (painting (binning [] []) 0 3) 0) = []
      ∧ (painting (binning [] []) 8 3).mem.wf = true ∧ Spec.queueTakes (painting (binning [] []) 8 3) 0 ∧ ¬ Spec.queueTakes (painting Gfx.reset 8 3) 0
      ∧ ((List.replicate 512 (some (aPrim 1 0))).filter Option.isSome).length = 512 := by
  refine ⟨?_, ?_, ?_, ?_, ⟨rfl, (painting (binning [] []) 8 3).ctx 0, ?_⟩, (fun h => by cases h.1), ?_⟩
  · dsimp only
    and_intros <;> first | decide +kernel | exact joins_painting _ _ _ _
  all_goals decide +kernel

/-- The records fit the queue, and the queue takes an end mark. -/
theorem wit_BinningCompletes :
    let s := painting (binning [] []) 8 3
    (∀ p ∈ Spec.records s 0, primOk (Spec.recordBytes s 4 p.1 (p.2 / 8)) = true) ∧ Spec.records s 0 ≠ []
      ∧ ((s.basin (s.x 0).toNat).gfx.queue.filter Option.isSome).length + (Spec.records s 0).length ≤ 512 ∧ Spec.queueTakes s (s.x 0).toNat :=
  ⟨by decide +kernel, by decide +kernel, by decide +kernel, ⟨rfl, (painting (binning [] []) 8 3).ctx 0, by decide +kernel⟩⟩

/-- Hart 0 waits for the lock of pixel (0, 0), holds it, or neither; every element of v4 names it. -/
def locking (asked wants holds : Bool) : State :=
  let r : PixReq := { x := 0, y := 0, seq := 3, hart := 0, launch := 1, held := holds }
  let s := painting { binning [] [] with reqs := if wants then [r] else [], locks := if holds then [r] else [] } 4 2
  { s with harts := [(0, { s.h with asked := asked, wait := { s.h.wait with reason := if asked then 0x0C else s.h.wait.reason } })] }

theorem wit_PixelInterlocks :
    (let s := locking false false false
     s.lane = none ∧ Spec.ShapeOk s.h.shape ∧ Spec.StartOk s ∧ Spec.sewOf s = 32 ∧ Spec.Group s 4
       ∧ (s.x 7).toNat < 2 ^ 32 ∧ openFrame s = some aFrame ∧ s.h.asked = false ∧ Spec.positions s (Spec.activeAt s 0) = [] ++ (0, 0) :: [(0, 1), (0, 2), (0, 3)]
       ∧ (∀ p ∈ Spec.positions s (Spec.activeAt s 0), (Spec.pixel s 4 p).1 < aFrame.width ∧ (Spec.pixel s 4 p).2 < aFrame.height)
       ∧ ((Spec.positions s (Spec.activeAt s 0)).map (Spec.pixel s 4)).dedup.length + (locksOf s s.cur).length ≤ 1024)
      ∧ (∀ p, ¬ Spec.locked (locking false false false) 0 p) ∧ Spec.locked (locking false false true) 0 (Spec.pixel (locking false false true) 4 (0, 0))
      ∧ (∀ p ∈ Spec.positions (locking false false true) (Spec.activeAt (locking false false true) 0), Spec.pixel (locking false false true) 4 p = (0, 0))
      ∧ (locking true true false).h.asked = true ∧ (locking true true false).h.wait.reason = 0x0C
      ∧ (∃ e ∈ (locking true true false).basins, ∃ r ∈ e.2.gfx.reqs, r.hart = (locking true true false).cur)
      ∧ (¬ ∃ e ∈ (locking true false true).basins, ∃ r ∈ e.2.gfx.reqs, r.hart = (locking true false true).cur)
      ∧ (∀ c, Spec.Joins (locking false false false) c) := by
  refine ⟨by decide +kernel, ?_, ⟨_, List.mem_singleton_self _, _, List.mem_singleton_self _, by decide +kernel⟩, by decide +kernel, rfl, rfl,
    ⟨_, List.mem_singleton_self _, _, List.mem_singleton_self _, rfl⟩, ?_, ?_⟩
  · rintro p ⟨e, he, l, hl, -⟩
    obtain rfl := List.mem_singleton.mp he
    cases hl
  · rintro ⟨e, he, l, hl, -⟩
    obtain rfl := List.mem_singleton.mp he
    cases hl
  · intro c m hm
    have e : (locking false false false).h.fresh = true := rfl
    simp [Spec.convoyBefore, e] at hm

/-- The forms that complete: locks granted, no pixel at all, pixels held, and pixels of the open frame that are not held and whose basin holds that frame. -/
theorem wit_PixelInterlocks_complete :
    (let s := locking true false true; s.h.asked = true ∧ s.h.wait.reason = 0x0C ∧ (∀ e ∈ s.basins, ∀ r ∈ e.2.gfx.reqs, r.hart ≠ s.cur) ∧ s.mem.wf = true)
      ∧ (let s := painting (binning [] []) 0 2; s.h.asked = false ∧ Spec.sewOf s = 32 ∧ Spec.StartOk s ∧ Spec.Group s 4 ∧ Spec.positions s (Spec.activeAt s 0) = [])
      ∧ (let s := locking false false true; s.mem.wf = true ∧ s.basins.length = 1)
      ∧ (let s := locking false false false
         s.mem.wf = true ∧ openFrame s = some aFrame ∧ (s.basin (aFrame.owner (aFrame.tileAt 0 0))).gfx.launch = openLaunch s
           ∧ (s.basin (aFrame.owner (aFrame.tileAt 0 0))).gfx.desc = aFrame) := by decide +kernel

/-- k1 reaches 4 KiB from 0x2000, which lie at 0x6000; bytes stand at its start; x6 = 0x2000. -/
def imaging (l : List Byte) : State := { pinned with mem := writeBytes [] 0x6000 l }

/-- A texture of one RGBA8 texel at 0x2040. -/
def oneTexel : List Byte :=
  leBytes 8 0x2040 ++ leBytes 2 1 ++ leBytes 2 1 ++ leBytes 2 1 ++ [1, 0] ++ leBytes 4 64 ++ List.replicate 44 0 ++ [255, 0, 255, 0]

/-- The pin of `pinned`. -/
def thePin : Pin := { base := 0x2000, len := 4096, perms := 7, holds := [], pages := [{ va := 0x2000, size := 4096, pa := 0x6000, replica := false }] }

theorem near_locate {x : Nat} (hx : x < 0x8000) : physLoc 0 x = .dev x := by
  have m : x % 2 ^ 41 = x := Nat.mod_eq_of_lt (by omega)
  have l : x % 2 ^ 41 < 2 ^ 40 := by omega
  have k : x % 2 ^ 41 < 108 * 2 ^ 30 := by omega
  have j : x < 2 ^ 43 := by omega
  rw [physLoc, if_neg (by omega), if_neg (by omega), paLoc, if_pos j]
  simp only [l, k, if_true]

theorem thePin_locate (a h : Nat) : thePin.locate 0 0 a ≠ .host h := by
  intro e
  rw [Pin.locate] at e
  split at e
  · cases e
  · rename_i g hg
    obtain rfl := List.mem_singleton.mp (List.mem_of_find?_eq_some hg)
    have c := List.find?_some hg
    simp only [Bool.and_eq_true, decide_eq_true_eq] at c
    have q : physLoc 0 (0x6000 + (a - 0x2000) + 0) = .dev (0x6000 + (a - 0x2000) + 0) := near_locate (by omega)
    simp only [Bool.false_eq_true, if_false, q] at e
    cases e

theorem imaging_clean (l : List Byte) : Spec.PinClean (imaging l) thePin := by
  intro a n _
  have n0 : ∀ pa, poisonAt (imaging l) pa n = none := fun pa => rfl
  have h := thePin_locate a
  have e : (imaging l).agent = 0 := by simp [State.agent, imaging, pinned, one]
  rw [e]
  cases q : thePin.locate 0 (dieOfAgent 0) a with
  | dev pa => exact n0 pa
  | host x => exact absurd q (h x)
  | _ => trivial

/-- The texture's header and texels lie in the pin; a header of zeros is malformed; x6 = 0x2000. -/
theorem wit_TextureSample :
    Spec.sampleForm (.tsample 0 16 6 0 true 1) = some (0, 16, 6, 0, true, 1, false)
      ∧ (let s := imaging oneTexel
         s.lane = none ∧ Spec.ShapeOk s.h.shape ∧ Spec.StartOk s ∧ Spec.sewOf s = 32 ∧ Spec.Group s 0 ∧ Spec.Group s 16
           ∧ Spec.positions s (Spec.activeAt s 0) ≠ [] ∧ s.mem.wf = true ∧ Spec.HeaderOk s 1 (s.x 6) thePin
           ∧ textureOk (Spec.pinRead s thePin (s.x 6).toNat 64) = true
           ∧ (let t := textureOf (Spec.pinRead s thePin (s.x 6).toNat 64)
              Spec.RangeOk thePin t.base.toNat (t.layers * t.pitch)))
      ∧ (∀ c, Spec.Joins (imaging oneTexel) c) ∧ Spec.PinClean (imaging oneTexel) thePin
      ∧ textureOk (Spec.pinRead (imaging []) thePin ((imaging []).x 6).toNat 64) = false ∧ (imaging []).h.pins.get (3 : BitVec 3).toFin = none := by
  refine ⟨rfl, ?_, ?_, imaging_clean _, by decide +kernel, by decide +kernel⟩
  · unfold Spec.HeaderOk Spec.RangeOk
    dsimp only
    and_intros <;> decide +kernel
  intro c m hm
  have e : (imaging oneTexel).h.fresh = true := rfl
  simp [Spec.convoyBefore, e] at hm

/-- A header of one node at 0x2080, with no triangle and no instance. -/
def oneNode : List Byte := leBytes 8 0x2080 ++ leBytes 4 1 ++ List.replicate 52 0

theorem wit_RayQuery :
    Spec.queryForm (.rquery 0 8 6 0 true 1) = some (0, 8, 6, 0, true, 1)
      ∧ (let s := imaging oneNode
         let b := bvhOf (Spec.pinRead s thePin (s.x 6).toNat 64)
         s.lane = none ∧ s.h.shape.vrows = 1 ∧ Spec.StartOk s ∧ Spec.sewOf s = 32 ∧ s.mem.wf = true ∧ Spec.HeaderOk s 1 (s.x 6) thePin
           ∧ bvhOk (Spec.pinRead s thePin (s.x 6).toNat 64) = true ∧ Spec.RangeOk thePin b.nodes (128 * b.nodecount)
           ∧ Spec.RangeOk thePin b.tris (48 * b.tricount) ∧ Spec.RangeOk thePin b.insts (64 * b.instcount)
           ∧ Spec.positions s (Spec.activeAt s 0) ≠ [])
      ∧ Spec.PinClean (imaging oneNode) thePin ∧ bvhOk (Spec.pinRead (imaging []) thePin ((imaging []).x 6).toNat 64) = false :=
  ⟨rfl, ⟨rfl, by decide +kernel, by decide +kernel, by decide +kernel, by decide +kernel, by unfold Spec.HeaderOk; decide +kernel, by decide +kernel,
    by unfold Spec.RangeOk; decide +kernel, by unfold Spec.RangeOk; decide +kernel, by unfold Spec.RangeOk; decide +kernel, by decide +kernel⟩,
    imaging_clean _, by decide +kernel⟩

/-- A ring of 64 records with one free place, and a full one. -/
theorem wit_EventRecords :
    (let r := { EventRing.reset with en := true, lsize := 6, head := 65, tail := 2 }; (r.head - r.tail).toNat < 2 ^ r.lsize.toNat)
      ∧ (let r := { EventRing.reset with en := true, lsize := 6, head := 66, tail := 2 }; ¬ (r.head - r.tail).toNat < 2 ^ r.lsize.toNat)
      ∧ State.reset.hostMem.wf = true ∧ EventRing.reset.missed.wf = true
      ∧ duties (State.reset.setRing { EventRing.reset with en := true }) = false ∧ duties (dying.setRing { EventRing.reset with en := true }) = true
      ∧ (dying.setRing { EventRing.reset with waiting := [(7, [])] }).hostif.ring.waiting = (7, []) :: [] := by decide +kernel

/-! ## Witnesses: further cases of the events -/

/-- A fragment of the package arrives as it was sent, or spoiled; one of package 5 at port 16. -/
theorem wit_Arriving (r : StreamRx) (bufs : List DecodeBuf) (g : Fragment) (h : g = piece 0 5 ∨ g.crc ≠ fragCrc g) :
    (let s := receiving (piece 0 5) r bufs; Claims.Arriving s { s with frags := [] } 0 3 g)
      ∧ (let s := { receiving (piece 0 5) r bufs with frags := [] }; Claims.Arriving s s 0 16 { piece 0 5 with src := 0x01400001 }) :=
  ⟨.inl ⟨[], [], piece 0 5, rfl, by simp, h, rfl⟩, .inr ⟨by decide, by decide +kernel, by simp [receiving, arrivingAt, inCtx, one, State.reset], rfl⟩⟩

/-- Every UCIe module is trained. -/
def joined (s : State) : State :=
  { s with dies := s.dies.map fun d => { d with paths := Vector.replicate 22 { PathHlth.reset with trained := true } } }

/-- A trained module leads to die 1; none is live before training. -/
theorem wit_FragmentRelay :
    coordPkg 40 = (joined full).hostif.regs.pkgid.toNat ∧ dieOfCoord 40 ≠ 0 ∧ routeClass (joined full) 0 40 = some 0
      ∧ (joined full).frags ++ (joined full).ctls = [] ∧ livePaths full 0 0 40 = []
      ∧ ((livePaths (joined full) 0 0 40)[(piece 0 5).index.toNat % (livePaths (joined full) 0 0 40).length]?).isSome = true := by
  decide +kernel

/-- A request for a group of which none is held, and the message it asks for. -/
theorem wit_SendingEngine_request :
    (Spec.txOf ((joined full).die 0).spray 1).retained = (List.range 3).map copyOf ++ copyOf 3 :: (List.range 28).map (fun i => copyOf (i + 4))
      ∧ (∀ x ∈ (List.range 3).map copyOf ++ (List.range 28).map (fun i => copyOf (i + 4)), x.seq ≠ 3) ∧ (copyOf 3).seq = 3 ∧ (copyOf 3).answered = false
      ∧ livePaths (joined full) 0 (copyOf 3).cls (copyOf 3).msg.dst ≠ [] ∧ (copyOf 3).msg.req = none := by
  decide +kernel

/-- A message of kind 1 to a core whose hart 2 waits at its tag, and a part of a copy that has lost one already. -/
def losing (kind : BitVec 3) (lost : Bool) : State :=
  let s := receiving (piece 0 5) StreamRx.reset []
  let b : DecodeBuf := { bufOf .requested [] with frags := [cutFragment { mail kind [1, 2, 3, 4] with copy := 9 } 0 0 0 5] }
  { s with
    dies := s.dies.set 0 { s.dies.get 0 with spray := { Spray.reset with rx := [(1, StreamRx.reset)], bufs := [b] } }
    cores := [(0, { s.coreOf 0 with mail := { Mailbox.reset with fifos := Mailbox.reset.fifos.set 2 [2] }, copies := [{ src := 40, key := 9, got := [1], bytes := 0, lost := lost }] })] }

theorem wit_Losses :
    (∀ kind : BitVec 3, (((losing kind true).die 0).spray.bufs.find? fun y => decide (y.peer = 1) && decide (y.seq = 0)) = ((losing kind true).die 0).spray.bufs.head?)
      ∧ (let s := losing 1 false
         let f := (piece 0 5)
         siteOf s f.dst = some 0 ∧ (s.coreOf 0).lossrec.valid = false
           ∧ (ctxTagged s f.dst f.ctag).all (fun e => !e.2.recorded f.dst) = true ∧ (ctxTagged s f.dst f.ctag).isSome = true
           ∧ (s.coreOf 0).mail.fifos.get (BitVec.ofNat 5 (Spec.dTag f.desc)).toFin = 2 :: [])
      ∧ (let s := losing 4 true; ∀ f ∈ ((s.die 0).spray.bufs.flatMap (·.frags)), f.kind.toNat % 8 = 4 ∧ ((s.coreOf 0).copyOf f.src f.copy).lost = true) := by
  decide +kernel

/-- A memory of die 0 repeats steps 5 and 6 at the end of Standby; every other memory, every link or none is done. -/
def repeating (step : BitVec 8) (tries : Nat) (links : Bool) : State :=
  let d := { Die.reset with boot := { BootSt.reset with phase := 6, ready := true }, fabports := Vector.replicate 6 { FabPort.reset with state := 4 }
                            paths := Vector.replicate 22 { PathHlth.reset with trained := links } }
  { State.reset with
    hostif := { HostIf.reset with regs := { PkgRegs.reset with ready := true, pwrState := 3 } }
    dies := (Vector.replicate 4 d).set 0 { d with nmtrn := d.nmtrn.set 0 { MemTrn.reset with step := step, state := 1, tries := tries, again := true } } }

theorem wit_Training_again :
    (let v := (repeating 5 2 true).die 0; v.boot.phase ≠ 3 ∧ v.boot.phase ≠ 2 ∧ v.boot.err = 0
        ∧ (let m := v.nmtrn.get 0; m.again = true ∧ m.state.toNat < 2 ∧ m.step = 5 ∧ 2 ≤ m.tries))
      ∧ (∀ e : Fin 4, let v := (repeating 5 0 true).die e.val
          (∀ j : Fin 3, ¬ (e = 0 ∧ j = 0) → (v.nmtrn.get j).again = false) ∧ (∀ j : Fin 12, (v.fmtrn.get j).again = false)
            ∧ (∀ p : Fin 22, p.val < 16 → (v.paths.get p).trained = true) ∧ ∀ p : Fin 6, 2 ≤ (v.fabports.get p).state.toNat)
      ∧ (repeating 5 0 true).hostif.regs.pwrState = 3 ∧ (let h := ((repeating 5 0 false).die 0).paths.get 3; h.trained = false ∧ h.retired = false)
      ∧ (let m := ((training 3 0 7).die 0).nmtrn.get 0; m.step = 3 ∧ m.state.toNat < 2 ∧ m.again = false) := by decide +kernel

/-- Basin controllers that have missed three and four heartbeats, and one whose pair disagrees. -/
def faltering : State :=
  { ctxsIn .active .free with basins := [(0, { Basin.reset with missed := 4 }), (1, { Basin.reset with missed := 3 }), (2, { Basin.reset with lockstep := true })] }

theorem wit_FailedAgents_basins :
    4 ≤ (faltering.basin 0).missed ∧ (faltering.basin 1).missed < 4 ∧ (faltering.basin 1).lockstep = false ∧ (faltering.basin 2).lockstep = true
      ∧ Spec.Rising faltering.ctxs ∧ Spec.Rising faltering.cores ∧ (faltering.die 0).hben = true := by unfold Spec.Rising; decide +kernel

theorem wit_LeaseProtocol_beats :
    (let b : Beat := { ack := false, src := 0, dst := 1, term := 3, seq := 1 }; let s := { voting [] with beats := [b] }
     b ∈ s.beats ∧ (s.die 1).lease.term.toNat ≤ b.term.toNat ∧ (s.die 1).lease.failed = false ∧ (2 : BitVec 32).toNat < (s.die 1).lease.term.toNat)
      ∧ (let b : Beat := { ack := true, src := 1, dst := 0, term := 3, seq := 0 }; let s := { voting [] with beats := [b] }
         let l := (s.die 0).lease
         b ∈ s.beats ∧ l.leader.toNat = 0 ∧ (l.role = 1 ∨ l.role = 3) ∧ l.failed = false ∧ l.term = b.term ∧ l.hbseq = b.seq ∧ 1 ∉ l.acks ∧ (s.die 0).hben = true)
      ∧ (let l := ((leases fun _ => { Lease.reset with lapsed := true, since := true }).die 1).lease; l.role = 0 ∧ l.lapsed = true ∧ l.since = true)
      ∧ (let s := { leases fun _ => { Lease.reset with role := 1, term := 1 } with
                    dies := Vector.replicate 4 { Die.reset with lease := { Lease.reset with role := 1, term := 1 }, boot := { BootSt.reset with phase := 5 } } }
         duties s = true ∧ (∀ k : Fin 4, (s.die k.val).boot.phase = 5 ∧ (s.die k.val).boot.err = 0) ∧ s.cores = []
           ∧ s.hostif.regs.heldFlr = false ∧ s.hostif.regs.heldD3 = false) := by decide +kernel

/-- The leader's die has lost a module since the log was written; its own lease stands. -/
def unlogged : State := { dying with dies := dying.dies.set 0 { dying.die 0 with paths := Die.reset.paths.set 0 { PathHlth.reset with retired := true } } }

theorem wit_LogFollowsSteps :
    leaderDie unlogged = some 0 ∧ (dying.die 0).lease.lseq = (unlogged.die 0).lease.lseq ∧ logRecord dying 1 ≠ logRecord unlogged 1
      ∧ (unlogged.die 0).lease.term = 1 := by decide +kernel

/-- The repair log has a leader and its cached copies are those of rising cores. -/
theorem wit_RepairLog : leaderDie dying = some 0 ∧ dying.mem.wf = true ∧ Spec.Rising dying.cores ∧ duties State.reset = false := by
  unfold Spec.Rising; decide +kernel

/-- The decoder is enabled and committed at 2^45; the page of a held line is in host bias; the function is configured. -/
def outsider : State :=
  { State.reset with hostif := { HostIf.reset with
      bar4 := [(0x1104 / 4, 2), (0x1110 / 4, 0), (0x1114 / 4, 0x2000), (0x1120 / 4, 0x200)], bias := { Bias.reset with host := [1] }
      regs := { PkgRegs.reset with cxl := true, configured := true } } }

theorem wit_OutsideAccesses :
    hdmBase outsider.hostif = some (2 ^ 45) ∧ outsider.hostif.regs.cxl = true ∧ isDev 0x1000 = true ∧ 0x1000 / 4096 ∈ outsider.hostif.bias.host
      ∧ outsider.hostif.regs.configured = true ∧ outsider.hostMem.wf = true := by decide +kernel

/-- The mask bit of vector 0, after reset and in a table of zeros. -/
theorem wit_EventRecords_masked :
    (readByte State.reset.hostif.msix 12).getLsbD 0 = true ∧ (readByte [] 12).getLsbD 0 = false := by decide +kernel

theorem wit_RegisterWrites_msix :
    (let s := isReady { State.reset with hostif := { HostIf.reset with pba := 1 <<< 3 } }
     s.hostif.regs.ready = true ∧ s.hostif.msix.wf = true ∧ s.hostif.pba = (1 : BitVec 8) <<< 3) := by decide +kernel

/-- At 0x1000 stand `vadd v3, v4, v5`, or an ordered reduction of v4 into v3, and a loss is due. -/
def stopping (w : Nat) : State :=
  { one { hart 3 with pending := [{ cause := 0x101, tval := 7 }] } with mem := writeBytes [] 0x1000 (leBytes 4 w) }

/-- What the fetch leaves, and the same with the sweep bounded at element 2. -/
def fetchedAt (s : State) : State := match fetch s with | .ok (w, u) => { u with word := w } | .error _ => s
def boundAt2 (v : State) : State := v.setH { v.h with shape := { v.h.shape with vstop := BitVec.ofNat 64 (2 ^ 63 + 0 * 2 ^ 16 + 2) } }

theorem joins_of_fresh {s : State} (h : s.h.fresh = true) (c : Claim) : Spec.Joins s c := by
  intro m hm
  simp [Spec.convoyBefore, h] at hm

theorem wit_StoppedInside :
    ∀ w ∈ [(0x84642802 : Nat), 0xB8642828], ∃ u, let s := stopping w
      let v : State := { u with word := BitVec.ofNat 32 w }
      s.lane = none ∧ s.h.lanes = none ∧ s.h.reply = none ∧ s.h.pending = [{ cause := 0x101, tval := 7 }] ∧ Spec.onTask s.h ∧ s.atFirmware = false ∧ s.inRom = false
        ∧ fetch s = .ok (BitVec.ofNat 32 w, u) ∧ byElement (BitVec.ofNat 32 w) = true ∧ (active v (predicate (BitVec.ofNat 32 w)))[2]? = some (0, 2)
        ∧ Spec.ShapeOk v.h.shape ∧ ∀ c, Spec.Joins (boundAt2 v) c := by
  intro w hw
  have hw : w = 0x84642802 ∨ w = 0xB8642828 := by simpa using hw
  obtain rfl | rfl := hw <;>
    exact ⟨_, rfl, rfl, rfl, rfl, ⟨3, rfl⟩, by decide +kernel, by decide +kernel, rfl, by decide +kernel, by decide +kernel, by decide +kernel,
      joins_of_fresh (by decide +kernel)⟩

theorem wit_StoppedInside_forms :
    decode 0x84642802 = .ok (.vadd 3 4 5 0 false false 2) ∧ decode 0xB8642828 = .ok (.vfredo 3 4 5 0 false)
      ∧ (Spec.elemForm (.vadd 3 4 5 0 false false 2) (boundAt2 (fetchedAt (stopping 0x84642802)))).all (·.legal) = true
      ∧ (Spec.elemForm (.vadd 3 4 5 0 false false 2) (boundAt2 (fetchedAt (stopping 0x84642802)))).isSome = true
      ∧ Spec.fpRedForm (.vfredo 3 4 5 0 false) = some (3, 4, 5, 0, false, false, false, false, 0)
      ∧ Spec.redLegal (boundAt2 (fetchedAt (stopping 0xB8642828))) 3 4 false false ∧ Spec.sewOf (boundAt2 (fetchedAt (stopping 0xB8642828))) ≠ 8 := by
  refine ⟨by decide +kernel, by decide +kernel, by decide +kernel, by decide +kernel, rfl, ⟨by decide +kernel, by decide +kernel, (fun h => by cases h), by decide, ?_⟩, by decide +kernel⟩
  exact .inr (by decide)

end Sys2Proof.Tests
end

/-! # The reset state (O59) -/

namespace Sys2Proof.Machine

/-- The reset state is in canonical form: its memories list nothing but the mask bits of the MSI-X table (log 2, log 3, log 39). -/
theorem reset_canonical : Spec.Canonical State.reset :=
  ⟨rfl, rfl, rfl, rfl, fun _ => rfl⟩

/-- Each of the three kinds of hart that a reset leaves has x0 zero and the shape of reset (R19, R23). -/
theorem reset_hartsLegal : Spec.HartsLegal State.reset := by
  intro k
  have e : State.reset.hartOf k = hartAtReset k := rfl
  rw [e]
  unfold hartAtReset
  split
  · exact ⟨rfl, by decide, .inl rfl, by decide⟩
  · split <;> exact ⟨rfl, by decide, .inl rfl, by decide⟩

/-- A cistern's hart runs its mask ROM from PA 0 at M (R448). -/
theorem hartAtReset_cistern (d : Nat) : hartAtReset (8 * (4160 + d)) = Hart.resetM .firmware :=
  if_pos (by omega)

/-- A core's hart has no task after reset. -/
theorem hartAtReset_core {k : Nat} (h : k < 8 * 4096) : hartAtReset k = Hart.reset := by
  have h1 : ¬ 8 * 4160 ≤ k := by omega
  have h2 : ¬ 8 * 4096 ≤ k := by omega
  rw [hartAtReset, if_neg h1, if_neg h2]

/-- Every die is at its reset value after power-on. -/
theorem reset_die (d : Nat) : State.reset.die d = Die.reset := by
  show (Vector.replicate 4 Die.reset).get _ = _
  simp [Vector.get]

/-- The health entry of every path is at its reset value (R436). -/
theorem resetDie_path (p : Fin 22) : Die.reset.paths.get p = PathHlth.reset := by
  show (Vector.replicate 22 PathHlth.reset).get p = _
  simp [Vector.get]

/-- The windows of the four route classes after reset (R324). -/
theorem resetDie_window (c : Fin 4) :
    (Die.reset.spray.wins.get c).2 = if c.val < 2 then 4096 else if c.val = 2 then 8192 else 65536 := by
  revert c; decide

/-- Settles O59: the invariants, then each register at the value its table gives. -/
theorem resetState : Obligations.ResetState := by
  refine ⟨reset_canonical, reset_hartsLegal, fun d _ => ?_, fun k hk => ⟨rfl, rfl, fun j hj => ?_⟩,
    fun _ => ⟨rfl, rfl, rfl⟩, rfl, rfl, rfl, rfl, rfl, rfl, rfl, rfl, rfl, fun _ => rfl⟩
  · have hart : State.reset.hartOf (8 * (4160 + d)) = Hart.resetM .firmware := hartAtReset_cistern d
    rw [hart, reset_die]
    exact ⟨rfl, rfl, rfl, rfl, rfl, rfl, rfl, rfl, rfl, rfl, rfl, fun p => by rw [resetDie_path]; rfl, resetDie_window⟩
  · have hart : State.reset.hartOf (8 * k + j) = Hart.reset := hartAtReset_core (by omega)
    rw [hart]; rfl

end Sys2Proof.Machine

/-! # Every memory stays canonical (O57)

One lemma per operation of the model: from a canonical state it leaves a canonical state. Each lemma names the operations it calls; a field
update outside the memories is `canonical_of_frame`. The step follows as the last of them. -/

namespace Sys2Proof.Machine

open Spec (Canonical)

/-! ## The canonical form of a state -/

section

variable {s : State}

theorem Spec.Canonical.mem (hs : Canonical s) : s.mem.wf = true := hs.1

theorem Spec.Canonical.hostMem (hs : Canonical s) : s.hostMem.wf = true := hs.2.1

theorem Spec.Canonical.missed (hs : Canonical s) : s.hostif.ring.missed.wf = true := hs.2.2.1

theorem Spec.Canonical.msix (hs : Canonical s) : s.hostif.msix.wf = true := hs.2.2.2.1

theorem Spec.Canonical.sp (hs : Canonical s) (k : Nat) : (s.coreOf k).sp.wf = true := hs.2.2.2.2 k

theorem Spec.Canonical.c (hs : Canonical s) : s.c.sp.wf = true := hs.sp _

theorem Spec.Canonical.memsWf (hs : Canonical s) : s.memsWf := ⟨hs.mem, hs.hostMem, hs.missed⟩

/-- An update of anything but the memories and the cores leaves a canonical state. -/
theorem canonical_of_frame {t : State} (hs : Canonical s) (hm : t.mem = s.mem) (hh : t.hostMem = s.hostMem)
    (hr : t.hostif.ring.missed = s.hostif.ring.missed) (hx : t.hostif.msix = s.hostif.msix) (hc : t.cores = s.cores) : Canonical t := by
  unfold Spec.Canonical State.coreOf
  rw [hm, hh, hr, hx, hc]
  exact hs

/-- An operation that keeps the three memories an event or a store can write keeps the canonical form, where it keeps the MSI-X table and
every scratchpad. -/
theorem canonical_of_memsWf {t : State} (hs : Canonical s) (hm : t.memsWf) (hx : t.hostif.msix = s.hostif.msix)
    (hc : ∀ k, (t.coreOf k).sp = (s.coreOf k).sp) : Canonical t :=
  ⟨hm.1, hm.2.1, hm.2.2, hx ▸ hs.msix, fun k => hc k ▸ hs.sp k⟩

/-- Device memory replaced by one in canonical form. -/
theorem canonical_of_mem {t : State} (hs : Canonical s) (hm : t.mem.wf = true) (hh : t.hostMem = s.hostMem)
    (hr : t.hostif.ring.missed = s.hostif.ring.missed) (hx : t.hostif.msix = s.hostif.msix)
    (hc : ∀ k, (t.coreOf k).sp = (s.coreOf k).sp) : Canonical t :=
  ⟨hm, hh ▸ hs.hostMem, hr ▸ hs.missed, hx ▸ hs.msix, fun k => hc k ▸ hs.sp k⟩

/-- Host memory replaced by one in canonical form. -/
theorem withHostMem_canonical (hs : Canonical s) {m : Memory} (hm : m.wf = true) : Canonical { s with hostMem := m } :=
  ⟨hs.mem, hm, hs.missed, hs.msix, hs.sp⟩

theorem setCoreOf_canonical (hs : Canonical s) (k : Nat) {c : Core} (hc : c.sp.wf = true) : Canonical (s.setCoreOf k c) := by
  refine ⟨hs.mem, hs.hostMem, hs.missed, hs.msix, fun j => ?_⟩
  by_cases e : j = k
  · subst e; simpa [State.coreOf, State.setCoreOf]
  · simpa [State.coreOf, State.setCoreOf, smGet_smSet_ne _ _ e] using hs.sp j

theorem setC_canonical (hs : Canonical s) {c : Core} (hc : c.sp.wf = true) : Canonical (s.setC c) := setCoreOf_canonical hs _ hc

theorem setHartOf_canonical (hs : Canonical s) (k : Nat) (v : Hart) : Canonical (s.setHartOf k v) := hs

theorem setH_canonical (hs : Canonical s) (v : Hart) : Canonical (s.setH v) := hs

theorem setDie_canonical (hs : Canonical s) (d : Nat) (v : Die) : Canonical (s.setDie d v) := hs

theorem setBasin_canonical (hs : Canonical s) (b : Nat) (v : Basin) : Canonical (s.setBasin b v) := hs

theorem setCtx_canonical (hs : Canonical s) (n : Nat) (v : Ctx) : Canonical (s.setCtx n v) := hs

theorem setQueue_canonical (hs : Canonical s) (n : Nat) (v : Queue) : Canonical (s.setQueue n v) := hs

theorem mapBasins_canonical (hs : Canonical s) (f : Basin → Basin) : Canonical (s.mapBasins f) := hs

theorem setRing_canonical (hs : Canonical s) {r : EventRing} (hr : r.missed.wf = true) : Canonical (s.setRing r) :=
  ⟨hs.mem, hs.hostMem, hr, hs.msix, hs.sp⟩

end

/-! ## Tables of cores and folds -/

/-- A map over the table of cores that keeps the keys: what relates each core to its image relates the core read before and after. -/
theorem smGet_map_rel {R : Core → Core → Prop} {g : Nat × Core → Nat × Core} (h0 : R Core.reset Core.reset) (h1 : ∀ e, (g e).1 = e.1)
    (h2 : ∀ e, R e.2 (g e).2) (k : Nat) (m : SMap Core) : R (smGet Core.reset k m) (smGet Core.reset k (m.map g)) := by
  induction m with
  | nil => exact h0
  | cons e r ih =>
    obtain ⟨j, c⟩ := e
    have key : g (j, c) = (j, (g (j, c)).2) := Prod.ext (h1 (j, c)) rfl
    rw [List.map_cons, key]
    unfold smGet
    by_cases e : j = k
    · rw [if_pos e, if_pos e]
      exact h2 (j, c)
    · rw [if_neg e, if_neg e]
      exact ih

/-- A choice of entries by their keys. -/
theorem smGet_filter {α : Type} (d : α) (p : Nat → Bool) (k : Nat) (m : SMap α) :
    smGet d k (m.filter fun e => p e.1) = if p k then smGet d k m else d := by
  induction m with
  | nil => simp [smGet]
  | cons e r ih =>
    obtain ⟨j, v⟩ := e
    by_cases hj : j = k
    · subst hj
      by_cases hp : p j = true <;> simp [smGet, hp, ih]
    · by_cases hp : p j = true <;> simp [smGet, hp, hj, ih]

/-- Cores replaced by a table with canonical scratchpads. -/
theorem withCores_canonical {s : State} (hs : Canonical s) {m : SMap Core} (hm : ∀ k, (smGet Core.reset k m).sp.wf = true) :
    Canonical { s with cores := m } := ⟨hs.mem, hs.hostMem, hs.missed, hs.msix, hm⟩

/-- A fold of an operation that keeps the canonical form. -/
theorem foldl_canonical {α : Type} {f : State → α → State} (hf : ∀ u a, Canonical u → Canonical (f u a)) (l : List α) :
    ∀ {s : State}, Canonical s → Canonical (l.foldl f s) := by
  induction l with
  | nil => exact fun hs => hs
  | cons a r ih => exact fun hs => ih (hf _ a hs)

/-! ## What an operation answers -/

/-- A next state is canonical. -/
def OutCanonical : Out → Prop
  | .next t => Canonical t
  | _ => True

@[simp] theorem outCanonical_next (t : State) : OutCanonical (.next t) ↔ Canonical t := Iff.rfl

/-- The state in which an operation fails, with a trap or another fault, and the state that `f` reads off its result are canonical. -/
def ResCanonical {ε α : Type} (f : α → State) : Except (State × ε) α → Prop
  | .error e => Canonical e.1
  | .ok a => Canonical (f a)

@[simp] theorem resCanonical_error {ε α : Type} (f : α → State) (e : State × ε) :
    ResCanonical f (.error e : Except (State × ε) α) ↔ Canonical e.1 := Iff.rfl

@[simp] theorem resCanonical_ok {ε α : Type} (f : α → State) (a : α) :
    ResCanonical f (.ok a : Except (State × ε) α) ↔ Canonical (f a) := Iff.rfl

section

variable {s : State}

/-! ## Registers, traps and retiring -/

theorem setX_canonical (hs : Canonical s) (r) (v) : Canonical (s.setX r v) := by
  unfold State.setX
  grind [setH_canonical]

theorem waiting_canonical (hs : Canonical s) (reason) (tag) (peer) : OutCanonical (waiting s reason tag peer) := hs

theorem failDie_canonical (hs : Canonical s) (d) (code) : Canonical (s.failDie d code) := by
  unfold State.failDie
  grind [setDie_canonical, canonical_of_frame]

theorem bootTrap_canonical (hs : Canonical s) : Canonical s.bootTrap := by
  unfold State.bootTrap
  grind [failDie_canonical]

theorem afterHalt_canonical (hs : Canonical s) : Canonical s.afterHalt := by
  unfold State.afterHalt
  grind [setC_canonical, Core.clearBoot, Memory.wf_nil]

theorem takeTrapAt_canonical (hs : Canonical s) (epc) (t) (forceM) : Canonical (takeTrapAt s epc t forceM) := by
  have left : Canonical { s.setC (s.c.leaveWaits s.hartNo) with lane := none } := setC_canonical hs hs.c
  unfold takeTrapAt
  grind [setH_canonical, bootTrap_canonical, afterHalt_canonical, mapBasins_canonical]

theorem takeTrap_canonical (hs : Canonical s) (t) : Canonical (takeTrap s t) := takeTrapAt_canonical hs _ t _

theorem raise_canonical (hs : Canonical s) (t) : OutCanonical (raise s t) := takeTrap_canonical hs t

theorem retire_canonical (hs : Canonical s) : Canonical (retire s) := hs

theorem finish_canonical (hs : Canonical s) : OutCanonical (finish s) := hs

theorem out_canonical {r : Res State} (hr : ResCanonical id r) : OutCanonical r.out :=
  match r with
  | .ok _ => finish_canonical hr
  | .error (_, t) => raise_canonical hr t

theorem retireEnd_canonical (hs : Canonical s) (target) : Canonical (retireEnd s target) := by
  unfold retireEnd
  grind [setH_canonical, takeTrapAt_canonical]

theorem finishEnd_canonical (hs : Canonical s) (target) : OutCanonical (finishEnd s target) := retireEnd_canonical hs target

theorem orFlags_canonical (hs : Canonical s) (f) : Canonical (s.orFlags f) := hs

/-! ## Events, writes and stores on their way -/

theorem interrupt_ring (i : HostIf) (v) : (i.interrupt v).ring = i.ring := by
  unfold HostIf.interrupt
  split <;> rfl

theorem interrupt_msix (i : HostIf) (v) : (i.interrupt v).msix = i.msix := by
  unfold HostIf.interrupt
  split <;> rfl

theorem placeRecord_canonical (hs : Canonical s) (seq) (bytes) : Canonical (placeRecord s seq bytes) := by
  obtain ⟨m, r, raised, pba, e⟩ := placeRecord_frame s seq bytes
  exact canonical_of_memsWf hs (placeRecord_memsWf hs.memsWf seq bytes) (by rw [e]) (fun k => by rw [e]; rfl)

theorem emit_canonical (hs : Canonical s) (type ctx queue a b c) : Canonical (s.emit type ctx queue a b c) := by
  obtain ⟨m, r, raised, pba, e⟩ := emit_frame s type ctx queue a b c
  exact canonical_of_memsWf hs (emit_memsWf hs.memsWf ..) (by rw [e]) (fun k => by rw [e]; rfl)

theorem placeWaiting_canonical (hs : Canonical s) : Canonical (placeWaiting s) :=
  foldl_canonical (fun _ e hu => placeRecord_canonical hu e.1 e.2) _ (setRing_canonical hs hs.missed)

/-- Dropped L1 copies leave every scratchpad as it was (R283). -/
theorem dropCopies_sp (cores : SMap Core) (writer) (pa n k) :
    (smGet Core.reset k (dropCopies cores writer pa n)).sp = (smGet Core.reset k cores).sp := by
  unfold dropCopies
  refine smGet_map_rel (R := fun c c' => c'.sp = c.sp) rfl (fun e => ?_) (fun e => ?_) k cores
  · split <;> rfl
  · split <;> rfl

theorem devWrite_canonical (hs : Canonical s) (writer) (pa) (data) : Canonical (devWrite s writer pa data) :=
  canonical_of_mem hs (wf_writeBytes hs.mem _ _) rfl rfl rfl (dropCopies_sp s.cores writer pa data.length)

theorem hostWrite_canonical (hs : Canonical s) (agent a) (data) : Canonical (hostWrite s agent a data) := by
  unfold hostWrite
  grind [emit_canonical, withHostMem_canonical, wf_writeBytes, Spec.Canonical.hostMem]

theorem performStore_canonical (hs : Canonical s) (agent) (p) : Canonical (performStore s agent p) := by
  unfold performStore
  grind [devWrite_canonical, hostWrite_canonical]

theorem performWhere_canonical (hs : Canonical s) (agent) (f) : Canonical (performWhere s agent f) :=
  foldl_canonical (fun _ p hu => performStore_canonical hu agent p) _ (setCoreOf_canonical hs agent (hs.sp agent))

theorem flushDev_canonical (hs : Canonical s) (agent) : Canonical (flushDev s agent) := performWhere_canonical hs agent _

theorem flushAll_canonical (hs : Canonical s) (agent) : Canonical (flushAll s agent) := performWhere_canonical hs agent _

theorem hostSync_canonical (hs : Canonical s) (agent) : Canonical (hostSync s agent) := performWhere_canonical hs agent _

theorem bypass_canonical (hs : Canonical s) (agent pa n) : Canonical (bypass s agent pa n) := by
  unfold bypass
  grind [setCoreOf_canonical, performWhere_canonical, Spec.Canonical.sp]

theorem fillLine_canonical (hs : Canonical s) (agent pa) : Canonical (fillLine s agent pa) := by
  unfold fillLine
  grind [setCoreOf_canonical, performWhere_canonical, Spec.Canonical.sp]

/-! ## Translation and fetch -/

theorem walkUpdate_canonical (hs : Canonical s) (p acc) : Canonical (walkUpdate s p acc) := by
  unfold walkUpdate
  grind [devWrite_canonical]

theorem translate_canonical (hs : Canonical s) (agent va acc user l2only) {x : Xlat} {t : State}
    (e : translate s agent va acc user l2only = .ok (x, t)) : Canonical t := by
  unfold translate at e
  grind [setCoreOf_canonical, setBasin_canonical, walkUpdate_canonical, Spec.Canonical.sp]

theorem setLines_canonical (hs : Canonical s) (l) : Canonical (s.setLines l) := setC_canonical hs hs.c

theorem fetchDev_canonical (hs : Canonical s) (va pa io) : ResCanonical Prod.snd (fetchDev s va pa io) := by
  unfold fetchDev
  grind [setLines_canonical, resCanonical_ok, resCanonical_error]

theorem fetchLoc_canonical (hs : Canonical s) (va loc io) : ResCanonical Prod.snd (fetchLoc s va loc io) := by
  unfold fetchLoc
  grind [fetchDev_canonical, hostSync_canonical, resCanonical_ok, resCanonical_error]

theorem fetchAt_canonical (hs : Canonical s) (va) : ResCanonical Prod.snd (fetchAt s va) := by
  unfold fetchAt
  grind [fetchLoc_canonical, translate_canonical, resCanonical_ok, resCanonical_error]

theorem fetch_canonical (hs : Canonical s) : ResCanonical Prod.snd (fetch s) := fetchAt_canonical hs _

/-! ## Convoys -/

theorem vdone_canonical (hs : Canonical s) (cv) : Canonical (s.vdone cv) := hs

theorem refuseConvoy_canonical (hs : Canonical s) (addr) : OutCanonical (refuseConvoy s addr) := raise_canonical (setH_canonical hs _) _

theorem vecOp_canonical (hs : Canonical s) {c check} {eff : State → State} (he : ∀ u, Canonical u → Canonical (eff u)) :
    OutCanonical (vecOp s c check eff) := by
  obtain ⟨t, -, e⟩ | ⟨-, a, -, e⟩ | ⟨-, cv, -, e⟩ := vecOp_cases s c check eff
  · rw [e]; exact raise_canonical hs t
  · rw [e]; exact refuseConvoy_canonical hs a
  · rw [e]; exact finish_canonical (he s hs)

end

end Sys2Proof.Machine

/-! # Cores, tasks, messages, control space and scalar accesses keep the memories canonical (O57) -/

namespace Sys2Proof.Machine

open Spec (Canonical)

/-! ## Scratchpads through the operations of a core -/

section

variable {c : Core}

@[simp] theorem setTask_sp (c : Core) (ch t) : (c.setTask ch t).sp = c.sp := rfl

@[simp] theorem leaveWaits_sp (c : Core) (n) : (c.leaveWaits n).sp = c.sp := rfl

@[simp] theorem mapTasks_sp (c : Core) (f) : (c.mapTasks f).sp = c.sp := rfl

@[simp] theorem noteLoss_sp (c : Core) (tag tv) : (c.noteLoss tag tv).sp = c.sp := rfl

@[simp] theorem taskBit_sp (c : Core) (ch bit v) : (c.taskBit ch bit v).sp = c.sp := rfl

@[simp] theorem setCopy_sp (c : Core) (p n) : (c.setCopy p n).sp = c.sp := rfl

@[simp] theorem assign_sp (c : Core) (a) : (c.assign a).sp = c.sp := rfl

@[simp] theorem clearBoot_sp (c : Core) : c.clearBoot.sp = [] := rfl

@[simp] theorem fresh_sp (c : Core) : c.fresh.sp = [] := rfl

@[simp] theorem post_sp (c : Core) (ch s2 s3 s4 s5) : (c.post ch s2 s3 s4 s5).sp = c.sp := by
  unfold Core.post
  dsimp only
  split <;> rfl

@[simp] theorem countWake_sp (c : Core) (m wake x5) : (c.countWake m wake x5).sp = c.sp := by
  unfold Core.countWake
  dsimp only
  split
  · exact post_sp ..
  · rfl

theorem spPut_wf (hc : c.sp.wf = true) (o data) : (c.spPut o data).sp.wf = true := wf_writeBytes hc _ _

theorem drainRow_wf (hc : c.sp.wf = true) (off nib row) : (c.drainRow off nib row).sp.wf = true := by
  unfold Core.drainRow
  dsimp only
  split
  · exact spPut_wf (spPut_wf hc _ _) _ _
  · exact spPut_wf hc _ _

/-- A fold of an operation on a core that keeps its scratchpad canonical. -/
theorem foldl_sp_wf {α : Type} {f : Core → α → Core} (hf : ∀ c a, c.sp.wf = true → (f c a).sp.wf = true) (l : List α) :
    ∀ {c : Core}, c.sp.wf = true → (l.foldl f c).sp.wf = true := by
  induction l with
  | nil => exact fun hc => hc
  | cons a r ih => exact fun hc => ih (hf _ a hc)

theorem drainRows_wf (hc : c.sp.wf = true) (m) : (c.drainRows m).sp.wf = true := by
  unfold Core.drainRows
  dsimp only
  split
  · exact hc
  · exact foldl_sp_wf (fun _ _ h => drainRow_wf h _ _ _) _ hc

theorem copyPart_wf (hc : c.sp.wf = true) (m) : (c.copyPart m).sp.wf = true := by
  unfold Core.copyPart
  grind [spPut_wf, setCopy_sp, countWake_sp]

/-- A message that is applied writes its bytes to the scratchpad, and keeps it canonical (R190, R200). -/
theorem apply_wf (hc : c.sp.wf = true) (m) : (c.apply m).sp.wf = true := by
  unfold Core.apply
  grind [spPut_wf, drainRows_wf, copyPart_wf, countWake_sp, taskBit_sp]

/-- The save record of a core is canonical (R383). -/
theorem record_wf (hc : c.sp.wf = true) : c.record.wf = true := by
  unfold Core.record
  grind [wf_sliceOf, wf_writeBytes, wf_writeLE]

theorem ofRecord_wf (c : Core) {m : Memory} (hm : m.wf = true) : (c.ofRecord m).sp.wf = true := wf_sliceOf hm _ _

end

section

variable {s : State}

/-! ## Tasks -/

theorem startTask_canonical (hs : Canonical s) (site) : Canonical (startTask s site) := by
  unfold startTask
  grind [setHartOf_canonical, setCoreOf_canonical, setTask_sp, Spec.Canonical.sp]

theorem noteFree_canonical (hs : Canonical s) (site ch) : Canonical (noteFree s site ch) := by
  unfold noteFree
  grind [setBasin_canonical]

theorem noteCleared_canonical (hs : Canonical s) (before site) : Canonical (noteCleared before s site) :=
  foldl_canonical (fun u ch hu => by split <;> [exact hu; exact noteFree_canonical hu site ch]) _ hs

theorem endTask_canonical (hs : Canonical s) (k) : Canonical (endTask s k) := by
  unfold endTask
  grind [setHartOf_canonical, setCoreOf_canonical, mapBasins_canonical, noteFree_canonical, leaveWaits_sp, setTask_sp, Spec.Canonical.sp]

theorem passCycles_canonical (hs : Canonical s) (k n) : Canonical (passCycles s k n) := by
  unfold passCycles
  grind [setHartOf_canonical]

theorem budgetTrap_canonical (hs : Canonical s) : Canonical (budgetTrap s) := setH_canonical (takeTrapAt_canonical hs _ _ _) _

theorem asyncTurn_canonical (hs : Canonical s) {t : State} (e : asyncTurn s = some t) : Canonical t := by
  unfold asyncTurn at e
  grind [setH_canonical, takeTrap_canonical, budgetTrap_canonical]

/-- An operation of one hart done for another. -/
theorem atHart_canonical (hs : Canonical s) (k) {f : State → State} (hf : ∀ u, Canonical u → Canonical (f u)) : Canonical (s.atHart k f) :=
  hf { s with cur := k } hs

/-! ## Save records -/

theorem writeRecord_canonical (hs : Canonical s) (cx v) {c : Core} (hc : c.sp.wf = true) : Canonical (writeRecord s cx v c) :=
  canonical_of_mem hs (wf_overlay hs.mem (record_wf hc) _ _) rfl rfl rfl (dropCopies_sp s.cores none (cx.recordAt v) 0x41000)

theorem readRecord_wf (hs : Canonical s) (cx v c) : (readRecord s cx v c).sp.wf = true := ofRecord_wf c (wf_sliceOf hs.mem _ _)

theorem onRecord_canonical (hs : Canonical s) (n cx v) {f : Core → Core} (hf : ∀ c, c.sp.wf = true → (f c).sp.wf = true) :
    Canonical (onRecord s n cx v f) := by
  have read := readRecord_wf hs cx v { Core.reset with coreid := v }
  unfold onRecord
  dsimp only
  refine setCtx_canonical (writeRecord_canonical hs cx v (hf _ ?_)) n _
  exact read

/-! ## Messages -/

theorem fly_canonical (hs : Canonical s) (cls fl) : Canonical (s.fly cls fl) := by
  unfold State.fly
  grind [canonical_of_frame]

theorem setSpray_canonical (hs : Canonical s) (d sp) : Canonical (s.setSpray d sp) := hs

theorem sprayMessage_canonical (hs : Canonical s) (site cls m) {t : State} (e : sprayMessage s site cls m = some t) : Canonical t := by
  unfold sprayMessage at e
  grind [setSpray_canonical, fly_canonical]

theorem hand_canonical (hs : Canonical s) (site m) {t : State} (e : hand s site m = some t) : Canonical t := by
  unfold hand at e
  grind [sprayMessage_canonical, canonical_of_frame]

theorem atSite_canonical (hs : Canonical s) (v) {f : Core → Core} (hf : ∀ c, c.sp.wf = true → (f c).sp.wf = true) : Canonical (atSite s v f) := by
  unfold atSite
  split
  · exact setCoreOf_canonical hs _ (hf _ (hs.sp _))
  · exact hs

theorem arrive_canonical (hs : Canonical s) (m) : Canonical (arrive s m) := by
  have here := atSite_canonical hs m.dst fun _ hc => apply_wf hc m
  have saved := fun n cx => onRecord_canonical hs n cx m.dst fun _ hc => apply_wf hc m
  unfold arrive
  grind [setDie_canonical]

theorem partDone_canonical (hs : Canonical s) (m) : Canonical (partDone s m) := by
  unfold partDone
  grind [setCoreOf_canonical, Spec.Canonical.sp]

theorem recordLoss_canonical (hs : Canonical s) (me peer kind tag ctag atEnd) : Canonical (recordLoss s me peer kind tag ctag atEnd) := by
  unfold recordLoss
  dsimp only
  split
  · refine emit_canonical (setCtx_canonical (atSite_canonical hs me ?_) _ _) ..
    exact fun _ hc => hc
  · refine emit_canonical (atSite_canonical hs me ?_) ..
    exact fun _ hc => hc

theorem pend_canonical (hs : Canonical s) (k cause tval) : Canonical (s.pend k cause tval) := hs

theorem lostAtSender_canonical (hs : Canonical s) (m) : Canonical (lostAtSender s m) := by
  unfold lostAtSender
  grind [setCoreOf_canonical, setSpray_canonical, recordLoss_canonical, pend_canonical, Spec.Canonical.sp]

theorem lostAtReceiver_canonical (hs : Canonical s) (src dst kind tag ctag) : Canonical (lostAtReceiver s src dst kind tag ctag) := by
  have lost := recordLoss_canonical hs dst src kind tag ctag true
  have saved := fun n cx => onRecord_canonical lost n cx dst (f := fun c => c.noteLoss tag (lossTval src kind tag)) fun _ hc => hc
  unfold lostAtReceiver
  grind [setCoreOf_canonical, pend_canonical, noteLoss_sp, Spec.Canonical.sp]

/-! ## Nodes and sites -/

theorem nodePost_canonical (hs : Canonical s) (basin slot target) : Canonical (nodePost s basin slot target).2 := by
  unfold nodePost
  grind [setCoreOf_canonical, setBasin_canonical, post_sp, Spec.Canonical.sp]

theorem postNode_canonical (hs : Canonical s) (basin slot target) : Canonical (postNode s basin slot target) :=
  setBasin_canonical (nodePost_canonical hs basin slot target) _ _

theorem popEvent_canonical (hs : Canonical s) (basin) : Canonical (popEvent s basin) := hs

theorem setRemap_canonical (hs : Canonical s) (d v e) : Canonical (setRemap s d v e) := hs

theorem putSiteAsg_canonical (hs : Canonical s) (site a) : Canonical (putSiteAsg s site a) := by
  unfold putSiteAsg
  grind [setCoreOf_canonical, setRemap_canonical, assign_sp, Spec.Canonical.sp]

theorem siteGo_canonical (hs : Canonical s) (site pc) : Canonical (siteGo s site pc) := by
  refine setHartOf_canonical (setCoreOf_canonical hs site ?_) _ _
  exact hs.sp site

theorem siteClr_canonical (hs : Canonical s) (site) : Canonical (siteClr s site) := by
  unfold siteClr
  grind [setCoreOf_canonical, clearBoot_sp, Memory.wf_nil, Spec.Canonical.sp]

theorem mcastSettle_canonical (hs : Canonical s) (d) : Canonical (mcastSettle s d) := by
  unfold mcastSettle
  grind [setDie_canonical]

theorem mcastFields_canonical (hs : Canonical s) (d len offset) : Canonical (mcastFields s d len offset) := hs

theorem mcastGo_canonical (hs : Canonical s) (d) : Canonical (mcastGo s d) := by
  unfold mcastGo
  grind [setDie_canonical, mcastSettle_canonical]

theorem mcastWrite_canonical (hs : Canonical s) (d site) : Canonical (mcastWrite s d site) := by
  unfold mcastWrite
  grind [setCoreOf_canonical, setDie_canonical, mcastSettle_canonical, wf_overlay, wf_sliceOf, Spec.Canonical.sp]

theorem floodStart_canonical (hs : Canonical s) (d) : Canonical (floodStart s d) := hs

theorem floodReport_canonical (hs : Canonical s) (d site) : Canonical (floodReport s d site) := by
  unfold floodReport
  grind [setDie_canonical]

/-! ## The repair log -/

theorem logUpdate_canonical (hs : Canonical s) : Canonical (logUpdate s) := by
  unfold logUpdate
  split
  · exact hs
  · exact foldl_canonical (fun _ _ hu => devWrite_canonical (devWrite_canonical hu _ _ _) _ _ _) _ (setDie_canonical hs _ _)

theorem keepLog_canonical (s : State) {t : State} (ht : Canonical t) : Canonical (keepLog s t) := by
  unfold keepLog
  grind [logUpdate_canonical]

/-- The repair log is written into device memory, which stays canonical (R441). -/
theorem logged_canonical (s : State) {o : Out} (ho : OutCanonical o) : OutCanonical (logged s o) := by
  unfold logged
  split
  · exact keepLog_canonical s ho
  · exact ho

theorem setMtvec_canonical (hs : Canonical s) (site) : Canonical (setMtvec s site) :=
  foldl_canonical (fun _ k hu => setHartOf_canonical hu k _) _ hs

theorem resetSite_canonical (hs : Canonical s) (site) : Canonical (resetSite s site) := by
  unfold resetSite
  refine setMtvec_canonical (foldl_canonical (fun _ k hu => setHartOf_canonical hu k _) _ ?_) site
  exact setCoreOf_canonical hs site rfl

/-! ## Control space -/

theorem sitePut_canonical (hs : Canonical s) (site addr data w) : Canonical (sitePut s site addr data w) := by
  unfold sitePut
  grind [setCoreOf_canonical, setHartOf_canonical, noteCleared_canonical, putSiteAsg_canonical, siteGo_canonical, siteClr_canonical, setTask_sp,
    spPut_wf, Spec.Canonical.sp]

theorem cisternPut_canonical (hs : Canonical s) (d addr data w) : Canonical (cisternPut s d addr data w) := by
  unfold cisternPut
  grind [setCoreOf_canonical, setDie_canonical, setSpray_canonical, mcastFields_canonical, mcastGo_canonical, floodStart_canonical,
    wf_writeBytes, Spec.Canonical.sp]

theorem basinPut_canonical (hs : Canonical s) (b addr w) : Canonical (basinPut s b addr w) := by
  unfold basinPut
  grind [setBasin_canonical, postNode_canonical, popEvent_canonical]

theorem ctlWrite_canonical (hs : Canonical s) (off size v) : Canonical (ctlWrite s off size v) := by
  unfold ctlWrite
  grind [sitePut_canonical, cisternPut_canonical, basinPut_canonical]

/-! ## Accesses of contexts, and launches -/

theorem ctxPlace_canonical (hs : Canonical s) (cx va acc) : Canonical (ctxPlace s cx va acc).2 := by
  unfold ctxPlace
  grind [walkUpdate_canonical]

theorem ctxReadIn_canonical (hs : Canonical s) (cx va n) : Canonical (ctxReadIn s cx va n).2 := by
  unfold ctxReadIn
  grind [ctxPlace_canonical]

theorem ctxReadFrom_canonical (cx : Ctx) (f : Nat) : ∀ {s : State}, Canonical s → ∀ va n, Canonical (ctxReadFrom cx f s va n).2 := by
  induction f with
  | zero => exact fun hs _ _ => hs
  | succ f ih =>
    intro s hs va n
    unfold ctxReadFrom
    grind [ctxReadIn_canonical]

theorem ctxRead_canonical (hs : Canonical s) (cx va n) : Canonical (ctxRead s cx va n).2 := ctxReadFrom_canonical cx _ hs va n

theorem ctxStore_canonical (hs : Canonical s) (n loc l) : Canonical (ctxStore s n loc l) := by
  unfold ctxStore
  grind [devWrite_canonical, emit_canonical, withHostMem_canonical, wf_writeBytes, Spec.Canonical.hostMem]

theorem ctxWriteIn_canonical (hs : Canonical s) (n va l) : Canonical (ctxWriteIn s n va l).2 := by
  unfold ctxWriteIn
  grind [ctxPlace_canonical, ctxStore_canonical]

theorem ctxWriteFrom_canonical (n f : Nat) : ∀ {s : State}, Canonical s → ∀ va l, Canonical (ctxWriteFrom n f s va l).2 := by
  induction f with
  | zero => exact fun hs _ _ => hs
  | succ f ih =>
    intro s hs va l
    unfold ctxWriteFrom
    grind [ctxWriteIn_canonical]

theorem ctxWrite_canonical (hs : Canonical s) (n va l) : Canonical (ctxWrite s n va l).2 := ctxWriteFrom_canonical n _ hs va l

theorem ctxMapped_canonical (cx : Ctx) (acc f : Nat) : ∀ {s : State}, Canonical s → ∀ va last, Canonical (ctxMapped cx acc f s va last).2 := by
  induction f with
  | zero => exact fun hs _ _ => hs
  | succ f ih =>
    intro s hs va last
    unfold ctxMapped
    grind [walkUpdate_canonical]

theorem ctxPages_canonical (n acc f : Nat) : ∀ {s : State}, Canonical s → ∀ va last, Canonical (ctxPages n acc f s va last).2 := by
  induction f with
  | zero => exact fun hs _ _ => hs
  | succ f ih =>
    intro s hs va last
    unfold ctxPages
    grind [walkUpdate_canonical]

theorem handleTasks_canonical (hs : Canonical s) (cx p) : Canonical (handleTasks s cx p).2 := ctxRead_canonical hs cx _ _

theorem handlePanes_canonical (cx : Ctx) (p : Handle) (l : List Nat) : ∀ {s : State}, Canonical s → Canonical (handlePanes s cx p l).2 := by
  induction l with
  | nil => exact fun hs => hs
  | cons q r ih =>
    intro s hs
    unfold handlePanes
    grind [ctxRead_canonical]

theorem handleTable_canonical (hs : Canonical s) (cx p) : Canonical (handleTable s cx p).2 := by
  unfold handleTable
  grind [handleTasks_canonical, handlePanes_canonical]

theorem launchReason_canonical (hs : Canonical s) (cx pool p q) : Canonical (launchReason s cx pool p q).2 := by
  unfold launchReason
  grind [handleTable_canonical]

theorem addLaunch_canonical (hs : Canonical s) (l) : Canonical (s.addLaunch l) := hs

theorem poolReason_canonical (hs : Canonical s) (cx p) : Canonical (poolReason s cx p).2 := by
  unfold poolReason
  grind [ctxRead_canonical, launchReason_canonical]

theorem postLaunch_canonical (hs : Canonical s) (agent p) : Canonical (postLaunch s agent p).2 := by
  unfold postLaunch
  grind [poolReason_canonical, devWrite_canonical, setCtx_canonical]

/-! ## Scalar accesses -/

theorem place_canonical (hs : Canonical s) (ea size acc) : ResCanonical Prod.snd (place s ea size acc) := by
  unfold place
  grind [translate_canonical, resCanonical_ok, resCanonical_error]

theorem loadDev_canonical (hs : Canonical s) (ea pa size io) : ResCanonical Prod.snd (loadDev s ea pa size io) := by
  unfold loadDev
  grind [bypass_canonical, fillLine_canonical, resCanonical_ok, resCanonical_error]

theorem load_canonical (hs : Canonical s) (ea size) : ResCanonical Prod.snd (load s ea size) := by
  have placed := place_canonical hs ea size 0
  unfold load
  grind [loadDev_canonical, hostSync_canonical, resCanonical_ok, resCanonical_error]

theorem ownWrite_canonical (hs : Canonical s) (o n v) : Canonical (ownWrite s o n v) := by
  unfold ownWrite
  grind [setC_canonical, wf_writeLE, Spec.Canonical.c]

theorem storeAt_canonical (hs : Canonical s) (p size v) : Canonical (storeAt s p size v) := by
  unfold storeAt
  grind [ctlWrite_canonical, retire_canonical, ownWrite_canonical, devWrite_canonical, bypass_canonical, performStore_canonical,
    hostSync_canonical, setC_canonical, Spec.Canonical.c]

theorem store_canonical (hs : Canonical s) (ea size v) : OutCanonical (store s ea size v) := by
  have placed := place_canonical hs ea size 1
  unfold store
  grind [raise_canonical, storeAt_canonical, resCanonical_ok, resCanonical_error, outCanonical_next]

theorem spCheck_canonical (hs : Canonical s) (o size) : ResCanonical (fun _ => s) (spCheck s o size) := by
  unfold spCheck
  grind [resCanonical_ok, resCanonical_error]

theorem spLoad_canonical (hs : Canonical s) (o size) : ResCanonical (fun _ => s) (spLoad s o size) := by
  have checked := spCheck_canonical hs o size
  unfold spLoad
  grind [resCanonical_ok, resCanonical_error]

theorem spStore_canonical (hs : Canonical s) (o size v) : ResCanonical id (spStore s o size v) := by
  have checked := spCheck_canonical hs o size
  unfold spStore
  grind [setC_canonical, spPut_wf, resCanonical_ok, resCanonical_error, Spec.Canonical.c]

theorem release_canonical (hs : Canonical s) (scope) : Canonical (release s scope) := by
  unfold release
  grind [flushDev_canonical, flushAll_canonical]

theorem strongRelease_canonical (hs : Canonical s) : Canonical (strongRelease s) := by
  unfold strongRelease
  grind [release_canonical]

theorem rmw_canonical (hs : Canonical s) (ea size op f) : ResCanonical Prod.snd (rmw s ea size op f) := by
  have placed := place_canonical hs ea size 3
  unfold rmw
  grind [bypass_canonical, devWrite_canonical, hostSync_canonical, withHostMem_canonical, wf_writeBytes, ownWrite_canonical, resCanonical_ok,
    resCanonical_error, Spec.Canonical.hostMem]

end

end Sys2Proof.Machine

/-! # Vector accesses, the Sluice engine, weirs and launches keep the memories canonical (O57) -/

namespace Sys2Proof.Machine

open Spec (Canonical)

section

variable {s : State}

/-! ## Vector instructions -/

theorem fpPut_canonical (hs : Canonical s) (vd w ps r) : Canonical (fpPut s vd w ps r) := hs

/-- What a reduction writes: a row each, an x register or element 0 (R137). -/
theorem reduceOp_canonical (hs : Canonical s) (red toResult fpChecks vd vs1 vs2 mask conv toX perRow) :
    OutCanonical (reduceOp red toResult fpChecks vd vs1 vs2 mask conv toX perRow s) := by
  unfold reduceOp
  refine vecOp_canonical hs fun u hu => ?_
  dsimp only
  split
  · exact fpPut_canonical hu ..
  · split
    · exact setX_canonical (orFlags_canonical hu _) _ _
    · exact setH_canonical (orFlags_canonical hu _) _

theorem moveToX_canonical (hs : Canonical s) (signed vd vs1 vs2 conv) : OutCanonical (moveToX signed vd vs1 vs2 conv s) :=
  vecOp_canonical hs fun _ hu => setX_canonical hu _ _

theorem execVexit_canonical (hs : Canonical s) (vd vs1 conv) : OutCanonical (execVexit vd vs1 conv s) := by
  refine vecOp_canonical hs fun u hu => ?_
  split
  · exact setX_canonical (setH_canonical hu _) _ _
  · exact setX_canonical (setH_canonical hu _) _ _

theorem execVshape_canonical (hs : Canonical s) (rd rs1 rs2 sew) : OutCanonical (execVshape rd rs1 rs2 sew s) := by
  unfold execVshape
  grind [raise_canonical, finish_canonical, setX_canonical, setH_canonical]

/-! ## Pins and vector memory -/

theorem pinUpdate_canonical (hs : Canonical s) (acc p) : Canonical (pinUpdate s acc p) := by
  unfold pinUpdate
  grind [walkUpdate_canonical, setBasin_canonical]

theorem execVpin_canonical (hs : Canonical s) (perm base len token) : OutCanonical (execVpin perm base len token s) := by
  unfold execVpin
  split
  · exact waiting_canonical hs ..
  · split
    · exact raise_canonical hs _
    · refine finish_canonical (setH_canonical ?_ _)
      split
      · exact hs
      · exact foldl_canonical (fun _ p hu => pinUpdate_canonical hu _ p) _ hs

theorem execVunpin_canonical (hs : Canonical s) (token) : OutCanonical (execVunpin token s) := by
  unfold execVunpin
  grind [waiting_canonical, finish_canonical, setH_canonical]

theorem stopAt_canonical (hs : Canonical s) (j i) : Canonical (s.stopAt j i) := hs

/-- Positions taken one after another. -/
theorem eachPos_canonical {f : State → Nat → Nat → Res State} (hf : ∀ u j i, Canonical u → ResCanonical id (f u j i)) (ps : List (Nat × Nat)) :
    ∀ {s : State}, Canonical s → ResCanonical id (eachPos f ps s) := by
  induction ps with
  | nil => exact fun hs => hs
  | cons p r ih =>
    intro s hs
    have here := hf s p.1 p.2 hs
    unfold eachPos
    grind [stopAt_canonical, resCanonical_ok, resCanonical_error]

theorem vAccRead_canonical (hs : Canonical s) (a : VAcc) (j i) : ResCanonical Prod.snd (a.read s j i) := by
  unfold VAcc.read
  grind [bypass_canonical, hostSync_canonical, resCanonical_ok, resCanonical_error]

theorem loadElem_canonical (hs : Canonical s) (a : VAcc) (vd j i) : ResCanonical id (a.loadElem vd s j i) := by
  have read := vAccRead_canonical hs a j i
  unfold VAcc.loadElem
  grind [setH_canonical, resCanonical_ok, resCanonical_error]

theorem vecMem_canonical (hs : Canonical s) (c check) {eff : State → Res State} (he : ∀ u, Canonical u → ResCanonical id (eff u)) :
    OutCanonical (vecMem s c check eff) := by
  have done := he s hs
  unfold vecMem
  grind [raise_canonical, refuseConvoy_canonical, finish_canonical, vdone_canonical, resCanonical_ok, resCanonical_error]

theorem vecLoad_canonical (hs : Canonical s) (a : VAcc) (vd conv mask ps) : OutCanonical (vecLoad a vd conv mask ps s) := by
  refine vecMem_canonical hs _ _ fun u hu => ?_
  split
  · exact hu
  · exact eachPos_canonical (fun _ _ _ hv => loadElem_canonical hv a vd _ _) _ hu

theorem vecLoadCw_canonical (hs : Canonical s) (form c0 vd base token col conv mc width) :
    OutCanonical (vecLoadCw form c0 vd base token col conv mc width s) := by
  have loaded := fun (a : VAcc) ps => eachPos_canonical (fun _ j i hu => loadElem_canonical hu a vd j i) ps hs
  unfold vecLoadCw
  dsimp only
  split
  · exact raise_canonical hs _
  · split
    · exact refuseConvoy_canonical hs _
    · split
      · exact raise_canonical hs _
      · grind [raise_canonical, finish_canonical, vdone_canonical, waiting_canonical, stopAt_canonical, resCanonical_ok, resCanonical_error]

theorem writeLoc_canonical (hs : Canonical s) (agent loc data) : Canonical (writeLoc s agent loc data) := by
  unfold writeLoc
  grind [devWrite_canonical, bypass_canonical, hostWrite_canonical, hostSync_canonical, ownWrite_canonical]

theorem putElem_canonical (hs : Canonical s) (a : VAcc) (multi vs p) : Canonical (a.putElem multi vs s p) := by
  unfold VAcc.putElem
  dsimp only
  split
  · exact setC_canonical hs (spPut_wf hs.c _ _)
  · split
    · exact hs
    · exact foldl_canonical (fun _ _ hu => writeLoc_canonical hu _ _ _) _ hs

theorem clearCovered_canonical (hs : Canonical s) (a ps) : Canonical (clearCovered a ps s) := by
  unfold clearCovered
  grind [setC_canonical, Spec.Canonical.c]

theorem storeEff_canonical (hs : Canonical s) (a vs multi unord ps) : ResCanonical id (storeEff a vs multi unord ps s) := by
  have put := fun order : List (Nat × Nat) =>
    foldl_canonical (fun _ p hu => putElem_canonical hu a multi vs p) order (strongRelease_canonical hs)
  unfold storeEff
  grind [clearCovered_canonical, stopAt_canonical, canonical_of_frame, resCanonical_ok, resCanonical_error]

theorem vecStore_canonical (hs : Canonical s) (a : VAcc) (vs multi conv unord mask) : OutCanonical (vecStore a vs multi conv unord mask s) :=
  vecMem_canonical hs _ _ fun _ hu => storeEff_canonical hu ..

theorem atomElem_canonical (hs : Canonical s) (a : VAcc) (vs op j i) : ResCanonical id (a.atomElem vs op s j i) := by
  unfold VAcc.atomElem
  grind [bypass_canonical, devWrite_canonical, ownWrite_canonical, orFlags_canonical, resCanonical_ok, resCanonical_error]

theorem atomEff_canonical (hs : Canonical s) (a : VAcc) (vs op dup ps) : ResCanonical id (atomEff a vs op dup ps s) := by
  have run := fun ps => eachPos_canonical (fun _ j i hu => atomElem_canonical hu a vs op j i) ps (strongRelease_canonical hs)
  unfold atomEff
  grind [stopAt_canonical, resCanonical_ok, resCanonical_error]

theorem vecAtomic_canonical (hs : Canonical s) (op size dup vs base idx token conv mask) :
    OutCanonical (vecAtomic op size dup vs base idx token conv mask s) :=
  vecMem_canonical hs _ _ fun _ hu => atomEff_canonical hu ..

theorem restartWhole_canonical {r : Res State} (hr : ResCanonical id r) : ResCanonical id (restartWhole r) := by
  unfold restartWhole
  grind [stopAt_canonical, resCanonical_ok, resCanonical_error]

theorem putMaskWord_canonical (hs : Canonical s) (a n p) : Canonical (putMaskWord a n s p) := by
  unfold putMaskWord
  grind [setC_canonical, spPut_wf, writeLoc_canonical, Spec.Canonical.c]

theorem readMaskWords_canonical (a : VAcc) (ps : List (Nat × Nat)) :
    ∀ {s : State}, Canonical s → ResCanonical Prod.snd (readMaskWords a ps s) := by
  induction ps with
  | nil => exact fun hs => hs
  | cons p r ih =>
    intro s hs
    have read := vAccRead_canonical hs a p.1 p.2
    unfold readMaskWords
    grind [resCanonical_ok, resCanonical_error]

theorem spillFrame_canonical (hs : Canonical s) (vs base token conv bound) : OutCanonical (spillFrame vs base token conv bound s) :=
  vecMem_canonical hs _ _ fun _ hu => storeEff_canonical hu ..

theorem fillFrame_canonical (hs : Canonical s) (vd base token conv bound) : OutCanonical (fillFrame vd base token conv bound s) := by
  refine vecMem_canonical hs _ _ fun u hu => ?_
  dsimp only
  split
  · exact hu
  · exact eachPos_canonical (fun _ _ _ hv => loadElem_canonical hv _ vd _ _) _ hu

theorem execVspill_canonical (hs : Canonical s) (vs base kind token conv) : OutCanonical (execVspill vs base kind token conv s) := by
  unfold execVspill
  split
  · exact spillFrame_canonical hs ..
  · refine vecMem_canonical hs _ _ fun u hu => ?_
    dsimp only
    split
    · exact restartWhole_canonical hu
    · exact foldl_canonical (fun _ _ hv => putMaskWord_canonical hv _ _ _) _ (strongRelease_canonical hu)

theorem execVfill_canonical (hs : Canonical s) (vd base kind token conv) : OutCanonical (execVfill vd base kind token conv s) := by
  unfold execVfill
  split
  · exact fillFrame_canonical hs ..
  · refine vecMem_canonical hs _ _ fun u hu => ?_
    grind [restartWhole_canonical, readMaskWords_canonical, setH_canonical, resCanonical_ok, resCanonical_error]

/-! ## The Sluice engine -/

theorem issued_canonical (hs : Canonical s) (rd ch r) : Canonical (issued s rd ch r) := by
  have flushed := flushAll_canonical hs s.agent
  refine setX_canonical (setC_canonical flushed ?_) _ _
  exact flushed.c

theorem sluiceOp_canonical (hs : Canonical s) (form rd xa xp mask ch) : OutCanonical (sluiceOp form rd xa xp mask ch s) := by
  unfold sluiceOp
  grind [raise_canonical, waiting_canonical, finish_canonical, issued_canonical]

theorem gatherOp_canonical (hs : Canonical s) (form rd vi xp mask ch) : OutCanonical (gatherOp form rd vi xp mask ch s) := by
  unfold gatherOp
  grind [raise_canonical, refuseConvoy_canonical, waiting_canonical, finish_canonical, vdone_canonical, issued_canonical]

theorem execSwait_canonical (hs : Canonical s) (rd xt ch) : OutCanonical (execSwait rd xt ch s) := by
  unfold execSwait
  grind [waiting_canonical, finish_canonical, setX_canonical]

theorem execSfault_canonical (hs : Canonical s) (rd xs) : OutCanonical (execSfault rd xs s) := by
  unfold execSfault
  grind [raise_canonical, finish_canonical, setX_canonical, setC_canonical, spPut_wf, Spec.Canonical.c]

theorem execSreplay_canonical (hs : Canonical s) (rd xt ch) : OutCanonical (execSreplay rd xt ch s) := by
  unfold execSreplay
  grind [finish_canonical, setX_canonical, setC_canonical, Spec.Canonical.c]

theorem sluiceHost_canonical (hs : Canonical s) (site acc g loc) : ResCanonical Prod.snd (sluiceHost s site acc g loc) := by
  unfold sluiceHost
  grind [canonical_of_frame, resCanonical_ok, resCanonical_error]

theorem sluiceLoc_canonical (hs : Canonical s) (site r g) : ResCanonical Prod.snd (sluiceLoc s site r g) := by
  unfold sluiceLoc
  grind [sluiceHost_canonical, translate_canonical, resCanonical_ok, resCanonical_error]

theorem chunkPlaces_canonical (site : Nat) (r : SluiceReq) (ws : List (Word × Nat)) :
    ∀ {s : State}, Canonical s → ResCanonical Prod.snd (chunkPlaces s site r ws) := by
  induction ws with
  | nil => exact fun hs => hs
  | cons w ws ih =>
    intro s hs
    have here := sluiceLoc_canonical hs site r w.1
    unfold chunkPlaces
    grind [resCanonical_ok, resCanonical_error]

theorem copyWord_canonical (hs : Canonical s) (site r p) : Canonical (copyWord site r s p) := by
  unfold copyWord
  grind [bypass_canonical, hostSync_canonical, setCoreOf_canonical, spPut_wf, writeLoc_canonical, Spec.Canonical.sp]

theorem mapSluice_canonical (hs : Canonical s) (site f) : Canonical (s.mapSluice site f) := by
  refine setCoreOf_canonical hs site ?_
  exact hs.sp site

theorem askPage_canonical (hs : Canonical s) (site ch r va cause page) : Canonical (askPage s site ch r va cause page) := by
  unfold askPage
  grind [mapSluice_canonical, canonical_of_frame]

theorem chunkFault_canonical (hs : Canonical s) (site ch r q f) : Canonical (chunkFault s site ch r q f) := by
  unfold chunkFault
  grind [mapSluice_canonical, askPage_canonical]

theorem askAgain_canonical (hs : Canonical s) (site ch r va cause page) : Canonical (askAgain s site ch r va cause page) := by
  unfold askAgain
  grind [askPage_canonical]

theorem chunkDone_canonical (hs : Canonical s) (site ch r q) : Canonical (chunkDone s site ch r q) := by
  unfold chunkDone
  grind [mapSluice_canonical, setHartOf_canonical]

theorem runChunk_canonical (hs : Canonical s) (site ch r q) : Canonical (runChunk s site ch r q) := by
  have places := chunkPlaces_canonical site r (r.words q) hs
  have copied := fun {u : State} (ps : List (Word × Nat × Loc)) (hu : Canonical u) =>
    foldl_canonical (fun _ p hv => copyWord_canonical hv site r p) ps hu
  unfold runChunk
  grind [chunkFault_canonical, chunkDone_canonical, resCanonical_ok, resCanonical_error]

theorem runPart_canonical (hs : Canonical s) (site ch r) : Canonical (runPart s site ch r) := by
  unfold runPart
  grind [mapSluice_canonical, hand_canonical]

theorem sluiceChunkEff_canonical (hs : Canonical s) (site ch id q) : Canonical (sluiceChunkEff s site ch id q) := by
  unfold sluiceChunkEff
  grind [askAgain_canonical, runPart_canonical, runChunk_canonical]

theorem refusedPage_canonical (hs : Canonical s) (p) : Canonical (refusedPage s p) := mapSluice_canonical hs _ _

theorem pageResponse_canonical (hs : Canonical s) (i ok) : Canonical (pageResponse s i ok) := by
  unfold pageResponse
  grind [refusedPage_canonical, canonical_of_frame]

/-! ## Weir, tasks, launches and work graphs -/

theorem weirSettle_canonical (hs : Canonical s) (c) : Canonical (weirSettle s c) := by
  unfold weirSettle
  split
  · refine withCores_canonical hs fun k => ?_
    refine smGet_map_rel (R := fun c c' => c.sp.wf = true → c'.sp.wf = true) id (fun e => ?_) (fun e => ?_) k s.cores (hs.sp k)
    · split <;> rfl
    · split <;> exact id
  · exact hs

theorem weirSettleAll_canonical (hs : Canonical s) : Canonical (weirSettleAll s) :=
  foldl_canonical (fun _ _ hu => weirSettle_canonical hu _) _ hs

theorem weirReach_canonical (hs : Canonical s) (c site) : Canonical (weirReach s c site) := by
  unfold weirReach
  grind [weirSettle_canonical, setCoreOf_canonical, Spec.Canonical.sp]

theorem execWarrive_canonical (hs : Canonical s) (chan) : OutCanonical (execWarrive chan s) := by
  unfold execWarrive
  grind [raise_canonical, finish_canonical, release_canonical, weirSettle_canonical, setC_canonical, Spec.Canonical.c]

theorem execWwait_canonical (hs : Canonical s) (chan) : OutCanonical (execWwait chan s) := by
  unfold execWwait
  grind [waiting_canonical, finish_canonical]

theorem putWmember_canonical (hs : Canonical s) (v) : Canonical (putWmember s v) := by
  refine weirSettleAll_canonical (setC_canonical hs ?_)
  exact hs.c

theorem execTend_canonical (hs : Canonical s) : OutCanonical (execTend s) := by
  unfold execTend
  grind [waiting_canonical, retireEnd_canonical, endTask_canonical, release_canonical, finishEnd_canonical, outCanonical_next]

theorem taskBitOp_canonical (hs : Canonical s) (bit xv xc xs) : OutCanonical (taskBitOp bit xv xc xs s) := by
  unfold taskBitOp
  grind [raise_canonical, waiting_canonical, finish_canonical, hand_canonical, setC_canonical, taskBit_sp, Spec.Canonical.c]

theorem execTpost_canonical (hs : Canonical s) (xs xp) : OutCanonical (execTpost xs xp s) := by
  unfold execTpost
  grind [raise_canonical, finish_canonical, setC_canonical, post_sp, Spec.Canonical.c]

theorem loadWords_canonical (n : Nat) : ∀ {s : State}, Canonical s → ∀ ea, ResCanonical Prod.snd (loadWords s ea n) := by
  induction n with
  | zero => exact fun hs _ => hs
  | succ n ih =>
    intro s hs ea
    have first := load_canonical hs ea 8
    unfold loadWords
    grind [resCanonical_ok, resCanonical_error]

theorem loadBlock_canonical (hs : Canonical s) (ea) : ResCanonical Prod.snd (loadBlock s ea) := by
  unfold loadBlock
  grind [loadWords_canonical, resCanonical_error]

theorem execGlaunch_canonical (hs : Canonical s) (rd xs) : OutCanonical (execGlaunch rd xs s) := by
  have block := loadBlock_canonical hs (s.x xs)
  unfold execGlaunch
  grind [raise_canonical, finish_canonical, setX_canonical, postLaunch_canonical, release_canonical, resCanonical_ok, resCanonical_error]

theorem execWreserve_canonical (hs : Canonical s) (rd xq xn) : OutCanonical (execWreserve rd xq xn s) := by
  have block := loadBlock_canonical hs (s.x xq)
  unfold execWreserve
  grind [raise_canonical, finish_canonical, setX_canonical, setBasin_canonical, setH_canonical, outCanonical_next, resCanonical_ok,
    resCanonical_error]

theorem commitAt_canonical (hs : Canonical s) (block l i) {t : State} (e : commitAt s block l i = some t) : Canonical t := by
  unfold commitAt at e
  grind [setBasin_canonical]

theorem execWcommit_canonical (hs : Canonical s) (xq xi) : OutCanonical (execWcommit xq xi s) := by
  have block := loadBlock_canonical hs (s.x xq)
  unfold execWcommit
  grind [raise_canonical, finish_canonical, commitAt_canonical, release_canonical, resCanonical_ok, resCanonical_error]

/-! ## Core firmware -/

theorem haltHart_canonical (hs : Canonical s) : Canonical (haltHart s) := afterHalt_canonical (setH_canonical hs _)

theorem reportFatal_canonical (hs : Canonical s) (n cause v) : Canonical (reportFatal s n cause v) := by
  unfold reportFatal
  grind [setCtx_canonical]

theorem endByFirmware_canonical (hs : Canonical s) (ch) : Canonical (endByFirmware s ch) :=
  endTask_canonical (release_canonical (emit_canonical hs ..) 3) _

theorem coreFirmware_canonical (hs : Canonical s) : Canonical (coreFirmware s) := by
  unfold coreFirmware
  grind [haltHart_canonical, reportFatal_canonical, endByFirmware_canonical]

end

end Sys2Proof.Machine

/-! # Binning, gangs, frames, queues and contexts keep the memories canonical (O57) -/

namespace Sys2Proof.Machine

open Spec (Canonical)

section

variable {s : State}

/-! ## Binning and pixel interlocks -/

theorem pushRecord_canonical (hs : Canonical s) (b data) : Canonical (pushRecord s b data) := hs

theorem pushAll_canonical (b : Nat) (vs1 : BitVec 5) (ps : List (Nat × Nat)) :
    ∀ {s : State}, Canonical s → Canonical (pushAll b vs1 ps s).1 := by
  induction ps with
  | nil => exact fun hs => hs
  | cons p r ih =>
    intro s hs
    unfold pushAll
    grind [pushRecord_canonical]

theorem execQpush_canonical (hs : Canonical s) (vs1 xs2 mask conv) : OutCanonical (execQpush vs1 xs2 mask conv s) := by
  have pushed := fun b ps => pushAll_canonical b vs1 ps (release_canonical hs 3)
  unfold execQpush
  dsimp only
  split
  · exact raise_canonical hs _
  · grind [raise_canonical, refuseConvoy_canonical, finish_canonical, vdone_canonical, waiting_canonical, stopAt_canonical]

theorem execQend_canonical (hs : Canonical s) (xs2) : OutCanonical (execQend xs2 s) := by
  unfold execQend
  grind [raise_canonical, finish_canonical, setBasin_canonical, release_canonical]

theorem askPixel_canonical (hs : Canonical s) (d seq p) : Canonical (askPixel d seq s p) := hs

theorem keepLocks_canonical (hs : Canonical s) : Canonical (keepLocks s) := hs

theorem pixelOp_canonical (hs : Canonical s) (vs1 seq mask conv) {eff : List Member → Out} (he : ∀ cv, OutCanonical (eff cv)) :
    OutCanonical (pixelOp vs1 seq mask conv s eff) := by
  unfold pixelOp
  grind [raise_canonical, refuseConvoy_canonical]

theorem execPxlock_canonical (hs : Canonical s) (vs1 xs2 mask conv) : OutCanonical (execPxlock vs1 xs2 mask conv s) := by
  unfold execPxlock
  refine pixelOp_canonical hs _ _ _ _ fun cv => ?_
  have asked := fun d l => foldl_canonical (fun _ p hu => askPixel_canonical hu d (s.x xs2).toNat p) l hs
  grind [raise_canonical, finish_canonical, vdone_canonical, keepLocks_canonical, setH_canonical, outCanonical_next]

theorem execPxunlock_canonical (hs : Canonical s) (vs1 mask conv) : OutCanonical (execPxunlock vs1 mask conv s) := by
  refine pixelOp_canonical hs _ _ _ _ fun cv => ?_
  dsimp only
  split
  · exact raise_canonical hs _
  · exact finish_canonical (vdone_canonical (mapBasins_canonical (release_canonical hs 3) _) cv)

theorem execPxskip_canonical (hs : Canonical s) (vs1 xs2 mask conv) : OutCanonical (execPxskip vs1 xs2 mask conv s) := by
  unfold execPxskip
  refine pixelOp_canonical hs _ _ _ _ fun cv => ?_
  dsimp only
  split
  · exact raise_canonical hs _
  · exact finish_canonical (vdone_canonical hs cv)
  · refine finish_canonical (vdone_canonical (foldl_canonical (fun u p hu => ?_) _ (release_canonical hs 3)) cv)
    split
    · exact setBasin_canonical hu _ _
    · exact hu

/-! ## Events of harts, gangs and stores -/

theorem execHartStateMachineCheck_canonical (hs : Canonical s) (hart coreState) : OutCanonical (execHartStateMachineCheck hart coreState s) := by
  unfold execHartStateMachineCheck
  grind [pend_canonical, outCanonical_next]

theorem execBudgetExpiry_canonical (hs : Canonical s) (hart) : OutCanonical (execBudgetExpiry hart s) := by
  have expired := atHart_canonical hs hart fun _ hu => budgetTrap_canonical hu
  unfold execBudgetExpiry
  grind [outCanonical_next]

theorem execCoreCompleteReport_canonical (hs : Canonical s) (core) : OutCanonical (execCoreCompleteReport core s) := by
  unfold execCoreCompleteReport
  grind [setCoreOf_canonical, outCanonical_next, Spec.Canonical.sp]

/-- A gang's scratchpad image is written pane by pane into an empty memory (R274). -/
theorem gangScratch_canonical (hs : Canonical s) (cx h) : (gangScratch s cx h).1.wf = true ∧ Canonical (gangScratch s cx h).2 := by
  refine List.foldlRecOn _ _ (motive := fun a : Memory × State => a.1.wf = true ∧ Canonical a.2) ⟨rfl, hs⟩ ?_
  rintro ⟨m, u⟩ ⟨hm, hu⟩ p -
  grind [ctxRead_canonical, wf_writeBytes]

theorem freeWeirs_canonical (hs : Canonical s) (l) : Canonical (freeWeirs s l) := by
  refine withCores_canonical hs fun k => ?_
  refine smGet_map_rel (R := fun c c' => c.sp.wf = true → c'.sp.wf = true) id (fun e => ?_) (fun e => ?_) k s.cores (hs.sp k)
  · split <;> rfl
  · split <;> exact id

theorem runAhead_canonical (hs : Canonical s) (site l) : Canonical (runAhead s site l) := by
  have freed := freeWeirs_canonical (flushAll_canonical hs site) l
  have table := handleTasks_canonical freed ((freeWeirs (flushAll s site) l).ctx l.ctx) l.handle
  obtain ⟨scratch, loaded⟩ := gangScratch_canonical table ((freeWeirs (flushAll s site) l).ctx l.ctx) l.handle
  unfold runAhead
  refine foldl_canonical (fun _ k hu => setHartOf_canonical hu k _) _ (noteCleared_canonical (setCoreOf_canonical loaded site ?_) _ site)
  rw [post_sp]
  exact scratch

theorem execRunAheadStart_canonical (hs : Canonical s) (core) : OutCanonical (execRunAheadStart core s) := by
  unfold execRunAheadStart
  grind [runAhead_canonical, canonical_of_frame, outCanonical_next]

theorem execOwnerReserve_canonical (hs : Canonical s) (basin) : OutCanonical (execOwnerReserve basin s) := by
  unfold execOwnerReserve
  grind [setBasin_canonical, setHartOf_canonical, outCanonical_next]

theorem performAt_canonical (hs : Canonical s) (core i) : Canonical (performAt s core i) := by
  unfold performAt
  grind [performStore_canonical, setCoreOf_canonical, Spec.Canonical.sp]

theorem execHostWriteRefusal_canonical (hs : Canonical s) (core i) : OutCanonical (execHostWriteRefusal core i s) := by
  unfold execHostWriteRefusal
  grind [performAt_canonical, outCanonical_next]

/-! ## Frames -/

theorem setGfx_canonical (hs : Canonical s) (b g) : Canonical (s.setGfx b g) := hs

theorem framePages_canonical (hs : Canonical s) (n d) : Canonical (framePages s n d).2 := by
  unfold framePages
  grind [ctxPages_canonical]

theorem pagesWrite_canonical (n : Nat) (ps : List TlbEntry) (f : Nat) :
    ∀ {s : State}, Canonical s → ∀ va l, Canonical (pagesWrite n ps f s va l) := by
  induction f with
  | zero => exact fun hs _ _ => hs
  | succ f ih =>
    intro s hs va l
    unfold pagesWrite
    grind [ctxStore_canonical]

theorem frameWrite_canonical (hs : Canonical s) (g va l) : Canonical (frameWrite s g va l) := pagesWrite_canonical _ _ _ hs va l

theorem execFrameOpen_canonical (hs : Canonical s) (basin) : OutCanonical (execFrameOpen basin s) := by
  unfold execFrameOpen
  grind [framePages_canonical, setGfx_canonical, outCanonical_next]

theorem execBinRecord_canonical (hs : Canonical s) (basin) : OutCanonical (execBinRecord basin s) := by
  unfold execBinRecord
  grind [setGfx_canonical, outCanonical_next]

theorem execQendMarkArrival_canonical (hs : Canonical s) (basin) : OutCanonical (execQendMarkArrival basin s) := by
  unfold execQendMarkArrival
  grind [setGfx_canonical, outCanonical_next]

theorem execTileResolve_canonical (hs : Canonical s) (basin) : OutCanonical (execTileResolve basin s) := by
  unfold execTileResolve
  grind [frameWrite_canonical, setGfx_canonical, outCanonical_next]

theorem execTileNotification_canonical (hs : Canonical s) (basin core) : OutCanonical (execTileNotification basin core s) := by
  unfold execTileNotification
  grind [setCoreOf_canonical, setGfx_canonical, post_sp, outCanonical_next, Spec.Canonical.sp]

theorem execFrameComplete_canonical (hs : Canonical s) (basin) : OutCanonical (execFrameComplete basin s) := by
  unfold execFrameComplete
  grind [setGfx_canonical, canonical_of_frame, outCanonical_next]

theorem execPixelLockGrant_canonical (hs : Canonical s) (basin x y) : OutCanonical (execPixelLockGrant basin x y s) := by
  unfold execPixelLockGrant
  grind [setGfx_canonical, outCanonical_next]

/-! ## Queues -/

theorem queueError_canonical (hs : Canonical s) (n code detail pseq) : Canonical (queueError s n code detail pseq) :=
  emit_canonical (setQueue_canonical hs n _) ..

theorem failPacket_canonical (hs : Canonical s) (n code detail pseq) : Canonical (failPacket s n code detail pseq) :=
  queueError_canonical (setQueue_canonical hs n _) ..

theorem checkOverrun_canonical (hs : Canonical s) (n) : Canonical (checkOverrun s n) := by
  unfold checkOverrun
  grind [queueError_canonical]

theorem signalPlace_canonical (hs : Canonical s) (cx a) : Canonical (signalPlace s cx a).2 := by
  unfold signalPlace
  grind [ctxPlace_canonical]

theorem writeSignal_canonical (hs : Canonical s) (n d) : Canonical (writeSignal s n d) := by
  unfold writeSignal
  grind [signalPlace_canonical, queueError_canonical, ctxStore_canonical]

theorem settleQueue_canonical (hs : Canonical s) (n) : Canonical (settleQueue s n) := by
  unfold settleQueue
  dsimp only
  have written := foldl_canonical (fun _ d hu => writeSignal_canonical hu n d) ((s.queue n).running.filter (Dispatched.complete s))
    (setQueue_canonical hs n { s.queue n with running := (s.queue n).running.filter fun d => !d.complete s })
  split
  · exact setQueue_canonical written _ _
  · exact written

theorem settleAll_canonical (hs : Canonical s) : Canonical (settleAll s) := foldl_canonical (fun _ _ hu => settleQueue_canonical hu _) _ hs

theorem enableQueue_canonical (hs : Canonical s) (n) : Canonical (enableQueue s n) := by
  unfold enableQueue
  grind [checkOverrun_canonical, setQueue_canonical]

theorem stopQueue_canonical (hs : Canonical s) (n) : Canonical (stopQueue s n) := by
  unfold stopQueue
  grind [settleQueue_canonical, setQueue_canonical]

theorem ringDoorbell_canonical (hs : Canonical s) (n wr) : Canonical (ringDoorbell s n wr) :=
  checkOverrun_canonical (setQueue_canonical hs n _) n

theorem clearQueueError_canonical (hs : Canonical s) (n) : Canonical (clearQueueError s n) := by
  unfold clearQueueError
  grind [checkOverrun_canonical, setQueue_canonical]

theorem whenReady_canonical (hs : Canonical s) {f : State → State} (hf : Canonical (f s)) : Canonical (whenReady s f) := by
  unfold whenReady
  split <;> assumption

theorem readPacket_canonical (hs : Canonical s) (n) : Canonical (readPacket s n).2 := by
  unfold readPacket
  grind [ctxRead_canonical, signalPlace_canonical]

theorem readBlock64_canonical (hs : Canonical s) (cx a) : Canonical (readBlock64 s cx a).2 := by
  unfold readBlock64
  grind [ctxRead_canonical]

/-- A packet whose effect keeps the canonical form. -/
theorem packetStep_canonical (hs : Canonical s) (n kind) {eff : State → List Byte → Except (Nat × Nat) Effect × State}
    (he : ∀ u p, Canonical u → Canonical (eff u p).2) : Canonical (packetStep s n kind eff) := by
  have read := readPacket_canonical hs n
  unfold packetStep
  split
  · exact hs
  · split
    · next e t r => rw [r] at read; exact failPacket_canonical read ..
    · next p t r =>
      rw [r] at read
      have done := he t p read
      grind [failPacket_canonical, settleQueue_canonical, setQueue_canonical]

theorem execIndirectPacket_canonical (hs : Canonical s) (queue) : OutCanonical (execIndirectPacket queue s) := by
  refine packetStep_canonical hs queue 3 fun u p hu => ?_
  grind [readBlock64_canonical]

theorem execGangLaunchPacket_canonical (hs : Canonical s) (queue) : OutCanonical (execGangLaunchPacket queue s) := by
  refine packetStep_canonical hs queue 1 fun u p hu => ?_
  grind [readBlock64_canonical, launchReason_canonical, addLaunch_canonical]

theorem ctxWritable_canonical (hs : Canonical s) (cx va n) : Canonical (ctxWritable s cx va n).2 := by
  unfold ctxWritable
  grind [ctxMapped_canonical]

theorem frameOk_canonical (hs : Canonical s) (cx l) : Canonical (frameOk s cx l).2 := by
  unfold frameOk
  grind [ctxWritable_canonical]

theorem addFrame_canonical (hs : Canonical s) (n queue d) : Canonical (addFrame s n queue d) :=
  foldl_canonical (fun _ b hu => setGfx_canonical hu b _) _ (addLaunch_canonical hs _)

theorem execFramePacket_canonical (hs : Canonical s) (queue) : OutCanonical (execFramePacket queue s) := by
  refine packetStep_canonical hs queue 2 fun u p hu => ?_
  grind [readBlock64_canonical, frameOk_canonical, addFrame_canonical]

/-- Shootdown and release drop translations from every core, and leave every scratchpad (R369). -/
theorem filterTlbs_canonical (hs : Canonical s) (f : TlbEntry → Bool) :
    Canonical { s with cores := s.cores.map fun e => (e.1, { e.2 with caches := { e.2.caches with tlb := e.2.caches.tlb.filter f } }) } := by
  refine withCores_canonical hs fun k => ?_
  refine smGet_map_rel (R := fun c c' => c.sp.wf = true → c'.sp.wf = true) id (fun _ => ?_) (fun _ => ?_) k s.cores (hs.sp k)
  · rfl
  · exact id

theorem shootdown_canonical (hs : Canonical s) (ctx id b n) : Canonical (shootdown s ctx id b n) :=
  canonical_of_frame (filterTlbs_canonical hs fun e => !e.shot ctx b n) rfl rfl rfl rfl rfl

theorem execShootdownPacket_canonical (hs : Canonical s) (queue) : OutCanonical (execShootdownPacket queue s) := by
  refine packetStep_canonical hs queue 6 fun u p hu => ?_
  exact shootdown_canonical hu _ u.nextLaunch _ _

theorem ctxWrites_canonical (n : Nat) (l : List (Word × List Byte)) : ∀ {s : State}, Canonical s → Canonical (ctxWrites n l s).2 := by
  induction l with
  | nil => exact fun hs => hs
  | cons a r ih =>
    obtain ⟨a, b⟩ := a
    intro s hs
    unfold ctxWrites
    grind [ctxWrite_canonical]

theorem loadReason_canonical (hs : Canonical s) (cx l region rsize houtOk) : Canonical (loadReason s cx l region rsize houtOk).2 := by
  unfold loadReason
  grind [ctxWritable_canonical]

theorem execLoadPacket_canonical (hs : Canonical s) (queue) : OutCanonical (execLoadPacket queue s) := by
  refine packetStep_canonical hs queue 5 fun u p hu => ?_
  dsimp only
  split
  · exact hu
  · grind [ctxRead_canonical, ctxWritable_canonical, ctxWrite_canonical, loadReason_canonical, ctxWrites_canonical]

/-! ## The end of launches, and the pool -/

theorem writeBackWorks_canonical (hs : Canonical s) (n f) : Canonical (writeBackWorks s n f) :=
  foldl_canonical (fun _ _ hu => ctxWrite_canonical hu _ _ _) _ hs

theorem giveUpWorks_canonical (hs : Canonical s) (n id) : Canonical (giveUpWorks s n id) :=
  mapBasins_canonical (writeBackWorks_canonical hs n _) _

@[simp] theorem leaveGang_sp (c : Core) (id) : (c.leaveGang id).sp = c.sp := by
  unfold Core.leaveGang
  split <;> rfl

theorem reapLaunches_canonical (f : Nat) : ∀ {s : State}, Canonical s → Canonical (reapLaunches s f) := by
  induction f with
  | zero => exact fun hs => hs
  | succ f ih =>
    intro s hs
    unfold reapLaunches
    grind [canonical_of_frame]

theorem completeLaunch_canonical (hs : Canonical s) (l) : Canonical (completeLaunch s l) := by
  have flushed := foldl_canonical (fun _ k hu => flushAll_canonical hu k) (l.cores.filterMap (siteOf s)) hs
  have left := weirSettleAll_canonical (foldl_canonical (f := fun s k => s.setCoreOf k ((s.coreOf k).leaveGang l.id))
    (fun u k hu => setCoreOf_canonical hu k (by simpa using hu.sp k)) (l.cores.filterMap (siteOf s)) flushed)
  unfold completeLaunch
  grind [giveUpWorks_canonical, setCtx_canonical, canonical_of_frame]

theorem execLaunchCompletion_canonical (hs : Canonical s) (id) : OutCanonical (execLaunchCompletion id s) := by
  unfold execLaunchCompletion
  grind [completeLaunch_canonical, reapLaunches_canonical, settleAll_canonical, outCanonical_next]

theorem execPoolDispatch_canonical (hs : Canonical s) (ctx entry) : OutCanonical (execPoolDispatch ctx entry s) := by
  unfold execPoolDispatch
  grind [readBlock64_canonical, launchReason_canonical, addLaunch_canonical, setCtx_canonical, reapLaunches_canonical, settleAll_canonical,
    outCanonical_next]

/-! ## Contexts -/

theorem ctxErr_canonical (hs : Canonical s) (n e) : Canonical (ctxErr s n e) := hs

theorem ctxActivate_canonical (hs : Canonical s) (n) : Canonical (ctxActivate s n) := by
  unfold ctxActivate
  dsimp only
  split
  · exact ctxErr_canonical hs n _
  · split
    · exact ctxErr_canonical hs n _
    · split
      · exact ctxErr_canonical hs n _
      · exact setCtx_canonical hs n _

@[simp] theorem preempt_sp (c : Core) (v) : (c.preempt v).sp = c.sp := rfl

theorem releaseQueue_canonical (hs : Canonical s) (n) : Canonical (releaseQueue s n) := by
  unfold releaseQueue
  grind [stopQueue_canonical, setQueue_canonical, queueError_canonical]

theorem dropCtx_canonical (hs : Canonical s) (n) : Canonical (dropCtx s n) :=
  canonical_of_frame (filterTlbs_canonical hs fun t => t.ctx ≠ n) rfl rfl rfl rfl rfl

theorem ctxRelease_canonical (hs : Canonical s) (n) : Canonical (ctxRelease s n) := by
  have released := foldl_canonical (fun _ q hu => releaseQueue_canonical hu q) (ctxQueues s n) hs
  unfold ctxRelease
  grind [ctxErr_canonical, setCtx_canonical, dropCtx_canonical]

theorem settleWeir_canonical (hs : Canonical s) (site) : Canonical (settleWeir s site) :=
  foldl_canonical (fun _ _ hu => foldl_canonical (fun _ _ hv => weirReach_canonical hv _ site) _ hu) _ hs

theorem withFreeCtr_canonical (hs : Canonical s) (n) : Canonical { s with freeCtr := n } := hs

theorem saveFrame_canonical (hs : Canonical s) (n b) : Canonical (saveFrame s n b) := by
  unfold saveFrame
  dsimp only
  split
  · have written := frameWrite_canonical hs (s.gfx b) ((s.gfx b).desc.savedAt b) ((List.range 4096).map (Config.savedBins s.freeCtr b))
    exact setCtx_canonical (setGfx_canonical (withFreeCtr_canonical written (s.freeCtr + 1)) b _) n _
  · exact hs

theorem finishSave_canonical (hs : Canonical s) (n) : Canonical (finishSave s n) := by
  unfold finishSave
  dsimp only
  split
  · have frames := foldl_canonical (fun _ b hu => saveFrame_canonical hu n b) (List.range 64) hs
    refine setCtx_canonical (foldl_canonical (fun u k hu => setCoreOf_canonical hu k ?_) _ (writeBackWorks_canonical frames n _)) n _
    exact hu.sp k
  · exact hs

theorem ctxSave_canonical (hs : Canonical s) (n) : Canonical (ctxSave s n) := by
  have held := foldl_canonical (f := fun s k => s.setCoreOf k ((s.coreOf k).preempt true))
    (fun u k hu => setCoreOf_canonical hu k (by simpa using hu.sp k)) (ctxSites s (s.ctx n)) hs
  unfold ctxSave
  grind [ctxErr_canonical, finishSave_canonical, setCtx_canonical]

theorem saveRecord_canonical (hs : Canonical s) (site) : Canonical (saveRecord s site) := by
  unfold saveRecord
  grind [flushAll_canonical, settleWeir_canonical, writeRecord_canonical, finishSave_canonical, setCtx_canonical, Spec.Canonical.sp]

theorem restoreCore_canonical (hs : Canonical s) (n site) : Canonical (restoreCore s n site) := by
  unfold restoreCore
  refine noteCleared_canonical (setCoreOf_canonical hs site ?_) _ site
  rw [preempt_sp]
  refine Eq.trans ?_ (readRecord_wf hs (s.ctx n) (s.coreOf site).coreid { s.coreOf site with
    caches := { (s.coreOf site).caches with l1d := [], l1i := [] }, sluice := Sluice.reset, mail := Mailbox.reset, weir := Weir.reset })
  rfl

theorem takeWeirs_canonical (hs : Canonical s) (n) : Canonical (takeWeirs s n) := foldl_canonical (fun _ l hu => freeWeirs_canonical hu l) _ hs

theorem loadContext_canonical (hs : Canonical s) (n) : Canonical (loadContext s n) := by
  unfold loadContext
  dsimp only
  split
  · have loaded := foldl_canonical (fun _ k hu => restoreCore_canonical hu n k) (ctxSites s (s.ctx n)) (takeWeirs_canonical hs n)
    exact setCtx_canonical (foldl_canonical (fun _ (e : Nat × Gfx) hu => setGfx_canonical hu e.1 _) _ loaded) n _
  · exact hs

theorem ctxRestore_canonical (hs : Canonical s) (n) : Canonical (ctxRestore s n) := by
  unfold ctxRestore
  grind [ctxErr_canonical, loadContext_canonical, setCtx_canonical]

theorem ctxCommand_canonical (hs : Canonical s) (n cmd) : Canonical (ctxCommand s n cmd) := by
  unfold ctxCommand
  grind [ctxActivate_canonical, ctxSave_canonical, ctxRestore_canonical, ctxRelease_canonical, ctxErr_canonical]

theorem execCtxRestore_canonical (hs : Canonical s) (ctx) : OutCanonical (execCtxRestore ctx s) := by
  have restored := whenReady_canonical hs (f := fun s => ctxRestore s ctx) (ctxRestore_canonical hs ctx)
  unfold execCtxRestore
  grind [loadContext_canonical, outCanonical_next]

end

end Sys2Proof.Machine

/-! # Links, moves, resets, training, standby and the host keep the memories canonical (O57) -/

namespace Sys2Proof.Machine

open Spec (Canonical)

section

variable {s : State}

/-! ## Paths and leases -/

theorem setPath_canonical (hs : Canonical s) (d p v) : Canonical (setPath s d p v) := hs

theorem bothEnds_canonical (hs : Canonical s) (d p f) : Canonical (bothEnds s d p f) := by
  unfold bothEnds
  grind [setPath_canonical]

theorem setFabPort_canonical (hs : Canonical s) (d i f) : Canonical (setFabPort s d i f) := hs

theorem reportPath_canonical (hs : Canonical s) (d p) : Canonical (reportPath s d p) := emit_canonical hs ..

theorem retirePath_canonical (hs : Canonical s) (d p) : Canonical (retirePath s d p) := by
  unfold retirePath
  refine logUpdate_canonical (reportPath_canonical ?_ d p)
  exact bothEnds_canonical hs d p _

theorem retireDue_canonical (hs : Canonical s) : Canonical (retireDue s) := by
  refine foldl_canonical (fun u i hu => ?_) _ hs
  split
  · exact retirePath_canonical hu _ _
  · exact hu

theorem pathFault_canonical (hs : Canonical s) (d p) : Canonical (pathFault s d p) := by
  unfold pathFault
  grind [setPath_canonical, retirePath_canonical]

theorem portRetrained_canonical (hs : Canonical s) (d p passed) : Canonical (portRetrained s d p passed) := by
  unfold portRetrained
  split
  · exact hs
  · exact setFabPort_canonical hs ..

theorem execPathRetrain_canonical (hs : Canonical s) (die path passed) : OutCanonical (execPathRetrain die path passed s) := by
  unfold execPathRetrain
  have ported := portRetrained_canonical hs die path passed
  refine (outCanonical_next _).mpr ?_
  split
  · exact hs
  · split
    · split
      · exact logUpdate_canonical (reportPath_canonical (bothEnds_canonical ported ..) ..)
      · exact bothEnds_canonical ported ..
    · exact hs

theorem setLease_canonical (hs : Canonical s) (d l) : Canonical (setLease s d l) := hs

theorem sendBeat_canonical (hs : Canonical s) (b) : Canonical (sendBeat s b) := by
  unfold sendBeat
  split <;> exact hs

theorem takeBeat_canonical (hs : Canonical s) (b) {t : State} (e : takeBeat s b = some t) : Canonical t := by
  unfold takeBeat at e
  grind [canonical_of_frame]

theorem execLeaseHeartbeatSend_canonical (hs : Canonical s) (die) : OutCanonical (execLeaseHeartbeatSend die s) := by
  unfold execLeaseHeartbeatSend
  refine (outCanonical_next _).mpr ?_
  split
  · exact foldl_canonical (fun _ _ hu => sendBeat_canonical hu _) _ (setLease_canonical hs _ _)
  · exact hs

theorem execLeaseHeartbeatReceive_canonical (hs : Canonical s) (die sender term seq) :
    OutCanonical (execLeaseHeartbeatReceive die sender term seq s) := by
  unfold execLeaseHeartbeatReceive
  grind [takeBeat_canonical, sendBeat_canonical, setLease_canonical, outCanonical_next]

theorem resumeDuties_canonical (hs : Canonical s) : Canonical (resumeDuties s) :=
  logUpdate_canonical (retireDue_canonical (placeWaiting_canonical hs))

theorem execLeaseHeartbeatAck_canonical (hs : Canonical s) (die follower term seq) :
    OutCanonical (execLeaseHeartbeatAck die follower term seq s) := by
  unfold execLeaseHeartbeatAck
  grind [takeBeat_canonical, setLease_canonical, resumeDuties_canonical, outCanonical_next]

theorem execLeaderLeaseExpiry_canonical (hs : Canonical s) (die) : OutCanonical (execLeaderLeaseExpiry die s) := by
  unfold execLeaderLeaseExpiry
  grind [setLease_canonical, outCanonical_next]

theorem execLeaseLapse_canonical (hs : Canonical s) (die) : OutCanonical (execLeaseLapse die s) := by
  unfold execLeaseLapse
  grind [setLease_canonical, outCanonical_next]

theorem takeLease_canonical (hs : Canonical s) (d) : Canonical (takeLease s d) := by
  unfold takeLease
  refine logUpdate_canonical (retireDue_canonical (emit_canonical (setRing_canonical (setLease_canonical hs d _) ?_) ..))
  exact hs.missed

theorem execClaimRetry_canonical (hs : Canonical s) (die) : OutCanonical (execClaimRetry die s) := by
  unfold execClaimRetry
  grind [setLease_canonical, outCanonical_next]

/-! ## Errors and scrubs -/

theorem countError_canonical (hs : Canonical s) (site src loc) : Canonical (countError s site src loc) := by
  unfold countError
  grind [setCoreOf_canonical, setDie_canonical, Spec.Canonical.sp]

theorem execCorrectedError_canonical (hs : Canonical s) (site src loc) : OutCanonical (execCorrectedError site src loc s) := by
  unfold execCorrectedError
  grind [countError_canonical, setCoreOf_canonical, withFreeCtr_canonical, canonical_of_frame, outCanonical_next, Spec.Canonical.sp]

theorem execLeakTick_canonical (hs : Canonical s) (site) : OutCanonical (execLeakTick site s) := by
  refine setCoreOf_canonical hs site ?_
  exact hs.sp site

theorem poisonWord_canonical (hs : Canonical s) (pa src) : Canonical (poisonWord s pa src) := by
  unfold poisonWord
  grind [canonical_of_frame]

theorem execPatrolScrub_canonical (hs : Canonical s) (target found) : OutCanonical (execPatrolScrub target found s) := by
  unfold execPatrolScrub
  grind [countError_canonical, setCoreOf_canonical, poisonWord_canonical, outCanonical_next, Spec.Canonical.sp]

theorem startBasin_canonical (hs : Canonical s) (b) : Canonical (startBasin s b) := by
  unfold startBasin
  refine setHartOf_canonical (setCoreOf_canonical hs _ ?_) _ _
  exact wf_writeBytes Memory.wf_nil _ _

theorem fatalWhere_canonical (hs : Canonical s) (p n) : Canonical (fatalWhere s p n) := hs

theorem execBasinHeartbeat_canonical (hs : Canonical s) (basin missed) : OutCanonical (execBasinHeartbeat basin missed s) := by
  unfold execBasinHeartbeat
  grind [setBasin_canonical, outCanonical_next]

theorem execAgentFailed_canonical (hs : Canonical s) (cistern n) : OutCanonical (execAgentFailed cistern n s) := by
  unfold execAgentFailed
  grind [fatalWhere_canonical, setLease_canonical, emit_canonical, startBasin_canonical, setBasin_canonical, outCanonical_next]

/-! ## Siphon -/

theorem setMove_canonical (hs : Canonical s) (d m) : Canonical (setMove s d m) := logUpdate_canonical (setDie_canonical hs _ _)

theorem toScan_canonical (hs : Canonical s) (site) : Canonical (toScan s site) := by
  refine logUpdate_canonical (setCoreOf_canonical hs site ?_)
  exact hs.sp site

@[simp] theorem siphon_sp (c : Core) (v) : (c.siphon v).sp = c.sp := rfl

@[simp] theorem holdAs_sp (c o : Core) : (c.holdAs o).sp = c.sp := rfl

@[simp] theorem lossesOf_sp (c o : Core) : (c.lossesOf o).sp = c.sp := rfl

@[simp] theorem wiped_sp (c : Core) : c.wiped.sp = [] := rfl

@[simp] theorem unpowered_sp (c : Core) : c.unpowered.sp = [] := rfl

theorem beginMove_canonical (hs : Canonical s) (d site) : Canonical (beginMove s d site) := by
  unfold beginMove
  grind [emit_canonical, setMove_canonical, setCoreOf_canonical, siphon_sp, Spec.Canonical.sp]

theorem execSiphonHold_canonical (hs : Canonical s) (die) : OutCanonical (execSiphonHold die s) := by
  unfold execSiphonHold
  grind [toScan_canonical, beginMove_canonical, setDie_canonical, outCanonical_next]

theorem copyPanes_canonical (hs : Canonical s) (m) : Canonical (copyPanes s m) := by
  have ready := resetSite_canonical (flushAll_canonical hs m.old) m.spare
  refine setCoreOf_canonical ready m.spare ?_
  exact ready.sp m.old

theorem execSiphonCopy_canonical (hs : Canonical s) (die) : OutCanonical (execSiphonCopy die s) := by
  unfold execSiphonCopy
  grind [setMove_canonical, copyPanes_canonical, outCanonical_next]

theorem execSiphonState_canonical (hs : Canonical s) (die) : OutCanonical (execSiphonState die s) := by
  unfold execSiphonState
  grind [setMove_canonical, setCoreOf_canonical, outCanonical_next, Spec.Canonical.sp]

theorem execSiphonFlip_canonical (hs : Canonical s) (die) : OutCanonical (execSiphonFlip die s) := by
  unfold execSiphonFlip
  grind [setMove_canonical, setRemap_canonical, setCoreOf_canonical, assign_sp, holdAs_sp, lossesOf_sp, outCanonical_next, Spec.Canonical.sp]

theorem reportMove_canonical (hs : Canonical s) (v old new) : Canonical (reportMove s v old new) := emit_canonical hs ..

theorem arriveAll_canonical (hs : Canonical s) (l : List Message) : Canonical (l.foldl arrive s) :=
  foldl_canonical (fun _ m hu => arrive_canonical hu m) l hs

theorem execSiphonRelease_canonical (hs : Canonical s) (die) : OutCanonical (execSiphonRelease die s) := by
  unfold execSiphonRelease
  grind [arriveAll_canonical, setMove_canonical, setCoreOf_canonical, noteCleared_canonical, reportMove_canonical, toScan_canonical, siphon_sp,
    post_sp, outCanonical_next, Spec.Canonical.sp]

theorem unhold_canonical (hs : Canonical s) (site) : Canonical (unhold s site) := by
  refine noteCleared_canonical (setCoreOf_canonical hs site ?_) _ site
  exact hs.sp site

theorem copyAgain_canonical (hs : Canonical s) (die m) : Canonical (copyAgain s die m) := setMove_canonical (copyPanes_canonical hs m) _ _

theorem nextSpare_canonical (hs : Canonical s) (die m) : Canonical (nextSpare s die m) := by
  unfold nextSpare
  grind [setMove_canonical, copyAgain_canonical, arriveAll_canonical, unhold_canonical, emit_canonical, logUpdate_canonical]

theorem fatalMove_canonical (hs : Canonical s) (die m) : Canonical (fatalMove s die m) := by
  unfold fatalMove
  grind [setMove_canonical, toScan_canonical, reportMove_canonical, unhold_canonical, resetSite_canonical, emit_canonical, logUpdate_canonical]

theorem execSiphonAbort_canonical (hs : Canonical s) (die why) : OutCanonical (execSiphonAbort die why s) := by
  unfold execSiphonAbort
  grind [nextSpare_canonical, toScan_canonical, fatalMove_canonical, copyAgain_canonical, outCanonical_next]

/-! ## Fatal contexts and wait cycles -/

theorem fatalHart_canonical (hs : Canonical s) (k) : Canonical (fatalHart s k) := by
  unfold fatalHart
  grind [mapBasins_canonical, setHartOf_canonical]

theorem fatalSite_canonical (hs : Canonical s) (site) : Canonical (fatalSite s site) :=
  setCoreOf_canonical (foldl_canonical (fun _ k hu => fatalHart_canonical hu k) _ hs) site rfl

theorem fatalMoves_canonical (hs : Canonical s) (cx) : Canonical (fatalMoves s cx) := by
  refine foldl_canonical (fun u d hu => ?_) _ hs
  grind [fatalMove_canonical]

theorem holdQueues_canonical (hs : Canonical s) (n) : Canonical (holdQueues s n) :=
  foldl_canonical (fun _ q hu => setQueue_canonical hu q _) _ hs

theorem discardContext_canonical (hs : Canonical s) (n) : Canonical (discardContext s n) := by
  have ended := foldl_canonical (fun _ k hu => fatalSite_canonical hu k) (ctxSites (fatalMoves s (s.ctx n)) (s.ctx n))
    (fatalMoves_canonical hs (s.ctx n))
  refine dropCtx_canonical (holdQueues_canonical ?_ n) n
  exact canonical_of_frame ended rfl rfl rfl rfl rfl

theorem execFatalSequence_canonical (hs : Canonical s) (ctx) : OutCanonical (execFatalSequence ctx s) := by
  unfold execFatalSequence
  grind [discardContext_canonical, setCtx_canonical, emit_canonical, logUpdate_canonical, outCanonical_next]

theorem execWaitCycleWalk_canonical (hs : Canonical s) (hart) : OutCanonical (execWaitCycleWalk hart s) := by
  unfold execWaitCycleWalk
  grind [canonical_of_frame, outCanonical_next]

theorem reportCycle_canonical (hs : Canonical s) (ms ctx) : Canonical (reportCycle s ms ctx) :=
  foldl_canonical (fun _ _ hu => emit_canonical hu ..) _ hs

theorem execWaitCycleConfirm_canonical (hs : Canonical s) (i) : OutCanonical (execWaitCycleConfirm i s) := by
  unfold execWaitCycleConfirm
  grind [reportCycle_canonical, canonical_of_frame, outCanonical_next]

theorem tellEdges_canonical (hs : Canonical s) (ctag) : Canonical (tellEdges s ctag) := by
  unfold tellEdges
  grind [canonical_of_frame]

theorem hearEdges_canonical (hs : Canonical s) (pkg es) : Canonical (hearEdges s pkg es) := by
  unfold hearEdges
  grind [canonical_of_frame]

/-! ## Boot and resets -/

theorem romFail_canonical (hs : Canonical s) (d code) : Canonical (romFail s d code) :=
  setHartOf_canonical (failDie_canonical hs _ _) _ _

/-- The interface to the host with its memories as they were. -/
theorem withHostif_canonical (hs : Canonical s) {i : HostIf} (hr : i.ring.missed.wf = true) (hx : i.msix.wf = true) :
    Canonical { s with hostif := i } := ⟨hs.mem, hs.hostMem, hr, hx, hs.sp⟩

theorem romBoot_canonical (hs : Canonical s) (d v scanKey helper cert) : Canonical (romBoot s d v scanKey helper cert) := by
  unfold romBoot
  grind [setDie_canonical, setCoreOf_canonical, setHartOf_canonical, wf_writeBytes, withFreeCtr_canonical, emit_canonical, canonical_of_frame,
    Spec.Canonical.sp]

theorem beginPhase2_canonical (hs : Canonical s) : Canonical (beginPhase2 s) := by
  unfold beginPhase2
  dsimp only
  split
  · refine foldl_canonical (fun u d hu => ?_) _ hs
    grind [setDie_canonical]
  · exact hs

theorem romTurn_canonical (hs : Canonical s) (d) : Canonical (romTurn s d) := by
  unfold romTurn
  grind [romFail_canonical, romBoot_canonical, beginPhase2_canonical, canonical_of_frame]

theorem romAll_canonical (hs : Canonical s) : Canonical (romAll s) := foldl_canonical (fun _ d hu => romTurn_canonical hu d) _ hs

/-- After a restart nothing is listed but host memory and the mask bits of the MSI-X table. -/
theorem restart_canonical (hs : Canonical s) : Canonical (restart s) := ⟨rfl, hs.hostMem, rfl, rfl, fun _ => rfl⟩

theorem coldBoot_canonical (hs : Canonical s) : Canonical (coldBoot s) := romAll_canonical (restart_canonical hs)

theorem powerOff_canonical (hs : Canonical s) : Canonical (powerOff s) :=
  foldl_canonical (fun _ d hu => setHartOf_canonical hu (cisternHart d) _) _ (restart_canonical hs)

theorem hotReset_canonical (hs : Canonical s) : Canonical (hotReset s) := by
  unfold hotReset
  refine romAll_canonical (setDie_canonical ?_ 0 _)
  exact canonical_of_frame (restart_canonical hs) rfl rfl rfl rfl rfl

theorem resetFunction_canonical (hs : Canonical s) : Canonical (resetFunction s) := by
  have discarded := foldl_canonical (fun _ n hu => discardContext_canonical hu n) (s.ctxs.map (·.1)) hs
  refine logUpdate_canonical (emit_canonical ?_ ..)
  exact ⟨discarded.mem, discarded.hostMem, rfl, discarded.msix, discarded.sp⟩

theorem requestReset_canonical (hs : Canonical s) : Canonical (requestReset s) := by
  unfold requestReset
  grind [resetFunction_canonical, canonical_of_frame]

theorem execRomSidebandTimeout_canonical (hs : Canonical s) (die) : OutCanonical (execRomSidebandTimeout die s) := by
  unfold execRomSidebandTimeout
  grind [romFail_canonical, outCanonical_next]

theorem scanPassed_canonical (hs : Canonical s) (site) : Canonical (scanPassed s site) := by
  have ready := resetSite_canonical hs site
  refine setCoreOf_canonical ready site ?_
  exact ready.sp site

theorem scanFailed_canonical (hs : Canonical s) (site) : Canonical (scanFailed s site) := by
  refine setCoreOf_canonical hs site ?_
  exact hs.sp site

theorem execScanSite_canonical (hs : Canonical s) (site pkg) : OutCanonical (execScanSite site pkg s) := by
  unfold execScanSite
  grind [scanPassed_canonical, scanFailed_canonical, setDie_canonical, emit_canonical, logUpdate_canonical, outCanonical_next]

theorem selfTest_canonical (hs : Canonical s) (d results) : Canonical (selfTest s d results) := by
  unfold selfTest
  dsimp only
  have tested := foldl_canonical (s := s) (f := fun (s : State) (k : Nat) => s.setCoreOf k { s.coreOf k with
    test := siteTest (match results.find? fun r => r.1 % 1024 = k % 1024 with | some r => r.2.toNat | none => 2 ^ 15) })
    (fun u k hu => setCoreOf_canonical hu k (hu.sp k)) (sitesOf (d % 4)) hs
  split
  · exact failDie_canonical tested _ _
  · split
    · exact failDie_canonical tested _ _
    · exact tested

theorem execSelfTestComplete_canonical (hs : Canonical s) (die results) : OutCanonical (execSelfTestComplete die results s) := by
  unfold execSelfTestComplete
  grind [selfTest_canonical, outCanonical_next]

theorem execDiscoveryTimeout_canonical (hs : Canonical s) (die) : OutCanonical (execDiscoveryTimeout die s) := by
  unfold execDiscoveryTimeout
  grind [failDie_canonical, outCanonical_next]

theorem execMulticastTimeout_canonical (hs : Canonical s) (die) : OutCanonical (execMulticastTimeout die s) := by
  unfold execMulticastTimeout
  grind [failDie_canonical, setDie_canonical, outCanonical_next]

theorem execPkgidWrite_canonical (hs : Canonical s) (value) : OutCanonical (execPkgidWrite value s) := by
  unfold execPkgidWrite
  grind [beginPhase2_canonical, canonical_of_frame, outCanonical_next]

theorem execPkgidTimeout_canonical (hs : Canonical s) : OutCanonical (execPkgidTimeout s) := by
  unfold execPkgidTimeout
  grind [beginPhase2_canonical, canonical_of_frame, outCanonical_next]

theorem beginPhase3_canonical (hs : Canonical s) (d) : Canonical (beginPhase3 s d) := by
  unfold beginPhase3
  dsimp only
  split
  · exact foldl_canonical (fun _ _ hu => startBasin_canonical hu _) _ (setDie_canonical hs _ _)
  · exact hs

theorem zeroFill_canonical (hs : Canonical s) (d far) : Canonical (zeroFill s d far) :=
  canonical_of_mem hs (wf_filter _ hs.mem) rfl rfl rfl fun _ => rfl

theorem beginPhase4_canonical (hs : Canonical s) (d) : Canonical (beginPhase4 s d) := by
  unfold beginPhase4
  dsimp only
  split
  · exact foldl_canonical (fun _ k hu => setMtvec_canonical hu k) _ (setDie_canonical hs _ _)
  · exact hs

theorem settleStandby_canonical (hs : Canonical s) : Canonical (settleStandby s) := by
  unfold settleStandby
  grind [canonical_of_frame]

theorem exitFail_canonical (hs : Canonical s) (d code) : Canonical (exitFail s d code) :=
  canonical_of_frame (failDie_canonical hs d code) rfl rfl rfl rfl rfl

theorem trainStep_canonical (hs : Canonical s) (d far i o) : Canonical (trainStep s d far i o) := by
  unfold trainStep
  grind [setDie_canonical, failDie_canonical, exitFail_canonical, settleStandby_canonical, zeroFill_canonical, beginPhase4_canonical]

theorem beginPhase5_canonical (hs : Canonical s) : Canonical (beginPhase5 s) := by
  unfold beginPhase5
  split
  · exact setLease_canonical (foldl_canonical (fun _ d hu => setDie_canonical hu d _) _ hs) _ _
  · exact hs

theorem failEdge_canonical (hs : Canonical s) (a b) : Canonical (failEdge s a b) := by
  unfold failEdge
  grind [exitFail_canonical, failDie_canonical]

theorem execUcieTraining_canonical (hs : Canonical s) (die module passed) : OutCanonical (execUcieTraining die module passed s) := by
  unfold execUcieTraining
  grind [bothEnds_canonical, failEdge_canonical, beginPhase5_canonical, settleStandby_canonical, outCanonical_next]

theorem execFabricPortTraining_canonical (hs : Canonical s) (die port o) : OutCanonical (execFabricPortTraining die port o s) := by
  unfold execFabricPortTraining
  grind [setDie_canonical, setPath_canonical, beginPhase5_canonical, settleStandby_canonical, logUpdate_canonical, outCanonical_next]

theorem execPcieTraining_canonical (hs : Canonical s) (o) : OutCanonical (execPcieTraining o s) := by
  unfold execPcieTraining
  grind [canonical_of_frame, outCanonical_next]

/-! ## Standby -/

theorem saveActive_canonical (hs : Canonical s) : Canonical (saveActive s) := by
  refine foldl_canonical (fun u n hu => ?_) _ hs
  split
  · exact ctxSave_canonical hu n
  · exact hu

/-- Cores that lose their power are reset; those of the cisterns keep what they hold. -/
theorem unpower_canonical (hs : Canonical s) : Canonical (unpower s) := by
  have flushed := foldl_canonical (fun _ k hu => flushAll_canonical hu k) (s.cores.map (·.1)) hs
  refine foldl_canonical (fun _ d hu => setDie_canonical hu d _) _ ⟨flushed.mem, flushed.hostMem, flushed.missed, flushed.msix, fun k => ?_⟩
  refine smGet_map_rel (R := fun c c' => c.sp.wf = true → c'.sp.wf = true) id (fun e => ?_) (fun e => ?_) k _ ?_
  · split <;> rfl
  · split
    · exact fun _ => rfl
    · exact id
  · rw [smGet_filter Core.reset (fun k => decide (k < 4096) || decide (4160 ≤ k))]
    split
    · exact flushed.sp k
    · rfl

theorem enterStandby_canonical (hs : Canonical s) : Canonical (enterStandby s) := by
  unfold enterStandby
  grind [saveActive_canonical, unpower_canonical, canonical_of_frame]

theorem dropSite_canonical (hs : Canonical s) (k) : Canonical (dropSite s k) := by
  refine setCoreOf_canonical hs k ?_
  exact hs.sp k

theorem replaceSite_canonical (hs : Canonical s) (k) : Canonical (replaceSite s k) := by
  unfold replaceSite
  grind [dropSite_canonical, exitFail_canonical, setCoreOf_canonical, setMtvec_canonical, setRemap_canonical, reportMove_canonical, assign_sp,
    Spec.Canonical.sp]

theorem retrain_canonical (hs : Canonical s) (d) : Canonical (retrain s d) := hs

theorem testSites_canonical (hs : Canonical s) (l : List (Nat × BitVec 16)) :
    Canonical (l.foldl (fun s r => s.setCoreOf r.1 { s.coreOf r.1 with test := siteTest r.2.toNat }) s) := by
  refine foldl_canonical ?_ l hs
  exact fun u r hu => setCoreOf_canonical hu r.1 (show (u.coreOf r.1).sp.wf = true from hu.sp r.1)

theorem exitFails_canonical (hs : Canonical s) (l : List (Nat × BitVec 16)) :
    Canonical (l.foldl (fun s r => exitFail s (r.1 / 1024) 0x07) s) := by
  refine foldl_canonical ?_ l hs
  exact fun _ r hu => exitFail_canonical hu (r.1 / 1024) 0x07

theorem setMtvecs_canonical (hs : Canonical s) (l : List (Nat × Core)) : Canonical (l.foldl (fun s e => setMtvec s e.1) s) := by
  refine foldl_canonical ?_ l hs
  exact fun _ e hu => setMtvec_canonical hu e.1

theorem dropSites_canonical (hs : Canonical s) (l : List (Nat × BitVec 16)) : Canonical (l.foldl (fun s r => dropSite s r.1) s) := by
  refine foldl_canonical ?_ l hs
  exact fun _ r hu => dropSite_canonical hu r.1

theorem replaceSites_canonical (hs : Canonical s) (l : List (Nat × BitVec 16)) : Canonical (l.foldl (fun s r => replaceSite s r.1) s) := by
  refine foldl_canonical ?_ l hs
  exact fun _ r hu => replaceSite_canonical hu r.1

theorem startAll_canonical (hs : Canonical s) : Canonical ((List.range 64).foldl startBasin ((List.range 4).foldl retrain s)) :=
  foldl_canonical (fun _ b hu => startBasin_canonical hu b) _ (foldl_canonical (fun _ d hu => retrain_canonical hu d) _ hs)

theorem leaveStandby_canonical (hs : Canonical s) (results) : Canonical (leaveStandby s results) := by
  unfold leaveStandby
  split
  · exact hs
  · refine logUpdate_canonical (startAll_canonical (replaceSites_canonical (dropSites_canonical (setMtvecs_canonical
      (exitFails_canonical (testSites_canonical ?_ _) _) _) _) _))
    exact canonical_of_frame hs rfl rfl rfl rfl rfl

theorem bootReady_canonical (hs : Canonical s) : Canonical (bootReady s) := by
  unfold bootReady
  split
  · have phased := foldl_canonical (s := s) (f := fun s d => s.setDie d { s.die d with boot := { (s.die d).boot with phase := 6, ready := true } })
      (fun _ d hu => setDie_canonical hu d _) (List.range 4) hs
    grind [resetFunction_canonical, enterStandby_canonical, canonical_of_frame]
  · exact hs

theorem execLeaseClaim_canonical (hs : Canonical s) (die candidate term) : OutCanonical (execLeaseClaim die candidate term s) := by
  unfold execLeaseClaim
  grind [setLease_canonical, takeLease_canonical, bootReady_canonical, outCanonical_next]

theorem execPowerWindow_canonical (hs : Canonical s) (watts tj) : OutCanonical (execPowerWindow watts tj s) := by
  unfold execPowerWindow
  grind [powerOff_canonical, canonical_of_frame, outCanonical_next]

/-! ## The host -/

theorem configWrite_canonical (hs : Canonical s) (n v) : Canonical (configWrite s n v) := by
  unfold configWrite
  grind [requestReset_canonical, enterStandby_canonical, canonical_of_frame]

theorem answer_canonical (hs : Canonical s) (r) : Canonical (answer s r) := hs

theorem hostAccess_canonical (hs : Canonical s) (a) : Canonical (hostAccess s a) := by
  unfold hostAccess
  grind [answer_canonical, devWrite_canonical, emit_canonical]

theorem execHostAtomicCompleter_canonical (hs : Canonical s) (a) : OutCanonical (execHostAtomicCompleter a s) := by
  unfold execHostAtomicCompleter
  grind [answer_canonical, devWrite_canonical, outCanonical_next]

theorem execHostBar0AccessError_canonical (hs : Canonical s) (offset size) : OutCanonical (execHostBar0AccessError offset size s) := by
  unfold execHostBar0AccessError
  grind [answer_canonical, outCanonical_next]

theorem execConfigurationRequest_canonical (hs : Canonical s) (write offset value) :
    OutCanonical (execConfigurationRequest write offset value s) := by
  unfold execConfigurationRequest
  grind [answer_canonical, configWrite_canonical, outCanonical_next]

theorem drainPage_canonical (hs : Canonical s) (pasid page k) : Canonical (drainPage s pasid page k) := by
  unfold drainPage
  grind [performWhere_canonical]

theorem execAtsInvalidate_canonical (hs : Canonical s) (pasid page) : OutCanonical (execAtsInvalidate pasid page s) := by
  have drained := foldl_canonical (fun _ k hu => drainPage_canonical hu pasid page k) (s.cores.map (·.1)) hs
  exact canonical_of_frame drained rfl rfl rfl rfl rfl

theorem biasGo_canonical (hs : Canonical s) : Canonical (biasGo s) := hs

theorem execBiasPageFlip_canonical (hs : Canonical s) : OutCanonical (execBiasPageFlip s) := by
  unfold execBiasPageFlip HostIf.snoop
  grind [emit_canonical, canonical_of_frame, outCanonical_next]

theorem putSlot_canonical (hs : Canonical s) (a v) : Canonical (putSlot s a v) := devWrite_canonical hs _ _ _

theorem proxyPlace_canonical (hs : Canonical s) (cx va op size reserved) : Canonical (proxyPlace s cx va op size reserved).2 := by
  unfold proxyPlace
  grind [walkUpdate_canonical]

theorem scanSlot_canonical (hs : Canonical s) (n slot) : Canonical (scanSlot s n slot) := by
  unfold scanSlot
  grind [putSlot_canonical, proxyPlace_canonical, emit_canonical]

theorem spdm_canonical (hs : Canonical s) (r) : Canonical (spdm s r) := hs

/-! ## Register writes and the outside -/

theorem put_missed (r : EventRing) (o w) : (r.put o w).missed = r.missed := by
  unfold EventRing.put
  grind

theorem unmask_missed (i : HostIf) (v) : (i.unmask v).ring = i.ring := by
  unfold HostIf.unmask
  grind

theorem unmask_msix (i : HostIf) (v) : (i.unmask v).msix = i.msix := by
  unfold HostIf.unmask
  grind

theorem globalPut_canonical (hs : Canonical s) (o w) : Canonical (globalPut s o w) := by
  unfold globalPut
  grind [put_missed, biasGo_canonical, canonical_of_frame]

theorem ctxPut_canonical (hs : Canonical s) (n o w) : Canonical (ctxPut s n o w) := by
  unfold ctxPut
  grind [ctxCommand_canonical, setCtx_canonical]

theorem queuePut_canonical (hs : Canonical s) (n o w) : Canonical (queuePut s n o w) := by
  unfold queuePut
  grind [setQueue_canonical, enableQueue_canonical, stopQueue_canonical, ringDoorbell_canonical, clearQueueError_canonical]

/-- Vectors raised as they are unmasked leave the ring and the table. -/
theorem unmaskAll_memories (i : HostIf) (l : List Nat) :
    (l.foldl (fun h i => h.unmask (BitVec.ofNat 8 i)) i).ring = i.ring ∧ (l.foldl (fun h i => h.unmask (BitVec.ofNat 8 i)) i).msix = i.msix := by
  refine List.foldlRecOn l _ (motive := fun j : HostIf => j.ring = i.ring ∧ j.msix = i.msix) ⟨rfl, rfl⟩ ?_
  rintro j ⟨hr, hx⟩ v -
  exact ⟨(unmask_missed j _).trans hr, (unmask_msix j _).trans hx⟩

theorem msixWrite_canonical (hs : Canonical s) (o size v l) :
    Canonical { s with hostif := List.foldl (fun h i => h.unmask (BitVec.ofNat 8 i)) { s.hostif with msix := writeLE s.hostif.msix o size v } l } := by
  obtain ⟨ring, msix⟩ := unmaskAll_memories { s.hostif with msix := writeLE s.hostif.msix o size v } l
  refine withHostif_canonical hs ?_ ?_
  · rw [ring]; exact hs.missed
  · rw [msix]; exact wf_writeLE hs.msix _ _ _

theorem bar0Write_canonical (hs : Canonical s) (addr size v) : Canonical (bar0Write s addr size v) := by
  unfold bar0Write
  extract_lets
  split_ifs
  · exact hs
  · exact globalPut_canonical hs ..
  · exact hs
  · exact ctxPut_canonical hs ..
  · exact queuePut_canonical hs ..
  · exact msixWrite_canonical hs ..
  · exact hs

theorem execRegisterWrite_canonical (hs : Canonical s) (host addr size value) : OutCanonical (execRegisterWrite host addr size value s) := by
  unfold execRegisterWrite
  grind [bar0Write_canonical, ctlWrite_canonical, outCanonical_next]

theorem hostAtomic_canonical (hs : Canonical s) (a) : Canonical (hostAtomic s a) := by
  unfold hostAtomic
  grind [answer_canonical, withHostMem_canonical, wf_writeLE, Spec.Canonical.hostMem]

theorem hostLine_canonical (hs : Canonical s) (pa data) : Canonical (hostLine s pa data) := by
  unfold hostLine
  grind [hostAccess_canonical, devWrite_canonical, answer_canonical, canonical_of_frame]

theorem hdmAccess_canonical (hs : Canonical s) (a) : Canonical (hdmAccess s a) := by
  unfold hdmAccess
  grind [hostAccess_canonical, answer_canonical]

theorem bar4Access_canonical (hs : Canonical s) (addr size value) : Canonical (bar4Access s addr size value) := by
  unfold bar4Access
  grind [answer_canonical, canonical_of_frame]

theorem outside_canonical (hs : Canonical s) (e) : Canonical (outside s e) := by
  unfold outside
  grind [withHostMem_canonical, wf_writeBytes, hostAtomic_canonical, hostLine_canonical, hdmAccess_canonical, answer_canonical,
    bar4Access_canonical, poisonWord_canonical, setBasin_canonical, hearEdges_canonical, tellEdges_canonical, canonical_of_frame,
    Spec.Canonical.hostMem]

end

end Sys2Proof.Machine

/-! # Lanes, matrices, messages, textures, rays and scalar instructions keep the memories canonical (O57) -/

namespace Sys2Proof.Machine

open Spec (Canonical)

section

variable {s : State}

/-! ## Lane threads -/

theorem laneTrap_canonical (hs : Canonical s) (lane) : OutCanonical (laneTrap s lane) := raise_canonical hs _

theorem fetchWords_canonical (n : Nat) : ∀ {s : State}, Canonical s → ∀ va, ResCanonical Prod.snd (fetchWords s va n) := by
  induction n with
  | zero => exact fun hs _ => hs
  | succ n ih =>
    intro s hs va
    have fetched := fetchAt_canonical hs va
    unfold fetchWords
    grind [resCanonical_ok, resCanonical_error]

theorem beginRegion_canonical (hs : Canonical s) (base ws lanes) : Canonical (beginRegion s base ws lanes) := by
  refine setH_canonical (setC_canonical hs ?_) _
  exact hs.c

theorem execLsplit_canonical (hs : Canonical s) (rs1 rs2 mask) : OutCanonical (execLsplit rs1 rs2 mask s) := by
  have fetched := fetchWords_canonical (s.x rs2).toNat hs (s.x rs1)
  unfold execLsplit
  grind [raise_canonical, finish_canonical, waiting_canonical, setC_canonical, beginRegion_canonical, Spec.Canonical.c, resCanonical_ok,
    resCanonical_error, outCanonical_next]

theorem endRegion_canonical (hs : Canonical s) : Canonical (endRegion s) := by
  refine setH_canonical (setC_canonical hs ?_) _
  exact hs.c

theorem execLjoin_canonical (hs : Canonical s) : OutCanonical (execLjoin s) := by
  unfold execLjoin
  grind [endRegion_canonical, setH_canonical, raise_canonical, outCanonical_next]

/-! ## The matrix instructions -/

theorem matWrite_canonical (hs : Canonical s) (vc w r) : Canonical (matWrite s vc w r) := fpPut_canonical hs ..

theorem matMul_canonical (hs : Canonical s) (zero bs vc va vb fmt fromSp orient conv) :
    OutCanonical (matMul zero bs vc va vb fmt fromSp orient conv s) := by
  unfold matMul
  refine vecMem_canonical hs _ _ fun u hu => ?_
  split
  · exact stopAt_canonical hu 0 0
  · exact matWrite_canonical hu _ _ _

theorem matCvt_canonical (hs : Canonical s) (sr vc vd fmt conv) : OutCanonical (matCvt sr vc vd fmt conv s) :=
  vecOp_canonical hs fun _ hu => fpPut_canonical hu ..

theorem execMzero_canonical (hs : Canonical s) (vc fmt conv) : OutCanonical (execMzero vc fmt conv s) :=
  vecOp_canonical hs fun _ hu => matWrite_canonical hu ..

theorem drained_canonical (hs : Canonical s) (zero vc code) : Canonical (drained s zero vc code) := by
  unfold drained
  grind [orFlags_canonical, setH_canonical]

theorem matDrain_canonical (hs : Canonical s) (zero vc xc xm fmt conv) : OutCanonical (matDrain zero vc xc xm fmt conv s) := by
  unfold matDrain
  grind [raise_canonical, refuseConvoy_canonical, finish_canonical, vdone_canonical, waiting_canonical, drained_canonical, hand_canonical]

/-! ## The message instructions -/

theorem sendOut_canonical (hs : Canonical s) (m) : OutCanonical (sendOut s m) := by
  unfold sendOut
  grind [waiting_canonical, finish_canonical, hand_canonical]

theorem execMsend_canonical (hs : Canonical s) (xo xc xm) : OutCanonical (execMsend xo xc xm s) := by
  unfold execMsend
  grind [raise_canonical, sendOut_canonical]

theorem execMput_canonical (hs : Canonical s) (xv xc xm width) : OutCanonical (execMput xv xc xm width s) := by
  unfold execMput
  grind [raise_canonical, sendOut_canonical]

theorem execMwake_canonical (hs : Canonical s) (xc xm) : OutCanonical (execMwake xc xm s) := by
  unfold execMwake
  grind [raise_canonical, sendOut_canonical]

theorem joinFifo_canonical (hs : Canonical s) (tag) : Canonical (joinFifo s tag) := by
  unfold joinFifo
  split
  · exact hs
  · exact setC_canonical hs hs.c

theorem leaveFifo_canonical (hs : Canonical s) (tag) : Canonical (leaveFifo s tag) := setC_canonical hs hs.c

theorem mwaitHead_canonical (hs : Canonical s) (rd e tag) : OutCanonical (mwaitHead rd e tag s) := by
  have mailed (m) : Canonical (s.setC { s.c with mail := m }) := setC_canonical hs hs.c
  unfold mwaitHead
  grind [raise_canonical, waiting_canonical, leaveFifo_canonical, finish_canonical, setX_canonical]

theorem execMwait_canonical (hs : Canonical s) (rd xe tag) : OutCanonical (execMwait rd xe tag s) := by
  unfold execMwait
  grind [joinFifo_canonical, mwaitHead_canonical, waiting_canonical]

theorem execMcount_canonical (hs : Canonical s) (rd tag) : OutCanonical (execMcount rd tag s) := finish_canonical (setX_canonical hs _ _)

theorem locqRemote_canonical (hs : Canonical s) (rd c) : OutCanonical (locqRemote rd c s) := by
  unfold locqRemote
  grind [finish_canonical, setX_canonical, waiting_canonical, hand_canonical, setH_canonical]

theorem execLocq_canonical (hs : Canonical s) (rd xc) : OutCanonical (execLocq rd xc s) := by
  unfold execLocq
  grind [raise_canonical, finish_canonical, setX_canonical, locqRemote_canonical]

/-! ## Textures -/

theorem pinWord_canonical (hs : Canonical s) (p : Pin) (j i a n) : ResCanonical Prod.snd (pinWord p j i s a n) := by
  unfold pinWord
  grind [bypass_canonical, hostSync_canonical, resCanonical_ok, resCanonical_error]

theorem pinBytesFrom_canonical (p : Pin) (j i f : Nat) :
    ∀ {s : State}, Canonical s → ∀ a n, ResCanonical Prod.snd (pinBytesFrom p j i f s a n) := by
  induction f with
  | zero => exact fun hs _ _ => hs
  | succ f ih =>
    intro s hs a n
    have word := pinWord_canonical hs p j i a (min n (4 - a % 4))
    unfold pinBytesFrom
    grind [resCanonical_ok, resCanonical_error]

theorem pinBytes_canonical (hs : Canonical s) (p : Pin) (j i a n) : ResCanonical Prod.snd (pinBytes p j i s a n) :=
  pinBytesFrom_canonical p j i _ hs a n

theorem readTap_canonical (hs : Canonical s) (t : Texture) (p layer j i) (k : Tap) : ResCanonical Prod.snd (readTap t p layer j i s k) := by
  unfold readTap
  grind [pinBytes_canonical, resCanonical_ok, resCanonical_error]

theorem readTaps_canonical (t : Texture) (p : Pin) (layer j i : Nat) (ks : List Tap) :
    ∀ {s : State}, Canonical s → ResCanonical Prod.snd (readTaps t p layer j i ks s) := by
  induction ks with
  | nil => exact fun hs => hs
  | cons k ks ih =>
    intro s hs
    have tap := readTap_canonical hs t p layer j i k
    unfold readTaps
    grind [resCanonical_ok, resCanonical_error]

theorem sampleAt_canonical (hs : Canonical s) (t : Texture) (p lod vd vs1 j i) : ResCanonical id (sampleAt t p lod vd vs1 s j i) := by
  unfold sampleAt
  grind [readTaps_canonical, setH_canonical, resCanonical_ok, resCanonical_error]

theorem sampleEff_canonical (hs : Canonical s) (lod vd vs1 d token ps) : ResCanonical id (sampleEff lod vd vs1 d token ps s) := by
  unfold sampleEff
  split
  · exact hs
  next k rest =>
    split
    · exact hs
    next p _ =>
      have header := pinBytes_canonical hs p k.1 k.2 d.toNat 64
      split
      next u t e => rw [e] at header; exact stopAt_canonical header _ _
      next l u e =>
        rw [e] at header
        split
        · exact header
        · dsimp only
          split
          · exact header
          · exact eachPos_canonical (fun _ _ _ hv => sampleAt_canonical hv ..) _ header

theorem sampleOp_canonical (hs : Canonical s) (lod vd vs1 xs2 mask conv token) : OutCanonical (sampleOp lod vd vs1 xs2 mask conv token s) :=
  vecMem_canonical hs _ _ fun _ hu => sampleEff_canonical hu ..

/-! ## Rays -/

theorem testTris_canonical (q : Query) (it : Item) (n : Nat) :
    ∀ x {s : State}, Canonical s → ∀ w, ResCanonical Prod.fst (testTris q it n x s w) := by
  induction n with
  | zero => exact fun _ _ hs _ => hs
  | succ n ih =>
    intro x s hs w
    have read := pinBytes_canonical hs q.pin q.row q.elem (q.bvh.tris + 48 * x) 48
    unfold testTris
    grind [resCanonical_ok, resCanonical_error]

theorem visitNode_canonical (hs : Canonical s) (q it x w) : ResCanonical Prod.fst (visitNode q it x s w) := by
  unfold visitNode
  grind [pinBytes_canonical, resCanonical_ok, resCanonical_error]

theorem visitInst_canonical (hs : Canonical s) (q it x w) : ResCanonical Prod.fst (visitInst q it x s w) := by
  unfold visitInst
  grind [pinBytes_canonical, resCanonical_ok, resCanonical_error]

theorem walkStep_canonical (hs : Canonical s) (q it w) : ResCanonical Prod.fst (walkStep q it s w) := by
  unfold walkStep
  grind [visitNode_canonical, testTris_canonical, visitInst_canonical, resCanonical_ok]

theorem walkFrom_canonical (q : Query) (f : Nat) : ∀ {s : State}, Canonical s → ∀ w, ResCanonical Prod.fst (walkFrom' q f s w) := by
  induction f with
  | zero => exact fun hs _ => hs
  | succ f ih =>
    intro s hs w
    unfold walkFrom'
    grind [walkStep_canonical, resCanonical_ok, resCanonical_error]

theorem queryAt_canonical (hs : Canonical s) (b : Bvh) (p any vd vs1 j i) : ResCanonical id (queryAt b p any vd vs1 s j i) := by
  unfold queryAt
  dsimp only
  split
  next e he => split at he <;> grind [walkFrom_canonical, resCanonical_error]
  next u e he => split at he <;> grind [walkFrom_canonical, setH_canonical, resCanonical_ok]

theorem queryEff_canonical (hs : Canonical s) (any vd vs1 d token ps) : ResCanonical id (queryEff any vd vs1 d token ps s) := by
  unfold queryEff
  split
  · exact hs
  next k rest =>
    split
    · exact hs
    next p _ =>
      have header := pinBytes_canonical hs p k.1 k.2 d.toNat 64
      split
      next u t e => rw [e] at header; exact stopAt_canonical header _ _
      next l u e =>
        rw [e] at header
        split
        · exact header
        · dsimp only
          split
          · exact header
          · exact eachPos_canonical (fun _ _ _ hv => queryAt_canonical hv ..) _ header

theorem queryOp_canonical (hs : Canonical s) (any vd vs1 xs2 mask conv token) : OutCanonical (queryOp any vd vs1 xs2 mask conv token s) :=
  vecMem_canonical hs _ _ fun _ hu => queryEff_canonical hu ..

/-! ## Scalar instructions -/

theorem writeRd_canonical (hs : Canonical s) (rd v) : OutCanonical (writeRd rd v s) := finish_canonical (setX_canonical hs rd v)

theorem branch_canonical (hs : Canonical s) (taken off) : OutCanonical (branch taken off s) := finishEnd_canonical hs _

theorem loadRd_canonical (hs : Canonical s) (rd ea size sext) : OutCanonical (loadRd rd ea size sext s) := by
  have loaded := load_canonical hs ea size
  unfold loadRd
  grind [raise_canonical, writeRd_canonical, resCanonical_ok, resCanonical_error]

theorem storeReg_canonical (hs : Canonical s) (rs ea size) : OutCanonical (storeReg rs ea size s) :=
  store_canonical (strongRelease_canonical hs) ..

theorem released_canonical (hs : Canonical s) (ord : BitVec 2) (scope) :
    Canonical (if ord.toNat / 2 = 1 then release s scope else strongRelease s) := by
  split
  · exact release_canonical hs scope
  · exact strongRelease_canonical hs

theorem atomic_canonical (hs : Canonical s) (size zext op f rd rs1 rs2 scope ord) : OutCanonical (atomic size zext op f rd rs1 rs2 scope ord s) := by
  have released := released_canonical hs ord scope.toNat
  unfold atomic
  grind [rmw_canonical, raise_canonical, writeRd_canonical, resCanonical_ok, resCanonical_error]

theorem execAmoaddF32_canonical (hs : Canonical s) (rd rs1 rs2 scope ord) : OutCanonical (execAmoaddF32 rd rs1 rs2 scope ord s) := by
  have released := released_canonical hs ord scope.toNat
  unfold execAmoaddF32
  grind [rmw_canonical, raise_canonical, writeRd_canonical, orFlags_canonical, resCanonical_ok, resCanonical_error]

theorem fpRd_canonical (hs : Canonical s) (f rd r) : OutCanonical (fpRd f rd r s) := writeRd_canonical (orFlags_canonical hs _) _ _

theorem fpToInt_canonical (hs : Canonical s) (f mode ty rd rs1) : OutCanonical (fpToInt f mode ty rd rs1 s) :=
  writeRd_canonical (orFlags_canonical hs _) _ _

theorem fpCmp_canonical (hs : Canonical s) (f c rd rs1 rs2) : OutCanonical (fpCmp f c rd rs1 rs2 s) :=
  writeRd_canonical (orFlags_canonical hs _) _ _

theorem execJal_canonical (hs : Canonical s) (rd off) : OutCanonical (execJal rd off s) := finishEnd_canonical (setX_canonical hs _ _) _

theorem execJalr_canonical (hs : Canonical s) (rd rs1 imm) : OutCanonical (execJalr rd rs1 imm s) := by
  unfold execJalr
  grind [raise_canonical, finishEnd_canonical, setX_canonical]

theorem execBsig_canonical (hs : Canonical s) (imm) : OutCanonical (execBsig imm s) := by
  unfold execBsig
  grind [takeTrapAt_canonical, setH_canonical, finish_canonical, outCanonical_next]

theorem execLsp_canonical (hs : Canonical s) (rd rs1 rs2 width) : OutCanonical (execLsp rd rs1 rs2 width s) := by
  have loaded := spLoad_canonical hs (s.x rs1 + s.x rs2) (widthBytes width)
  unfold execLsp
  grind [raise_canonical, writeRd_canonical, resCanonical_ok, resCanonical_error]

theorem execSsp_canonical (hs : Canonical s) (rs rs1 rs2 width) : OutCanonical (execSsp rs rs1 rs2 width s) := by
  refine out_canonical (spStore_canonical ?_ _ _ _)
  split
  · exact flushAll_canonical hs _
  · exact hs

theorem execFence_canonical (hs : Canonical s) (scope ord) : OutCanonical (execFence scope ord s) := by
  refine finish_canonical ?_
  split
  · exact release_canonical hs _
  · exact hs

/-! ## Spray events -/

theorem deliver_canonical (hs : Canonical s) (kinds i) : Canonical (deliver kinds i s) := by
  have taken (l) : Canonical { s with net := l } := hs
  unfold deliver
  grind [partDone_canonical, arrive_canonical]

theorem execLocqReply_canonical (hs : Canonical s) (hart value) : OutCanonical (execLocqReply hart value s) := by
  unfold execLocqReply
  grind [setHartOf_canonical, outCanonical_next]

theorem execFreezeMarkArrival_canonical (hs : Canonical s) (core peer mark) : OutCanonical (execFreezeMarkArrival core peer mark s) := by
  refine (outCanonical_next _).mpr ?_
  split
  · refine setCoreOf_canonical hs core ?_
    exact hs.sp core
  · exact hs

/-- The definition is opened as a function: opened at its arguments, it would have the kernel evaluate the coordinates of the fragment. -/
theorem sendCtl_canonical (hs : Canonical s) (die peer type seq data) : Canonical (sendCtl s die peer type seq data) := by
  suffices opened : ∀ send, send = sendCtl → Canonical (send s die peer type seq data) from opened _ rfl
  intro send e
  delta sendCtl at e
  subst e
  have outside (l) : Canonical { s with outFrags := l } := hs
  have inside (l) : Canonical { s with ctls := l } := hs
  beta_reduce
  extract_lets fragment
  split
  · exact hs
  · extract_lets flights
    split
    · exact outside _
    · exact inside _

theorem takeCtl_canonical (hs : Canonical s) (die peer type seq data) {t : State} (e : takeCtl s die peer type seq data = some t) :
    Canonical t := by
  unfold takeCtl at e
  grind [canonical_of_frame]

theorem finishSeq_canonical (hs : Canonical s) (die peer seq lost) : Canonical (finishSeq s die peer seq lost) := by
  unfold finishSeq
  grind [setSpray_canonical, sendCtl_canonical]

@[simp] theorem losePart_sp (c : Core) (f) : (c.losePart f).sp = c.sp := rfl

theorem notePartLoss_canonical (hs : Canonical s) (f) : Canonical (notePartLoss s f).2 := by
  unfold notePartLoss
  grind [onRecord_canonical, atSite_canonical, losePart_sp]

theorem countLost_canonical (hs : Canonical s) (die) : Canonical (countLost s die) := setSpray_canonical hs _ _

theorem loseAtReceiver_canonical (hs : Canonical s) (die peer b) : Canonical (loseAtReceiver s die peer b) := by
  unfold loseAtReceiver
  grind [countLost_canonical, notePartLoss_canonical, lostAtReceiver_canonical, finishSeq_canonical]

theorem execReassemblyTimerExpiry_canonical (hs : Canonical s) (die peer seq) : OutCanonical (execReassemblyTimerExpiry die peer seq s) := by
  unfold execReassemblyTimerExpiry
  grind [sendCtl_canonical, setSpray_canonical, loseAtReceiver_canonical, outCanonical_next]

theorem execDecodedPacketAccepted_canonical (hs : Canonical s) (die peer seq) : OutCanonical (execDecodedPacketAccepted die peer seq s) := by
  unfold execDecodedPacketAccepted refuseAtReceiver
  grind [finishSeq_canonical, arrive_canonical, loseAtReceiver_canonical, outCanonical_next]

theorem ackEntry_canonical (hs : Canonical s) (ack lostmap e) : Canonical (ackEntry ack lostmap s e) := by
  unfold ackEntry
  grind [lostAtSender_canonical, partDone_canonical]

theorem ackArrives_canonical (hs : Canonical s) (die peer ack lostmap) : Canonical (ackArrives s die peer ack lostmap) :=
  foldl_canonical (fun _ _ hu => ackEntry_canonical hu ..) _ (setSpray_canonical hs _ _)

theorem requestArrives_canonical (hs : Canonical s) (die peer seq groups) : Canonical (requestArrives s die peer seq groups) := by
  unfold requestArrives
  grind [fly_canonical, setSpray_canonical]

theorem probeArrives_canonical (hs : Canonical s) (die peer next) : Canonical (probeArrives s die peer next) :=
  sendCtl_canonical (setSpray_canonical hs _ _) ..

theorem execSprayAck_canonical (hs : Canonical s) (die peer ack lostmap) : OutCanonical (execSprayAck die peer ack lostmap s) := by
  unfold execSprayAck
  grind [takeCtl_canonical, ackArrives_canonical, outCanonical_next]

theorem execSprayRequest_canonical (hs : Canonical s) (die peer seq groups) : OutCanonical (execSprayRequest die peer seq groups s) := by
  unfold execSprayRequest
  grind [takeCtl_canonical, requestArrives_canonical, outCanonical_next]

theorem execSprayProbe_canonical (hs : Canonical s) (die peer next) : OutCanonical (execSprayProbe die peer next s) := by
  unfold execSprayProbe
  grind [takeCtl_canonical, probeArrives_canonical, outCanonical_next]

theorem execProbeIntervalExpiry_canonical (hs : Canonical s) (die peer) : OutCanonical (execProbeIntervalExpiry die peer s) := by
  unfold execProbeIntervalExpiry
  grind [sendCtl_canonical, outCanonical_next]

theorem ctlArrives_canonical (hs : Canonical s) (die f) : Canonical (ctlArrives s die f) := by
  unfold ctlArrives
  grind [ackArrives_canonical, requestArrives_canonical, probeArrives_canonical]

theorem storeOrDrop_canonical (hs : Canonical s) (die path f) : Canonical (storeOrDrop s die path f) := by
  unfold storeOrDrop
  grind [setSpray_canonical, pathFault_canonical]

theorem receiveFragment_canonical (hs : Canonical s) (die path f) : Canonical (receiveFragment s die path f) := by
  unfold receiveFragment
  grind [ctlArrives_canonical, storeOrDrop_canonical]

theorem relayFragment_canonical (hs : Canonical s) (die f) : Canonical (relayFragment s die f) := by
  have relayed (l) : Canonical { s with ctls := l } := hs
  unfold relayFragment
  grind [fly_canonical]

theorem execFragmentArrival_canonical (hs : Canonical s) (die path f) : OutCanonical (execFragmentArrival die path f s) := by
  have landed (l) : Canonical { s with frags := l } := hs
  have landedCtl (l) : Canonical { s with ctls := l } := hs
  unfold execFragmentArrival
  grind [receiveFragment_canonical, relayFragment_canonical, outCanonical_next]

/-! ## System instructions -/

theorem putSysReg_canonical (hs : Canonical s) (n v) : Canonical (putSysReg s n v) := by
  unfold putSysReg
  grind [putWmember_canonical, setH_canonical]

theorem execSget_canonical (hs : Canonical s) (rd num) : OutCanonical (execSget rd num s) := by
  unfold execSget
  grind [finish_canonical, setX_canonical, raise_canonical]

theorem execSput_canonical (hs : Canonical s) (rs1 num) : OutCanonical (execSput rs1 num s) := by
  unfold execSput
  grind [finish_canonical, putSysReg_canonical, raise_canonical]

theorem returnWith_canonical (hs : Canonical s) (f) : OutCanonical (returnWith s f) := by
  unfold returnWith
  grind [takeTrapAt_canonical, setH_canonical, outCanonical_next]

theorem privileged_canonical (hs : Canonical s) : OutCanonical (privileged s) := raise_canonical hs _

theorem execSret_canonical (hs : Canonical s) : OutCanonical (execSret s) := by
  unfold execSret
  grind [privileged_canonical, returnWith_canonical]

theorem execMret_canonical (hs : Canonical s) : OutCanonical (execMret s) := by
  unfold execMret
  grind [privileged_canonical, returnWith_canonical]

theorem execIfence_canonical (hs : Canonical s) : OutCanonical (execIfence s) := by
  have flushed := flushAll_canonical hs s.agent
  exact finish_canonical (setC_canonical flushed flushed.c)

theorem maintPlace_canonical (hs : Canonical s) (ea) : ResCanonical Prod.snd (maintPlace s ea) := by
  unfold maintPlace
  grind [translate_canonical, resCanonical_ok, resCanonical_error]

theorem maintLine_canonical (hs : Canonical s) (ea) {f : State → Loc → State} (hf : ∀ u l, Canonical u → Canonical (f u l)) :
    OutCanonical (maintLine s ea f) := by
  have placed := maintPlace_canonical hs ea
  unfold maintLine
  grind [raise_canonical, finish_canonical, flushAll_canonical, resCanonical_ok, resCanonical_error]

theorem dropLines_canonical (hs : Canonical s) (f) : Canonical (dropLines s f) := setC_canonical hs hs.c

theorem execCinv_canonical (hs : Canonical s) (rs1) : OutCanonical (execCinv rs1 s) := by
  refine maintLine_canonical hs _ fun u l hu => ?_
  split
  · exact dropLines_canonical hu _
  · exact hu

theorem execCinvall_canonical (hs : Canonical s) : OutCanonical (execCinvall s) :=
  finish_canonical (dropLines_canonical (flushAll_canonical hs _) _)

theorem execCwb_canonical (hs : Canonical s) (rs1) : OutCanonical (execCwb rs1 s) := by
  unfold execCwb
  split
  · exact privileged_canonical hs
  · exact maintLine_canonical hs _ fun _ _ hu => hu

theorem execHalt_canonical (hs : Canonical s) : OutCanonical (execHalt s) := by
  unfold execHalt
  grind [privileged_canonical, finishEnd_canonical, retireEnd_canonical, afterHalt_canonical, setH_canonical, waiting_canonical,
    withFreeCtr_canonical, outCanonical_next]

end

end Sys2Proof.Machine

/-! # Every instruction and event keeps the memories canonical (O57) -/

namespace Sys2Proof.Machine

open Spec (Canonical)

section

variable {s : State}

/-! ## Families of instructions: what each writes outside the memories -/

theorem genSweep_canonical (hs : Canonical s) (f rv extra vd mask conv) : OutCanonical (genSweep f rv extra vd mask conv s) := by
  unfold genSweep
  exact vecOp_canonical hs fun _ hu => setH_canonical hu _

theorem intSweep_canonical (hs : Canonical s) (f vd vs1 vs2 mask conv scalar ty) : OutCanonical (intSweep f vd vs1 vs2 mask conv scalar ty s) := by
  unfold intSweep
  exact vecOp_canonical hs fun _ hu => setH_canonical hu _

theorem wideSweep_canonical (hs : Canonical s) (f unary vd vs1 vs2 mask conv scalar ty) :
    OutCanonical (wideSweep f unary vd vs1 vs2 mask conv scalar ty s) := by
  unfold wideSweep
  exact vecOp_canonical hs fun _ hu => setH_canonical hu _

theorem narrowSweep_canonical (hs : Canonical s) (f vd vs1 mask conv ty) : OutCanonical (narrowSweep f vd vs1 mask conv ty s) := by
  unfold narrowSweep
  exact vecOp_canonical hs fun _ hu => setH_canonical hu _

theorem cmpSweep_canonical (hs : Canonical s) (f md vs1 vs2 mask conv scalar ty) : OutCanonical (cmpSweep f md vs1 vs2 mask conv scalar ty s) := by
  unfold cmpSweep
  exact vecOp_canonical hs fun _ hu => setH_canonical hu _

theorem maskSweep_canonical (hs : Canonical s) (f md ma mb rm conv) : OutCanonical (maskSweep f md ma mb rm conv s) := by
  unfold maskSweep
  exact vecOp_canonical hs fun _ hu => setH_canonical hu _

theorem permSweep_canonical (hs : Canonical s) (f extra two vd vs1 vs2 mask conv ty) :
    OutCanonical (permSweep f extra two vd vs1 vs2 mask conv ty s) := by
  unfold permSweep
  exact vecOp_canonical hs fun _ hu => setH_canonical hu _

theorem macSweep_canonical (hs : Canonical s) (f extra vd vs1 vs2 vs3 mask conv) : OutCanonical (macSweep f extra vd vs1 vs2 vs3 mask conv s) := by
  unfold macSweep
  exact vecOp_canonical hs fun _ hu => setH_canonical hu _

theorem wmacSweep_canonical (hs : Canonical s) (signed vd vs1 vs2 vs3 mask conv) : OutCanonical (wmacSweep signed vd vs1 vs2 vs3 mask conv s) := by
  unfold wmacSweep
  exact vecOp_canonical hs fun _ hu => setH_canonical hu _

theorem fcmpSweep_canonical (hs : Canonical s) (c md vs1 vs2 mask conv scalar ty) :
    OutCanonical (fcmpSweep c md vs1 vs2 mask conv scalar ty s) := by
  unfold fcmpSweep
  exact vecOp_canonical hs fun _ hu => setH_canonical hu _

theorem fpSweep_canonical (hs : Canonical s) (op unary vd vs1 vs2 mask conv scalar ty) :
    OutCanonical (fpSweep op unary vd vs1 vs2 mask conv scalar ty s) := by
  unfold fpSweep
  exact vecOp_canonical hs fun _ hu => fpPut_canonical hu ..

theorem fmaSweep_canonical (hs : Canonical s) (np nc vd vs1 vs2 vs3 mask conv bf16) :
    OutCanonical (fmaSweep np nc vd vs1 vs2 vs3 mask conv bf16 s) := by
  unfold fmaSweep
  exact vecOp_canonical hs fun _ hu => fpPut_canonical hu ..

theorem intRed_canonical (hs : Canonical s) (f signed vd vs1 vs2 mask conv toX perRow) :
    OutCanonical (intRed f signed vd vs1 vs2 mask conv toX perRow s) := by
  unfold intRed
  exact reduceOp_canonical hs ..

theorem fpRed_canonical (hs : Canonical s) (red bf16 vd vs1 vs2 mask conv toX perRow) :
    OutCanonical (fpRed red bf16 vd vs1 vs2 mask conv toX perRow s) := by
  unfold fpRed
  exact reduceOp_canonical hs ..

theorem orderedRed_canonical (hs : Canonical s) (bf16 vd vs1 vs2 mask conv) : OutCanonical (orderedRed bf16 vd vs1 vs2 mask conv s) := by
  unfold orderedRed
  exact fpRed_canonical hs ..

theorem execVmerge_canonical (hs : Canonical s) (vd vs1 vs2 mask conv scalar ty) : OutCanonical (execVmerge vd vs1 vs2 mask conv scalar ty s) := by
  unfold execVmerge
  exact vecOp_canonical hs fun _ hu => setH_canonical hu _

theorem execVcvt_canonical (hs : Canonical s) (vd vs1 mask conv alt src dst) : OutCanonical (execVcvt vd vs1 mask conv alt src dst s) := by
  unfold execVcvt
  exact vecOp_canonical hs fun _ hu => fpPut_canonical hu ..

theorem execVbsdq_canonical (hs : Canonical s) (vd vs1 vs3 mask conv fmt) : OutCanonical (execVbsdq vd vs1 vs3 mask conv fmt s) := by
  unfold execVbsdq
  exact vecOp_canonical hs fun _ hu => fpPut_canonical hu ..

theorem execVcompress_canonical (hs : Canonical s) (vd vs1 mask conv ty) : OutCanonical (execVcompress vd vs1 mask conv ty s) := by
  unfold execVcompress
  exact vecOp_canonical hs fun _ hu => setH_canonical hu _

theorem execVmvv_canonical (hs : Canonical s) (vd vs1 vs2 conv) : OutCanonical (execVmvv vd vs1 vs2 conv s) := by
  unfold execVmvv
  exact vecOp_canonical hs fun _ hu => setH_canonical hu _

theorem execVbsq_canonical (hs : Canonical s) (vd vs1 vs3 mask conv fmt) : OutCanonical (execVbsq vd vs1 vs3 mask conv fmt s) := by
  unfold execVbsq
  exact vecOp_canonical hs fun _ hu => setH_canonical (fpPut_canonical hu ..) _

theorem fpBin_canonical (hs : Canonical s) (f op rd rs1 rs2) : OutCanonical (fpBin f op rd rs1 rs2 s) := fpRd_canonical hs ..

theorem fpFused_canonical (hs : Canonical s) (f np nc rd rs1 rs2) : OutCanonical (fpFused f np nc rd rs1 rs2 s) := fpRd_canonical hs ..

theorem fpCvt_canonical (hs : Canonical s) (src dst rd rs1) : OutCanonical (fpCvt src dst rd rs1 s) := fpRd_canonical hs ..

theorem execSpdmChallenge_canonical (hs : Canonical s) (slot nonce) : OutCanonical (execSpdmChallenge slot nonce s) :=
  withFreeCtr_canonical (spdm_canonical hs _) _

/-! ## The instruction -/

theorem exec_canonical (hs : Canonical s) (i : Instr) : OutCanonical (exec i s) := by
  cases i with simp only [exec]
  | add | sub | and | or | xor | sll | srl | sra | slt | sltz | addw | subw | min | max | minz | maxz | mul | mulh | mulhz | div | divz | rem |
    remz | slli | srli | srai | rori | clz | ctz | cpop | rev8 | zeqz | znez | addi | andi | ori | lui | auipc | fclass =>
    exact writeRd_canonical hs ..
  | jal => exact execJal_canonical hs ..
  | jalr => exact execJalr_canonical hs ..
  | bsig => exact execBsig_canonical hs ..
  | lsp => exact execLsp_canonical hs ..
  | ssp => exact execSsp_canonical hs ..
  | amoaddF32 => exact execAmoaddF32_canonical hs ..
  | fence => exact execFence_canonical hs ..
  | vshape => exact execVshape_canonical hs ..
  | vexit => exact execVexit_canonical hs ..
  | lsplit => exact execLsplit_canonical hs ..
  | ljoin => exact execLjoin_canonical hs ..
  | vpin => exact execVpin_canonical hs ..
  | vunpin => exact execVunpin_canonical hs ..
  | vspill => exact execVspill_canonical hs ..
  | vfill => exact execVfill_canonical hs ..
  | mzero => exact execMzero_canonical hs ..
  | msend => exact execMsend_canonical hs ..
  | mput => exact execMput_canonical hs ..
  | mwake => exact execMwake_canonical hs ..
  | mwait => exact execMwait_canonical hs ..
  | mcount => exact execMcount_canonical hs ..
  | locq => exact execLocq_canonical hs ..
  | swait => exact execSwait_canonical hs ..
  | sfault => exact execSfault_canonical hs ..
  | sreplay => exact execSreplay_canonical hs ..
  | warrive => exact execWarrive_canonical hs ..
  | wwait => exact execWwait_canonical hs ..
  | tend => exact execTend_canonical hs ..
  | tpost => exact execTpost_canonical hs ..
  | glaunch => exact execGlaunch_canonical hs ..
  | wreserve => exact execWreserve_canonical hs ..
  | wcommit => exact execWcommit_canonical hs ..
  | qpush => exact execQpush_canonical hs ..
  | qend => exact execQend_canonical hs ..
  | pxlock => exact execPxlock_canonical hs ..
  | pxunlock => exact execPxunlock_canonical hs ..
  | pxskip => exact execPxskip_canonical hs ..
  | sget => exact execSget_canonical hs ..
  | sput => exact execSput_canonical hs ..
  | sret => exact execSret_canonical hs ..
  | mret => exact execMret_canonical hs ..
  | ifence => exact execIfence_canonical hs ..
  | cinv => exact execCinv_canonical hs ..
  | cinvall => exact execCinvall_canonical hs ..
  | cwb => exact execCwb_canonical hs ..
  | halt => exact execHalt_canonical hs ..
  | hartStateMachineCheck => exact execHartStateMachineCheck_canonical hs ..
  | budgetExpiry => exact execBudgetExpiry_canonical hs ..
  | freezeMarkArrival => exact execFreezeMarkArrival_canonical hs ..
  | coreCompleteReport => exact execCoreCompleteReport_canonical hs ..
  | runAheadStart => exact execRunAheadStart_canonical hs ..
  | ownerReserve => exact execOwnerReserve_canonical hs ..
  | locqReply => exact execLocqReply_canonical hs ..
  | fragmentArrival => exact execFragmentArrival_canonical hs ..
  | reassemblyTimerExpiry => exact execReassemblyTimerExpiry_canonical hs ..
  | decodedPacketAccepted => exact execDecodedPacketAccepted_canonical hs ..
  | sprayAck => exact execSprayAck_canonical hs ..
  | sprayRequest => exact execSprayRequest_canonical hs ..
  | sprayProbe => exact execSprayProbe_canonical hs ..
  | probeIntervalExpiry => exact execProbeIntervalExpiry_canonical hs ..
  | atsInvalidate => exact execAtsInvalidate_canonical hs ..
  | frameOpen => exact execFrameOpen_canonical hs ..
  | binRecord => exact execBinRecord_canonical hs ..
  | qendMarkArrival => exact execQendMarkArrival_canonical hs ..
  | tileResolve => exact execTileResolve_canonical hs ..
  | tileNotification => exact execTileNotification_canonical hs ..
  | frameComplete => exact execFrameComplete_canonical hs ..
  | pixelLockGrant => exact execPixelLockGrant_canonical hs ..
  | ctxRestore => exact execCtxRestore_canonical hs ..
  | gangLaunchPacket => exact execGangLaunchPacket_canonical hs ..
  | framePacket => exact execFramePacket_canonical hs ..
  | indirectPacket => exact execIndirectPacket_canonical hs ..
  | loadPacket => exact execLoadPacket_canonical hs ..
  | shootdownPacket => exact execShootdownPacket_canonical hs ..
  | launchCompletion => exact execLaunchCompletion_canonical hs ..
  | poolDispatch => exact execPoolDispatch_canonical hs ..
  | hostAtomicCompleter => exact execHostAtomicCompleter_canonical hs ..
  | hostBar0AccessError => exact execHostBar0AccessError_canonical hs ..
  | biasPageFlip => exact execBiasPageFlip_canonical hs ..
  | correctedError => exact execCorrectedError_canonical hs ..
  | leakTick => exact execLeakTick_canonical hs ..
  | patrolScrub => exact execPatrolScrub_canonical hs ..
  | basinHeartbeat => exact execBasinHeartbeat_canonical hs ..
  | agentFailed => exact execAgentFailed_canonical hs ..
  | fatalSequence => exact execFatalSequence_canonical hs ..
  | siphonHold => exact execSiphonHold_canonical hs ..
  | siphonCopy => exact execSiphonCopy_canonical hs ..
  | siphonState => exact execSiphonState_canonical hs ..
  | siphonFlip => exact execSiphonFlip_canonical hs ..
  | siphonRelease => exact execSiphonRelease_canonical hs ..
  | siphonAbort => exact execSiphonAbort_canonical hs ..
  | waitCycleWalk => exact execWaitCycleWalk_canonical hs ..
  | waitCycleConfirm => exact execWaitCycleConfirm_canonical hs ..
  | scanSite => exact execScanSite_canonical hs ..
  | pathRetrain => exact execPathRetrain_canonical hs ..
  | leaseHeartbeatSend => exact execLeaseHeartbeatSend_canonical hs ..
  | leaseHeartbeatReceive => exact execLeaseHeartbeatReceive_canonical hs ..
  | leaseLapse => exact execLeaseLapse_canonical hs ..
  | leaseClaim => exact execLeaseClaim_canonical hs ..
  | romSidebandTimeout => exact execRomSidebandTimeout_canonical hs ..
  | selfTestComplete => exact execSelfTestComplete_canonical hs ..
  | discoveryTimeout => exact execDiscoveryTimeout_canonical hs ..
  | multicastTimeout => exact execMulticastTimeout_canonical hs ..
  | ucieTraining => exact execUcieTraining_canonical hs ..
  | fabricPortTraining => exact execFabricPortTraining_canonical hs ..
  | pcieTraining => exact execPcieTraining_canonical hs ..
  | pkgidWrite => exact execPkgidWrite_canonical hs ..
  | pkgidTimeout => exact execPkgidTimeout_canonical hs ..
  | powerWindow => exact execPowerWindow_canonical hs ..
  | registerWrite => exact execRegisterWrite_canonical hs ..
  | leaseHeartbeatAck => exact execLeaseHeartbeatAck_canonical hs ..
  | leaderLeaseExpiry => exact execLeaderLeaseExpiry_canonical hs ..
  | claimRetry => exact execClaimRetry_canonical hs ..
  | hostWriteRefusal => exact execHostWriteRefusal_canonical hs ..
  | configurationRequest => exact execConfigurationRequest_canonical hs ..
  | beq | bne | blt | bge => exact branch_canonical hs ..
  | ld | lw | lwz | lbz | lx | ldaW | ldaD => exact loadRd_canonical hs ..
  | staW | staD => exact storeReg_canonical (release_canonical hs _) ..
  | sd | sw | sx => exact storeReg_canonical hs ..
  | amoswapD | amoswapW | amoaddD | amoaddW | amoandD | amoandW | amoorD | amoorW | amoxorD | amoxorW | amominD | amominW | amomaxD | amomaxW |
    amominzD | amominzW | amomaxzD | amomaxzW | amocasD | amocasW => exact atomic_canonical hs ..
  | faddF64 | fsubF64 | fmulF64 | fdivF64 | faddF32 | fsubF32 | fmulF32 | fdivF32 => exact fpBin_canonical hs ..
  | fsqrtF64 | fsqrtF32 | itof | fmin | fmax => exact fpRd_canonical hs ..
  | fmacF64 | fmscF64 | fnmacF64 | fmacF32 | fmscF32 | fnmacF32 => exact fpFused_canonical hs ..
  | ftoi | ftrc => exact fpToInt_canonical hs ..
  | fnarrowF32 | fnarrowF16 | fnarrowBf16 | fwidenF32 | fwidenF16 | fwidenBf16 => exact fpCvt_canonical hs ..
  | feq | flt | fle => exact fpCmp_canonical hs ..
  | vmvx | vmvxz => exact moveToX_canonical hs ..
  | vbsq => exact execVbsq_canonical hs ..
  | biasFlipGo => exact biasGo_canonical (canonical_of_frame hs rfl rfl rfl rfl rfl)
  | pathLeakTick => exact setPath_canonical hs ..
  | spdmChallenge => exact execSpdmChallenge_canonical hs ..
  | vbcast | vmv | vid | vidr | vidf => exact genSweep_canonical hs ..
  | vadd | vsub | vrsub | vmin | vminz | vmax | vmaxz | vsadd | vsaddz | vssub | vssubz | vmul | vmulh | vmulhz | vdiv | vdivz | vrem | vremz |
    vand | vor | vxor | vandn | vsll | vsrl | vsra | vror => exact intSweep_canonical hs ..
  | vwadd | vwaddz | vwsub | vwsubz | vext | vextz | vwmul | vwmulz => exact wideSweep_canonical hs ..
  | vnarrow | vnsat | vnsatz | vnclampz => exact narrowSweep_canonical hs ..
  | vseq | vsne | vslt | vsltz | vsle | vslez | vsgt | vsgtz => exact cmpSweep_canonical hs ..
  | mand | mor | mxor | mandn | mnot | mset | mclr => exact maskSweep_canonical hs ..
  | mpop | mfirst => exact vecOp_canonical hs fun _ hu => setX_canonical hu _ _
  | vfadd | vfsub | vfrsub | vfmul | vfdiv | vfrdiv | vfsqrt | vfmin | vfmax | vfsgnj | vfsgnjn | vfsgnjx | vfclass => exact fpSweep_canonical hs ..
  | vfmac | vfmsc | vfnmac | vfnmsc => exact fmaSweep_canonical hs ..
  | vmac | vnmac | vdot4 | vdot4z => exact macSweep_canonical hs ..
  | vwmac | vwmacz => exact wmacSweep_canonical hs ..
  | vfeq | vfne | vflt | vfle | vfgt | vfge => exact fcmpSweep_canonical hs ..
  | vslideup | vslidedown | vrgather | vrowbc => exact permSweep_canonical hs ..
  | vredsum | vredmin | vredminz | vredmax | vredmaxz => exact intRed_canonical hs ..
  | vfredo | vfredoBf16 => exact orderedRed_canonical hs ..
  | vfredt | vfredtBf16 | vfredmin | vfredminBf16 | vfredmax | vfredmaxBf16 => exact fpRed_canonical hs ..
  | vld | vldIndexed => exact vecLoad_canonical hs ..
  | vldCw | vldIndexedCw => exact vecLoadCw_canonical hs ..
  | vst | vstm | vstIndexed | vstmIndexed => exact vecStore_canonical hs ..
  | vamoaddW | vamoaddD | vamominW | vamomaxW | vamoaddF32 | vamoaddF16 | vamoaddBf16 | vamoaddWDup | vamoaddDDup | vamominWDup | vamomaxWDup |
    vamoaddF32Dup | vamoaddF16Dup | vamoaddBf16Dup => exact vecAtomic_canonical hs ..
  | mmul | mmulz | mmulBs | mmulzBs => exact matMul_canonical hs ..
  | mcvt | mcvtSr => exact matCvt_canonical hs ..
  | mdrain | mdrainz => exact matDrain_canonical hs ..
  | scopyin | scopyout | scopy2inRow | scopy2inCol | scopy2outRow | scopy2outCol | scopyr => exact sluiceOp_canonical hs ..
  | sgatherRow | sgatherCol => exact gatherOp_canonical hs ..
  | wtest => exact finish_canonical (setX_canonical hs _ _)
  | thold | tready | tenable => exact taskBitOp_canonical hs ..
  | tsample | tsampleLod => exact sampleOp_canonical hs ..
  | rquery | rqueryAny => exact queryOp_canonical hs ..
  | trap | brk | illegalEncoding => exact raise_canonical hs ..
  | cwbinv => exact execCwb_canonical hs _
  | taskStart => exact startTask_canonical hs ..
  | messageDelivery | drainDelivery | scopyrPartDelivery | taskBitMessage => exact deliver_canonical hs ..
  | locqQuery => exact hs
  | weirBroadcast => exact weirReach_canonical hs ..
  | sluiceChunk => exact sluiceChunkEff_canonical hs ..
  | prgResponse | pageRequestTimeout => exact pageResponse_canonical hs ..
  | ctxActivate => exact whenReady_canonical hs (ctxActivate_canonical hs _)
  | ctxSave => exact whenReady_canonical hs (ctxSave_canonical hs _)
  | ctxRelease => exact whenReady_canonical hs (ctxRelease_canonical hs _)
  | ctxInvalidCommand => exact whenReady_canonical hs (ctxCommand_canonical hs _ _)
  | queueEnable => exact whenReady_canonical hs (enableQueue_canonical hs _)
  | queueDisable => exact whenReady_canonical hs (stopQueue_canonical hs _)
  | doorbell => exact whenReady_canonical hs (ringDoorbell_canonical hs _ _)
  | qerrClear => exact whenReady_canonical hs (clearQueueError_canonical hs _)
  | saveRecordWrite => exact saveRecord_canonical hs ..
  | signalPacket => exact packetStep_canonical hs _ _ fun _ _ hu => hu
  | hostDeviceMemoryAccess => exact hostAccess_canonical hs ..
  | hostSnoop => exact answer_canonical hs ..
  | postAreaScan => exact scanSlot_canonical hs ..
  | functionLevelReset => exact requestReset_canonical hs ..
  | hotReset => exact hotReset_canonical hs
  | powerOn => exact coldBoot_canonical hs ..
  | standbyEntry => exact enterStandby_canonical hs ..
  | standbyExit => exact leaveStandby_canonical hs ..
  | linkFlitCrcDrop => exact pathFault_canonical hs ..
  | discoveryFlood => exact floodStart_canonical hs ..
  | discoveryReport => exact floodReport_canonical hs ..
  | multicastGo => exact mcastGo_canonical (mcastFields_canonical hs _ _ _) _
  | multicastAck => exact mcastWrite_canonical hs ..
  | siteasgWrite => exact putSiteAsg_canonical hs ..
  | sitegoGo => exact siteGo_canonical hs ..
  | sitegoClr => exact siteClr_canonical hs ..
  | ncevPop => exact popEvent_canonical hs ..
  | ncpost => exact postNode_canonical hs ..
  | memoryTrainingStep => exact trainStep_canonical (beginPhase3_canonical hs _) ..
  | spdmGetVersion | spdmGetCapabilities | spdmNegotiateAlgorithms | spdmGetDigests | spdmGetCertificate | spdmGetMeasurements |
    spdmUnsupported => exact spdm_canonical hs ..
  | storePerformed => exact performAt_canonical hs ..
  | vmerge => exact execVmerge_canonical hs ..
  | vcvt => exact execVcvt_canonical hs ..
  | vbsdq => exact execVbsdq_canonical hs ..
  | vcompress => exact execVcompress_canonical hs ..
  | vmvv => exact execVmvv_canonical hs ..

/-! ## The turn of a hart or of a lane -/

theorem withWord_canonical (hs : Canonical s) (w) : Canonical { s with word := w } := hs

theorem runInstr_canonical (hs : Canonical s) : OutCanonical (runInstr s) := by
  have fetched := fetch_canonical hs
  unfold runInstr
  grind [raise_canonical, exec_canonical, withWord_canonical, resCanonical_ok, resCanonical_error]

theorem offLane_canonical (hs : Canonical s) : Canonical { s with lane := none } := hs

theorem runLane_canonical (hs : Canonical s) (l) : OutCanonical (runLane s l) := by
  have onLane : Canonical { s with lane := some l } := hs
  unfold runLane
  split
  · exact hs
  next r _ =>
    dsimp only
    split
    · exact hs
    · split
      · exact laneTrap_canonical onLane l
      next w _ =>
        split
        · exact laneTrap_canonical onLane l
        · have ran := exec_canonical (withWord_canonical onLane w) (instrOfWord w)
          split
          next t e =>
            rw [e] at ran
            split
            · exact laneTrap_canonical onLane l
            · exact offLane_canonical ran
          · exact ran

theorem runNext_canonical (hs : Canonical s) : OutCanonical (runNext s) := by
  unfold runNext
  grind [runLane_canonical, runInstr_canonical, outCanonical_next]

theorem runDue_canonical (hs : Canonical s) {t : State} (ht : Canonical t) : OutCanonical (runDue s t) := by
  have ran := runInstr_canonical hs
  unfold runDue
  grind [outCanonical_next]

theorem runHart_canonical (hs : Canonical s) : OutCanonical (runHart s) := by
  unfold runHart
  grind [coreFirmware_canonical, romTurn_canonical, runDue_canonical, asyncTurn_canonical, runNext_canonical, outCanonical_next]

theorem boundAt_canonical (hs : Canonical s) (p) : Canonical (s.boundAt p) := setH_canonical hs _

theorem boundedRun_canonical (hs : Canonical s) (i p) : OutCanonical (boundedRun i s p) := by
  have bounded := boundAt_canonical hs p
  unfold boundedRun
  split
  · exact spillFrame_canonical bounded ..
  · exact fillFrame_canonical bounded ..
  · exact exec_canonical bounded _

theorem stoppedRun_canonical (hs : Canonical s) (i w p) : OutCanonical (stoppedRun i w s p) := by
  unfold stoppedRun
  grind [boundedRun_canonical, exec_canonical, setH_canonical, outCanonical_next]

theorem stopAtPos_canonical {t : State} (ht : Canonical t) (p) : Canonical (stopAtPos s t p) := by
  have stopped (h) : Canonical ((asyncTurn (t.setH h)).getD (t.setH h)) := by
    cases e : asyncTurn (t.setH h) with
    | none => exact setH_canonical ht h
    | some v => exact asyncTurn_canonical (setH_canonical ht h) e
  exact stopped _

theorem runStopped_canonical (hs : Canonical s) (n) : OutCanonical (runStopped s n) := by
  have fetched := fetch_canonical hs
  unfold runStopped
  grind [runHart_canonical, stoppedRun_canonical, stopAtPos_canonical, withWord_canonical, resCanonical_ok, outCanonical_next]

theorem goWrong_canonical (hs : Canonical s) (i target) : Canonical (goWrong i s target) := by
  unfold goWrong
  grind [setX_canonical, setH_canonical, takeTrapAt_canonical]

theorem runUpset_canonical (hs : Canonical s) (target) : OutCanonical (runUpset s target) := by
  have fetched := fetch_canonical hs
  unfold runUpset
  grind [runHart_canonical, goWrong_canonical, withWord_canonical, resCanonical_ok, outCanonical_next]

/-! ## The step -/

theorem turn_canonical (hs : Canonical s) : OutCanonical (turn s) := by
  have popped (r) : Canonical { s with agenda := r } := hs
  have poppedAt (r k) : Canonical { s with agenda := r, cur := k } := hs
  unfold turn
  split
  next => exact runHart_canonical hs
  next i r _ => exact exec_canonical (popped r) i
  next k r _ => exact runHart_canonical (poppedAt r k)
  next k l r _ => exact runLane_canonical (poppedAt r k) l
  next k n r _ => exact passCycles_canonical (popped r) k n
  next k n r _ => exact runStopped_canonical (poppedAt r k) n
  next k a r _ => exact runUpset_canonical (poppedAt r k) a
  next e r _ => exact outside_canonical (popped r) e

theorem step_canonical (hs : Canonical s) : OutCanonical (step s) := logged_canonical s (turn_canonical hs)

end

/-- Settles O57: every turn of the agenda, each an operation that keeps the canonical form, and the writing of the repair log after it. -/
theorem memoryStaysCanonical : Obligations.MemoryStaysCanonical := by
  intro s t hs stepped
  have stays := step_canonical hs
  rwa [stepped] at stays

end Sys2Proof.Machine

/-! # Register writes (O47) -/

namespace Sys2Proof.Machine

section

variable {s : State} {v : Word}

/-! ## The write of a whole register -/

/-- What an aligned write of 8 bytes is to its register: every bit is written. -/
def wholeWr (v : Word) : RegWr := { val := v.toNat, mask := 2 ^ 64 - 1 }

theorem regWr_whole {a : Nat} (aligned : a % 8 = 0) (v : Word) : regWr a 8 v.toNat = wholeWr v := by
  have low : v.toNat % 2 ^ (8 * 8) = v.toNat := Nat.mod_eq_of_lt v.isLt
  simp only [regWr, wholeWr, aligned, low, Nat.mul_zero, Nat.pow_zero, Nat.mul_one]

theorem bitsOf_ones {lo len : Nat} (h : lo + len ≤ 64) : bitsOf (2 ^ 64 - 1) lo len = 2 ^ len - 1 := by
  refine Nat.eq_of_testBit_eq fun i => ?_
  rw [testBit_bitsOf, Nat.testBit_two_pow_sub_one, Nat.testBit_two_pow_sub_one]
  by_cases hi : i < len
  · have inWord : lo + i < 64 := by omega
    simp [hi, inWord]
  · simp [hi]

theorem bitOf_eq_testBit (n i : Nat) : bitOf n i = n.testBit i := by rw [bitOf, Nat.testBit_eq_decide_div_mod_eq]

theorem field_wholeWr {lo len : Nat} (h : lo + len ≤ 64) (old : Nat) : (wholeWr v).field lo len old = bitsOf v.toNat lo len := by
  simp only [RegWr.field, wholeWr, bitsOf_ones h, Nat.sub_self, Nat.and_zero, Nat.zero_or, Nat.and_two_pow_sub_one_eq_mod]
  exact Nat.mod_eq_of_lt (bitsOf_lt _ _ _)

theorem bitOf_ones {i : Nat} (h : i < 64) : bitOf (2 ^ 64 - 1) i = true := by
  rw [bitOf_eq_testBit, Nat.testBit_two_pow_sub_one, decide_eq_true h]

theorem bit_wholeWr {i : Nat} (h : i < 64) (old : Bool) : (wholeWr v).bit i old = v.getLsbD i := by
  rw [RegWr.bit, wholeWr, bitOf_ones h, if_pos rfl, bitOf_eq_testBit, BitVec.getLsbD]

theorem hit_wholeWr {i : Nat} (h : i < 64) : (wholeWr v).hit i = v.getLsbD i := by
  rw [RegWr.hit, wholeWr, bitOf_ones h, Bool.true_and, bitOf_eq_testBit, BitVec.getLsbD]

/-! ## Which window an aligned write reaches -/

theorem exec_hostWrite (o size : Nat) : exec (.registerWrite true o size v) s = .next (bar0Write s o size v.toNat) := rfl

theorem exec_ctlWrite {o size : Nat} (aligned : (size = 4 ∨ size = 8) ∧ o % size = 0) :
    exec (.registerWrite false o size v) s = .next (ctlWrite s o size v.toNat) := congrArg Host.Outcome.next (if_pos aligned)

theorem bar0Write_unaligned {o size n : Nat} (h : ¬ ((size = 4 ∨ size = 8) ∧ o % size = 0)) : bar0Write s o size n = s :=
  if_pos (by omega)

theorem bar0Write_closed {o size n : Nat} (notReady : s.hostif.regs.ready = false) (h : 0x10000 ≤ o) : bar0Write s o size n = s := by
  have beyond : ¬ o / 8 * 8 < 0x10000 := by omega
  simp [bar0Write, beyond, notReady]

theorem bar0Write_global {o : Nat} (aligned : o % 8 = 0) (h : o < 0x10000) : bar0Write s o 8 v.toNat = globalPut s o (wholeWr v) := by
  have word : o / 8 * 8 = o := by omega
  simp [bar0Write, regWr_whole aligned, word, aligned, h]

theorem bar0Write_ctx (ready : s.hostif.regs.ready = true) {n o : Nat} (hn : n < 64) (aligned : o % 8 = 0) (ho : o < 128) :
    bar0Write s (0x10000 + 128 * n + o) 8 v.toNat = ctxPut s n o (wholeWr v) := by
  have whole : (0x10000 + 128 * n + o) % 8 = 0 := by omega
  have word : (0x10000 + 128 * n + o) / 8 * 8 = 0x10000 + 128 * n + o := by omega
  have block : (0x10000 + 128 * n + o - 0x10000) / 128 = n := by omega
  have offset : (0x10000 + 128 * n + o) % 128 = o := by omega
  have beyond : ¬ 0x10000 + 128 * n + o < 0x10000 := by omega
  have inside : 0x10000 + 128 * n + o < 0x10000 + 128 * 64 := by omega
  simp only [bar0Write, regWr_whole whole, word, block, offset, whole, ready, if_neg beyond, if_pos inside]
  simp

theorem bar0Write_queue (ready : s.hostif.regs.ready = true) {n : Nat} (hn : n < 256) :
    bar0Write s (0x20000 + 64 * n) 8 v.toNat = queuePut s n 0 (wholeWr v) := by
  have whole : (0x20000 + 64 * n) % 8 = 0 := by omega
  have word : (0x20000 + 64 * n) / 8 * 8 = 0x20000 + 64 * n := by omega
  have block : (0x20000 + 64 * n - 0x20000) / 64 = n := by omega
  have offset : (0x20000 + 64 * n) % 64 = 0 := by omega
  have beyond : ¬ 0x20000 + 64 * n < 0x10000 := by omega
  have beyondCtx : ¬ 0x20000 + 64 * n < 0x10000 + 128 * 64 := by omega
  have inside : 0x20000 ≤ 0x20000 + 64 * n ∧ 0x20000 + 64 * n < 0x20000 + 64 * 256 := by omega
  simp only [bar0Write, regWr_whole whole, word, block, offset, whole, ready, if_neg beyond, if_neg beyondCtx, if_pos inside]
  simp

theorem ctlWrite_cistern {d o : Nat} (hd : d < 4) (aligned : o % 8 = 0) (ho : o < 0x01000000) :
    ctlWrite s (2 ^ 32 * d + o) 8 v.toNat = cisternPut s d o (leBytes 8 v.toNat) (wholeWr v) := by
  have whole : (2 ^ 32 * d + o) % 8 = 0 := by omega
  have die : (2 ^ 32 * d + o) / 2 ^ 32 = d := by omega
  have offset : (2 ^ 32 * d + o) % 2 ^ 32 = o := by omega
  simp only [ctlWrite, regWr_whole whole, die, offset, if_neg (Nat.not_le.mpr hd), if_pos ho]

/-! ## What has changed -/

theorem hostWrite_hostBecomes {o : Nat} {i : HostIf} (aligned : o % 8 = 0) (h : o < 0x10000)
    (e : globalPut s o (wholeWr v) = { s with hostif := i }) :
    ∃ t, exec (.registerWrite true o 8 v) s = .next t ∧ Spec.HostBecomes s t i :=
  ⟨_, congrArg Host.Outcome.next ((bar0Write_global aligned h).trans e), rfl⟩

theorem ctxBecomes_setCtx (s : State) (n : Nat) (c : Ctx) : Spec.CtxBecomes s (s.setCtx n c) n c :=
  ⟨s.ctx_setCtx_self n c, fun _ h => s.ctx_setCtx_ne c h, rfl⟩

theorem hostWrite_ctxBecomes (ready : s.hostif.regs.ready = true) {n o : Nat} {c : Ctx} (hn : n < 64) (aligned : o % 8 = 0) (ho : o < 128)
    (notCtl : o ≠ 0x38) (e : (s.ctx n).putWord o (wholeWr v) = c) :
    ∃ t, exec (.registerWrite true (0x10000 + 128 * n + o) 8 v) s = .next t ∧ Spec.CtxBecomes s t n c := by
  refine ⟨s.setCtx n c, ?_, ctxBecomes_setCtx s n c⟩
  rw [exec_hostWrite, bar0Write_ctx ready hn aligned ho, ctxPut, if_neg notCtl, e]

theorem queueBecomes_setQueue (s : State) (n : Nat) (q : Queue) : Spec.QueueBecomes s (s.setQueue n q) n q :=
  ⟨s.queue_setQueue_self n q, fun _ h => s.queue_setQueue_ne q h, rfl⟩

theorem State.die_setDie (s : State) (d j : Nat) (x : Die) : (s.setDie d x).die j = if d % 4 = j % 4 then x else s.die j :=
  Vector.getElem_set (Nat.mod_lt _ (by decide)) (Nat.mod_lt _ (by decide))

theorem State.die_setDie_self (s : State) (d : Nat) (x : Die) : (s.setDie d x).die d = x := by rw [State.die_setDie, if_pos rfl]

theorem State.die_setDie_ne (s : State) {d j : Nat} (hd : d < 4) (hj : j < 4) (h : j ≠ d) (x : Die) : (s.setDie d x).die j = s.die j := by
  rw [State.die_setDie, if_neg (by omega)]

theorem dieBecomes_setDie (s : State) {d : Nat} (hd : d < 4) (x : Die) : Spec.DieBecomes s (s.setDie d x) d x :=
  ⟨s.die_setDie_self d x, fun _ hj h => s.die_setDie_ne hd hj h x, rfl⟩

theorem dieBecomes_refl (s : State) (d : Nat) : Spec.DieBecomes s s d (s.die d) := ⟨rfl, fun _ _ _ => rfl, rfl⟩

theorem exec_cisternWrite {d o : Nat} (hd : d < 4) (aligned : o % 8 = 0) (ho : o < 0x01000000) :
    exec (.registerWrite false (2 ^ 32 * d + o) 8 v) s = .next (cisternPut s d o (leBytes 8 v.toNat) (wholeWr v)) := by
  rw [exec_ctlWrite ⟨.inr rfl, by omega⟩, ctlWrite_cistern hd aligned ho]

theorem cisternWrite_dieBecomes {d o : Nat} {x : Die} (hd : d < 4) (aligned : o % 8 = 0) (ho : o < 0x01000000)
    (h : Spec.DieBecomes s (cisternPut s d o (leBytes 8 v.toNat) (wholeWr v)) d x) :
    ∃ t, exec (.registerWrite false (2 ^ 32 * d + o) 8 v) s = .next t ∧ Spec.DieBecomes s t d x :=
  ⟨_, exec_cisternWrite hd aligned ho, h⟩

/-! ## The global window -/

theorem globalPut_evbase (off : s.hostif.ring.en = false) : globalPut s 0x100 (wholeWr v)
    = { s with hostif := { s.hostif with ring := { s.hostif.ring with base := BitVec.ofNat 52 (bitsOf v.toNat 12 52) } } } := by
  simp [globalPut, EventRing.put, off, field_wholeWr]

theorem globalPut_evbase_on (on : s.hostif.ring.en = true) : globalPut s 0x100 (wholeWr v) = s := by
  simp [globalPut, EventRing.put, on]

theorem globalPut_evctl : globalPut s 0x108 (wholeWr v) = { s with hostif := { s.hostif with ring := { s.hostif.ring with
    en := v.getLsbD 31, vector := BitVec.ofNat 8 (bitsOf v.toNat 8 8)
    lsize := if 6 ≤ bitsOf v.toNat 0 5 ∧ bitsOf v.toNat 0 5 ≤ 16 then BitVec.ofNat 5 (bitsOf v.toNat 0 5) else s.hostif.ring.lsize } } } := by
  simp [globalPut, EventRing.put, field_wholeWr, bit_wholeWr]

theorem globalPut_evtail : globalPut s 0x118 (wholeWr v)
    = { s with hostif := { s.hostif with ring := { s.hostif.ring with tail := BitVec.ofNat 32 (bitsOf v.toNat 0 32) } } } := by
  simp [globalPut, EventRing.put, field_wholeWr]

theorem globalPut_biasaddr : globalPut s 0x200 (wholeWr v)
    = { s with hostif := { s.hostif with bias := { s.hostif.bias with page := BitVec.ofNat 40 (bitsOf v.toNat 12 40) } } } := by
  simp [globalPut, field_wholeWr]

theorem globalPut_pwrlim : globalPut s 0x500 (wholeWr v) = { s with hostif := { s.hostif with regs := { s.hostif.regs with
    pwrlim := if 1000 ≤ bitsOf v.toNat 0 16 ∧ bitsOf v.toNat 0 16 ≤ 3000 then BitVec.ofNat 16 (bitsOf v.toNat 0 16)
      else s.hostif.regs.pwrlim } } } := by
  by_cases inRange : 1000 ≤ bitsOf v.toNat 0 16 ∧ bitsOf v.toNat 0 16 ≤ 3000 <;> simp [globalPut, field_wholeWr, inRange]

/-! ## A context's block -/

theorem putWord_free {c : Ctx} (free : c.st = .free) :
    c.putWord 0x00 (wholeWr v) = { c with root := BitVec.ofNat 32 (bitsOf v.toNat 20 32) }
    ∧ c.putWord 0x08 (wholeWr v) = { c with rows := BitVec.ofNat 50 (bitsOf v.toNat 0 50) }
    ∧ c.putWord 0x10 (wholeWr v) = { c with tag := BitVec.ofNat 16 (bitsOf v.toNat 0 16) }
    ∧ c.putWord 0x18 (wholeWr v) = { c with reach := BitVec.ofNat 45 (bitsOf v.toNat 7 45) }
    ∧ c.putWord 0x20 (wholeWr v) = { c with save := BitVec.ofNat 40 (bitsOf v.toNat 12 40) }
    ∧ c.putWord 0x28 (wholeWr v) = { c with pool := BitVec.ofNat 34 (bitsOf v.toNat 18 34) }
    ∧ c.putWord 0x40 (wholeWr v) = { c with pasidEn := v.getLsbD 20, pasid := BitVec.ofNat 20 (bitsOf v.toNat 0 20) }
    ∧ c.putWord 0x48 (wholeWr v) = { c with post := BitVec.ofNat 40 (bitsOf v.toNat 12 40) }
    ∧ c.putWord 0x50 (wholeWr v) = { c with sup := BitVec.ofNat 46 (bitsOf v.toNat 6 46) } := by
  simp [Ctx.putWord, free, field_wholeWr, bit_wholeWr]

theorem putWord_held {c : Ctx} (held : c.st ≠ .free) {o : Nat} (notRate : o ≠ 0x30) (w : RegWr) : c.putWord o w = c := by
  simp [Ctx.putWord, held, notRate]

/-! ## The cistern window -/

theorem cisternPut_scrub (s : State) (d : Nat) (data : List Byte) : cisternPut s d 0x0100 data (wholeWr v) = s.setDie d { s.die d with
    hben := v.getLsbD 2, memscrub := v.getLsbD 1, scrub := v.getLsbD 0
    scrubint := if 16 ≤ bitsOf v.toNat 32 32 then BitVec.ofNat 32 (bitsOf v.toNat 32 32) else (s.die d).scrubint } := by
  simp [cisternPut, field_wholeWr, bit_wholeWr]

theorem cisternPut_hbint {d : Nat} (hd : d < 4) (data : List Byte) :
    Spec.DieBecomes s (cisternPut s d 0x0108 data (wholeWr v)) d { s.die d with lease := { (s.die d).lease with
      hbint := if 4096 ≤ bitsOf v.toNat 0 32 then BitVec.ofNat 32 (bitsOf v.toNat 0 32) else (s.die d).lease.hbint } } := by
  by_cases least : 4096 ≤ bitsOf v.toNat 0 32
  · simp [cisternPut, field_wholeWr, least, dieBecomes_setDie s hd]
  · have kept : cisternPut s d 0x0108 data (wholeWr v) = s := by simp [cisternPut, field_wholeWr, least]
    rw [kept, if_neg least]
    exact dieBecomes_refl s d

theorem cisternPut_aoreg (d : Nat) (data : List Byte) :
    Spec.DieBecomes s (cisternPut s d 0x0010 data (wholeWr v)) d
      { s.die d with aoreg := if d = 0 then BitVec.ofNat 32 (bitsOf v.toNat 0 32) else (s.die d).aoreg } := by
  by_cases first : d = 0
  · simp [cisternPut, field_wholeWr, first, dieBecomes_setDie s (d := 0)]
  · have kept : cisternPut s d 0x0010 data (wholeWr v) = s := by simp [cisternPut, first]
    rw [kept, if_neg first]
    exact dieBecomes_refl s d

theorem cisternPut_devst (s : State) (d : Nat) (data : List Byte) (w : RegWr) : cisternPut s d 0x0000 data w = s := rfl

theorem cisternPut_mcastctl (noDisc : v.getLsbD 0 = false) (noGo : v.getLsbD 1 = false) (d : Nat) (data : List Byte) :
    cisternPut s d 0x9000 data (wholeWr v) = s.setDie d { s.die d with mcast := { (s.die d).mcast with
      len := BitVec.ofNat 19 (bitsOf v.toNat 27 19), offset := BitVec.ofNat 18 (bitsOf v.toNat 9 18) } } := by
  have disc : (wholeWr v).hit 0 = false := (hit_wholeWr (by decide)).trans noDisc
  have go : (wholeWr v).hit 1 = false := (hit_wholeWr (by decide)).trans noGo
  simp [cisternPut, field_wholeWr, disc, go, mcastFields]

theorem cisternWord_pkgmir (s : State) (d : Nat) :
    cisternWord s d 8 = (if s.hostif.regs.pkgidValid = true then 1 else 0) * 2 ^ 15 + s.hostif.regs.pkgid.toNat := rfl

theorem ctlWord_pkgmir (s : State) {d : Nat} (hd : d < 4) : ctlWord s (2 ^ 32 * d + 8) = cisternWord s d 8 := by
  have die : (2 ^ 32 * d + 8) / 2 ^ 32 = d := by omega
  have offset : (2 ^ 32 * d + 8) % 2 ^ 32 = 8 := by omega
  have inWindow : 8 < 0x01000000 := by decide
  simp only [ctlWord, die, offset, if_neg (Nat.not_le.mpr hd), if_pos inWindow]

theorem ctlRead_pkgmir (s : State) {d : Nat} (hd : d < 4) :
    ctlRead s (2 ^ 32 * d + 8) 8 = (if s.hostif.regs.pkgidValid = true then 2 ^ 15 else 0) + s.hostif.regs.pkgid.toNat := by
  have word : (2 ^ 32 * d + 8) / 8 * 8 = 2 ^ 32 * d + 8 := by omega
  have whole : (2 ^ 32 * d + 8) % 8 = 0 := by omega
  have small := s.hostif.regs.pkgid.isLt
  rw [ctlRead, readWords, word, whole, ctlWord_pkgmir s hd, cisternWord_pkgmir, bitsOf]
  split <;> omega

/-! ## The MSI-X table -/

theorem unmask_of_clear {h : HostIf} {x : BitVec 8} (clear : h.pba &&& (1 : BitVec 8) <<< (x.toNat % 8) = 0) : h.unmask x = h :=
  if_neg fun pending => pending.1 clear

/-- Vector `i` is no longer pending, and is raised. -/
def HostIf.raisedOne (h : HostIf) (i : Nat) : HostIf := { h with pba := 0, raised := h.raised ++ [BitVec.ofNat 8 i] }

theorem bit_vector : ∀ i, i < 8 → ((1 : BitVec 8) <<< i &&& (1 : BitVec 8) <<< ((BitVec.ofNat 8 i).toNat % 8) ≠ 0
    ∧ (1 : BitVec 8) <<< i &&& ~~~((1 : BitVec 8) <<< ((BitVec.ofNat 8 i).toNat % 8)) = 0) := by decide

theorem bit_apart : ∀ i, i < 8 → ∀ j, j < 8 → i ≠ j → (1 : BitVec 8) <<< i &&& (1 : BitVec 8) <<< ((BitVec.ofNat 8 j).toNat % 8) = 0 := by decide

theorem unmask_pending {h : HostIf} {i : Nat} (hi : i < 8) (pending : h.pba = (1 : BitVec 8) <<< i) (clear : h.masked (BitVec.ofNat 8 i) = false) :
    h.unmask (BitVec.ofNat 8 i) = h.raisedOne i := by
  obtain ⟨set, gone⟩ := bit_vector i hi
  rw [HostIf.unmask, if_pos ⟨by rwa [pending], clear⟩, pending, gone, HostIf.raisedOne]

/-- Only the vector that is pending is raised. -/
theorem foldl_unmask {h : HostIf} {i : Nat} (hi : i < 8) (pending : h.pba = (1 : BitVec 8) <<< i) (clear : h.masked (BitVec.ofNat 8 i) = false)
    (n : Nat) (hn : n ≤ 8) :
    (List.range n).foldl (fun h i => h.unmask (BitVec.ofNat 8 i)) h = if i < n then h.raisedOne i else h := by
  induction n with
  | zero => rfl
  | succ n ih =>
    rw [List.range_succ, List.foldl_append, ih (by omega), List.foldl_cons, List.foldl_nil]
    rcases Nat.lt_trichotomy i n with before | here | after
    · rw [if_pos before, if_pos (by omega)]
      exact unmask_of_clear (BitVec.zero_and ..)
    · subst here
      rw [if_neg (Nat.lt_irrefl i), if_pos (Nat.lt_succ_self i), unmask_pending hi pending clear]
    · rw [if_neg (by omega), if_neg (by omega)]
      exact unmask_of_clear (by rw [pending, bit_apart i hi n (by omega) (by omega)])

/-- The host side after a write of `n` to the control word of vector `i`. -/
def HostIf.putControl (h : HostIf) (i n : Nat) : HostIf := { h with msix := writeLE h.msix (12 + 16 * i) 4 n }

theorem masked_putControl {h : HostIf} (wf : h.msix.wf = true) {i : Nat} (hi : i < 8) (v : Word) :
    (h.putControl i v.toNat).masked (BitVec.ofNat 8 i) = v.getLsbD 0 := by
  have vector : (BitVec.ofNat 8 i).toNat % 8 = i := by rw [BitVec.toNat_ofNat]; omega
  have first : 16 * i + 12 = 12 + 16 * i := by omega
  rw [HostIf.masked, vector, first, HostIf.putControl, readByte_writeLE wf, if_pos ⟨Nat.le_refl _, by omega⟩]
  simp

theorem bar0Write_msixControl (ready : s.hostif.regs.ready = true) {i : Nat} (hi : i < 8) (n : Nat) :
    bar0Write s (0x80000C + 16 * i) 4 n = { s with
      hostif := (List.range 8).foldl (fun h i => h.unmask (BitVec.ofNat 8 i)) (s.hostif.putControl i n) } := by
  have whole : (0x80000C + 16 * i) % 4 = 0 := by omega
  have beyondGlobal : ¬ (0x80000C + 16 * i) / 8 * 8 < 0x10000 := by omega
  have beyondCtx : ¬ (0x80000C + 16 * i) / 8 * 8 < 0x10000 + 128 * 64 := by omega
  have beyondQueue : ¬ (0x20000 ≤ (0x80000C + 16 * i) / 8 * 8 ∧ (0x80000C + 16 * i) / 8 * 8 < 0x20000 + 64 * 256) := by omega
  have inside : 0x800000 ≤ (0x80000C + 16 * i) / 8 * 8 ∧ (0x80000C + 16 * i) / 8 * 8 < 0x800080 := by omega
  have offset : 0x80000C + 16 * i - 0x800000 = 12 + 16 * i := by omega
  simp only [bar0Write, whole, ready, offset, if_neg beyondGlobal, if_neg beyondCtx, if_neg beyondQueue, if_pos inside]
  simp [HostIf.putControl]

theorem msixControl_raises (ready : s.hostif.regs.ready = true) (wf : s.hostif.msix.wf = true) {i : Nat} (hi : i < 8)
    (unmasks : v.getLsbD 0 = false) (pending : s.hostif.pba = (1 : BitVec 8) <<< i) :
    ∃ t, exec (.registerWrite true (0x80000C + 16 * i) 4 v) s = .next t
      ∧ Spec.HostBecomes s t { s.hostif with msix := t.hostif.msix, pba := 0, raised := s.hostif.raised ++ [BitVec.ofNat 8 i] } := by
  have raised := foldl_unmask (h := s.hostif.putControl i v.toNat) hi pending
    ((masked_putControl wf hi v).trans unmasks) 8 (Nat.le_refl 8)
  rw [exec_hostWrite, bar0Write_msixControl ready hi, raised, if_pos hi]
  exact ⟨_, rfl, rfl⟩

end

/-- Settles O47: each register by the field its write changes, the rest of its window by the frame of the table it stands in. -/
theorem registerWrites : Obligations.RegisterWrites := by
  unfold Obligations.RegisterWrites Claims.RegisterWrites
  intro s v
  refine ⟨fun o size h => ?_, fun off => ?_, fun on => ?_, ?_, ?_, ?_, ?_, fun closed o size h => ?_, fun ready n hn => ⟨fun free => ?_, fun held o ho => ?_⟩,
    fun ready n hn => ?_, fun d hd => ⟨?_, ?_, ?_, ?_, fun noDisc noGo => ?_, ctlRead_pkgmir s hd⟩, fun ready wf i hi unmasks pending => ?_,
    fun o size hsize aligned => ⟨_, exec_ctlWrite ⟨hsize, aligned⟩, rfl⟩⟩
  · exact congrArg Host.Outcome.next (bar0Write_unaligned h)
  · exact hostWrite_hostBecomes (by decide) (by decide) (globalPut_evbase off)
  · exact ⟨s, congrArg Host.Outcome.next ((bar0Write_global (by decide) (by decide)).trans (globalPut_evbase_on on)), rfl⟩
  · exact hostWrite_hostBecomes (by decide) (by decide) globalPut_evctl
  · exact hostWrite_hostBecomes (by decide) (by decide) globalPut_evtail
  · exact hostWrite_hostBecomes (by decide) (by decide) globalPut_biasaddr
  · exact hostWrite_hostBecomes (by decide) (by decide) globalPut_pwrlim
  · exact congrArg Host.Outcome.next (bar0Write_closed closed h)
  · obtain ⟨root, rows, tag, reach, save, pool, pasid, post, sup⟩ := putWord_free (v := v) free
    have writes {o : Nat} {c : Ctx} := hostWrite_ctxBecomes (v := v) (o := o) (c := c) ready hn
    exact ⟨writes (by decide) (by decide) (by decide) root, writes (by decide) (by decide) (by decide) rows,
      writes (by decide) (by decide) (by decide) tag, writes (by decide) (by decide) (by decide) reach,
      writes (by decide) (by decide) (by decide) save, writes (by decide) (by decide) (by decide) pool,
      writes (by decide) (by decide) (by decide) pasid, writes (by decide) (by decide) (by decide) post,
      writes (by decide) (by decide) (by decide) sup⟩
  · have inBlock : o % 8 = 0 ∧ o < 128 ∧ o ≠ 0x38 ∧ o ≠ 0x30 := by
      revert o
      decide
    obtain ⟨aligned, small, notCtl, notRate⟩ := inBlock
    exact hostWrite_ctxBecomes ready hn aligned small notCtl (putWord_held held notRate _)
  · refine ⟨_, (exec_hostWrite _ _).trans (congrArg Host.Outcome.next (bar0Write_queue ready hn)), ?_⟩
    rw [queuePut, if_pos rfl, field_wholeWr (by decide)]
    exact queueBecomes_setQueue s n _
  · exact cisternWrite_dieBecomes hd (by decide) (by decide) (cisternPut_scrub (v := v) s d _ ▸ dieBecomes_setDie s hd _)
  · exact cisternWrite_dieBecomes hd (by decide) (by decide) (cisternPut_hbint hd _)
  · exact cisternWrite_dieBecomes hd (by decide) (by decide) (cisternPut_aoreg d _)
  · exact ⟨s, (exec_cisternWrite hd (by decide) (by decide)).trans (congrArg Host.Outcome.next (cisternPut_devst s d _ _)), rfl⟩
  · exact cisternWrite_dieBecomes hd (by decide) (by decide) (cisternPut_mcastctl noDisc noGo d _ ▸ dieBecomes_setDie s hd _)
  · exact msixControl_raises ready wf hi unmasks pending

end Sys2Proof.Machine

/-! # Every hart stays legal (O58)

One lemma per operation of the model: from a state whose harts are legal it leaves one. An update outside the table of harts is
`hartsLegal_of_harts`; an update of one hart is `setHartOf_legal` with the hart's own lemma. The step follows as the last of them. -/

namespace Sys2Proof.Machine

open Spec (HartsLegal)

/-! ## Legal harts -/

/-- A shape that `vshape` grants (R23). -/
def Shape.Legal (p : Shape) : Prop :=
  p.sew.toNat ≤ 3 ∧ (p.vrows = 1 ∨ p.vrows = 2 ∨ p.vrows = 4 ∨ p.vrows = 8) ∧ p.vl.toNat ≤ 4096 / 2 ^ (3 + p.sew.toNat)

/-- x0 is zero and the shape is one that `vshape` grants (R19, R23). -/
def Hart.Legal (h : Hart) : Prop := h.x.get 0 = 0 ∧ h.shape.Legal

theorem hartsLegal_iff {s : State} : HartsLegal s ↔ ∀ k, (s.hartOf k).Legal := Iff.rfl

section

variable {h : Hart}

/-- Positions and slip of a shape do not bear on its being granted. -/
theorem Shape.Legal.of_eq {p q : Shape} (hp : p.Legal) (hs : q.sew = p.sew) (hr : q.vrows = p.vrows) (hl : q.vl = p.vl) : q.Legal := by
  unfold Shape.Legal
  rw [hs, hr, hl]
  exact hp

/-- An update of a hart that leaves its x registers and what `vshape` grants. -/
theorem Hart.Legal.of_eq {g : Hart} (hh : h.Legal) (hx : g.x = h.x) (hs : g.shape.sew = h.shape.sew) (hr : g.shape.vrows = h.shape.vrows)
    (hl : g.shape.vl = h.shape.vl) : g.Legal :=
  ⟨hx ▸ hh.1, hh.2.of_eq hs hr hl⟩

theorem Hart.Legal.setX (hh : h.Legal) (r v) : (h.setX r v).Legal := by
  refine ⟨?_, by rw [Hart.setX_shape]; exact hh.2⟩
  unfold Hart.setX
  split
  · exact hh.1
  · next hr =>
    have ne : r.toNat ≠ 0 := fun e => hr (BitVec.eq_of_toNat_eq e)
    exact (Vector.getElem_set_ne r.isLt (by decide) ne).trans hh.1

theorem Hart.Legal.setRow (hh : h.Legal) (n r) : (h.setRow n r).Legal := hh

theorem Hart.Legal.setMask (hh : h.Legal) (n m) : (h.setMask n m).Legal := by
  unfold Hart.setMask
  split <;> exact hh

theorem Hart.Legal.setPc (hh : h.Legal) (l p) : (h.setPc l p).Legal := by
  unfold Hart.setPc
  split <;> exact hh

theorem Hart.Legal.running (hh : h.Legal) : h.running.Legal := hh

theorem Hart.Legal.waitOn (hh : h.Legal) (r t p) : (h.waitOn r t p).Legal := hh

theorem Hart.Legal.orFlags (hh : h.Legal) (f) : (h.orFlags f).Legal := hh

theorem Hart.Legal.setPin (hh : h.Legal) (n p) : (h.setPin n p).Legal := hh

theorem Hart.Legal.enterS (hh : h.Legal) (c tval epc restart) : (h.enterS c tval epc restart).Legal := hh

theorem Hart.Legal.enterM (hh : h.Legal) (c tval epc restart) : (h.enterM c tval epc restart).Legal := by
  unfold Hart.enterM
  dsimp only
  split <;> exact hh

theorem Hart.Legal.returnS (hh : h.Legal) : h.returnS.Legal := hh

theorem Hart.Legal.returnM (hh : h.Legal) : h.returnM.Legal := hh

theorem Hart.Legal.setElem (hh : h.Legal) (n w j i v) : (h.setElem n w j i v).Legal := hh

theorem Hart.Legal.setMaskBit (hh : h.Legal) (n j i b) : (h.setMaskBit n j i b).Legal := hh.setMask _ _

/-- A fold of an operation on a hart that keeps it legal. -/
theorem foldl_hart_legal {α : Type} {f : Hart → α → Hart} (hf : ∀ g a, g.Legal → (f g a).Legal) (l : List α) (hh : h.Legal) :
    (l.foldl f h).Legal := List.foldlRecOn l f hh fun g hg a _ => hf g a hg

theorem Hart.Legal.putElems (hh : h.Legal) (n w ps f) : (h.putElems n w ps f).Legal :=
  foldl_hart_legal (fun _ _ hg => hg.setElem ..) ps hh

theorem Hart.Legal.putMask (hh : h.Legal) (n ps f) : (h.putMask n ps f).Legal :=
  foldl_hart_legal (fun _ _ hg => hg.setMaskBit ..) ps hh

theorem Hart.Legal.putReg (hh : h.Legal) (n v m) : (h.putReg n v m).Legal := by
  unfold Hart.putReg
  split <;> exact hh

theorem Shape.reset_legal : Shape.reset.Legal := ⟨by decide, .inl rfl, by decide⟩

theorem Hart.reset_legal : Hart.reset.Legal := ⟨rfl, Shape.reset_legal⟩

theorem Hart.resetM_legal (r) : (Hart.resetM r).Legal := Hart.reset_legal

theorem hartAtReset_legal (k) : (hartAtReset k).Legal := reset_hartsLegal k

/-- A task starts with x0 zero and the shape of reset (R18). -/
theorem Hart.atStart_legal (h : Hart) (c ch t) : (h.atStart c ch t).Legal :=
  ⟨Vector.getElem_ofFn (by decide), Shape.reset_legal⟩

theorem Hart.ended_legal (h : Hart) (r) : (h.ended r).Legal := Hart.reset_legal

end

section

variable {s : State}

theorem Spec.HartsLegal.hart (hs : HartsLegal s) (k : Nat) : (s.hartOf k).Legal := hs k

theorem Spec.HartsLegal.h (hs : HartsLegal s) : s.h.Legal := hs s.cur

/-- An update of anything but the harts leaves them legal. -/
theorem hartsLegal_of_harts {t : State} (hs : HartsLegal s) (e : t.harts = s.harts) : HartsLegal t := by
  unfold Spec.HartsLegal State.hartOf
  rw [e]
  exact hs

/-- A map over the table of harts that keeps the keys and takes legal harts to legal harts. -/
theorem smGet_map_legal {g : Nat × Hart → Nat × Hart} {d : Hart} {k : Nat} {m : SMap Hart} (key : ∀ e, (g e).1 = e.1)
    (keeps : ∀ e, e.2.Legal → (g e).2.Legal) (hd : d.Legal) (hm : (smGet d k m).Legal) : (smGet d k (m.map g)).Legal := by
  induction m with
  | nil => exact hd
  | cons e r ih =>
    obtain ⟨j, h⟩ := e
    have pair : g (j, h) = (j, (g (j, h)).2) := Prod.ext (key (j, h)) rfl
    rw [List.map_cons, pair]
    unfold smGet at hm ⊢
    by_cases e : j = k
    · rw [if_pos e] at hm ⊢
      exact keeps (j, h) hm
    · rw [if_neg e] at hm ⊢
      exact ih hm

theorem withFreeCtr_legal (hs : HartsLegal s) (n) : HartsLegal { s with freeCtr := n } := hs

theorem setCoreOf_legal (hs : HartsLegal s) (k : Nat) (c : Core) : HartsLegal (s.setCoreOf k c) := hs

theorem setC_legal (hs : HartsLegal s) (c : Core) : HartsLegal (s.setC c) := hs

theorem setHartOf_legal (hs : HartsLegal s) (k : Nat) {v : Hart} (hv : v.Legal) : HartsLegal (s.setHartOf k v) := by
  intro j
  show (smGet (hartAtReset j) j (smSet k v s.harts)).Legal
  by_cases e : j = k
  · rw [e, smGet_smSet_self]; exact hv
  · rw [smGet_smSet_ne _ _ e]; exact hs j

theorem setH_legal (hs : HartsLegal s) {v : Hart} (hv : v.Legal) : HartsLegal (s.setH v) := setHartOf_legal hs _ hv

theorem setDie_legal (hs : HartsLegal s) (d : Nat) (v : Die) : HartsLegal (s.setDie d v) := hs

theorem setBasin_legal (hs : HartsLegal s) (b : Nat) (v : Basin) : HartsLegal (s.setBasin b v) := hs

theorem setCtx_legal (hs : HartsLegal s) (n : Nat) (v : Ctx) : HartsLegal (s.setCtx n v) := hs

theorem setQueue_legal (hs : HartsLegal s) (n : Nat) (v : Queue) : HartsLegal (s.setQueue n v) := hs

theorem mapBasins_legal (hs : HartsLegal s) (f : Basin → Basin) : HartsLegal (s.mapBasins f) := hs

theorem setRing_legal (hs : HartsLegal s) (r : EventRing) : HartsLegal (s.setRing r) := hs

/-! ## Tables of cores and folds -/

/-- A fold of an operation that keeps the harts legal. -/
theorem foldl_legal {α : Type} {f : State → α → State} (hf : ∀ u a, HartsLegal u → HartsLegal (f u a)) (l : List α) :
    ∀ {s : State}, HartsLegal s → HartsLegal (l.foldl f s) := by
  induction l with
  | nil => exact fun hs => hs
  | cons a r ih => exact fun hs => ih (hf _ a hs)

/-! ## What an operation answers -/

/-- A next state has legal harts. -/
def OutLegal : Out → Prop
  | .next t => HartsLegal t
  | _ => True

@[simp] theorem outLegal_next (t : State) : OutLegal (.next t) ↔ HartsLegal t := Iff.rfl

/-- The state in which an operation fails, with a trap or another fault, and the state that `f` reads off its result have legal harts. -/
def ResLegal {ε α : Type} (f : α → State) : Except (State × ε) α → Prop
  | .error e => HartsLegal e.1
  | .ok a => HartsLegal (f a)

@[simp] theorem resLegal_error {ε α : Type} (f : α → State) (e : State × ε) :
    ResLegal f (.error e : Except (State × ε) α) ↔ HartsLegal e.1 := Iff.rfl

@[simp] theorem resLegal_ok {ε α : Type} (f : α → State) (a : α) :
    ResLegal f (.ok a : Except (State × ε) α) ↔ HartsLegal (f a) := Iff.rfl

/-! ## Registers, traps and retiring -/

theorem setX_legal (hs : HartsLegal s) (r) (v) : HartsLegal (s.setX r v) := by
  unfold State.setX
  split
  · exact setH_legal hs (hs.h.setX r v)
  · split
    · exact hs
    · exact setH_legal hs (hs.h.setRow ..)

theorem waiting_legal (hs : HartsLegal s) (reason) (tag) (peer) : OutLegal (waiting s reason tag peer) := setH_legal hs (hs.h.waitOn ..)

theorem failDie_legal (hs : HartsLegal s) (d) (code) : HartsLegal (s.failDie d code) := hs

theorem bootTrap_legal (hs : HartsLegal s) : HartsLegal s.bootTrap := by
  unfold State.bootTrap
  grind [failDie_legal]

theorem afterHalt_legal (hs : HartsLegal s) : HartsLegal s.afterHalt := by
  unfold State.afterHalt
  grind [setC_legal, Core.clearBoot]

theorem takeTrapAt_legal (hs : HartsLegal s) (epc) (t) (forceM) : HartsLegal (takeTrapAt s epc t forceM) := by
  have left : HartsLegal { s.setC (s.c.leaveWaits s.hartNo) with lane := none } := hs
  have hh : ∀ l, Hart.Legal { s.h with shape := { s.h.shape with vstop := l } } := fun _ => hs.h
  unfold takeTrapAt
  grind [setH_legal, bootTrap_legal, afterHalt_legal, mapBasins_legal, Hart.Legal.enterS, Hart.Legal.enterM, Spec.HartsLegal.h]

theorem takeTrap_legal (hs : HartsLegal s) (t) : HartsLegal (takeTrap s t) := takeTrapAt_legal hs _ t _

theorem raise_legal (hs : HartsLegal s) (t) : OutLegal (raise s t) := takeTrap_legal hs t

theorem retire_legal (hs : HartsLegal s) : HartsLegal (retire s) := by
  refine setH_legal hs (Hart.Legal.setPc ?_ _ _)
  exact hs.h

theorem finish_legal (hs : HartsLegal s) : OutLegal (finish s) := retire_legal hs

theorem out_legal {r : Res State} (hr : ResLegal id r) : OutLegal r.out :=
  match r with
  | .ok _ => finish_legal hr
  | .error (_, t) => raise_legal hr t

theorem retireEnd_legal (hs : HartsLegal s) (target) : HartsLegal (retireEnd s target) := by
  have ended : ∀ ck, HartsLegal (s.setH ({ s.h.running with checker := ck }.setPc s.lane target)) :=
    fun ck => setH_legal hs (Hart.Legal.setPc (h := { s.h.running with checker := ck }) hs.h _ _)
  unfold retireEnd
  grind [takeTrapAt_legal]

theorem finishEnd_legal (hs : HartsLegal s) (target) : OutLegal (finishEnd s target) := retireEnd_legal hs target

theorem orFlags_legal (hs : HartsLegal s) (f) : HartsLegal (s.orFlags f) := setH_legal hs (hs.h.orFlags f)

/-! ## Events, writes and stores on their way -/

theorem placeRecord_legal (hs : HartsLegal s) (seq) (bytes) : HartsLegal (placeRecord s seq bytes) := by
  obtain ⟨m, r, raised, pba, e⟩ := placeRecord_frame s seq bytes
  rw [e]
  exact hs

theorem emit_legal (hs : HartsLegal s) (type ctx queue a b c) : HartsLegal (s.emit type ctx queue a b c) :=
  hartsLegal_of_harts hs (emit_harts ..)

theorem placeWaiting_legal (hs : HartsLegal s) : HartsLegal (placeWaiting s) :=
  foldl_legal (fun _ e hu => placeRecord_legal hu e.1 e.2) _ (setRing_legal hs _)

theorem devWrite_legal (hs : HartsLegal s) (writer) (pa) (data) : HartsLegal (devWrite s writer pa data) := hs

theorem hostWrite_legal (hs : HartsLegal s) (agent a) (data) : HartsLegal (hostWrite s agent a data) := by
  unfold hostWrite
  grind [emit_legal, hartsLegal_of_harts]

theorem performStore_legal (hs : HartsLegal s) (agent) (p) : HartsLegal (performStore s agent p) :=
  hartsLegal_of_harts hs (performStore_harts ..)

theorem performWhere_legal (hs : HartsLegal s) (agent) (f) : HartsLegal (performWhere s agent f) :=
  hartsLegal_of_harts hs (performWhere_harts ..)

theorem flushDev_legal (hs : HartsLegal s) (agent) : HartsLegal (flushDev s agent) := performWhere_legal hs agent _

theorem flushAll_legal (hs : HartsLegal s) (agent) : HartsLegal (flushAll s agent) := performWhere_legal hs agent _

theorem hostSync_legal (hs : HartsLegal s) (agent) : HartsLegal (hostSync s agent) := performWhere_legal hs agent _

theorem bypass_legal (hs : HartsLegal s) (agent pa n) : HartsLegal (bypass s agent pa n) := by
  unfold bypass
  grind [setCoreOf_legal, performWhere_legal]

theorem fillLine_legal (hs : HartsLegal s) (agent pa) : HartsLegal (fillLine s agent pa) := by
  unfold fillLine
  grind [setCoreOf_legal, performWhere_legal]

/-! ## Translation and fetch -/

theorem walkUpdate_legal (hs : HartsLegal s) (p acc) : HartsLegal (walkUpdate s p acc) := by
  unfold walkUpdate
  grind [devWrite_legal]

theorem translate_legal (hs : HartsLegal s) (agent va acc user l2only) {x : Xlat} {t : State}
    (e : translate s agent va acc user l2only = .ok (x, t)) : HartsLegal t := by
  unfold translate at e
  grind [setCoreOf_legal, setBasin_legal, walkUpdate_legal]

theorem setLines_legal (hs : HartsLegal s) (l) : HartsLegal (s.setLines l) := hs

theorem fetchDev_legal (hs : HartsLegal s) (va pa io) : ResLegal Prod.snd (fetchDev s va pa io) := by
  unfold fetchDev
  grind [setLines_legal, resLegal_ok, resLegal_error]

theorem fetchLoc_legal (hs : HartsLegal s) (va loc io) : ResLegal Prod.snd (fetchLoc s va loc io) := by
  unfold fetchLoc
  grind [fetchDev_legal, hostSync_legal, resLegal_ok, resLegal_error]

theorem fetchAt_legal (hs : HartsLegal s) (va) : ResLegal Prod.snd (fetchAt s va) := by
  unfold fetchAt
  grind [fetchLoc_legal, translate_legal, resLegal_ok, resLegal_error]

theorem fetch_legal (hs : HartsLegal s) : ResLegal Prod.snd (fetch s) := fetchAt_legal hs _

/-! ## Convoys -/

theorem vdone_legal (hs : HartsLegal s) (cv) : HartsLegal (s.vdone cv) := by
  refine setH_legal hs ?_
  exact hs.h

theorem refuseConvoy_legal (hs : HartsLegal s) (addr) : OutLegal (refuseConvoy s addr) := by
  refine raise_legal (setH_legal hs ?_) _
  exact hs.h

theorem vecOp_legal (hs : HartsLegal s) {c check} {eff : State → State} (he : ∀ u, HartsLegal u → HartsLegal (eff u)) :
    OutLegal (vecOp s c check eff) := by
  obtain ⟨t, -, e⟩ | ⟨-, a, -, e⟩ | ⟨-, cv, -, e⟩ := vecOp_cases s c check eff
  · rw [e]; exact raise_legal hs t
  · rw [e]; exact refuseConvoy_legal hs a
  · rw [e]; exact finish_legal (vdone_legal (he s hs) cv)

/-! ## Tasks -/

theorem startTask_legal (hs : HartsLegal s) (site) : HartsLegal (startTask s site) := by
  unfold startTask
  grind [setHartOf_legal, setCoreOf_legal, Hart.atStart_legal]

theorem noteFree_legal (hs : HartsLegal s) (site ch) : HartsLegal (noteFree s site ch) := by
  unfold noteFree
  grind [setBasin_legal]

theorem noteCleared_legal (hs : HartsLegal s) (before site) : HartsLegal (noteCleared before s site) :=
  foldl_legal (fun u ch hu => by split <;> [exact hu; exact noteFree_legal hu site ch]) _ hs

theorem endTask_legal (hs : HartsLegal s) (k) : HartsLegal (endTask s k) := by
  unfold endTask
  grind [setHartOf_legal, setCoreOf_legal, mapBasins_legal, noteFree_legal, Hart.ended_legal]

theorem passCycles_legal (hs : HartsLegal s) (k n) : HartsLegal (passCycles s k n) := by
  unfold passCycles
  dsimp only
  split
  · exact setHartOf_legal hs k (hs.hart k)
  · exact hs

theorem budgetTrap_legal (hs : HartsLegal s) : HartsLegal (budgetTrap s) := by
  have rearmed (u : State) (hu : HartsLegal u) (w : WaitState) : HartsLegal (u.setH { u.h with wait := w }) :=
    setH_legal hu (hu.h.of_eq rfl rfl rfl rfl)
  unfold budgetTrap
  exact rearmed _ (takeTrapAt_legal hs _ _ _) _

theorem asyncTurn_legal (hs : HartsLegal s) {t : State} (e : asyncTurn s = some t) : HartsLegal t := by
  have taken : ∀ ps, HartsLegal (s.setH { s.h with pending := ps }) := fun _ => setH_legal hs hs.h
  unfold asyncTurn at e
  grind [takeTrap_legal, budgetTrap_legal]

/-- An operation of one hart done for another. -/
theorem atHart_legal (hs : HartsLegal s) (k) {f : State → State} (hf : ∀ u, HartsLegal u → HartsLegal (f u)) : HartsLegal (s.atHart k f) :=
  hf { s with cur := k } hs

/-! ## Save records -/

theorem writeRecord_legal (hs : HartsLegal s) (cx v) (c : Core) : HartsLegal (writeRecord s cx v c) := hs

theorem onRecord_legal (hs : HartsLegal s) (n cx v) (f : Core → Core) : HartsLegal (onRecord s n cx v f) := hs

/-! ## Messages -/

theorem fly_legal (hs : HartsLegal s) (cls fl) : HartsLegal (s.fly cls fl) := by
  unfold State.fly
  grind [hartsLegal_of_harts]

theorem setSpray_legal (hs : HartsLegal s) (d sp) : HartsLegal (s.setSpray d sp) := hs

theorem sprayMessage_legal (hs : HartsLegal s) (site cls m) {t : State} (e : sprayMessage s site cls m = some t) : HartsLegal t := by
  unfold sprayMessage at e
  grind [setSpray_legal, fly_legal]

theorem hand_legal (hs : HartsLegal s) (site m) {t : State} (e : hand s site m = some t) : HartsLegal t := by
  unfold hand at e
  grind [sprayMessage_legal, hartsLegal_of_harts]

theorem atSite_legal (hs : HartsLegal s) (v) (f : Core → Core) : HartsLegal (atSite s v f) := by
  unfold atSite
  split <;> exact hs

theorem arrive_legal (hs : HartsLegal s) (m) : HartsLegal (arrive s m) := by
  unfold arrive
  grind [setDie_legal, atSite_legal, onRecord_legal]

theorem partDone_legal (hs : HartsLegal s) (m) : HartsLegal (partDone s m) := by
  unfold partDone
  grind [setCoreOf_legal]

theorem recordLoss_legal (hs : HartsLegal s) (me peer kind tag ctag atEnd) : HartsLegal (recordLoss s me peer kind tag ctag atEnd) := by
  unfold recordLoss
  grind [emit_legal, setCtx_legal, atSite_legal]

theorem pend_legal (hs : HartsLegal s) (k cause tval) : HartsLegal (s.pend k cause tval) := by
  refine setHartOf_legal hs k ?_
  exact hs.hart k

theorem lostAtSender_legal (hs : HartsLegal s) (m) : HartsLegal (lostAtSender s m) := by
  unfold lostAtSender
  grind [setCoreOf_legal, setSpray_legal, recordLoss_legal, pend_legal]

theorem lostAtReceiver_legal (hs : HartsLegal s) (src dst kind tag ctag) : HartsLegal (lostAtReceiver s src dst kind tag ctag) := by
  unfold lostAtReceiver
  grind [setCoreOf_legal, pend_legal, recordLoss_legal, onRecord_legal]

/-! ## Nodes and sites -/

theorem nodePost_legal (hs : HartsLegal s) (basin slot target) : HartsLegal (nodePost s basin slot target).2 := by
  unfold nodePost
  grind [setCoreOf_legal, setBasin_legal]

theorem postNode_legal (hs : HartsLegal s) (basin slot target) : HartsLegal (postNode s basin slot target) :=
  setBasin_legal (nodePost_legal hs basin slot target) _ _

theorem popEvent_legal (hs : HartsLegal s) (basin) : HartsLegal (popEvent s basin) := hs

theorem setRemap_legal (hs : HartsLegal s) (d v e) : HartsLegal (setRemap s d v e) := hs

theorem putSiteAsg_legal (hs : HartsLegal s) (site a) : HartsLegal (putSiteAsg s site a) := by
  unfold putSiteAsg
  grind [setCoreOf_legal, setRemap_legal]

theorem siteGo_legal (hs : HartsLegal s) (site pc) : HartsLegal (siteGo s site pc) := by
  refine setHartOf_legal (setCoreOf_legal hs site _) _ ?_
  exact hs.hart _

theorem siteClr_legal (hs : HartsLegal s) (site) : HartsLegal (siteClr s site) := by
  unfold siteClr
  grind [setCoreOf_legal]

theorem mcastSettle_legal (hs : HartsLegal s) (d) : HartsLegal (mcastSettle s d) := by
  unfold mcastSettle
  grind [setDie_legal]

theorem mcastFields_legal (hs : HartsLegal s) (d len offset) : HartsLegal (mcastFields s d len offset) := hs

theorem mcastGo_legal (hs : HartsLegal s) (d) : HartsLegal (mcastGo s d) := by
  unfold mcastGo
  grind [setDie_legal, mcastSettle_legal]

theorem mcastWrite_legal (hs : HartsLegal s) (d site) : HartsLegal (mcastWrite s d site) := by
  unfold mcastWrite
  grind [setCoreOf_legal, setDie_legal, mcastSettle_legal]

theorem floodStart_legal (hs : HartsLegal s) (d) : HartsLegal (floodStart s d) := hs

theorem floodReport_legal (hs : HartsLegal s) (d site) : HartsLegal (floodReport s d site) := by
  unfold floodReport
  grind [setDie_legal]

/-! ## The repair log -/

theorem logUpdate_legal (hs : HartsLegal s) : HartsLegal (logUpdate s) := by
  unfold logUpdate
  split
  · exact hs
  · exact foldl_legal (fun _ _ hu => devWrite_legal (devWrite_legal hu _ _ _) _ _ _) _ (setDie_legal hs _ _)

theorem keepLog_legal (s : State) {t : State} (ht : HartsLegal t) : HartsLegal (keepLog s t) := by
  unfold keepLog
  grind [logUpdate_legal]

theorem logged_legal (s : State) {o : Out} (ho : OutLegal o) : OutLegal (logged s o) := by
  unfold logged
  split
  · exact keepLog_legal s ho
  · exact ho

/-- A fold of updates of listed harts by an operation that keeps a hart legal. -/
theorem setHarts_legal (f : Hart → Hart) (hf : ∀ h, h.Legal → (f h).Legal) (l : List Nat) (hs : HartsLegal s) :
    HartsLegal (l.foldl (fun s k => s.setHartOf k (f (s.hartOf k))) s) :=
  foldl_legal (fun _ k hu => setHartOf_legal hu k (hf _ (hu.hart k))) l hs

theorem setMtvec_legal (hs : HartsLegal s) (site) : HartsLegal (setMtvec s site) := by
  unfold setMtvec
  exact setHarts_legal (fun h => { h with trap := { h.trap with mtvec := BitVec.ofNat 64 (coreFirmwareAt (site / 1024)) } })
    (fun _ hh => hh.of_eq rfl rfl rfl rfl) _ hs

theorem resetSite_legal (hs : HartsLegal s) (site) : HartsLegal (resetSite s site) := by
  refine setMtvec_legal (foldl_legal (fun u k hu => setHartOf_legal hu k ?_) _ ?_) site
  · exact Hart.reset_legal
  · exact setCoreOf_legal hs site _

/-! ## Control space -/

theorem sitePut_legal (hs : HartsLegal s) (site addr data w) : HartsLegal (sitePut s site addr data w) := by
  have vector (k m) : HartsLegal (s.setHartOf k { s.hartOf k with trap := { (s.hartOf k).trap with mtvec := m } }) :=
    setHartOf_legal hs k ((hs.hart k).of_eq rfl rfl rfl rfl)
  unfold sitePut
  grind [setCoreOf_legal, noteCleared_legal, putSiteAsg_legal, siteGo_legal, siteClr_legal]

theorem cisternPut_legal (hs : HartsLegal s) (d addr data w) : HartsLegal (cisternPut s d addr data w) := by
  unfold cisternPut
  grind [setCoreOf_legal, setDie_legal, setSpray_legal, mcastFields_legal, mcastGo_legal, floodStart_legal]

theorem basinPut_legal (hs : HartsLegal s) (b addr w) : HartsLegal (basinPut s b addr w) := by
  unfold basinPut
  grind [setBasin_legal, postNode_legal, popEvent_legal]

theorem ctlWrite_legal (hs : HartsLegal s) (off size v) : HartsLegal (ctlWrite s off size v) := by
  unfold ctlWrite
  grind [sitePut_legal, cisternPut_legal, basinPut_legal]

/-! ## Accesses of contexts, and launches -/

theorem ctxPlace_legal (hs : HartsLegal s) (cx va acc) : HartsLegal (ctxPlace s cx va acc).2 := by
  unfold ctxPlace
  grind [walkUpdate_legal]

theorem ctxReadIn_legal (hs : HartsLegal s) (cx va n) : HartsLegal (ctxReadIn s cx va n).2 := by
  unfold ctxReadIn
  grind [ctxPlace_legal]

theorem ctxReadFrom_legal (cx : Ctx) (f : Nat) : ∀ {s : State}, HartsLegal s → ∀ va n, HartsLegal (ctxReadFrom cx f s va n).2 := by
  induction f with
  | zero => exact fun hs _ _ => hs
  | succ f ih =>
    intro s hs va n
    unfold ctxReadFrom
    grind [ctxReadIn_legal]

theorem ctxRead_legal (hs : HartsLegal s) (cx va n) : HartsLegal (ctxRead s cx va n).2 := ctxReadFrom_legal cx _ hs va n

theorem ctxStore_legal (hs : HartsLegal s) (n loc l) : HartsLegal (ctxStore s n loc l) := by
  unfold ctxStore
  grind [devWrite_legal, emit_legal, hartsLegal_of_harts]

theorem ctxWriteIn_legal (hs : HartsLegal s) (n va l) : HartsLegal (ctxWriteIn s n va l).2 := by
  unfold ctxWriteIn
  grind [ctxPlace_legal, ctxStore_legal]

theorem ctxWriteFrom_legal (n f : Nat) : ∀ {s : State}, HartsLegal s → ∀ va l, HartsLegal (ctxWriteFrom n f s va l).2 := by
  induction f with
  | zero => exact fun hs _ _ => hs
  | succ f ih =>
    intro s hs va l
    unfold ctxWriteFrom
    grind [ctxWriteIn_legal]

theorem ctxWrite_legal (hs : HartsLegal s) (n va l) : HartsLegal (ctxWrite s n va l).2 := ctxWriteFrom_legal n _ hs va l

theorem ctxMapped_legal (cx : Ctx) (acc f : Nat) : ∀ {s : State}, HartsLegal s → ∀ va last, HartsLegal (ctxMapped cx acc f s va last).2 := by
  induction f with
  | zero => exact fun hs _ _ => hs
  | succ f ih =>
    intro s hs va last
    unfold ctxMapped
    grind [walkUpdate_legal]

theorem ctxPages_legal (n acc f : Nat) : ∀ {s : State}, HartsLegal s → ∀ va last, HartsLegal (ctxPages n acc f s va last).2 := by
  induction f with
  | zero => exact fun hs _ _ => hs
  | succ f ih =>
    intro s hs va last
    unfold ctxPages
    grind [walkUpdate_legal]

theorem handleTasks_legal (hs : HartsLegal s) (cx p) : HartsLegal (handleTasks s cx p).2 := ctxRead_legal hs cx _ _

theorem handlePanes_legal (cx : Ctx) (p : Handle) (l : List Nat) : ∀ {s : State}, HartsLegal s → HartsLegal (handlePanes s cx p l).2 := by
  induction l with
  | nil => exact fun hs => hs
  | cons q r ih =>
    intro s hs
    unfold handlePanes
    grind [ctxRead_legal]

theorem handleTable_legal (hs : HartsLegal s) (cx p) : HartsLegal (handleTable s cx p).2 := by
  unfold handleTable
  grind [handleTasks_legal, handlePanes_legal]

theorem launchReason_legal (hs : HartsLegal s) (cx pool p q) : HartsLegal (launchReason s cx pool p q).2 := by
  unfold launchReason
  grind [handleTable_legal]

theorem addLaunch_legal (hs : HartsLegal s) (l) : HartsLegal (s.addLaunch l) := hs

theorem poolReason_legal (hs : HartsLegal s) (cx p) : HartsLegal (poolReason s cx p).2 := by
  unfold poolReason
  grind [ctxRead_legal, launchReason_legal]

theorem postLaunch_legal (hs : HartsLegal s) (agent p) : HartsLegal (postLaunch s agent p).2 := by
  unfold postLaunch
  grind [poolReason_legal, devWrite_legal, setCtx_legal]

/-! ## Scalar accesses -/

theorem place_legal (hs : HartsLegal s) (ea size acc) : ResLegal Prod.snd (place s ea size acc) := by
  unfold place
  grind [translate_legal, resLegal_ok, resLegal_error]

theorem loadDev_legal (hs : HartsLegal s) (ea pa size io) : ResLegal Prod.snd (loadDev s ea pa size io) := by
  unfold loadDev
  grind [bypass_legal, fillLine_legal, resLegal_ok, resLegal_error]

theorem load_legal (hs : HartsLegal s) (ea size) : ResLegal Prod.snd (load s ea size) := by
  have placed := place_legal hs ea size 0
  unfold load
  grind [loadDev_legal, hostSync_legal, resLegal_ok, resLegal_error]

theorem ownWrite_legal (hs : HartsLegal s) (o n v) : HartsLegal (ownWrite s o n v) := by
  unfold ownWrite
  grind [setC_legal]

theorem storeAt_legal (hs : HartsLegal s) (p size v) : HartsLegal (storeAt s p size v) := by
  unfold storeAt
  grind [ctlWrite_legal, retire_legal, ownWrite_legal, devWrite_legal, bypass_legal, performStore_legal, hostSync_legal, setC_legal]

theorem store_legal (hs : HartsLegal s) (ea size v) : OutLegal (store s ea size v) := by
  have placed := place_legal hs ea size 1
  unfold store
  grind [raise_legal, storeAt_legal, resLegal_ok, resLegal_error, outLegal_next]

theorem spCheck_legal (hs : HartsLegal s) (o size) : ResLegal (fun _ => s) (spCheck s o size) := by
  unfold spCheck
  grind [resLegal_ok, resLegal_error]

theorem spLoad_legal (hs : HartsLegal s) (o size) : ResLegal (fun _ => s) (spLoad s o size) := by
  have checked := spCheck_legal hs o size
  unfold spLoad
  grind [resLegal_ok, resLegal_error]

theorem spStore_legal (hs : HartsLegal s) (o size v) : ResLegal id (spStore s o size v) := by
  have checked := spCheck_legal hs o size
  unfold spStore
  grind [setC_legal, resLegal_ok, resLegal_error]

theorem release_legal (hs : HartsLegal s) (scope) : HartsLegal (release s scope) := by
  unfold release
  grind [flushDev_legal, flushAll_legal]

theorem strongRelease_legal (hs : HartsLegal s) : HartsLegal (strongRelease s) := by
  unfold strongRelease
  grind [release_legal]

theorem rmw_legal (hs : HartsLegal s) (ea size op f) : ResLegal Prod.snd (rmw s ea size op f) := by
  have placed := place_legal hs ea size 3
  unfold rmw
  grind [bypass_legal, devWrite_legal, hostSync_legal, ownWrite_legal, hartsLegal_of_harts, resLegal_ok, resLegal_error]

/-! # Vector accesses, the Sluice engine, weirs and launches keep every hart legal (O58) -/

/-! ## Vector instructions -/

theorem fpPut_legal (hs : HartsLegal s) (vd w ps r) : HartsLegal (fpPut s vd w ps r) := setH_legal hs ((hs.h.putElems ..).orFlags _)

theorem reduceOp_legal (hs : HartsLegal s) (red toResult fpChecks vd vs1 vs2 mask conv toX perRow) :
    OutLegal (reduceOp red toResult fpChecks vd vs1 vs2 mask conv toX perRow s) := by
  unfold reduceOp
  refine vecOp_legal hs fun u hu => ?_
  have flagged (f) : HartsLegal (u.orFlags f) := orFlags_legal hu f
  dsimp only
  split
  · exact fpPut_legal hu _ _ _ _
  · split
    · exact setX_legal (flagged _) _ _
    · exact setH_legal (flagged _) ((flagged _).h.setElem ..)

theorem moveToX_legal (hs : HartsLegal s) (signed vd vs1 vs2 conv) : OutLegal (moveToX signed vd vs1 vs2 conv s) :=
  vecOp_legal hs fun _ hu => setX_legal hu _ _

theorem execVexit_legal (hs : HartsLegal s) (vd vs1 conv) : OutLegal (execVexit vd vs1 conv s) := by
  refine vecOp_legal hs fun u hu => ?_
  have stopped (p) : HartsLegal (u.setH { u.h with shape := { u.h.shape with vstop := p } }) :=
    setH_legal hu (hu.h.of_eq rfl rfl rfl rfl)
  split
  · exact setX_legal (stopped _) _ _
  · exact setX_legal (stopped _) _ _

theorem grantRows_legal (n : Nat) : grantRows n = 1 ∨ grantRows n = 2 ∨ grantRows n = 4 ∨ grantRows n = 8 := by
  unfold grantRows
  grind

/-- A length that `vshape` grants fits a row (R23). -/
theorem grantLen_le (n : Nat) {sew : Nat} (h : sew ≤ 3) : (grantLen n sew).toNat ≤ 4096 / 2 ^ (3 + sew) := by
  have row : 4096 / 2 ^ (3 + sew) < 2 ^ 10 := by interval_cases sew <;> decide
  unfold grantLen
  rw [BitVec.toNat_ofNat, Nat.mod_eq_of_lt (lt_of_le_of_lt (min_le_right _ _) row)]
  exact min_le_right _ _

/-- `vshape` grants a legal shape, the only operation to set one (R23). -/
theorem execVshape_legal (hs : HartsLegal s) (rd rs1 rs2 sew) : OutLegal (execVshape rd rs1 rs2 sew s) := by
  have shaped (p : Shape) (hp : p.Legal) : HartsLegal (s.setH { s.h with fresh := true, shape := p }) := setH_legal hs ⟨hs.h.1, hp⟩
  unfold execVshape
  split
  · exact raise_legal hs _
  · next h =>
    have width : sew.toNat ≤ 3 := Nat.not_lt.mp h
    exact finish_legal (setX_legal (shaped _ ⟨width, grantRows_legal _, grantLen_le _ width⟩) _ _)

/-! ## Pins and vector memory -/

theorem pinUpdate_legal (hs : HartsLegal s) (acc p) : HartsLegal (pinUpdate s acc p) := by
  unfold pinUpdate
  grind [walkUpdate_legal, setBasin_legal]

theorem execVpin_legal (hs : HartsLegal s) (perm base len token) : OutLegal (execVpin perm base len token s) := by
  have pinned (u : State) (hu : HartsLegal u) (p) : HartsLegal (u.setH (u.h.setPin token p)) := setH_legal hu (hu.h.setPin ..)
  unfold execVpin
  split
  · exact waiting_legal hs _ _ _
  · split
    · exact raise_legal hs _
    · refine finish_legal (pinned _ ?_ _)
      split
      · exact hs
      · exact foldl_legal (fun _ p hu => pinUpdate_legal hu _ p) _ hs

theorem execVunpin_legal (hs : HartsLegal s) (token) : OutLegal (execVunpin token s) := by
  unfold execVunpin
  split
  · exact waiting_legal hs _ _ _
  · exact finish_legal (setH_legal hs (hs.h.setPin ..))

theorem stopAt_legal (hs : HartsLegal s) (j i) : HartsLegal (s.stopAt j i) := setH_legal hs (hs.h.of_eq rfl rfl rfl rfl)

/-- Positions taken one after another. -/
theorem eachPos_legal {f : State → Nat → Nat → Res State} (hf : ∀ u j i, HartsLegal u → ResLegal id (f u j i)) (ps : List (Nat × Nat)) :
    ∀ {s : State}, HartsLegal s → ResLegal id (eachPos f ps s) := by
  induction ps with
  | nil => exact fun hs => hs
  | cons p r ih =>
    intro s hs
    have here := hf s p.1 p.2 hs
    unfold eachPos
    grind [stopAt_legal, resLegal_ok, resLegal_error]

theorem vAccRead_legal (hs : HartsLegal s) (a : VAcc) (j i) : ResLegal Prod.snd (a.read s j i) := by
  unfold VAcc.read
  grind [bypass_legal, hostSync_legal, resLegal_ok, resLegal_error]

theorem loadElem_legal (hs : HartsLegal s) (a : VAcc) (vd j i) : ResLegal id (a.loadElem vd s j i) := by
  have read := vAccRead_legal hs a j i
  have put (u : State) (hu : HartsLegal u) (n w j i v) : HartsLegal (u.setH (u.h.setElem n w j i v)) := setH_legal hu (hu.h.setElem ..)
  unfold VAcc.loadElem
  grind [resLegal_ok, resLegal_error]

theorem vecMem_legal (hs : HartsLegal s) (c check) {eff : State → Res State} (he : ∀ u, HartsLegal u → ResLegal id (eff u)) :
    OutLegal (vecMem s c check eff) := by
  have done := he s hs
  unfold vecMem
  grind [raise_legal, refuseConvoy_legal, finish_legal, vdone_legal, resLegal_ok, resLegal_error]

theorem vecLoad_legal (hs : HartsLegal s) (a : VAcc) (vd conv mask ps) : OutLegal (vecLoad a vd conv mask ps s) := by
  refine vecMem_legal hs _ _ fun u hu => ?_
  split
  · exact hu
  · exact eachPos_legal (fun _ _ _ hv => loadElem_legal hv a vd _ _) _ hu

theorem vecLoadCw_legal (hs : HartsLegal s) (form c0 vd base token col conv mc width) :
    OutLegal (vecLoadCw form c0 vd base token col conv mc width s) := by
  have loaded := fun (a : VAcc) ps => eachPos_legal (fun _ j i hu => loadElem_legal hu a vd j i) ps hs
  unfold vecLoadCw
  dsimp only
  split
  · exact raise_legal hs _
  · split
    · exact refuseConvoy_legal hs _
    · split
      · exact raise_legal hs _
      · grind [raise_legal, finish_legal, vdone_legal, waiting_legal, stopAt_legal, resLegal_ok, resLegal_error]

theorem writeLoc_legal (hs : HartsLegal s) (agent loc data) : HartsLegal (writeLoc s agent loc data) := by
  unfold writeLoc
  grind [devWrite_legal, bypass_legal, hostWrite_legal, hostSync_legal, ownWrite_legal]

theorem putElem_legal (hs : HartsLegal s) (a : VAcc) (multi vs p) : HartsLegal (a.putElem multi vs s p) := by
  unfold VAcc.putElem
  dsimp only
  split
  · exact setC_legal hs _
  · split
    · exact hs
    · exact foldl_legal (fun _ _ hu => writeLoc_legal hu _ _ _) _ hs

theorem clearCovered_legal (hs : HartsLegal s) (a ps) : HartsLegal (clearCovered a ps s) := by
  unfold clearCovered
  grind [setC_legal]

theorem storeEff_legal (hs : HartsLegal s) (a vs multi unord ps) : ResLegal id (storeEff a vs multi unord ps s) := by
  have put := fun order : List (Nat × Nat) =>
    foldl_legal (fun _ p hu => putElem_legal hu a multi vs p) order (strongRelease_legal hs)
  unfold storeEff
  grind [clearCovered_legal, stopAt_legal, hartsLegal_of_harts, resLegal_ok, resLegal_error]

theorem vecStore_legal (hs : HartsLegal s) (a : VAcc) (vs multi conv unord mask) : OutLegal (vecStore a vs multi conv unord mask s) :=
  vecMem_legal hs _ _ fun _ hu => storeEff_legal hu ..

theorem atomElem_legal (hs : HartsLegal s) (a : VAcc) (vs op j i) : ResLegal id (a.atomElem vs op s j i) := by
  unfold VAcc.atomElem
  grind [bypass_legal, devWrite_legal, ownWrite_legal, orFlags_legal, resLegal_ok, resLegal_error]

theorem atomEff_legal (hs : HartsLegal s) (a : VAcc) (vs op dup ps) : ResLegal id (atomEff a vs op dup ps s) := by
  have run := fun ps => eachPos_legal (fun _ j i hu => atomElem_legal hu a vs op j i) ps (strongRelease_legal hs)
  unfold atomEff
  grind [stopAt_legal, resLegal_ok, resLegal_error]

theorem vecAtomic_legal (hs : HartsLegal s) (op size dup vs base idx token conv mask) :
    OutLegal (vecAtomic op size dup vs base idx token conv mask s) :=
  vecMem_legal hs _ _ fun _ hu => atomEff_legal hu ..

theorem restartWhole_legal {r : Res State} (hr : ResLegal id r) : ResLegal id (restartWhole r) := by
  unfold restartWhole
  grind [stopAt_legal, resLegal_ok, resLegal_error]

theorem putMaskWord_legal (hs : HartsLegal s) (a n p) : HartsLegal (putMaskWord a n s p) := by
  unfold putMaskWord
  grind [setC_legal, writeLoc_legal]

theorem readMaskWords_legal (a : VAcc) (ps : List (Nat × Nat)) :
    ∀ {s : State}, HartsLegal s → ResLegal Prod.snd (readMaskWords a ps s) := by
  induction ps with
  | nil => exact fun hs => hs
  | cons p r ih =>
    intro s hs
    have read := vAccRead_legal hs a p.1 p.2
    unfold readMaskWords
    grind [resLegal_ok, resLegal_error]

theorem spillFrame_legal (hs : HartsLegal s) (vs base token conv bound) : OutLegal (spillFrame vs base token conv bound s) :=
  vecMem_legal hs _ _ fun _ hu => storeEff_legal hu ..

theorem fillFrame_legal (hs : HartsLegal s) (vd base token conv bound) : OutLegal (fillFrame vd base token conv bound s) := by
  refine vecMem_legal hs _ _ fun u hu => ?_
  dsimp only
  split
  · exact hu
  · exact eachPos_legal (fun _ _ _ hv => loadElem_legal hv _ vd _ _) _ hu

theorem execVspill_legal (hs : HartsLegal s) (vs base kind token conv) : OutLegal (execVspill vs base kind token conv s) := by
  unfold execVspill
  split
  · exact spillFrame_legal hs ..
  · refine vecMem_legal hs _ _ fun u hu => ?_
    dsimp only
    split
    · exact restartWhole_legal hu
    · exact foldl_legal (fun _ _ hv => putMaskWord_legal hv _ _ _) _ (strongRelease_legal hu)

theorem execVfill_legal (hs : HartsLegal s) (vd base kind token conv) : OutLegal (execVfill vd base kind token conv s) := by
  unfold execVfill
  split
  · exact fillFrame_legal hs ..
  · refine vecMem_legal hs _ _ fun u hu => ?_
    have filled (t : State) (ht : HartsLegal t) (n m) : HartsLegal (t.setH (t.h.setMask n m)) := setH_legal ht (ht.h.setMask ..)
    grind [restartWhole_legal, readMaskWords_legal, resLegal_ok, resLegal_error]

/-! ## The Sluice engine -/

theorem issued_legal (hs : HartsLegal s) (rd ch r) : HartsLegal (issued s rd ch r) :=
  setX_legal (setC_legal (flushAll_legal hs s.agent) _) _ _

theorem sluiceOp_legal (hs : HartsLegal s) (form rd xa xp mask ch) : OutLegal (sluiceOp form rd xa xp mask ch s) := by
  unfold sluiceOp
  grind [raise_legal, waiting_legal, finish_legal, issued_legal]

theorem gatherOp_legal (hs : HartsLegal s) (form rd vi xp mask ch) : OutLegal (gatherOp form rd vi xp mask ch s) := by
  unfold gatherOp
  grind [raise_legal, refuseConvoy_legal, waiting_legal, finish_legal, vdone_legal, issued_legal]

theorem execSwait_legal (hs : HartsLegal s) (rd xt ch) : OutLegal (execSwait rd xt ch s) := by
  unfold execSwait
  grind [waiting_legal, finish_legal, setX_legal]

theorem execSfault_legal (hs : HartsLegal s) (rd xs) : OutLegal (execSfault rd xs s) := by
  unfold execSfault
  grind [raise_legal, finish_legal, setX_legal, setC_legal]

theorem execSreplay_legal (hs : HartsLegal s) (rd xt ch) : OutLegal (execSreplay rd xt ch s) := by
  unfold execSreplay
  grind [finish_legal, setX_legal, setC_legal]

theorem sluiceHost_legal (hs : HartsLegal s) (site acc g loc) : ResLegal Prod.snd (sluiceHost s site acc g loc) := by
  unfold sluiceHost
  grind [hartsLegal_of_harts, resLegal_ok, resLegal_error]

theorem sluiceLoc_legal (hs : HartsLegal s) (site r g) : ResLegal Prod.snd (sluiceLoc s site r g) := by
  unfold sluiceLoc
  grind [sluiceHost_legal, translate_legal, resLegal_ok, resLegal_error]

theorem chunkPlaces_legal (site : Nat) (r : SluiceReq) (ws : List (Word × Nat)) :
    ∀ {s : State}, HartsLegal s → ResLegal Prod.snd (chunkPlaces s site r ws) := by
  induction ws with
  | nil => exact fun hs => hs
  | cons w ws ih =>
    intro s hs
    have here := sluiceLoc_legal hs site r w.1
    unfold chunkPlaces
    grind [resLegal_ok, resLegal_error]

theorem copyWord_legal (hs : HartsLegal s) (site r p) : HartsLegal (copyWord site r s p) := by
  unfold copyWord
  grind [bypass_legal, hostSync_legal, setCoreOf_legal, writeLoc_legal]

theorem mapSluice_legal (hs : HartsLegal s) (site f) : HartsLegal (s.mapSluice site f) := hs

theorem askPage_legal (hs : HartsLegal s) (site ch r va cause page) : HartsLegal (askPage s site ch r va cause page) := by
  unfold askPage
  grind [mapSluice_legal, hartsLegal_of_harts]

theorem chunkFault_legal (hs : HartsLegal s) (site ch r q f) : HartsLegal (chunkFault s site ch r q f) := by
  unfold chunkFault
  grind [mapSluice_legal, askPage_legal]

theorem askAgain_legal (hs : HartsLegal s) (site ch r va cause page) : HartsLegal (askAgain s site ch r va cause page) := by
  unfold askAgain
  grind [askPage_legal]

theorem chunkDone_legal (hs : HartsLegal s) (site ch r q) : HartsLegal (chunkDone s site ch r q) := by
  have set (u : State) (hu : HartsLegal u) (k n j i b) : HartsLegal (u.setHartOf k ((u.hartOf k).setMaskBit n j i b)) :=
    setHartOf_legal hu k ((hu.hart k).setMaskBit ..)
  unfold chunkDone
  grind [mapSluice_legal]

theorem runChunk_legal (hs : HartsLegal s) (site ch r q) : HartsLegal (runChunk s site ch r q) := by
  have places := chunkPlaces_legal site r (r.words q) hs
  have copied := fun {u : State} (ps : List (Word × Nat × Loc)) (hu : HartsLegal u) =>
    foldl_legal (fun _ p hv => copyWord_legal hv site r p) ps hu
  unfold runChunk
  grind [chunkFault_legal, chunkDone_legal, resLegal_ok, resLegal_error]

theorem runPart_legal (hs : HartsLegal s) (site ch r) : HartsLegal (runPart s site ch r) := by
  unfold runPart
  grind [mapSluice_legal, hand_legal]

theorem sluiceChunkEff_legal (hs : HartsLegal s) (site ch id q) : HartsLegal (sluiceChunkEff s site ch id q) := by
  unfold sluiceChunkEff
  grind [askAgain_legal, runPart_legal, runChunk_legal]

theorem refusedPage_legal (hs : HartsLegal s) (p) : HartsLegal (refusedPage s p) := mapSluice_legal hs _ _

theorem pageResponse_legal (hs : HartsLegal s) (i ok) : HartsLegal (pageResponse s i ok) := by
  unfold pageResponse
  grind [refusedPage_legal, hartsLegal_of_harts]

/-! ## Weir, tasks, launches and work graphs -/

theorem weirSettle_legal (hs : HartsLegal s) (c) : HartsLegal (weirSettle s c) := by
  unfold weirSettle
  split <;> exact hs

theorem weirSettleAll_legal (hs : HartsLegal s) : HartsLegal (weirSettleAll s) :=
  foldl_legal (fun _ _ hu => weirSettle_legal hu _) _ hs

theorem weirReach_legal (hs : HartsLegal s) (c site) : HartsLegal (weirReach s c site) := by
  unfold weirReach
  grind [weirSettle_legal, setCoreOf_legal]

theorem execWarrive_legal (hs : HartsLegal s) (chan) : OutLegal (execWarrive chan s) := by
  unfold execWarrive
  grind [raise_legal, finish_legal, release_legal, weirSettle_legal, setC_legal]

theorem execWwait_legal (hs : HartsLegal s) (chan) : OutLegal (execWwait chan s) := by
  unfold execWwait
  grind [waiting_legal, finish_legal]

theorem putWmember_legal (hs : HartsLegal s) (v) : HartsLegal (putWmember s v) :=
  weirSettleAll_legal (setC_legal hs _)

theorem execTend_legal (hs : HartsLegal s) : OutLegal (execTend s) := by
  unfold execTend
  grind [waiting_legal, retireEnd_legal, endTask_legal, release_legal, finishEnd_legal, outLegal_next]

theorem taskBitOp_legal (hs : HartsLegal s) (bit xv xc xs) : OutLegal (taskBitOp bit xv xc xs s) := by
  unfold taskBitOp
  grind [raise_legal, waiting_legal, finish_legal, hand_legal, setC_legal]

theorem execTpost_legal (hs : HartsLegal s) (xs xp) : OutLegal (execTpost xs xp s) := by
  unfold execTpost
  grind [raise_legal, finish_legal, setC_legal]

theorem loadWords_legal (n : Nat) : ∀ {s : State}, HartsLegal s → ∀ ea, ResLegal Prod.snd (loadWords s ea n) := by
  induction n with
  | zero => exact fun hs _ => hs
  | succ n ih =>
    intro s hs ea
    have first := load_legal hs ea 8
    unfold loadWords
    grind [resLegal_ok, resLegal_error]

theorem loadBlock_legal (hs : HartsLegal s) (ea) : ResLegal Prod.snd (loadBlock s ea) := by
  unfold loadBlock
  grind [loadWords_legal, resLegal_error]

theorem execGlaunch_legal (hs : HartsLegal s) (rd xs) : OutLegal (execGlaunch rd xs s) := by
  have block := loadBlock_legal hs (s.x xs)
  unfold execGlaunch
  grind [raise_legal, finish_legal, setX_legal, postLaunch_legal, release_legal, resLegal_ok, resLegal_error]

theorem execWreserve_legal (hs : HartsLegal s) (rd xq xn) : OutLegal (execWreserve rd xq xn s) := by
  have block := loadBlock_legal hs (s.x xq)
  have asked (u : State) (hu : HartsLegal u) (r t p) : HartsLegal (u.setH { u.h.waitOn r t p with asked := true }) :=
    setH_legal hu (hu.h.of_eq rfl rfl rfl rfl)
  unfold execWreserve
  grind [raise_legal, finish_legal, setX_legal, setBasin_legal, outLegal_next, resLegal_ok, resLegal_error]

theorem commitAt_legal (hs : HartsLegal s) (block l i) {t : State} (e : commitAt s block l i = some t) : HartsLegal t := by
  unfold commitAt at e
  grind [setBasin_legal]

theorem execWcommit_legal (hs : HartsLegal s) (xq xi) : OutLegal (execWcommit xq xi s) := by
  have block := loadBlock_legal hs (s.x xq)
  unfold execWcommit
  grind [raise_legal, finish_legal, commitAt_legal, release_legal, resLegal_ok, resLegal_error]

/-! ## Core firmware -/

theorem haltHart_legal (hs : HartsLegal s) : HartsLegal (haltHart s) :=
  afterHalt_legal (setH_legal hs (hs.h.of_eq rfl rfl rfl rfl))

theorem reportFatal_legal (hs : HartsLegal s) (n cause v) : HartsLegal (reportFatal s n cause v) := by
  unfold reportFatal
  grind [setCtx_legal]

theorem endByFirmware_legal (hs : HartsLegal s) (ch) : HartsLegal (endByFirmware s ch) := by
  unfold endByFirmware
  grind [endTask_legal, release_legal, emit_legal]

theorem coreFirmware_legal (hs : HartsLegal s) : HartsLegal (coreFirmware s) := by
  unfold coreFirmware
  grind [haltHart_legal, reportFatal_legal, endByFirmware_legal]

/-! # Binning, gangs, frames, queues and contexts keep every hart legal (O58) -/

/-! ## Binning and pixel interlocks -/

theorem pushRecord_legal (hs : HartsLegal s) (b data) : HartsLegal (pushRecord s b data) := hs

theorem pushAll_legal (b : Nat) (vs1 : BitVec 5) (ps : List (Nat × Nat)) :
    ∀ {s : State}, HartsLegal s → HartsLegal (pushAll b vs1 ps s).1 := by
  induction ps with
  | nil => exact fun hs => hs
  | cons p r ih =>
    intro s hs
    unfold pushAll
    grind [pushRecord_legal]

theorem execQpush_legal (hs : HartsLegal s) (vs1 xs2 mask conv) : OutLegal (execQpush vs1 xs2 mask conv s) := by
  have pushed := fun b ps => pushAll_legal b vs1 ps (release_legal hs 3)
  unfold execQpush
  dsimp only
  split
  · exact raise_legal hs _
  · grind [raise_legal, refuseConvoy_legal, finish_legal, vdone_legal, waiting_legal, stopAt_legal]

theorem execQend_legal (hs : HartsLegal s) (xs2) : OutLegal (execQend xs2 s) := by
  unfold execQend
  grind [raise_legal, finish_legal, setBasin_legal, release_legal]

theorem askPixel_legal (hs : HartsLegal s) (d seq p) : HartsLegal (askPixel d seq s p) := hs

theorem keepLocks_legal (hs : HartsLegal s) : HartsLegal (keepLocks s) := hs

theorem pixelOp_legal (hs : HartsLegal s) (vs1 seq mask conv) {eff : List Member → Out} (he : ∀ cv, OutLegal (eff cv)) :
    OutLegal (pixelOp vs1 seq mask conv s eff) := by
  unfold pixelOp
  grind [raise_legal, refuseConvoy_legal]

theorem execPxlock_legal (hs : HartsLegal s) (vs1 xs2 mask conv) : OutLegal (execPxlock vs1 xs2 mask conv s) := by
  unfold execPxlock
  refine pixelOp_legal hs _ _ _ _ fun cv => ?_
  have asked := fun d l => foldl_legal (fun _ p hu => askPixel_legal hu d (s.x xs2).toNat p) l hs
  have waits (u : State) (hu : HartsLegal u) (r t p a) :
      HartsLegal (u.setH { u.h.waitOn r t p with asked := true, shape := { u.h.shape with vstart := a } }) :=
    setH_legal hu (hu.h.of_eq rfl rfl rfl rfl)
  grind [raise_legal, finish_legal, vdone_legal, keepLocks_legal, outLegal_next]

theorem execPxunlock_legal (hs : HartsLegal s) (vs1 mask conv) : OutLegal (execPxunlock vs1 mask conv s) := by
  refine pixelOp_legal hs _ _ _ _ fun cv => ?_
  dsimp only
  split
  · exact raise_legal hs _
  · exact finish_legal (vdone_legal (mapBasins_legal (release_legal hs 3) _) cv)

theorem execPxskip_legal (hs : HartsLegal s) (vs1 xs2 mask conv) : OutLegal (execPxskip vs1 xs2 mask conv s) := by
  unfold execPxskip
  refine pixelOp_legal hs _ _ _ _ fun cv => ?_
  dsimp only
  split
  · exact raise_legal hs _
  · exact finish_legal (vdone_legal hs cv)
  · refine finish_legal (vdone_legal (foldl_legal (fun u p hu => ?_) _ (release_legal hs 3)) cv)
    split
    · exact setBasin_legal hu _ _
    · exact hu

/-! ## Events of harts, gangs and stores -/

theorem execHartStateMachineCheck_legal (hs : HartsLegal s) (hart coreState) : OutLegal (execHartStateMachineCheck hart coreState s) := by
  unfold execHartStateMachineCheck
  grind [pend_legal, outLegal_next]

theorem execBudgetExpiry_legal (hs : HartsLegal s) (hart) : OutLegal (execBudgetExpiry hart s) := by
  have expired := atHart_legal hs hart fun _ hu => budgetTrap_legal hu
  unfold execBudgetExpiry
  grind [outLegal_next]

theorem execCoreCompleteReport_legal (hs : HartsLegal s) (core) : OutLegal (execCoreCompleteReport core s) := by
  unfold execCoreCompleteReport
  grind [setCoreOf_legal, outLegal_next]

theorem gangScratch_legal (hs : HartsLegal s) (cx h) : HartsLegal (gangScratch s cx h).2 := by
  refine List.foldlRecOn _ _ (motive := fun a : Memory × State => HartsLegal a.2) hs ?_
  rintro ⟨m, u⟩ hu p -
  grind [ctxRead_legal]

theorem freeWeirs_legal (hs : HartsLegal s) (l) : HartsLegal (freeWeirs s l) := hs

theorem runAhead_legal (hs : HartsLegal s) (site l) : HartsLegal (runAhead s site l) := by
  have freed := freeWeirs_legal (flushAll_legal hs site) l
  have table := handleTasks_legal freed ((freeWeirs (flushAll s site) l).ctx l.ctx) l.handle
  have loaded := gangScratch_legal table ((freeWeirs (flushAll s site) l).ctx l.ctx) l.handle
  have cleared (b c) := noteCleared_legal (setCoreOf_legal loaded site c) b site
  unfold runAhead
  exact setHarts_legal
    (fun h => { h with
      convoy := [], fresh := true
      trap := { h.trap with status := { h.trap.status with mmstrong := l.lflags.getLsbD 4 } } })
    (fun _ hh => hh.of_eq rfl rfl rfl rfl) _ (cleared _ _)

theorem execRunAheadStart_legal (hs : HartsLegal s) (core) : OutLegal (execRunAheadStart core s) := by
  unfold execRunAheadStart
  grind [runAhead_legal, hartsLegal_of_harts, outLegal_next]

theorem execOwnerReserve_legal (hs : HartsLegal s) (basin) : OutLegal (execOwnerReserve basin s) := by
  have replied (u : State) (hu : HartsLegal u) (k v) : HartsLegal (u.setHartOf k { u.hartOf k with reply := v }) :=
    setHartOf_legal hu k ((hu.hart k).of_eq rfl rfl rfl rfl)
  unfold execOwnerReserve
  grind [setBasin_legal, outLegal_next]

theorem performAt_legal (hs : HartsLegal s) (core i) : HartsLegal (performAt s core i) := by
  unfold performAt
  grind [performStore_legal, setCoreOf_legal]

theorem execHostWriteRefusal_legal (hs : HartsLegal s) (core i) : OutLegal (execHostWriteRefusal core i s) := by
  unfold execHostWriteRefusal
  grind [performAt_legal, outLegal_next]

/-! ## Frames -/

theorem setGfx_legal (hs : HartsLegal s) (b g) : HartsLegal (s.setGfx b g) := hs

theorem framePages_legal (hs : HartsLegal s) (n d) : HartsLegal (framePages s n d).2 := by
  unfold framePages
  grind [ctxPages_legal]

theorem pagesWrite_legal (n : Nat) (ps : List TlbEntry) (f : Nat) :
    ∀ {s : State}, HartsLegal s → ∀ va l, HartsLegal (pagesWrite n ps f s va l) := by
  induction f with
  | zero => exact fun hs _ _ => hs
  | succ f ih =>
    intro s hs va l
    unfold pagesWrite
    grind [ctxStore_legal]

theorem frameWrite_legal (hs : HartsLegal s) (g va l) : HartsLegal (frameWrite s g va l) := pagesWrite_legal _ _ _ hs va l

theorem execFrameOpen_legal (hs : HartsLegal s) (basin) : OutLegal (execFrameOpen basin s) := by
  unfold execFrameOpen
  grind [framePages_legal, setGfx_legal, outLegal_next]

theorem execBinRecord_legal (hs : HartsLegal s) (basin) : OutLegal (execBinRecord basin s) := by
  unfold execBinRecord
  grind [setGfx_legal, outLegal_next]

theorem execQendMarkArrival_legal (hs : HartsLegal s) (basin) : OutLegal (execQendMarkArrival basin s) := by
  unfold execQendMarkArrival
  grind [setGfx_legal, outLegal_next]

theorem execTileResolve_legal (hs : HartsLegal s) (basin) : OutLegal (execTileResolve basin s) := by
  unfold execTileResolve
  grind [frameWrite_legal, setGfx_legal, outLegal_next]

theorem execTileNotification_legal (hs : HartsLegal s) (basin core) : OutLegal (execTileNotification basin core s) := by
  unfold execTileNotification
  grind [setCoreOf_legal, setGfx_legal, outLegal_next]

theorem execFrameComplete_legal (hs : HartsLegal s) (basin) : OutLegal (execFrameComplete basin s) := by
  unfold execFrameComplete
  grind [setGfx_legal, hartsLegal_of_harts, outLegal_next]

theorem execPixelLockGrant_legal (hs : HartsLegal s) (basin x y) : OutLegal (execPixelLockGrant basin x y s) := by
  unfold execPixelLockGrant
  grind [setGfx_legal, outLegal_next]

/-! ## Queues -/

theorem queueError_legal (hs : HartsLegal s) (n code detail pseq) : HartsLegal (queueError s n code detail pseq) := by
  unfold queueError
  grind [emit_legal, setQueue_legal]

theorem failPacket_legal (hs : HartsLegal s) (n code detail pseq) : HartsLegal (failPacket s n code detail pseq) := by
  unfold failPacket
  grind [queueError_legal, setQueue_legal]

theorem checkOverrun_legal (hs : HartsLegal s) (n) : HartsLegal (checkOverrun s n) := by
  unfold checkOverrun
  grind [queueError_legal]

theorem signalPlace_legal (hs : HartsLegal s) (cx a) : HartsLegal (signalPlace s cx a).2 := by
  unfold signalPlace
  grind [ctxPlace_legal]

theorem writeSignal_legal (hs : HartsLegal s) (n d) : HartsLegal (writeSignal s n d) := by
  unfold writeSignal
  grind [signalPlace_legal, queueError_legal, ctxStore_legal]

theorem settleQueue_legal (hs : HartsLegal s) (n) : HartsLegal (settleQueue s n) := by
  unfold settleQueue
  dsimp only
  have written := foldl_legal (fun _ d hu => writeSignal_legal hu n d) ((s.queue n).running.filter (Dispatched.complete s))
    (setQueue_legal hs n { s.queue n with running := (s.queue n).running.filter fun d => !d.complete s })
  split
  · exact setQueue_legal written _ _
  · exact written

theorem settleAll_legal (hs : HartsLegal s) : HartsLegal (settleAll s) := foldl_legal (fun _ _ hu => settleQueue_legal hu _) _ hs

theorem enableQueue_legal (hs : HartsLegal s) (n) : HartsLegal (enableQueue s n) := by
  unfold enableQueue
  grind [checkOverrun_legal, setQueue_legal]

theorem stopQueue_legal (hs : HartsLegal s) (n) : HartsLegal (stopQueue s n) := by
  unfold stopQueue
  grind [settleQueue_legal, setQueue_legal]

theorem ringDoorbell_legal (hs : HartsLegal s) (n wr) : HartsLegal (ringDoorbell s n wr) :=
  checkOverrun_legal (setQueue_legal hs n _) n

theorem clearQueueError_legal (hs : HartsLegal s) (n) : HartsLegal (clearQueueError s n) := by
  unfold clearQueueError
  grind [checkOverrun_legal, setQueue_legal]

theorem whenReady_legal (hs : HartsLegal s) {f : State → State} (hf : HartsLegal (f s)) : HartsLegal (whenReady s f) := by
  unfold whenReady
  split <;> assumption

theorem readPacket_legal (hs : HartsLegal s) (n) : HartsLegal (readPacket s n).2 := by
  unfold readPacket
  grind [ctxRead_legal, signalPlace_legal]

theorem readBlock64_legal (hs : HartsLegal s) (cx a) : HartsLegal (readBlock64 s cx a).2 := by
  unfold readBlock64
  grind [ctxRead_legal]

/-- A packet whose effect keeps the harts legal. -/
theorem packetStep_legal (hs : HartsLegal s) (n kind) {eff : State → List Byte → Except (Nat × Nat) Effect × State}
    (he : ∀ u p, HartsLegal u → HartsLegal (eff u p).2) : HartsLegal (packetStep s n kind eff) := by
  have read := readPacket_legal hs n
  unfold packetStep
  split
  · exact hs
  · split
    · next e t r =>
      exact failPacket_legal (s := t) (by rw [r] at read; exact read) n _ _ _
    · next p t r =>
      have done := he t p (by rw [r] at read; exact read)
      grind [failPacket_legal, settleQueue_legal, setQueue_legal]

theorem execIndirectPacket_legal (hs : HartsLegal s) (queue) : OutLegal (execIndirectPacket queue s) := by
  refine packetStep_legal hs queue 3 fun u p hu => ?_
  grind [readBlock64_legal]

theorem execGangLaunchPacket_legal (hs : HartsLegal s) (queue) : OutLegal (execGangLaunchPacket queue s) := by
  refine packetStep_legal hs queue 1 fun u p hu => ?_
  grind [readBlock64_legal, launchReason_legal, addLaunch_legal]

theorem ctxWritable_legal (hs : HartsLegal s) (cx va n) : HartsLegal (ctxWritable s cx va n).2 := by
  unfold ctxWritable
  grind [ctxMapped_legal]

theorem frameOk_legal (hs : HartsLegal s) (cx l) : HartsLegal (frameOk s cx l).2 := by
  unfold frameOk
  grind [ctxWritable_legal]

theorem addFrame_legal (hs : HartsLegal s) (n queue d) : HartsLegal (addFrame s n queue d) :=
  foldl_legal (fun _ b hu => setGfx_legal hu b _) _ (addLaunch_legal hs _)

theorem execFramePacket_legal (hs : HartsLegal s) (queue) : OutLegal (execFramePacket queue s) := by
  refine packetStep_legal hs queue 2 fun u p hu => ?_
  grind [readBlock64_legal, frameOk_legal, addFrame_legal]

/-- A shootdown marks the pins of the context's harts (R369). -/
theorem shootdown_legal (hs : HartsLegal s) (ctx id b n) : HartsLegal (shootdown s ctx id b n) := by
  intro k
  refine smGet_map_legal (fun e => ?_) (fun e he => ?_) (hartAtReset_legal k) (hs.hart k)
  · grind
  · have marked (ps) : Hart.Legal { e.2 with pins := ps } := he.of_eq rfl rfl rfl rfl
    grind

theorem execShootdownPacket_legal (hs : HartsLegal s) (queue) : OutLegal (execShootdownPacket queue s) := by
  refine packetStep_legal hs queue 6 fun u p hu => ?_
  exact shootdown_legal hu _ u.nextLaunch _ _

theorem ctxWrites_legal (n : Nat) (l : List (Word × List Byte)) : ∀ {s : State}, HartsLegal s → HartsLegal (ctxWrites n l s).2 := by
  induction l with
  | nil => exact fun hs => hs
  | cons a r ih =>
    obtain ⟨a, b⟩ := a
    intro s hs
    unfold ctxWrites
    grind [ctxWrite_legal]

theorem loadReason_legal (hs : HartsLegal s) (cx l region rsize houtOk) : HartsLegal (loadReason s cx l region rsize houtOk).2 := by
  unfold loadReason
  grind [ctxWritable_legal]

theorem execLoadPacket_legal (hs : HartsLegal s) (queue) : OutLegal (execLoadPacket queue s) := by
  refine packetStep_legal hs queue 5 fun u p hu => ?_
  dsimp only
  split
  · exact hu
  · grind [ctxRead_legal, ctxWritable_legal, ctxWrite_legal, loadReason_legal, ctxWrites_legal]

/-! ## The end of launches, and the pool -/

theorem writeBackWorks_legal (hs : HartsLegal s) (n f) : HartsLegal (writeBackWorks s n f) :=
  foldl_legal (fun _ _ hu => ctxWrite_legal hu _ _ _) _ hs

theorem giveUpWorks_legal (hs : HartsLegal s) (n id) : HartsLegal (giveUpWorks s n id) :=
  mapBasins_legal (writeBackWorks_legal hs n _) _

theorem reapLaunches_legal (f : Nat) : ∀ {s : State}, HartsLegal s → HartsLegal (reapLaunches s f) := by
  induction f with
  | zero => exact fun hs => hs
  | succ f ih =>
    intro s hs
    unfold reapLaunches
    grind [hartsLegal_of_harts]

theorem completeLaunch_legal (hs : HartsLegal s) (l) : HartsLegal (completeLaunch s l) := by
  have flushed := foldl_legal (fun _ k hu => flushAll_legal hu k) (l.cores.filterMap (siteOf s)) hs
  have left := weirSettleAll_legal (foldl_legal (f := fun s k => s.setCoreOf k ((s.coreOf k).leaveGang l.id))
    (fun u k hu => setCoreOf_legal hu k _) (l.cores.filterMap (siteOf s)) flushed)
  unfold completeLaunch
  grind [giveUpWorks_legal, setCtx_legal, hartsLegal_of_harts]

theorem execLaunchCompletion_legal (hs : HartsLegal s) (id) : OutLegal (execLaunchCompletion id s) := by
  unfold execLaunchCompletion
  grind [completeLaunch_legal, reapLaunches_legal, settleAll_legal, outLegal_next]

theorem execPoolDispatch_legal (hs : HartsLegal s) (ctx entry) : OutLegal (execPoolDispatch ctx entry s) := by
  unfold execPoolDispatch
  grind [readBlock64_legal, launchReason_legal, addLaunch_legal, setCtx_legal, reapLaunches_legal, settleAll_legal, outLegal_next]

/-! ## Contexts -/

theorem ctxErr_legal (hs : HartsLegal s) (n e) : HartsLegal (ctxErr s n e) := hs

theorem ctxActivate_legal (hs : HartsLegal s) (n) : HartsLegal (ctxActivate s n) := by
  unfold ctxActivate
  dsimp only
  split
  · exact ctxErr_legal hs n _
  · split
    · exact ctxErr_legal hs n _
    · split
      · exact ctxErr_legal hs n _
      · exact setCtx_legal hs n _

theorem releaseQueue_legal (hs : HartsLegal s) (n) : HartsLegal (releaseQueue s n) := by
  unfold releaseQueue
  grind [stopQueue_legal, setQueue_legal, queueError_legal]

theorem dropCtx_legal (hs : HartsLegal s) (n) : HartsLegal (dropCtx s n) := hs

theorem ctxRelease_legal (hs : HartsLegal s) (n) : HartsLegal (ctxRelease s n) := by
  have released := foldl_legal (fun _ q hu => releaseQueue_legal hu q) (ctxQueues s n) hs
  unfold ctxRelease
  grind [ctxErr_legal, setCtx_legal, dropCtx_legal]

theorem settleWeir_legal (hs : HartsLegal s) (site) : HartsLegal (settleWeir s site) :=
  foldl_legal (fun _ _ hu => foldl_legal (fun _ _ hv => weirReach_legal hv _ site) _ hu) _ hs

theorem saveFrame_legal (hs : HartsLegal s) (n b) : HartsLegal (saveFrame s n b) := by
  unfold saveFrame
  dsimp only
  split
  · have written := frameWrite_legal hs (s.gfx b) ((s.gfx b).desc.savedAt b) ((List.range 4096).map (Config.savedBins s.freeCtr b))
    exact setCtx_legal (setGfx_legal (withFreeCtr_legal written (s.freeCtr + 1)) b _) n _
  · exact hs

theorem finishSave_legal (hs : HartsLegal s) (n) : HartsLegal (finishSave s n) := by
  unfold finishSave
  dsimp only
  split
  · have frames := foldl_legal (fun _ b hu => saveFrame_legal hu n b) (List.range 64) hs
    exact setCtx_legal (foldl_legal (fun u k hu => setCoreOf_legal hu k _) _ (writeBackWorks_legal frames n _)) n _
  · exact hs

theorem ctxSave_legal (hs : HartsLegal s) (n) : HartsLegal (ctxSave s n) := by
  have held := foldl_legal (f := fun s k => s.setCoreOf k ((s.coreOf k).preempt true))
    (fun u k hu => setCoreOf_legal hu k _) (ctxSites s (s.ctx n)) hs
  unfold ctxSave
  grind [ctxErr_legal, finishSave_legal, setCtx_legal]

theorem saveRecord_legal (hs : HartsLegal s) (site) : HartsLegal (saveRecord s site) := by
  unfold saveRecord
  grind [flushAll_legal, settleWeir_legal, writeRecord_legal, finishSave_legal, setCtx_legal]

theorem restoreCore_legal (hs : HartsLegal s) (n site) : HartsLegal (restoreCore s n site) :=
  noteCleared_legal (setCoreOf_legal hs site _) _ site

theorem takeWeirs_legal (hs : HartsLegal s) (n) : HartsLegal (takeWeirs s n) := foldl_legal (fun _ l hu => freeWeirs_legal hu l) _ hs

theorem loadContext_legal (hs : HartsLegal s) (n) : HartsLegal (loadContext s n) := by
  unfold loadContext
  dsimp only
  split
  · have loaded := foldl_legal (fun _ k hu => restoreCore_legal hu n k) (ctxSites s (s.ctx n)) (takeWeirs_legal hs n)
    exact setCtx_legal (foldl_legal (fun _ (e : Nat × Gfx) hu => setGfx_legal hu e.1 _) _ loaded) n _
  · exact hs

theorem ctxRestore_legal (hs : HartsLegal s) (n) : HartsLegal (ctxRestore s n) := by
  unfold ctxRestore
  grind [ctxErr_legal, loadContext_legal, setCtx_legal]

theorem ctxCommand_legal (hs : HartsLegal s) (n cmd) : HartsLegal (ctxCommand s n cmd) := by
  unfold ctxCommand
  grind [ctxActivate_legal, ctxSave_legal, ctxRestore_legal, ctxRelease_legal, ctxErr_legal]

theorem execCtxRestore_legal (hs : HartsLegal s) (ctx) : OutLegal (execCtxRestore ctx s) := by
  have restored := whenReady_legal hs (f := fun s => ctxRestore s ctx) (ctxRestore_legal hs ctx)
  unfold execCtxRestore
  grind [loadContext_legal, outLegal_next]

/-! # Links, moves, resets, training, standby and the host keep every hart legal (O58) -/

/-! ## Paths and leases -/

theorem setPath_legal (hs : HartsLegal s) (d p v) : HartsLegal (setPath s d p v) := hs

theorem bothEnds_legal (hs : HartsLegal s) (d p f) : HartsLegal (bothEnds s d p f) := by
  unfold bothEnds
  grind [setPath_legal]

theorem setFabPort_legal (hs : HartsLegal s) (d i f) : HartsLegal (setFabPort s d i f) := hs

theorem reportPath_legal (hs : HartsLegal s) (d p) : HartsLegal (reportPath s d p) := by
  unfold reportPath
  grind [emit_legal]

theorem retirePath_legal (hs : HartsLegal s) (d p) : HartsLegal (retirePath s d p) := by
  unfold retirePath
  refine logUpdate_legal (reportPath_legal ?_ d p)
  exact bothEnds_legal hs d p _

theorem retireDue_legal (hs : HartsLegal s) : HartsLegal (retireDue s) := by
  refine foldl_legal (fun u i hu => ?_) _ hs
  split
  · exact retirePath_legal hu _ _
  · exact hu

theorem pathFault_legal (hs : HartsLegal s) (d p) : HartsLegal (pathFault s d p) := by
  unfold pathFault
  grind [setPath_legal, retirePath_legal]

theorem portRetrained_legal (hs : HartsLegal s) (d p passed) : HartsLegal (portRetrained s d p passed) := by
  unfold portRetrained
  grind [setFabPort_legal]

theorem execPathRetrain_legal (hs : HartsLegal s) (die path passed) : OutLegal (execPathRetrain die path passed s) := by
  unfold execPathRetrain
  grind [portRetrained_legal, logUpdate_legal, reportPath_legal, bothEnds_legal, outLegal_next]

theorem setLease_legal (hs : HartsLegal s) (d l) : HartsLegal (setLease s d l) := hs

theorem sendBeat_legal (hs : HartsLegal s) (b) : HartsLegal (sendBeat s b) := by
  unfold sendBeat
  split <;> exact hs

theorem takeBeat_legal (hs : HartsLegal s) (b) {t : State} (e : takeBeat s b = some t) : HartsLegal t := by
  unfold takeBeat at e
  grind [hartsLegal_of_harts]

theorem execLeaseHeartbeatSend_legal (hs : HartsLegal s) (die) : OutLegal (execLeaseHeartbeatSend die s) := by
  unfold execLeaseHeartbeatSend
  refine (outLegal_next _).mpr ?_
  split
  · exact foldl_legal (fun _ _ hu => sendBeat_legal hu _) _ (setLease_legal hs _ _)
  · exact hs

theorem execLeaseHeartbeatReceive_legal (hs : HartsLegal s) (die sender term seq) :
    OutLegal (execLeaseHeartbeatReceive die sender term seq s) := by
  unfold execLeaseHeartbeatReceive
  grind [takeBeat_legal, sendBeat_legal, setLease_legal, outLegal_next]

theorem resumeDuties_legal (hs : HartsLegal s) : HartsLegal (resumeDuties s) :=
  logUpdate_legal (retireDue_legal (placeWaiting_legal hs))

theorem execLeaseHeartbeatAck_legal (hs : HartsLegal s) (die follower term seq) :
    OutLegal (execLeaseHeartbeatAck die follower term seq s) := by
  unfold execLeaseHeartbeatAck
  grind [takeBeat_legal, setLease_legal, resumeDuties_legal, outLegal_next]

theorem execLeaderLeaseExpiry_legal (hs : HartsLegal s) (die) : OutLegal (execLeaderLeaseExpiry die s) := by
  unfold execLeaderLeaseExpiry
  grind [setLease_legal, outLegal_next]

theorem execLeaseLapse_legal (hs : HartsLegal s) (die) : OutLegal (execLeaseLapse die s) := by
  unfold execLeaseLapse
  grind [setLease_legal, outLegal_next]

theorem takeLease_legal (hs : HartsLegal s) (d) : HartsLegal (takeLease s d) := by
  unfold takeLease
  grind [logUpdate_legal, retireDue_legal, emit_legal, setRing_legal, setLease_legal]

theorem execClaimRetry_legal (hs : HartsLegal s) (die) : OutLegal (execClaimRetry die s) := by
  unfold execClaimRetry
  grind [setLease_legal, outLegal_next]

/-! ## Errors and scrubs -/

theorem countError_legal (hs : HartsLegal s) (site src loc) : HartsLegal (countError s site src loc) := by
  unfold countError
  grind [setCoreOf_legal, setDie_legal]

theorem execCorrectedError_legal (hs : HartsLegal s) (site src loc) : OutLegal (execCorrectedError site src loc s) := by
  unfold execCorrectedError
  grind [countError_legal, setCoreOf_legal, withFreeCtr_legal, hartsLegal_of_harts, outLegal_next]

theorem execLeakTick_legal (hs : HartsLegal s) (site) : OutLegal (execLeakTick site s) := hs

theorem poisonWord_legal (hs : HartsLegal s) (pa src) : HartsLegal (poisonWord s pa src) := by
  unfold poisonWord
  grind [hartsLegal_of_harts]

theorem execPatrolScrub_legal (hs : HartsLegal s) (target found) : OutLegal (execPatrolScrub target found s) := by
  unfold execPatrolScrub
  grind [countError_legal, setCoreOf_legal, poisonWord_legal, outLegal_next]

theorem startBasin_legal (hs : HartsLegal s) (b) : HartsLegal (startBasin s b) :=
  setHartOf_legal (setCoreOf_legal hs _ _) _ ((Hart.resetM_legal .firmware).of_eq rfl rfl rfl rfl)

theorem fatalWhere_legal (hs : HartsLegal s) (p n) : HartsLegal (fatalWhere s p n) := hs

theorem execBasinHeartbeat_legal (hs : HartsLegal s) (basin missed) : OutLegal (execBasinHeartbeat basin missed s) := by
  unfold execBasinHeartbeat
  grind [setBasin_legal, outLegal_next]

theorem execAgentFailed_legal (hs : HartsLegal s) (cistern n) : OutLegal (execAgentFailed cistern n s) := by
  unfold execAgentFailed
  grind [fatalWhere_legal, setLease_legal, emit_legal, startBasin_legal, setBasin_legal, outLegal_next]

/-! ## Siphon -/

theorem setMove_legal (hs : HartsLegal s) (d m) : HartsLegal (setMove s d m) := logUpdate_legal (setDie_legal hs _ _)

theorem toScan_legal (hs : HartsLegal s) (site) : HartsLegal (toScan s site) := logUpdate_legal (setCoreOf_legal hs site _)

theorem beginMove_legal (hs : HartsLegal s) (d site) : HartsLegal (beginMove s d site) := by
  unfold beginMove
  grind [emit_legal, setMove_legal, setCoreOf_legal]

theorem execSiphonHold_legal (hs : HartsLegal s) (die) : OutLegal (execSiphonHold die s) := by
  unfold execSiphonHold
  grind [toScan_legal, beginMove_legal, setDie_legal, outLegal_next]

theorem copyPanes_legal (hs : HartsLegal s) (m) : HartsLegal (copyPanes s m) :=
  setCoreOf_legal (resetSite_legal (flushAll_legal hs m.old) m.spare) m.spare _

theorem execSiphonCopy_legal (hs : HartsLegal s) (die) : OutLegal (execSiphonCopy die s) := by
  unfold execSiphonCopy
  grind [setMove_legal, copyPanes_legal, outLegal_next]

theorem execSiphonState_legal (hs : HartsLegal s) (die) : OutLegal (execSiphonState die s) := by
  unfold execSiphonState
  grind [setMove_legal, setCoreOf_legal, outLegal_next]

theorem execSiphonFlip_legal (hs : HartsLegal s) (die) : OutLegal (execSiphonFlip die s) := by
  unfold execSiphonFlip
  grind [setMove_legal, setRemap_legal, setCoreOf_legal, outLegal_next]

theorem reportMove_legal (hs : HartsLegal s) (v old new) : HartsLegal (reportMove s v old new) := by
  unfold reportMove
  grind [emit_legal]

theorem arriveAll_legal (hs : HartsLegal s) (l : List Message) : HartsLegal (l.foldl arrive s) :=
  foldl_legal (fun _ m hu => arrive_legal hu m) l hs

theorem execSiphonRelease_legal (hs : HartsLegal s) (die) : OutLegal (execSiphonRelease die s) := by
  unfold execSiphonRelease
  grind [arriveAll_legal, setMove_legal, setCoreOf_legal, noteCleared_legal, reportMove_legal, toScan_legal, outLegal_next]

theorem unhold_legal (hs : HartsLegal s) (site) : HartsLegal (unhold s site) := noteCleared_legal (setCoreOf_legal hs site _) _ site

theorem copyAgain_legal (hs : HartsLegal s) (die m) : HartsLegal (copyAgain s die m) := setMove_legal (copyPanes_legal hs m) _ _

theorem nextSpare_legal (hs : HartsLegal s) (die m) : HartsLegal (nextSpare s die m) := by
  unfold nextSpare
  grind [setMove_legal, copyAgain_legal, arriveAll_legal, unhold_legal, emit_legal, logUpdate_legal]

theorem fatalMove_legal (hs : HartsLegal s) (die m) : HartsLegal (fatalMove s die m) := by
  unfold fatalMove
  grind [setMove_legal, toScan_legal, reportMove_legal, unhold_legal, resetSite_legal, emit_legal, logUpdate_legal]

theorem execSiphonAbort_legal (hs : HartsLegal s) (die why) : OutLegal (execSiphonAbort die why s) := by
  unfold execSiphonAbort
  grind [nextSpare_legal, toScan_legal, fatalMove_legal, copyAgain_legal, outLegal_next]

/-! ## Fatal contexts and wait cycles -/

theorem fatalHart_legal (hs : HartsLegal s) (k) : HartsLegal (fatalHart s k) := by
  have ended (u : State) (hu : HartsLegal u) (r n) : HartsLegal (u.setHartOf k { (s.hartOf k).ended r with serial := n }) :=
    setHartOf_legal hu k ((Hart.ended_legal (s.hartOf k) r).of_eq rfl rfl rfl rfl)
  unfold fatalHart
  grind [mapBasins_legal]

theorem fatalSite_legal (hs : HartsLegal s) (site) : HartsLegal (fatalSite s site) :=
  setCoreOf_legal (foldl_legal (fun _ k hu => fatalHart_legal hu k) _ hs) site _

theorem fatalMoves_legal (hs : HartsLegal s) (cx) : HartsLegal (fatalMoves s cx) := by
  refine foldl_legal (fun u d hu => ?_) _ hs
  grind [fatalMove_legal]

theorem holdQueues_legal (hs : HartsLegal s) (n) : HartsLegal (holdQueues s n) :=
  foldl_legal (fun _ q hu => setQueue_legal hu q _) _ hs

theorem withHostif_legal (hs : HartsLegal s) (i : HostIf) : HartsLegal { s with hostif := i } := hs

theorem discardContext_legal (hs : HartsLegal s) (n) : HartsLegal (discardContext s n) := by
  have moved := fatalMoves_legal hs (s.ctx n)
  have ended (l) := foldl_legal (fun _ k hu => fatalSite_legal hu k) l moved
  have dropped {u} (hu : HartsLegal u) (i) := dropCtx_legal (holdQueues_legal (withHostif_legal hu i) n) n
  unfold discardContext
  exact dropped (ended _) _

theorem execFatalSequence_legal (hs : HartsLegal s) (ctx) : OutLegal (execFatalSequence ctx s) := by
  unfold execFatalSequence
  grind [discardContext_legal, setCtx_legal, emit_legal, logUpdate_legal, outLegal_next]

theorem execWaitCycleWalk_legal (hs : HartsLegal s) (hart) : OutLegal (execWaitCycleWalk hart s) := by
  unfold execWaitCycleWalk
  grind [hartsLegal_of_harts, outLegal_next]

theorem reportCycle_legal (hs : HartsLegal s) (ms ctx) : HartsLegal (reportCycle s ms ctx) :=
  foldl_legal (fun _ _ hu => hartsLegal_of_harts hu (emit_harts ..)) _ hs

theorem execWaitCycleConfirm_legal (hs : HartsLegal s) (i) : OutLegal (execWaitCycleConfirm i s) := by
  unfold execWaitCycleConfirm
  grind [reportCycle_legal, hartsLegal_of_harts, outLegal_next]

theorem tellEdges_legal (hs : HartsLegal s) (ctag) : HartsLegal (tellEdges s ctag) := by
  unfold tellEdges
  grind [hartsLegal_of_harts]

theorem hearEdges_legal (hs : HartsLegal s) (pkg es) : HartsLegal (hearEdges s pkg es) := by
  unfold hearEdges
  grind [hartsLegal_of_harts]

/-! ## Boot and resets -/

theorem romFail_legal (hs : HartsLegal s) (d code) : HartsLegal (romFail s d code) := by
  have failed (d) : HartsLegal (s.failDie d code) := failDie_legal hs d code
  exact setHartOf_legal (failed _) _ (((failed _).hart _).of_eq rfl rfl rfl rfl)

theorem romBoot_legal (hs : HartsLegal s) (d v scanKey helper cert) : HartsLegal (romBoot s d v scanKey helper cert) := by
  have entered (u : State) (hu : HartsLegal u) (k p) : HartsLegal (u.setHartOf k { u.hartOf k with pc := p }) :=
    setHartOf_legal hu k ((hu.hart k).of_eq rfl rfl rfl rfl)
  unfold romBoot
  grind [setDie_legal, setCoreOf_legal, withFreeCtr_legal, emit_legal, hartsLegal_of_harts]

theorem beginPhase2_legal (hs : HartsLegal s) : HartsLegal (beginPhase2 s) := by
  unfold beginPhase2
  dsimp only
  split
  · refine foldl_legal (fun u d hu => ?_) _ hs
    grind [setDie_legal]
  · exact hs

theorem romTurn_legal (hs : HartsLegal s) (d) : HartsLegal (romTurn s d) := by
  unfold romTurn
  grind [romFail_legal, romBoot_legal, beginPhase2_legal, hartsLegal_of_harts]

theorem romAll_legal (hs : HartsLegal s) : HartsLegal (romAll s) := foldl_legal (fun _ d hu => romTurn_legal hu d) _ hs

/-- After a restart no hart is listed: each is as after reset. -/
theorem restart_legal (s : State) : HartsLegal (restart s) := reset_hartsLegal

theorem coldBoot_legal (s : State) : HartsLegal (coldBoot s) := romAll_legal (restart_legal s)

theorem powerOff_legal (s : State) : HartsLegal (powerOff s) := by
  have halted (u : State) (hu : HartsLegal u) (k r) : HartsLegal (u.setHartOf k { u.hartOf k with run := r }) :=
    setHartOf_legal hu k ((hu.hart k).of_eq rfl rfl rfl rfl)
  unfold powerOff
  exact foldl_legal (fun u _ hu => halted u hu _ _) _ (restart_legal s)

theorem hotReset_legal (s : State) : HartsLegal (hotReset s) := by
  have again (i d) := romAll_legal (setDie_legal (withHostif_legal (restart_legal s) i) 0 d)
  unfold hotReset
  exact again _ _

theorem resetFunction_legal (hs : HartsLegal s) : HartsLegal (resetFunction s) := by
  have discarded (l) := foldl_legal (fun _ n hu => discardContext_legal hu n) l hs
  have dropped {u : State} (hu : HartsLegal u) (i) : HartsLegal { u with ctxs := [], queues := [], walks := [], hostif := i } := hu
  unfold resetFunction
  exact logUpdate_legal (emit_legal (dropped (setDie_legal (discarded _) 0 _) _) _ _ _ _ _ _)

theorem requestReset_legal (hs : HartsLegal s) : HartsLegal (requestReset s) := by
  unfold requestReset
  grind [resetFunction_legal, hartsLegal_of_harts]

theorem execRomSidebandTimeout_legal (hs : HartsLegal s) (die) : OutLegal (execRomSidebandTimeout die s) := by
  unfold execRomSidebandTimeout
  grind [romFail_legal, outLegal_next]

theorem scanPassed_legal (hs : HartsLegal s) (site) : HartsLegal (scanPassed s site) := setCoreOf_legal (resetSite_legal hs site) site _

theorem scanFailed_legal (hs : HartsLegal s) (site) : HartsLegal (scanFailed s site) := setCoreOf_legal hs site _

theorem execScanSite_legal (hs : HartsLegal s) (site pkg) : OutLegal (execScanSite site pkg s) := by
  unfold execScanSite
  grind [scanPassed_legal, scanFailed_legal, setDie_legal, emit_legal, logUpdate_legal, outLegal_next]

theorem selfTest_legal (hs : HartsLegal s) (d results) : HartsLegal (selfTest s d results) := by
  unfold selfTest
  dsimp only
  have tested := foldl_legal (s := s) (f := fun (s : State) (k : Nat) => s.setCoreOf k { s.coreOf k with
    test := siteTest (match results.find? fun r => r.1 % 1024 = k % 1024 with | some r => r.2.toNat | none => 2 ^ 15) })
    (fun u k hu => setCoreOf_legal hu k _) (sitesOf (d % 4)) hs
  split
  · exact failDie_legal tested _ _
  · split
    · exact failDie_legal tested _ _
    · exact tested

theorem execSelfTestComplete_legal (hs : HartsLegal s) (die results) : OutLegal (execSelfTestComplete die results s) := by
  unfold execSelfTestComplete
  grind [selfTest_legal, outLegal_next]

theorem execDiscoveryTimeout_legal (hs : HartsLegal s) (die) : OutLegal (execDiscoveryTimeout die s) := by
  unfold execDiscoveryTimeout
  grind [failDie_legal, outLegal_next]

theorem execMulticastTimeout_legal (hs : HartsLegal s) (die) : OutLegal (execMulticastTimeout die s) := by
  unfold execMulticastTimeout
  grind [failDie_legal, setDie_legal, outLegal_next]

theorem execPkgidWrite_legal (hs : HartsLegal s) (value) : OutLegal (execPkgidWrite value s) := by
  unfold execPkgidWrite
  grind [beginPhase2_legal, hartsLegal_of_harts, outLegal_next]

theorem execPkgidTimeout_legal (hs : HartsLegal s) : OutLegal (execPkgidTimeout s) := by
  unfold execPkgidTimeout
  grind [beginPhase2_legal, hartsLegal_of_harts, outLegal_next]

theorem beginPhase3_legal (hs : HartsLegal s) (d) : HartsLegal (beginPhase3 s d) := by
  unfold beginPhase3
  dsimp only
  split
  · exact foldl_legal (fun _ _ hu => startBasin_legal hu _) _ (setDie_legal hs _ _)
  · exact hs

theorem zeroFill_legal (hs : HartsLegal s) (d far) : HartsLegal (zeroFill s d far) := hs

theorem beginPhase4_legal (hs : HartsLegal s) (d) : HartsLegal (beginPhase4 s d) := by
  unfold beginPhase4
  dsimp only
  split
  · exact foldl_legal (fun _ k hu => setMtvec_legal hu k) _ (setDie_legal hs _ _)
  · exact hs

theorem settleStandby_legal (hs : HartsLegal s) : HartsLegal (settleStandby s) := by
  unfold settleStandby
  grind [hartsLegal_of_harts]

theorem exitFail_legal (hs : HartsLegal s) (d code) : HartsLegal (exitFail s d code) :=
  (failDie_legal hs d code)

theorem trainStep_legal (hs : HartsLegal s) (d far i o) : HartsLegal (trainStep s d far i o) := by
  unfold trainStep
  grind [setDie_legal, failDie_legal, exitFail_legal, settleStandby_legal, zeroFill_legal, beginPhase4_legal]

theorem beginPhase5_legal (hs : HartsLegal s) : HartsLegal (beginPhase5 s) := by
  unfold beginPhase5
  split
  · exact setLease_legal (foldl_legal (fun _ d hu => setDie_legal hu d _) _ hs) _ _
  · exact hs

theorem failEdge_legal (hs : HartsLegal s) (a b) : HartsLegal (failEdge s a b) := by
  unfold failEdge
  grind [exitFail_legal, failDie_legal]

theorem execUcieTraining_legal (hs : HartsLegal s) (die module passed) : OutLegal (execUcieTraining die module passed s) := by
  unfold execUcieTraining
  grind [bothEnds_legal, failEdge_legal, beginPhase5_legal, settleStandby_legal, outLegal_next]

theorem execFabricPortTraining_legal (hs : HartsLegal s) (die port o) : OutLegal (execFabricPortTraining die port o s) := by
  unfold execFabricPortTraining
  grind [setDie_legal, setPath_legal, beginPhase5_legal, settleStandby_legal, logUpdate_legal, outLegal_next]

theorem execPcieTraining_legal (hs : HartsLegal s) (o) : OutLegal (execPcieTraining o s) := by
  unfold execPcieTraining
  grind [hartsLegal_of_harts, outLegal_next]

/-! ## Standby -/

theorem saveActive_legal (hs : HartsLegal s) : HartsLegal (saveActive s) := by
  refine foldl_legal (fun u n hu => ?_) _ hs
  split
  · exact ctxSave_legal hu n
  · exact hu

/-- A hart that loses its power is as after reset; those of the cisterns keep what they hold. -/
theorem unpower_legal (hs : HartsLegal s) : HartsLegal (unpower s) := by
  have flushed := foldl_legal (fun _ k hu => flushAll_legal hu k) (s.cores.map (·.1)) hs
  refine foldl_legal (fun _ d hu => setDie_legal hu d _) _ fun k => ?_
  show (smGet (hartAtReset k) k (_ : SMap Hart)).Legal
  rw [smGet_filter (hartAtReset k) (fun k => decide (8 * 4160 ≤ k))]
  split
  · exact flushed.hart k
  · exact hartAtReset_legal k

theorem enterStandby_legal (hs : HartsLegal s) : HartsLegal (enterStandby s) := by
  unfold enterStandby
  grind [saveActive_legal, unpower_legal, hartsLegal_of_harts]

theorem dropSite_legal (hs : HartsLegal s) (k) : HartsLegal (dropSite s k) := setCoreOf_legal hs k _

theorem replaceSite_legal (hs : HartsLegal s) (k) : HartsLegal (replaceSite s k) := by
  unfold replaceSite
  grind [dropSite_legal, exitFail_legal, setCoreOf_legal, setMtvec_legal, setRemap_legal, reportMove_legal]

theorem retrain_legal (hs : HartsLegal s) (d) : HartsLegal (retrain s d) := hs

theorem testSites_legal (hs : HartsLegal s) (l : List (Nat × BitVec 16)) :
    HartsLegal (l.foldl (fun s r => s.setCoreOf r.1 { s.coreOf r.1 with test := siteTest r.2.toNat }) s) :=
  foldl_legal (fun _ _ hu => setCoreOf_legal hu _ _) l hs

theorem exitFails_legal (hs : HartsLegal s) (l : List (Nat × BitVec 16)) :
    HartsLegal (l.foldl (fun s r => exitFail s (r.1 / 1024) 0x07) s) := by
  refine foldl_legal ?_ l hs
  exact fun _ r hu => exitFail_legal hu (r.1 / 1024) 0x07

theorem setMtvecs_legal (hs : HartsLegal s) (l : List (Nat × Core)) : HartsLegal (l.foldl (fun s e => setMtvec s e.1) s) := by
  refine foldl_legal ?_ l hs
  exact fun _ e hu => setMtvec_legal hu e.1

theorem dropSites_legal (hs : HartsLegal s) (l : List (Nat × BitVec 16)) : HartsLegal (l.foldl (fun s r => dropSite s r.1) s) := by
  refine foldl_legal ?_ l hs
  exact fun _ r hu => dropSite_legal hu r.1

theorem replaceSites_legal (hs : HartsLegal s) (l : List (Nat × BitVec 16)) : HartsLegal (l.foldl (fun s r => replaceSite s r.1) s) := by
  refine foldl_legal ?_ l hs
  exact fun _ r hu => replaceSite_legal hu r.1

theorem startAll_legal (hs : HartsLegal s) : HartsLegal ((List.range 64).foldl startBasin ((List.range 4).foldl retrain s)) :=
  foldl_legal (fun _ b hu => startBasin_legal hu b) _ (foldl_legal (fun _ d hu => retrain_legal hu d) _ hs)

theorem leaveStandby_legal (hs : HartsLegal s) (results) : HartsLegal (leaveStandby s results) := by
  unfold leaveStandby
  split
  · exact hs
  · refine logUpdate_legal (startAll_legal (replaceSites_legal (dropSites_legal (setMtvecs_legal
      (exitFails_legal (testSites_legal ?_ _) _) _) _) _))
    exact hs

theorem bootReady_legal (hs : HartsLegal s) : HartsLegal (bootReady s) := by
  unfold bootReady
  split
  · have phased := foldl_legal (s := s) (f := fun s d => s.setDie d { s.die d with boot := { (s.die d).boot with phase := 6, ready := true } })
      (fun _ d hu => setDie_legal hu d _) (List.range 4) hs
    grind [resetFunction_legal, enterStandby_legal, hartsLegal_of_harts]
  · exact hs

theorem execLeaseClaim_legal (hs : HartsLegal s) (die candidate term) : OutLegal (execLeaseClaim die candidate term s) := by
  unfold execLeaseClaim
  grind [setLease_legal, takeLease_legal, bootReady_legal, outLegal_next]

theorem execPowerWindow_legal (hs : HartsLegal s) (watts tj) : OutLegal (execPowerWindow watts tj s) := by
  unfold execPowerWindow
  grind [powerOff_legal, hartsLegal_of_harts, outLegal_next]

/-! ## The host -/

theorem configWrite_legal (hs : HartsLegal s) (n v) : HartsLegal (configWrite s n v) := by
  unfold configWrite
  grind [requestReset_legal, enterStandby_legal, hartsLegal_of_harts]

theorem answer_legal (hs : HartsLegal s) (r) : HartsLegal (answer s r) := hs

theorem hostAccess_legal (hs : HartsLegal s) (a) : HartsLegal (hostAccess s a) := by
  unfold hostAccess
  grind [answer_legal, devWrite_legal, emit_legal]

theorem execHostAtomicCompleter_legal (hs : HartsLegal s) (a) : OutLegal (execHostAtomicCompleter a s) := by
  unfold execHostAtomicCompleter
  grind [answer_legal, devWrite_legal, outLegal_next]

theorem execHostBar0AccessError_legal (hs : HartsLegal s) (offset size) : OutLegal (execHostBar0AccessError offset size s) := by
  unfold execHostBar0AccessError
  grind [answer_legal, outLegal_next]

theorem execConfigurationRequest_legal (hs : HartsLegal s) (write offset value) :
    OutLegal (execConfigurationRequest write offset value s) := by
  unfold execConfigurationRequest
  grind [answer_legal, configWrite_legal, outLegal_next]

theorem drainPage_legal (hs : HartsLegal s) (pasid page k) : HartsLegal (drainPage s pasid page k) := by
  unfold drainPage
  grind [performWhere_legal]

theorem execAtsInvalidate_legal (hs : HartsLegal s) (pasid page) : OutLegal (execAtsInvalidate pasid page s) := by
  have drained := foldl_legal (fun _ k hu => drainPage_legal hu pasid page k) (s.cores.map (·.1)) hs
  exact drained

theorem biasGo_legal (hs : HartsLegal s) : HartsLegal (biasGo s) := hs

theorem execBiasPageFlip_legal (hs : HartsLegal s) : OutLegal (execBiasPageFlip s) := by
  unfold execBiasPageFlip HostIf.snoop
  grind [emit_legal, hartsLegal_of_harts, outLegal_next]

theorem putSlot_legal (hs : HartsLegal s) (a v) : HartsLegal (putSlot s a v) := devWrite_legal hs _ _ _

theorem proxyPlace_legal (hs : HartsLegal s) (cx va op size reserved) : HartsLegal (proxyPlace s cx va op size reserved).2 := by
  unfold proxyPlace
  grind [walkUpdate_legal]

theorem scanSlot_legal (hs : HartsLegal s) (n slot) : HartsLegal (scanSlot s n slot) := by
  unfold scanSlot
  grind [putSlot_legal, proxyPlace_legal, emit_legal]

theorem spdm_legal (hs : HartsLegal s) (r) : HartsLegal (spdm s r) := hs

/-! ## Register writes and the outside -/

theorem globalPut_legal (hs : HartsLegal s) (o w) : HartsLegal (globalPut s o w) := by
  unfold globalPut
  grind [biasGo_legal, hartsLegal_of_harts]

theorem ctxPut_legal (hs : HartsLegal s) (n o w) : HartsLegal (ctxPut s n o w) := by
  unfold ctxPut
  grind [ctxCommand_legal, setCtx_legal]

theorem queuePut_legal (hs : HartsLegal s) (n o w) : HartsLegal (queuePut s n o w) := by
  unfold queuePut
  grind [setQueue_legal, enableQueue_legal, stopQueue_legal, ringDoorbell_legal, clearQueueError_legal]

theorem bar0Write_legal (hs : HartsLegal s) (addr size v) : HartsLegal (bar0Write s addr size v) := by
  unfold bar0Write
  extract_lets
  split_ifs
  · exact hs
  · exact globalPut_legal hs _ _
  · exact hs
  · exact ctxPut_legal hs _ _ _
  · exact queuePut_legal hs _ _ _
  · exact withHostif_legal hs _
  · exact hs

theorem execRegisterWrite_legal (hs : HartsLegal s) (host addr size value) : OutLegal (execRegisterWrite host addr size value s) := by
  unfold execRegisterWrite
  grind [bar0Write_legal, ctlWrite_legal, outLegal_next]

theorem hostAtomic_legal (hs : HartsLegal s) (a) : HartsLegal (hostAtomic s a) := by
  unfold hostAtomic
  grind [answer_legal, hartsLegal_of_harts]

theorem hostLine_legal (hs : HartsLegal s) (pa data) : HartsLegal (hostLine s pa data) := by
  unfold hostLine
  grind [hostAccess_legal, devWrite_legal, answer_legal, hartsLegal_of_harts]

theorem hdmAccess_legal (hs : HartsLegal s) (a) : HartsLegal (hdmAccess s a) := by
  unfold hdmAccess
  grind [hostAccess_legal, answer_legal]

theorem bar4Access_legal (hs : HartsLegal s) (addr size value) : HartsLegal (bar4Access s addr size value) := by
  unfold bar4Access
  grind [answer_legal, hartsLegal_of_harts]

theorem outside_legal (hs : HartsLegal s) (e) : HartsLegal (outside s e) := by
  unfold outside
  grind [hostAtomic_legal, hostLine_legal, hdmAccess_legal, answer_legal, bar4Access_legal, poisonWord_legal, setBasin_legal, hearEdges_legal, tellEdges_legal, hartsLegal_of_harts]

/-! # Lanes, matrices, messages, textures, rays and scalar instructions keep every hart legal (O58) -/

/-! ## Lane threads -/

theorem laneTrap_legal (hs : HartsLegal s) (lane) : OutLegal (laneTrap s lane) := raise_legal hs _

theorem fetchWords_legal (n : Nat) : ∀ {s : State}, HartsLegal s → ∀ va, ResLegal Prod.snd (fetchWords s va n) := by
  induction n with
  | zero => exact fun hs _ => hs
  | succ n ih =>
    intro s hs va
    have fetched := fetchAt_legal hs va
    unfold fetchWords
    grind [resLegal_ok, resLegal_error]

theorem beginRegion_legal (hs : HartsLegal s) (base ws lanes) : HartsLegal (beginRegion s base ws lanes) :=
  setH_legal (setC_legal hs _) ((setC_legal hs _).h.of_eq rfl rfl rfl rfl)

theorem execLsplit_legal (hs : HartsLegal s) (rs1 rs2 mask) : OutLegal (execLsplit rs1 rs2 mask s) := by
  have fetched := fetchWords_legal (s.x rs2).toNat hs (s.x rs1)
  unfold execLsplit
  grind [raise_legal, finish_legal, waiting_legal, setC_legal, beginRegion_legal, resLegal_ok, resLegal_error, outLegal_next]

theorem endRegion_legal (hs : HartsLegal s) : HartsLegal (endRegion s) :=
  setH_legal (setC_legal hs _) ((setC_legal hs _).h.of_eq rfl rfl rfl rfl)

theorem execLjoin_legal (hs : HartsLegal s) : OutLegal (execLjoin s) := by
  have joined (r) : HartsLegal (s.setH { s.h with lanes := r }) := setH_legal hs (hs.h.of_eq rfl rfl rfl rfl)
  unfold execLjoin
  grind [endRegion_legal, raise_legal, outLegal_next]

/-! ## The matrix instructions -/

theorem matWrite_legal (hs : HartsLegal s) (vc w r) : HartsLegal (matWrite s vc w r) := fpPut_legal hs _ _ _ _

theorem matMul_legal (hs : HartsLegal s) (zero bs vc va vb fmt fromSp orient conv) :
    OutLegal (matMul zero bs vc va vb fmt fromSp orient conv s) := by
  unfold matMul
  refine vecMem_legal hs _ _ fun u hu => ?_
  split
  · exact stopAt_legal hu 0 0
  · exact matWrite_legal hu _ _ _

theorem matCvt_legal (hs : HartsLegal s) (sr vc vd fmt conv) : OutLegal (matCvt sr vc vd fmt conv s) :=
  vecOp_legal hs fun _ hu => fpPut_legal hu _ _ _ _

theorem execMzero_legal (hs : HartsLegal s) (vc fmt conv) : OutLegal (execMzero vc fmt conv s) :=
  vecOp_legal hs fun _ hu => matWrite_legal hu _ _ _

theorem drained_legal (hs : HartsLegal s) (zero vc code) : HartsLegal (drained s zero vc code) := by
  have flagged (f) : HartsLegal (s.orFlags f) := orFlags_legal hs f
  unfold drained
  dsimp only
  split
  · exact setH_legal (flagged _) ((flagged _).h.putElems ..)
  · exact flagged _

theorem matDrain_legal (hs : HartsLegal s) (zero vc xc xm fmt conv) : OutLegal (matDrain zero vc xc xm fmt conv s) := by
  unfold matDrain
  grind [raise_legal, refuseConvoy_legal, finish_legal, vdone_legal, waiting_legal, drained_legal, hand_legal]

/-! ## The message instructions -/

theorem sendOut_legal (hs : HartsLegal s) (m) : OutLegal (sendOut s m) := by
  unfold sendOut
  grind [waiting_legal, finish_legal, hand_legal]

theorem execMsend_legal (hs : HartsLegal s) (xo xc xm) : OutLegal (execMsend xo xc xm s) := by
  unfold execMsend
  grind [raise_legal, sendOut_legal]

theorem execMput_legal (hs : HartsLegal s) (xv xc xm width) : OutLegal (execMput xv xc xm width s) := by
  unfold execMput
  grind [raise_legal, sendOut_legal]

theorem execMwake_legal (hs : HartsLegal s) (xc xm) : OutLegal (execMwake xc xm s) := by
  unfold execMwake
  grind [raise_legal, sendOut_legal]

theorem joinFifo_legal (hs : HartsLegal s) (tag) : HartsLegal (joinFifo s tag) := by
  unfold joinFifo
  split
  · exact hs
  · exact setC_legal hs _

theorem leaveFifo_legal (hs : HartsLegal s) (tag) : HartsLegal (leaveFifo s tag) := setC_legal hs _

theorem mwaitHead_legal (hs : HartsLegal s) (rd e tag) : OutLegal (mwaitHead rd e tag s) := by
  have mailed (m) : HartsLegal (s.setC { s.c with mail := m }) := setC_legal hs _
  unfold mwaitHead
  grind [raise_legal, waiting_legal, leaveFifo_legal, finish_legal, setX_legal]

theorem execMwait_legal (hs : HartsLegal s) (rd xe tag) : OutLegal (execMwait rd xe tag s) := by
  unfold execMwait
  grind [joinFifo_legal, mwaitHead_legal, waiting_legal]

theorem execMcount_legal (hs : HartsLegal s) (rd tag) : OutLegal (execMcount rd tag s) := finish_legal (setX_legal hs _ _)

theorem locqRemote_legal (hs : HartsLegal s) (rd c) : OutLegal (locqRemote rd c s) := by
  have asked (u : State) (hu : HartsLegal u) (a) : HartsLegal (u.setH { u.h with asked := a }) := setH_legal hu (hu.h.of_eq rfl rfl rfl rfl)
  unfold locqRemote
  grind [finish_legal, setX_legal, waiting_legal, hand_legal]

theorem execLocq_legal (hs : HartsLegal s) (rd xc) : OutLegal (execLocq rd xc s) := by
  unfold execLocq
  grind [raise_legal, finish_legal, setX_legal, locqRemote_legal]

/-! ## Textures -/

theorem pinWord_legal (hs : HartsLegal s) (p : Pin) (j i a n) : ResLegal Prod.snd (pinWord p j i s a n) := by
  unfold pinWord
  grind [bypass_legal, hostSync_legal, resLegal_ok, resLegal_error]

theorem pinBytesFrom_legal (p : Pin) (j i f : Nat) :
    ∀ {s : State}, HartsLegal s → ∀ a n, ResLegal Prod.snd (pinBytesFrom p j i f s a n) := by
  induction f with
  | zero => exact fun hs _ _ => hs
  | succ f ih =>
    intro s hs a n
    have word := pinWord_legal hs p j i a (min n (4 - a % 4))
    unfold pinBytesFrom
    grind [resLegal_ok, resLegal_error]

theorem pinBytes_legal (hs : HartsLegal s) (p : Pin) (j i a n) : ResLegal Prod.snd (pinBytes p j i s a n) :=
  pinBytesFrom_legal p j i _ hs a n

theorem readTap_legal (hs : HartsLegal s) (t : Texture) (p layer j i) (k : Tap) : ResLegal Prod.snd (readTap t p layer j i s k) := by
  unfold readTap
  grind [pinBytes_legal, resLegal_ok, resLegal_error]

theorem readTaps_legal (t : Texture) (p : Pin) (layer j i : Nat) (ks : List Tap) :
    ∀ {s : State}, HartsLegal s → ResLegal Prod.snd (readTaps t p layer j i ks s) := by
  induction ks with
  | nil => exact fun hs => hs
  | cons k ks ih =>
    intro s hs
    have tap := readTap_legal hs t p layer j i k
    unfold readTaps
    grind [resLegal_ok, resLegal_error]

theorem sampleAt_legal (hs : HartsLegal s) (t : Texture) (p lod vd vs1 j i) : ResLegal id (sampleAt t p lod vd vs1 s j i) := by
  have mixed (u : State) (hu : HartsLegal u) (l : List Nat) (n v : Nat → Nat) :
      HartsLegal (u.setH (l.foldl (fun h c => h.setElem (n c) 32 j i (v c)) u.h)) :=
    setH_legal hu (foldl_hart_legal (fun _ _ hg => hg.setElem ..) l hu.h)
  have taps {layer ks r} (he : readTaps t p layer j i ks s = r) : ResLegal Prod.snd r := he ▸ readTaps_legal t p layer j i ks hs
  unfold sampleAt
  dsimp only
  split
  · next he => exact taps he
  · next u he => exact mixed u (taps he) _ _ _

theorem sampleEff_legal (hs : HartsLegal s) (lod vd vs1 d token ps) : ResLegal id (sampleEff lod vd vs1 d token ps s) := by
  unfold sampleEff
  split
  · exact hs
  next k rest =>
    split
    · exact hs
    next p _ =>
      have header := pinBytes_legal hs p k.1 k.2 d.toNat 64
      split
      next u t e => rw [e] at header; exact stopAt_legal header _ _
      next l u e =>
        rw [e] at header
        split
        · exact header
        · dsimp only
          split
          · exact header
          · exact eachPos_legal (fun _ _ _ hv => sampleAt_legal hv ..) _ header

theorem sampleOp_legal (hs : HartsLegal s) (lod vd vs1 xs2 mask conv token) : OutLegal (sampleOp lod vd vs1 xs2 mask conv token s) :=
  vecMem_legal hs _ _ fun _ hu => sampleEff_legal hu ..

/-! ## Rays -/

theorem testTris_legal (q : Query) (it : Item) (n : Nat) :
    ∀ x {s : State}, HartsLegal s → ∀ w, ResLegal Prod.fst (testTris q it n x s w) := by
  induction n with
  | zero => exact fun _ _ hs _ => hs
  | succ n ih =>
    intro x s hs w
    have read := pinBytes_legal hs q.pin q.row q.elem (q.bvh.tris + 48 * x) 48
    unfold testTris
    grind [resLegal_ok, resLegal_error]

theorem visitNode_legal (hs : HartsLegal s) (q it x w) : ResLegal Prod.fst (visitNode q it x s w) := by
  unfold visitNode
  grind [pinBytes_legal, resLegal_ok, resLegal_error]

theorem visitInst_legal (hs : HartsLegal s) (q it x w) : ResLegal Prod.fst (visitInst q it x s w) := by
  unfold visitInst
  grind [pinBytes_legal, resLegal_ok, resLegal_error]

theorem walkStep_legal (hs : HartsLegal s) (q it w) : ResLegal Prod.fst (walkStep q it s w) := by
  unfold walkStep
  grind [visitNode_legal, testTris_legal, visitInst_legal, resLegal_ok]

theorem walkFrom_legal (q : Query) (f : Nat) : ∀ {s : State}, HartsLegal s → ∀ w, ResLegal Prod.fst (walkFrom' q f s w) := by
  induction f with
  | zero => exact fun hs _ => hs
  | succ f ih =>
    intro s hs w
    unfold walkFrom'
    grind [walkStep_legal, resLegal_ok, resLegal_error]

theorem queryAt_legal (hs : HartsLegal s) (b : Bvh) (p any vd vs1 j i) : ResLegal id (queryAt b p any vd vs1 s j i) := by
  have hit (u : State) (hu : HartsLegal u) (l : List Nat) (n v : Nat → Nat) :
      HartsLegal (u.setH (l.foldl (fun h c => h.setElem (n c) 32 j i (v c)) u.h)) :=
    setH_legal hu (foldl_hart_legal (fun _ _ hg => hg.setElem ..) l hu.h)
  unfold queryAt
  dsimp only
  split
  next e he => split at he <;> grind [walkFrom_legal, resLegal_error]
  next u e he =>
    refine hit u ?_ _ _ _
    split at he <;> grind [walkFrom_legal, resLegal_ok]

theorem queryEff_legal (hs : HartsLegal s) (any vd vs1 d token ps) : ResLegal id (queryEff any vd vs1 d token ps s) := by
  unfold queryEff
  split
  · exact hs
  next k rest =>
    split
    · exact hs
    next p _ =>
      have header := pinBytes_legal hs p k.1 k.2 d.toNat 64
      split
      next u t e => rw [e] at header; exact stopAt_legal header _ _
      next l u e =>
        rw [e] at header
        split
        · exact header
        · dsimp only
          split
          · exact header
          · exact eachPos_legal (fun _ _ _ hv => queryAt_legal hv ..) _ header

theorem queryOp_legal (hs : HartsLegal s) (any vd vs1 xs2 mask conv token) : OutLegal (queryOp any vd vs1 xs2 mask conv token s) :=
  vecMem_legal hs _ _ fun _ hu => queryEff_legal hu ..

/-! ## Scalar instructions -/

theorem writeRd_legal (hs : HartsLegal s) (rd v) : OutLegal (writeRd rd v s) := finish_legal (setX_legal hs rd v)

theorem branch_legal (hs : HartsLegal s) (taken off) : OutLegal (branch taken off s) := finishEnd_legal hs _

theorem loadRd_legal (hs : HartsLegal s) (rd ea size sext) : OutLegal (loadRd rd ea size sext s) := by
  have loaded := load_legal hs ea size
  unfold loadRd
  grind [raise_legal, writeRd_legal, resLegal_ok, resLegal_error]

theorem storeReg_legal (hs : HartsLegal s) (rs ea size) : OutLegal (storeReg rs ea size s) :=
  store_legal (strongRelease_legal hs) ..

theorem released_legal (hs : HartsLegal s) (ord : BitVec 2) (scope) :
    HartsLegal (if ord.toNat / 2 = 1 then release s scope else strongRelease s) := by
  split
  · exact release_legal hs scope
  · exact strongRelease_legal hs

theorem atomic_legal (hs : HartsLegal s) (size zext op f rd rs1 rs2 scope ord) : OutLegal (atomic size zext op f rd rs1 rs2 scope ord s) := by
  have released := released_legal hs ord scope.toNat
  unfold atomic
  grind [rmw_legal, raise_legal, writeRd_legal, resLegal_ok, resLegal_error]

theorem execAmoaddF32_legal (hs : HartsLegal s) (rd rs1 rs2 scope ord) : OutLegal (execAmoaddF32 rd rs1 rs2 scope ord s) := by
  have released := released_legal hs ord scope.toNat
  unfold execAmoaddF32
  grind [rmw_legal, raise_legal, writeRd_legal, orFlags_legal, resLegal_ok, resLegal_error]

theorem fpRd_legal (hs : HartsLegal s) (f rd r) : OutLegal (fpRd f rd r s) := writeRd_legal (orFlags_legal hs _) _ _

theorem fpToInt_legal (hs : HartsLegal s) (f mode ty rd rs1) : OutLegal (fpToInt f mode ty rd rs1 s) :=
  writeRd_legal (orFlags_legal hs _) _ _

theorem fpCmp_legal (hs : HartsLegal s) (f c rd rs1 rs2) : OutLegal (fpCmp f c rd rs1 rs2 s) :=
  writeRd_legal (orFlags_legal hs _) _ _

theorem execJal_legal (hs : HartsLegal s) (rd off) : OutLegal (execJal rd off s) := finishEnd_legal (setX_legal hs _ _) _

theorem execJalr_legal (hs : HartsLegal s) (rd rs1 imm) : OutLegal (execJalr rd rs1 imm s) := by
  unfold execJalr
  grind [raise_legal, finishEnd_legal, setX_legal]

theorem execBsig_legal (hs : HartsLegal s) (imm) : OutLegal (execBsig imm s) := by
  have armed (c p) : HartsLegal (s.setH { s.h.running with checker := c, pc := p }) := setH_legal hs (hs.h.of_eq rfl rfl rfl rfl)
  unfold execBsig
  grind [takeTrapAt_legal, finish_legal, outLegal_next]

theorem execLsp_legal (hs : HartsLegal s) (rd rs1 rs2 width) : OutLegal (execLsp rd rs1 rs2 width s) := by
  have loaded := spLoad_legal hs (s.x rs1 + s.x rs2) (widthBytes width)
  unfold execLsp
  grind [raise_legal, writeRd_legal, resLegal_ok, resLegal_error]

theorem execSsp_legal (hs : HartsLegal s) (rs rs1 rs2 width) : OutLegal (execSsp rs rs1 rs2 width s) := by
  refine out_legal (spStore_legal ?_ _ _ _)
  split
  · exact flushAll_legal hs _
  · exact hs

theorem execFence_legal (hs : HartsLegal s) (scope ord) : OutLegal (execFence scope ord s) := by
  refine finish_legal ?_
  split
  · exact release_legal hs _
  · exact hs

/-! ## Spray events -/

theorem deliver_legal (hs : HartsLegal s) (kinds i) : HartsLegal (deliver kinds i s) := by
  have taken (l) : HartsLegal { s with net := l } := hs
  unfold deliver
  grind [partDone_legal, arrive_legal]

theorem execLocqReply_legal (hs : HartsLegal s) (hart value) : OutLegal (execLocqReply hart value s) := by
  have replied (v) : HartsLegal (s.setHartOf hart { s.hartOf hart with reply := v }) := setHartOf_legal hs hart ((hs.hart hart).of_eq rfl rfl rfl rfl)
  unfold execLocqReply
  grind [outLegal_next]

theorem execFreezeMarkArrival_legal (hs : HartsLegal s) (core peer mark) : OutLegal (execFreezeMarkArrival core peer mark s) := by
  refine (outLegal_next _).mpr ?_
  split
  · exact setCoreOf_legal hs core _
  · exact hs

/-- The definition is opened as a function: opened at its arguments, it would have the kernel evaluate the coordinates of the fragment. -/
theorem sendCtl_legal (hs : HartsLegal s) (die peer type seq data) : HartsLegal (sendCtl s die peer type seq data) := by
  suffices opened : ∀ send, send = sendCtl → HartsLegal (send s die peer type seq data) from opened _ rfl
  intro send e
  delta sendCtl at e
  subst e
  have outside (l) : HartsLegal { s with outFrags := l } := hs
  have inside (l) : HartsLegal { s with ctls := l } := hs
  beta_reduce
  extract_lets fragment
  split
  · exact hs
  · extract_lets flights
    split
    · exact outside _
    · exact inside _

theorem takeCtl_legal (hs : HartsLegal s) (die peer type seq data) {t : State} (e : takeCtl s die peer type seq data = some t) :
    HartsLegal t := by
  unfold takeCtl at e
  grind [hartsLegal_of_harts]

theorem finishSeq_legal (hs : HartsLegal s) (die peer seq lost) : HartsLegal (finishSeq s die peer seq lost) := by
  unfold finishSeq
  grind [setSpray_legal, sendCtl_legal]

theorem notePartLoss_legal (hs : HartsLegal s) (f) : HartsLegal (notePartLoss s f).2 := by
  unfold notePartLoss
  grind [onRecord_legal, atSite_legal]

theorem countLost_legal (hs : HartsLegal s) (die) : HartsLegal (countLost s die) := setSpray_legal hs _ _

theorem loseAtReceiver_legal (hs : HartsLegal s) (die peer b) : HartsLegal (loseAtReceiver s die peer b) := by
  unfold loseAtReceiver
  grind [countLost_legal, notePartLoss_legal, lostAtReceiver_legal, finishSeq_legal]

theorem execReassemblyTimerExpiry_legal (hs : HartsLegal s) (die peer seq) : OutLegal (execReassemblyTimerExpiry die peer seq s) := by
  unfold execReassemblyTimerExpiry
  grind [sendCtl_legal, setSpray_legal, loseAtReceiver_legal, outLegal_next]

theorem execDecodedPacketAccepted_legal (hs : HartsLegal s) (die peer seq) : OutLegal (execDecodedPacketAccepted die peer seq s) := by
  unfold execDecodedPacketAccepted refuseAtReceiver
  grind [finishSeq_legal, arrive_legal, loseAtReceiver_legal, outLegal_next]

theorem ackEntry_legal (hs : HartsLegal s) (ack lostmap e) : HartsLegal (ackEntry ack lostmap s e) := by
  unfold ackEntry
  grind [lostAtSender_legal, partDone_legal]

theorem ackArrives_legal (hs : HartsLegal s) (die peer ack lostmap) : HartsLegal (ackArrives s die peer ack lostmap) :=
  foldl_legal (fun _ _ hu => ackEntry_legal hu _ _ _) _ (setSpray_legal hs _ _)

theorem requestArrives_legal (hs : HartsLegal s) (die peer seq groups) : HartsLegal (requestArrives s die peer seq groups) := by
  unfold requestArrives
  grind [fly_legal, setSpray_legal]

theorem probeArrives_legal (hs : HartsLegal s) (die peer next) : HartsLegal (probeArrives s die peer next) :=
  sendCtl_legal (setSpray_legal hs _ _) _ _ _ _ _

theorem execSprayAck_legal (hs : HartsLegal s) (die peer ack lostmap) : OutLegal (execSprayAck die peer ack lostmap s) := by
  unfold execSprayAck
  grind [takeCtl_legal, ackArrives_legal, outLegal_next]

theorem execSprayRequest_legal (hs : HartsLegal s) (die peer seq groups) : OutLegal (execSprayRequest die peer seq groups s) := by
  unfold execSprayRequest
  grind [takeCtl_legal, requestArrives_legal, outLegal_next]

theorem execSprayProbe_legal (hs : HartsLegal s) (die peer next) : OutLegal (execSprayProbe die peer next s) := by
  unfold execSprayProbe
  grind [takeCtl_legal, probeArrives_legal, outLegal_next]

theorem execProbeIntervalExpiry_legal (hs : HartsLegal s) (die peer) : OutLegal (execProbeIntervalExpiry die peer s) := by
  unfold execProbeIntervalExpiry
  grind [sendCtl_legal, outLegal_next]

theorem ctlArrives_legal (hs : HartsLegal s) (die f) : HartsLegal (ctlArrives s die f) := by
  unfold ctlArrives
  grind [ackArrives_legal, requestArrives_legal, probeArrives_legal]

theorem storeOrDrop_legal (hs : HartsLegal s) (die path f) : HartsLegal (storeOrDrop s die path f) := by
  unfold storeOrDrop
  grind [setSpray_legal, pathFault_legal]

theorem receiveFragment_legal (hs : HartsLegal s) (die path f) : HartsLegal (receiveFragment s die path f) := by
  unfold receiveFragment
  grind [ctlArrives_legal, storeOrDrop_legal]

theorem relayFragment_legal (hs : HartsLegal s) (die f) : HartsLegal (relayFragment s die f) := by
  have relayed (l) : HartsLegal { s with ctls := l } := hs
  unfold relayFragment
  grind [fly_legal]

theorem execFragmentArrival_legal (hs : HartsLegal s) (die path f) : OutLegal (execFragmentArrival die path f s) := by
  have landed (l) : HartsLegal { s with frags := l } := hs
  have landedCtl (l) : HartsLegal { s with ctls := l } := hs
  unfold execFragmentArrival
  grind [receiveFragment_legal, relayFragment_legal, outLegal_next]

/-! ## System instructions -/

theorem putSysReg_legal (hs : HartsLegal s) (n v) : HartsLegal (putSysReg s n v) := by
  unfold putSysReg
  split
  · exact putWmember_legal hs _
  · exact setH_legal hs (hs.h.putReg ..)

theorem execSget_legal (hs : HartsLegal s) (rd num) : OutLegal (execSget rd num s) := by
  unfold execSget
  grind [finish_legal, setX_legal, raise_legal]

theorem execSput_legal (hs : HartsLegal s) (rs1 num) : OutLegal (execSput rs1 num s) := by
  unfold execSput
  grind [finish_legal, putSysReg_legal, raise_legal]

theorem returnWith_legal (hs : HartsLegal s) {f : Hart → Hart} (hf : ∀ h, h.Legal → (f h).Legal) : OutLegal (returnWith s f) := by
  have back := setH_legal hs (hf _ hs.h.running)
  unfold returnWith
  grind [takeTrapAt_legal, outLegal_next]

theorem privileged_legal (hs : HartsLegal s) : OutLegal (privileged s) := raise_legal hs _

theorem execSret_legal (hs : HartsLegal s) : OutLegal (execSret s) := by
  unfold execSret
  split
  · exact privileged_legal hs
  · exact returnWith_legal hs fun _ hh => hh.returnS

theorem execMret_legal (hs : HartsLegal s) : OutLegal (execMret s) := by
  unfold execMret
  split
  · exact privileged_legal hs
  · exact returnWith_legal hs fun _ hh => hh.returnM

theorem execIfence_legal (hs : HartsLegal s) : OutLegal (execIfence s) := by
  have flushed := flushAll_legal hs s.agent
  exact finish_legal (setC_legal flushed _)

theorem maintPlace_legal (hs : HartsLegal s) (ea) : ResLegal Prod.snd (maintPlace s ea) := by
  unfold maintPlace
  grind [translate_legal, resLegal_ok, resLegal_error]

theorem maintLine_legal (hs : HartsLegal s) (ea) {f : State → Loc → State} (hf : ∀ u l, HartsLegal u → HartsLegal (f u l)) :
    OutLegal (maintLine s ea f) := by
  have placed := maintPlace_legal hs ea
  unfold maintLine
  grind [raise_legal, finish_legal, flushAll_legal, resLegal_ok, resLegal_error]

theorem dropLines_legal (hs : HartsLegal s) (f) : HartsLegal (dropLines s f) := setC_legal hs _

theorem execCinv_legal (hs : HartsLegal s) (rs1) : OutLegal (execCinv rs1 s) := by
  refine maintLine_legal hs _ fun u l hu => ?_
  split
  · exact dropLines_legal hu _
  · exact hu

theorem execCinvall_legal (hs : HartsLegal s) : OutLegal (execCinvall s) :=
  finish_legal (dropLines_legal (flushAll_legal hs _) _)

theorem execCwb_legal (hs : HartsLegal s) (rs1) : OutLegal (execCwb rs1 s) := by
  unfold execCwb
  split
  · exact privileged_legal hs
  · exact maintLine_legal hs _ fun _ _ hu => hu

theorem execHalt_legal (hs : HartsLegal s) : OutLegal (execHalt s) := by
  have halted (u : State) (hu : HartsLegal u) (r t p) : HartsLegal (u.setH { u.h.waitOn r t p with run := .halted }) :=
    setH_legal hu (hu.h.of_eq rfl rfl rfl rfl)
  unfold execHalt
  grind [privileged_legal, finishEnd_legal, retireEnd_legal, afterHalt_legal, waiting_legal, withFreeCtr_legal, outLegal_next]

/-! # Every instruction and event keeps every hart legal (O58) -/

/-! ## Families of instructions: what each writes -/

theorem genSweep_legal (hs : HartsLegal s) (f rv extra vd mask conv) : OutLegal (genSweep f rv extra vd mask conv s) := by
  unfold genSweep
  exact vecOp_legal hs fun _ hu => setH_legal hu (hu.h.putElems ..)

theorem intSweep_legal (hs : HartsLegal s) (f vd vs1 vs2 mask conv scalar ty) : OutLegal (intSweep f vd vs1 vs2 mask conv scalar ty s) := by
  unfold intSweep
  exact vecOp_legal hs fun _ hu => setH_legal hu (hu.h.putElems ..)

theorem wideSweep_legal (hs : HartsLegal s) (f unary vd vs1 vs2 mask conv scalar ty) :
    OutLegal (wideSweep f unary vd vs1 vs2 mask conv scalar ty s) := by
  unfold wideSweep
  exact vecOp_legal hs fun _ hu => setH_legal hu (hu.h.putElems ..)

theorem narrowSweep_legal (hs : HartsLegal s) (f vd vs1 mask conv ty) : OutLegal (narrowSweep f vd vs1 mask conv ty s) := by
  unfold narrowSweep
  exact vecOp_legal hs fun _ hu => setH_legal hu (hu.h.putElems ..)

theorem cmpSweep_legal (hs : HartsLegal s) (f md vs1 vs2 mask conv scalar ty) : OutLegal (cmpSweep f md vs1 vs2 mask conv scalar ty s) := by
  unfold cmpSweep
  exact vecOp_legal hs fun _ hu => setH_legal hu (hu.h.putMask ..)

theorem maskSweep_legal (hs : HartsLegal s) (f md ma mb rm conv) : OutLegal (maskSweep f md ma mb rm conv s) := by
  unfold maskSweep
  exact vecOp_legal hs fun _ hu => setH_legal hu (hu.h.putMask ..)

theorem permSweep_legal (hs : HartsLegal s) (f extra two vd vs1 vs2 mask conv ty) :
    OutLegal (permSweep f extra two vd vs1 vs2 mask conv ty s) := by
  unfold permSweep
  exact vecOp_legal hs fun _ hu => setH_legal hu (hu.h.putElems ..)

theorem macSweep_legal (hs : HartsLegal s) (f extra vd vs1 vs2 vs3 mask conv) : OutLegal (macSweep f extra vd vs1 vs2 vs3 mask conv s) := by
  unfold macSweep
  exact vecOp_legal hs fun _ hu => setH_legal hu (hu.h.putElems ..)

theorem wmacSweep_legal (hs : HartsLegal s) (signed vd vs1 vs2 vs3 mask conv) : OutLegal (wmacSweep signed vd vs1 vs2 vs3 mask conv s) := by
  unfold wmacSweep
  exact vecOp_legal hs fun _ hu => setH_legal hu (hu.h.putElems ..)

theorem fcmpSweep_legal (hs : HartsLegal s) (c md vs1 vs2 mask conv scalar ty) :
    OutLegal (fcmpSweep c md vs1 vs2 mask conv scalar ty s) := by
  unfold fcmpSweep
  exact vecOp_legal hs fun _ hu => setH_legal hu ((hu.h.putMask ..).orFlags _)

theorem fpSweep_legal (hs : HartsLegal s) (op unary vd vs1 vs2 mask conv scalar ty) :
    OutLegal (fpSweep op unary vd vs1 vs2 mask conv scalar ty s) := by
  unfold fpSweep
  exact vecOp_legal hs fun _ hu => fpPut_legal hu _ _ _ _

theorem fmaSweep_legal (hs : HartsLegal s) (np nc vd vs1 vs2 vs3 mask conv bf16) :
    OutLegal (fmaSweep np nc vd vs1 vs2 vs3 mask conv bf16 s) := by
  unfold fmaSweep
  exact vecOp_legal hs fun _ hu => fpPut_legal hu _ _ _ _

theorem intRed_legal (hs : HartsLegal s) (f signed vd vs1 vs2 mask conv toX perRow) :
    OutLegal (intRed f signed vd vs1 vs2 mask conv toX perRow s) := by
  unfold intRed
  exact reduceOp_legal hs ..

theorem fpRed_legal (hs : HartsLegal s) (red bf16 vd vs1 vs2 mask conv toX perRow) :
    OutLegal (fpRed red bf16 vd vs1 vs2 mask conv toX perRow s) := by
  unfold fpRed
  exact reduceOp_legal hs ..

theorem orderedRed_legal (hs : HartsLegal s) (bf16 vd vs1 vs2 mask conv) : OutLegal (orderedRed bf16 vd vs1 vs2 mask conv s) := by
  unfold orderedRed
  exact fpRed_legal hs ..

theorem execVmerge_legal (hs : HartsLegal s) (vd vs1 vs2 mask conv scalar ty) : OutLegal (execVmerge vd vs1 vs2 mask conv scalar ty s) := by
  unfold execVmerge
  exact vecOp_legal hs fun _ hu => setH_legal hu (hu.h.putElems ..)

theorem execVcvt_legal (hs : HartsLegal s) (vd vs1 mask conv alt src dst) : OutLegal (execVcvt vd vs1 mask conv alt src dst s) := by
  unfold execVcvt
  exact vecOp_legal hs fun _ hu => fpPut_legal hu _ _ _ _

theorem execVbsdq_legal (hs : HartsLegal s) (vd vs1 vs3 mask conv fmt) : OutLegal (execVbsdq vd vs1 vs3 mask conv fmt s) := by
  unfold execVbsdq
  exact vecOp_legal hs fun _ hu => fpPut_legal hu _ _ _ _

theorem execVcompress_legal (hs : HartsLegal s) (vd vs1 mask conv ty) : OutLegal (execVcompress vd vs1 mask conv ty s) := by
  unfold execVcompress
  exact vecOp_legal hs fun _ hu => setH_legal hu (foldl_hart_legal (fun _ _ hg => hg.setElem ..) _ hu.h)

theorem execVmvv_legal (hs : HartsLegal s) (vd vs1 vs2 conv) : OutLegal (execVmvv vd vs1 vs2 conv s) := by
  unfold execVmvv
  exact vecOp_legal hs fun _ hu => setH_legal hu (hu.h.setElem ..)

theorem execVbsq_legal (hs : HartsLegal s) (vd vs1 vs3 mask conv fmt) : OutLegal (execVbsq vd vs1 vs3 mask conv fmt s) := by
  have scaled (u : State) (hu : HartsLegal u) (n ps f g) : HartsLegal (u.setH ((u.h.putElems n 8 ps f).orFlags g)) :=
    setH_legal hu ((hu.h.putElems ..).orFlags _)
  unfold execVbsq
  exact vecOp_legal hs fun u hu => scaled _ (fpPut_legal hu _ _ _ _) _ _ _ _

theorem fpBin_legal (hs : HartsLegal s) (f op rd rs1 rs2) : OutLegal (fpBin f op rd rs1 rs2 s) := fpRd_legal hs _ _ _

theorem fpFused_legal (hs : HartsLegal s) (f np nc rd rs1 rs2) : OutLegal (fpFused f np nc rd rs1 rs2 s) := fpRd_legal hs _ _ _

theorem fpCvt_legal (hs : HartsLegal s) (src dst rd rs1) : OutLegal (fpCvt src dst rd rs1 s) := fpRd_legal hs _ _ _

theorem execSpdmChallenge_legal (hs : HartsLegal s) (slot nonce) : OutLegal (execSpdmChallenge slot nonce s) :=
  withFreeCtr_legal (spdm_legal hs _) _

/-! ## The instruction -/

theorem exec_legal (hs : HartsLegal s) (i : Instr) : OutLegal (exec i s) := by
  cases i with simp only [exec]
  | add | sub | and | or | xor | sll | srl | sra | slt | sltz | addw | subw | min | max | minz | maxz | mul | mulh | mulhz | div | divz | rem |
    remz | slli | srli | srai | rori | clz | ctz | cpop | rev8 | zeqz | znez | addi | andi | ori | lui | auipc | fclass =>
    apply writeRd_legal hs
  | jal => apply execJal_legal hs
  | jalr => apply execJalr_legal hs
  | bsig => apply execBsig_legal hs
  | lsp => apply execLsp_legal hs
  | ssp => apply execSsp_legal hs
  | amoaddF32 => apply execAmoaddF32_legal hs
  | fence => apply execFence_legal hs
  | vshape => apply execVshape_legal hs
  | vexit => apply execVexit_legal hs
  | lsplit => apply execLsplit_legal hs
  | ljoin => apply execLjoin_legal hs
  | vpin => apply execVpin_legal hs
  | vunpin => apply execVunpin_legal hs
  | vspill => apply execVspill_legal hs
  | vfill => apply execVfill_legal hs
  | mzero => apply execMzero_legal hs
  | msend => apply execMsend_legal hs
  | mput => apply execMput_legal hs
  | mwake => apply execMwake_legal hs
  | mwait => apply execMwait_legal hs
  | mcount => apply execMcount_legal hs
  | locq => apply execLocq_legal hs
  | swait => apply execSwait_legal hs
  | sfault => apply execSfault_legal hs
  | sreplay => apply execSreplay_legal hs
  | warrive => apply execWarrive_legal hs
  | wwait => apply execWwait_legal hs
  | tend => apply execTend_legal hs
  | tpost => apply execTpost_legal hs
  | glaunch => apply execGlaunch_legal hs
  | wreserve => apply execWreserve_legal hs
  | wcommit => apply execWcommit_legal hs
  | qpush => apply execQpush_legal hs
  | qend => apply execQend_legal hs
  | pxlock => apply execPxlock_legal hs
  | pxunlock => apply execPxunlock_legal hs
  | pxskip => apply execPxskip_legal hs
  | sget => apply execSget_legal hs
  | sput => apply execSput_legal hs
  | sret => apply execSret_legal hs
  | mret => apply execMret_legal hs
  | ifence => apply execIfence_legal hs
  | cinv => apply execCinv_legal hs
  | cinvall => apply execCinvall_legal hs
  | cwb => apply execCwb_legal hs
  | halt => apply execHalt_legal hs
  | hartStateMachineCheck => apply execHartStateMachineCheck_legal hs
  | budgetExpiry => apply execBudgetExpiry_legal hs
  | freezeMarkArrival => apply execFreezeMarkArrival_legal hs
  | coreCompleteReport => apply execCoreCompleteReport_legal hs
  | runAheadStart => apply execRunAheadStart_legal hs
  | ownerReserve => apply execOwnerReserve_legal hs
  | locqReply => apply execLocqReply_legal hs
  | fragmentArrival => apply execFragmentArrival_legal hs
  | reassemblyTimerExpiry => apply execReassemblyTimerExpiry_legal hs
  | decodedPacketAccepted => apply execDecodedPacketAccepted_legal hs
  | sprayAck => apply execSprayAck_legal hs
  | sprayRequest => apply execSprayRequest_legal hs
  | sprayProbe => apply execSprayProbe_legal hs
  | probeIntervalExpiry => apply execProbeIntervalExpiry_legal hs
  | atsInvalidate => apply execAtsInvalidate_legal hs
  | frameOpen => apply execFrameOpen_legal hs
  | binRecord => apply execBinRecord_legal hs
  | qendMarkArrival => apply execQendMarkArrival_legal hs
  | tileResolve => apply execTileResolve_legal hs
  | tileNotification => apply execTileNotification_legal hs
  | frameComplete => apply execFrameComplete_legal hs
  | pixelLockGrant => apply execPixelLockGrant_legal hs
  | ctxRestore => apply execCtxRestore_legal hs
  | gangLaunchPacket => apply execGangLaunchPacket_legal hs
  | framePacket => apply execFramePacket_legal hs
  | indirectPacket => apply execIndirectPacket_legal hs
  | loadPacket => apply execLoadPacket_legal hs
  | shootdownPacket => apply execShootdownPacket_legal hs
  | launchCompletion => apply execLaunchCompletion_legal hs
  | poolDispatch => apply execPoolDispatch_legal hs
  | hostAtomicCompleter => apply execHostAtomicCompleter_legal hs
  | hostBar0AccessError => apply execHostBar0AccessError_legal hs
  | biasPageFlip => apply execBiasPageFlip_legal hs
  | correctedError => apply execCorrectedError_legal hs
  | leakTick => apply execLeakTick_legal hs
  | patrolScrub => apply execPatrolScrub_legal hs
  | basinHeartbeat => apply execBasinHeartbeat_legal hs
  | agentFailed => apply execAgentFailed_legal hs
  | fatalSequence => apply execFatalSequence_legal hs
  | siphonHold => apply execSiphonHold_legal hs
  | siphonCopy => apply execSiphonCopy_legal hs
  | siphonState => apply execSiphonState_legal hs
  | siphonFlip => apply execSiphonFlip_legal hs
  | siphonRelease => apply execSiphonRelease_legal hs
  | siphonAbort => apply execSiphonAbort_legal hs
  | waitCycleWalk => apply execWaitCycleWalk_legal hs
  | waitCycleConfirm => apply execWaitCycleConfirm_legal hs
  | scanSite => apply execScanSite_legal hs
  | pathRetrain => apply execPathRetrain_legal hs
  | leaseHeartbeatSend => apply execLeaseHeartbeatSend_legal hs
  | leaseHeartbeatReceive => apply execLeaseHeartbeatReceive_legal hs
  | leaseLapse => apply execLeaseLapse_legal hs
  | leaseClaim => apply execLeaseClaim_legal hs
  | romSidebandTimeout => apply execRomSidebandTimeout_legal hs
  | selfTestComplete => apply execSelfTestComplete_legal hs
  | discoveryTimeout => apply execDiscoveryTimeout_legal hs
  | multicastTimeout => apply execMulticastTimeout_legal hs
  | ucieTraining => apply execUcieTraining_legal hs
  | fabricPortTraining => apply execFabricPortTraining_legal hs
  | pcieTraining => apply execPcieTraining_legal hs
  | pkgidWrite => apply execPkgidWrite_legal hs
  | pkgidTimeout => apply execPkgidTimeout_legal hs
  | powerWindow => apply execPowerWindow_legal hs
  | registerWrite => apply execRegisterWrite_legal hs
  | leaseHeartbeatAck => apply execLeaseHeartbeatAck_legal hs
  | leaderLeaseExpiry => apply execLeaderLeaseExpiry_legal hs
  | claimRetry => apply execClaimRetry_legal hs
  | hostWriteRefusal => apply execHostWriteRefusal_legal hs
  | configurationRequest => apply execConfigurationRequest_legal hs
  | beq | bne | blt | bge => apply branch_legal hs
  | ld | lw | lwz | lbz | lx | ldaW | ldaD => apply loadRd_legal hs
  | staW | staD => exact storeReg_legal (release_legal hs _) ..
  | sd | sw | sx => apply storeReg_legal hs
  | amoswapD | amoswapW | amoaddD | amoaddW | amoandD | amoandW | amoorD | amoorW | amoxorD | amoxorW | amominD | amominW | amomaxD | amomaxW |
    amominzD | amominzW | amomaxzD | amomaxzW | amocasD | amocasW => apply atomic_legal hs
  | faddF64 | fsubF64 | fmulF64 | fdivF64 | faddF32 | fsubF32 | fmulF32 | fdivF32 => apply fpBin_legal hs
  | fsqrtF64 | fsqrtF32 | itof | fmin | fmax => apply fpRd_legal hs
  | fmacF64 | fmscF64 | fnmacF64 | fmacF32 | fmscF32 | fnmacF32 => apply fpFused_legal hs
  | ftoi | ftrc => apply fpToInt_legal hs
  | fnarrowF32 | fnarrowF16 | fnarrowBf16 | fwidenF32 | fwidenF16 | fwidenBf16 => apply fpCvt_legal hs
  | feq | flt | fle => apply fpCmp_legal hs
  | vmvx | vmvxz => apply moveToX_legal hs
  | vbsq => apply execVbsq_legal hs
  | biasFlipGo => exact biasGo_legal (hs)
  | pathLeakTick => apply setPath_legal hs
  | spdmChallenge => apply execSpdmChallenge_legal hs
  | vbcast | vmv | vid | vidr | vidf => apply genSweep_legal hs
  | vadd | vsub | vrsub | vmin | vminz | vmax | vmaxz | vsadd | vsaddz | vssub | vssubz | vmul | vmulh | vmulhz | vdiv | vdivz | vrem | vremz |
    vand | vor | vxor | vandn | vsll | vsrl | vsra | vror => apply intSweep_legal hs
  | vwadd | vwaddz | vwsub | vwsubz | vext | vextz | vwmul | vwmulz => apply wideSweep_legal hs
  | vnarrow | vnsat | vnsatz | vnclampz => apply narrowSweep_legal hs
  | vseq | vsne | vslt | vsltz | vsle | vslez | vsgt | vsgtz => apply cmpSweep_legal hs
  | mand | mor | mxor | mandn | mnot | mset | mclr => apply maskSweep_legal hs
  | mpop | mfirst => exact vecOp_legal hs fun _ hu => setX_legal hu _ _
  | vfadd | vfsub | vfrsub | vfmul | vfdiv | vfrdiv | vfsqrt | vfmin | vfmax | vfsgnj | vfsgnjn | vfsgnjx | vfclass => apply fpSweep_legal hs
  | vfmac | vfmsc | vfnmac | vfnmsc => apply fmaSweep_legal hs
  | vmac | vnmac | vdot4 | vdot4z => apply macSweep_legal hs
  | vwmac | vwmacz => apply wmacSweep_legal hs
  | vfeq | vfne | vflt | vfle | vfgt | vfge => apply fcmpSweep_legal hs
  | vslideup | vslidedown | vrgather | vrowbc => apply permSweep_legal hs
  | vredsum | vredmin | vredminz | vredmax | vredmaxz => apply intRed_legal hs
  | vfredo | vfredoBf16 => apply orderedRed_legal hs
  | vfredt | vfredtBf16 | vfredmin | vfredminBf16 | vfredmax | vfredmaxBf16 => apply fpRed_legal hs
  | vld | vldIndexed => apply vecLoad_legal hs
  | vldCw | vldIndexedCw => apply vecLoadCw_legal hs
  | vst | vstm | vstIndexed | vstmIndexed => apply vecStore_legal hs
  | vamoaddW | vamoaddD | vamominW | vamomaxW | vamoaddF32 | vamoaddF16 | vamoaddBf16 | vamoaddWDup | vamoaddDDup | vamominWDup | vamomaxWDup |
    vamoaddF32Dup | vamoaddF16Dup | vamoaddBf16Dup => apply vecAtomic_legal hs
  | mmul | mmulz | mmulBs | mmulzBs => apply matMul_legal hs
  | mcvt | mcvtSr => apply matCvt_legal hs
  | mdrain | mdrainz => apply matDrain_legal hs
  | scopyin | scopyout | scopy2inRow | scopy2inCol | scopy2outRow | scopy2outCol | scopyr => apply sluiceOp_legal hs
  | sgatherRow | sgatherCol => apply gatherOp_legal hs
  | wtest => exact finish_legal (setX_legal hs _ _)
  | thold | tready | tenable => apply taskBitOp_legal hs
  | tsample | tsampleLod => apply sampleOp_legal hs
  | rquery | rqueryAny => apply queryOp_legal hs
  | trap | brk | illegalEncoding => apply raise_legal hs
  | cwbinv => exact execCwb_legal hs _
  | taskStart => apply startTask_legal hs
  | messageDelivery | drainDelivery | scopyrPartDelivery | taskBitMessage => apply deliver_legal hs
  | locqQuery => exact hs
  | weirBroadcast => apply weirReach_legal hs
  | sluiceChunk => apply sluiceChunkEff_legal hs
  | prgResponse | pageRequestTimeout => apply pageResponse_legal hs
  | ctxActivate => exact whenReady_legal hs (ctxActivate_legal hs _)
  | ctxSave => exact whenReady_legal hs (ctxSave_legal hs _)
  | ctxRelease => exact whenReady_legal hs (ctxRelease_legal hs _)
  | ctxInvalidCommand => exact whenReady_legal hs (ctxCommand_legal hs _ _)
  | queueEnable => exact whenReady_legal hs (enableQueue_legal hs _)
  | queueDisable => exact whenReady_legal hs (stopQueue_legal hs _)
  | doorbell => exact whenReady_legal hs (ringDoorbell_legal hs _ _)
  | qerrClear => exact whenReady_legal hs (clearQueueError_legal hs _)
  | saveRecordWrite => apply saveRecord_legal hs
  | signalPacket => exact packetStep_legal hs _ _ fun _ _ hu => hu
  | hostDeviceMemoryAccess => apply hostAccess_legal hs
  | hostSnoop => apply answer_legal hs
  | postAreaScan => apply scanSlot_legal hs
  | functionLevelReset => apply requestReset_legal hs
  | hotReset => exact hotReset_legal s
  | powerOn => exact coldBoot_legal s
  | standbyEntry => apply enterStandby_legal hs
  | standbyExit => apply leaveStandby_legal hs
  | linkFlitCrcDrop => apply pathFault_legal hs
  | discoveryFlood => apply floodStart_legal hs
  | discoveryReport => apply floodReport_legal hs
  | multicastGo => exact mcastGo_legal (mcastFields_legal hs _ _ _) _
  | multicastAck => apply mcastWrite_legal hs
  | siteasgWrite => apply putSiteAsg_legal hs
  | sitegoGo => apply siteGo_legal hs
  | sitegoClr => apply siteClr_legal hs
  | ncevPop => apply popEvent_legal hs
  | ncpost => apply postNode_legal hs
  | memoryTrainingStep => apply trainStep_legal (beginPhase3_legal hs _)
  | spdmGetVersion | spdmGetCapabilities | spdmNegotiateAlgorithms | spdmGetDigests | spdmGetCertificate | spdmGetMeasurements |
    spdmUnsupported => apply spdm_legal hs
  | storePerformed => apply performAt_legal hs
  | vmerge => apply execVmerge_legal hs
  | vcvt => apply execVcvt_legal hs
  | vbsdq => apply execVbsdq_legal hs
  | vcompress => apply execVcompress_legal hs
  | vmvv => apply execVmvv_legal hs

/-! ## The turn of a hart or of a lane -/

theorem withWord_legal (hs : HartsLegal s) (w) : HartsLegal { s with word := w } := hs

theorem runInstr_legal (hs : HartsLegal s) : OutLegal (runInstr s) := by
  have fetched := fetch_legal hs
  unfold runInstr
  grind [raise_legal, exec_legal, withWord_legal, resLegal_ok, resLegal_error]

theorem offLane_legal (hs : HartsLegal s) : HartsLegal { s with lane := none } := hs

theorem runLane_legal (hs : HartsLegal s) (l) : OutLegal (runLane s l) := by
  have onLane : HartsLegal { s with lane := some l } := hs
  unfold runLane
  split
  · exact hs
  next r _ =>
    dsimp only
    split
    · exact hs
    · split
      · exact laneTrap_legal onLane l
      next w _ =>
        split
        · exact laneTrap_legal onLane l
        · have ran := exec_legal (withWord_legal onLane w) (instrOfWord w)
          split
          next t e =>
            rw [e] at ran
            split
            · exact laneTrap_legal onLane l
            · exact offLane_legal ran
          · exact ran

theorem runNext_legal (hs : HartsLegal s) : OutLegal (runNext s) := by
  unfold runNext
  grind [runLane_legal, runInstr_legal, outLegal_next]

theorem runDue_legal (hs : HartsLegal s) {t : State} (ht : HartsLegal t) : OutLegal (runDue s t) := by
  have ran := runInstr_legal hs
  unfold runDue
  grind [outLegal_next]

theorem runHart_legal (hs : HartsLegal s) : OutLegal (runHart s) := by
  unfold runHart
  grind [coreFirmware_legal, romTurn_legal, runDue_legal, asyncTurn_legal, runNext_legal, outLegal_next]

theorem boundAt_legal (hs : HartsLegal s) (p) : HartsLegal (s.boundAt p) := setH_legal hs (hs.h.of_eq rfl rfl rfl rfl)

theorem boundedRun_legal (hs : HartsLegal s) (i p) : OutLegal (boundedRun i s p) := by
  have bounded := boundAt_legal hs p
  unfold boundedRun
  split
  · exact spillFrame_legal bounded ..
  · exact fillFrame_legal bounded ..
  · exact exec_legal bounded _

theorem stoppedRun_legal (hs : HartsLegal s) (i w p) : OutLegal (stoppedRun i w s p) := by
  have masked (ps f) : HartsLegal (s.setH ((s.h.setMask 1 0).putMask 1 ps f)) := setH_legal hs ((hs.h.setMask ..).putMask ..)
  have back (u : State) (hu : HartsLegal u) (m) : HartsLegal (u.setH { u.h with m := m }) := setH_legal hu (hu.h.of_eq rfl rfl rfl rfl)
  unfold stoppedRun
  grind [boundedRun_legal, exec_legal, outLegal_next]

theorem stopAtPos_legal {t : State} (ht : HartsLegal t) (p) : HartsLegal (stopAtPos s t p) := by
  have stopped {h : Hart} (hh : h.Legal) : HartsLegal ((asyncTurn (t.setH h)).getD (t.setH h)) := by
    cases e : asyncTurn (t.setH h) with
    | none => exact setH_legal ht hh
    | some v => exact asyncTurn_legal (setH_legal ht hh) e
  exact stopped (ht.h.of_eq rfl rfl rfl rfl)

theorem runStopped_legal (hs : HartsLegal s) (n) : OutLegal (runStopped s n) := by
  have fetched := fetch_legal hs
  unfold runStopped
  grind [runHart_legal, stoppedRun_legal, stopAtPos_legal, withWord_legal, resLegal_ok, outLegal_next]

theorem goWrong_legal (hs : HartsLegal s) (i target) : HartsLegal (goWrong i s target) := by
  have gone (u : State) (hu : HartsLegal u) (c p) : HartsLegal (u.setH { u.h.running with checker := c, pc := p }) :=
    setH_legal hu (hu.h.of_eq rfl rfl rfl rfl)
  unfold goWrong
  grind [setX_legal, takeTrapAt_legal]

theorem runUpset_legal (hs : HartsLegal s) (target) : OutLegal (runUpset s target) := by
  have fetched := fetch_legal hs
  unfold runUpset
  grind [runHart_legal, goWrong_legal, withWord_legal, resLegal_ok, outLegal_next]

/-! ## The step -/

theorem turn_legal (hs : HartsLegal s) : OutLegal (turn s) := by
  have popped (r) : HartsLegal { s with agenda := r } := hs
  have poppedAt (r k) : HartsLegal { s with agenda := r, cur := k } := hs
  unfold turn
  split
  next => exact runHart_legal hs
  next i r _ => exact exec_legal (popped r) i
  next k r _ => exact runHart_legal (poppedAt r k)
  next k l r _ => exact runLane_legal (poppedAt r k) l
  next k n r _ => exact passCycles_legal (popped r) k n
  next k n r _ => exact runStopped_legal (poppedAt r k) n
  next k a r _ => exact runUpset_legal (poppedAt r k) a
  next e r _ => exact outside_legal (popped r) e

theorem step_legal (hs : HartsLegal s) : OutLegal (step s) := logged_legal s (turn_legal hs)

end

/-- Settles O58: every turn of the agenda, each an operation that keeps every hart legal. -/
theorem hartsStayLegal : Obligations.HartsStayLegal := by
  intro s t hs stepped
  have stays := step_legal hs
  rwa [stepped] at stays

end Sys2Proof.Machine

/-! # Trap entry (O4) -/

namespace Sys2Proof.Machine

/-! ## The parts of a trap's entry -/

/-- The state in which a trap is taken: the thread is the hart's, and it waits in no queue of its core or of a basin any more. -/
def State.unqueued (s : State) : State :=
  let u := { s.setC (s.c.leaveWaits s.hartNo) with lane := none }
  if s.h.wait.reason = 0x0C ∨ s.h.wait.reason = 0x10 then u.mapBasins fun b => b.withdraw u.cur else u

theorem posWord_true (row elem : Nat) : posWord true row elem = BitVec.ofNat 64 (2 ^ 63 + row * 2 ^ 16 + elem) := by
  simp [posWord, b2n]

/-- The hart that takes a trap: that of a lane thread has the lane's number in `vstop` (R142). -/
def State.trapping (s : State) : Hart :=
  match s.lane with
  | some l => { s.h with shape := { s.h.shape with vstop := posWord true 0 l } }
  | none => s.h

section

variable (s : State)

theorem State.trapping_wait : s.trapping.wait = s.h.wait := by unfold State.trapping; split <;> rfl

theorem takeTrapAt_eq (epc : Word) (t : Trap) (forceM : Bool) :
    takeTrapAt s epc t forceM =
      if s.trapping.delegates (t.taken s.trapping.trap.status.priv) && !forceM then
        s.unqueued.setH (s.trapping.enterS (t.taken s.trapping.trap.status.priv) t.tval epc t.restartWord)
      else (s.unqueued.setH (s.trapping.enterM (t.taken s.trapping.trap.status.priv) t.tval epc t.restartWord)).bootTrap.afterHalt := by
  unfold takeTrapAt State.unqueued
  rw [← State.trapping_wait]
  rfl

theorem State.unqueued_eq :
    s.unqueued = { s with lane := none, cores := s.unqueued.cores, basins := s.unqueued.basins } := by
  unfold State.unqueued
  dsimp only
  split <;> rfl

/-- A hart that waits in no queue has its scratchpad and its core's task table as before. -/
theorem coreOf_unqueued (k : Nat) :
    (s.unqueued.coreOf k).sp = (s.coreOf k).sp ∧ (s.unqueued.coreOf k).tasks = (s.coreOf k).tasks := by
  have left : s.unqueued.coreOf k = (s.setC (s.c.leaveWaits s.hartNo)).coreOf k := by
    unfold State.unqueued
    dsimp only
    split <;> rfl
  rw [left]
  by_cases hk : k = s.agent
  · have own : (s.setC (s.c.leaveWaits s.hartNo)).coreOf k = s.c.leaveWaits s.hartNo := hk ▸ State.coreOf_setCoreOf_self ..
    rw [own, hk]
    exact ⟨rfl, rfl⟩
  · rw [State.coreOf_setC_ne s _ hk]
    exact ⟨rfl, rfl⟩

/-- A hart that halts on entry to M changes its die's boot, the package's registers and its core's boot image at most (R462). -/
theorem afterHalt_bootTrap_eq :
    s.bootTrap.afterHalt = { s with
      cores := s.bootTrap.afterHalt.cores, dies := s.bootTrap.afterHalt.dies, hostif := s.bootTrap.afterHalt.hostif } := by
  unfold State.afterHalt State.bootTrap
  dsimp only
  split <;> split <;> rfl

theorem bootTrap_of_running {s : State} (h : s.h.run ≠ .halted) : s.bootTrap = s :=
  if_neg fun e => h e.2.1

theorem afterHalt_of_running {s : State} (h : s.h.run ≠ .halted) : s.afterHalt = s := by
  unfold State.afterHalt
  simp [h]

end

/-! ## The hart that takes the trap -/

section

variable {s : State} (t : Trap)

theorem taken_eq_causeTaken : t.taken s.trapping.trap.status.priv = causeTaken s t.cause := by
  unfold State.trapping
  split <;> rfl

theorem delegates_causeTaken (c : BitVec 9) : s.trapping.delegates (causeTaken s c) = true ↔ atS s c := by
  have same : s.trapping.trap = s.h.trap := by unfold State.trapping; split <;> rfl
  simp [Hart.delegates, same, atS, and_assoc]

/-- Entry to S, as the hart's fields show it. -/
theorem trapping_enterS (c : BitVec 9) (tval epc restart : Word) :
    s.trapping.enterS c tval epc restart = { s.trapping.atTrap with
      pc := s.h.trap.tvec, trap := trapRegsS s.h.trap c tval epc restart } := by
  unfold State.trapping
  split <;> rfl

/-- Entry to M, as the hart's fields show it: it halts where the handler has no address (R462). -/
theorem trapping_enterM (c : BitVec 9) (tval epc restart : Word) :
    s.trapping.enterM c tval epc restart = { s.trapping.atTrap with
      pc := s.h.trap.mtvec, trap := trapRegsM s.h.trap c tval epc restart
      wait := (s.trapping.enterM c tval epc restart).wait
      run := if s.h.trap.mtvec = 0 then .halted else s.h.run } := by
  unfold State.trapping Hart.enterM
  dsimp only
  split <;> split <;> simp_all [Hart.atTrap, Hart.running, Hart.waitOn, trapRegsM]

end

/-! ## The trap -/

section

variable (s : State) (t : Trap) (epc : Word)

/-- A trap at S leaves the hart of `trapping_enterS` and nothing else but the queues in which it waited (R237). -/
theorem takeTrapAt_S (d : atS s t.cause) :
    takeTrapAt s epc t false = s.unqueued.setH (s.trapping.enterS (causeTaken s t.cause) t.tval epc t.restartWord) := by
  rw [takeTrapAt_eq, taken_eq_causeTaken, (delegates_causeTaken t.cause).mpr d]
  rfl

/-- A trap at M, or one that the machine forces there, leaves the hart of `trapping_enterM` (R237). -/
theorem takeTrapAt_M (forceM : Bool) (d : atS s t.cause → forceM = true) :
    takeTrapAt s epc t forceM =
      (s.unqueued.setH (s.trapping.enterM (causeTaken s t.cause) t.tval epc t.restartWord)).bootTrap.afterHalt := by
  have stays : (s.trapping.delegates (causeTaken s t.cause) && !forceM) = false := by
    by_cases a : atS s t.cause
    · simp [d a]
    · simp [Bool.eq_false_iff.mpr (mt (delegates_causeTaken t.cause).mp a)]
  rw [takeTrapAt_eq, taken_eq_causeTaken, stays]
  rfl

theorem trapping_atTrap_shape : s.trapping.atTrap.shape = match s.lane with
    | none => s.h.shape
    | some l => { s.h.shape with vstop := BitVec.ofNat 64 (2 ^ 63 + l) } := by
  unfold State.trapping
  split <;> simp [Hart.atTrap, posWord_true, *]

theorem hartOf_unqueued (k : Nat) : s.unqueued.hartOf k = s.hartOf k := by
  rw [State.unqueued_eq]
  rfl

theorem trapping_atTrap : s.trapping.atTrap = { s.h.atTrap with shape := s.trapping.atTrap.shape } := by
  unfold State.trapping
  split <;> rfl

/-- What the two entries have in common: the hart that has taken the trap, in a state that is as before but for the queues. -/
theorem trapped_of_hart {s u : State} {c : BitVec 9} {tval epc restart : Word}
    (atSup : atS s c → u.h.trap = trapRegsS s.h.trap (causeTaken s c) tval epc restart ∧ u.h.pc = s.h.trap.tvec)
    (atMach : ¬ atS s c → u.h.trap = trapRegsM s.h.trap (causeTaken s c) tval epc restart ∧ u.h.pc = s.h.trap.mtvec)
    (hart : ∃ w, u.h = { s.trapping.atTrap with
      pc := u.h.pc, trap := u.h.trap, wait := w, run := if s.h.trap.mtvec = 0 ∧ ¬ atS s c then .halted else s.h.run })
    (frame : u = { s.unqueued with harts := u.harts, cores := u.cores, dies := u.dies, hostif := u.hostif })
    (others : ∀ k, k ≠ s.cur → u.hartOf k = s.hartOf k)
    (rest : (atS s c ∨ s.h.trap.mtvec ≠ 0) ∧ s.h.run ≠ .halted → u = { s.unqueued with harts := u.harts }) :
    Trapped s u c tval epc restart := by
  obtain ⟨w, hart⟩ := hart
  rw [trapping_atTrap, trapping_atTrap_shape] at hart
  rw [State.unqueued_eq] at frame
  refine ⟨atSup, atMach, (congrArg Hart.x hart :), (congrArg Hart.v hart :), (congrArg Hart.m hart :), (congrArg Hart.pins hart :), (congrArg Hart.user hart :),
    (congrArg Hart.shape hart :), fun _ => (congrArg Hart.refused hart :), (congrArg Hart.convoy hart :), (congrArg Hart.fresh hart :),
    (congrArg Hart.checker hart :), (congrArg Hart.lanes hart :), (congrArg State.lane frame :), (congrArg Hart.run hart :), others,
    (congrArg State.mem frame :), (congrArg State.hostMem frame :), (congrArg State.poison frame :), fun r => ⟨?_, fun k => ?_⟩⟩
  · have same := rest r
    rw [State.unqueued_eq] at same
    rw [same]
  · have cores : u.coreOf k = s.unqueued.coreOf k := by rw [rest r]; rfl
    rw [cores]
    exact coreOf_unqueued s k

/-- Taking a trap is the entry of R237. -/
theorem takeTrapAt_trapped : Trapped s (takeTrapAt s epc t false) t.cause t.tval epc t.restartWord := by
  have others (g : Hart) (k) (hk : k ≠ s.cur) : (s.unqueued.setH g).hartOf k = s.hartOf k := by
    rw [← hartOf_unqueued s k]
    exact State.hartOf_setH_ne _ _ (by rw [State.unqueued_eq]; exact hk)
  by_cases d : atS s t.cause
  · rw [takeTrapAt_S s t epc d, trapping_enterS]
    refine trapped_of_hart (fun _ => ?_) (fun n => absurd d n) ⟨s.h.running.wait, ?_⟩ rfl (others _) (fun _ => rfl)
    · rw [State.h_setH]
      exact ⟨rfl, rfl⟩
    · rw [State.h_setH, if_neg (fun e => e.2 d)]
      unfold State.trapping
      split <;> rfl
  · rw [takeTrapAt_M s t epc false (absurd · d), trapping_enterM]
    generalize (s.trapping.enterM _ _ _ _).wait = w
    set u := s.unqueued.setH _ with hu
    have harts : u.bootTrap.afterHalt.harts = u.harts := by rw [afterHalt_bootTrap_eq]
    have hart : u.bootTrap.afterHalt.h = u.h := by rw [afterHalt_bootTrap_eq]; rfl
    rw [State.h_setH] at hart
    refine trapped_of_hart (fun a => absurd a d) (fun _ => ?_) ⟨w, ?_⟩ ?_ (fun k hk => ?_) (fun r => ?_)
    · rw [hart]
      exact ⟨rfl, rfl⟩
    · rw [hart]
      by_cases z : s.h.trap.mtvec = 0
      · rw [if_pos z, if_pos ⟨z, d⟩]
      · rw [if_neg z, if_neg fun e => z e.1]
    · rw [afterHalt_bootTrap_eq, hu]
      rfl
    · rw [← others _ k hk, ← hu]
      unfold State.hartOf
      rw [harts]
    · have z : s.h.trap.mtvec ≠ 0 := r.1.resolve_left d
      have run : u.h.run ≠ .halted := by
        rw [hu, State.h_setH, if_neg z]
        exact r.2
      rw [bootTrap_of_running run, afterHalt_of_running run, hu]
      rfl

/-- An instruction that traps at its own address. -/
theorem raise_trapped : ∃ u, raise s t = .next u ∧ Trapped s u t.cause t.tval s.pc t.restartWord :=
  ⟨takeTrap s t, rfl, takeTrapAt_trapped s t s.pc⟩

theorem illegalEncoding_traps (w : BitVec 32) (hw : subOf w.toNat ≠ 0) :
    Traps (.illegalEncoding w) s (BitVec.ofNat 9 (w.toNat / 2 ^ 26)) (BitVec.ofNat 64 (w.toNat + 2 ^ 32 * subOf w.toNat)) := by
  have answer : exec (.illegalEncoding w) s = raise s (Trap.illegal w (subOf w.toNat)) := by
    show raise s (Trap.illegal w (if subOf w.toNat = 0 then 1 else subOf w.toNat)) = _
    rw [if_neg hw]
  unfold Traps
  rw [answer]
  exact raise_trapped s (Trap.illegal w (subOf w.toNat))

end

/-- Settles O4: both entries leave the hart of R237, and an illegal word raises the trap of its major and `sub`. -/
theorem trapEntry : Obligations.TrapEntry := by
  refine ⟨fun s t _ => ?_, fun s w _ hw => illegalEncoding_traps s w hw⟩
  have taken := takeTrapAt_trapped s t s.pc
  obtain ⟨cause, tval, _ | ⟨row, elem⟩⟩ := t
  · exact taken
  · show Trapped _ _ _ _ _ (BitVec.ofNat 64 (2 ^ 63 + row.toNat * 2 ^ 16 + elem.toNat))
    rw [← posWord_true]
    exact taken

end Sys2Proof.Machine

/-! # Scalar results (O1, O2) -/

namespace Sys2Proof.Machine

/-! ## One thread and its registers -/

section

variable {s t u : State} {a g : Hart}

theorem Becomes.lane (b : Becomes s t g) : t.lane = s.lane := (congrArg State.lane b.2.2 :)

theorem Becomes.cur (b : Becomes s t g) : t.cur = s.cur := (congrArg State.cur b.2.2 :)

theorem Becomes.h (b : Becomes s t g) : t.h = g := b.1

theorem Becomes.self (b : Becomes s t g) : Becomes s t t.h := ⟨rfl, b.2⟩

theorem becomes_refl (s : State) : Becomes s s s.h := ⟨rfl, fun _ _ => rfl, rfl⟩

theorem Becomes.trans (b : Becomes s u a) (c : Becomes u t g) : Becomes s t g := by
  obtain ⟨-, uOthers, uEq⟩ := b
  obtain ⟨th, tOthers, tEq⟩ := c
  have cur : u.cur = s.cur := (congrArg State.cur uEq :)
  refine ⟨th, fun k hk => (tOthers k (cur ▸ hk)).trans (uOthers k hk), ?_⟩
  rw [tEq, uEq]

theorem Becomes.setH (b : Becomes s u a) (g : Hart) : Becomes s (u.setH g) g := b.trans (becomes_setH u g)

/-- The pc is that of the thread in execution, whatever of the hart but its lanes has changed. -/
theorem Becomes.pc (b : Becomes s u a) (pc : a.pc = s.h.pc) (lanes : a.lanes = s.h.lanes) : u.pc = s.pc := by
  unfold State.pc
  rw [b.lane, b.h, pc, lanes]

theorem Becomes.checkerNext (b : Becomes s u a) (checker : a.checker = s.h.checker) (trap : a.trap = s.h.trap) :
    u.checkerNext = s.checkerNext := by
  unfold State.checkerNext State.checking State.onCore State.agent
  rw [b.cur, b.lane, b.h, checker, trap, (congrArg State.word b.2.2 :)]

end

/-! ## Retiring a scalar instruction -/

section

variable {s u : State} {rd : BitVec 5} {v : Word} {f : BitVec 5}

/-- An instruction that sets no flag leaves the hart's as they are. -/
theorem becomes_orFlags_zero (s : State) : Becomes s s (s.h.orFlags 0) := by
  have same : s.h.orFlags 0 = s.h := by simp [Hart.orFlags]
  rw [same]
  exact becomes_refl s

/-- The fields of a hart that retiring reads are as before after a register write (R97). -/
theorem retire_becomes {g : Hart} (b : Becomes s u g) (pc : g.pc = s.h.pc) (lanes : g.lanes = s.h.lanes)
    (checker : g.checker = s.h.checker) (trap : g.trap = s.h.trap) :
    Becomes s (retire u) ({ g.running with checker := s.checkerNext }.setPc s.lane (s.pc + 4)) := by
  unfold retire
  rw [b.h, b.checkerNext checker trap, b.lane, b.pc pc lanes]
  exact b.setH _

/-- A hart's scalar instruction with its flags and its result has completed. -/
theorem writeRd_hartDone (b : Becomes s u (s.h.orFlags f)) (hart : s.lane = none) :
    ∃ t, writeRd rd v u = .next t ∧ ScalarDone s t rd v f (s.pc + 4) s.checkerNext := by
  have lane : u.lane = none := b.lane.trans hart
  refine ⟨_, rfl, ?_⟩
  rw [setX_of_hart u rd v lane, b.h]
  have done := retire_becomes (b.setH { s.h.orFlags f with x := (s.h.orFlags f).xWith rd v }) rfl rfl rfl rfl
  refine ⟨done.self, fun _ => ?_, fun l r inLane => ?_⟩
  · rw [done.h, hart]
    rfl
  · exact absurd (hart.symm.trans inLane.1) (by simp)

theorem laneX_eq_bitsOf (h : Hart) (r : Fin 32) (l : Nat) : laneX h r l = bitsOf (h.row r).toNat (64 * l) 64 := by
  have same : (Fin.ofNat 32 r : Fin 32) = r := Fin.ext (Nat.mod_eq_of_lt r.isLt)
  unfold laneX bitsOf Hart.row
  rw [same]

/-- A lane's write of a scalar register is one of its own copy (R38). -/
theorem laneX_setRow (h : Hart) (hrd : rd ≠ 0) {l : Nat} (hl : l < 16) (n : Fin 32) (k : Nat) :
    laneX (h.setRow rd.toNat (rowPut (h.row rd.toNat) (64 * l) 64 v.toNat)) n k
      = if n = rd.toFin ∧ rd ≠ 0 ∧ k = l then v.toNat else laneX h n k := by
  have fits : 64 * l + 64 ≤ 4096 := by omega
  have row : (n.val % 32 = rd.toNat % 32) ↔ n = rd.toFin := by
    rw [Nat.mod_eq_of_lt n.isLt, Nat.mod_eq_of_lt rd.isLt]
    exact ⟨fun e => Fin.ext e, fun e => congrArg Fin.val e⟩
  rw [laneX_eq_bitsOf, laneX_eq_bitsOf, Hart.row_setRow]
  by_cases hn : n = rd.toFin
  · rw [if_pos (row.mpr hn)]
    by_cases hkl : k = l
    · rw [if_pos ⟨hn, hrd, hkl⟩, hkl, bitsOf_rowPut_self _ _ fits]
      exact Nat.mod_eq_of_lt v.isLt
    · rw [if_neg (fun e => hkl e.2.2), bitsOf_rowPut_ne _ _ fits (by omega)]
      exact congrArg (fun m : Fin 32 => bitsOf (h.row m).toNat (64 * k) 64) hn.symm
  · rw [if_neg (mt row.mp hn), if_neg (fun e => hn e.1)]

/-- The hart after one of its lanes has written a register of its own. -/
def Hart.laneSet (h : Hart) (l : Nat) (rd : BitVec 5) (v : Word) : Hart :=
  if rd = 0 then h else h.setRow rd.toNat (rowPut (h.row rd.toNat) (64 * l) 64 v.toNat)

theorem setX_of_lane {l : Nat} (lane : u.lane = some l) : Becomes u (u.setX rd v) (u.h.laneSet l rd v) := by
  unfold State.setX Hart.laneSet
  rw [lane]
  dsimp only
  split
  · exact becomes_refl u
  · exact becomes_setH u _

theorem laneSet_eq (h : Hart) (l : Nat) : h.laneSet l rd v = { h with v := (h.laneSet l rd v).v } := by
  unfold Hart.laneSet
  split <;> rfl

theorem laneX_laneSet (h : Hart) {l : Nat} (hl : l < 16) (n : Fin 32) (k : Nat) :
    laneX (h.laneSet l rd v) n k = if n = rd.toFin ∧ rd ≠ 0 ∧ k = l then v.toNat else laneX h n k := by
  unfold Hart.laneSet
  by_cases hrd : rd = 0
  · rw [if_pos hrd, if_neg (fun e => e.2.1 hrd)]
  · rw [if_neg hrd, laneX_setRow h hrd hl n k]

/-- An update of one lane of a region is that lane's (R38). -/
theorem lanes_set (ls : Vector Lane 16) {l : Nat} (hl : l < 16) (f : Lane → Lane) (k : Fin 16) :
    (ls.set (l % 16) (f (ls.get (Fin.ofNat 16 l))) (Nat.mod_lt _ (by decide))).get k = if k.val = l then f (ls.get k) else ls.get k := by
  show (ls.set (l % 16) _ _)[k.val] = _
  rw [Vector.getElem_set, Nat.mod_eq_of_lt hl]
  by_cases e : l = k.val
  · have same : Fin.ofNat 16 l = k := Fin.ext ((Nat.mod_eq_of_lt hl).trans e)
    rw [if_pos e, if_pos e.symm, same]
  · rw [if_neg e, if_neg (Ne.symm e)]
    rfl

/-- A lane's scalar instruction with its flags and its result has completed. -/
theorem writeRd_laneDone (b : Becomes s u (s.h.orFlags f)) {l : Nat} {r : LaneRegion} (inLane : InLane s l r) :
    ∃ t, writeRd rd v u = .next t ∧ ScalarDone s t rd v f (s.pc + 4) s.checkerNext := by
  obtain ⟨lane, hl, lanes⟩ := inLane
  have put := b.trans (setX_of_lane (rd := rd) (v := v) (b.lane.trans lane))
  rw [b.h, laneSet_eq] at put
  have done := retire_becomes put rfl rfl rfl rfl
  refine ⟨_, rfl, done.self, fun none => absurd (none.symm.trans lane) (by simp), fun l' r' inLane' => ?_⟩
  obtain rfl : l = l' := Option.some.inj (lane.symm.trans inLane'.1)
  obtain rfl : r = r' := Option.some.inj (lanes.symm.trans inLane'.2.2)
  have idle : s.checkerNext = s.h.checker := if_pos (by rw [lane]; rfl)
  rw [done.h, idle, lane]
  refine ⟨((s.h.orFlags f).laneSet l rd v).v, r.lanes.set (l % 16) { r.lanes.get (Fin.ofNat 16 l) with pc := s.pc + 4 }
    (Nat.mod_lt _ (by decide)), ?_, fun n k _ => ?_, lanes_set r.lanes hl fun ln => { ln with pc := s.pc + 4 }⟩
  · simp only [Hart.setPc, lanes, Hart.running, Hart.doneAt, Hart.orFlags]
  · refine Eq.trans ?_ (laneX_laneSet (s.h.orFlags f) hl n k)
    simp only [laneX, Hart.setPc, lanes, Hart.running, Hart.orFlags]

/-- A scalar instruction with its flags and its result has completed, in a hart or in a lane. -/
theorem writeRd_done (b : Becomes s u (s.h.orFlags f)) (one : OneThread s) :
    ∃ t, writeRd rd v u = .next t ∧ ScalarDone s t rd v f (s.pc + 4) s.checkerNext := by
  obtain hart | ⟨l, r, inLane⟩ := one
  · exact writeRd_hartDone b hart
  · exact writeRd_laneDone b inLane

end

/-! ## Values in integer arithmetic -/

section

variable (a b : Word)

theorem add_eq_ofInt : a + b = BitVec.ofInt 64 (a.toInt + b.toInt) := by
  rw [BitVec.ofInt_add, BitVec.ofInt_toInt, BitVec.ofInt_toInt]

theorem add_ofInt (i : Int) : a + BitVec.ofInt 64 i = BitVec.ofInt 64 (a.toInt + i) := by
  rw [BitVec.ofInt_add, BitVec.ofInt_toInt]

theorem sub_eq_ofInt : a - b = BitVec.ofInt 64 (a.toInt - b.toInt) := by
  rw [Int.sub_eq_add_neg, BitVec.ofInt_add, BitVec.ofInt_neg, BitVec.ofInt_toInt, BitVec.ofInt_toInt, BitVec.sub_eq_add_neg]

theorem mul_eq_ofInt : a * b = BitVec.ofInt 64 (a.toInt * b.toInt) := by
  rw [BitVec.ofInt_mul, BitVec.ofInt_toInt, BitVec.ofInt_toInt]

theorem ofNat_toNat_self : BitVec.ofNat 64 a.toNat = a := by
  rw [BitVec.ofNat_toNat, BitVec.setWidth_eq]

theorem and_eq_ofNat : a &&& b = BitVec.ofNat 64 (a.toNat &&& b.toNat) := by
  rw [← BitVec.toNat_and, ofNat_toNat_self]

theorem or_eq_ofNat : a ||| b = BitVec.ofNat 64 (a.toNat ||| b.toNat) := by
  rw [← BitVec.toNat_or, ofNat_toNat_self]

theorem xor_eq_ofNat : a ^^^ b = BitVec.ofNat 64 (a.toNat ^^^ b.toNat) := by
  rw [← BitVec.toNat_xor, ofNat_toNat_self]

theorem shl_eq_ofNat (n : Nat) : a <<< n = BitVec.ofNat 64 (a.toNat * 2 ^ n) := by
  apply BitVec.eq_of_toNat_eq
  rw [BitVec.toNat_shiftLeft, BitVec.toNat_ofNat, Nat.shiftLeft_eq]

theorem shr_eq_ofNat (n : Nat) : a >>> n = BitVec.ofNat 64 (a.toNat / 2 ^ n) := by
  rw [← Nat.shiftRight_eq_div_pow, ← BitVec.toNat_ushiftRight, ofNat_toNat_self]

theorem sshr_eq_ofInt (n : Nat) : a.sshiftRight n = BitVec.ofInt 64 (a.toInt / 2 ^ n) := by
  rw [BitVec.sshiftRight, Int.shiftRight_eq_div_pow]
  norm_cast

/-- The smaller of two signed values: of equal ones either. -/
theorem min_eq_pick : (if a.slt b then a else b) = Spec.pick (decide (a.toInt ≤ b.toInt)) a b := by
  unfold Spec.pick BitVec.slt
  by_cases lt : a.toInt < b.toInt
  · simp [lt, lt.le]
  · by_cases le : a.toInt ≤ b.toInt
    · simp [BitVec.eq_of_toInt_eq (le_antisymm le (not_lt.mp lt))]
    · simp [lt, le]

theorem max_eq_pick : (if a.slt b then b else a) = Spec.pick (decide (b.toInt ≤ a.toInt)) a b := by
  unfold Spec.pick BitVec.slt
  by_cases lt : a.toInt < b.toInt
  · simp [lt, not_le.mpr lt]
  · simp [lt, not_lt.mp lt]

theorem minz_eq_pick : (if a.ult b then a else b) = Spec.pick (decide (a.toNat ≤ b.toNat)) a b := by
  unfold Spec.pick BitVec.ult
  by_cases lt : a.toNat < b.toNat
  · simp [lt, lt.le]
  · by_cases le : a.toNat ≤ b.toNat
    · simp [BitVec.eq_of_toNat_eq (le_antisymm le (not_lt.mp lt))]
    · simp [lt, le]

theorem maxz_eq_pick : (if a.ult b then b else a) = Spec.pick (decide (b.toNat ≤ a.toNat)) a b := by
  unfold Spec.pick BitVec.ult
  by_cases lt : a.toNat < b.toNat
  · simp [lt, not_le.mpr lt]
  · simp [lt, not_lt.mp lt]

theorem divUnsigned_eq :
    divUnsigned a b = if b = 0 then BitVec.ofNat 64 0xFFFFFFFFFFFFFFFF else BitVec.ofNat 64 (a.toNat / b.toNat) := by
  unfold divUnsigned
  rw [← BitVec.toNat_udiv, ofNat_toNat_self]
  rfl

theorem remSigned_eq :
    remSigned a b = if b = 0 then a else BitVec.ofInt 64 (a.toInt - b.toInt * a.toInt.tdiv b.toInt) := by
  unfold remSigned
  rw [Int.tmod_def]

theorem remUnsigned_eq :
    remUnsigned a b = if b = 0 then a else BitVec.ofNat 64 (a.toNat - b.toNat * (a.toNat / b.toNat)) := by
  unfold remUnsigned
  rw [← Nat.mod_eq_sub_mul_div, ← BitVec.toNat_umod, ofNat_toNat_self]

theorem upper_eq_ofInt (imm : BitVec 21) : imm.signExtend 64 <<< 16 = BitVec.ofInt 64 (imm.toInt * 2 ^ 16) := by
  rw [BitVec.shiftLeft_eq_mul_twoPow, BitVec.ofInt_mul]
  rfl

theorem setWidth_eq_ofNat (imm : BitVec 16) : imm.setWidth 64 = BitVec.ofNat 64 imm.toNat := (BitVec.ofNat_toNat ..).symm

theorem low32_eq (i : Int) : ((BitVec.ofInt 64 i).setWidth 32).signExtend 64 = Spec.sext32 i := by
  have low : (BitVec.ofInt 64 i).setWidth 32 = BitVec.ofInt 32 i := by
    apply BitVec.eq_of_toInt_eq
    rw [BitVec.toInt_setWidth, BitVec.toInt_ofInt, BitVec.toNat_ofInt]
    rw [Int.toNat_of_nonneg (Int.emod_nonneg _ (by decide)), Int.bmod_def, Int.bmod_def,
      Int.emod_emod_of_dvd i (by decide)]
  rw [low, BitVec.signExtend, BitVec.toInt_ofInt]
  rfl
theorem rotateRight_eq_ofNat {n : Nat} (hn : n < 64) : a.rotateRight n = BitVec.ofNat 64 (a.toNat / 2 ^ n + a.toNat % 2 ^ n * 2 ^ (64 - n)) := by
  have split : 2 ^ 64 = 2 ^ n * 2 ^ (64 - n) := by rw [← Nat.pow_add]; congr 1; omega
  have low : a.toNat / 2 ^ n < 2 ^ (64 - n) := Nat.div_lt_of_lt_mul (split ▸ a.isLt)
  apply BitVec.eq_of_toNat_eq
  rw [BitVec.toNat_rotateRight, Nat.mod_eq_of_lt hn, BitVec.toNat_ofNat, Nat.shiftLeft_eq, Nat.shiftRight_eq_div_pow, split, Nat.mul_mod_mul_right,
    Nat.or_comm, Nat.mul_comm _ (2 ^ (64 - n)), ← Nat.two_pow_add_eq_or_of_lt low, Nat.add_comm]
  refine (Nat.mod_eq_of_lt ?_).symm
  have high := Nat.mod_lt a.toNat (Nat.two_pow_pos n)
  calc _ < 2 ^ (64 - n) + 2 ^ (64 - n) * (a.toNat % 2 ^ n) := Nat.add_lt_add_right low _
    _ = 2 ^ (64 - n) * (a.toNat % 2 ^ n + 1) := by ring
    _ ≤ 2 ^ (64 - n) * 2 ^ n := Nat.mul_le_mul_left _ high
    _ = 2 ^ n * 2 ^ (64 - n) := Nat.mul_comm ..

theorem popCount_eq_countP (v n : Nat) : popCount v n = (List.range n).countP v.testBit := by
  induction n generalizing v with
  | zero => rfl
  | succ n ih =>
    rw [popCount, ih, List.range_succ_eq_map, List.countP_cons, List.countP_map]
    have shift : v.testBit ∘ Nat.succ = (v / 2).testBit := funext fun k => Nat.testBit_succ v k
    rw [shift, Nat.add_comm, Nat.testBit_zero]
    rcases Nat.mod_two_eq_zero_or_one v with e | e <;> simp [e]

theorem trailingZeros_eq_countP (v n : Nat) : trailingZeros v n = (List.range n).countP fun k => v % 2 ^ (k + 1) = 0 := by
  induction n generalizing v with
  | zero => rfl
  | succ n ih =>
    unfold trailingZeros
    split
    · next odd =>
      symm
      rw [List.countP_eq_zero]
      intro k _
      have even : 2 ∣ 2 ^ (k + 1) := ⟨2 ^ k, by ring⟩
      have : ¬ v % 2 ^ (k + 1) = 0 := fun z => by have := Nat.mod_mod_of_dvd v even; omega
      simpa using this
    · next even =>
      have half : v = 2 * (v / 2) := by omega
      rw [ih, List.range_succ_eq_map, List.countP_cons, List.countP_map, Nat.add_comm]
      congr 1
      · refine List.countP_congr fun k _ => ?_
        have : v % 2 ^ (k + 2) = 2 * (v / 2 % 2 ^ (k + 1)) := by
          conv_lhs => rw [half, Nat.pow_succ' (m := 2) (n := k + 1), Nat.mul_mod_mul_left]
        simp [this]
      · have : v % 2 = 0 := by omega
        simp [this]

theorem leadingZeros_eq_countP {v n : Nat} (h : v < 2 ^ n) : leadingZeros v n = (List.range n).countP fun k => v / 2 ^ k = 0 := by
  induction n with
  | zero => rfl
  | succ n ih =>
    have bit : v / 2 ^ n < 2 := Nat.div_lt_of_lt_mul (by rw [← Nat.pow_succ]; exact h)
    unfold leadingZeros
    rw [List.range_succ, List.countP_append, List.countP_singleton]
    obtain zero | one := Nat.le_one_iff_eq_zero_or_eq_one.mp (Nat.le_of_lt_succ bit)
    · have small : v < 2 ^ n := (Nat.div_eq_zero_iff.mp zero).resolve_left (by positivity)
      rw [ih small, Nat.add_comm]
      simp [zero]
    · have below : ∀ k ≤ n, v / 2 ^ k ≠ 0 := fun k hk z => by
        have le : v / 2 ^ n ≤ v / 2 ^ k := Nat.div_le_div_left (Nat.pow_le_pow_right (by decide) hk) (Nat.two_pow_pos k)
        rw [z, one] at le
        exact absurd le (by decide)
      rw [List.countP_eq_zero.mpr fun k hk => by simpa using below k (List.mem_range.mp hk).le]
      simp [one]

theorem leBytes_length (n v : Nat) : (leBytes n v).length = n := by
  induction n generalizing v with
  | zero => rfl
  | succ n ih => rw [leBytes, List.length_cons, ih]

theorem leValue_append (l m : List Byte) : leValue (l ++ m) = leValue l + 256 ^ l.length * leValue m := by
  induction l with
  | nil => simp [leValue]
  | cons b l ih => simp only [List.cons_append, leValue, ih, List.length_cons]; ring

theorem leValue_reverse_leBytes (k n : Nat) :
    leValue (leBytes k n).reverse = ((List.range k).map fun i => n / 256 ^ i % 256 * 256 ^ (k - 1 - i)).sum := by
  induction k generalizing n with
  | zero => rfl
  | succ k ih =>
    have tail (i : Nat) : n / 256 ^ (i + 1) % 256 * 256 ^ (k + 1 - 1 - (i + 1)) = n / 256 / 256 ^ i % 256 * 256 ^ (k - 1 - i) := by
      rw [Nat.div_div_eq_div_mul, ← Nat.pow_succ', show k + 1 - 1 - (i + 1) = k - 1 - i by omega]
    rw [leBytes, List.reverse_cons, leValue_append, ih, List.length_reverse, leBytes_length, List.range_succ_eq_map, List.map_cons, List.map_map,
      List.sum_cons, Nat.add_comm]
    congr 1
    · simp [leValue, Nat.mul_comm]
    · exact congrArg List.sum (List.map_congr_left fun i _ => (tail i).symm)

theorem reverseBytes_eq : reverseBytes a = Spec.bytesReversed a :=
  congrArg (BitVec.ofNat 64) (leValue_reverse_leBytes 8 a.toNat)
end

/-! ## The integer instructions -/

/-- An integer instruction writes the value of its table row to rd (R99 to R102). -/
theorem exec_of_intResult {i : Instr} {s : State} {rd : BitVec 5} {v : Word} (h : Spec.intResult i s = some (rd, v)) :
    exec i s = writeRd rd v s := by
  have value {u w : Word} (e : u = w) : writeRd rd u s = writeRd rd w s := by rw [e]
  unfold Spec.intResult at h
  dsimp only at h
  split at h <;> cases h
  · exact value (add_eq_ofInt ..)
  · exact value (sub_eq_ofInt ..)
  · exact value (and_eq_ofNat ..)
  · exact value (or_eq_ofNat ..)
  · exact value (xor_eq_ofNat ..)
  · exact value (shl_eq_ofNat ..)
  · exact value (shr_eq_ofNat ..)
  · exact value (sshr_eq_ofInt ..)
  · exact value rfl
  · exact value rfl
  · exact value (add_eq_ofInt .. ▸ low32_eq _)
  · exact value (sub_eq_ofInt .. ▸ low32_eq _)
  · exact value (min_eq_pick ..)
  · exact value (max_eq_pick ..)
  · exact value (minz_eq_pick ..)
  · exact value (maxz_eq_pick ..)
  · exact value (mul_eq_ofInt ..)
  · exact value rfl
  · exact value rfl
  · exact value rfl
  · exact value (divUnsigned_eq ..)
  · exact value (remSigned_eq ..)
  · exact value (remUnsigned_eq ..)
  · exact value (shl_eq_ofNat ..)
  · exact value (shr_eq_ofNat ..)
  · exact value (sshr_eq_ofInt ..)
  · exact value (rotateRight_eq_ofNat _ (BitVec.isLt _))
  · exact value (congrArg _ (leadingZeros_eq_countP (BitVec.isLt _)))
  · exact value (congrArg _ (trailingZeros_eq_countP ..))
  · exact value (congrArg _ (popCount_eq_countP ..))
  · exact value (reverseBytes_eq _)
  · exact value rfl
  · exact value (ite_not ..)
  · exact value (add_ofInt ..)
  · exact value rfl
  · exact value (setWidth_eq_ofNat _ ▸ rfl)
  · exact value (upper_eq_ofInt _)
  · exact value (upper_eq_ofInt _ ▸ add_ofInt ..)

/-- Settles O1: an integer instruction is one write of its row's value, which completes in a hart and in a lane. -/
theorem integerResults : Obligations.IntegerResults := by
  intro i s rd v one row
  rw [exec_of_intResult row]
  exact writeRd_done (becomes_orFlags_zero s) one

end Sys2Proof.Machine

/-! # Scalar floating-point results (O2) -/

namespace Sys2Proof.Machine

/-! ## Formats and integer types -/

theorem fpResult_eq_fpWord (f : FpFmt) (n : Nat) : fpResult f n = Spec.fpWord f n :=
  congrArg (BitVec.ofNat 64) (Nat.add_comm ..)

/-- The signed value of the low `w` bits is the balanced remainder. -/
theorem signedOf_eq_bmod {w : Nat} (hw : 0 < w) (n : Nat) : signedOf w n = (n : Int).bmod (2 ^ w) := by
  obtain ⟨w, rfl⟩ := Nat.exists_eq_succ_of_ne_zero hw.ne'
  have double : 2 ^ (w + 1) = 2 * 2 ^ w := Nat.pow_succ' ..
  unfold signedOf
  rw [Int.bmod_def, Nat.succ_eq_add_one, Nat.add_sub_cancel, ← Int.natCast_emod]
  split <;> split <;> omega

theorem intWord_eq (ty : BitVec 2) (n : Nat) :
    (if decide (ty.toNat % 2 = 0) then sextTo (if ty.toNat < 2 then 32 else 64) n else BitVec.ofNat 64 n) = Spec.intWord ty n := by
  unfold Spec.intWord Spec.intType sextTo
  rw [signedOf_eq_bmod (by split <;> decide)]

theorem intSource_eq (ty : BitVec 2) (v : Word) : intSource ty v = Spec.intValue ty v := by
  unfold intSource Spec.intValue Spec.intType
  dsimp only
  by_cases signed : ty.toNat % 2 = 0
  · have divides : (if ty.toNat < 2 then 32 else 64) ≤ 64 := by split <;> decide
    rw [if_pos signed, if_pos (decide_eq_true signed), signedOf_eq_bmod (by split <;> decide), BitVec.toInt_eq_toNat_bmod,
      Int.bmod_bmod_of_dvd (Nat.pow_dvd_pow 2 divides)]
  · have unsigned : ¬ decide (ty.toNat % 2 = 0) = true := fun e => signed (of_decide_eq_true e)
    rw [if_neg signed, if_neg unsigned]

/-! ## The floating-point instructions -/

/-- The flags of an operation are set before its result is written. -/
theorem becomes_orFlags (s : State) (f : Flags) : Becomes s (s.orFlags f) (s.h.orFlags f) := becomes_setH s _

section

variable {s : State} {rd : BitVec 5} {v w : Word} {f : BitVec 5}

/-- What a scalar floating-point instruction does: its flags are set and its result is written to rd. -/
def FpWrites (o : Out) (s : State) (rd : BitVec 5) (v : Word) (f : BitVec 5) : Prop :=
  ∃ u, Becomes s u (s.h.orFlags f) ∧ o = writeRd rd v u

theorem fpWrites_of_eq (e : w = v) : FpWrites (writeRd rd w (s.orFlags f)) s rd v f :=
  ⟨_, becomes_orFlags s f, e ▸ rfl⟩

theorem fpRd_writes (g : FpFmt) (r : Nat × Flags) : FpWrites (fpRd g rd r s) s rd (Spec.fpWord g r.1) r.2 :=
  fpWrites_of_eq (fpResult_eq_fpWord g r.1)

theorem fpToInt_writes (g : FpFmt) (mode : Rnd) (ty : BitVec 2) (a : BitVec 5) :
    let r := fToInt g mode (Spec.intType ty).2 (Spec.intType ty).1 (Spec.fpBits g (s.x a))
    FpWrites (fpToInt g mode ty rd a s) s rd (Spec.intWord ty r.1) r.2 :=
  fpWrites_of_eq (intWord_eq ty _)

theorem exec_of_fpResult {i : Instr} (h : Spec.fpResult i s = some (rd, v, f)) : FpWrites (exec i s) s rd v f := by
  unfold Spec.fpResult at h
  dsimp only at h
  split at h <;> cases h
  iterate 16 exact fpRd_writes ..
  iterate 2 exact fpToInt_writes ..
  · rw [← intSource_eq]
    exact fpRd_writes ..
  iterate 6 exact fpRd_writes ..
  iterate 3 exact fpWrites_of_eq rfl
  iterate 2 exact fpRd_writes ..
  · exact ⟨s, becomes_orFlags_zero s, rfl⟩

end

/-- Settles O2: a floating-point instruction sets its flags and is one write of its result, which completes in a hart and in a lane. -/
theorem floatResults : Obligations.FloatResults := by
  intro i s rd v f one row
  obtain ⟨u, flagged, e⟩ := exec_of_fpResult row
  rw [e]
  exact writeRd_done flagged one

end Sys2Proof.Machine

/-! # Vector instructions: convoys, checks and elements (O15, O16, O18) -/

namespace Sys2Proof.Machine

/-! ## Convoys (R33 to R37) -/

section

variable {s t : State} {c : Claim} {g : Hart}

theorem conflicts_iff_clash (m : Member) (c : Claim) : m.conflicts c = true ↔ Spec.Clash m c := by
  simp [Member.conflicts, Spec.Clash]

theorem convoyOf_eq (s : State) (c : Claim) : convoyOf s.h c = Spec.convoyBefore s c := by
  simp [convoyOf, Spec.convoyBefore, or_assoc]

/-- The convoy with the instruction as its last member. -/
def joined (s : State) (c : Claim) : List Member :=
  Spec.convoyBefore s c ++ [{ addr := s.pc, units := c.units, vregs := c.wv, mregs := c.wm }]

theorem joinConvoy_of_joins (h : Spec.Joins s c) : joinConvoy s c = .ok (joined s c) := by
  have free : (convoyOf s.h c).find? (fun m => m.conflicts c) = none := by
    rw [convoyOf_eq, List.find?_eq_none]
    exact fun m hm e => h m hm ((conflicts_iff_clash m c).mp e)
  unfold joinConvoy joined
  rw [← convoyOf_eq]
  simp only [free]

/-- A convoy is refused at its first member that stands in the way (R37). -/
theorem joinConvoy_of_clash {m : Member} {before after : List Member} (split : Spec.convoyBefore s c = before ++ m :: after)
    (free : ∀ q ∈ before, ¬ Spec.Clash q c) (clash : Spec.Clash m c) : joinConvoy s c = .error m.addr := by
  have found : (convoyOf s.h c).find? (fun m => m.conflicts c) = some m := by
    rw [convoyOf_eq, split, List.find?_append, List.find?_eq_none.mpr fun q hq e => free q hq ((conflicts_iff_clash q c).mp e)]
    simp [(conflicts_iff_clash m c).mpr clash]
  unfold joinConvoy
  simp only [found]

/-- A vector instruction that joins its convoy has completed when its effect has (R33, R44). -/
theorem vecOp_done {check : Option Trap} {eff : State → State} (legal : check = none) (hart : s.lane = none) (joins : Spec.Joins s c)
    (b : Becomes s (eff s) g) (pc : g.pc = s.h.pc) (lanes : g.lanes = s.h.lanes) (checker : g.checker = s.h.checker) (trap : g.trap = s.h.trap) :
    ∃ t, vecOp s c check eff = .next t ∧ Spec.VectorDone s t c g := by
  have completes : vecOp s c check eff = finish ((eff s).vdone (joined s c)) := by
    simp only [vecOp, legal, joinConvoy_of_joins joins]
  have addr : s.pc = s.h.pc := pc_of_hart s hart
  have done := retire_becomes (b.setH { g with convoy := joined s c, fresh := false, shape := { g.shape with vstart := 0 } }) pc lanes checker trap
  refine ⟨_, completes, ?_⟩
  unfold Spec.VectorDone
  rw [hart, setPc_of_hart, addr] at done
  unfold State.vdone
  rw [b.h]
  unfold joined at done ⊢
  rw [addr] at done ⊢
  exact done

end

/-! ## Operand checks -/

section

variable {s : State}

theorem need_eq_none {ok : Bool} {v : Word} : need ok v = none ↔ ok = true := by
  unfold need
  split <;> simp [*]

theorem need_cause {ok : Bool} {v : Word} {t : Trap} (h : need ok v = some t) : t = Trap.operand t.tval := by
  unfold need at h
  split at h
  · exact absurd h (by simp)
  · cases h
    rfl

theorem firstTrap_eq_none {l : List (Option Trap)} : firstTrap l = none ↔ ∀ k ∈ l, k = none := by
  simp [firstTrap, List.findSome?_eq_none_iff]

theorem firstTrap_mem {l : List (Option Trap)} {t : Trap} (h : firstTrap l = some t) : some t ∈ l := by
  obtain ⟨k, hk, e⟩ := List.exists_of_findSome?_eq_some h
  exact e ▸ hk

/-- The traps of a list of checks are those of illegal operands. -/
def Operands (l : List (Option Trap)) : Prop := ∀ t, some t ∈ l → t = Trap.operand t.tval

theorem firstTrap_traps {l : List (Option Trap)} (ops : Operands l) (h : firstTrap l ≠ none) :
    ∃ v, firstTrap l = some (Trap.operand v) := by
  obtain ⟨t, e⟩ := Option.ne_none_iff_exists'.mp h
  exact ⟨t.tval, (ops t (firstTrap_mem e)) ▸ e⟩

/-- A vector instruction with an illegal operand traps with 0x040 (R85). -/
theorem vecOp_illegal {l : List (Option Trap)} {c : Claim} {eff : State → State} (ops : Operands l) (h : firstTrap l ≠ none) :
    ∃ tval t, vecOp s c (firstTrap l) eff = .next t ∧ Trapped s t 0x040 tval s.pc 0 := by
  obtain ⟨v, e⟩ := firstTrap_traps ops h
  rw [e]
  exact ⟨v, raise_trapped s (Trap.operand v)⟩

@[simp] theorem need_decide {p : Prop} [Decidable p] {v : Word} : need (decide p) v = none ↔ p := by
  rw [need_eq_none, decide_eq_true_iff]

theorem posElem_eq (p : Word) : posElem p = Spec.col p := by
  unfold posElem bitsOf Spec.col
  rw [pow_zero, Nat.div_one]

@[simp] theorem checkStart_eq_none : checkStart s = none ↔ Spec.StartOk s := by
  have empty : s.vl = 0 ↔ s.h.shape.vl = 0 := (BitVec.toNat_inj (y := 0#10))
  unfold checkStart
  simp only [need_eq_none, Bool.or_eq_true, Bool.and_eq_true, decide_eq_true_iff]
  rw [empty, posElem_eq, or_assoc]
  rfl

@[simp] theorem checkGroup_eq_none (n : BitVec 5) : checkGroup s n = none ↔ Spec.Group s n := need_decide

@[simp] theorem checkWidth_eq_none (ty : BitVec 2) : checkWidth s ty = none ↔ Spec.WidthIs s ty := need_decide

@[simp] theorem checkWide_eq_none : checkWide s = none ↔ Spec.WideOk s := by
  unfold checkWide
  rw [need_eq_none, Bool.and_eq_true, decide_eq_true_iff, decide_eq_true_iff]
  rfl

@[simp] theorem checkPos_eq_none (p : Word) :
    checkPos s p = none ↔ Spec.row p < s.h.shape.vrows.toNat ∧ Spec.col p < s.h.shape.vl.toNat := by
  unfold checkPos
  rw [need_eq_none, Bool.and_eq_true, decide_eq_true_iff, decide_eq_true_iff, posElem_eq]
  rfl

end

/-! ## Elements -/

section

variable {h : Hart} {n w : Nat}

theorem elem_eq_elemOf (h : Hart) (n w j i : Nat) : h.elem n w j i = Spec.elemOf h.v (n + j) w i := rfl

/-- The bits of a vector file, by register and place. -/
def bitOfRow (v : Vector Row 32) (r : Fin 32) (k : Nat) : Bool := (v.get r).getLsbD k

/-- A position of w-bit elements lies in the registers from n on. -/
def Fits (n w : Nat) (p : Nat × Nat) : Prop := n + p.1 < 32 ∧ w * p.2 + w ≤ 4096

theorem setElem_bit (h : Hart) (hw : 0 < w) {p : Nat × Nat} (fits : Fits n w p) (x : Nat) (r : Fin 32) (k : Nat) :
    bitOfRow (h.setElem n w p.1 p.2 x).v r k = if n + p.1 = r.val ∧ k / w = p.2 then x.testBit (k % w) else bitOfRow h.v r k := by
  obtain ⟨row, col⟩ := fits
  have get (g : Hart) : bitOfRow g.v r k = (g.row r.val).toNat.testBit k := by
    unfold bitOfRow Hart.row
    rw [BitVec.testBit_toNat, show (Fin.ofNat 32 r.val : Fin 32) = r from Fin.ext (Nat.mod_eq_of_lt r.isLt)]
  rw [get, get]
  unfold Hart.setElem
  rw [Hart.row_setRow, Nat.mod_eq_of_lt r.isLt, Nat.mod_eq_of_lt row]
  by_cases same : r.val = n + p.1
  · rw [if_pos same, testBit_rowPut _ _ col, ← same]
    have inside : (w * p.2 ≤ k ∧ k < w * p.2 + w) ↔ k / w = p.2 := by
      rw [Nat.div_eq_iff hw, Nat.mul_comm]
      omega
    by_cases here : k / w = p.2
    · have offset : k - w * p.2 = k % w := by
        have := Nat.div_add_mod k w
        rw [here] at this
        omega
      rw [if_pos (inside.mpr here), if_pos ⟨rfl, here⟩, offset]
    · rw [if_neg (mt inside.mp here), if_neg fun e => here e.2]
  · rw [if_neg same, if_neg fun e => same e.1.symm]

/-- The bits after a list of elements is written: each element holds its value, every other bit is as before. -/
theorem putElems_bit (hw : 0 < w) (ps : List (Nat × Nat)) (f : Nat → Nat → Nat) (fits : ∀ p ∈ ps, Fits n w p) (r : Fin 32) (k : Nat)
    (h : Hart) :
    bitOfRow (h.putElems n w ps f).v r k
      = if ∃ p ∈ ps, n + p.1 = r.val ∧ k / w = p.2 then (f (r.val - n) (k / w)).testBit (k % w) else bitOfRow h.v r k := by
  induction ps generalizing h with
  | nil => simp [Hart.putElems]
  | cons p ps ih =>
    have step := ih (fun q hq => fits q (List.mem_cons_of_mem _ hq)) (h.setElem n w p.1 p.2 (f p.1 p.2))
    rw [setElem_bit h hw (fits p List.mem_cons_self)] at step
    refine step.trans ?_
    by_cases later : ∃ q ∈ ps, n + q.1 = r.val ∧ k / w = q.2
    · obtain ⟨q, hq, e⟩ := later
      rw [if_pos ⟨q, hq, e⟩, if_pos ⟨q, List.mem_cons_of_mem _ hq, e⟩]
    · rw [if_neg later]
      by_cases here : n + p.1 = r.val ∧ k / w = p.2
      · rw [if_pos here, if_pos ⟨p, List.mem_cons_self, here⟩, ← here.1, ← here.2, Nat.add_sub_cancel_left]
      · rw [if_neg here, if_neg]
        rintro ⟨q, hq, e⟩
        obtain rfl | hq := List.mem_cons.mp hq
        · exact here e
        · exact later ⟨q, hq, e⟩

theorem putElems_eq (ps : List (Nat × Nat)) (f : Nat → Nat → Nat) (h : Hart) :
    h.putElems n w ps f = { h with v := (h.putElems n w ps f).v } := by
  induction ps generalizing h with
  | nil => rfl
  | cons p ps ih => exact ih _

theorem testBit_elemOf (v : Vector Row 32) {j : Nat} (hj : j < 32) (e i : Nat) :
    (Spec.elemOf v j w e).testBit i = (decide (i < w) && bitOfRow v ⟨j, hj⟩ (w * e + i)) := by
  have same : (Fin.ofNat 32 j : Fin 32) = ⟨j, hj⟩ := Fin.ext (Nat.mod_eq_of_lt hj)
  unfold Spec.elemOf bitOfRow
  rw [Nat.testBit_mod_two_pow, Nat.testBit_div_two_pow, BitVec.testBit_toNat, same, Nat.add_comm i]

/-- Elements written at the positions that `writes` accepts hold their values, and nothing else has changed. -/
theorem putElems_written (h : Hart) (hw : 0 < w) {ps : List (Nat × Nat)} {f val : Nat → Nat → Nat} {writes : Nat → Nat → Bool}
    (at_ : ∀ j e, writes j e = true ↔ (j, e) ∈ ps) (fits : ∀ p ∈ ps, Fits n w p)
    (value : ∀ j e, writes j e = true → f j e % 2 ^ w = val j e % 2 ^ w) :
    Spec.ElementsWritten h.v (h.putElems n w ps f).v n w writes val := by
  refine ⟨fun j e written => ?_, fun r k others => ?_⟩
  · have mem := (at_ j e).mp written
    rw [← value j e written]
    refine Nat.eq_of_testBit_eq fun i => ?_
    rw [testBit_elemOf _ (fits _ mem).1, Nat.testBit_mod_two_pow]
    by_cases hi : i < w
    · have col : (w * e + i) / w = e := by rw [Nat.mul_add_div hw, Nat.div_eq_of_lt hi, Nat.add_zero]
      have bit : (w * e + i) % w = i := by rw [Nat.mul_add_mod, Nat.mod_eq_of_lt hi]
      rw [putElems_bit hw ps f fits, if_pos ⟨(j, e), mem, rfl, col⟩, col, bit]
      simp
    · simp [hi]
  · refine (putElems_bit hw ps f fits r k h).trans (if_neg ?_)
    rintro ⟨p, hp, e⟩
    exact others p.1 p.2 ((at_ p.1 p.2).mpr hp) e

end

end Sys2Proof.Machine

/-! # Shapes and element moves (O15) -/

namespace Sys2Proof.Machine

/-! ## Shapes -/

section

variable {s u : State} {g : Hart} {rd : BitVec 5} {v : Word}

theorem becomes_setX (hart : s.lane = none) (rd : BitVec 5) (v : Word) : Becomes s (s.setX rd v) { s.h with x := s.h.xWith rd v } := by
  rw [setX_of_hart s rd v hart]
  exact becomes_setH s _

/-- A result in rd after an update of the hart completes the instruction. -/
theorem finish_setX_becomes (b : Becomes s u g) (hart : s.lane = none) (pc : g.pc = s.h.pc) (lanes : g.lanes = s.h.lanes)
    (checker : g.checker = s.h.checker) (trap : g.trap = s.h.trap) :
    ∃ t, finish (u.setX rd v) = .next t
      ∧ Becomes s t (Hart.doneAt { g with x := g.xWith rd v } s.checkerNext (s.h.pc + 4)) := by
  refine ⟨_, rfl, ?_⟩
  rw [setX_of_hart u rd v (b.lane.trans hart), b.h]
  have done := retire_becomes (b.setH { g with x := g.xWith rd v }) pc lanes checker trap
  rw [hart, setPc_of_hart, pc_of_hart s hart] at done
  exact done

/-- A granted shape is legal (R23). -/
theorem grant_shapeOk (p : Shape) (n m : Nat) {sew : BitVec 3} (width : sew.toNat ≤ 3) :
    Spec.ShapeOk { p with vl := grantLen n sew.toNat, vrows := grantRows m, sew := sew } := by
  refine ⟨grantRows_legal m, width, ?_⟩
  have row : 8 * 2 ^ sew.toNat = 2 ^ (3 + sew.toNat) := by rw [Nat.pow_add]
  rw [row]
  exact (Nat.mul_le_mul_right _ (grantLen_le n width)).trans (Nat.div_mul_le_self ..)

theorem shapeGrant : Claims.ShapeGrant := by
  intro s rd a b sew hart
  refine ⟨fun wide => ?_, fun width => ?_⟩
  · have answer : exec (.vshape rd a b sew) s = raise s (Trap.operand (sew.setWidth 64)) := if_pos wide
    unfold Traps
    rw [answer]
    exact raise_trapped s (Trap.operand (sew.setWidth 64))
  · intro vl rows g
    have answer : exec (.vshape rd a b sew) s = finish ((s.setH { s.h with fresh := true, shape := g }).setX rd (vl.setWidth 64)) :=
      if_neg (Nat.not_lt.mpr width)
    obtain ⟨t, done, becomes⟩ := finish_setX_becomes (rd := rd) (v := vl.setWidth 64) (becomes_setH s { s.h with fresh := true, shape := g }) hart
      rfl rfl rfl rfl
    exact ⟨t, answer.trans done, becomes, grant_shapeOk s.h.shape _ _ width⟩

end

/-! ## Moves of one element -/

section

variable {s : State}

theorem operands_position (n : BitVec 5) (p : Word) : Operands [checkStart s, checkGroup s n, checkPos s p] := by
  intro t ht
  simp only [List.mem_cons, List.not_mem_nil, or_false] at ht
  obtain e | e | e := ht <;> exact need_cause e.symm

/-- A move of one element has no illegal operand. -/
theorem positionChecks_none {n : BitVec 5} {p : Word} (start : Spec.StartOk s) (group : Spec.Group s n)
    (inTile : Spec.row p < s.h.shape.vrows.toNat ∧ Spec.col p < s.h.shape.vl.toNat) :
    firstTrap [checkStart s, checkGroup s n, checkPos s p] = none := by
  simp [firstTrap_eq_none, checkStart_eq_none.mpr start, (checkGroup_eq_none n).mpr group, (checkPos_eq_none p).mpr inTile]

/-- A move outside the tile is refused with its position. -/
theorem positionChecks_outside {n : BitVec 5} {p : Word} (start : Spec.StartOk s) (group : Spec.Group s n)
    (outside : ¬ (Spec.row p < s.h.shape.vrows.toNat ∧ Spec.col p < s.h.shape.vl.toNat)) :
    firstTrap [checkStart s, checkGroup s n, checkPos s p] = some (Trap.operand p) := by
  have pos : checkPos s p = some (Trap.operand p) := by
    have some := mt (checkPos_eq_none p).mp outside
    unfold checkPos need at some ⊢
    split at some
    · exact absurd rfl some
    · next e => rw [if_neg e]
  rw [checkStart_eq_none.mpr start, (checkGroup_eq_none n).mpr group, pos]
  rfl

/-- A vector instruction whose first failing check is of an illegal operand traps with it. -/
theorem vecOp_trap {c : Claim} {check : Option Trap} {eff : State → State} {p : Word} (illegal : check = some (Trap.operand p)) :
    ∃ t, vecOp s c check eff = .next t ∧ Trapped s t 0x040 p s.pc 0 := by
  rw [illegal]
  exact raise_trapped s (Trap.operand p)

theorem sewOf_pos (s : State) : 0 < Spec.sewOf s := Nat.mul_pos (by decide) (Nat.two_pow_pos _)

theorem extOf_signed {w : Nat} (hw : 0 < w) (v : Nat) : extOf true w v = Spec.sgn w v := signedOf_eq_bmod hw v

/-- An element has the bits of its width alone. -/
theorem extOf_unsigned (v : Vector Row 32) (r w e : Nat) : extOf false w (Spec.elemOf v r w e) = Spec.elemOf v r w e :=
  congrArg Nat.cast (Nat.mod_mod _ _)

theorem rows_cases {p : Shape} (shape : Spec.ShapeOk p) : p.vrows.toNat = 1 ∨ p.vrows.toNat = 2 ∨ p.vrows.toNat = 4 ∨ p.vrows.toNat = 8 := by
  obtain e | e | e | e := shape.1 <;> rw [e] <;> decide

/-- A group's registers are registers, and an element of a legal shape lies in its row (R23, R24). -/
theorem fits_of_group {n : BitVec 5} {w : Nat} (shape : Spec.ShapeOk s.h.shape) (group : Spec.Group s n)
    (room : s.h.shape.vl.toNat * w ≤ 4096) {p : Nat × Nat} (row : p.1 < s.h.shape.vrows.toNat) (col : p.2 < s.h.shape.vl.toNat) :
    Fits n.toNat w p := by
  constructor
  · have lt := n.isLt
    unfold Spec.Group at group
    obtain rows | rows | rows | rows := rows_cases shape <;> rw [rows] at row group <;> omega
  · have fits : (p.2 + 1) * w ≤ s.h.shape.vl.toNat * w := Nat.mul_le_mul_right _ col
    rw [Nat.add_mul, Nat.one_mul, Nat.mul_comm p.2] at fits
    omega

/-- A move to an x register writes the element at its position (R125). -/
theorem moveToX_done {a b d : BitVec 5} {c signed : Bool} (hart : s.lane = none) (start : Spec.StartOk s) (group : Spec.Group s a)
    (inTile : Spec.row (s.x b) < s.h.shape.vrows.toNat ∧ Spec.col (s.x b) < s.h.shape.vl.toNat)
    (joins : Spec.Joins s (Spec.claimPerm c [] (Spec.regs s a) [])) :
    ∃ t, moveToX signed d a b c s = .next t ∧ Spec.VectorDone s t (Spec.claimPerm c [] (Spec.regs s a) [])
      { s.h with x := s.h.xWith d (BitVec.ofInt 64 (extOf signed (Spec.sewOf s)
        (Spec.el s a (Spec.sewOf s) (Spec.row (s.x b)) (Spec.col (s.x b))))) } := by
  unfold moveToX
  dsimp only
  rw [posElem_eq]
  exact vecOp_done (positionChecks_none start group inTile) hart joins (becomes_setX hart d _) rfl rfl rfl rfl

/-- A move to an element writes it and no other (R125). -/
theorem vmvv_done {a b d : BitVec 5} {c : Bool} (hart : s.lane = none) (shape : Spec.ShapeOk s.h.shape) (start : Spec.StartOk s)
    (group : Spec.Group s d) (inTile : Spec.row (s.x b) < s.h.shape.vrows.toNat ∧ Spec.col (s.x b) < s.h.shape.vl.toNat)
    (joins : Spec.Joins s (Spec.claimPerm c [] [] (Spec.regs s d))) :
    ∃ t v, exec (.vmvv d a b c) s = .next t ∧ Spec.VectorDone s t (Spec.claimPerm c [] [] (Spec.regs s d)) { s.h with v := v }
      ∧ Spec.ElementsWritten s.h.v v d.toNat (Spec.sewOf s)
        (fun j e => decide (j = Spec.row (s.x b) ∧ e = Spec.col (s.x b))) (fun _ _ => (s.x a).toNat) := by
  let put := s.h.putElems d.toNat (Spec.sewOf s) [(Spec.row (s.x b), Spec.col (s.x b))] fun _ _ => (s.x a).toNat % 2 ^ Spec.sewOf s
  have done : ∃ t, exec (.vmvv d a b c) s = .next t ∧ Spec.VectorDone s t (Spec.claimPerm c [] [] (Spec.regs s d)) { s.h with v := put.v } := by
    show ∃ t, execVmvv d a b c s = _ ∧ _
    unfold execVmvv
    dsimp only
    rw [posElem_eq]
    exact vecOp_done (positionChecks_none start group inTile) hart joins (becomes_setH s put) rfl rfl rfl rfl
  obtain ⟨t, answer, after⟩ := done
  refine ⟨t, put.v, answer, after, putElems_written s.h (sewOf_pos s) (fun j e => ?_) (fun p hp => ?_) fun _ _ _ => Nat.mod_mod _ _⟩
  · simp
  · rw [List.mem_singleton.mp hp]
    exact fits_of_group shape group shape.2.2 inTile.1 inTile.2

theorem moveToX_outside {a b d : BitVec 5} {c signed : Bool} (start : Spec.StartOk s) (group : Spec.Group s a)
    (outside : ¬ (Spec.row (s.x b) < s.h.shape.vrows.toNat ∧ Spec.col (s.x b) < s.h.shape.vl.toNat)) :
    ∃ t, moveToX signed d a b c s = .next t ∧ Trapped s t 0x040 (s.x b) s.pc 0 := by
  unfold moveToX
  exact vecOp_trap (positionChecks_outside start group outside)

theorem vmvv_outside {a b d : BitVec 5} {c : Bool} (start : Spec.StartOk s) (group : Spec.Group s d)
    (outside : ¬ (Spec.row (s.x b) < s.h.shape.vrows.toNat ∧ Spec.col (s.x b) < s.h.shape.vl.toNat)) :
    Traps (.vmvv d a b c) s 0x040 (s.x b) := by
  show ∃ t, execVmvv d a b c s = _ ∧ _
  unfold execVmvv
  exact vecOp_trap (positionChecks_outside start group outside)

theorem scalarVectorMoves : Claims.ScalarVectorMoves := by
  intro s a b d c hart shape start p w inTile
  refine ⟨fun inside group joins => ⟨?_, ?_⟩, fun inside group joins => vmvv_done hart shape start group inside joins,
    fun outside group => ⟨moveToX_outside start group outside, moveToX_outside start group outside⟩, fun outside group => vmvv_outside start group outside⟩
  · rw [← extOf_signed (sewOf_pos s)]
    exact moveToX_done hart start group inside joins
  · rw [← BitVec.ofInt_natCast, show (Spec.el s a w (Spec.row p) (Spec.col p) : Int) = _ from (extOf_unsigned ..).symm]
    exact moveToX_done hart start group inside joins

end

/-- Settles O15: a shape is granted in one write of rd, and a move of one element is a vector instruction whose last check is its position. -/
theorem shapesAndMoves : Obligations.ShapesAndMoves := ⟨shapeGrant, scalarVectorMoves⟩

end Sys2Proof.Machine

/-! # Sweeps of the vector unit (O16, O18) -/

namespace Sys2Proof.Machine

/-! ## Operand checks of a sweep -/

section

variable {s : State}

@[simp] theorem operands_nil : Operands [] := by simp [Operands]

theorem operands_cons {k : Option Trap} {l : List (Option Trap)} :
    Operands (k :: l) ↔ (∀ t, k = some t → t = Trap.operand t.tval) ∧ Operands l := by
  unfold Operands
  constructor
  · exact fun h => ⟨fun t e => h t (e ▸ List.mem_cons_self), fun t m => h t (List.mem_cons_of_mem _ m)⟩
  · rintro ⟨h, r⟩ t m
    obtain e | m := List.mem_cons.mp m
    · exact h t e.symm
    · exact r t m

@[simp] theorem operands_cons_none {l : List (Option Trap)} : Operands (none :: l) ↔ Operands l := by
  rw [operands_cons]
  exact ⟨fun h => h.2, fun h => ⟨fun _ e => by simp at e, h⟩⟩

@[simp] theorem operands_cons_need {ok : Bool} {v : Word} {l : List (Option Trap)} : Operands (need ok v :: l) ↔ Operands l := by
  rw [operands_cons]
  exact ⟨fun h => h.2, fun h => ⟨fun _ e => need_cause e, h⟩⟩

@[simp] theorem operands_cons_start {l : List (Option Trap)} : Operands (checkStart s :: l) ↔ Operands l := operands_cons_need

@[simp] theorem operands_cons_group {n : BitVec 5} {l : List (Option Trap)} : Operands (checkGroup s n :: l) ↔ Operands l :=
  operands_cons_need

@[simp] theorem operands_cons_width {ty : BitVec 2} {l : List (Option Trap)} : Operands (checkWidth s ty :: l) ↔ Operands l :=
  operands_cons_need

@[simp] theorem operands_cons_wide {l : List (Option Trap)} : Operands (checkWide s :: l) ↔ Operands l := operands_cons_need

@[simp] theorem operands_cons_fmt {f : FpFmt} {l : List (Option Trap)} : Operands (checkFmt s f :: l) ↔ Operands l := operands_cons_need

@[simp] theorem operands_cons_fpSew {bf16 : Bool} {l : List (Option Trap)} : Operands (checkFpSew s bf16 :: l) ↔ Operands l :=
  operands_cons_need

@[simp] theorem operands_cons_maskDest {md : BitVec 3} {l : List (Option Trap)} : Operands (checkMaskDest md :: l) ↔ Operands l :=
  operands_cons_need

/-- A group that only one of two operand forms names is checked in that form. -/
@[simp] theorem operands_cons_unless {c : Bool} {n : BitVec 5} {l : List (Option Trap)} :
    Operands ((if c = true then none else checkGroup s n) :: l) ↔ Operands l := by
  cases c <;> simp

@[simp] theorem operands_cons_when {c : Bool} {n : BitVec 5} {l : List (Option Trap)} :
    Operands ((if c = true then checkGroup s n else none) :: l) ↔ Operands l := by
  cases c <;> simp

@[simp] theorem unless_eq_none {c : Bool} {n : BitVec 5} :
    (if c = true then none else checkGroup s n) = none ↔ (c = false → Spec.Group s n) := by
  cases c <;> simp [checkGroup_eq_none]

@[simp] theorem when_eq_none {c : Bool} {n : BitVec 5} :
    (if c = true then checkGroup s n else none) = none ↔ (c = true → Spec.Group s n) := by
  cases c <;> simp [checkGroup_eq_none]

@[simp] theorem firstTrap_cons {k : Option Trap} {l : List (Option Trap)} : firstTrap (k :: l) = none ↔ k = none ∧ firstTrap l = none := by
  simp [firstTrap_eq_none]

@[simp] theorem firstTrap_nil : firstTrap [] = none := rfl

@[simp] theorem checkFmt_eq_none (f : FpFmt) : checkFmt s f = none ↔ fpWidth f = Spec.sewOf s := need_decide

@[simp] theorem checkFpSew_eq_none (bf16 : Bool) :
    checkFpSew s bf16 = none ↔ if bf16 then Spec.sewOf s = 16 else Spec.sewOf s ≠ 8 := by
  unfold checkFpSew
  rw [need_eq_none]
  cases bf16
  · exact decide_eq_true_iff
  · exact decide_eq_true_iff

@[simp] theorem checkMaskDest_eq_none (md : BitVec 3) : checkMaskDest md = none ↔ md ≠ 0 := need_decide

end

/-! ## The positions of a sweep -/

section

variable {s : State}

theorem mem_tileOf {j e : Nat} : (j, e) ∈ Spec.tileOf s ↔ j < s.h.shape.vrows.toNat ∧ e < s.h.shape.vl.toNat := by
  simp [Spec.tileOf]

theorem col_lt (p : Word) : Spec.col p < 2048 := Nat.mod_lt _ (by decide)

/-- A place in element order (R25) is one number, where rows hold less than 2,048 elements. -/
theorem notBefore_iff (p : Word) (j : Nat) {i : Nat} (hi : i < 2048) :
    notBefore p j i = true ↔ Spec.row p * 2048 + Spec.col p ≤ j * 2048 + i := by
  have col := col_lt p
  unfold notBefore
  rw [posElem_eq, Bool.or_eq_true, Bool.and_eq_true, decide_eq_true_iff, decide_eq_true_iff, decide_eq_true_iff]
  change Spec.row p < j ∨ Spec.row p = j ∧ Spec.col p ≤ i ↔ _
  omega

theorem beforeStop_iff (p : Word) (j : Nat) {i : Nat} (hi : i < 2048) :
    beforeStop p j i = true ↔ ¬ (p.getLsbD 63 = true ∧ Spec.row p * 2048 + Spec.col p ≤ j * 2048 + i) := by
  have col := col_lt p
  unfold beforeStop
  rw [posElem_eq, Bool.or_eq_true, Bool.or_eq_true, Bool.and_eq_true, decide_eq_true_iff, decide_eq_true_iff, decide_eq_true_iff, Bool.not_eq_true']
  change (_ ∨ j < Spec.row p) ∨ j = Spec.row p ∧ i < Spec.col p ↔ _
  cases p.getLsbD 63
  · simp
  · simp only [Bool.true_eq_false, false_or, true_and]
    omega

theorem reached_eq (bound : Bool) : reached s bound = (Spec.tileOf s).filter fun p => Spec.inSweep s bound p.1 p.2 := by
  refine List.filter_congr fun p hp => ?_
  obtain ⟨row, col⟩ := mem_tileOf.mp hp
  have short : p.2 < 2048 := col.trans (lt_of_lt_of_le s.h.shape.vl.isLt (by decide))
  rw [Bool.eq_iff_iff, Bool.and_eq_true, notBefore_iff _ _ short]
  unfold Spec.inSweep
  rw [Bool.and_eq_true, decide_eq_true_iff, Bool.or_eq_true, beforeStop_iff _ _ short]
  cases bound
  · simp [row, col]
  · simp [row, col, imp_iff_not_or]

/-- The active positions are those of the tile at which the form writes (R119). -/
theorem active_eq (mask : BitVec 3) : active s mask = (Spec.tileOf s).filter fun p => Spec.activeAt s mask p.1 p.2 := by
  unfold active
  rw [reached_eq, List.filter_filter]
  exact List.filter_congr fun p _ => Bool.and_comm ..

theorem inTile_of_inSweep {bound : Bool} {j e : Nat} (h : Spec.inSweep s bound j e = true) : (j, e) ∈ Spec.tileOf s := by
  unfold Spec.inSweep at h
  rw [Bool.and_eq_true, decide_eq_true_iff] at h
  exact mem_tileOf.mpr ⟨h.1.1, h.1.2.1⟩

theorem inTile_of_activeAt {mask : BitVec 3} {j e : Nat} (h : Spec.activeAt s mask j e = true) : (j, e) ∈ Spec.tileOf s :=
  inTile_of_inSweep (Bool.and_eq_true_iff.mp h).1

end

/-! ## What a sweep does -/

section

variable {s : State}

/-- A vector instruction: checks that pass just where its operands are legal, its claim, and an effect of which `Q` holds where they are. -/
def Runs (o : Out) (s : State) (legal : Bool) (c : Claim) (Q : State → Prop) : Prop :=
  ∃ (l : List (Option Trap)) (eff : State → State), o = vecOp s c (firstTrap l) eff ∧ Operands l ∧ (firstTrap l = none ↔ legal = true)
    ∧ (legal = true → Q (eff s))

/-- The elements of a form are written, its flags are set, and nothing else has changed. -/
def Wrote (s : State) (f : Spec.ElemForm) (u : State) : Prop :=
  ∃ v, Becomes s u { s.h with v := v, user := { s.h.user with fflags := s.h.user.fflags ||| Spec.flagsOver s f.writes f.flags } }
    ∧ Spec.ElementsWritten s.h.v v f.vd.toNat f.w f.writes f.val

/-- Where an element form writes: in the tile, at elements that a row holds. -/
structure InRows (s : State) (f : Spec.ElemForm) : Prop where
  width : 0 < f.w
  room : s.h.shape.vl.toNat * f.w ≤ 4096
  group : Spec.Group s f.vd
  tile : ∀ j e, f.writes j e = true → (j, e) ∈ Spec.tileOf s

/-- Elements written with their flags. -/
theorem wrote_fpPut {f : Spec.ElemForm} (shape : Spec.ShapeOk s.h.shape) (rows : InRows s f) {ps : List (Nat × Nat)} {r : Nat → Nat → Nat × Flags}
    (places : ps = (Spec.tileOf s).filter fun p => f.writes p.1 p.2)
    (value : ∀ j e, f.writes j e = true → (r j e).1 % 2 ^ f.w = f.val j e % 2 ^ f.w)
    (flags : ∀ j e, f.writes j e = true → (r j e).2 = f.flags j e) : Wrote s f (fpPut s f.vd f.w ps r) := by
  have mem (p : Nat × Nat) : p ∈ ps ↔ p ∈ Spec.tileOf s ∧ f.writes p.1 p.2 = true := places ▸ List.mem_filter
  have raised : orFlagsAt ps (fun j e => (r j e).2) = Spec.flagsOver s f.writes f.flags := by
    unfold orFlagsAt Spec.flagsOver
    rw [← places]
    exact List.foldl_ext _ _ _ fun a p hp => congrArg (a ||| ·) (flags p.1 p.2 ((mem p).mp hp).2)
  refine ⟨(s.h.putElems f.vd.toNat f.w ps fun j e => (r j e).1).v, ?_,
    putElems_written s.h rows.width (fun j e => ?_) (fun p hp => ?_) value⟩
  · unfold fpPut
    rw [raised, putElems_eq]
    exact becomes_setH s _
  · exact ⟨fun w => (mem (j, e)).mpr ⟨rows.tile j e w, w⟩, fun m => ((mem (j, e)).mp m).2⟩
  · obtain ⟨row, col⟩ := mem_tileOf.mp ((mem p).mp hp).1
    exact fits_of_group shape rows.group rows.room row col

theorem orFlagsAt_zero (ps : List (Nat × Nat)) : orFlagsAt ps (fun _ _ => 0) = 0 := by
  unfold orFlagsAt
  simp

/-- Elements written by an instruction that sets no flag. -/
theorem wrote_putElems {f : Spec.ElemForm} (shape : Spec.ShapeOk s.h.shape) (rows : InRows s f) {ps : List (Nat × Nat)} {g : Nat → Nat → Nat}
    (places : ps = (Spec.tileOf s).filter fun p => f.writes p.1 p.2)
    (value : ∀ j e, f.writes j e = true → g j e % 2 ^ f.w = f.val j e % 2 ^ f.w)
    (flags : f.flags = fun _ _ => 0) : Wrote s f (s.setH (s.h.putElems f.vd.toNat f.w ps g)) := by
  have same : s.setH (s.h.putElems f.vd.toNat f.w ps g) = fpPut s f.vd f.w ps fun j e => (g j e, 0) := by
    unfold fpPut
    rw [orFlagsAt_zero]
    simp [Hart.orFlags]
  rw [same]
  exact wrote_fpPut shape rows places value fun j e _ => by rw [flags]

end

end Sys2Proof.Machine

/-! # Vector instructions that compute element by element (O16) -/

namespace Sys2Proof.Machine

/-! ## Integers mod 2^w -/

section

variable {w a b : Nat}

theorem wrapTo_eq (w : Nat) (i : Int) : wrapTo w i = Spec.modOf w i := by
  unfold wrapTo Spec.modOf
  push_cast
  rfl

theorem modOf_natCast (w n : Nat) : Spec.modOf w n = n % 2 ^ w := by
  unfold Spec.modOf
  have cast : ((2 : Int) ^ w) = ((2 ^ w : Nat) : Int) := by push_cast; rfl
  rw [cast, ← Int.natCast_emod, Int.toNat_natCast]

theorem modOf_lt (w : Nat) (i : Int) : Spec.modOf w i < 2 ^ w := by
  have pos : (0 : Int) < 2 ^ w := by positivity
  have lt := Int.emod_lt_of_pos i pos
  have nonneg := Int.emod_nonneg i pos.ne'
  unfold Spec.modOf
  zify
  rw [Int.toNat_of_nonneg nonneg]
  exact lt

theorem modOf_mod (w : Nat) (i : Int) : Spec.modOf w i % 2 ^ w = Spec.modOf w i := Nat.mod_eq_of_lt (modOf_lt w i)

theorem modOf_congr {i k : Int} (h : i % 2 ^ w = k % 2 ^ w) : Spec.modOf w i = Spec.modOf w k := congrArg Int.toNat h

/-- A value of w bits given as a number is the one of its row where both agree mod 2^w. -/
theorem mod_eq_modOf {n : Nat} {i : Int} (h : (n : Int) % 2 ^ w = i % 2 ^ w) : n % 2 ^ w = Spec.modOf w i := by
  rw [← modOf_natCast]
  exact modOf_congr h

theorem sgn_emod (w a : Nat) : Spec.sgn w a % 2 ^ w = (a : Int) % 2 ^ w := by
  have e := Int.bmod_emod (x := (a : Int)) (m := 2 ^ w)
  push_cast at e
  exact e

theorem extOf_true (hw : 0 < w) (a : Nat) : extOf true w a = Spec.sgn w a := signedOf_eq_bmod hw a

theorem extOf_false (ha : a < 2 ^ w) : extOf false w a = a := congrArg Nat.cast (Nat.mod_eq_of_lt ha)

end

/-! ## Integer forms (R126, R127) -/

section

variable {s : State} {i : Instr} {vd a b : BitVec 5} {k : BitVec 3} {c sc : Bool} {t : BitVec 2}

theorem elemOf_lt (v : Vector Row 32) (r w e : Nat) : Spec.elemOf v r w e < 2 ^ w := Nat.mod_lt _ (Nat.two_pow_pos w)

theorem opnd_lt (s : State) (sc : Bool) (b : BitVec 5) (w j e : Nat) : Spec.opnd s sc b w j e < 2 ^ w := by
  unfold Spec.opnd
  split
  · exact Nat.mod_lt _ (Nat.two_pow_pos w)
  · exact elemOf_lt ..

theorem intSweep_runs (shape : Spec.ShapeOk s.h.shape) {F : Nat → Nat → Nat → Nat}
    (value : ∀ w p q, 0 < w → p < 2 ^ w → q < 2 ^ w → (F w p q : Int) % 2 ^ w = (Spec.intOp i w p q).getD 0 % 2 ^ w) :
    Runs (intSweep F vd a b k c sc t s) s (Spec.formInt i s vd a b k c sc t).legal (Spec.formInt i s vd a b k c sc t).claim
      (Wrote s (Spec.formInt i s vd a b k c sc t)) := by
  refine ⟨_, _, by unfold intSweep; rfl, ?_, ?_, fun legal => ?_⟩
  · simp
  · unfold Spec.formInt
    rw [decide_eq_true_iff]
    simp
  · unfold Spec.formInt at legal
    simp only [decide_eq_true_iff] at legal
    obtain ⟨-, -, group, -⟩ := legal
    refine wrote_putElems shape ⟨sewOf_pos s, shape.2.2, group, fun j e => inTile_of_activeAt⟩ (active_eq k) (fun j e _ => ?_) rfl
    exact congrArg (· % 2 ^ Spec.sewOf s) (mod_eq_modOf (value _ _ _ (sewOf_pos s) (elemOf_lt ..) (opnd_lt s sc b ..)))

theorem wideSweep_runs (shape : Spec.ShapeOk s.h.shape) {F : Nat → Nat → Nat → Int} {unary : Bool}
    (value : ∀ w p q, 0 < w → p < 2 ^ w → q < 2 ^ w →
      F w p (if unary then 0 else q) % 2 ^ (2 * w) = (Spec.wideOp i w p q).getD 0 % 2 ^ (2 * w)) :
    Runs (wideSweep F unary vd a b k c sc t s) s (Spec.formWide i s vd a b k c (!unary) sc t).legal
      (Spec.formWide i s vd a b k c (!unary) sc t).claim (Wrote s (Spec.formWide i s vd a b k c (!unary) sc t)) := by
  have two : (!(sc || unary)) = (!unary && !sc) := by cases sc <;> cases unary <;> rfl
  refine ⟨_, _, by unfold wideSweep; rw [two]; rfl, ?_, ?_, fun legal => ?_⟩
  · cases unary <;> cases sc <;> simp
  · unfold Spec.formWide
    rw [decide_eq_true_iff]
    cases unary <;> cases sc <;> simp [need_eq_none]
  · unfold Spec.formWide at legal
    simp only [decide_eq_true_iff] at legal
    obtain ⟨-, -, wide, group, -⟩ := legal
    refine wrote_putElems shape ⟨Nat.mul_pos (by decide) (sewOf_pos s), wide.2, group, fun j e => inTile_of_activeAt⟩ (active_eq k) (fun j e _ => ?_) rfl
    rw [wrapTo_eq]
    exact congrArg (· % 2 ^ (2 * Spec.sewOf s)) (modOf_congr (value _ _ _ (sewOf_pos s) (elemOf_lt ..) (opnd_lt s sc b ..)))

theorem narrowSweep_runs (shape : Spec.ShapeOk s.h.shape) {F : Nat → Nat → Nat}
    (value : ∀ w p, 0 < w → p < 2 ^ (2 * w) → (F w p : Int) % 2 ^ w = (Spec.narrowOp i w p).getD 0 % 2 ^ w) :
    Runs (narrowSweep F vd a k c t s) s (Spec.formNarrow i s vd a k c t).legal (Spec.formNarrow i s vd a k c t).claim
      (Wrote s (Spec.formNarrow i s vd a k c t)) := by
  refine ⟨_, _, by unfold narrowSweep; rfl, ?_, ?_, fun legal => ?_⟩
  · simp
  · unfold Spec.formNarrow
    rw [decide_eq_true_iff]
    simp [need_eq_none]
  · unfold Spec.formNarrow at legal
    simp only [decide_eq_true_iff] at legal
    obtain ⟨-, -, -, group, -⟩ := legal
    refine wrote_putElems shape ⟨sewOf_pos s, shape.2.2, group, fun j e => inTile_of_activeAt⟩ (active_eq k) (fun j e _ => ?_) rfl
    exact congrArg (· % 2 ^ Spec.sewOf s) (mod_eq_modOf (value _ _ (sewOf_pos s) (elemOf_lt ..)))

/-- A form of major 0x20, its source a group or none (R125). -/
theorem genSweep_runs (shape : Spec.ShapeOk s.h.shape) {f : State → Nat → Nat → Nat} (src : Option (BitVec 5)) :
    Runs (genSweep f (src.elim [] (groupRegs s)) (src.elim none (checkGroup s)) vd k c s) s (Spec.formMove s vd k c src (f s)).legal
      (Spec.formMove s vd k c src (f s)).claim (Wrote s (Spec.formMove s vd k c src (f s))) := by
  refine ⟨[checkStart s, checkGroup s vd, src.elim none (checkGroup s)],
    fun u => u.setH (u.h.putElems vd.toNat s.sew (active u k) fun j e => f u j e % 2 ^ s.sew), ?_, ?_, ?_, fun legal => ?_⟩
  · cases src <;> rfl
  · cases src <;> simp
  · unfold Spec.formMove
    rw [decide_eq_true_iff]
    cases src <;> simp
  · unfold Spec.formMove at legal
    simp only [decide_eq_true_iff] at legal
    obtain ⟨-, group, -⟩ := legal
    exact wrote_putElems shape ⟨sewOf_pos s, shape.2.2, group, fun j e => inTile_of_activeAt⟩ (active_eq k) (fun j e _ => Nat.mod_mod _ _) rfl

end

/-! ## Multiply-add forms (R128) -/

section

variable {s : State} {vd a b d : BitVec 5} {k : BitVec 2} {c : Bool}

theorem macSweep_runs (shape : Spec.ShapeOk s.h.shape) {f : Nat → Nat → Nat → Nat → Int} {g : Nat → Nat → Nat → Int} {extra : Option Trap} {ok : Bool}
    (operand : Operands [extra]) (check : extra = none ↔ ok = true) (value : ∀ w p q r, f w p q r = g p q r) :
    Runs (macSweep f extra vd a b d k c s) s (Spec.formMac s ok vd a b d k c g).legal (Spec.formMac s ok vd a b d k c g).claim
      (Wrote s (Spec.formMac s ok vd a b d k c g)) := by
  refine ⟨_, _, by unfold macSweep; rfl, ?_, ?_, fun legal => ?_⟩
  · simpa [operands_cons (k := extra)] using operand
  · unfold Spec.formMac
    rw [decide_eq_true_iff]
    simp [check]
  · unfold Spec.formMac at legal
    simp only [decide_eq_true_iff] at legal
    obtain ⟨-, -, group, -⟩ := legal
    refine wrote_putElems shape ⟨sewOf_pos s, shape.2.2, group, fun j e => inTile_of_activeAt⟩ (active_eq _) (fun j e _ => ?_) rfl
    rw [wrapTo_eq, value]
    rfl

theorem wmacSweep_runs (shape : Spec.ShapeOk s.h.shape) {signed : Bool} {ext : Nat → Int}
    (value : ∀ p, p < 2 ^ Spec.sewOf s → extOf signed (Spec.sewOf s) p = ext p) :
    Runs (wmacSweep signed vd a b d k c s) s (Spec.formWmac s ext vd a b d k c).legal (Spec.formWmac s ext vd a b d k c).claim
      (Wrote s (Spec.formWmac s ext vd a b d k c)) := by
  refine ⟨_, _, by unfold wmacSweep; rfl, ?_, ?_, fun legal => ?_⟩
  · simp
  · unfold Spec.formWmac
    rw [decide_eq_true_iff]
    simp [need_eq_none]
  · unfold Spec.formWmac at legal
    simp only [decide_eq_true_iff] at legal
    obtain ⟨-, wide, group, -⟩ := legal
    refine wrote_putElems shape ⟨Nat.mul_pos (by decide) (sewOf_pos s), wide.2, group, fun j e => inTile_of_activeAt⟩ (active_eq _) (fun j e _ => ?_) rfl
    rw [wrapTo_eq]
    exact congrArg₂ (fun p q => Spec.modOf (2 * Spec.sewOf s) (Spec.el s d (2 * Spec.sewOf s) j e + p * q) % 2 ^ (2 * Spec.sewOf s))
      (value _ (elemOf_lt ..)) (value _ (elemOf_lt ..))

end

/-! ## Selections and permutes (R130, R136) -/

section

variable {s : State} {vd a b : BitVec 5} {k : BitVec 3} {c sc two : Bool} {t : BitVec 2}

theorem sew_eq (s : State) : s.sew = Spec.sewOf s := rfl

theorem vmerge_runs (shape : Spec.ShapeOk s.h.shape) :
    Runs (execVmerge vd a b k c sc t s) s (Spec.formMerge s vd a b k c sc t).legal (Spec.formMerge s vd a b k c sc t).claim
      (Wrote s (Spec.formMerge s vd a b k c sc t)) := by
  refine ⟨_, _, by unfold execVmerge; rfl, ?_, ?_, fun legal => ?_⟩
  · simp
  · unfold Spec.formMerge
    rw [decide_eq_true_iff]
    simp
  · unfold Spec.formMerge at legal
    simp only [decide_eq_true_iff] at legal
    obtain ⟨-, -, group, -⟩ := legal
    exact wrote_putElems shape ⟨sewOf_pos s, shape.2.2, group, fun j e => inTile_of_inSweep⟩ (reached_eq true) (fun _ _ _ => rfl) rfl

theorem groupsMeet_eq_false (x y : BitVec 5) : groupsMeet s x y = false ↔ ¬ Spec.Overlap s x y := by
  rw [← Bool.not_eq_true]
  unfold groupsMeet
  rw [Bool.and_eq_true, decide_eq_true_iff, decide_eq_true_iff]
  rfl

/-- A permute writes its active positions but for those it keeps (R136). -/
theorem permSweep_runs (shape : Spec.ShapeOk s.h.shape) {f : State → Nat → Nat → Option Nat} {extra : Option Trap} {ok : Bool}
    {keeps : Nat → Nat → Bool} {val : Nat → Nat → Nat} (operand : Operands [extra]) (check : extra = none ↔ ok = true)
    (kept : ∀ j e, (f s j e).isSome = !keeps j e) (value : ∀ j e, keeps j e = false → (f s j e).getD 0 = val j e) :
    Runs (permSweep f extra two vd a b k c t s) s (Spec.formPerm s ok vd a b k c two t keeps val).legal
      (Spec.formPerm s ok vd a b k c two t keeps val).claim (Wrote s (Spec.formPerm s ok vd a b k c two t keeps val)) := by
  refine ⟨_, _, by unfold permSweep; rfl, ?_, ?_, fun legal => ?_⟩
  · simpa [operands_cons (k := extra)] using operand
  · unfold Spec.formPerm
    rw [decide_eq_true_iff]
    cases two <;> simp [need_eq_none, groupsMeet_eq_false, check, and_assoc]
  · unfold Spec.formPerm at legal
    simp only [decide_eq_true_iff] at legal
    obtain ⟨-, -, group, -⟩ := legal
    refine wrote_putElems shape ⟨sewOf_pos s, shape.2.2, group, fun j e w => inTile_of_activeAt (Bool.and_eq_true_iff.mp w).1⟩ ?_ (fun j e w => ?_) rfl
    · rw [active_eq, List.filter_filter]
      exact List.filter_congr fun p _ => by rw [kept, Bool.and_comm]; rfl
    · have writes : keeps j e = false := by simpa using (Bool.and_eq_true_iff.mp w).2
      rw [value j e writes]
      rfl

end

/-! ## Floating-point forms (R132, R134, R135) -/

section

variable {s : State} {vd a b d : BitVec 5} {k : BitVec 3} {c sc : Bool} {t : BitVec 2}

theorem fpWidth_pos (f : FpFmt) : 0 < fpWidth f := by cases f <;> decide

theorem fmtCode_eq (ty : BitVec 2) : fmtCode ty = Spec.codeFmt ty := by
  revert ty
  decide

theorem fpSweep_runs (shape : Spec.ShapeOk s.h.shape) {op : FpFmt → Rnd → Nat → Nat → Nat × Flags} {op' : FpFmt → Nat → Nat → Nat × Flags}
    {unary : Bool} (value : ∀ f p q, op f s.rnd p (if unary then 0 else q) = op' f p q) :
    Runs (fpSweep op unary vd a b k c sc t s) s (Spec.formFp s vd a b k c (!unary) sc t op').legal
      (Spec.formFp s vd a b k c (!unary) sc t op').claim (Wrote s (Spec.formFp s vd a b k c (!unary) sc t op')) := by
  have one : (sc || unary) = !(!unary && !sc) := by cases sc <;> cases unary <;> rfl
  refine ⟨_, _, by unfold fpSweep; rw [one, fmtCode_eq]; rfl, ?_, ?_, fun legal => ?_⟩
  · cases unary <;> cases sc <;> simp
  · unfold Spec.formFp
    rw [decide_eq_true_iff]
    cases unary <;> cases sc <;> simp
  · unfold Spec.formFp at legal
    simp only [decide_eq_true_iff] at legal
    obtain ⟨-, width, group, -⟩ := legal
    have room : s.h.shape.vl.toNat * fpWidth (Spec.codeFmt t) ≤ 4096 := by
      rw [width]
      exact shape.2.2
    refine wrote_fpPut shape ⟨fpWidth_pos _, room, group, fun j e => inTile_of_activeAt⟩ (active_eq k) (fun j e _ => ?_) fun j e _ => ?_
    · exact congrArg (fun r : Nat × Flags => r.1 % 2 ^ fpWidth (Spec.codeFmt t)) (value ..)
    · exact congrArg Prod.snd (value ..)

/-- The format of a fused form is as wide as SEW where its width is legal. -/
theorem fpWidth_sewFmt {bf16 : Bool} (shape : Spec.ShapeOk s.h.shape) (legal : if bf16 then Spec.sewOf s = 16 else Spec.sewOf s ≠ 8) :
    fpWidth (Spec.sewFmt s bf16) = Spec.sewOf s := by
  unfold Spec.sewFmt Spec.sewOf at *
  obtain ⟨-, width, -⟩ := shape
  cases bf16
  · generalize s.h.shape.sew.toNat = n at *
    interval_cases n <;> simp_all [fpWidth]
  · exact legal.symm

theorem fmaSweep_runs {k : BitVec 2} {np nc bf16 : Bool} (shape : Spec.ShapeOk s.h.shape) :
    Runs (fmaSweep np nc vd a b d k c bf16 s) s (Spec.formFma s np nc vd a b d k c bf16).legal (Spec.formFma s np nc vd a b d k c bf16).claim
      (Wrote s (Spec.formFma s np nc vd a b d k c bf16)) := by
  refine ⟨_, _, by unfold fmaSweep; rfl, ?_, ?_, fun legal => ?_⟩
  · simp
  · unfold Spec.formFma
    rw [decide_eq_true_iff]
    simp
  · unfold Spec.formFma at legal
    simp only [decide_eq_true_iff] at legal
    obtain ⟨-, width, group, -⟩ := legal
    have room : s.h.shape.vl.toNat * fpWidth (Spec.sewFmt s bf16) ≤ 4096 := by
      rw [fpWidth_sewFmt shape width]
      exact shape.2.2
    exact wrote_fpPut shape ⟨fpWidth_pos _, room, group, fun j e => inTile_of_activeAt⟩ (active_eq _) (fun _ _ _ => rfl) fun _ _ _ => rfl

theorem cvtFmt_eq (x : BitVec 3) : cvtFmt x = Spec.cvtCode x := by
  revert x
  decide

theorem cvtWidth_eq (x y : BitVec 3) : cvtWidth x y = Spec.cvtBits x y := by
  revert x y
  decide

theorem drawAddend_eq (w p : Nat) :
    drawAddend w p = if w = 64 then BitVec.ofNat 32 p ^^^ BitVec.ofNat 32 (p / 2 ^ 32) else BitVec.ofNat 32 p := by
  have low : BitVec.ofNat 32 (p % 2 ^ 32) = BitVec.ofNat 32 p := BitVec.eq_of_toNat_eq (by simp)
  unfold drawAddend
  rw [low]

/-- One element of a conversion, of the source's width (R134). -/
theorem cvtElem_eq {alt : Bool} {src dst : BitVec 3} {j e p : Nat} (hp : p < 2 ^ Spec.cvtBits src dst) :
    cvtElem s alt src dst vd j e p = Spec.cvtOne s alt src dst vd j e p := by
  unfold cvtElem Spec.cvtOne
  rw [cvtFmt_eq, cvtFmt_eq]
  cases hs : Spec.cvtCode src with
  | none =>
    cases hd : Spec.cvtCode dst with
    | none => rfl
    | some g =>
      have wide : p < 2 ^ fpWidth g := by
        unfold Spec.cvtBits at hp
        rw [hs, hd] at hp
        exact hp
      cases alt
      · exact congrArg (fFromInt g s.rnd) (extOf_true (fpWidth_pos g) p)
      · exact congrArg (fFromInt g s.rnd) (extOf_false wide)
  | some f =>
    cases Spec.cvtCode dst with
    | none => rfl
    | some g =>
      dsimp only
      rw [drawAddend_eq]
      rfl

theorem cvtBits_pos (x y : BitVec 3) : 0 < Spec.cvtBits x y := by
  revert x y
  decide

theorem vcvt_runs {alt : Bool} {src dst : BitVec 3} (shape : Spec.ShapeOk s.h.shape) :
    Runs (execVcvt vd a k c alt src dst s) s (Spec.formCvt s vd a k c alt src dst).legal (Spec.formCvt s vd a k c alt src dst).claim
      (Wrote s (Spec.formCvt s vd a k c alt src dst)) := by
  have claim : (Spec.formCvt s vd a k c alt src dst).claim = { (if Spec.cvtBits src dst = Spec.cvtBits dst src
      then claimElem c k (groupRegs s a) (groupRegs s vd) [] else claimCross c k (groupRegs s a) (groupRegs s vd)) with units := 0 } := by
    unfold Spec.formCvt
    dsimp only
    split <;> rfl
  refine ⟨_, _, by unfold execVcvt; rw [claim, cvtWidth_eq, cvtWidth_eq], ?_, ?_, fun legal => ?_⟩
  · simp
  · unfold Spec.formCvt
    rw [decide_eq_true_iff]
    simp [need_eq_none, or_iff_not_imp_left (a := Spec.cvtBits src dst = Spec.cvtBits dst src), ← sew_eq]
  · unfold Spec.formCvt at legal
    simp only [decide_eq_true_iff] at legal
    obtain ⟨-, width, group, -⟩ := legal
    have room : s.h.shape.vl.toNat * Spec.cvtBits dst src ≤ 4096 :=
      (Nat.mul_le_mul_left _ ((le_max_right _ _).trans width.le)).trans shape.2.2
    refine wrote_fpPut shape ⟨cvtBits_pos _ _, room, group, fun j e => inTile_of_activeAt⟩ (active_eq _) (fun j e _ => ?_) fun j e _ => ?_
    · exact congrArg (fun r : Nat × Flags => r.1 % 2 ^ Spec.cvtBits dst src) (cvtElem_eq (elemOf_lt ..))
    · exact congrArg Prod.snd (cvtElem_eq (elemOf_lt ..))

theorem blockFmt_eq (x : BitVec 2) : blockFmt x = Spec.narrowFmt x := by
  revert x
  decide

theorem vbsdq_runs {k fmt : BitVec 2} (shape : Spec.ShapeOk s.h.shape) :
    Runs (execVbsdq vd a d k c fmt s) s (Spec.formDq s vd a d k c fmt).legal (Spec.formDq s vd a d k c fmt).claim
      (Wrote s (Spec.formDq s vd a d k c fmt)) := by
  refine ⟨_, _, by unfold execVbsdq checkBlock; rw [blockFmt_eq]; rfl, ?_, ?_, fun legal => ?_⟩
  · simp
  · unfold Spec.formDq
    rw [decide_eq_true_iff]
    simp [need_eq_none, and_assoc, ← sew_eq]
  · unfold Spec.formDq at legal
    simp only [decide_eq_true_iff] at legal
    obtain ⟨-, width, group, -⟩ := legal
    have room : s.h.shape.vl.toNat * 32 ≤ 4096 := width ▸ shape.2.2
    exact wrote_fpPut shape ⟨(by decide : 0 < 32), room, group, fun j e => inTile_of_activeAt⟩ (active_eq _) (fun _ _ _ => rfl) fun _ _ _ => rfl

end

end Sys2Proof.Machine

/-! # The values of the integer forms (O16) -/

namespace Sys2Proof.Machine

section

variable {w a b : Nat}

/-! ## Signs and bounds -/

theorem signedOf_emod (hw : 0 < w) (a : Nat) : signedOf w a % 2 ^ w = (a : Int) % 2 ^ w := by
  rw [signedOf_eq_bmod hw]
  exact sgn_emod w a

theorem modOf_emod (w : Nat) (i : Int) : (Spec.modOf w i : Int) % 2 ^ w = i % 2 ^ w := by
  unfold Spec.modOf
  rw [Int.toNat_of_nonneg (Int.emod_nonneg _ (by positivity)), Int.emod_emod]

theorem wrapTo_emod (w : Nat) (i : Int) : (wrapTo w i : Int) % 2 ^ w = i % 2 ^ w := by
  rw [wrapTo_eq, modOf_emod]

theorem clampS_emod (w : Nat) (v : Int) : (clampS w v : Int) % 2 ^ w = Spec.clampTo (Spec.sLo w) (Spec.sHi w) v % 2 ^ w := by
  have one : (1 : Int) ≤ 2 ^ (w - 1) := one_le_pow₀ (by decide)
  unfold clampS Spec.clampTo Spec.sLo Spec.sHi
  rw [wrapTo_emod]
  congr 1
  generalize (2 : Int) ^ (w - 1) = n at one ⊢
  split
  · omega
  · split <;> omega

theorem clampU_eq (w : Nat) (v : Int) : (clampU w v : Int) = Spec.clampTo 0 (Spec.uHi w) v := by
  have one : (1 : Nat) ≤ 2 ^ w := Nat.one_le_two_pow
  unfold clampU Spec.clampTo Spec.uHi
  have cast : ((2 : Int) ^ w) = ((2 ^ w : Nat) : Int) := by push_cast; rfl
  rw [cast]
  generalize 2 ^ w = n at one ⊢
  split
  · omega
  · split <;> omega

/-! ## Arithmetic -/

theorem sub_emod (hb : b ≤ 2 ^ w) : ((a + (2 ^ w - b) : Nat) : Int) % 2 ^ w = ((a : Int) - b) % 2 ^ w := by
  have e : ((a + (2 ^ w - b) : Nat) : Int) = (a : Int) - b + 2 ^ w := by
    rw [Nat.cast_add, Nat.cast_sub hb]
    push_cast
    ring
  rw [e, Int.add_emod_right]

theorem minSigned_emod (hw : 0 < w) :
    ((if signedOf w a ≤ signedOf w b then a else b : Nat) : Int) % 2 ^ w = min (Spec.sgn w a) (Spec.sgn w b) % 2 ^ w := by
  rw [signedOf_eq_bmod hw, signedOf_eq_bmod hw]
  change ((if Spec.sgn w a ≤ Spec.sgn w b then a else b : Nat) : Int) % 2 ^ w = _
  split
  · next le => rw [min_eq_left le, sgn_emod]
  · next gt => rw [min_eq_right (not_le.mp gt).le, sgn_emod]

theorem maxSigned_emod (hw : 0 < w) :
    ((if signedOf w a ≤ signedOf w b then b else a : Nat) : Int) % 2 ^ w = max (Spec.sgn w a) (Spec.sgn w b) % 2 ^ w := by
  rw [signedOf_eq_bmod hw, signedOf_eq_bmod hw]
  change ((if Spec.sgn w a ≤ Spec.sgn w b then b else a : Nat) : Int) % 2 ^ w = _
  split
  · next le => rw [max_eq_right le, sgn_emod]
  · next gt => rw [max_eq_left (not_le.mp gt).le, sgn_emod]

theorem mulhSigned_emod (hw : 0 < w) :
    (vmulHigh true w a b : Int) % 2 ^ w = (Spec.sgn w a * Spec.sgn w b / 2 ^ w) % 2 ^ w := by
  unfold vmulHigh
  rw [wrapTo_emod, extOf_true hw, extOf_true hw]

theorem mulhUnsigned_emod (ha : a < 2 ^ w) (hb : b < 2 ^ w) : (vmulHigh false w a b : Int) % 2 ^ w = ((a : Int) * b / 2 ^ w) % 2 ^ w := by
  unfold vmulHigh
  rw [wrapTo_emod, extOf_false ha, extOf_false hb]

theorem neg_one_emod (w : Nat) : ((2 ^ w - 1 : Nat) : Int) % 2 ^ w = -1 % 2 ^ w := by
  have e : ((2 ^ w - 1 : Nat) : Int) = -1 + 2 ^ w := by
    rw [Nat.cast_sub Nat.one_le_two_pow]
    push_cast
    ring
  rw [e, Int.add_emod_right]

theorem divSigned_emod (hw : 0 < w) (hb : b < 2 ^ w) :
    (vquot true w a b : Int) % 2 ^ w = (if b = 0 then -1 else (Spec.sgn w a).tdiv (Spec.sgn w b)) % 2 ^ w := by
  unfold vquot
  rw [Nat.mod_eq_of_lt hb, extOf_true hw, extOf_true hw]
  split
  · exact neg_one_emod w
  · exact wrapTo_emod ..

theorem divUnsigned_emod (ha : a < 2 ^ w) (hb : b < 2 ^ w) :
    (vquot false w a b : Int) % 2 ^ w = (if b = 0 then -1 else ((a / b : Nat) : Int)) % 2 ^ w := by
  unfold vquot
  rw [Nat.mod_eq_of_lt hb, extOf_false ha, extOf_false hb]
  split
  · exact neg_one_emod w
  · rw [wrapTo_emod, Int.ofNat_tdiv]

theorem remSigned_emod (hw : 0 < w) (hb : b < 2 ^ w) :
    (vremd true w a b : Int) % 2 ^ w = (if b = 0 then (a : Int) else Spec.sgn w a - Spec.sgn w b * (Spec.sgn w a).tdiv (Spec.sgn w b)) % 2 ^ w := by
  unfold vremd
  rw [Nat.mod_eq_of_lt hb, extOf_true hw, extOf_true hw]
  split
  · rfl
  · rw [wrapTo_emod, Int.tmod_def]

theorem remUnsigned_emod (ha : a < 2 ^ w) (hb : b < 2 ^ w) :
    (vremd false w a b : Int) % 2 ^ w = (if b = 0 then (a : Int) else ((a % b : Nat) : Int)) % 2 ^ w := by
  unfold vremd
  rw [Nat.mod_eq_of_lt hb, extOf_false ha, extOf_false hb]
  split
  · rfl
  · rw [wrapTo_emod, Int.ofNat_tmod]

/-! ## Bits -/

theorem andNot_add_and (x y : BitVec w) : (x &&& ~~~y).toNat + (x &&& y).toNat = x.toNat := by
  have apart : (x &&& ~~~y) &&& (x &&& y) = 0#w := by
    ext i hi
    cases x[i] <;> cases y[i] <;> simp_all
  rw [← BitVec.toNat_add_of_and_eq_zero apart, BitVec.add_eq_or_of_and_eq_zero _ _ apart]
  congr 1
  ext i hi
  simp only [BitVec.getElem_or, BitVec.getElem_and, BitVec.getElem_not]
  cases x[i] <;> cases y[i] <;> rfl

theorem vandn_eq (ha : a < 2 ^ w) (hb : b < 2 ^ w) : ((a &&& (2 ^ w - 1 - b) : Nat) : Int) = (a : Int) - ((a &&& b : Nat) : Int) := by
  have sum := andNot_add_and (BitVec.ofNat w a) (BitVec.ofNat w b)
  rw [BitVec.toNat_and, BitVec.toNat_and, BitVec.toNat_not, BitVec.toNat_ofNat, BitVec.toNat_ofNat, Nat.mod_eq_of_lt ha, Nat.mod_eq_of_lt hb] at sum
  omega

theorem vror_emod (hw : 0 < w) : ((a / 2 ^ (b % w) + a * 2 ^ (w - b % w) : Nat) : Int) % 2 ^ w
    = ((a / 2 ^ (b % w) + a % 2 ^ (b % w) * 2 ^ (w - b % w) : Nat) : Int) % 2 ^ w := by
  have sh : b % w < w := Nat.mod_lt _ hw
  generalize b % w = n at sh ⊢
  have split : 2 ^ w = 2 ^ n * 2 ^ (w - n) := by rw [← Nat.pow_add]; congr 1; omega
  have high : a * 2 ^ (w - n) % 2 ^ w = a % 2 ^ n * 2 ^ (w - n) % 2 ^ w := by
    rw [split, Nat.mul_mod_mul_right, Nat.mul_mod_mul_right, Nat.mod_mod]
  have nat : (a / 2 ^ n + a * 2 ^ (w - n)) % 2 ^ w = (a / 2 ^ n + a % 2 ^ n * 2 ^ (w - n)) % 2 ^ w := by
    rw [Nat.add_mod, high, ← Nat.add_mod]
  exact_mod_cast congrArg (Nat.cast (R := Int)) nat

theorem vsra_emod (hw : 0 < w) : (wrapTo w (signedOf w a / 2 ^ (b % w)) : Int) % 2 ^ w = (Spec.sgn w a / 2 ^ (b % w)) % 2 ^ w := by
  rw [wrapTo_emod, signedOf_eq_bmod hw]
  rfl

end

end Sys2Proof.Machine

/-! # Vector element results (O16) -/

namespace Sys2Proof.Machine

/-! ## Values that rows name apart -/

section

variable {w p q : Nat}

theorem sadd_emod (hw : 0 < w) : (clampS w (signedOf w p + signedOf w q) : Int) % 2 ^ w
    = Spec.clampTo (Spec.sLo w) (Spec.sHi w) (Spec.sgn w p + Spec.sgn w q) % 2 ^ w := by
  rw [clampS_emod, signedOf_eq_bmod hw, signedOf_eq_bmod hw]
  rfl

theorem ssub_emod (hw : 0 < w) : (clampS w (signedOf w p - signedOf w q) : Int) % 2 ^ w
    = Spec.clampTo (Spec.sLo w) (Spec.sHi w) (Spec.sgn w p - Spec.sgn w q) % 2 ^ w := by
  rw [clampS_emod, signedOf_eq_bmod hw, signedOf_eq_bmod hw]
  rfl

theorem nsat_emod (hw : 0 < w) :
    (clampS w (signedOf (2 * w) p) : Int) % 2 ^ w = Spec.clampTo (Spec.sLo w) (Spec.sHi w) (Spec.sgn (2 * w) p) % 2 ^ w := by
  rw [clampS_emod, signedOf_eq_bmod (by omega)]
  rfl

theorem nclampz_emod (hw : 0 < w) :
    (clampU w (signedOf (2 * w) p) : Int) % 2 ^ w = Spec.clampTo 0 (Spec.uHi w) (Spec.sgn (2 * w) p) % 2 ^ w := by
  rw [clampU_eq, signedOf_eq_bmod (by omega)]
  rfl

theorem saddz_emod : (clampU w (p + q : Nat) : Int) % 2 ^ w = Spec.clampTo 0 (Spec.uHi w) ((p : Int) + q) % 2 ^ w := by
  rw [clampU_eq, Nat.cast_add]

theorem sll_emod (n : Nat) : ((p * 2 ^ n : Nat) : Int) % 2 ^ w = (p : Int) * 2 ^ n % 2 ^ w := by
  push_cast
  rfl

theorem dot4_eq (signed : Bool) {ext : Nat → Int} (value : ∀ n, n < 256 → extOf signed 8 n = ext n) (p q : Nat) :
    dot4 signed p q = Spec.dotBytes ext p q := by
  have byte (n k : Nat) : extOf signed 8 (bitsOf n (8 * k) 8) = ext (n / 256 ^ k % 256) := by
    have e : bitsOf n (8 * k) 8 = n / 256 ^ k % 256 := by
      unfold bitsOf
      rw [Nat.pow_mul]
      rfl
    rw [e]
    exact value _ (Nat.mod_lt _ (by decide))
  unfold dot4 Spec.dotBytes
  simp only [byte]

/-- A slide up keeps the elements below its distance (R136). -/
theorem slide_isSome (x e v : Nat) : (if x ≤ e then some v else none).isSome = !decide (e < x) := by
  by_cases le : x ≤ e
  · simp [le]
  · simp [le, not_le.mp le]

theorem slide_value {x e v : Nat} (stays : decide (e < x) = false) : (if x ≤ e then some v else none).getD 0 = v := by
  rw [if_pos (not_lt.mp (of_decide_eq_false stays))]
  rfl

theorem b2n_decide_mod_two (n : Nat) : b2n (decide (n % 2 = 1)) = n % 2 := by
  obtain e | e := Nat.mod_two_eq_zero_or_one n <;> rw [e] <;> rfl

theorem b2n_not_decide_mod_two (n : Nat) : b2n (!decide (n % 2 = 1)) = (n + 1) % 2 := by
  obtain e | e := Nat.mod_two_eq_zero_or_one n <;> rw [Nat.add_mod, e] <;> rfl

theorem b2n_xor_decide_mod_two (n m : Nat) : b2n (decide (n % 2 = 1) != decide (m % 2 = 1)) = (n + m) % 2 := by
  obtain e | e := Nat.mod_two_eq_zero_or_one n <;> obtain e' | e' := Nat.mod_two_eq_zero_or_one m <;> rw [Nat.add_mod, e, e'] <;> rfl

end

/-! ## The element forms -/

section

variable {s : State}

/-- Every instruction of an element form is a sweep of its row's values (R125 to R136). -/
theorem elemForm_runs {i : Instr} {f : Spec.ElemForm} (shape : Spec.ShapeOk s.h.shape) (h : Spec.elemForm i s = some f) :
    Runs (exec i s) s f.legal f.claim (Wrote s f) := by
  unfold Spec.elemForm at h
  dsimp only at h
  split at h <;> cases h <;> simp only [exec]
  · refine intSweep_runs shape ?_
    exact fun w p q hw hp hq => congrArg (· % 2 ^ w) (Nat.cast_add p q)
  · refine intSweep_runs shape ?_
    exact fun w p q hw hp hq => sub_emod hq.le
  · refine intSweep_runs shape ?_
    exact fun w p q hw hp hq => sub_emod hp.le
  · refine intSweep_runs shape ?_
    exact fun w p q hw hp hq => minSigned_emod hw
  · refine intSweep_runs shape ?_
    exact fun w p q hw hp hq => rfl
  · refine intSweep_runs shape ?_
    exact fun w p q hw hp hq => maxSigned_emod hw
  · refine intSweep_runs shape ?_
    exact fun w p q hw hp hq => rfl
  · refine intSweep_runs shape ?_
    exact fun w p q hw hp hq => sadd_emod hw
  · refine intSweep_runs shape ?_
    exact fun w p q hw hp hq => saddz_emod
  · refine intSweep_runs shape ?_
    exact fun w p q hw hp hq => ssub_emod hw
  · refine intSweep_runs shape ?_
    exact fun w p q hw hp hq => congrArg (· % 2 ^ w) (clampU_eq ..)
  · refine intSweep_runs shape ?_
    exact fun w p q hw hp hq => congrArg (· % 2 ^ w) (Nat.cast_mul p q)
  · refine intSweep_runs shape ?_
    exact fun w p q hw hp hq => mulhSigned_emod hw
  · refine intSweep_runs shape ?_
    exact fun w p q hw hp hq => mulhUnsigned_emod hp hq
  · refine intSweep_runs shape ?_
    exact fun w p q hw hp hq => divSigned_emod hw hq
  · refine intSweep_runs shape ?_
    exact fun w p q hw hp hq => divUnsigned_emod hp hq
  · refine intSweep_runs shape ?_
    exact fun w p q hw hp hq => remSigned_emod hw hq
  · refine intSweep_runs shape ?_
    exact fun w p q hw hp hq => remUnsigned_emod hp hq
  · refine intSweep_runs shape ?_
    exact fun w p q hw hp hq => rfl
  · refine intSweep_runs shape ?_
    exact fun w p q hw hp hq => rfl
  · refine intSweep_runs shape ?_
    exact fun w p q hw hp hq => rfl
  · refine intSweep_runs shape ?_
    exact fun w p q hw hp hq => congrArg (· % 2 ^ w) (vandn_eq hp hq)
  · refine intSweep_runs shape ?_
    exact fun w p q hw hp hq => sll_emod _
  · refine intSweep_runs shape ?_
    exact fun w p q hw hp hq => rfl
  · refine intSweep_runs shape ?_
    exact fun w p q hw hp hq => vsra_emod hw
  · refine intSweep_runs shape ?_
    exact fun w p q hw hp hq => vror_emod hw
  · refine wideSweep_runs shape ?_
    exact fun w p q hw hp hq => congrArg₂ (fun x y => (x + y) % 2 ^ (2 * w)) (extOf_true hw p) (extOf_true hw q)
  · refine wideSweep_runs shape ?_
    exact fun w p q hw hp hq => congrArg₂ (fun x y => (x + y) % 2 ^ (2 * w)) (extOf_false hp) (extOf_false hq)
  · refine wideSweep_runs shape ?_
    exact fun w p q hw hp hq => congrArg₂ (fun x y => (x - y) % 2 ^ (2 * w)) (extOf_true hw p) (extOf_true hw q)
  · refine wideSweep_runs shape ?_
    exact fun w p q hw hp hq => congrArg₂ (fun x y => (x - y) % 2 ^ (2 * w)) (extOf_false hp) (extOf_false hq)
  · refine wideSweep_runs shape ?_
    exact fun w p q hw hp hq => congrArg₂ (fun x y => (x * y) % 2 ^ (2 * w)) (extOf_true hw p) (extOf_true hw q)
  · refine wideSweep_runs shape ?_
    exact fun w p q hw hp hq => congrArg₂ (fun x y => (x * y) % 2 ^ (2 * w)) (extOf_false hp) (extOf_false hq)
  · refine wideSweep_runs shape ?_
    exact fun w p q hw hp hq => congrArg (· % 2 ^ (2 * w)) (extOf_true hw p)
  · refine wideSweep_runs shape ?_
    exact fun w p q hw hp hq => congrArg (· % 2 ^ (2 * w)) (extOf_false hp)
  · refine narrowSweep_runs shape ?_
    exact fun w p hw hp => rfl
  · refine narrowSweep_runs shape ?_
    exact fun w p hw hp => nsat_emod hw
  · refine narrowSweep_runs shape ?_
    exact fun w p hw hp => congrArg (· % 2 ^ w) (clampU_eq ..)
  · refine narrowSweep_runs shape ?_
    exact fun w p hw hp => nclampz_emod hw
  · exact genSweep_runs shape none
  · exact genSweep_runs shape (some _)
  · exact genSweep_runs shape none
  · exact genSweep_runs shape none
  · exact genSweep_runs shape none
  · exact macSweep_runs shape (by simp) (by simp) fun _ p q r => by push_cast; rfl
  · exact macSweep_runs shape (by simp) (by simp) fun _ p q r => by push_cast; rfl
  · exact macSweep_runs shape (by simp) need_eq_none fun _ p q r => by rw [dot4_eq true fun n _ => extOf_true (by decide) n]
  · exact macSweep_runs shape (by simp) need_eq_none fun _ p q r => by rw [dot4_eq false fun n hn => extOf_false hn]
  · refine wmacSweep_runs shape ?_
    exact fun p _ => extOf_true (sewOf_pos s) p
  · refine wmacSweep_runs shape ?_
    exact fun p hp => extOf_false hp
  · exact vmerge_runs shape
  · exact permSweep_runs shape (by simp) (by simp) (fun j e => slide_isSome ..) fun j e stays => slide_value stays
  · exact permSweep_runs shape (by simp) (by simp) (fun _ _ => rfl) fun _ _ _ => rfl
  · exact permSweep_runs shape (by simp) (by simp) (fun _ _ => rfl) fun _ _ _ => rfl
  · exact permSweep_runs shape (by simp) need_eq_none (fun _ _ => rfl) fun _ _ _ => rfl
  · refine fpSweep_runs shape ?_
    exact fun _ _ _ => rfl
  · refine fpSweep_runs shape ?_
    exact fun _ _ _ => rfl
  · refine fpSweep_runs shape ?_
    exact fun _ _ _ => rfl
  · refine fpSweep_runs shape ?_
    exact fun _ _ _ => rfl
  · refine fpSweep_runs shape ?_
    exact fun _ _ _ => rfl
  · refine fpSweep_runs shape ?_
    exact fun _ _ _ => rfl
  · refine fpSweep_runs shape ?_
    exact fun _ _ _ => rfl
  · refine fpSweep_runs shape ?_
    exact fun _ _ _ => rfl
  · refine fpSweep_runs shape ?_
    exact fun _ _ _ => rfl
  · refine fpSweep_runs shape ?_
    exact fun f p q => congrArg (fun n => (p % 2 ^ (fpWidth f - 1) + n * 2 ^ (fpWidth f - 1), 0)) (b2n_decide_mod_two _)
  · refine fpSweep_runs shape ?_
    exact fun f p q => congrArg (fun n => (p % 2 ^ (fpWidth f - 1) + n * 2 ^ (fpWidth f - 1), 0)) (b2n_not_decide_mod_two _)
  · refine fpSweep_runs shape ?_
    exact fun f p q => congrArg (fun n => (p % 2 ^ (fpWidth f - 1) + n * 2 ^ (fpWidth f - 1), 0)) (b2n_xor_decide_mod_two ..)
  · refine fpSweep_runs shape ?_
    exact fun _ _ _ => rfl
  · exact fmaSweep_runs shape
  · exact fmaSweep_runs shape
  · exact fmaSweep_runs shape
  · exact fmaSweep_runs shape
  · exact vcvt_runs shape
  · exact vbsdq_runs shape

end

/-- A vector instruction with legal operands that joins its convoy has its effect. -/
theorem Runs.done {s : State} {o : Out} {legal : Bool} {c : Claim} {Q : State → Prop} (runs : Runs o s legal c Q) (ok : legal = true)
    (hart : s.lane = none) (joins : Spec.Joins s c) :
    ∃ u, Q u ∧ ∀ g, Becomes s u g → g.pc = s.h.pc → g.lanes = s.h.lanes → g.checker = s.h.checker → g.trap = s.h.trap →
      ∃ t, o = .next t ∧ Spec.VectorDone s t c g := by
  obtain ⟨l, eff, answer, -, passes, effect⟩ := runs
  refine ⟨eff s, effect ok, fun g b pc lanes checker trap => ?_⟩
  rw [answer]
  exact vecOp_done (passes.mpr ok) hart joins b pc lanes checker trap

/-- Settles O16: each instruction is a sweep, whose effect writes its elements one by one and sets their flags. -/
theorem vectorElementResults : Obligations.VectorElementResults := by
  intro i s f hart shape form legal joins
  obtain ⟨u, ⟨v, b, written⟩, done⟩ := (elemForm_runs shape form).done legal hart joins
  obtain ⟨t, answer, after⟩ := done _ b rfl rfl rfl rfl
  exact ⟨t, v, answer, after, written⟩

end Sys2Proof.Machine

/-! # Vector traps (O18) -/

namespace Sys2Proof.Machine

/-! ## The mask forms -/

section

variable {s : State} {md : BitVec 3} {a b : BitVec 5} {k : BitVec 3} {c sc : Bool} {t : BitVec 2}

theorem cmpSweep_runs {F : Nat → Nat → Nat → Bool} {r : Nat → Nat → Bool × Flags} :
    Runs (cmpSweep F md a b k c sc t s) s (Spec.formCmp s (decide (Spec.WidthIs s t)) md a b k c sc r).legal
      (Spec.formCmp s (decide (Spec.WidthIs s t)) md a b k c sc r).claim fun _ => True := by
  refine ⟨_, _, by unfold cmpSweep; rfl, ?_, ?_, fun _ => trivial⟩
  · simp
  · unfold Spec.formCmp
    rw [decide_eq_true_iff, decide_eq_true_iff]
    simp

theorem fcmpSweep_runs {o : FCmp} {r : Nat → Nat → Bool × Flags} :
    Runs (fcmpSweep o md a b k c sc t s) s (Spec.formCmp s (decide (fpWidth (Spec.codeFmt t) = Spec.sewOf s)) md a b k c sc r).legal
      (Spec.formCmp s (decide (fpWidth (Spec.codeFmt t) = Spec.sewOf s)) md a b k c sc r).claim fun _ => True := by
  refine ⟨_, _, by unfold fcmpSweep; rw [fmtCode_eq]; rfl, ?_, ?_, fun _ => trivial⟩
  · simp
  · unfold Spec.formCmp
    rw [decide_eq_true_iff, decide_eq_true_iff]
    simp

theorem maskSweep_runs {f : Bool → Bool → Bool} {ma mb : BitVec 3} {rm : List Nat} {val : Nat → Nat → Bool} :
    Runs (maskSweep f md ma mb rm c s) s (Spec.formLogic s md rm c val).legal (Spec.formLogic s md rm c val).claim fun _ => True := by
  refine ⟨_, _, by unfold maskSweep; rfl, ?_, ?_, fun _ => trivial⟩
  · simp
  · unfold Spec.formLogic
    rw [decide_eq_true_iff]
    simp

theorem maskForm_runs {i : Instr} {f : Spec.MaskForm} (h : Spec.maskForm i s = some f) :
    Runs (exec i s) s f.legal f.claim fun _ => True := by
  unfold Spec.maskForm at h
  dsimp only at h
  split at h <;> cases h <;> simp only [exec]
  iterate 8 exact cmpSweep_runs
  iterate 6 exact fcmpSweep_runs
  iterate 7 exact maskSweep_runs

end

/-! ## Refusals -/

section

variable {s : State} {o : Out} {legal : Bool} {c : Claim} {Q : State → Prop}

/-- A refused instruction traps at its own address, with the refusal remembered (R249). -/
theorem refuseConvoy_trapped (s : State) (addr : Word) :
    ∃ t, refuseConvoy s addr = .next t ∧ Trapped (s.setH { s.h with refused :=
      { priv := s.priv, addr := s.pc, members := s.h.convoy } :: s.h.refused.filter fun q => decide (q.priv ≠ s.priv) })
      t 0x042 addr s.pc 0 := by
  let g := { s.h with refused :=
    { priv := s.priv, addr := s.pc, members := s.h.convoy } :: s.h.refused.filter fun q => decide (q.priv ≠ s.priv) }
  have pc : (s.setH g).pc = s.pc := (becomes_setH s g).pc rfl rfl
  have taken := raise_trapped (s.setH g) (Trap.of 0x042 addr)
  rw [pc] at taken
  exact taken

theorem Runs.illegal (runs : Runs o s legal c Q) (not : legal = false) :
    ∃ tval t, o = .next t ∧ Trapped s t 0x040 tval s.pc 0 := by
  obtain ⟨l, eff, answer, operands, passes, -⟩ := runs
  rw [answer]
  exact vecOp_illegal operands fun none => by simp [passes.mp none] at not

/-- A convoy refuses an instruction at its first member in the way, and remembers it (R37, R249). -/
theorem Runs.refused (runs : Runs o s legal c Q) (ok : legal = true) {m : Member} {before after : List Member}
    (split : Spec.convoyBefore s c = before ++ m :: after) (free : ∀ q ∈ before, ¬ Spec.Clash q c) (clash : Spec.Clash m c) :
    ∃ t, o = .next t ∧ Trapped (s.setH { s.h with refused :=
      { priv := s.priv, addr := s.pc, members := Spec.convoyBefore s c } :: s.h.refused.filter fun q => decide (q.priv ≠ s.priv) })
      t 0x042 m.addr s.pc 0 := by
  obtain ⟨l, eff, answer, -, passes, -⟩ := runs
  have members : Spec.convoyBefore s c = s.h.convoy := by
    unfold Spec.convoyBefore at split ⊢
    split at split
    · simp at split
    · next starts => exact if_neg starts
  have refuses : o = refuseConvoy s m.addr := by
    rw [answer, passes.mpr ok]
    simp only [vecOp, joinConvoy_of_clash split free clash]
  rw [refuses, members]
  exact refuseConvoy_trapped s m.addr

end

/-- Settles O18: an illegal operand fails a check before the convoy is met, and a clash refuses the instruction at the first member in its way. -/
theorem vectorTraps : Obligations.VectorTraps := by
  refine ⟨fun i s hart shape illegal => ?_, fun i s c m before after hart shape form split free clash => ?_⟩
  · obtain ⟨f, form, not⟩ | ⟨f, form, not⟩ := illegal
    · exact (elemForm_runs shape form).illegal not
    · exact (maskForm_runs form).illegal not
  · obtain ⟨f, form, ok, rfl⟩ | ⟨f, form, ok, rfl⟩ := form
    · exact (elemForm_runs shape form).refused ok split free clash
    · exact (maskForm_runs form).refused ok split free clash

end Sys2Proof.Machine

/-! # System registers (O20) -/

namespace Sys2Proof.Machine

/-! ## Reading (R41 to R49) -/

section

variable (s : State) (n : BitVec 12)

theorem status_word_eq (t : Status) :
    t.word = (BitVec.ofBool t.lthr ++ BitVec.ofBool t.sigen ++ BitVec.ofBool t.mmstrong ++ (0 : BitVec 3) ++ t.spp ++ t.mpp ++ t.priv).setWidth 64 := by
  obtain ⟨lthr, sigen, mmstrong, spp, mpp, priv⟩ := t
  revert lthr sigen mmstrong spp mpp priv
  decide

theorem sysReg_eq_sysValue : sysReg s n = Spec.sysValue s n.toNat := by
  unfold sysReg
  dsimp only
  split
  case h_31 =>
    simp only [imp_false] at *
    have noChannel : ¬ (0x103 ≤ n.toNat ∧ n.toNat ≤ 0x106) := by omega
    simp only [Spec.sysValue, if_false, *]
  case h_18 e => rw [e, status_word_eq]; rfl
  all_goals next e => rw [e]; rfl

theorem levelOk_eq_true : levelOk s.priv n = true ↔ Spec.levelAllows s n.toNat := decide_eq_true_iff

theorem readOnly_eq_true (assigned : (sysReg s n).isSome = true) :
    readOnly n = true ↔ n.toNat ≤ 2 ∨ 0x100 ≤ n.toNat ∧ n.toNat ≤ 0x106 := by
  have bound : 0x100 ≤ n.toNat → n.toNat < 0x200 → n.toNat ≤ 0x106 := by
    intro low high
    rw [sysReg_eq_sysValue] at assigned
    by_contra above
    have none : Spec.sysValue s n.toNat = none := by
      unfold Spec.sysValue
      dsimp only
      repeat rw [if_neg (by omega)]
    rw [none] at assigned
    exact absurd assigned (by decide)
  simp only [readOnly, Bool.or_eq_true, Bool.and_eq_true, decide_eq_true_iff]
  omega

/-- The registers that `sput` may write at the level of the hart (R41, R231). -/
theorem writable_iff : Spec.writable s n.toNat ∧ Spec.levelAllows s n.toNat ↔
    ((sysReg s n).isNone || !levelOk s.priv n || readOnly n) = false := by
  rw [← levelOk_eq_true, Spec.writable, ← sysReg_eq_sysValue]
  cases level : levelOk s.priv n
  · simp
  · cases assigned : sysReg s n
    · simp
    · have fixed := readOnly_eq_true s n (by rw [assigned]; rfl)
      simp [Bool.eq_false_iff, fixed]

end

theorem systemRegisterRead : Claims.SystemRegisterRead := by
  intro s rd n hart
  refine ⟨fun v value level => ?_, fun refused => ?_⟩
  · have answer : exec (.sget rd n) s = writeRd rd v s := by
      show execSget rd n s = _
      unfold execSget
      rw [sysReg_eq_sysValue, value, (levelOk_eq_true s n).mpr level]
      rfl
    rw [answer]
    exact writeRd_done (becomes_orFlags_zero s) (.inl hart)
  · have answer : exec (.sget rd n) s = raise s (Trap.operand (n.setWidth 64)) := by
      show execSget rd n s = _
      unfold execSget
      split
      · next value level =>
        rw [sysReg_eq_sysValue] at value
        exact absurd ((levelOk_eq_true s n).mp level) (refused.resolve_left (by simp [value]))
      · rfl
    unfold Traps
    rw [answer]
    exact raise_trapped s (Trap.operand (n.setWidth 64))

/-! ## Writing fields (R42 to R49, R231) -/

section

/-- A mask made of two parts cuts a number into two. -/
theorem and_twoParts (x a b k : Nat) (low : b < 2 ^ k) : x &&& (a * 2 ^ k + b) = (x / 2 ^ k &&& a) * 2 ^ k + (x % 2 ^ k &&& b) := by
  apply Nat.eq_of_testBit_eq
  intro i
  have mask := Nat.testBit_two_pow_mul_add a low i
  have value := Nat.testBit_two_pow_mul_add (x / 2 ^ k &&& a) (Nat.and_lt_two_pow (x % 2 ^ k) low) i
  rw [Nat.mul_comm (_ &&& _), value, Nat.testBit_and, Nat.mul_comm a, mask]
  by_cases below : i < k
  · simp [below, Nat.testBit_mod_two_pow]
  · simp [below, Nat.testBit_div_two_pow, Nat.sub_add_cancel (not_lt.mp below)]

theorem and_align_eq (v : Word) : v &&& ~~~3 = Spec.wordAligned v := by
  have mask : (~~~3 : Word).toNat = (2 ^ 62 - 1) * 2 ^ 2 + 0 := rfl
  apply BitVec.eq_of_toNat_eq
  rw [BitVec.toNat_and, mask, and_twoParts _ _ _ _ (by decide), Nat.and_two_pow_sub_one_eq_mod, Spec.wordAligned, BitVec.toNat_ofNat]
  have := v.isLt
  simp only [Nat.and_zero]
  omega

theorem posPut_eq (v : Word) (valid : Bool) : posPut v valid = Spec.positionPut v valid := by
  have position : v.toNat % 2 ^ 63 &&& 0x707FF = v.toNat / 2 ^ 16 % 8 * 2 ^ 16 + v.toNat % 2 ^ 11 := by
    have mask : 0x707FF = (2 ^ 3 - 1) * 2 ^ 16 + (2 ^ 11 - 1) := rfl
    rw [mask, and_twoParts _ _ _ _ (by decide), Nat.and_two_pow_sub_one_eq_mod, Nat.and_two_pow_sub_one_eq_mod]
    omega
  have top : v.toNat / 2 ^ 63 &&& 1 = if 2 ^ 63 ≤ v.toNat then 1 else 0 := by
    have := v.isLt
    have one : (1 : Nat) = 2 ^ 1 - 1 := rfl
    rw [one, Nat.and_two_pow_sub_one_eq_mod]
    split <;> omega
  apply BitVec.eq_of_toNat_eq
  unfold posPut Spec.positionPut Spec.positionPut.row Spec.positionPut.col
  cases valid
  · have mask : (0x707FF : Word).toNat = 0 * 2 ^ 63 + 0x707FF := rfl
    rw [if_neg (by decide), BitVec.toNat_and, mask, and_twoParts _ _ _ _ (by decide), position, BitVec.toNat_ofNat]
    simp
    omega
  · have mask : (0x80000000000707FF : Word).toNat = 1 * 2 ^ 63 + 0x707FF := rfl
    rw [if_pos rfl, BitVec.toNat_and, mask, and_twoParts _ _ _ _ (by decide), position, top, BitVec.toNat_ofNat]
    simp only [true_and]
    split <;> omega

/-- A two-bit field that takes every value but 2, and 3 only where it may. -/
theorem ofNat_field (x : Nat) (field : x < 4) (may : Bool) (old : BitVec 2) :
    (if BitVec.ofNat 2 x = 2 || (!may && BitVec.ofNat 2 x = 3) then old else BitVec.ofNat 2 x)
      = if x ≤ 1 ∨ (x = 3 ∧ may = true) then BitVec.ofNat 2 x else old := by
  interval_cases x <;> cases may <;> rfl

theorem ofNat_ne_two (x : Nat) (field : x < 4) : BitVec.ofNat 2 x ≠ 2 ↔ x ≠ 2 := by
  interval_cases x <;> decide

theorem status_put_eq (t : Status) (v : Word) (m : Bool) : t.put v m = Spec.statusPut t v m := by
  have bit (i : Nat) : v.getLsbD i = decide (v.toNat / 2 ^ i % 2 = 1) := Nat.testBit_eq_decide_div_mod_eq
  have field (k : Nat) : v.toNat / k % 4 < 4 := Nat.mod_lt _ (by decide)
  have spp := ofNat_field _ (field (2 ^ 4)) m t.spp
  have mpp := ofNat_ne_two _ (field (2 ^ 2))
  unfold Status.put Spec.statusPut bitsOf
  simp only [bit, Nat.reducePow, Bool.and_eq_true, decide_eq_true_eq] at spp mpp ⊢
  rw [spp]
  simp only [mpp]

theorem putReg_eq_hartPut (h : Hart) (m : Bool) (n : Nat) (v : Word) : h.putReg n v m = Spec.hartPut h m n v := by
  unfold Hart.putReg
  split
  case h_7 =>
    unfold TrapRegs.put
    split
    case h_14 =>
      simp only [imp_false] at *
      simp only [Spec.hartPut, if_false, *]
    case h_4 | h_7 | h_10 | h_12 => rfl
    case h_5 =>
      cases m
      · rfl
      · rw [posPut_eq]; rfl
    all_goals
      simp only [status_put_eq, and_align_eq, ← BitVec.ofNat_toNat]
      rfl
  all_goals
    simp only [posPut_eq, ← BitVec.ofNat_toNat]
    rfl

end

/-! ## Leaving channels of the weir (R203, R204) -/

/-- From `s` to `t` cores have only come to owe arrivals on channels that completed (R203). -/
def OwesMore (s t : State) : Prop :=
  t = { s with cores := t.cores } ∧ ∀ k, ∃ o, t.coreOf k = { s.coreOf k with weir := { (s.coreOf k).weir with owed := o } }

section

variable {s t u : State}

theorem OwesMore.refl (s : State) : OwesMore s s := ⟨rfl, fun k => ⟨(s.coreOf k).weir.owed, rfl⟩⟩

theorem OwesMore.trans (a : OwesMore s u) (b : OwesMore u t) : OwesMore s t := by
  obtain ⟨uEq, uCores⟩ := a
  obtain ⟨tEq, tCores⟩ := b
  refine ⟨tEq.trans (by rw [uEq]), fun k => ?_⟩
  obtain ⟨o, uk⟩ := uCores k
  obtain ⟨p, tk⟩ := tCores k
  exact ⟨p, by rw [tk, uk]⟩

theorem weirSettle_owesMore (s : State) (c : BitVec 4) : OwesMore s (weirSettle s c) := by
  unfold weirSettle
  split
  · refine ⟨rfl, fun k => ?_⟩
    refine smGet_map_rel (R := fun d d' => ∃ o, d' = { d with weir := { d.weir with owed := o } }) ⟨Core.reset.weir.owed, rfl⟩
      (fun e => ?_) (fun e => ?_) k s.cores
    · split <;> rfl
    · split
      · exact ⟨_, rfl⟩
      · exact ⟨e.2.weir.owed, rfl⟩
  · exact OwesMore.refl s

theorem weirSettleAll_owesMore (s : State) : OwesMore s (weirSettleAll s) := by
  have all (l : List Nat) (u : State) : OwesMore u (l.foldl (fun s c => weirSettle s (BitVec.ofNat 4 c)) u) := by
    induction l generalizing u with
    | nil => exact OwesMore.refl u
    | cons c rest ih => exact (weirSettle_owesMore u _).trans (ih _)
  exact all _ s

/-- The arrivals that stay are those of channels kept or never joined. -/
theorem arrived_kept (a w m : BitVec 16) : a &&& (m ||| ~~~w) = a &&& ~~~(w &&& ~~~m) := by
  rw [BitVec.not_and, BitVec.not_not, BitVec.or_comm]

end

section

variable {s : State} {r : BitVec 5} {n : BitVec 12}

theorem sput_eq : exec (.sput r n) s =
    if ((sysReg s n).isNone || !levelOk s.priv n || readOnly n) then raise s (Trap.operand (n.setWidth 64))
    else if n = 0x010 ∧ 5 ≤ (s.x r).toNat % 8 then raise s (Trap.operand (s.x r)) else finish (putSysReg s n (s.x r)) := rfl

theorem sput_refused (refused : ¬ Spec.writable s n.toNat ∨ ¬ Spec.levelAllows s n.toNat) : Traps (.sput r n) s 0x040 (n.setWidth 64) := by
  have check : ((sysReg s n).isNone || !levelOk s.priv n || readOnly n) = true := by
    rw [← Bool.not_eq_false, ← writable_iff]
    exact not_and_or.mpr refused
  unfold Traps
  rw [sput_eq, if_pos check]
  exact raise_trapped s (Trap.operand (n.setWidth 64))

theorem frm_writable (s : State) : Spec.writable s (0x010 : BitVec 12).toNat ∧ Spec.levelAllows s (0x010 : BitVec 12).toNat :=
  (writable_iff s 0x010).mpr rfl

theorem wmember_writable (s : State) : Spec.writable s (0x020 : BitVec 12).toNat ∧ Spec.levelAllows s (0x020 : BitVec 12).toNat :=
  (writable_iff s 0x020).mpr rfl

theorem sput_reserved (writable : Spec.writable s n.toNat ∧ Spec.levelAllows s n.toNat) (reserved : n = 0x010 ∧ 5 ≤ (s.x r).toNat % 8) :
    Traps (.sput r n) s 0x040 (s.x r) := by
  unfold Traps
  rw [sput_eq, (writable_iff s n).mp writable, if_neg Bool.false_ne_true, if_pos reserved]
  exact raise_trapped s (Trap.operand (s.x r))

theorem sput_writes (writable : Spec.writable s n.toNat ∧ Spec.levelAllows s n.toNat) (legal : ¬ (n = 0x010 ∧ 5 ≤ (s.x r).toNat % 8)) :
    exec (.sput r n) s = finish (putSysReg s n (s.x r)) := by
  rw [sput_eq, (writable_iff s n).mp writable, if_neg Bool.false_ne_true, if_neg legal]

/-- A write of a system register leaves the pc. -/
theorem putReg_pc (h : Hart) (n : Nat) (v : Word) (m : Bool) : (h.putReg n v m).pc = h.pc := by
  unfold Hart.putReg
  split <;> rfl

/-- A hart's instruction that updates the hart alone has completed, whatever it did to `sigen`. -/
theorem retire_setH (hart : s.lane = none) {g : Hart} (pc : g.pc = s.h.pc) :
    Becomes s (retire (s.setH g)) (g.doneAt (s.setH g).checkerNext (s.pc + 4)) := by
  have lane : (s.setH g).lane = none := hart
  have done := (becomes_setH s g).trans (retire_becomes (becomes_refl (s.setH g)) rfl rfl rfl rfl)
  rw [lane, setPc_of_hart, pc_of_hart _ lane, (becomes_setH s g).h, pc, ← pc_of_hart s hart] at done
  exact done

theorem retire_coreOf (u : State) (k : Nat) : (retire u).coreOf k = u.coreOf k := rfl

/-- An instruction that touches cores alone has completed. -/
theorem retire_cores {u : State} (hart : s.lane = none) (cores : u = { s with cores := u.cores }) :
    HartDone s (retire u).h 0 0 0 (s.pc + 4) s.checkerNext ∧ (∀ k, k ≠ s.cur → (retire u).hartOf k = s.hartOf k)
      ∧ retire u = { s with harts := (retire u).harts, cores := u.cores } := by
  have lane : u.lane = none := (congrArg State.lane cores :).trans hart
  have sameH : u.h = s.h := by rw [cores]; rfl
  have cur : u.cur = s.cur := (congrArg State.cur cores :)
  have harts : u.harts = s.harts := (congrArg State.harts cores :)
  have checker : u.checkerNext = s.checkerNext := by rw [cores]; rfl
  obtain ⟨h, others, whole⟩ := retire_becomes (becomes_refl u) rfl rfl rfl rfl
  have flags : s.h.orFlags 0 = s.h := by simp [Hart.orFlags]
  refine ⟨⟨fun _ => ?_, fun l r inLane => absurd (hart.symm.trans inLane.1) (by simp)⟩, fun k other => ?_, ?_⟩
  · rw [h, lane, setPc_of_hart, pc_of_hart u lane, pc_of_hart s hart, sameH, checker]
    exact (congrArg (fun g => Hart.doneAt g s.checkerNext (s.h.pc + 4)) flags).symm
  · rw [others k (by rw [cur]; exact other)]
    unfold State.hartOf
    rw [harts]
  · rw [whole, cores]

end

theorem systemRegisterWrite : Claims.SystemRegisterWrite := by
  intro s r n hart
  refine ⟨sput_refused, fun frm reserved => ?_, fun writable level other legal => ?_, fun member => ?_⟩
  · subst frm
    exact sput_reserved (frm_writable s) ⟨rfl, reserved⟩
  · intro g
    have put : putSysReg s n (s.x r) = s.setH g := by
      unfold putSysReg
      rw [if_neg other, putReg_eq_hartPut]
    have pc : g.pc = s.h.pc := by
      rw [← putReg_pc s.h n.toNat (s.x r) (s.priv = 3), putReg_eq_hartPut]
    refine ⟨_, sput_writes ⟨writable, level⟩ legal, ?_⟩
    rw [put]
    exact retire_setH hart pc
  · intro w m a
    subst member
    refine ⟨_, sput_writes (wmember_writable s) (fun e => absurd e.1 (by decide)), ?_⟩
    obtain ⟨c, left⟩ : ∃ c : Core, c = { s.c with weir := { w with wmember := m, arrived := a } } := ⟨_, rfl⟩
    have put : putSysReg s 0x020 (s.x r) = weirSettleAll (s.setC c) := by
      rw [left]
      dsimp only [a, m]
      rw [← arrived_kept, BitVec.ofNat_toNat]
      rfl
    obtain ⟨same, owed⟩ := weirSettleAll_owesMore (s.setC c)
    obtain ⟨done, others, whole⟩ := retire_cores (u := weirSettleAll (s.setC c)) hart same
    rw [put]
    refine ⟨done, others, by rw [whole], fun k => ?_⟩
    obtain ⟨o, entry⟩ := owed k
    refine ⟨o, ?_⟩
    rw [retire_coreOf, entry]
    by_cases own : k = s.agent
    · rw [if_pos own, own, show (s.setC c).coreOf s.agent = c from State.c_setC s c, left]
    · rw [State.coreOf_setC_ne s c own, if_neg own]

/-- Settles O20: the model's tables of values, levels and writable fields are those of R41 to R49, register by register. -/
theorem systemRegisters : Obligations.SystemRegisters := ⟨systemRegisterRead, systemRegisterWrite⟩

end Sys2Proof.Machine

/-! # Lane regions (O28): copying the region's words -/

namespace Sys2Proof.Machine

/-! ## What the fetch path leaves (R139, R283) -/

/-- From `s` to `t` memories, caches and stores on their way may have changed, but no hart, no launch, nothing else of a core and no register of
the step in execution. -/
def MemoryOnly (s t : State) : Prop :=
  t.harts = s.harts ∧ t.cur = s.cur ∧ t.lane = s.lane ∧ t.word = s.word ∧ t.launches = s.launches
    ∧ ∀ k, ∃ caches pstores, t.coreOf k = { s.coreOf k with caches := caches, pstores := pstores }

/-- The answer's state is one that only memories changed in, whether it completes or traps. -/
def ResMemoryOnly (s : State) {α : Type} (r : Res (α × State)) : Prop :=
  match r with
  | .ok a => MemoryOnly s a.2
  | .error e => MemoryOnly s e.1

section

variable {s t u : State}

theorem MemoryOnly.refl (s : State) : MemoryOnly s s := ⟨rfl, rfl, rfl, rfl, rfl, fun _ => ⟨_, _, rfl⟩⟩

theorem MemoryOnly.cur (a : MemoryOnly s t) : t.cur = s.cur := a.2.1

theorem MemoryOnly.launches (a : MemoryOnly s t) : t.launches = s.launches := a.2.2.2.2.1

theorem MemoryOnly.coreOf (a : MemoryOnly s t) (k : Nat) :
    ∃ caches pstores, t.coreOf k = { s.coreOf k with caches := caches, pstores := pstores } := a.2.2.2.2.2 k

theorem MemoryOnly.trans (a : MemoryOnly s u) (b : MemoryOnly u t) : MemoryOnly s t := by
  obtain ⟨uHarts, uCur, uLane, uWord, uLaunches, uCores⟩ := a
  obtain ⟨tHarts, tCur, tLane, tWord, tLaunches, tCores⟩ := b
  refine ⟨tHarts.trans uHarts, tCur.trans uCur, tLane.trans uLane, tWord.trans uWord, tLaunches.trans uLaunches, fun k => ?_⟩
  obtain ⟨caches, pstores, tk⟩ := tCores k
  obtain ⟨_, _, uk⟩ := uCores k
  exact ⟨caches, pstores, by rw [tk, uk]⟩

theorem MemoryOnly.hartOf (a : MemoryOnly s t) (k : Nat) : t.hartOf k = s.hartOf k := by
  unfold State.hartOf
  rw [a.1]

theorem MemoryOnly.h (a : MemoryOnly s t) : t.h = s.h := by
  unfold State.h
  rw [a.hartOf, a.cur]

theorem MemoryOnly.hartNo (a : MemoryOnly s t) : t.hartNo = s.hartNo := by
  unfold State.hartNo
  rw [a.cur]

theorem MemoryOnly.sp (a : MemoryOnly s t) (k : Nat) : (t.coreOf k).sp = (s.coreOf k).sp := by
  obtain ⟨_, _, same⟩ := a.coreOf k
  rw [same]

theorem MemoryOnly.checkerNext (a : MemoryOnly s t) : t.checkerNext = s.checkerNext := by
  obtain ⟨-, cur, lane, word, -⟩ := id a
  unfold State.checkerNext State.checking State.onCore State.agent
  rw [a.h, cur, lane, word]

theorem MemoryOnly.setCoreOf (a : MemoryOnly s t) (k : Nat) (caches : Caches) (pstores : List PStore) :
    MemoryOnly s (t.setCoreOf k { t.coreOf k with caches := caches, pstores := pstores }) := by
  obtain ⟨harts, cur, lane, word, launches, cores⟩ := a
  refine ⟨harts, cur, lane, word, launches, fun j => ?_⟩
  by_cases e : j = k
  · obtain ⟨_, _, same⟩ := cores k
    rw [e, State.coreOf_setCoreOf_self, same]
    exact ⟨_, _, rfl⟩
  · rw [State.coreOf_setCoreOf_ne _ _ e]
    exact cores j

theorem MemoryOnly.setBasin (a : MemoryOnly s t) (k : Nat) (b : Basin) : MemoryOnly s (t.setBasin k b) := a

theorem emit_memoryOnly (a : MemoryOnly s t) (type ctx queue x y z) : MemoryOnly s (t.emit type ctx queue x y z) := by
  obtain ⟨m, r, raised, pba, e⟩ := emit_frame t type ctx queue x y z
  rw [e]
  exact a

theorem devWrite_memoryOnly (a : MemoryOnly s t) (writer pa data) : MemoryOnly s (devWrite t writer pa data) := by
  refine a.trans ⟨rfl, rfl, rfl, rfl, rfl, fun k => ?_⟩
  refine smGet_map_rel (R := fun c c' => ∃ caches pstores, c' = { c with caches := caches, pstores := pstores })
    ⟨Core.reset.caches, Core.reset.pstores, rfl⟩ (fun e => ?_) (fun e => ?_) k t.cores
  · split <;> rfl
  · split
    · exact ⟨e.2.caches, e.2.pstores, rfl⟩
    · exact ⟨_, e.2.pstores, rfl⟩

theorem performStore_memoryOnly (a : MemoryOnly s t) (agent p) : MemoryOnly s (performStore t agent p) := by
  unfold performStore
  split
  · exact devWrite_memoryOnly a ..
  · unfold hostWrite
    split
    · exact emit_memoryOnly a ..
    · exact a
  · exact a

theorem performWhere_memoryOnly (a : MemoryOnly s t) (agent f) : MemoryOnly s (performWhere t agent f) := by
  have all (l : List PStore) (v : State) (b : MemoryOnly s v) : MemoryOnly s (l.foldl (fun v p => performStore v agent p) v) := by
    induction l generalizing v with
    | nil => exact b
    | cons p rest ih => exact ih _ (performStore_memoryOnly b agent p)
  exact all _ _ (a.setCoreOf agent (t.coreOf agent).caches _)

theorem walkUpdate_memoryOnly (a : MemoryOnly s t) (p acc) : MemoryOnly s (walkUpdate t p acc) := by
  unfold walkUpdate
  dsimp only
  split
  · exact devWrite_memoryOnly a ..
  · exact a

theorem translate_memoryOnly (a : MemoryOnly s t) (agent va acc user l2only) {x : Xlat}
    (e : translate t agent va acc user l2only = .ok (x, u)) : MemoryOnly s u := by
  have filled (v : State) (b : MemoryOnly s v) (caches : Caches) :
      MemoryOnly s (if l2only then v else v.setCoreOf agent { v.coreOf agent with caches := caches }) := by
    split
    · exact b
    · exact b.setCoreOf agent caches (v.coreOf agent).pstores
  unfold translate at e
  split at e
  · cases e
  · dsimp only at e
    split at e
    · cases e
      exact a
    · split at e
      · cases e
        exact filled _ a _
      · split at e
        · cases e
        · cases e
          exact filled _ ((walkUpdate_memoryOnly a ..).setBasin ..) _

theorem fetchDev_memoryOnly (a : MemoryOnly s t) (va pa io) : ResMemoryOnly s (fetchDev t va pa io) := by
  have lines (l : SMap ILine) : MemoryOnly s (t.setLines l) := a.setCoreOf t.agent { t.c.caches with l1i := l } t.c.pstores
  unfold fetchDev
  dsimp only
  generalize (if io then none else smFind (lineOf pa) t.c.caches.l1i) = held
  split
  · show MemoryOnly s (if held.isSome then _ else t)
    split
    · exact lines _
    · exact a
  · show MemoryOnly s (if io || held.isSome then t else _)
    split
    · exact a
    · exact lines _

theorem fetchLoc_memoryOnly (a : MemoryOnly s t) (va loc io) : ResMemoryOnly s (fetchLoc t va loc io) := by
  unfold fetchLoc
  have synced : MemoryOnly s (hostSync t t.agent) := performWhere_memoryOnly a ..
  split
  · exact fetchDev_memoryOnly a ..
  · split
    · exact a
    · exact a
  · dsimp only
    split
    · exact synced
    · exact synced
  · exact a

theorem fetchAt_memoryOnly (a : MemoryOnly s t) (va) : ResMemoryOnly s (fetchAt t va) := by
  unfold fetchAt
  split
  · exact a
  · split
    · split
      · exact fetchLoc_memoryOnly a ..
      · exact fetchLoc_memoryOnly a ..
    · split
      · exact a
      · next x v e => exact fetchLoc_memoryOnly (translate_memoryOnly a _ _ _ _ _ e) ..

/-- The words of a region are as many as `lsplit` names, and copying them changes memories alone. -/
theorem fetchWords_ok (n : Nat) : ∀ {t : State} {va : Word} {ws : List (BitVec 32)}, MemoryOnly s t → fetchWords t va n = .ok (ws, u) →
    ws.length = n ∧ MemoryOnly s u := by
  induction n with
  | zero =>
    intro t va ws a e
    unfold fetchWords at e
    cases e
    exact ⟨rfl, a⟩
  | succ n ih =>
    intro t va ws a e
    unfold fetchWords at e
    have first := fetchAt_memoryOnly a va
    cases h : fetchAt t va with
    | error _ => simp only [h, reduceCtorEq] at e
    | ok p =>
      obtain ⟨w, v⟩ := p
      rw [h] at first
      simp only [h] at e
      cases h' : fetchWords v (va + 4) n with
      | error _ => simp only [h', reduceCtorEq] at e
      | ok q =>
        obtain ⟨rest, v'⟩ := q
        simp only [h'] at e
        cases e
        obtain ⟨length, kept⟩ := ih first h'
        exact ⟨by rw [List.length_cons, length], kept⟩

end

end Sys2Proof.Machine

/-! # Lane regions (O28): their start and their end -/

namespace Sys2Proof.Machine

/-! ## Lanes that run (R139, R141) -/

theorem all_lanes_iff (ls : Vector Lane 16) (p : Lane → Bool) : ls.toList.all p = true ↔ ∀ k : Fin 16, p (ls.get k) = true := by
  rw [List.all_eq_true]
  refine ⟨fun h k => h _ (by simp [Vector.get_eq_getElem]), fun h l hl => ?_⟩
  obtain ⟨i, hi, e⟩ := Vector.mem_iff_getElem.mp (Vector.mem_toList_iff.mp hl)
  exact e ▸ h ⟨i, hi⟩

section

variable {s : State} {a b : BitVec 5} {k : BitVec 3}

theorem lanesOf_get (s : State) (k : BitVec 3) (base : Word) (l : Fin 16) :
    (lanesOf s k base).get l = { started := Spec.bitIn s.h.m k 0 l.val, joined := false, pc := base } := by
  unfold lanesOf
  rw [Vector.get_eq_getElem, Vector.getElem_ofFn]
  rfl

theorem lanesOf_none_iff (s : State) (k : BitVec 3) (base : Word) :
    ((lanesOf s k base).toList.all fun l => !l.started) = true ↔ ∀ l, l < 16 → Spec.bitIn s.h.m k 0 l = false := by
  rw [all_lanes_iff]
  simp only [lanesOf_get, Bool.not_eq_true']
  exact ⟨fun h l hl => h ⟨l, hl⟩, fun h l => h l.val l.isLt⟩

/-! ## The lane instruction buffer (R39, R276) -/

theorem laneAhead_of_ahead {c : Core} {own h : Nat} (other : h ≠ own)
    (ahead : c.laneHolder = some h ∨ (c.laneHolder = none ∧ c.laneWait.head? = some h)) : c.laneAhead own = some h := by
  unfold Core.laneAhead
  obtain holder | ⟨free, first⟩ := ahead
  · simp [holder, other]
  · simp [free, first, other]

theorem laneAhead_of_own {c : Core} {own : Nat} (holder : c.laneHolder = none ∨ c.laneHolder = some own)
    (first : c.laneWait.head? = none ∨ c.laneWait.head? = some own) : c.laneAhead own = none := by
  unfold Core.laneAhead
  obtain h | h := holder
  · obtain f | f := first <;> simp [h, f]
  · simp [h]

/-! ## `lsplit` (R139) -/

theorem lsplit_count (bad : (s.x b).toNat = 0 ∨ 256 < (s.x b).toNat) : Traps (.lsplit a b k) s 0x040 (s.x b) := by
  have answer : exec (.lsplit a b k) s = raise s (Trap.operand (s.x b)) := if_pos (bad.imp_left (BitVec.eq_of_toNat_eq ·))
  unfold Traps
  rw [answer]
  exact raise_trapped s (Trap.operand (s.x b))

/-- `lsplit` after its check of the number of words. -/
theorem lsplit_counted (low : 0 < (s.x b).toNat) (high : (s.x b).toNat ≤ 256) :
    exec (.lsplit a b k) s =
      if (s.x a).toNat % 4 ≠ 0 then raise s (Trap.of 0x041 (s.x a))
      else if (lanesOf s k (s.x a)).toList.all fun l => !l.started then finish s
      else
        match s.c.laneAhead s.hartNo with
        | some j =>
          waiting (s.setC { s.c with laneWait := if s.c.laneWait.contains s.hartNo then s.c.laneWait else s.c.laneWait ++ [s.hartNo] })
            0x0D (BitVec.ofNat 6 j) 0
        | none =>
          match fetchWords s (s.x a) (s.x b).toNat with
          | .error (s, t) => raise s t
          | .ok (ws, u) => .next (beginRegion u (s.x a) ws (lanesOf u k (s.x a))) := by
  have counted : ¬ (s.x b = 0 ∨ 256 < (s.x b).toNat) := by
    rintro (zero | above)
    · rw [zero] at low
      exact absurd low (by decide)
    · omega
  exact if_neg counted

theorem lsplit_misaligned (low : 0 < (s.x b).toNat) (high : (s.x b).toNat ≤ 256) (odd : (s.x a).toNat % 4 ≠ 0) :
    Traps (.lsplit a b k) s 0x041 (s.x a) := by
  unfold Traps
  rw [lsplit_counted low high, if_pos odd]
  exact raise_trapped s (Trap.of 0x041 (s.x a))

/-- A state whose instruction completes without a result. -/
theorem finish_done (hart : s.lane = none) : ∃ t, finish s = .next t ∧ ScalarDone s t 0 0 0 (s.pc + 4) s.checkerNext := by
  obtain ⟨done, others, whole⟩ := retire_cores (u := s) hart rfl
  exact ⟨_, rfl, ⟨rfl, others, whole⟩, done⟩

theorem becomesOn_setC_setH (s : State) (c : Core) (g : Hart) : BecomesOn s ((s.setC c).setH g) g c :=
  ⟨State.h_setH .., fun _ other => State.hartOf_setH_ne (s.setC c) g other, State.c_setC s c, fun _ other => State.coreOf_setC_ne s c other, rfl⟩

/-- A hart that waits has touched its core's queues alone. -/
theorem waiting_setC (s : State) (c : Core) (reason : BitVec 5) (tag : BitVec 6) (peer : BitVec 32) :
    ∃ t, waiting (s.setC c) reason tag peer = .next t
      ∧ BecomesOn s t { s.h with wait := { s.h.wait with reason := reason, tag := tag, peer := peer } } c :=
  ⟨_, rfl, becomesOn_setC_setH s c _⟩

/-- A region begins: the hart stays at `lsplit`, and its core's buffer holds the words (R139). -/
theorem beginRegion_h (s : State) (base : Word) (ws : List (BitVec 32)) (lanes : Vector Lane 16) :
    (beginRegion s base ws lanes).h = { s.h.doneAt s.checkerNext s.h.pc with
      lanes := some { base := base, n := ws.length, lanes := lanes }
      trap := { s.h.trap with status := { s.h.trap.status with lthr := true } } } :=
  State.h_setH ..

theorem beginRegion_c (s : State) (base : Word) (ws : List (BitVec 32)) (lanes : Vector Lane 16) :
    (beginRegion s base ws lanes).c
      = { s.c with laneBuf := ws, laneHolder := some s.hartNo, laneWait := s.c.laneWait.filter (· ≠ s.hartNo) } :=
  State.c_setC s _

theorem beginRegion_hartOf_ne (s : State) (base : Word) (ws : List (BitVec 32)) (lanes : Vector Lane 16) {j : Nat} (other : j ≠ s.cur) :
    (beginRegion s base ws lanes).hartOf j = s.hartOf j :=
  State.hartOf_setHartOf_ne _ _ other

theorem setC_sp (s : State) {c : Core} (sp : c.sp = s.c.sp) (j : Nat) : ((s.setC c).coreOf j).sp = (s.coreOf j).sp := by
  by_cases own : j = s.agent
  · rw [own]
    exact (congrArg Core.sp (State.c_setC s c)).trans sp
  · rw [State.coreOf_setC_ne s c own]

theorem beginRegion_sp (s : State) (base : Word) (ws : List (BitVec 32)) (lanes : Vector Lane 16) (j : Nat) :
    ((beginRegion s base ws lanes).coreOf j).sp = (s.coreOf j).sp :=
  setC_sp s (c := { s.c with laneBuf := ws, laneHolder := some s.hartNo, laneWait := s.c.laneWait.filter (· ≠ s.hartNo) }) rfl j

end

theorem laneSplit : Claims.LaneSplit := by
  intro s a b k hart n started
  refine ⟨lsplit_count, fun low high => lsplit_misaligned low high, fun low high aligned => ⟨fun none => ?_, fun l hl lane => ?_⟩⟩
  · rw [lsplit_counted low high, if_neg (not_not.mpr aligned), if_pos ((lanesOf_none_iff ..).mpr none)]
    exact finish_done hart
  · have any : ¬ ((lanesOf s k (s.x a)).toList.all fun l => !l.started) = true := fun all =>
      absurd ((lanesOf_none_iff ..).mp all l hl) (Bool.not_eq_false _ ▸ lane)
    rw [lsplit_counted low high, if_neg (not_not.mpr aligned), if_neg any]
    refine ⟨fun h other ahead => ?_, fun u ws holder first words => ?_⟩
    · rw [laneAhead_of_ahead other ahead]
      obtain ⟨t, waits, becomes⟩ := waiting_setC s
        { s.c with laneWait := if s.c.laneWait.contains s.hartNo then s.c.laneWait else s.c.laneWait ++ [s.hartNo] } 0x0D (BitVec.ofNat 6 h) 0
      refine ⟨t, _, waits, becomes, ?_⟩
      split
      · next queued => exact List.contains_iff_mem.mp queued
      · exact List.mem_append_right _ List.mem_cons_self
    · obtain ⟨length, kept⟩ := fetchWords_ok (s := s) n (MemoryOnly.refl s) words
      rw [laneAhead_of_own holder first]
      simp only [show fetchWords s (s.x a) (s.x b).toNat = .ok (ws, u) from words]
      refine ⟨_, { base := s.x a, n := ws.length, lanes := lanesOf u k (s.x a) }, rfl, ?_, rfl, rfl, length, fun l => ?_, ?_, fun j other => ?_,
        fun j => ?_⟩
      · rw [beginRegion_h, kept.h, kept.checkerNext]
      · rw [lanesOf_get, kept.h]
      · rw [beginRegion_c, kept.hartNo]
      · rw [beginRegion_hartOf_ne _ _ _ _ (by rw [kept.cur]; exact other), kept.hartOf]
      · rw [beginRegion_sp, kept.sp j]

/-! ## `ljoin` (R141) -/

theorem laneJoin : Claims.LaneJoin := by
  intro s l r inLane
  obtain ⟨lane, hl, region⟩ := inLane
  let ls := r.lanes.set (l % 16) { r.lanes.get (Fin.ofNat 16 l) with joined := true } (Nat.mod_lt _ (by decide))
  have answer : exec .ljoin s = if ls.toList.all fun l => !l.started || l.joined then .next (endRegion s)
      else .next (s.setH { s.h with lanes := some { r with lanes := ls } }) := by
    show execLjoin s = _
    unfold execLjoin
    rw [lane, region]
  have joins : ∀ j : Fin 16, ls.get j = if j.val = l then { r.lanes.get j with joined := true } else r.lanes.get j :=
    lanes_set r.lanes hl fun ln => { ln with joined := true }
  have done : (ls.toList.all fun l => !l.started || l.joined) = true
      ↔ ∀ j : Fin 16, j.val ≠ l → (r.lanes.get j).started = true → (r.lanes.get j).joined = true := by
    rw [all_lanes_iff]
    refine forall_congr' fun j => ?_
    rw [joins]
    by_cases own : j.val = l
    · simp [own]
    · rw [if_neg own]
      cases (r.lanes.get j).started <;> simp [own]
  refine ⟨fun all => ?_, fun j other started joined => ?_⟩
  · rw [answer, if_pos (done.mpr all)]
    exact ⟨_, rfl, becomesOn_setC_setH s { s.c with laneHolder := none } _⟩
  · rw [answer, if_neg (fun all => absurd (done.mp all j other started) (by rw [joined]; decide))]
    exact ⟨_, ls, rfl, becomes_setH s _, joins⟩

end Sys2Proof.Machine

/-! # Lane regions (O28): lanes stay in their region -/

namespace Sys2Proof.Machine

/-! ## Transfers of a lane (R103, R140) -/

section

variable {u v t : State} {i : Instr} {l : Nat} {r : LaneRegion} {p : Word}

theorem Trapped.lane {c : BitVec 9} {tval epc restart : Word} (taken : Trapped u t c tval epc restart) : t.lane = none := by
  obtain ⟨-, -, -, -, -, -, -, -, -, -, -, -, -, lane, -⟩ := taken
  exact lane

/-- The answer lets lane `l` of the region go on at `p`. -/
def LaneAt (t : State) (l : Nat) (r : LaneRegion) (p : Word) : Prop :=
  t.lane = some l ∧ (∃ ls, t.h.lanes = some { r with lanes := ls }) ∧ t.pc = p

theorem setPc_of_lane {h : Hart} (region : h.lanes = some r) (l : Nat) (p : Word) : h.setPc (some l) p = { h with
    lanes := some { r with lanes := r.lanes.set (l % 16) { r.lanes.get (Fin.ofNat 16 l) with pc := p } (Nat.mod_lt _ (by decide)) } } := by
  unfold Hart.setPc
  rw [region]

theorem pc_of_lane (inLane : InLane u l r) : u.pc = (r.lanes.get (Fin.ofNat 16 l)).pc := by
  obtain ⟨lane, -, region⟩ := inLane
  unfold State.pc
  rw [lane, region]

theorem setPc_laneAt (lane : u.lane = some l) (hl : l < 16) {g : Hart} (region : g.lanes = some r) (p : Word) :
    LaneAt (u.setH (g.setPc (some l) p)) l r p := by
  have lanes : (u.setH (g.setPc (some l) p)).h.lanes = some { r with
      lanes := r.lanes.set (l % 16) { r.lanes.get (Fin.ofNat 16 l) with pc := p } (Nat.mod_lt _ (by decide)) } := by
    rw [State.h_setH, setPc_of_lane region]
  have moved := pc_of_lane ⟨(show (u.setH (g.setPc (some l) p)).lane = some l from lane), hl, lanes⟩
  rw [lanes_set r.lanes hl (fun ln => { ln with pc := p }), if_pos (show (Fin.ofNat 16 l).val = l from Nat.mod_eq_of_lt hl)] at moved
  exact ⟨lane, ⟨_, lanes⟩, moved⟩

/-- An end word of a lane goes to its target and is not compared (R140). -/
theorem finishEnd_lane (inLane : InLane u l r) (p : Word) : ∃ t, finishEnd u p = .next t ∧ LaneAt t l r p := by
  obtain ⟨lane, hl, region⟩ := inLane
  have ends : finishEnd u p = .next (u.setH ({ u.h.running with checker := u.checkerNext }.setPc (some l) p)) := by
    unfold finishEnd retireEnd
    rw [lane]
    rfl
  exact ⟨_, ends, setPc_laneAt lane hl (g := { u.h.running with checker := u.checkerNext }) region p⟩

theorem inLane_setX (inLane : InLane v l r) (rd : BitVec 5) (x : Word) : InLane (v.setX rd x) l r := by
  obtain ⟨lane, hl, region⟩ := inLane
  have b := setX_of_lane (rd := rd) (v := x) lane
  refine ⟨b.lane.trans lane, hl, ?_⟩
  rw [b.h, laneSet_eq]
  exact region

theorem offset_eq_ofInt {n : Nat} (a : Word) (off : BitVec n) : a + off.signExtend 64 <<< 2 = BitVec.ofInt 64 (a.toInt + 4 * off.toInt) := by
  have shift : off.signExtend 64 <<< 2 = BitVec.ofInt 64 (4 * off.toInt) := by
    rw [BitVec.shiftLeft_eq_mul_twoPow, Int.mul_comm, BitVec.ofInt_mul]
    rfl
  rw [shift, add_ofInt]

/-- A branch whose condition holds. -/
theorem branch_lane (inLane : InLane v l r) (off : BitVec 16) :
    ∃ t, branch true off v = .next t ∧ LaneAt t l r (BitVec.ofInt 64 (v.pc.toInt + 4 * off.toInt)) := by
  rw [← offset_eq_ofInt]
  exact finishEnd_lane inLane _

theorem bge_condition (x y : Word) : (!x.slt y) = decide (y.toInt ≤ x.toInt) := by
  unfold BitVec.slt
  rw [← decide_not, decide_eq_decide, not_lt]

/-- A branch that is taken has its target. -/
theorem branch_taken {taken : Bool} {off : BitVec 16} (inLane : InLane v l r)
    (target : (if taken then Option.map Prod.fst (some ((if taken then BitVec.ofInt 64 (v.pc.toInt + 4 * off.toInt)
      else BitVec.ofInt 64 (v.pc.toInt + 4)), (0 : BitVec 5))) else none) = some p) :
    taken = true ∧ ∃ t, branch taken off v = .next t ∧ LaneAt t l r p := by
  cases taken
  · cases target
  · obtain rfl := Option.some.inj target
    exact ⟨rfl, branch_lane inLane off⟩

/-- A transfer that is taken in a lane moves the lane to its target. -/
theorem exec_taken (inLane : InLane v l r) (target : Spec.taken i v = some p) :
    transfers i v = true ∧ ∃ t, exec i v = .next t ∧ LaneAt t l r p := by
  unfold Spec.taken at target
  dsimp only at target
  split at target
  case h_1 rd off =>
    obtain rfl := Option.some.inj target
    rw [← offset_eq_ofInt]
    exact ⟨rfl, finishEnd_lane (inLane_setX inLane ..) _⟩
  case h_2 rd a imm =>
    simp only [Spec.transfer, if_true] at target
    split at target
    · next aligned =>
      obtain rfl := Option.some.inj target
      rw [← add_ofInt] at aligned ⊢
      have answer : exec (.jalr rd a imm) v = finishEnd (v.setX rd (v.pc + 4)) (v.x a + BitVec.ofInt 64 imm.toInt) :=
        if_neg (not_not.mpr aligned)
      rw [answer]
      exact ⟨rfl, finishEnd_lane (inLane_setX inLane ..) _⟩
    · cases target
  case h_3 a b off => exact branch_taken inLane target
  case h_4 a b off => exact branch_taken inLane target
  case h_5 a b off => exact branch_taken (taken := (v.x a).slt (v.x b)) inLane target
  case h_6 a b off =>
    simp only [Spec.transfer, ← bge_condition] at target
    exact branch_taken inLane target
  case h_7 => cases target

/-- A branch whose condition holds has a target. -/
theorem taken_branch_ne_none {taken : Bool} {q : Word} (goes : taken = true)
    (target : (if taken then Option.map Prod.fst (some (q, (0 : BitVec 5))) else none) = none) : False := by
  rw [if_pos goes] at target
  cases target

/-- A transfer without a target traps. -/
theorem exec_untaken (goes : transfers i v = true) (target : Spec.taken i v = none) : ∃ t, exec i v = .next t ∧ t.lane = none := by
  unfold transfers at goes
  split at goes
  case h_1 => cases target
  case h_2 rd a imm =>
    simp only [Spec.taken, Spec.transfer, if_true] at target
    split at target
    · cases target
    · next misaligned =>
      rw [← add_ofInt] at misaligned
      have answer : exec (.jalr rd a imm) v = raise v (Trap.of 0x041 (v.x a + BitVec.ofInt 64 imm.toInt)) := if_pos misaligned
      obtain ⟨t, raised, trapped⟩ := raise_trapped v (Trap.of 0x041 (v.x a + BitVec.ofInt 64 imm.toInt))
      exact ⟨t, answer.trans raised, trapped.lane⟩
  case h_3 | h_4 | h_5 => exact (taken_branch_ne_none goes target).elim
  case h_6 =>
    simp only [Spec.taken, Spec.transfer, ← bge_condition] at target
    exact (taken_branch_ne_none goes target).elim
  case h_7 => cases goes

end

/-! ## The run of a lane (R38, R39, R140, R142) -/

section

variable {s : State} {l : Nat} {r : LaneRegion} {w : BitVec 32}

/-- Lane `l` of the hart can run in the region. -/
def LaneRuns (s : State) (l : Nat) (r : LaneRegion) : Prop :=
  s.h.lanes = some r ∧ (r.lanes.get (Fin.ofNat 16 l)).started = true ∧ (r.lanes.get (Fin.ofNat 16 l)).joined = false

theorem runLane_eq (runs : LaneRuns s l r) : runLane s l =
    match laneFetch { s with lane := some l } r with
    | none => laneTrap { s with lane := some l } l
    | some w =>
      if laneWord w = false then laneTrap { s with lane := some l } l
      else
        match exec (instrOfWord w) { s with lane := some l, word := w } with
        | .next t =>
          if leavesRegion (instrOfWord w) { s with lane := some l, word := w } t then laneTrap { s with lane := some l } l
          else .next { t with lane := none }
        | o => o := by
  obtain ⟨region, started, joined⟩ := runs
  unfold runLane
  rw [region]
  dsimp only
  rw [started, joined]
  exact if_neg (by decide)

theorem laneTrap_trapped (u : State) (l : Nat) : ∃ t, laneTrap u l = .next t ∧ Trapped u t 0x040 (BitVec.ofNat 64 l) u.pc 0 :=
  raise_trapped u (Trap.operand (BitVec.ofNat 64 l))

theorem laneFetch_outside {u : State} (outside : u.pc.toNat < r.base.toNat ∨ r.base.toNat + 4 * r.n ≤ u.pc.toNat) : laneFetch u r = none :=
  if_neg (by omega)

theorem instrOfWord_illegal (illegal : subOf w.toNat ≠ 0) : instrOfWord w = .illegalEncoding w := by
  unfold instrOfWord decode decodeNat
  rw [if_neg illegal]

end

section

variable {s t : State} {l : Nat} {r : LaneRegion} {w : BitVec 32}

/-- A lane word whose answer stays in the region is the lane's step. -/
theorem runLane_stays (runs : LaneRuns s l r) (fetched : laneFetch { s with lane := some l } r = some w) (inSubset : laneWord w = true)
    (answer : exec (instrOfWord w) { s with lane := some l, word := w } = .next t)
    (stays : leavesRegion (instrOfWord w) { s with lane := some l, word := w } t = false) :
    runLane s l = .next { t with lane := none } := by
  rw [runLane_eq runs]
  simp only [fetched, inSubset, answer, stays, if_false, Bool.true_eq_false, Bool.false_eq_true]

theorem runLane_leaves (runs : LaneRuns s l r) (fetched : laneFetch { s with lane := some l } r = some w) (inSubset : laneWord w = true)
    (answer : exec (instrOfWord w) { s with lane := some l, word := w } = .next t)
    (leaves : leavesRegion (instrOfWord w) { s with lane := some l, word := w } t = true) :
    runLane s l = laneTrap { s with lane := some l } l := by
  rw [runLane_eq runs]
  simp only [fetched, inSubset, answer, leaves, if_true, if_false, Bool.true_eq_false]

/-- A word outside the lane subset stops the hart (R140). -/
theorem runLane_refused (runs : LaneRuns s l r) (fetched : laneFetch { s with lane := some l } r = some w) (outside : laneWord w = false) :
    runLane s l = laneTrap { s with lane := some l } l := by
  rw [runLane_eq runs]
  simp only [fetched, outside, if_true]

/-- A lane past the end of its words stops the hart (log 41). -/
theorem runLane_past (runs : LaneRuns s l r) (past : laneFetch { s with lane := some l } r = none) :
    runLane s l = laneTrap { s with lane := some l } l := by
  rw [runLane_eq runs]
  simp only [past]

theorem laneWord_eq_false (legal : subOf w.toNat = 0) (above : w.toNat / 2 ^ 26 > 0x1B) (notJoin : ¬ (w.toNat / 2 ^ 26 = 0x2F ∧ w.toNat % 128 = 1)) :
    laneWord w = false := by
  unfold laneWord
  simp only [legal, ne_eq, not_true_eq_false, decide_false, Bool.false_or, Bool.or_eq_false_iff, decide_eq_false_iff_not, not_le,
    Bool.and_eq_false_iff]
  exact ⟨above, not_and_or.mp notJoin⟩

/-- The lane's pc leaves the region exactly where its target does. -/
theorem leavesRegion_eq {i : Instr} {v : State} {p : Word} (goes : transfers i v = true) (at_ : LaneAt t l r p) :
    leavesRegion i v t = r.outside p := by
  obtain ⟨lane, ⟨ls, region⟩, pc⟩ := at_
  unfold leavesRegion
  rw [goes, lane, region, pc]
  rfl

theorem outside_iff {p : Word} : r.outside p = true ↔ ¬ (r.base.toNat ≤ p.toNat ∧ p.toNat < r.base.toNat + 4 * r.n) := by
  unfold LaneRegion.outside
  rw [Bool.not_eq_true', ← Bool.decide_and, decide_eq_false_iff_not]

/-- A word whose transfers all stay in the region stays in it. -/
theorem leavesRegion_inside {i : Instr} {v : State} (inLane : InLane v l r)
    (inside : ∀ p, Spec.taken i v = some p → r.base.toNat ≤ p.toNat ∧ p.toNat < r.base.toNat + 4 * r.n) (answer : exec i v = .next t) :
    leavesRegion i v t = false := by
  cases goes : transfers i v with
  | false => unfold leavesRegion; rw [goes]; rfl
  | true =>
    cases target : Spec.taken i v with
    | none =>
      obtain ⟨u, answer', lane⟩ := exec_untaken goes target
      obtain rfl : t = u := by rw [answer] at answer'; cases answer'; rfl
      unfold leavesRegion
      rw [lane, goes]
      rfl
    | some p =>
      obtain ⟨-, u, answer', at_⟩ := exec_taken inLane target
      obtain rfl : t = u := by rw [answer] at answer'; cases answer'; rfl
      rw [leavesRegion_eq goes at_, ← Bool.not_eq_true, outside_iff, not_not]
      exact inside p target

end

theorem laneConfinement : Claims.LaneConfinement := by
  intro s l r hart hl region started joined u
  have runs : LaneRuns s l r := ⟨region, started, joined⟩
  refine ⟨fun outside => ?_, fun w fetched => ?_⟩
  · rw [runLane_past runs (laneFetch_outside outside)]
    exact laneTrap_trapped u l
  · intro v i inside
    have inLane : InLane v l r := ⟨rfl, hl, region⟩
    refine ⟨fun illegal => ?_, fun legal above notJoin => ?_, fun inSubset => ⟨fun p target leaves => ?_, fun stays t answer => ?_⟩⟩
    · have word : laneWord w = true := by unfold laneWord; rw [decide_eq_true illegal]; rfl
      have instr := instrOfWord_illegal illegal
      obtain ⟨t, answer, trapped⟩ := illegalEncoding_traps v w illegal
      have same : { t with lane := none } = t := by rw [← trapped.lane]
      rw [← instr] at answer
      refine ⟨t, ?_, trapped⟩
      rw [runLane_stays runs fetched word answer (by rw [instr]; rfl), same]
    · rw [runLane_refused runs fetched (laneWord_eq_false legal above notJoin)]
      exact laneTrap_trapped u l
    · obtain ⟨goes, t, answer, at_⟩ := exec_taken inLane target
      rw [runLane_leaves runs fetched inSubset answer ((leavesRegion_eq goes at_).trans (outside_iff.mpr leaves))]
      exact laneTrap_trapped u l
    · exact runLane_stays runs fetched inSubset answer (leavesRegion_inside inLane stays answer)

/-- Settles O28: a lane's transfer is followed to its target, which the region holds or the lane's trap names. -/
theorem laneRegions : Obligations.LaneRegions := ⟨laneSplit, laneJoin, laneConfinement⟩

end Sys2Proof.Machine

/-! # Task starts (O38) -/

namespace Sys2Proof.Machine

/-! ## The order of the scheduler (R263) -/

/-- The first element of a rising list that passes a test is the least that does. -/
theorem find?_of_least {l : List Nat} (rising : l.Pairwise (· < ·)) {p : Nat → Bool} {a : Nat} (mem : a ∈ l) (pass : p a = true)
    (least : ∀ b ∈ l, p b = true → a ≤ b) : l.find? p = some a := by
  induction l with
  | nil => cases mem
  | cons b r ih =>
    obtain ⟨below, tail⟩ := List.pairwise_cons.mp rising
    obtain rfl | mem := List.mem_cons.mp mem
    · exact List.find?_cons_of_pos pass
    · have fails : ¬ p b = true := fun passes => absurd (least b List.mem_cons_self passes) (not_le.mpr (below a mem))
      rw [List.find?_cons_of_neg fails]
      exact ih tail mem fun c hc => least c (List.mem_cons_of_mem b hc)

theorem head?_of_least {l : List Nat} (rising : l.Pairwise (· < ·)) {a : Nat} (mem : a ∈ l) (least : ∀ b ∈ l, a ≤ b) : l.head? = some a := by
  have found := find?_of_least (p := fun _ => true) rising mem rfl fun b hb _ => least b hb
  cases l with
  | nil => cases mem
  | cons b r => exact found

section

variable {c : Core} {ch n : Nat}

theorem eligible_iff (t : TaskEntry) : t.eligible = true ↔ Spec.eligible t := by
  unfold TaskEntry.eligible TaskEntry.fhold Spec.eligible
  simp only [Bool.and_eq_true, Bool.not_eq_true', Bool.or_eq_false_iff]
  tauto

theorem smGet_of_mem {α : Type} (d : α) {k : Nat} {v : α} {m : SMap α} (rising : Spec.Rising m) (mem : (k, v) ∈ m) : smGet d k m = v := by
  induction m with
  | nil => cases mem
  | cons e r ih =>
    obtain ⟨j, u⟩ := e
    obtain ⟨below, tail⟩ := List.pairwise_cons.mp rising
    unfold smGet
    obtain same | mem := List.mem_cons.mp mem
    · cases same
      rw [if_pos rfl]
    · rw [if_neg (below _ mem).ne]
      exact ih tail mem

theorem mem_of_smGet_ne {α : Type} {d : α} {k : Nat} {m : SMap α} (other : smGet d k m ≠ d) : (k, smGet d k m) ∈ m := by
  induction m with
  | nil => exact absurd rfl other
  | cons e r ih =>
    obtain ⟨j, u⟩ := e
    unfold smGet at other ⊢
    by_cases own : j = k
    · rw [if_pos own, own]
      exact List.mem_cons_self
    · rw [if_neg own] at other ⊢
      exact List.mem_cons_of_mem _ (ih other)

/-- The eligible channels of a priority are those the scheduler lists for it. -/
theorem mem_eligibleAt (rising : Spec.Rising c.tasks) (p : Nat) :
    n ∈ c.eligibleAt p ↔ Spec.eligible (c.task n) ∧ (c.task n).priority.toNat = p := by
  unfold Core.eligibleAt
  rw [List.mem_map]
  constructor
  · rintro ⟨⟨k, t⟩, listed, rfl⟩
    obtain ⟨mem, passes⟩ := List.mem_filter.mp listed
    obtain ⟨eligible, priority⟩ := (Bool.and_eq_true _ _).mp passes
    have entry : c.task k = t := smGet_of_mem TaskEntry.reset rising mem
    rw [entry]
    exact ⟨(eligible_iff t).mp eligible, of_decide_eq_true priority⟩
  · rintro ⟨eligible, priority⟩
    have posted : c.task n ≠ TaskEntry.reset := fun e => by
      have := eligible.1
      rw [e] at this
      cases this
    refine ⟨(n, c.task n), List.mem_filter.mpr ⟨mem_of_smGet_ne posted, ?_⟩, rfl⟩
    rw [Bool.and_eq_true]
    exact ⟨(eligible_iff _).mpr eligible, decide_eq_true priority⟩

theorem eligibleAt_rising (rising : Spec.Rising c.tasks) (p : Nat) : (c.eligibleAt p).Pairwise (· < ·) :=
  List.pairwise_map.mpr (rising.filter _)

/-- The channel that a priority's eligible channels give. -/
def Core.pick (c : Core) (p : Nat) : Option (Nat × Nat) :=
  (((c.eligibleAt p).find? fun ch => decide ((c.rr.get (Fin.ofNat 4 p)).toNat < ch)).orElse fun _ => (c.eligibleAt p).head?).map fun ch => (p, ch)

theorem choose_eq (c : Core) : c.choose = (c.pick 3).orElse fun _ => (c.pick 2).orElse fun _ => (c.pick 1).orElse fun _ => c.pick 0 := rfl

theorem pick_none (rising : Spec.Rising c.tasks) {p : Nat} (none : ∀ n, Spec.eligible (c.task n) → (c.task n).priority.toNat ≠ p) :
    c.pick p = .none := by
  have empty : c.eligibleAt p = [] := List.eq_nil_iff_forall_not_mem.mpr fun n hn => by
    obtain ⟨eligible, priority⟩ := (mem_eligibleAt rising p).mp hn
    exact none n eligible priority
  unfold Core.pick
  rw [empty]
  rfl

theorem key_of_eligible (keys : ∀ x ∈ c.tasks, x.1 < 64) (eligible : Spec.eligible (c.task n)) : n < 64 :=
  keys _ (mem_of_smGet_ne (d := TaskEntry.reset) fun e => absurd (e ▸ eligible : Spec.eligible TaskEntry.reset).1 (by decide))

/-- The first channel above the pointer, or the first, is the one that R263 names. -/
theorem pick_chosen (rising : Spec.Rising c.tasks) (keys : ∀ x ∈ c.tasks, x.1 < 64) (chosen : Spec.Chosen c ch) :
    c.pick (c.task ch).priority.toNat = some ((c.task ch).priority.toNat, ch) := by
  obtain ⟨-, eligible, -, order⟩ := chosen
  have slot : Fin.ofNat 4 (c.task ch).priority.toNat = (c.task ch).priority.toFin := Fin.ext (Nat.mod_eq_of_lt (c.task ch).priority.isLt)
  have sorted := eligibleAt_rising rising (c.task ch).priority.toNat
  have listed := (mem_eligibleAt rising _).mpr ⟨eligible, rfl⟩
  have next (n : Nat) (hn : n ∈ c.eligibleAt (c.task ch).priority.toNat) :=
    have ⟨e, same⟩ := (mem_eligibleAt rising _).mp hn
    order n (key_of_eligible keys e) e (BitVec.eq_of_toNat_eq same)
  unfold Core.pick
  rw [slot]
  by_cases above : (c.rr.get (c.task ch).priority.toFin).toNat < ch
  · rw [find?_of_least sorted listed (decide_eq_true above) fun n hn passes => ?_]
    · rfl
    · have least := next n hn
      rw [if_pos above] at least
      exact least (of_decide_eq_true passes)
  · have below (n : Nat) (hn : n ∈ c.eligibleAt (c.task ch).priority.toNat) :
        n ≤ (c.rr.get (c.task ch).priority.toFin).toNat ∧ ch ≤ n := by
      have least := next n hn
      rwa [if_neg above] at least
    rw [List.find?_eq_none.mpr fun n hn => by simpa using (below n hn).1, head?_of_least sorted listed fun n hn => (below n hn).2]
    rfl

theorem choose_chosen (rising : Spec.Rising c.tasks) (keys : ∀ x ∈ c.tasks, x.1 < 64) (chosen : Spec.Chosen c ch) :
    c.choose = some ((c.task ch).priority.toNat, ch) := by
  have picked := pick_chosen rising keys chosen
  obtain ⟨-, -, highest, -⟩ := chosen
  have higher (p : Nat) (hp : (c.task ch).priority.toNat < p) : c.pick p = none := pick_none rising fun n eligible same => by
    have := highest n (key_of_eligible keys eligible) eligible
    omega
  have levels := (c.task ch).priority.isLt
  rw [choose_eq]
  obtain e | e | e | e : (c.task ch).priority.toNat = 3 ∨ (c.task ch).priority.toNat = 2 ∨ (c.task ch).priority.toNat = 1
      ∨ (c.task ch).priority.toNat = 0 := by omega
  · rw [e] at picked ⊢
    rw [picked]
    rfl
  · rw [e] at picked ⊢
    rw [higher 3 (by omega), picked]
    rfl
  · rw [e] at picked ⊢
    rw [higher 3 (by omega), higher 2 (by omega), picked]
    rfl
  · rw [e] at picked ⊢
    rw [higher 3 (by omega), higher 2 (by omega), higher 1 (by omega), picked]
    rfl

end

/-! ## The start of a task (R18, R264) -/

section

variable {s : State} {core j k ch : Nat}

theorem freeHart_eq (hj : j < 8) (free : (s.hartOf (8 * core + j)).run = .free)
    (lowest : ∀ i, i < j → (s.hartOf (8 * core + i)).run ≠ .free) : freeHart s core = some (8 * core + j) := by
  have rising : (hartsOf core).Pairwise (· < ·) := List.pairwise_map.mpr (List.pairwise_lt_range.imp fun lt => Nat.add_lt_add_left lt _)
  refine find?_of_least rising (List.mem_map.mpr ⟨j, List.mem_range.mpr hj, rfl⟩) (decide_eq_true free) fun k hk passes => ?_
  obtain ⟨i, -, rfl⟩ := List.mem_map.mp hk
  by_contra below
  exact lowest i (by omega) (of_decide_eq_true passes)

theorem task_setTask (c : Core) (ch n : Nat) (e : TaskEntry) : (c.setTask ch e).task n = if n = ch then e else c.task n := by
  unfold Core.task Core.setTask
  split
  · next same => rw [same, smGet_smSet_self]
  · next other => rw [smGet_smSet_ne _ _ other]

/-- The core whose scheduler has started a channel (R263). -/
def Core.started (c : Core) (ch : Nat) : Core :=
  { c.setTask ch { c.task ch with busy := true, pending := false } with
    rr := c.rr.set ((c.task ch).priority.toNat % 4) (BitVec.ofNat 6 ch) (Nat.mod_lt _ (by decide))
    part := { c.part with reported := false } }

theorem started_task (c : Core) (ch n : Nat) :
    (c.started ch).task n = if n = ch then { c.task ch with busy := true, pending := false } else c.task n :=
  task_setTask c ch n _

theorem started_rr (c : Core) (small : ch < 64) (p : Fin 4) :
    ((c.started ch).rr.get p).toNat = if p = (c.task ch).priority.toFin then ch else (c.rr.get p).toNat := by
  unfold Core.started
  dsimp only
  rw [Vector.get_eq_getElem, Vector.getElem_set, Nat.mod_eq_of_lt (c.task ch).priority.isLt]
  by_cases own : p = (c.task ch).priority.toFin
  · rw [if_pos own, if_pos (show (c.task ch).priority.toNat = p.val from (congrArg Fin.val own).symm)]
    exact Nat.mod_eq_of_lt small
  · rw [if_neg own, if_neg (show ¬ (c.task ch).priority.toNat = p.val from fun same => own (Fin.ext same.symm))]
    rfl

theorem startTask_eq (gang : (s.coreOf core).part.launch.isSome = true) (free : freeHart s core = some k)
    (choice : (s.coreOf core).choose = some ((((s.coreOf core).task ch).priority.toNat), ch)) :
    startTask s core = (s.setCoreOf core ((s.coreOf core).started ch)).setHartOf k
      ((s.hartOf k).atStart (s.coreOf core) ch ((s.coreOf core).task ch)) := by
  obtain ⟨id, launch⟩ := Option.isSome_iff_exists.mp gang
  unfold startTask
  dsimp only
  split
  · next id' k' p' ch' launch' free' choice' =>
    cases free.symm.trans free'
    cases choice.symm.trans choice'
    rfl
  · next none => exact (none _ _ _ _ launch free choice).elim

/-- The start values of x1 to x6 (R264). -/
theorem atStart_x (h : Hart) (c : Core) (small : ch < 64) (e : TaskEntry) (i : Fin 32) :
    ((h.atStart c ch e).x.get i).toNat = Spec.startX ch e c.part.gangid i.val := by
  unfold Hart.atStart Spec.startX
  dsimp only
  rw [Vector.get_eq_getElem, Vector.getElem_ofFn]
  have channel : (BitVec.ofNat 64 ch).toNat = ch := Nat.mod_eq_of_lt (by omega)
  split_ifs <;> simp [channel, BitVec.toNat_setWidth] <;> omega

end

theorem taskStart : Claims.TaskStart := by
  intro s core j ch hj c k e gang rising keys chosen free lowest
  have small : ch < 64 := chosen.1
  have answer : exec (.taskStart core) s = .next (startTask s core) := rfl
  rw [startTask_eq gang (freeHart_eq hj free lowest) (choose_chosen rising keys chosen)] at answer
  refine ⟨_, answer, rfl, fun n other => State.hartOf_setHartOf_ne _ _ other, fun n other => State.coreOf_setCoreOf_ne s _ other, ?_⟩
  rw [show ((s.setCoreOf core (c.started ch)).setHartOf k _).coreOf core = c.started ch from State.coreOf_setCoreOf_self ..]
  refine ⟨(started_task c ch ch).trans (if_pos rfl), fun n other => (started_task c ch n).trans (if_neg other), started_rr c small, rfl, rfl, ?_⟩
  rw [State.hartOf_setHartOf_self]
  exact ⟨rfl, rfl, atStart_x _ c small e, rfl, fun i _ => Vector.getElem_replicate i.isLt, by and_intros <;> rfl⟩

end Sys2Proof.Machine

/-! # Events of harts (O38) -/

namespace Sys2Proof.Machine

/-! ## One part of the machine changes -/

section

variable {s : State}

theorem hartBecomes_setHartOf (s : State) (k : Nat) (h : Hart) : Spec.HartBecomes s (s.setHartOf k h) k h :=
  ⟨State.hartOf_setHartOf_self .., fun _ other => State.hartOf_setHartOf_ne _ _ other, rfl⟩

theorem coreBecomes_setCoreOf (s : State) (k : Nat) (c : Core) : Spec.CoreBecomes s (s.setCoreOf k c) k c :=
  ⟨State.coreOf_setCoreOf_self .., fun _ other => State.coreOf_setCoreOf_ne _ _ other, rfl⟩

theorem live_of_runs {h : Hart} (runs : Spec.onTask h ∨ h.run = .firmware) : h.run.live = true := by
  obtain ⟨ch, task⟩ | firmware := runs
  · rw [task]
    rfl
  · rw [firmware]
    rfl

/-! ## Machine checks (R241) -/

theorem hartStateMachineCheck_pends (k : Nat) (b : Bool) (runs : Spec.onTask (s.hartOf k) ∨ (s.hartOf k).run = .firmware) :
    ∃ t, exec (.hartStateMachineCheck k b) s = .next t
      ∧ Spec.HartBecomes s t k { s.hartOf k with pending := (s.hartOf k).pending ++ [{ cause := if b then 0x163 else 0x161, tval := 0 }] } := by
  have answer : exec (.hartStateMachineCheck k b) s = .next (s.pend k (if b then 0x163 else 0x161) 0) :=
    congrArg Host.Outcome.next (if_pos (live_of_runs runs))
  exact ⟨_, answer, hartBecomes_setHartOf s k _⟩

/-! ## Budgets (R266 to R268) -/

theorem takeTrapAt_cur (s : State) (epc : Word) (t : Trap) (forceM : Bool) : (takeTrapAt s epc t forceM).cur = s.cur := by
  have left : s.unqueued.cur = s.cur := by rw [State.unqueued_eq]
  rw [takeTrapAt_eq]
  split
  · exact left
  · rw [afterHalt_bootTrap_eq]
    exact left

theorem hartOf_afterHalt_bootTrap (u : State) (j : Nat) : u.bootTrap.afterHalt.hartOf j = u.hartOf j := by
  rw [afterHalt_bootTrap_eq]
  rfl

/-- A trap that the machine forces to M leaves the hart and the rest as entry to M does (R237, R268). -/
theorem takeTrapAt_forced (s : State) (epc : Word) (t : Trap) :
    let v := takeTrapAt s epc t true
    v.h = s.trapping.enterM (causeTaken s t.cause) t.tval epc t.restartWord ∧ (∀ j, j ≠ s.cur → v.hartOf j = s.hartOf j) ∧ v.mem = s.mem := by
  intro v
  have entered : v = _ := takeTrapAt_M s t epc true fun _ => rfl
  have cur : s.unqueued.cur = s.cur := by rw [State.unqueued_eq]
  have mem : s.unqueued.mem = s.mem := by rw [State.unqueued_eq]
  have harts (j : Nat) := hartOf_afterHalt_bootTrap (s.unqueued.setH (s.trapping.enterM (causeTaken s t.cause) t.tval epc t.restartWord)) j
  refine ⟨?_, fun j other => ?_, ?_⟩
  · have own := harts s.cur
    rw [← entered] at own
    unfold State.h
    rw [show v.cur = s.cur from takeTrapAt_cur .., own, ← cur]
    exact State.h_setH ..
  · rw [entered, harts, State.hartOf_setH_ne s.unqueued _ (by rw [cur]; exact other), hartOf_unqueued]
  · rw [entered, afterHalt_bootTrap_eq]
    exact mem

theorem budgetDue_of_expired {k : Nat} (task : Spec.onTask (s.hartOf k)) (level : (s.hartOf k).trap.status.priv ≠ 3) (thawed : frozen s k = false)
    (expired : (s.hartOf k).wait.limit.toNat ≤ (s.hartOf k).wait.count.toNat) : budgetDue s k = true := by
  obtain ⟨ch, run⟩ := task
  unfold budgetDue counting
  dsimp only
  rw [run, decide_eq_true level, thawed, decide_eq_true expired]
  rfl

/-- An expiry is due at a hart that waits for nothing. -/
theorem budgetExpiry_eq {k : Nat} (due : budgetDue s k = true) (reason : (s.hartOf k).wait.reason = 0) (pending : (s.hartOf k).pending = []) :
    exec (.budgetExpiry k) s = .next (s.atHart k budgetTrap) := by
  show Host.Outcome.next (if budgetDue s k && decide ((s.hartOf k).wait.reason = 0) && (s.hartOf k).pending.isEmpty then _ else s) = _
  rw [due, reason, pending]
  rfl

theorem Trapped.others {t : State} {c : BitVec 9} {tval epc restart : Word} (taken : Trapped s t c tval epc restart) :
    ∀ k, k ≠ s.cur → t.hartOf k = s.hartOf k := by
  obtain ⟨-, -, -, -, -, -, -, -, -, -, -, -, -, -, -, others, -⟩ := taken
  exact others

/-- The hart after its budget's trap: its grace has begun (R268). -/
def Hart.grace (h : Hart) : Hart := { h with wait := { h.wait with expired := true, count := 0, limit := 65536 } }

/-- The trap of an expired budget, from the state in which the hart executes. -/
def expiryTrap (u : State) : State :=
  takeTrapAt u u.pc (Trap.of 0x100 (if u.h.wait.expired then 65536 else u.h.wait.budget.setWidth 64)) u.h.wait.expired

theorem budgetTrap_eq (u : State) : budgetTrap u = (expiryTrap u).setH (expiryTrap u).h.grace := rfl

theorem atHart_budgetTrap (s : State) (k : Nat) :
    let v := expiryTrap { s with cur := k }
    (s.atHart k budgetTrap).hartOf k = v.h.grace ∧ (∀ j, j ≠ k → (s.atHart k budgetTrap).hartOf j = v.hartOf j)
      ∧ s.atHart k budgetTrap = { v with cur := s.cur, harts := (s.atHart k budgetTrap).harts } := by
  intro v
  have cur : v.cur = k := takeTrapAt_cur ..
  have made : s.atHart k budgetTrap = { v.setHartOf k v.h.grace with cur := s.cur } := by
    show { v.setHartOf v.cur v.h.grace with cur := s.cur } = _
    rw [cur]
  rw [made]
  exact ⟨State.hartOf_setHartOf_self v k _, fun j other => State.hartOf_setHartOf_ne v _ other, rfl⟩

/-- The first expiry traps as any cause does (R268). -/
theorem budgetExpiry_first {k : Nat} (hart : s.lane = none) (first : (s.hartOf k).wait.expired = false) :
    Trapped { s with cur := k } (expiryTrap { s with cur := k }) 0x100 ((s.hartOf k).wait.budget.setWidth 64) (s.hartOf k).pc 0 := by
  have pc : ({ s with cur := k } : State).pc = (s.hartOf k).pc := pc_of_hart _ hart
  have expired : ({ s with cur := k } : State).h.wait.expired = false := first
  unfold expiryTrap
  rw [expired, pc]
  exact takeTrapAt_trapped { s with cur := k } (Trap.of 0x100 ((s.hartOf k).wait.budget.setWidth 64)) (s.hartOf k).pc

/-- The second expiry is taken at M whatever `tdeleg` holds (R268). -/
theorem budgetExpiry_second {k : Nat} (hart : s.lane = none) (again : (s.hartOf k).wait.expired = true) :
    let v := expiryTrap { s with cur := k }
    (∃ w r, v.h = { (s.hartOf k).atTrap with
        pc := (s.hartOf k).trap.mtvec, trap := trapRegsM (s.hartOf k).trap 0x100 65536 (s.hartOf k).pc 0, wait := w, run := r })
      ∧ (∀ j, j ≠ k → v.hartOf j = s.hartOf j) ∧ v.mem = s.mem := by
  have pc : ({ s with cur := k } : State).pc = (s.hartOf k).pc := pc_of_hart _ hart
  have expired : ({ s with cur := k } : State).h.wait.expired = true := again
  have own : ({ s with cur := k } : State).trapping = s.hartOf k := by
    unfold State.trapping
    rw [show ({ s with cur := k } : State).lane = none from hart]
    rfl
  obtain ⟨entered, others, mem⟩ := takeTrapAt_forced { s with cur := k } (s.hartOf k).pc (Trap.of 0x100 65536)
  rw [trapping_enterM, own] at entered
  unfold expiryTrap
  rw [expired, pc]
  exact ⟨⟨_, _, entered⟩, others, mem⟩

/-! ## Freeze marks and quiescence (R271, R273) -/

theorem fhold_iff (e : TaskEntry) : e.fhold = true ↔ e.preempt = true ∨ e.siphon = true := by
  unfold TaskEntry.fhold
  rw [Bool.or_eq_true]

theorem task_iff (h : Hart) : (match h.run with | .task _ => true | _ => false) = true ↔ Spec.onTask h := by
  unfold Spec.onTask
  cases h.run <;> simp

theorem inService_iff (h : Hart) : h.inService = true ↔ Spec.onTask h ∧ h.trap.status.priv = 3 := by
  unfold Hart.inService
  rw [Bool.and_eq_true, and_comm]
  exact and_congr (task_iff h) decide_eq_true_iff

theorem exists_hartsOf (site : Nat) (p : Nat → Prop) : (∃ k ∈ hartsOf site, p k) ↔ ∃ j, j < 8 ∧ p (8 * site + j) := by
  unfold hartsOf
  simp only [List.mem_map, List.mem_range, exists_exists_and_eq_and]

theorem marked_iff (s : State) (peer : BitVec 32) : marked s peer = true ↔
    ∃ site, siteOf s peer = some site ∧ ((∃ e ∈ (s.coreOf site).tasks, e.2.preempt = true ∨ e.2.siphon = true)
      ∨ ∃ j, j < 8 ∧ Spec.onTask (s.hartOf (8 * site + j)) ∧ (s.hartOf (8 * site + j)).trap.status.priv = 3) := by
  unfold marked
  cases siteOf s peer with
  | none => simp
  | some site => simp only [Bool.or_eq_true, List.any_eq_true, fhold_iff, inService_iff, exists_hartsOf site fun k =>
      Spec.onTask (s.hartOf k) ∧ (s.hartOf k).trap.status.priv = 3, Option.some.injEq, exists_eq_left']

theorem markHolds_iff (s : State) (peer : BitVec 32) (mark : Bool) : markHolds s peer mark = true ↔
    coordPkg peer ≠ s.hostif.regs.pkgid.toNat ∨ (mark = true ↔ marked s peer = true) := by
  unfold markHolds
  rw [Bool.or_eq_true, decide_eq_true_iff, decide_eq_true_iff, Bool.eq_iff_iff]
  exact or_congr Iff.rfl iff_comm

theorem mem_marks (marks : List (BitVec 32)) (peer p : BitVec 32) (mark : Bool) :
    p ∈ (if mark then marks.filter (· ≠ peer) ++ [peer] else marks.filter (· ≠ peer)) ↔ if p = peer then mark = true else p ∈ marks := by
  cases mark <;> by_cases own : p = peer <;> simp [own]

theorem quiescent_of (core : Nat) (quiet : Spec.Quiescent s core) : quiescent s core = true := by
  obtain ⟨tasks, idle, sluice, still⟩ := quiet
  have noTask : noTask s core = true := by
    unfold noTask
    rw [List.all_eq_true]
    intro k hk
    obtain ⟨j, hj, rfl⟩ := List.mem_map.mp hk
    have free := mt (task_iff _).mp (tasks j (List.mem_range.mp hj))
    cases run : (s.hartOf (8 * core + j)).run with
    | task ch => rw [run] at free; exact absurd rfl free
    | _ => rfl
  have idleChannels : (s.coreOf core).idleChannels = true := by
    unfold Core.idleChannels
    rw [List.all_eq_true]
    intro e he
    obtain ⟨ineligible, owesNot⟩ := idle e he
    rw [Bool.and_eq_true, Bool.not_eq_true', Bool.not_eq_true', ← Bool.not_eq_true, ← Bool.not_eq_true, eligible_iff]
    refine ⟨ineligible, fun owes => owesNot ?_⟩
    unfold TaskEntry.owes TaskEntry.fhold at owes
    simp only [Bool.and_eq_true, Bool.not_eq_true', Bool.or_eq_false_iff] at owes
    tauto
  have quietSluice : (s.coreOf core).sluice.quiet = true := by
    unfold Sluice.quiet
    rw [List.all_eq_true]
    intro c hc
    obtain ⟨i, hi, rfl⟩ := Vector.mem_iff_getElem.mp (Vector.mem_toList_iff.mp hc)
    exact List.isEmpty_iff.mpr (sluice ⟨i, hi⟩)
  have notMoving : moving s (s.coreOf core).coreid = false := by
    unfold moving
    split
    · next m move => exact decide_eq_false (still m move)
    · rfl
  unfold quiescent
  simp only [noTask, idleChannels, quietSluice, notMoving, Bool.not_false, Bool.and_true]

end

theorem freezeMark (s : State) (core : Nat) (peer : BitVec 32) (mark : Bool) :
    exec (.freezeMarkArrival core peer mark) s = .next (if markHolds s peer mark then s.setCoreOf core { s.coreOf core with
        marks := if mark then (s.coreOf core).marks.filter (· ≠ peer) ++ [peer] else (s.coreOf core).marks.filter (· ≠ peer) } else s) := rfl

theorem hartEvents : Claims.HartEvents := by
  intro s k h
  refine ⟨fun b runs => hartStateMachineCheck_pends k b runs, fun hart task level thawed expired reason pending => ?_, fun core peer mark => ?_,
    fun core gang quiet => ?_⟩
  · intro u
    have answer := budgetExpiry_eq (budgetDue_of_expired task level thawed expired) reason pending
    obtain ⟨own, others, whole⟩ := atHart_budgetTrap s k
    refine ⟨fun first => ?_, fun again => ?_⟩
    · have trapped := budgetExpiry_first hart first
      have executing : (expiryTrap u).h = (expiryTrap u).hartOf k := congrArg (expiryTrap u).hartOf (takeTrapAt_cur ..)
      have rest : ∀ j, j ≠ k → (expiryTrap u).hartOf j = s.hartOf j := trapped.others
      refine ⟨_, _, trapped, answer, whole, ?_, fun j other => (others j other).trans (rest j other)⟩
      rw [own, executing]
      rfl
    · obtain ⟨⟨w, r, hartAt⟩, rest, mem⟩ := budgetExpiry_second hart again
      rw [hartAt] at own
      refine ⟨_, answer, ?_⟩
      rw [own]
      refine ⟨rfl, rfl, rfl, rfl, rfl, rfl, fun j other => (others j other).trans (rest j other), ?_⟩
      rw [whole]
      exact mem
  · dsimp only
    rw [freezeMark, ← marked_iff, ← markHolds_iff]
    refine ⟨fun due => ?_, fun due => ?_⟩
    · rw [if_pos due]
      exact ⟨_, _, rfl, coreBecomes_setCoreOf s core _, fun p => mem_marks _ peer p mark⟩
    · rw [if_neg due]
  · have answer : exec (.coreCompleteReport core) s
        = .next (s.setCoreOf core { s.coreOf core with part := { (s.coreOf core).part with reported := true } }) :=
      congrArg Host.Outcome.next (if_pos (by rw [gang, quiescent_of core quiet]; rfl))
    exact ⟨_, answer, coreBecomes_setCoreOf s core _⟩

/-! ## Waiting instructions (R245, R268) -/

theorem waitBeforeCause : Claims.WaitBeforeCause := by
  intro s t u hart task noFirmware noRom noRegion reason due answer
  obtain ⟨ch, run⟩ := task
  have turn : runHart s = .next (if completed s u then u else t) := by
    unfold runHart
    rw [run, noFirmware, noRom, due]
    show runDue s t = _
    unfold runDue
    rw [if_pos ⟨reason, by rw [noRegion]; rfl⟩, answer]
  have completes : completed s u = true ↔ u.h.run = .free ∨ (u.h.wait.reason = 0 ∧ u.h.pc = s.h.pc + 4 ∧ u.h.trap = s.h.trap) := by
    unfold completed
    simp only [Bool.or_eq_true, Bool.and_eq_true, decide_eq_true_iff, and_assoc]
  rw [turn]
  refine ⟨fun done => ?_, fun notDone busy => ?_⟩
  · rw [if_pos (completes.mpr (.inr done))]
  · rw [if_neg fun c => (completes.mp c).elim busy notDone]

end Sys2Proof.Machine

/-! # Starts of gangs (O38) -/

namespace Sys2Proof.Machine

/-! ## Reads of a context (R378, R379) -/

section

variable {s t : State}

theorem ctxPlace_memoryOnly (a : MemoryOnly s t) (cx va acc) : MemoryOnly s (ctxPlace t cx va acc).2 := by
  unfold ctxPlace
  split
  · exact a
  · split
    · exact a
    · exact walkUpdate_memoryOnly a _ acc

theorem ctxReadIn_memoryOnly (a : MemoryOnly s t) (cx va n) : MemoryOnly s (ctxReadIn t cx va n).2 := by
  have placed := ctxPlace_memoryOnly a cx va 0
  unfold ctxReadIn
  split
  · next e => rw [e] at placed; exact placed
  · next e =>
    rw [e] at placed
    split
    · exact placed
    · exact placed
  · next e => rw [e] at placed; exact placed
  · next e => rw [e] at placed; exact placed

theorem ctxReadFrom_memoryOnly (cx : Ctx) (f : Nat) : ∀ {t : State}, MemoryOnly s t → ∀ va n, MemoryOnly s (ctxReadFrom cx f t va n).2 := by
  induction f with
  | zero => exact fun a _ _ => a
  | succ f ih =>
    intro t a va n
    unfold ctxReadFrom
    dsimp only
    split
    · exact a
    · have first := ctxReadIn_memoryOnly a cx va (min n (4096 - va.toNat % 4096))
      split
      · next e => rw [e] at first; exact first
      · next l u e =>
        rw [e] at first
        have rest := ih first (va + BitVec.ofNat 64 (min n (4096 - va.toNat % 4096))) (n - min n (4096 - va.toNat % 4096))
        split
        · next e' => rw [e'] at rest; exact rest
        · next e' => rw [e'] at rest; exact rest

theorem handleTasks_memoryOnly (a : MemoryOnly s t) (cx h) : MemoryOnly s (handleTasks t cx h).2 := ctxReadFrom_memoryOnly cx _ a _ _

theorem gangScratch_memoryOnly (a : MemoryOnly s t) (cx h) : MemoryOnly s (gangScratch t cx h).2 := by
  refine List.foldlRecOn _ _ (motive := fun b : Memory × State => MemoryOnly s b.2) a ?_
  rintro ⟨m, u⟩ b p -
  dsimp only
  split
  · have read := ctxReadFrom_memoryOnly cx (65536 / 4096 + 2) b (h.paneAt p) 65536
    split
    · next e => rw [show ctxReadFrom cx _ u _ _ = _ from e] at read; exact read
    · next e => rw [show ctxReadFrom cx _ u _ _ = _ from e] at read; exact read
  · exact b

/-- A gang without pane images starts with a scratchpad of zeros (R274). -/
theorem gangScratch_zero (t : State) (cx : Ctx) {h : Handle} (panes : h.panes = 0) : (gangScratch t cx h).1 = [] := by
  have clear (p : Nat) : bitOf h.panes p = false := by
    unfold bitOf
    rw [panes, Nat.zero_div]
    rfl
  refine List.foldlRecOn _ _ (motive := fun b : Memory × State => b.1 = []) rfl ?_
  rintro ⟨m, u⟩ b p -
  dsimp only
  rw [clear]
  exact b

/-! ## The core and its harts (R95, R260, R274) -/

/-- The core that a launch starts, from what it held, its task table, its scratchpad and its supervisor's values. -/
def Core.launched (c : Core) (l : Launch) (table : List Byte) (sp : Memory) (sup : Word × Word × BitVec 11) : Core :=
  { c with
    caches := { c.caches with l1d := [], l1i := [] }
    tasks := (List.range 64).map fun i => (i, tableEntry l.base table (c.task i) i)
    rr := Vector.replicate 4 63
    mail := Mailbox.reset
    sluice := Sluice.reset
    weir := { Weir.reset with wmember := l.wmember, gangSet := l.wmember }
    part := { gangid := l.gangid, launch := some l.id, lflags := l.lflags, reported := false
              supTvec := sup.1, supScratch := sup.2.1, supDeleg := sup.2.2 }
    sp := sp
    spBad := [] }

/-- The hart that a launch leaves to the gang's tasks. -/
def Launch.hart (l : Launch) (h : Hart) : Hart :=
  { h with convoy := [], fresh := true, trap := { h.trap with status := { h.trap.status with mmstrong := l.lflags.getLsbD 4 } } }

/-- The harts of a list in turn become what `f` makes of them. -/
def State.mapHarts (s : State) (f : Hart → Hart) (ks : List Nat) : State := ks.foldl (fun s k => s.setHartOf k (f (s.hartOf k))) s

theorem mapHarts_eq (f : Hart → Hart) (ks : List Nat) : ∀ s : State, s.mapHarts f ks = { s with harts := (s.mapHarts f ks).harts } := by
  induction ks with
  | nil => exact fun _ => rfl
  | cons k r ih => exact fun s => ih (s.setHartOf k (f (s.hartOf k)))

theorem hartOf_mapHarts (f : Hart → Hart) {ks : List Nat} (once : ks.Nodup) (k : Nat) :
    ∀ s : State, (s.mapHarts f ks).hartOf k = if k ∈ ks then f (s.hartOf k) else s.hartOf k := by
  induction ks with
  | nil => exact fun _ => rfl
  | cons j r ih =>
    intro s
    obtain ⟨fresh, rest⟩ := List.nodup_cons.mp once
    refine (ih rest (s.setHartOf j (f (s.hartOf j)))).trans ?_
    by_cases own : k = j
    · rw [own, if_neg fresh, if_pos List.mem_cons_self, State.hartOf_setHartOf_self]
    · rw [State.hartOf_setHartOf_ne _ _ own]
      simp [own]

theorem noteCleared_eq (before : Core) (s : State) (site : Nat) : noteCleared before s site = { s with basins := (noteCleared before s site).basins } := by
  have all (l : List Nat) (u : State) :
      l.foldl (fun s ch => if before.postable ch then s else noteFree s site ch) u
        = { u with basins := (l.foldl (fun s ch => if before.postable ch then s else noteFree s site ch) u).basins } := by
    induction l generalizing u with
    | nil => rfl
    | cons ch r ih =>
      have one : (if before.postable ch then u else noteFree u site ch)
          = { u with basins := (if before.postable ch then u else noteFree u site ch).basins } := by
        unfold noteFree
        dsimp only
        split
        · rfl
        · split <;> rfl
      rw [List.foldl_cons, ih, one]
  exact all _ s

theorem coreOf_mapHarts (s : State) (f : Hart → Hart) (ks : List Nat) (k : Nat) : (s.mapHarts f ks).coreOf k = s.coreOf k := by
  rw [mapHarts_eq]
  rfl

theorem launches_mapHarts (s : State) (f : Hart → Hart) (ks : List Nat) : (s.mapHarts f ks).launches = s.launches := by rw [mapHarts_eq]

theorem coreOf_noteCleared (before : Core) (s : State) (site k : Nat) : (noteCleared before s site).coreOf k = s.coreOf k := by
  rw [noteCleared_eq]
  rfl

theorem hartOf_noteCleared (before : Core) (s : State) (site k : Nat) : (noteCleared before s site).hartOf k = s.hartOf k := by
  rw [noteCleared_eq]
  rfl

theorem launches_noteCleared (before : Core) (s : State) (site : Nat) : (noteCleared before s site).launches = s.launches := by
  rw [noteCleared_eq]

/-- The state in which a launch finds its core: the stores of the gang before are performed, its weir channels are free and its tables are read. -/
def launchState (s : State) (site : Nat) (l : Launch) : State :=
  let u := freeWeirs (flushAll s site) l
  (gangScratch (handleTasks u (u.ctx l.ctx) l.handle).2 (u.ctx l.ctx) l.handle).2

theorem launchState_memoryOnly (s : State) (site : Nat) (l : Launch) : MemoryOnly (freeWeirs (flushAll s site) l) (launchState s site l) :=
  gangScratch_memoryOnly (handleTasks_memoryOnly (MemoryOnly.refl _) ..) ..

theorem runAhead_eq (s : State) (site : Nat) (l : Launch) : ∃ before table sp sup, (l.panes = 0 → sp = [])
    ∧ let c := ((launchState s site l).coreOf site).launched l table sp sup
      runAhead s site l = (noteCleared before ((launchState s site l).setCoreOf site (c.post 0 c.coreid 0 0 0)) site).mapHarts l.hart (hartsOf site) := by
  refine ⟨_, _, _, _, fun panes => ?_, rfl⟩
  exact gangScratch_zero _ _ panes

theorem hartOf_setCoreOf (u : State) (j k : Nat) (c : Core) : (u.setCoreOf j c).hartOf k = u.hartOf k := rfl

/-- What a launch leaves of harts, cores and launches. -/
theorem runAhead_leaves (s : State) (site : Nat) (l : Launch) : ∃ table sp sup, (l.panes = 0 → sp = [])
    ∧ (let c := ((launchState s site l).coreOf site).launched l table sp sup
       ∀ k, (runAhead s site l).coreOf k = if k = site then c.post 0 c.coreid 0 0 0 else (launchState s site l).coreOf k)
    ∧ (∀ k, (runAhead s site l).hartOf k = if k ∈ hartsOf site then l.hart (s.hartOf k) else s.hartOf k)
    ∧ (runAhead s site l).launches = s.launches := by
  obtain ⟨before, table, sp, sup, panes, made⟩ := runAhead_eq s site l
  have once : (hartsOf site).Nodup := List.Nodup.map (fun i j e => by simpa using e) List.nodup_range
  have flushed : MemoryOnly s (flushAll s site) := performWhere_memoryOnly (MemoryOnly.refl s) ..
  have read := launchState_memoryOnly s site l
  refine ⟨table, sp, sup, panes, fun k => ?_, fun k => ?_, ?_⟩
  · rw [made, coreOf_mapHarts, coreOf_noteCleared]
    by_cases own : k = site
    · rw [if_pos own, own, State.coreOf_setCoreOf_self]
    · rw [if_neg own, State.coreOf_setCoreOf_ne _ _ own]
  · have same : (launchState s site l).hartOf k = s.hartOf k := (read.hartOf k).trans (flushed.hartOf k)
    rw [made, hartOf_mapHarts l.hart once, hartOf_noteCleared, hartOf_setCoreOf, same]
  · rw [made, launches_mapHarts, launches_noteCleared]
    exact read.launches.trans flushed.launches

/-! ## Tasks of the gang (R95, R260) -/

variable (c : Core) (l : Launch) (table : List Byte) (sp : Memory) (sup : Word × Word × BitVec 11)

theorem launched_task {n : Nat} (hn : n < 64) : (c.launched l table sp sup).task n = tableEntry l.base table (c.task n) n := by
  have rising : Spec.Rising ((List.range 64).map fun i => (i, tableEntry l.base table (c.task i) i)) :=
    List.pairwise_map.mpr List.pairwise_lt_range
  exact smGet_of_mem TaskEntry.reset rising (List.mem_map.mpr ⟨n, List.mem_range.mpr hn, rfl⟩)

theorem tableEntry_aligned (base : Word) (old : TaskEntry) (n : Nat) : (tableEntry base table old n).entry.toNat % 4 = 0 := by
  unfold tableEntry
  dsimp only
  split
  · rw [and_align_eq, Spec.wordAligned, BitVec.toNat_ofNat]
    omega
  · rfl

/-- Channel 0 of a launched core is posted with the core's coordinate; no other channel is (R274). -/
theorem launched_post_task {n : Nat} (hn : n < 64) :
    let d := c.launched l table sp sup
    (d.post 0 d.coreid 0 0 0).task n = if n = 0
      then { tableEntry l.base table (c.task n) n with pending := true, s2 := c.coreid, s3 := 0, s4 := 0, s5 := 0 }
      else tableEntry l.base table (c.task n) n := by
  intro d
  have first : d.task 0 = tableEntry l.base table (c.task 0) 0 := launched_task c l table sp sup (by decide)
  have posts : d.post 0 d.coreid 0 0 0
      = d.setTask 0 { tableEntry l.base table (c.task 0) 0 with pending := true, s2 := c.coreid, s3 := 0, s4 := 0, s5 := 0 } := by
    unfold Core.post
    rw [first]
    rfl
  rw [posts, task_setTask]
  by_cases zero : n = 0
  · rw [if_pos zero, if_pos zero, zero]
  · rw [if_neg zero, if_neg zero]
    exact launched_task c l table sp sup hn

/-- A post touches the task table alone. -/
theorem post_eq (ch : Nat) (s2 : BitVec 32) (s3 : BitVec 5) (s4 s5 : BitVec 32) :
    c.post ch s2 s3 s4 s5 = { c with tasks := (c.post ch s2 s3 s4 s5).tasks } := by
  unfold Core.post
  dsimp only
  split <;> rfl

/-- What a launch sets of its core but the tasks (R274). -/
theorem launched_post_fields (ch : Nat) (s2 : BitVec 32) (s3 : BitVec 5) (s4 s5 : BitVec 32) {d : Core}
    (made : d = (c.launched l table sp sup).post ch s2 s3 s4 s5) :
    d.rr = Vector.replicate 4 63 ∧ d.mail = Mailbox.reset ∧ d.sluice = Sluice.reset
      ∧ d.weir = { Weir.reset with wmember := l.wmember, gangSet := l.wmember } ∧ d.part.gangid = l.gangid ∧ d.part.launch = some l.id
      ∧ d.part.lflags = l.lflags ∧ d.part.reported = false ∧ d.caches.l1d = [] ∧ d.caches.l1i = [] ∧ d.spBad = [] ∧ d.sp = sp
      ∧ d.coreid = c.coreid := by
  rw [post_eq] at made
  subst made
  and_intros <;> rfl

end

/-! ## Weir channels (R275) -/

section

variable {s : State} {core : Nat} {l : Launch}

theorem freeWeirs_coreid (s : State) (l : Launch) (k : Nat) : ((freeWeirs s l).coreOf k).coreid = (s.coreOf k).coreid := by
  refine smGet_map_rel (R := fun c c' => c'.coreid = c.coreid) rfl (fun e => ?_) (fun e => ?_) k s.cores
  · split <;> rfl
  · split <;> rfl

theorem freeWeirs_frees (s : State) (l : Launch) (k : Nat) (other : (s.coreOf k).part.launch ≠ some l.id) :
    ((freeWeirs s l).coreOf k).weir.wmember &&& l.wmember = 0 := by
  refine smGet_map_rel (R := fun c c' => c.part.launch ≠ some l.id → c'.weir.wmember &&& l.wmember = 0) (fun _ => BitVec.zero_and)
    (fun e => ?_) (fun e => ?_) k s.cores other
  · split <;> rfl
  · intro other
    rw [if_neg other]
    show (e.2.weir.wmember &&& ~~~l.wmember) &&& l.wmember = 0
    rw [BitVec.and_assoc, BitVec.and_comm (~~~l.wmember), BitVec.and_not_self]
    exact BitVec.and_zero

theorem launchState_coreid (s : State) (site : Nat) (l : Launch) (k : Nat) : ((launchState s site l).coreOf k).coreid = (s.coreOf k).coreid := by
  obtain ⟨_, _, read⟩ := (launchState_memoryOnly s site l).coreOf k
  obtain ⟨_, _, flushed⟩ := (performWhere_memoryOnly (MemoryOnly.refl s) site fun _ => true).coreOf k
  rw [read]
  refine (freeWeirs_coreid (flushAll s site) l k).trans ?_
  rw [show (flushAll s site).coreOf k = _ from flushed]

theorem launchState_frees (s : State) (site : Nat) (l : Launch) (k : Nat) (other : (s.coreOf k).part.launch ≠ some l.id) :
    ((launchState s site l).coreOf k).weir.wmember &&& l.wmember = 0 := by
  obtain ⟨_, _, read⟩ := (launchState_memoryOnly s site l).coreOf k
  obtain ⟨_, _, flushed⟩ := (performWhere_memoryOnly (MemoryOnly.refl s) site fun _ => true).coreOf k
  rw [read]
  refine freeWeirs_frees (flushAll s site) l k ?_
  rw [show (flushAll s site).coreOf k = _ from flushed]
  exact other

/-! ## The launch that starts (R274, R382) -/

variable {before after : List Launch}

/-- The oldest launch that names the core starts it. -/
theorem startable_eq (v : BitVec 32) (launches : s.launches = before ++ l :: after) (older : ∀ e ∈ before, v ∉ e.toStart) (names : v ∈ l.toStart)
    (active : (s.ctx l.ctx).st = .active) (free : weirBusy s l = false) : startable s v = some l := by
  unfold startable
  rw [launches, List.find?_append, List.find?_eq_none.mpr fun e he => by simp [older e he]]
  simp [names, active, free]

/-- The core leaves the cores that the launch has yet to start, and no other launch changes. -/
theorem map_toStart (v : BitVec 32) (ids : ∀ e ∈ before ++ after, e.id ≠ l.id) :
    (before ++ l :: after).map (fun e => if e.id = l.id then { e with toStart := e.toStart.filter (· ≠ v) } else e)
      = before ++ { l with toStart := l.toStart.filter (· ≠ v) } :: after := by
  have keep (r : List Launch) (other : ∀ e ∈ r, e.id ≠ l.id) :
      r.map (fun e => if e.id = l.id then { e with toStart := e.toStart.filter (· ≠ v) } else e) = r :=
    (List.map_congr_left fun e he => if_neg (other e he)).trans (List.map_id' r)
  rw [List.map_append, List.map_cons, if_pos rfl, keep before fun e he => ids e (List.mem_append_left _ he),
    keep after fun e he => ids e (List.mem_append_right _ he)]

end

/-- A core that belongs to no gang starts the launch that the scheduler names. -/
theorem execRunAheadStart_eq {s : State} {core : Nat} {l : Launch} (gang : (s.coreOf core).part.launch = none)
    (valid : (s.coreOf core).asg.valid = true) (spare : (s.coreOf core).asg.spare = false)
    (start : startable s (s.coreOf core).coreid = some l) :
    exec (.runAheadStart core) s = .next (runAhead { s with launches := s.launches.map fun e =>
      if e.id = l.id then { e with toStart := e.toStart.filter (· ≠ (s.coreOf core).coreid) } else e } core l) := by
  show execRunAheadStart core s = _
  unfold execRunAheadStart
  dsimp only
  rw [gang, valid, spare, start]
  rfl

theorem runAheadStart : Claims.RunAheadStart := by
  intro s core before after l c gang valid spare launches older ids names active free
  have answer := execRunAheadStart_eq gang valid spare (startable_eq c.coreid launches older names active free)
  rw [launches, map_toStart c.coreid ids] at answer
  obtain ⟨u, updated⟩ : ∃ u : State, u = { s with launches := before ++ { l with toStart := l.toStart.filter (· ≠ c.coreid) } :: after } := ⟨_, rfl⟩
  have cores (k : Nat) : u.coreOf k = s.coreOf k := by rw [updated]; rfl
  have harts (k : Nat) : u.hartOf k = s.hartOf k := by rw [updated]; rfl
  obtain ⟨table, sp, sup, panes, leftCores, leftHarts, leftLaunches⟩ := runAhead_leaves u core l
  rw [← updated] at answer
  have coreid : ((launchState u core l).coreOf core).coreid = c.coreid := (launchState_coreid u core l core).trans (by rw [cores])
  have leaves (j : Nat) (other : j ≠ core) (gangs : (s.coreOf j).part.launch ≠ some l.id) : ((launchState u core l).coreOf j).weir.wmember &&& l.wmember = 0 :=
    launchState_frees u core l j (by rw [cores]; exact gangs)
  have own := (leftCores core).trans (if_pos rfl)
  have tasks (n : Nat) (hn : n < 64) := (congrArg (Core.task · n) own).trans
    (launched_post_task ((launchState u core l).coreOf core) l table sp sup hn)
  rw [coreid] at tasks
  obtain ⟨rr, mail, sluice, weir, gangid, launch, lflags, reported, l1d, l1i, spBad, spad, id⟩ := launched_post_fields _ l table sp sup _ _ _ _ _ own
  refine ⟨_, answer, leftLaunches.trans (by rw [updated]), ?_, fun j other gangs => ?_, fun j hj => ?_, fun k other => ?_⟩
  · intro d
    have first : d.task 0 = _ := (tasks 0 (by decide)).trans (if_pos rfl)
    rw [first]
    refine ⟨rr, mail, sluice, weir, gangid, launch, lflags, reported, l1d, l1i, spBad, fun none => spad.trans (panes none), rfl, rfl, rfl, rfl, rfl,
      fun n hn other => ?_, fun n hn => ?_, fun n hn => ?_, id.trans coreid⟩
    · rw [show d.task n = _ from tasks n hn, if_neg other]
      rfl
    · rw [show d.task n = _ from tasks n hn]
      split <;> exact ⟨rfl, rfl⟩
    · rw [show d.task n = _ from tasks n hn]
      have aligned := tableEntry_aligned table l.base (((launchState u core l).coreOf core).task n) n
      split <;> exact aligned
  · rw [leftCores, if_neg other]
    exact leaves j other gangs
  · have mine : 8 * core + j ∈ hartsOf core := List.mem_map.mpr ⟨j, List.mem_range.mpr hj, rfl⟩
    rw [leftHarts, if_pos mine, harts]
    exact ⟨rfl, rfl, rfl⟩
  · have foreign : k ∉ hartsOf core := fun mem => by
      obtain ⟨j, hj, rfl⟩ := List.mem_map.mp mem
      have := List.mem_range.mp hj
      omega
    rw [leftHarts, if_neg foreign, harts]

/-- Settles O38: the scheduler's choice, an expiry's trap, a freeze mark and a launch each leave the state that their rules name. -/
theorem tasksAndHarts : Obligations.TasksAndHarts := ⟨taskStart, hartEvents, waitBeforeCause, runAheadStart⟩

end Sys2Proof.Machine

/-! # Exact accumulation (O27) -/

namespace Sys2Proof.Machine

/-! ## Sums of mantissas and powers of two (R71) -/

/-- The rational that a mantissa and a power of two stand for. -/
def dyadic (p : Int × Int) : Rat := (p.1 : Rat) * (2 : Rat) ^ p.2

/-- A mantissa moved to a lower power of two keeps its value. -/
theorem dyadic_lower (n : Int) {e f : Int} (le : f ≤ e) : dyadic (n * 2 ^ (e - f).toNat, f) = dyadic (n, e) := by
  have shift : (2 : Rat) ^ (e - f).toNat * (2 : Rat) ^ f = (2 : Rat) ^ e := by
    rw [← zpow_natCast, Int.toNat_of_nonneg (sub_nonneg.mpr le), ← zpow_add₀ two_ne_zero, sub_add_cancel]
  unfold dyadic
  push_cast
  rw [mul_assoc, shift]

theorem dyadic_exactAdd (a b : Int × Int) : dyadic (exactAdd a b) = dyadic a + dyadic b := by
  have split (x y e : Int) : dyadic (x + y, e) = dyadic (x, e) + dyadic (y, e) := by
    unfold dyadic
    push_cast
    exact add_mul ..
  unfold exactAdd
  dsimp only
  rw [split, dyadic_lower _ (min_le_left ..), dyadic_lower _ (min_le_right ..)]

theorem dyadic_finitePart (v : FVal) : dyadic (finitePart v) = Spec.ratOf v := by
  unfold dyadic
  cases v with
  | nan | inf => exact (congrArg (· * _) Int.cast_zero).trans (zero_mul _)
  | fin n m e => cases n <;> simp [finitePart, Spec.ratOf]

theorem dyadic_foldl_exactAdd (vs : List FVal) (a : Int × Int) :
    dyadic (vs.foldl (fun a v => exactAdd a (finitePart v)) a) = dyadic a + (vs.map Spec.ratOf).sum := by
  induction vs generalizing a with
  | nil => simp
  | cons v vs ih => rw [List.foldl_cons, ih, dyadic_exactAdd, dyadic_finitePart, List.map_cons, List.sum_cons, add_assoc]

theorem dyadic_eq_zero {p : Int × Int} : dyadic p = 0 ↔ p.1 = 0 := by
  unfold dyadic
  rw [mul_eq_zero, or_iff_left (zpow_pos two_pos _).ne', Int.cast_eq_zero]

theorem dyadic_neg {p : Int × Int} : dyadic p < 0 ↔ p.1 < 0 := by
  unfold dyadic
  rw [← not_le, mul_nonneg_iff_of_pos_right (zpow_pos two_pos _), Int.cast_nonneg_iff, not_le]

theorem abs_dyadic (p : Int × Int) : |dyadic p| = (p.1.natAbs : Rat) * (2 : Rat) ^ p.2 := by
  unfold dyadic
  rw [abs_mul, abs_zpow, abs_two, Nat.cast_natAbs, Int.cast_abs]

/-! ## The accumulation of finite operands -/

section

variable {c : FVal} {ab : List (FVal × FVal)}

/-- The value is a finite number. -/
def FVal.Finite (v : FVal) : Prop := ∃ n m e, v = .fin n m e

theorem FVal.Finite.not_nan {v : FVal} (h : v.Finite) : isNan v = false := by
  obtain ⟨n, m, e, rfl⟩ := h
  rfl

theorem FVal.Finite.not_inf {v : FVal} (h : v.Finite) (neg : Bool) : isInf neg v = false := by
  obtain ⟨n, m, e, rfl⟩ := h
  rfl

/-- The product of finite numbers is finite, and exact. -/
theorem exactMul_finite {a b : FVal} (ha : a.Finite) (hb : b.Finite) :
    (exactMul a b).1.Finite ∧ Spec.ratOf (exactMul a b).1 = Spec.ratOf a * Spec.ratOf b := by
  obtain ⟨n, m, e, rfl⟩ := ha
  obtain ⟨n', m', e', rfl⟩ := hb
  refine ⟨⟨_, _, _, rfl⟩, ?_⟩
  have power : (2 : Rat) ^ (e + e') = 2 ^ e * 2 ^ e' := zpow_add₀ two_ne_zero e e'
  cases n <;> cases n' <;> simp [exactMul, Spec.ratOf, power] <;> ring

/-- The products that an accumulation adds. -/
def products (ab : List (FVal × FVal)) : List FVal := ab.map fun p => (exactMul p.1 p.2).1

/-- The exact sum of an accumulator and its products. -/
def exactTotal (c : FVal) (ab : List (FVal × FVal)) : Int × Int :=
  (products ab).foldl (fun a v => exactAdd a (finitePart v)) (finitePart c)

theorem products_finite (hab : ∀ p ∈ ab, p.1.Finite ∧ p.2.Finite) : ∀ v ∈ products ab, v.Finite := by
  intro v hv
  obtain ⟨p, hp, rfl⟩ := List.mem_map.mp hv
  exact (exactMul_finite (hab p hp).1 (hab p hp).2).1

theorem dyadic_exactTotal (hab : ∀ p ∈ ab, p.1.Finite ∧ p.2.Finite) :
    dyadic (exactTotal c ab) = Spec.ratOf c + (ab.map fun p => Spec.ratOf p.1 * Spec.ratOf p.2).sum := by
  unfold exactTotal products
  rw [dyadic_foldl_exactAdd, dyadic_finitePart, List.map_map]
  exact congrArg (Spec.ratOf c + List.sum ·) (List.map_congr_left fun p hp => (exactMul_finite (hab p hp).1 (hab p hp).2).2)

/-- Of finite operands the accumulation takes neither a NaN's nor an infinity's way: it rounds the exact total. -/
theorem exactDot_finite (hc : c.Finite) (hab : ∀ p ∈ ab, p.1.Finite ∧ p.2.Finite) :
    exactDot c ab = if (exactTotal c ab).1 = 0 then (zeroBits .f32 (isNegZero c && (products ab).all isNegZero), 0)
      else roundTo .f32 false .rne (decide ((exactTotal c ab).1 < 0)) (exactTotal c ab).1.natAbs (exactTotal c ab).2 false := by
  have operands : (ab.any fun p => isNan p.1 || isNan p.2) = false :=
    List.any_eq_false.mpr fun p hp => by simp [(hab p hp).1.not_nan, (hab p hp).2.not_nan]
  have nan : (products ab).any isNan = false := List.any_eq_false.mpr fun v hv => by simp [(products_finite hab v hv).not_nan]
  have inf (neg : Bool) : (products ab).any (isInf neg) = false :=
    List.any_eq_false.mpr fun v hv => by simp [(products_finite hab v hv).not_inf]
  unfold products at nan inf
  unfold exactDot exactTotal products
  simp [operands, nan, inf, hc.not_nan, hc.not_inf]

theorem zeroBits_f32_mod (neg : Bool) : zeroBits .f32 neg % 2 ^ 31 = 0 := by
  cases neg <;> rfl

end

/-- Settles O27: the mantissas of the accumulator and the products, brought to one power of two, add up to the exact sum, which is rounded once. -/
theorem exactAccumulation : Obligations.ExactAccumulation := by
  intro c ab hc hab q
  have total : dyadic (exactTotal c ab) = q := dyadic_exactTotal hab
  rw [← total, exactDot_finite hc hab]
  refine ⟨fun zero => ?_, fun nonzero => ⟨_, _, abs_dyadic _, ?_⟩⟩
  · rw [if_pos (dyadic_eq_zero.mp zero)]
    exact zeroBits_f32_mod _
  · rw [if_neg (mt dyadic_eq_zero.mpr nonzero)]
    simp only [dyadic_neg]

end Sys2Proof.Machine

/-! # Reductions (O19) -/

namespace Sys2Proof.Machine

/-! ## Rows of the tile -/

section

variable {s : State} {k : BitVec 3}

theorem tile_succ (n m : Nat) : tile (n + 1) m = tile n m ++ (List.range m).map fun i => (n, i) := by
  unfold tile
  rw [List.range_succ, List.flatMap_append, List.flatMap_singleton]

/-- The positions of a tile that lie in row j and meet a condition. -/
theorem tile_filter_row (n m j : Nat) (P : Nat → Nat → Bool) :
    (tile n m).filter (fun p => decide (p.1 = j) && P p.1 p.2) = if j < n then ((List.range m).filter (P j)).map fun i => (j, i) else [] := by
  induction n with
  | zero => rfl
  | succ n ih =>
    rw [tile_succ, List.filter_append, ih, List.filter_map]
    obtain below | rfl | above := lt_trichotomy j n
    · simp [below, Nat.lt_succ_of_lt below, Function.comp_def, below.ne']
    · simp [Function.comp_def]
    · simp [above.not_gt, above.ne, Nat.not_lt.mpr (Nat.succ_le_of_lt above), Function.comp_def]

/-- Where a condition holds in the tile alone, the positions of row j that meet it are elements of the row. -/
theorem tileOf_filter_row {P : Nat → Nat → Bool} (j : Nat) (inTile : ∀ e, P j e = true → j < s.h.shape.vrows.toNat) :
    (Spec.tileOf s).filter (fun p => decide (p.1 = j) && P p.1 p.2) = ((List.range s.h.shape.vl.toNat).filter (P j)).map fun e => (j, e) := by
  refine (tile_filter_row s.vrows s.vl j P).trans ?_
  split
  · rfl
  · next outside =>
    have none : (List.range s.h.shape.vl.toNat).filter (P j) = [] := List.filter_eq_nil_iff.mpr fun e _ here => outside (inTile e here)
    rw [none, List.map_nil]

theorem row_of_activeAt {j e : Nat} (h : Spec.activeAt s k j e = true) : j < s.h.shape.vrows.toNat := (mem_tileOf.mp (inTile_of_activeAt h)).1

theorem col_of_activeAt {j e : Nat} (h : Spec.activeAt s k j e = true) : e < s.h.shape.vl.toNat := (mem_tileOf.mp (inTile_of_activeAt h)).2

theorem mem_active {p : Nat × Nat} : p ∈ active s k ↔ Spec.activeAt s k p.1 p.2 = true := by
  rw [active_eq, List.mem_filter]
  exact and_iff_right_of_imp inTile_of_activeAt

theorem vl_eq_zero : s.vl = 0 ↔ s.h.shape.vl = 0 := BitVec.toNat_inj (y := 0#10)

end

/-! ## Slots (R72, R73) -/

section

variable {s : State} {a : BitVec 5} {k : BitVec 3} {w : Nat}

/-- The slot of a position: its element where it is active (R73). -/
def slotAt (s : State) (a : BitVec 5) (k : BitVec 3) (w : Nat) (p : Nat × Nat) : Option Nat :=
  if Spec.activeAt s k p.1 p.2 then some (Spec.el s a w p.1 p.2) else none

theorem slots_eq (ps : List (Nat × Nat)) : slots s a w k ps = ps.map (slotAt s a k w) := by
  refine List.map_congr_left fun p _ => ?_
  have here : (active s k).contains p = Spec.activeAt s k p.1 p.2 := by
    rw [Bool.eq_iff_iff, List.contains_iff_mem, mem_active]
  rw [here]
  rfl

theorem present_slots (ps : List (Nat × Nat)) : (ps.map (slotAt s a k w)).filterMap id
    = (ps.filter fun p => Spec.activeAt s k p.1 p.2).map fun p => Spec.el s a w p.1 p.2 := by
  rw [List.filterMap_map, ← List.filterMap_eq_map, List.filterMap_filter]
  refine List.filterMap_congr fun p _ => ?_
  unfold slotAt
  rfl

/-- A fold of slots is one of those that are present. -/
theorem foldRed_eq (f : Nat → Nat → Nat × Flags) (init : Nat) (l : List (Option Nat)) :
    foldRed f init l = (l.filterMap id).foldl (fun r v => ((f r.1 v).1, r.2 ||| (f r.1 v).2)) (init, 0) := by
  rw [List.foldl_filterMap]
  refine List.foldl_ext _ _ _ fun r v _ => ?_
  cases v <;> rfl

end

/-! ## What a reduction does (R137) -/

section

variable {s : State} {i : Instr} {vd a x : BitVec 5} {k : BitVec 3} {c tx pr : Bool}

theorem fpPut_becomes (s : State) (vd : BitVec 5) (w : Nat) (ps : List (Nat × Nat)) (r : Nat → Nat → Nat × Flags) :
    Becomes s (fpPut s vd w ps r) { s.h with
      v := (s.h.putElems vd.toNat w ps fun j e => (r j e).1).v
      user := { s.h.user with fflags := s.h.user.fflags ||| orFlagsAt ps fun j e => (r j e).2 } } := by
  unfold fpPut
  rw [putElems_eq]
  exact becomes_setH s _

/-- The registers of a group are registers (R24). -/
theorem group_row (shape : Spec.ShapeOk s.h.shape) {n : BitVec 5} (group : Spec.Group s n) {j : Nat} (row : j < s.h.shape.vrows.toNat) :
    n.toNat + j < 32 := by
  have lt := n.isLt
  unfold Spec.Group at group
  obtain rows | rows | rows | rows := rows_cases shape <;> rw [rows] at row group <;> omega

/-- Element 0 of a row is an element of any width that SEW can be. -/
theorem fits_first (shape : Spec.ShapeOk s.h.shape) {n j : Nat} (hn : n + j < 32) : Fits n (Spec.sewOf s) (j, 0) := by
  have narrow : Spec.sewOf s ≤ 8 * 2 ^ 3 := Nat.mul_le_mul_left _ (Nat.pow_le_pow_right (by decide) shape.2.1)
  exact ⟨hn, by omega⟩

/-- The result of a reducer over the whole tile. -/
def wholeOf (red : Reducer) (s : State) (a x : BitVec 5) (k : BitVec 3) : Nat × Flags :=
  red ((s.x x).toNat % 2 ^ Spec.sewOf s) ((Spec.tileOf s).map (slotAt s a k (Spec.sewOf s)))

/-- The result of a reducer over row j. -/
def rowOf (red : Reducer) (s : State) (a x : BitVec 5) (k : BitVec 3) (j : Nat) : Nat × Flags :=
  red ((s.x x).toNat % 2 ^ Spec.sewOf s) (((List.range s.h.shape.vl.toNat).map fun e => (j, e)).map (slotAt s a k (Spec.sewOf s)))

/-- The positions that a per-row reduction writes. -/
def firsts (s : State) : List (Nat × Nat) := (List.range s.h.shape.vrows.toNat).map fun j => (j, 0)

theorem mem_firsts {j e : Nat} : (j, e) ∈ firsts s ↔ e = 0 ∧ j < s.h.shape.vrows.toNat := by
  unfold firsts
  constructor
  · intro h
    obtain ⟨r, hr, eq⟩ := List.mem_map.mp h
    cases eq
    exact ⟨rfl, List.mem_range.mp hr⟩
  · rintro ⟨rfl, hj⟩
    exact List.mem_map.mpr ⟨j, List.mem_range.mpr hj, rfl⟩

/-- The effect of a reduction: an element of each row, an x register, or element 0 of vd, with the flags. -/
def reduction (red : Reducer) (toResult : Nat → Word) (s : State) (vd a x : BitVec 5) (k : BitVec 3) (tx pr : Bool) : State :=
  let all := wholeOf red s a x k
  if pr then fpPut s vd (Spec.sewOf s) (firsts s) fun j _ => rowOf red s a x k j
  else if tx then (s.orFlags all.2).setX vd (toResult all.1)
  else (s.orFlags all.2).setH ((s.orFlags all.2).h.setElem vd.toNat (Spec.sewOf s) 0 0 all.1)

theorem vecOp_congr {cl : Claim} {check : Option Trap} {eff eff' : State → State} (h : eff s = eff' s) :
    vecOp s cl check eff = vecOp s cl check eff' := by
  unfold vecOp
  rw [h]

/-- The operand checks of a reduction, with those of its format. -/
def reductionChecks (s : State) (format : Option Trap) (vd a : BitVec 5) (tx pr : Bool) : Option Trap :=
  firstTrap [checkStart s, format, checkGroup s a, if pr then checkGroup s vd else none,
    need (tx || !(decide (a.toNat ≤ vd.toNat) && decide (vd.toNat < a.toNat + s.vrows))) (vd.setWidth 64)]

theorem reduceOp_eq (red : Reducer) (toResult : Nat → Word) (checks : Option Trap) :
    reduceOp red toResult checks vd a x k c tx pr s = vecOp s (Spec.redClaim s vd a k c tx pr)
      (reductionChecks s checks vd a tx pr) fun _ => reduction red toResult s vd a x k tx pr := by
  unfold reduceOp
  dsimp only
  refine vecOp_congr ?_
  simp only [slots_eq]
  rfl

/-- A reduction's checks pass where its operands are legal. -/
theorem reductionChecks_none {checks : Option Trap} (checked : checks = none) (legal : Spec.redLegal s vd a tx pr) :
    reductionChecks s checks vd a tx pr = none := by
  obtain ⟨start, source, dest, -, apart⟩ := legal
  have free : (tx || !(decide (a.toNat ≤ vd.toNat) && decide (vd.toNat < a.toNat + s.vrows))) = true := by
    rw [Bool.or_eq_true, Bool.not_eq_true', ← Bool.not_eq_true, Bool.and_eq_true, decide_eq_true_iff, decide_eq_true_iff]
    exact apart
  unfold reductionChecks
  simp only [firstTrap_cons, firstTrap_nil, checkStart_eq_none, checkGroup_eq_none, when_eq_none, need_eq_none, and_true]
  exact ⟨start, checked, source, dest, free⟩

/-- The effect of a legal reduction writes its destination and its flags (R137). -/
theorem reduction_becomes {red : Reducer} {toResult : Nat → Word} (hart : s.lane = none) (shape : Spec.ShapeOk s.h.shape)
    (legal : Spec.redLegal s vd a tx pr) :
    ∃ v, Becomes s (reduction red toResult s vd a x k tx pr) { s.h with
        v := v
        x := if tx then s.h.xWith vd (toResult (wholeOf red s a x k).1) else s.h.x
        user := { s.h.user with fflags := s.h.user.fflags |||
          if pr then (List.range s.h.shape.vrows.toNat).foldl (fun g j => g ||| (rowOf red s a x k j).2) 0 else (wholeOf red s a x k).2 } }
      ∧ if tx then v = s.h.v
        else Spec.ElementsWritten s.h.v v vd.toNat (Spec.sewOf s) (fun j e => decide (e = 0 ∧ j < if pr then s.h.shape.vrows.toNat else 1))
          (fun j _ => if pr then (rowOf red s a x k j).1 else (wholeOf red s a x k).1) := by
  obtain ⟨-, -, dest, notBoth, -⟩ := legal
  unfold reduction
  cases pr
  · have flagged := becomes_orFlags s (wholeOf red s a x k).2
    cases tx
    · have put := flagged.setH ((s.h.orFlags (wholeOf red s a x k).2).setElem vd.toNat (Spec.sewOf s) 0 0 (wholeOf red s a x k).1)
      refine ⟨_, ?_, putElems_written s.h (sewOf_pos s) (ps := [(0, 0)]) (f := fun _ _ => (wholeOf red s a x k).1) (fun j e => ?_) (fun p hp => ?_)
        fun _ _ _ => rfl⟩
      · simp only [flagged.h]
        exact put
      · simp [and_comm]
      · rw [List.mem_singleton.mp hp]
        exact fits_first shape vd.isLt
    · have put := flagged.trans (becomes_setX (flagged.lane.trans hart) vd (toResult (wholeOf red s a x k).1))
      rw [flagged.h] at put
      exact ⟨s.h.v, put, rfl⟩
  · have toV : tx = false := by simpa using notBoth
    subst toV
    have flags : orFlagsAt (firsts s) (fun j _ => (rowOf red s a x k j).2)
        = (List.range s.h.shape.vrows.toNat).foldl (fun g j => g ||| (rowOf red s a x k j).2) 0 := List.foldl_map
    refine ⟨_, ?_, putElems_written s.h (sewOf_pos s) (ps := firsts s) (f := fun j _ => (rowOf red s a x k j).1) (fun j e => ?_) (fun p hp => ?_)
      fun _ _ _ => rfl⟩
    · rw [if_pos rfl, if_pos rfl, ← flags]
      exact fpPut_becomes ..
    · rw [decide_eq_true_iff, mem_firsts, if_pos rfl]
    · obtain ⟨j, hj, rfl⟩ := List.mem_map.mp hp
      exact fits_first shape (group_row shape (dest rfl) (List.mem_range.mp hj))

/-- A reduction with legal operands that joins its convoy writes its result and nothing else (R137). -/
theorem reduceOp_reduces {red : Reducer} {toResult : Nat → Word} {checks : Option Trap} (answer : exec i s = reduceOp red toResult checks vd a x k c tx pr s)
    (checked : checks = none) (hart : s.lane = none) (shape : Spec.ShapeOk s.h.shape) (legal : Spec.redLegal s vd a tx pr)
    (joins : Spec.Joins s (Spec.redClaim s vd a k c tx pr)) :
    Spec.ReducedTo i s vd (Spec.redClaim s vd a k c tx pr) (Spec.sewOf s) tx pr
      (if pr then (List.range s.h.shape.vrows.toNat).foldl (fun g j => g ||| (rowOf red s a x k j).2) 0 else (wholeOf red s a x k).2)
      (toResult (wholeOf red s a x k).1) (fun j => if pr then (rowOf red s a x k j).1 else (wholeOf red s a x k).1) := by
  obtain ⟨v, becomes, written⟩ := reduction_becomes hart shape legal
  obtain ⟨t, done, after⟩ := vecOp_done (eff := fun _ => reduction red toResult s vd a x k tx pr) (reductionChecks_none checked legal) hart joins becomes
    rfl rfl rfl rfl
  exact ⟨t, v, answer.trans ((reduceOp_eq ..).trans done), after, written⟩

end

end Sys2Proof.Machine

/-! # Integer reductions (O19) -/

namespace Sys2Proof.Machine

/-! ## Folds mod 2^w -/

section

variable {w : Nat} {xs : List Nat} {init : Nat}

/-- A fold whose steps are those of `g` on numbers of w bits. -/
theorem foldl_mod_eq {f g : Nat → Nat → Nat} (step : ∀ p q, p < 2 ^ w → q < 2 ^ w → f p q % 2 ^ w = g p q) (hxs : ∀ q ∈ xs, q < 2 ^ w)
    (hinit : init < 2 ^ w) : xs.foldl (fun p q => f p q % 2 ^ w) init = xs.foldl g init := by
  induction xs generalizing init with
  | nil => rfl
  | cons q xs ih =>
    rw [List.foldl_cons, List.foldl_cons, ← step _ _ hinit (hxs q List.mem_cons_self)]
    exact ih (fun r hr => hxs r (List.mem_cons_of_mem _ hr)) (Nat.mod_lt _ (Nat.two_pow_pos w))

theorem foldl_mod_lt (f : Nat → Nat → Nat) (hinit : init < 2 ^ w) : xs.foldl (fun p q => f p q % 2 ^ w) init < 2 ^ w :=
  List.foldlRecOn (motive := (· < 2 ^ w)) xs _ hinit fun _ _ _ _ => Nat.mod_lt _ (Nat.two_pow_pos w)

theorem foldl_add_mod (hinit : init < 2 ^ w) : xs.foldl (fun p q => (p + q) % 2 ^ w) init = (init + xs.sum) % 2 ^ w := by
  induction xs generalizing init with
  | nil => exact (Nat.mod_eq_of_lt hinit).symm
  | cons q xs ih => rw [List.foldl_cons, ih (Nat.mod_lt _ (Nat.two_pow_pos w)), Nat.mod_add_mod, List.sum_cons, Nat.add_assoc]

/-- Two numbers of w bits with one signed value are the same. -/
theorem sgn_inj {p q : Nat} (hp : p < 2 ^ w) (hq : q < 2 ^ w) (same : Spec.sgn w p = Spec.sgn w q) : p = q := by
  have mod := (sgn_emod w p).symm.trans ((congrArg (· % 2 ^ w) same).trans (sgn_emod w q))
  have nat : p % 2 ^ w = q % 2 ^ w := by exact_mod_cast mod
  rwa [Nat.mod_eq_of_lt hp, Nat.mod_eq_of_lt hq] at nat

theorem minSigned_step (hw : 0 < w) {p q : Nat} (hp : p < 2 ^ w) (hq : q < 2 ^ w) :
    (if signedOf w p ≤ signedOf w q then p else q) % 2 ^ w = if Spec.sgn w q < Spec.sgn w p then q else p := by
  rw [signedOf_eq_bmod hw, signedOf_eq_bmod hw]
  change (if Spec.sgn w p ≤ Spec.sgn w q then p else q) % 2 ^ w = _
  split
  · next le => rw [if_neg (not_lt.mpr le), Nat.mod_eq_of_lt hp]
  · next gt => rw [if_pos (not_le.mp gt), Nat.mod_eq_of_lt hq]

/-- Of two equal values the larger is either, so it does not matter which one a maximum keeps. -/
theorem maxSigned_step (hw : 0 < w) {p q : Nat} (hp : p < 2 ^ w) (hq : q < 2 ^ w) :
    (if signedOf w p ≤ signedOf w q then q else p) % 2 ^ w = if Spec.sgn w p < Spec.sgn w q then q else p := by
  rw [signedOf_eq_bmod hw, signedOf_eq_bmod hw]
  change (if Spec.sgn w p ≤ Spec.sgn w q then q else p) % 2 ^ w = _
  obtain lt | eq | gt := lt_trichotomy (Spec.sgn w p) (Spec.sgn w q)
  · rw [if_pos lt.le, if_pos lt, Nat.mod_eq_of_lt hq]
  · rw [if_pos eq.le, if_neg eq.not_lt, Nat.mod_eq_of_lt hq, sgn_inj hp hq eq]
  · rw [if_neg (not_le.mpr gt), if_neg gt.not_gt, Nat.mod_eq_of_lt hp]

end

/-! ## The reduction of active elements (R137) -/

section

variable {s : State} {i : Instr} {vd a x : BitVec 5} {k : BitVec 3} {c tx pr : Bool}

/-- The active elements of rows that `rows` accepts, in element order. -/
def activeElements (s : State) (k : BitVec 3) (a : BitVec 5) (rows : Nat → Bool) : List Nat :=
  ((Spec.tileOf s).filter fun p => rows p.1 && Spec.activeAt s k p.1 p.2).map fun p => Spec.el s a (Spec.sewOf s) p.1 p.2

theorem activeElements_lt {rows : Nat → Bool} : ∀ q ∈ activeElements s k a rows, q < 2 ^ Spec.sewOf s := by
  intro q hq
  obtain ⟨p, -, rfl⟩ := List.mem_map.mp hq
  exact elemOf_lt ..

/-- A fold of slots that raises no flag. -/
theorem foldRed_flagless (g : Nat → Nat → Nat) (init : Nat) (l : List (Option Nat)) :
    foldRed (fun p q => (g p q, 0)) init l = ((l.filterMap id).foldl g init, 0) := by
  rw [foldRed_eq]
  exact List.foldl_hom (fun p => ((p, 0) : Nat × Flags)) fun p q => by simp

theorem wholeOf_flagless (g : Nat → Nat → Nat) : wholeOf (foldRed fun p q => (g p q, 0)) s a x k
    = ((activeElements s k a fun _ => true).foldl g ((s.x x).toNat % 2 ^ Spec.sewOf s), 0) := by
  unfold wholeOf activeElements
  rw [foldRed_flagless, present_slots]
  rfl

theorem rowOf_flagless (g : Nat → Nat → Nat) (j : Nat) : rowOf (foldRed fun p q => (g p q, 0)) s a x k j
    = ((activeElements s k a fun r => decide (r = j)).foldl g ((s.x x).toNat % 2 ^ Spec.sewOf s), 0) := by
  unfold rowOf activeElements
  rw [foldRed_flagless, present_slots, tileOf_filter_row j fun e => row_of_activeAt, List.filter_map]
  rfl

/-- An integer reduction whose spec value is the fold of its steps mod 2^w. -/
theorem intRed_reduces {f : Nat → Nat → Nat → Nat} {signed : Bool} (answer : exec i s = intRed f signed vd a x k c tx pr s)
    (unsigned : Spec.redUnsigned i = !signed)
    (value : ∀ init rows, init < 2 ^ Spec.sewOf s → Spec.reduceInt i s k a init rows
      = (activeElements s k a rows).foldl (fun p q => f (Spec.sewOf s) p q % 2 ^ Spec.sewOf s) init)
    (hart : s.lane = none) (shape : Spec.ShapeOk s.h.shape) (legal : Spec.redLegal s vd a tx pr) (joins : Spec.Joins s (Spec.redClaim s vd a k c tx pr)) :
    let all := Spec.reduceInt i s k a ((s.x x).toNat % 2 ^ Spec.sewOf s) fun _ => true
    Spec.ReducedTo i s vd (Spec.redClaim s vd a k c tx pr) (Spec.sewOf s) tx pr 0
      (if Spec.redUnsigned i then BitVec.ofNat 64 all else BitVec.ofInt 64 (Spec.sgn (Spec.sewOf s) all))
      (fun j => if pr then Spec.reduceInt i s k a ((s.x x).toNat % 2 ^ Spec.sewOf s) (fun r => decide (r = j)) else all) := by
  intro all
  have small : (s.x x).toNat % 2 ^ Spec.sewOf s < 2 ^ Spec.sewOf s := Nat.mod_lt _ (Nat.two_pow_pos _)
  have result : (if Spec.redUnsigned i then BitVec.ofNat 64 all else BitVec.ofInt 64 (Spec.sgn (Spec.sewOf s) all))
      = BitVec.ofInt 64 (extOf signed (Spec.sewOf s) all) := by
    rw [unsigned]
    cases signed
    · have bits : all < 2 ^ Spec.sewOf s := by
        unfold all
        rw [value _ _ small]
        exact foldl_mod_lt _ small
      rw [extOf_false bits, BitVec.ofInt_natCast]
      rfl
    · rw [extOf_true (sewOf_pos s)]
      rfl
  have reduces := reduceOp_reduces (red := foldRed fun p q => (f (Spec.sewOf s) p q % 2 ^ Spec.sewOf s, 0))
    (toResult := fun v => BitVec.ofInt 64 (extOf signed (Spec.sewOf s) v)) (checks := none) answer rfl hart shape legal joins
  simp only [wholeOf_flagless, rowOf_flagless, ← value _ _ small] at reduces
  rw [result]
  simpa using reduces

theorem integerReductions : Claims.IntegerReductions := by
  intro i s vd a x k c tx pr hart shape form legal joins
  have width := sewOf_pos s
  unfold Spec.intRedForm at form
  split at form <;> cases form
  · have answer : exec (.vredsum vd a x k c tx pr) s = intRed (fun _ p q => p + q) true vd a x k c tx pr s := rfl
    exact intRed_reduces answer rfl (fun init rows small => (foldl_add_mod small).symm) hart shape legal joins
  · have answer : exec (.vredmin vd a x k c tx pr) s
        = intRed (fun w p q => if signedOf w p ≤ signedOf w q then p else q) true vd a x k c tx pr s := rfl
    refine intRed_reduces answer rfl (fun init rows small => ?_) hart shape legal joins
    exact (foldl_mod_eq (fun p q => minSigned_step width) activeElements_lt small).symm
  · have answer : exec (.vredminz vd a x k c tx pr) s = intRed (fun _ p q => min p q) false vd a x k c tx pr s := rfl
    refine intRed_reduces answer rfl (fun init rows small => ?_) hart shape legal joins
    exact (foldl_mod_eq (fun p q hp _ => Nat.mod_eq_of_lt (min_lt_of_left_lt hp)) activeElements_lt small).symm
  · have answer : exec (.vredmax vd a x k c tx pr) s
        = intRed (fun w p q => if signedOf w p ≤ signedOf w q then q else p) true vd a x k c tx pr s := rfl
    refine intRed_reduces answer rfl (fun init rows small => ?_) hart shape legal joins
    exact (foldl_mod_eq (fun p q => maxSigned_step width) activeElements_lt small).symm
  · have answer : exec (.vredmaxz vd a x k c tx pr) s = intRed (fun _ p q => max p q) false vd a x k c tx pr s := rfl
    refine intRed_reduces answer rfl (fun init rows small => ?_) hart shape legal joins
    exact (foldl_mod_eq (fun p q hp hq => Nat.mod_eq_of_lt (max_lt hp hq)) activeElements_lt small).symm

end

end Sys2Proof.Machine

/-! # Floating-point reductions (O19) -/

namespace Sys2Proof.Machine

/-! ## The pairwise tree (R73) -/

section

variable {op : Nat → Nat → Nat × Flags}

/-- The values of slots that carry the flags raised on the way to them. -/
def slotValues (l : List (Option Spec.WithFlags)) : List (Option Nat) := l.map (Option.map Prod.fst)

/-- The flags of all slots. -/
def slotFlags (l : List (Option Spec.WithFlags)) : Flags := l.foldr (fun v g => v.elim 0 Prod.snd ||| g) 0

theorem slotFlags_cons (v : Option Spec.WithFlags) (l : List (Option Spec.WithFlags)) : slotFlags (v :: l) = v.elim 0 Prod.snd ||| slotFlags l := rfl

/-- Two slots of a level meet. -/
def meet (op : Nat → Nat → Nat × Flags) : Option Spec.WithFlags → Option Spec.WithFlags → Option Spec.WithFlags
  | some p, some q => some (Spec.gather op p q)
  | some p, none => some p
  | none, q => q

theorem pairUp_cons (p q : Option Spec.WithFlags) (l : List (Option Spec.WithFlags)) :
    Spec.pairUp op (p :: q :: l) = meet op p q :: Spec.pairUp op l := by
  cases p <;> cases q <;> rfl

/-- The flags that two slots raise where they meet. -/
def meetFlags (op : Nat → Nat → Nat × Flags) : Option Spec.WithFlags → Option Spec.WithFlags → Flags
  | some p, some q => (op p.1 q.1).2
  | _, _ => 0

theorem treeLevel_cons (p q : Option Spec.WithFlags) (l : List (Option Spec.WithFlags)) :
    treeLevel op (slotValues (p :: q :: l))
      = ((meet op p q).map Prod.fst :: (treeLevel op (slotValues l)).1, (treeLevel op (slotValues l)).2 ||| meetFlags op p q) := by
  cases p <;> cases q <;> simp [slotValues, treeLevel, meet, meetFlags, Spec.gather]

theorem flags_meet (p q : Option Spec.WithFlags) :
    (meet op p q).elim 0 Prod.snd = p.elim 0 Prod.snd ||| q.elim 0 Prod.snd ||| meetFlags op p q := by
  cases p <;> cases q <;> simp [meet, meetFlags, Spec.gather]

/-- A level of the tree pairs the same values whether each slot keeps its own flags or the level gathers them. -/
theorem treeLevel_pairUp : ∀ l : List (Option Spec.WithFlags), (treeLevel op (slotValues l)).1 = slotValues (Spec.pairUp op l)
    ∧ slotFlags l ||| (treeLevel op (slotValues l)).2 = slotFlags (Spec.pairUp op l)
  | [] => ⟨rfl, BitVec.or_zero⟩
  | [p] => ⟨rfl, BitVec.or_zero⟩
  | p :: q :: l => by
    obtain ⟨values, flags⟩ := treeLevel_pairUp l
    rw [treeLevel_cons, pairUp_cons, values]
    refine ⟨rfl, ?_⟩
    rw [slotFlags_cons, slotFlags_cons, slotFlags_cons, ← flags, flags_meet]
    dsimp only
    ac_rfl

theorem length_pairUp : ∀ l : List (Option Spec.WithFlags), (Spec.pairUp op l).length = (l.length + 1) / 2
  | [] => rfl
  | [_] => (by decide : 1 = (1 + 1) / 2)
  | p :: q :: l => by
    rw [pairUp_cons, List.length_cons, length_pairUp l, List.length_cons, List.length_cons]
    omega

/-- Where the levels cover the slots, the tree's root has gathered every flag. -/
theorem treeRoot_treeOf (n : Nat) {l : List (Option Spec.WithFlags)} (covered : l.length ≤ 2 ^ n) :
    (treeRoot op n (slotValues l)).1 = (Spec.treeOf op n l).map Prod.fst
      ∧ slotFlags l ||| (treeRoot op n (slotValues l)).2 = (Spec.treeOf op n l).elim 0 Prod.snd := by
  induction n generalizing l with
  | zero =>
    match l, covered with
    | [], _ => exact ⟨rfl, BitVec.or_zero⟩
    | [none], _ => exact ⟨rfl, BitVec.or_zero.trans BitVec.or_zero⟩
    | [some p], _ => exact ⟨rfl, BitVec.or_zero.trans BitVec.or_zero⟩
  | succ n ih =>
    obtain ⟨values, flags⟩ := treeLevel_pairUp (op := op) l
    have half : (Spec.pairUp op l).length ≤ 2 ^ n := by
      rw [length_pairUp]
      rw [pow_succ] at covered
      omega
    obtain ⟨root, gathered⟩ := ih half
    have split : treeRoot op (n + 1) (slotValues l) = ((treeRoot op n (slotValues (Spec.pairUp op l))).1,
        (treeLevel op (slotValues l)).2 ||| (treeRoot op n (slotValues (Spec.pairUp op l))).2) := by
      rw [← values]
      rfl
    rw [split, ← BitVec.or_assoc, flags]
    exact ⟨root, gathered⟩

/-- Slots that have raised no flag yet. -/
def unflagged (l : List (Option Nat)) : List (Option Spec.WithFlags) := l.map (Option.map fun v => ((v, 0) : Spec.WithFlags))

theorem slotValues_unflagged (l : List (Option Nat)) : slotValues (unflagged l) = l := by
  unfold slotValues unflagged
  rw [List.map_map]
  exact (List.map_congr_left fun v _ => by cases v <;> rfl).trans (List.map_id l)

theorem slotFlags_unflagged (l : List (Option Nat)) : slotFlags (unflagged l) = 0 := by
  induction l with
  | nil => rfl
  | cons v l ih =>
    refine (congrArg (_ ||| ·) ih).trans (BitVec.or_zero.trans ?_)
    cases v <;> rfl

theorem treeRoot_unflagged {n : Nat} {l : List (Option Nat)} (covered : l.length ≤ 2 ^ n) :
    treeRoot op n l = ((Spec.treeOf op n (unflagged l)).map Prod.fst, (Spec.treeOf op n (unflagged l)).elim 0 Prod.snd) := by
  obtain ⟨root, flags⟩ := treeRoot_treeOf (op := op) n (l := unflagged l) ((List.length_map ..).trans_le covered)
  rw [slotFlags_unflagged, slotValues_unflagged] at flags
  rw [slotValues_unflagged] at root
  exact Prod.ext root (BitVec.zero_or.symm.trans flags)

/-- The tree of R73 gives the root's value, with every flag raised below it. -/
theorem treeRed_eq_treeOf {l : List (Option Nat)} (covered : l.length ≤ 2 ^ 13) (init : Nat) :
    treeRed op init l = (Spec.treeOf op 13 (unflagged l)).elim (init, 0) (Spec.gather op (init, 0)) := by
  unfold treeRed
  rw [treeRoot_unflagged covered]
  cases Spec.treeOf op 13 (unflagged l) with
  | none => rfl
  | some r => exact congrArg (Prod.mk _) (congrArg (· ||| _) BitVec.zero_or.symm)

end

/-! ## The reductions (R72, R73, R137) -/

section

variable {s : State} {i : Instr} {vd a x : BitVec 5} {k : BitVec 3} {c tx pr bf : Bool} {kind : Nat}

/-- A fold in element order has the flags of every combination (R72). -/
theorem foldRed_eq_gather (op : Nat → Nat → Nat × Flags) (init : Nat) (l : List (Option Nat)) :
    foldRed op init l = ((unflagged l).filterMap id).foldl (Spec.gather op) (init, 0) := by
  have present : (unflagged l).filterMap id = (l.filterMap id).map fun v => (v, 0) := by
    unfold unflagged
    rw [List.filterMap_map, List.map_filterMap]
    exact List.filterMap_congr fun v _ => by cases v <;> rfl
  rw [foldRed_eq, present, List.foldl_map]
  exact List.foldl_ext _ _ _ fun r v _ => congrArg (Prod.mk _) (congrArg (· ||| _) BitVec.or_zero.symm)

theorem treeRed_eq_reduceFp {f : FpFmt} {m : Rnd} {l : List (Option Nat)} (covered : l.length ≤ 2 ^ 13) (init : Nat) :
    treeRed (fAdd f m) init l = Spec.reduceFp f m 1 init l := by
  rw [treeRed_eq_treeOf covered]
  unfold Spec.reduceFp
  dsimp only
  rw [if_pos rfl]
  unfold unflagged
  split
  · next absent =>
    rw [absent]
    rfl
  · next present =>
    rw [present]
    rfl

theorem foldRed_eq_reduceFp {f : FpFmt} {m : Rnd} {l : List (Option Nat)} (fold : kind ≠ 1) (init : Nat) :
    foldRed (if kind = 0 then fAdd f m else fMinMax f (decide (kind = 3))) init l = Spec.reduceFp f m kind init l := by
  rw [foldRed_eq_gather]
  unfold Spec.reduceFp
  exact (if_neg fold).symm

/-- A tile holds no more elements than a tree of 13 levels covers (R23). -/
theorem tile_length (shape : Spec.ShapeOk s.h.shape) : s.h.shape.vrows.toNat * s.h.shape.vl.toNat ≤ 2 ^ 13 := by
  have rows : s.h.shape.vrows.toNat ≤ 8 := by
    obtain e | e | e | e := rows_cases shape <;> omega
  have row : s.h.shape.vl.toNat * 8 ≤ 4096 :=
    (Nat.mul_le_mul_left _ (Nat.le_mul_of_pos_right 8 (Nat.two_pow_pos s.h.shape.sew.toNat))).trans shape.2.2
  exact (Nat.mul_le_mul_right _ rows).trans (by omega)

theorem wholeOf_eq {red : Reducer} {start : Nat} {f : FpFmt} {m : Rnd} (shape : Spec.ShapeOk s.h.shape)
    (value : ∀ l : List (Option Nat), l.length ≤ 2 ^ 13 → red ((s.x x).toNat % 2 ^ Spec.sewOf s) l = Spec.reduceFp f m kind start l) :
    wholeOf red s a x k = Spec.reduceFp f m kind start ((Spec.tileOf s).map (slotAt s a k (Spec.sewOf s))) := by
  unfold wholeOf
  refine value _ ?_
  have length : (Spec.tileOf s).length = s.h.shape.vrows.toNat * s.h.shape.vl.toNat := by simp [Spec.tileOf]
  rw [List.length_map, length]
  exact tile_length shape

theorem rowOf_eq {red : Reducer} {start : Nat} {f : FpFmt} {m : Rnd}
    (value : ∀ l : List (Option Nat), l.length ≤ 2 ^ 13 → red ((s.x x).toNat % 2 ^ Spec.sewOf s) l = Spec.reduceFp f m kind start l) (j : Nat) :
    rowOf red s a x k j
      = Spec.reduceFp f m kind start (((List.range s.h.shape.vl.toNat).map fun e => (j, e)).map (slotAt s a k (Spec.sewOf s))) := by
  unfold rowOf
  refine value _ ?_
  rw [List.length_map, List.length_map, List.length_range]
  exact s.h.shape.vl.isLt.le.trans (by decide)

/-- The value that a reduction starts with: an ordered one that resumes finds it in its destination, which is no source of R35 (R72, log 41). -/
def redStart (s : State) (vd : BitVec 5) (kind init : Nat) : Nat :=
  if kind = 0 ∧ s.h.shape.vstart ≠ 0 ∧ s.h.shape.vl ≠ 0 then Spec.el s vd (Spec.sewOf s) 0 0 else init

theorem redStart_of_ne (h : kind ≠ 0) (init : Nat) : redStart s vd kind init = init := if_neg fun e => h e.1

theorem redStart_ordered {w : Nat} (width : w = Spec.sewOf s) (init : Nat) :
    (if decide (s.h.shape.vstart ≠ 0) && decide (s.vl ≠ 0) then s.h.elem vd.toNat w 0 0 else init) = redStart s vd 0 init := by
  unfold redStart
  rw [width]
  refine if_congr ?_ rfl rfl
  rw [Bool.and_eq_true, decide_eq_true_iff, decide_eq_true_iff, ne_eq s.vl, vl_eq_zero, and_iff_right rfl]

/-- What R72, R73 and R137 ask of a floating-point reduction. -/
def FpReduced (i : Instr) (s : State) (vd a x : BitVec 5) (k : BitVec 3) (c tx pr bf : Bool) (kind : Nat) : Prop :=
  let start := redStart s vd kind ((s.x x).toNat % 2 ^ Spec.sewOf s)
  let result := fun ps : List (Nat × Nat) => Spec.reduceFp (Spec.sewFmt s bf) s.rnd kind start (ps.map (slotAt s a k (Spec.sewOf s)))
  let all := result (Spec.tileOf s)
  let one := fun j => result ((List.range s.h.shape.vl.toNat).map fun e => (j, e))
  Spec.ReducedTo i s vd (Spec.redClaim s vd a k c tx pr) (Spec.sewOf s) tx pr
    (if pr then (List.range s.h.shape.vrows.toNat).foldl (fun g j => g ||| (one j).2) 0 else all.2)
    (Spec.fpWord (Spec.sewFmt s bf) all.1) (fun j => if pr then (one j).1 else all.1)

/-- A floating-point reduction whose reducer is the spec's. -/
theorem fpRed_reduces {red : FpFmt → Rnd → Reducer} (answer : exec i s = fpRed red bf vd a x k c tx pr s)
    (hart : s.lane = none) (shape : Spec.ShapeOk s.h.shape) (legal : Spec.redLegal s vd a tx pr)
    (width : if bf then Spec.sewOf s = 16 else Spec.sewOf s ≠ 8) (joins : Spec.Joins s (Spec.redClaim s vd a k c tx pr))
    (value : ∀ l : List (Option Nat), l.length ≤ 2 ^ 13 → red (Spec.sewFmt s bf) s.rnd ((s.x x).toNat % 2 ^ Spec.sewOf s) l
      = Spec.reduceFp (Spec.sewFmt s bf) s.rnd kind (redStart s vd kind ((s.x x).toNat % 2 ^ Spec.sewOf s)) l) :
    FpReduced i s vd a x k c tx pr bf kind := by
  have reduces := reduceOp_reduces (red := red (Spec.sewFmt s bf) s.rnd) (toResult := fpResult (Spec.sewFmt s bf)) (checks := checkFpSew s bf) answer
    ((checkFpSew_eq_none bf).mpr width) hart shape legal joins
  simp only [wholeOf_eq shape value, rowOf_eq value, fpResult_eq_fpWord] at reduces
  exact reduces

theorem orderedRed_reduces (answer : exec i s = orderedRed bf vd a x k c s) (hart : s.lane = none) (shape : Spec.ShapeOk s.h.shape)
    (legal : Spec.redLegal s vd a false false) (width : if bf then Spec.sewOf s = 16 else Spec.sewOf s ≠ 8)
    (joins : Spec.Joins s (Spec.redClaim s vd a k c false false)) : FpReduced i s vd a x k c false false bf 0 := by
  unfold orderedRed at answer
  refine fpRed_reduces answer hart shape legal width joins fun l _ => ?_
  rw [redStart_ordered (fpWidth_sewFmt shape width)]
  exact foldRed_eq_reduceFp (kind := 0) (by decide) _

theorem treeRed_reduces (answer : exec i s = fpRed (fun f m => treeRed (fAdd f m)) bf vd a x k c tx pr s) (hart : s.lane = none)
    (shape : Spec.ShapeOk s.h.shape) (legal : Spec.redLegal s vd a tx pr) (width : if bf then Spec.sewOf s = 16 else Spec.sewOf s ≠ 8)
    (joins : Spec.Joins s (Spec.redClaim s vd a k c tx pr)) : FpReduced i s vd a x k c tx pr bf 1 := by
  refine fpRed_reduces answer hart shape legal width joins fun l covered => ?_
  rw [redStart_of_ne (by decide)]
  exact treeRed_eq_reduceFp covered _

/-- The reductions to a minimum (kind 2) and a maximum (kind 3). -/
theorem extremumRed_reduces (answer : exec i s = fpRed (fun f _ => foldRed (fMinMax f (decide (kind = 3)))) bf vd a x k c tx pr s) (extremum : 1 < kind)
    (hart : s.lane = none) (shape : Spec.ShapeOk s.h.shape) (legal : Spec.redLegal s vd a tx pr)
    (width : if bf then Spec.sewOf s = 16 else Spec.sewOf s ≠ 8) (joins : Spec.Joins s (Spec.redClaim s vd a k c tx pr)) :
    FpReduced i s vd a x k c tx pr bf kind := by
  refine fpRed_reduces answer hart shape legal width joins fun l _ => ?_
  rw [redStart_of_ne (by omega), ← foldRed_eq_reduceFp (by omega), if_neg (by omega)]

theorem floatReductions : Claims.FloatReductions := by
  intro i s vd a x k c tx pr bf kind hart shape form legal width joins
  show FpReduced i s vd a x k c tx pr bf kind
  unfold Spec.fpRedForm at form
  split at form <;> cases form
  · exact orderedRed_reduces rfl hart shape legal width joins
  · exact orderedRed_reduces rfl hart shape legal width joins
  · exact treeRed_reduces rfl hart shape legal width joins
  · exact treeRed_reduces rfl hart shape legal width joins
  · exact extremumRed_reduces rfl (by decide) hart shape legal width joins
  · exact extremumRed_reduces rfl (by decide) hart shape legal width joins
  · exact extremumRed_reduces rfl (by decide) hart shape legal width joins
  · exact extremumRed_reduces rfl (by decide) hart shape legal width joins

end

end Sys2Proof.Machine

/-! # Packing and block quantization (O19) -/

namespace Sys2Proof.Machine

/-! ## Ranges filtered -/

section

variable {P : Nat → Bool}

/-- Of two ranges that hold every number of a condition, the filters are the same. -/
theorem filter_range_of_lt {n m : Nat} (le : m ≤ n) (bound : ∀ e, P e = true → e < m) : (List.range n).filter P = (List.range m).filter P := by
  obtain ⟨d, rfl⟩ := Nat.exists_eq_add_of_le le
  have rest : ((List.range d).map (m + ·)).filter P = [] := by
    refine List.filter_eq_nil_iff.mpr fun e he here => ?_
    obtain ⟨i, -, rfl⟩ := List.mem_map.mp he
    exact absurd (bound _ here) (by omega)
  rw [List.range_add, List.filter_append, rest, List.append_nil]

/-- A number of a condition stands in the filtered range at the count of those below it. -/
theorem getElem?_filter_range {n e : Nat} (lt : e < n) (here : P e = true) :
    ((List.range n).filter P)[((List.range e).filter P).length]? = some e := by
  have upTo : (List.range (e + 1)).filter P = (List.range e).filter P ++ [e] := by
    rw [List.range_succ, List.filter_append, List.filter_singleton, here, cond_true]
  obtain ⟨d, rfl⟩ := Nat.exists_eq_add_of_le (Nat.succ_le_of_lt lt)
  rw [List.range_add, List.filter_append, upTo, List.append_assoc, List.getElem?_append_right le_rfl, Nat.sub_self]
  rfl

end

/-! ## `vcompress` (R136) -/

section

variable {s : State} {vd a : BitVec 5} {k : BitVec 3} {c : Bool} {ty : BitVec 2}

/-- The active elements of row j. -/
def selected (s : State) (k : BitVec 3) (j : Nat) : List Nat := (List.range s.h.shape.vl.toNat).filter fun e => Spec.activeAt s k j e

/-- The number of active elements of row j before e. -/
def rank (s : State) (k : BitVec 3) (j e : Nat) : Nat := ((List.range e).filter fun i => Spec.activeAt s k j i).length

theorem compressTo_active : compressTo (active s k) = (active s k).map fun p => (p.1, rank s k p.1 p.2, p.2) := by
  refine List.map_congr_left fun p hp => ?_
  have col := col_of_activeAt (mem_active.mp hp)
  have earlier : (active s k).filter (fun q => q.1 = p.1 && decide (q.2 < p.2))
      = ((List.range p.2).filter fun i => Spec.activeAt s k p.1 i).map fun e => (p.1, e) := by
    rw [active_eq, List.filter_filter]
    simp only [Bool.and_assoc]
    rw [tileOf_filter_row (P := fun j e => decide (e < p.2) && Spec.activeAt s k j e) p.1 fun e h => row_of_activeAt (Bool.and_eq_true_iff.mp h).2,
      filter_range_of_lt col.le fun e h => of_decide_eq_true (Bool.and_eq_true_iff.mp h).1]
    refine congrArg (List.map _) (List.filter_congr fun e he => ?_)
    rw [decide_eq_true (List.mem_range.mp he), Bool.true_and]
  rw [earlier, List.length_map]
  rfl

theorem selected_rank {j e : Nat} (h : Spec.activeAt s k j e = true) : (selected s k j)[rank s k j e]? = some e :=
  getElem?_filter_range (col_of_activeAt h) h

/-- Where `vcompress` writes (R136). -/
def packedAt (s : State) (k : BitVec 3) : List (Nat × Nat) := (active s k).map fun p => (p.1, rank s k p.1 p.2)

theorem mem_packedAt {j i : Nat} : (j, i) ∈ packedAt s k ↔ j < s.h.shape.vrows.toNat ∧ i < (selected s k j).length := by
  unfold packedAt
  constructor
  · intro h
    obtain ⟨p, hp, e⟩ := List.mem_map.mp h
    cases e
    have here := mem_active.mp hp
    exact ⟨row_of_activeAt here, (List.getElem?_eq_some_iff.mp (selected_rank here)).1⟩
  · rintro ⟨-, hi⟩
    have here : Spec.activeAt s k j (selected s k j)[i] = true := (List.mem_filter.mp (List.getElem_mem hi)).2
    have distinct : (selected s k j).Nodup := List.nodup_range.filter _
    have at_ : i = rank s k j (selected s k j)[i] :=
      (List.getElem?_inj hi distinct).mp ((List.getElem?_eq_getElem hi).trans (selected_rank here).symm)
    exact List.mem_map.mpr ⟨(j, (selected s k j)[i]), mem_active.mpr here, Prod.ext rfl at_.symm⟩

/-- The hart with the active elements of each row packed to the row's low end. -/
def packed (s : State) (vd a : BitVec 5) (k : BitVec 3) : Hart :=
  s.h.putElems vd.toNat (Spec.sewOf s) (packedAt s k) fun j i => Spec.el s a (Spec.sewOf s) j ((selected s k j).getD i 0)

/-- Moving each active element to its rank packs the rows. -/
theorem foldl_compressTo : (compressTo (active s k)).foldl
    (fun g t => g.setElem vd.toNat (Spec.sewOf s) t.1 t.2.1 (s.h.elem a.toNat (Spec.sewOf s) t.1 t.2.2)) s.h = packed s vd a k := by
  unfold packed Hart.putElems packedAt
  rw [compressTo_active, List.foldl_map, List.foldl_map]
  refine List.foldl_ext _ _ _ fun g p hp => ?_
  have source : (selected s k p.1).getD (rank s k p.1 p.2) 0 = p.2 := by
    rw [List.getD_eq_getElem?_getD, selected_rank (mem_active.mp hp)]
    rfl
  dsimp only
  rw [source]
  rfl

/-- Packing writes each row's low elements and no other (R136). -/
theorem packed_written (shape : Spec.ShapeOk s.h.shape) (group : Spec.Group s vd) :
    Spec.ElementsWritten s.h.v (packed s vd a k).v vd.toNat (Spec.sewOf s)
      (fun j i => decide (j < s.h.shape.vrows.toNat ∧ i < (selected s k j).length))
      (fun j i => Spec.el s a (Spec.sewOf s) j ((selected s k j).getD i 0)) := by
  refine putElems_written s.h (sewOf_pos s) (fun j i => ?_) (fun p hp => ?_) fun _ _ _ => rfl
  · rw [decide_eq_true_iff, mem_packedAt]
  · obtain ⟨row, col⟩ := mem_packedAt.mp hp
    have short : (selected s k p.1).length ≤ s.h.shape.vl.toNat := (List.length_filter_le ..).trans_eq List.length_range
    exact fits_of_group shape group shape.2.2 row (col.trans_le short)

/-- The operand checks of `vcompress`. -/
def compressChecks (s : State) (vd a : BitVec 5) (ty : BitVec 2) : Option Trap :=
  firstTrap [checkStart s, need (s.vl = 0 || decide (s.h.shape.vstart = 0)) s.h.shape.vstart, checkWidth s ty, checkGroup s vd, checkGroup s a,
    need (!groupsMeet s vd a) (vd.setWidth 64)]

theorem execVcompress_eq : execVcompress vd a k c ty s = vecOp s (Spec.claimPerm c [k.toNat] (Spec.regs s a) (Spec.regs s vd))
    (compressChecks s vd a ty) fun _ => s.setH (packed s vd a k) := by
  unfold execVcompress
  dsimp only
  exact vecOp_congr (congrArg s.setH foldl_compressTo)

/-- `vcompress` restarts whole; under `vl` = 0 it completes whatever `vstart` holds (log 41). -/
theorem compressChecks_none (whole : s.h.shape.vl = 0 ∨ s.h.shape.vstart = 0) (width : Spec.WidthIs s ty) (dest : Spec.Group s vd)
    (source : Spec.Group s a) (apart : ¬ Spec.Overlap s vd a) :
    compressChecks s vd a ty = none := by
  unfold compressChecks
  simp only [firstTrap_cons, firstTrap_nil, checkStart_eq_none, need_eq_none, checkWidth_eq_none, checkGroup_eq_none, Bool.or_eq_true,
    decide_eq_true_iff, vl_eq_zero, Bool.not_eq_true', groupsMeet_eq_false, and_true]
  exact ⟨whole.imp_right Or.inl, whole, width, dest, source, apart⟩

theorem compress : Claims.Compress := by
  intro s vd a k c ty hart shape sel w cl whole width dest source apart joins
  have becomes : Becomes s (s.setH (packed s vd a k)) { s.h with v := (packed s vd a k).v } := by
    unfold packed
    rw [putElems_eq]
    exact becomes_setH s _
  obtain ⟨t, answer, done⟩ := vecOp_done (eff := fun _ => s.setH (packed s vd a k)) (compressChecks_none whole width dest source apart) hart joins
    becomes rfl rfl rfl rfl
  exact ⟨t, _, execVcompress_eq.trans answer, done, packed_written shape dest⟩

end

/-! ## `vbsq` (R69, R135) -/

section

variable {s : State} {vd a d : BitVec 5} {k : BitVec 3} {f : FpFmt}

/-- The active elements of block b of row j. -/
def blockMembers (s : State) (k : BitVec 3) (j b : Nat) : List Nat :=
  (List.range s.h.shape.vl.toNat).filter fun e => Spec.activeAt s k j e && decide (e / 32 = b)

theorem blockOf_active (j b : Nat) : blockOf (active s k) j b = (blockMembers s k j b).map fun e => (j, e) := by
  unfold blockOf blockMembers
  rw [active_eq, List.filter_filter]
  simp only [Bool.and_assoc]
  rw [tileOf_filter_row (P := fun j e => decide (e / 32 = b) && Spec.activeAt s k j e) j fun e h => row_of_activeAt (Bool.and_eq_true_iff.mp h).2]
  simp only [Bool.and_comm]

theorem scaleAt_active (j b : Nat) :
    scaleAt s f a (active s k) j b = blockScale f ((blockMembers s k j b).map fun e => fpDecode .f32 (Spec.el s a 32 j e)) := by
  unfold scaleAt
  rw [blockOf_active, List.map_map]
  rfl

/-- The blocks that have an active element. -/
def scaled (s : State) (k : BitVec 3) (j b : Nat) : Bool := decide (j < s.h.shape.vrows.toNat) && !(blockMembers s k j b).isEmpty

theorem scaled_lt {j b : Nat} (h : scaled s k j b = true) : j < s.h.shape.vrows.toNat ∧ ∃ e < s.h.shape.vl.toNat, e / 32 = b := by
  obtain ⟨row, some⟩ := Bool.and_eq_true_iff.mp h
  obtain ⟨e, he⟩ := List.exists_mem_of_ne_nil _ (by simpa using some)
  obtain ⟨col, here⟩ := List.mem_filter.mp he
  exact ⟨of_decide_eq_true row, e, List.mem_range.mp col, of_decide_eq_true (Bool.and_eq_true_iff.mp here).2⟩

theorem mem_tile {r n j b : Nat} : (j, b) ∈ tile r n ↔ j < r ∧ b < n := by simp [tile]

theorem tile_filter_of_lt {n m r : Nat} {P : Nat → Nat → Bool} (le : m ≤ n) (bound : ∀ j b, P j b = true → b < m) :
    (tile r n).filter (fun p => P p.1 p.2) = (tile r m).filter fun p => P p.1 p.2 := by
  unfold tile
  rw [List.filter_flatMap, List.filter_flatMap]
  refine congrArg (List.flatMap · _) (funext fun j => ?_)
  rw [List.filter_map, List.filter_map]
  exact congrArg (List.map _) (filter_range_of_lt le (bound j))

/-- `vbsq` visits just the blocks that have an active element. -/
theorem blocks_eq : ((tile s.vrows ((s.vl + 31) / 32)).filter fun q => !(blockOf (active s k) q.1 q.2).isEmpty)
    = (Spec.tileOf s).filter fun q => scaled s k q.1 q.2 := by
  have visited : ((tile s.vrows ((s.vl + 31) / 32)).filter fun q => !(blockOf (active s k) q.1 q.2).isEmpty)
      = (tile s.vrows ((s.vl + 31) / 32)).filter fun q => scaled s k q.1 q.2 := by
    refine List.filter_congr fun q hq => ?_
    obtain ⟨j, b⟩ := q
    have row : j < s.h.shape.vrows.toNat := (mem_tile.mp hq).1
    unfold scaled
    dsimp only
    rw [decide_eq_true row, Bool.true_and, blockOf_active, List.isEmpty_map]
  have shorter : (s.vl + 31) / 32 ≤ s.vl := by omega
  rw [visited]
  refine (tile_filter_of_lt shorter fun j b h => ?_).symm
  obtain ⟨-, e, he, rfl⟩ := scaled_lt h
  have : e < s.vl := he
  omega

/-- The scale of block b of row j, over its active elements. -/
def scaleOf (s : State) (a : BitVec 5) (k : BitVec 3) (f : FpFmt) (j b : Nat) : Nat × Flags :=
  blockScale f ((blockMembers s k j b).map fun e => fpDecode .f32 (Spec.el s a 32 j e))

/-- Element e of row j quantized under its block's scale. -/
def quantOf (s : State) (a : BitVec 5) (k : BitVec 3) (f : FpFmt) (j e : Nat) : Nat × Flags :=
  blockQuant f s.rnd (scaleOf s a k f j (e / 32)).1 (fpDecode .f32 (Spec.el s a 32 j e))

/-- The effect of `vbsq`: the quantized elements, and then the scales of the blocks. -/
def quantize (s : State) (vd a d : BitVec 5) (k : BitVec 3) (f : FpFmt) : State :=
  fpPut (fpPut s vd (fpWidth f) (active s k) (quantOf s a k f)) d 8 ((Spec.tileOf s).filter fun q => scaled s k q.1 q.2) (scaleOf s a k f)

theorem execVbsq_eq {k fmt : BitVec 2} {c : Bool} :
    execVbsq vd a d k c fmt s = vecOp s (Spec.claimWide c (k.setWidth 3) (Spec.regs s a) (Spec.regs s vd ++ Spec.regs s d)) (checkBlock s vd a d)
      fun _ => quantize s vd a d (k.setWidth 3) (Spec.narrowFmt fmt) := by
  unfold execVbsq
  dsimp only
  refine vecOp_congr ?_
  rw [blockFmt_eq, blocks_eq]
  simp only [scaleAt_active]
  rfl

theorem fpWidth_narrowFmt_le (x : BitVec 2) : fpWidth (Spec.narrowFmt x) ≤ 32 := by
  revert x
  decide

/-- The elements and the scales are written one after the other, and the flags of both are added. -/
theorem quantize_becomes (shape : Spec.ShapeOk s.h.shape) (width : Spec.sewOf s = 32) (narrow : fpWidth f ≤ 32) (elements : Spec.Group s vd)
    (scales : Spec.Group s d) :
    ∃ v1 v2, Becomes s (quantize s vd a d k f) { s.h with v := v2, user := { s.h.user with fflags :=
        (s.h.user.fflags ||| Spec.flagsOver s (Spec.activeAt s k) (fun j e => (quantOf s a k f j e).2)
          ||| Spec.flagsOver s (scaled s k) (fun j b => (scaleOf s a k f j b).2)) } }
      ∧ Spec.ElementsWritten s.h.v v1 vd.toNat (fpWidth f) (Spec.activeAt s k) (fun j e => (quantOf s a k f j e).1)
      ∧ Spec.ElementsWritten v1 v2 d.toNat 8 (scaled s k) (fun j b => (scaleOf s a k f j b).1) := by
  have row : s.h.shape.vl.toNat * 32 ≤ 4096 := width ▸ shape.2.2
  let quantized : Hart := { s.h with
    v := (s.h.putElems vd.toNat (fpWidth f) (active s k) fun j e => (quantOf s a k f j e).1).v
    user := { s.h.user with fflags := s.h.user.fflags ||| orFlagsAt (active s k) fun j e => (quantOf s a k f j e).2 } }
  have first : Becomes s _ quantized := fpPut_becomes s vd (fpWidth f) (active s k) (quantOf s a k f)
  have second := fpPut_becomes (fpPut s vd (fpWidth f) (active s k) (quantOf s a k f)) d 8 ((Spec.tileOf s).filter fun q => scaled s k q.1 q.2)
    (scaleOf s a k f)
  rw [first.h] at second
  refine ⟨quantized.v, _, ?_, putElems_written s.h (fpWidth_pos f) (ps := active s k) (fun j e => (mem_active (p := (j, e))).symm) (fun p hp => ?_)
    fun _ _ _ => rfl, putElems_written quantized (by decide) (ps := (Spec.tileOf s).filter fun q => scaled s k q.1 q.2) (fun j b => ?_) (fun p hp => ?_)
    fun _ _ _ => rfl⟩
  · have flags : orFlagsAt (active s k) (fun j e => (quantOf s a k f j e).2)
        = Spec.flagsOver s (Spec.activeAt s k) fun j e => (quantOf s a k f j e).2 := by
      rw [active_eq]
      rfl
    rw [← flags]
    exact first.trans second
  · have here := mem_active.mp hp
    exact fits_of_group shape elements ((Nat.mul_le_mul_left _ narrow).trans row) (row_of_activeAt here) (col_of_activeAt here)
  · rw [List.mem_filter, mem_tileOf]
    refine (and_iff_right_of_imp fun h => ?_).symm
    obtain ⟨inside, e, he, rfl⟩ := scaled_lt h
    exact ⟨inside, (Nat.div_le_self ..).trans_lt he⟩
  · obtain ⟨inside, col⟩ := mem_tileOf.mp (List.mem_filter.mp hp).1
    exact fits_of_group shape scales ((Nat.mul_le_mul_left _ (by decide)).trans row) inside col

theorem blockQuantize : Claims.BlockQuantize := by
  intro s vd a d k c fmt hart shape f m act value members scale blocks elem cl start width elements source scales apart apartD apartA joins
  have checks : checkBlock s vd a d = none := by
    unfold checkBlock
    simp only [firstTrap_cons, firstTrap_nil, checkStart_eq_none, need_eq_none, checkGroup_eq_none, Bool.and_eq_true, decide_eq_true_iff, and_true]
    exact ⟨start, width, elements, source, scales, ⟨apart, apartD⟩, apartA⟩
  obtain ⟨v1, v2, becomes, quantized, scaled⟩ := quantize_becomes (a := a) (k := k.setWidth 3) shape width (fpWidth_narrowFmt_le fmt) elements scales
  obtain ⟨t, answer, done⟩ := vecOp_done (eff := fun _ => quantize s vd a d (k.setWidth 3) f) checks hart joins becomes rfl rfl rfl rfl
  exact ⟨t, v1, v2, execVbsq_eq.trans answer, done, quantized, scaled⟩

end

/-- Settles O19: a reduction folds its active slots, or meets them in the tree, into one result; `vcompress` and `vbsq` write the elements they name. -/
theorem reductionsAndPacking : Obligations.ReductionsAndPacking := ⟨integerReductions, floatReductions, compress, blockQuantize⟩

end Sys2Proof.Machine

namespace Sys2Proof.Encoding

/-! ## Setting a field of a number -/

/-- The number `m` with the bits of `v` set from bit `k` up (R76). -/
def place {w : Nat} (m : Nat) (v : BitVec w) (k : Nat) : Nat := m ||| v.toNat <<< k

section

variable {m n k w lo len i : Nat} {v : BitVec w}

theorem testBit_fld (n lo len i : Nat) : (fld n lo len).testBit i = (decide (i < len) && n.testBit (lo + i)) := by
  simp [fld, Nat.testBit_mod_two_pow, Nat.testBit_div_two_pow, Nat.add_comm]

theorem testBit_place (m : Nat) (v : BitVec w) (k i : Nat) :
    (place m v k).testBit i = (m.testBit i || decide (k ≤ i) && v.toNat.testBit (i - k)) := by
  simp [place]

theorem testBit_of_width_le (h : w ≤ i) : v.toNat.testBit i = false :=
  Nat.testBit_lt_two_pow (v.isLt.trans_le (Nat.pow_le_pow_right (by decide) h))

/-- A field is zero where all of its bits are. -/
theorem fld_eq_zero_iff : fld n lo len = 0 ↔ ∀ i, lo ≤ i → i < lo + len → n.testBit i = false := by
  constructor
  · intro zero i above below
    have bit := congrArg (Nat.testBit · (i - lo)) zero
    simpa [testBit_fld, Nat.sub_lt_left_of_lt_add above below, Nat.add_sub_cancel' above] using bit
  · refine fun clear => Nat.eq_of_testBit_eq fun i => ?_
    rw [testBit_fld, Nat.zero_testBit]
    by_cases inside : i < len
    · simp [clear (lo + i) (Nat.le_add_right ..) (Nat.add_lt_add_left inside lo)]
    · simp [inside]

/-- Numbers whose bits agree in a field have it in common. -/
theorem fld_congr (h : ∀ i, lo ≤ i → i < lo + len → n.testBit i = m.testBit i) : fld n lo len = fld m lo len := by
  refine Nat.eq_of_testBit_eq fun i => ?_
  simp only [testBit_fld]
  by_cases inside : i < len
  · simp [h (lo + i) (Nat.le_add_right ..) (Nat.add_lt_add_left inside lo)]
  · simp [inside]

/-- A field that was zero holds what is set there. -/
theorem fld_place (h : fld m k w = 0) (v : BitVec w) : fld (place m v k) k w = v.toNat := by
  refine Nat.eq_of_testBit_eq fun i => ?_
  rw [testBit_fld, testBit_place]
  by_cases inside : i < w
  · simp [inside, fld_eq_zero_iff.mp h (k + i) (Nat.le_add_right ..) (Nat.add_lt_add_left inside k)]
  · simp [inside, testBit_of_width_le (v := v) (Nat.le_of_not_lt inside)]

/-- Where the bits of a field are still zero, setting them is adding the field's value at its place, as the encoder does. -/
theorem place_eq_add (h : fld m k w = 0) (v : BitVec w) : place m v k = m + v.toNat * 2 ^ k := by
  have low : m % 2 ^ k < 2 ^ k := Nat.mod_lt _ (Nat.two_pow_pos k)
  have fits : 2 ^ k * v.toNat + m % 2 ^ k < 2 ^ (k + w) := by
    calc 2 ^ k * v.toNat + m % 2 ^ k < 2 ^ k * v.toNat + 2 ^ k := Nat.add_lt_add_left low _
      _ = 2 ^ k * (v.toNat + 1) := by ring
      _ ≤ 2 ^ k * 2 ^ w := Nat.mul_le_mul_left _ v.isLt
      _ = 2 ^ (k + w) := (Nat.pow_add ..).symm
  have clear : m = 2 ^ (k + w) * (m / 2 ^ k / 2 ^ w) + m % 2 ^ k := by
    have split := Nat.div_add_mod (m / 2 ^ k) (2 ^ w)
    rw [show m / 2 ^ k % 2 ^ w = 0 from h, Nat.add_zero] at split
    rw [Nat.pow_add, Nat.mul_assoc, split, Nat.div_add_mod]
  calc place m v k = 2 ^ (k + w) * (m / 2 ^ k / 2 ^ w) ||| m % 2 ^ k ||| 2 ^ k * v.toNat := by
        rw [← Nat.two_pow_add_eq_or_of_lt (low.trans_le (Nat.pow_le_pow_right (by decide) (Nat.le_add_right ..))), ← clear, place,
          Nat.shiftLeft_eq, Nat.mul_comm]
    _ = 2 ^ (k + w) * (m / 2 ^ k / 2 ^ w) + (2 ^ k * v.toNat + m % 2 ^ k) := by
        rw [Nat.two_pow_add_eq_or_of_lt fits, Nat.two_pow_add_eq_or_of_lt low, Nat.or_assoc, Nat.or_comm (m % 2 ^ k)]
    _ = m + v.toNat * 2 ^ k := by
        rw [Nat.add_comm (2 ^ k * v.toNat), ← Nat.add_assoc, ← clear, Nat.mul_comm]

end

/-! ## Fields in parts -/

/-- A field in two parts. -/
theorem fld_append (n lo a b : Nat) : fld n lo (a + b) = fld n lo a + 2 ^ a * fld n (lo + a) b := by
  unfold fld
  rw [Nat.pow_add, Nat.mod_mul, Nat.div_div_eq_div_mul, ← Nat.pow_add]

theorem fld_lt (n lo len : Nat) : fld n lo len < 2 ^ len := Nat.mod_lt _ (Nat.two_pow_pos len)

/-- The seven low bits, where some instructions of a major are told by the upper four of them (R83). -/
theorem func7_eq (n : Nat) : fld n 0 7 = fld n 0 3 + 8 * fld n 3 4 := fld_append n 0 3 4

/-- The eight bits that tell the cache operations of major 0x3E, and the upper four that tell its other instructions (R83). -/
theorem func16_high_eq (n : Nat) : fld n 8 8 = fld n 8 4 + 16 * fld n 12 4 := fld_append n 8 4 4

/-- The lowest bit of the width of a scalar store (R106). -/
theorem fld_bit0 (n : Nat) : fld n 0 1 = fld n 0 3 % 2 := by
  have parts : fld n 0 3 = fld n 0 1 + 2 * fld n 1 2 := fld_append n 0 1 2
  have low : fld n 0 1 < 2 := fld_lt n 0 1
  omega

/-- The two upper bits of a register number (R166). -/
theorem fld_reg_high (n : Nat) : fld n 24 2 = fld n 21 5 / 8 := by
  have parts : fld n 21 5 = fld n 21 3 + 8 * fld n 24 2 := fld_append n 21 3 2
  have low : fld n 21 3 < 8 := fld_lt n 21 3
  omega

/-! ## The fields of a word

A layout lists the lowest bit and the width of each field of a word. -/

/-- The bits of a layout's fields. -/
def maskOf : List (Nat × Nat) → Nat
  | [] => 0
  | (k, w) :: r => place (maskOf r) (BitVec.allOnes w) k

/-- No two fields of a layout share a bit. -/
def fieldsApart : List (Nat × Nat) → Bool
  | [] => true
  | (k, w) :: r => decide (fld (maskOf r) k w = 0) && fieldsApart r

/-- The fixed bits `m` and the fields of a layout make up a word of 32 bits and share no bit (R76). -/
abbrev LayoutOk (m : Nat) (L : List (Nat × Nat)) : Prop :=
  m < 2 ^ 32 ∧ maskOf L < 2 ^ 32 ∧ m &&& maskOf L = 0 ∧ fieldsApart L = true

/-- The values of a list, each with its lowest bit, are fields of a layout. -/
inductive HasLayout : List (Nat × Nat) → List (Nat × Nat) → Prop
  | nil : HasLayout [] []
  | num {w k : Nat} {v : BitVec w} {fs L} : HasLayout fs L → HasLayout ((v.toNat, k) :: fs) ((k, w) :: L)
  | flag {k : Nat} {b : Bool} {fs L} : HasLayout fs L → HasLayout ((b.toNat, k) :: fs) ((k, 1) :: L)

/-- The fields of a layout read as the values of a list. -/
def Reads (n : Nat) : List (Nat × Nat) → List (Nat × Nat) → Prop
  | (v, k) :: fs, (_, w) :: L => fld n k w = v ∧ Reads n fs L
  | _, _ => True

section

variable {m n k w lo len i : Nat} {v : BitVec w} {fs L : List (Nat × Nat)}

theorem testBit_allOnes : (BitVec.allOnes w).toNat.testBit i = decide (i < w) := by
  simp [BitVec.toNat_allOnes, Nat.testBit_two_pow_sub_one]

/-- The mask of a layout covers its first field, and the mask of the others. -/
theorem testBit_maskOf_cons : (maskOf ((k, w) :: L)).testBit i = ((maskOf L).testBit i || decide (k ≤ i) && decide (i - k < w)) := by
  rw [maskOf, testBit_place, testBit_allOnes]

theorem fld_eq_zero_of_mask (clear : m &&& maskOf ((k, w) :: L) = 0) : fld m k w = 0 := by
  refine fld_eq_zero_iff.mpr fun i above below => ?_
  have bit := congrArg (Nat.testBit · i) clear
  simpa [testBit_maskOf_cons, above, Nat.sub_lt_left_of_lt_add above below] using bit

/-- A field set beside the others of a layout leaves them zero. -/
theorem place_and_mask (clear : m &&& maskOf ((k, w) :: L) = 0) (apart : fld (maskOf L) k w = 0) : place m v k &&& maskOf L = 0 := by
  refine Nat.eq_of_testBit_eq fun i => ?_
  have bit := congrArg (Nat.testBit · i) clear
  simp only [Nat.testBit_and, testBit_maskOf_cons, Nat.zero_testBit] at bit
  rw [Nat.testBit_and, testBit_place, Nat.zero_testBit]
  by_cases other : (maskOf L).testBit i = true
  · have outside : (decide (k ≤ i) && v.toNat.testBit (i - k)) = false := by
      by_cases above : k ≤ i
      · have beyond : w ≤ i - k := by
          by_contra inside
          have := fld_eq_zero_iff.mp apart i above (by omega)
          simp [other] at this
        simp [testBit_of_width_le beyond]
      · simp [above]
    rw [outside]
    simpa [other] using bit
  · simp [other]

/-- What holds of a word with the fixed bits `m`: outside the fields of its layout it has the bits of `m`, and the fields hold their values. -/
def WordOf (n m : Nat) (fs L : List (Nat × Nat)) : Prop :=
  (∀ i, (maskOf L).testBit i = false → n.testBit i = m.testBit i) ∧ Reads n fs L

theorem wordOf_cons (clear : m &&& maskOf ((k, w) :: L) = 0) (apart : fld (maskOf L) k w = 0) (rest : WordOf n (place m v k) fs L) :
    WordOf n m ((v.toNat, k) :: fs) ((k, w) :: L) := by
  obtain ⟨fixed, reads⟩ := rest
  refine ⟨fun i outside => ?_, ?_, reads⟩
  · rw [testBit_maskOf_cons, Bool.or_eq_false_iff] at outside
    obtain ⟨others, this⟩ := outside
    rw [fixed i others, testBit_place]
    by_cases above : k ≤ i
    · have beyond : w ≤ i - k := by simpa [above] using this
      simp [testBit_of_width_le beyond]
    · simp [above]
  · rw [fld_congr (m := place m v k) fun i above below => fixed i (fld_eq_zero_iff.mp apart i above below),
      fld_place (fld_eq_zero_of_mask clear)]

theorem sumFields_cons (clear : fld m k w = 0) : sumFields m ((v.toNat, k) :: fs) = sumFields (place m v k) fs := by
  rw [place_eq_add clear]
  rfl

/-- The word that the encoder adds up has its fixed bits and its fields. -/
theorem wordOf_sumFields (layout : HasLayout fs L) : ∀ {m}, m &&& maskOf L = 0 → fieldsApart L = true → WordOf (sumFields m fs) m fs L := by
  induction layout with
  | nil => exact fun _ _ => ⟨fun _ _ => rfl, trivial⟩
  | @num w k v fs L _ ih =>
    intro m clear apart
    obtain ⟨first, others⟩ : fld (maskOf L) k w = 0 ∧ fieldsApart L = true := by simpa [fieldsApart] using apart
    rw [sumFields_cons (fld_eq_zero_of_mask clear)]
    exact wordOf_cons clear first (ih (place_and_mask clear first) others)
  | @flag k b fs L _ ih =>
    intro m clear apart
    obtain ⟨first, others⟩ : fld (maskOf L) k 1 = 0 ∧ fieldsApart L = true := by simpa [fieldsApart] using apart
    rw [← BitVec.toNat_ofBool, sumFields_cons (fld_eq_zero_of_mask clear)]
    exact wordOf_cons clear first (ih (place_and_mask clear first) others)

/-- Outside its fields a word has the fixed bits. -/
theorem WordOf.fld_eq (word : WordOf n m fs L) (outside : fld (maskOf L) lo len = 0) : fld n lo len = fld m lo len :=
  fld_congr fun i above below => word.1 i (fld_eq_zero_iff.mp outside i above below)

theorem WordOf.lt (word : WordOf n m fs L) (fixed : m < 2 ^ 32) (fields : maskOf L < 2 ^ 32) : n < 2 ^ 32 := by
  refine Nat.lt_pow_two_of_testBit _ fun i beyond => ?_
  have high {x : Nat} (h : x < 2 ^ 32) : x.testBit i = false :=
    Nat.testBit_lt_two_pow (h.trans_le (Nat.pow_le_pow_right (by decide) beyond))
  rw [word.1 i (high fields), high fixed]

end

/-! ## Decoding an encoded instruction -/

/-- The instruction, if it is well formed, decodes from the word that encodes it. -/
def Decodes (i : Instr) : Prop := i.wellFormed = true → ∃ w, encode i = some w ∧ decode w = .ok i

theorem Decodes.of_word {i : Instr} {m : Nat} {fs L : List (Nat × Nat)} (word : encode i = enc m fs) (layout : HasLayout fs L)
    (ok : LayoutOk m L)
    (read : ∀ n, (∀ lo len, fld (maskOf L) lo len = 0 → fld n lo len = fld m lo len) → Reads n fs L → i.wellFormed = true → decodeNat n = .ok i) :
    Decodes i := by
  intro legal
  obtain ⟨fixed, fields, clear, apart⟩ := ok
  have summed := wordOf_sumFields layout clear apart
  refine ⟨_, word, ?_⟩
  rw [decode, BitVec.toNat_ofNat, Nat.mod_eq_of_lt (summed.lt fixed fields)]
  exact read _ (fun _ _ => summed.fld_eq) summed.2 legal

/-- A field of the fixed bits, which simp computes. -/
theorem fld_literal {m lo len : Nat} : fld (no_index (OfNat.ofNat m)) lo len = OfNat.ofNat m / 2 ^ lo % 2 ^ len := by
  rw [fld]

/-- What decoding answers for a word by its `sub` and what it stands for (R84). -/
def answer (sub : Nat) (i : Instr) : Decoded := if sub = 0 then .ok i else .error (BitVec.ofNat 8 sub)

theorem decodeNat_eq (n : Nat) : decodeNat n = answer (subOf n) (instrOf n) := rfl

/-! ## The instructions of each major

Each rule of a `decodeNat_` lemma names the table of one major. Each `decodes_` lemma then reads the fixed bits and the fields of its
instructions' words in those tables. -/

/-- Majors 0x01 to 0x0F (R83). -/
theorem decodeNat_scalarInteger (n : Nat) :
    (fld n 26 6 = 0x01 → decodeNat n = answer (sub01 n) (instr01 n)) ∧ (fld n 26 6 = 0x02 → decodeNat n = answer (sub02 n) (instr02 n))
      ∧ (fld n 26 6 = 0x03 → decodeNat n = answer (sub03 n) (instr03 n)) ∧ (fld n 26 6 = 0x04 → decodeNat n = answer 0 (instr04 n))
      ∧ (fld n 26 6 = 0x05 → decodeNat n = answer 0 (instr05 n)) ∧ (fld n 26 6 = 0x06 → decodeNat n = answer 0 (instr06 n))
      ∧ (fld n 26 6 = 0x07 → decodeNat n = answer 0 (instr07 n)) ∧ (fld n 26 6 = 0x08 → decodeNat n = answer 0 (instr08 n))
      ∧ (fld n 26 6 = 0x09 → decodeNat n = answer 0 (instr09 n)) ∧ (fld n 26 6 = 0x0A → decodeNat n = answer 0 (instr0A n))
      ∧ (fld n 26 6 = 0x0B → decodeNat n = answer 0 (instr0B n)) ∧ (fld n 26 6 = 0x0C → decodeNat n = answer 0 (instr0C n))
      ∧ (fld n 26 6 = 0x0D → decodeNat n = answer 0 (instr0D n)) ∧ (fld n 26 6 = 0x0E → decodeNat n = answer 0 (instr0E n))
      ∧ (fld n 26 6 = 0x0F → decodeNat n = answer (sub0F n) (instr0F n)) := by
  and_intros <;> intro major <;> simp only [decodeNat_eq, subOf, instrOf, major]

/-- Integer instructions, branches and `bsig`. -/
@[simp] theorem decodes_scalarInteger :
    (∀ rd rs1 rs2, Decodes (.add rd rs1 rs2)) ∧ (∀ rd rs1 rs2, Decodes (.sub rd rs1 rs2)) ∧ (∀ rd rs1 rs2, Decodes (.and rd rs1 rs2))
      ∧ (∀ rd rs1 rs2, Decodes (.or rd rs1 rs2)) ∧ (∀ rd rs1 rs2, Decodes (.xor rd rs1 rs2)) ∧ (∀ rd rs1 rs2, Decodes (.sll rd rs1 rs2))
      ∧ (∀ rd rs1 rs2, Decodes (.srl rd rs1 rs2)) ∧ (∀ rd rs1 rs2, Decodes (.sra rd rs1 rs2)) ∧ (∀ rd rs1 rs2, Decodes (.slt rd rs1 rs2))
      ∧ (∀ rd rs1 rs2, Decodes (.sltz rd rs1 rs2)) ∧ (∀ rd rs1 rs2, Decodes (.addw rd rs1 rs2)) ∧ (∀ rd rs1 rs2, Decodes (.subw rd rs1 rs2))
      ∧ (∀ rd rs1 rs2, Decodes (.min rd rs1 rs2)) ∧ (∀ rd rs1 rs2, Decodes (.max rd rs1 rs2)) ∧ (∀ rd rs1 rs2, Decodes (.minz rd rs1 rs2))
      ∧ (∀ rd rs1 rs2, Decodes (.maxz rd rs1 rs2)) ∧ (∀ rd rs1 rs2, Decodes (.mul rd rs1 rs2)) ∧ (∀ rd rs1 rs2, Decodes (.mulh rd rs1 rs2))
      ∧ (∀ rd rs1 rs2, Decodes (.mulhz rd rs1 rs2)) ∧ (∀ rd rs1 rs2, Decodes (.div rd rs1 rs2)) ∧ (∀ rd rs1 rs2, Decodes (.divz rd rs1 rs2))
      ∧ (∀ rd rs1 rs2, Decodes (.rem rd rs1 rs2)) ∧ (∀ rd rs1 rs2, Decodes (.remz rd rs1 rs2)) ∧ (∀ rd rs1 sh, Decodes (.slli rd rs1 sh))
      ∧ (∀ rd rs1 sh, Decodes (.srli rd rs1 sh)) ∧ (∀ rd rs1 sh, Decodes (.srai rd rs1 sh)) ∧ (∀ rd rs1 sh, Decodes (.rori rd rs1 sh))
      ∧ (∀ rd rs1, Decodes (.clz rd rs1)) ∧ (∀ rd rs1, Decodes (.ctz rd rs1)) ∧ (∀ rd rs1, Decodes (.cpop rd rs1))
      ∧ (∀ rd rs1, Decodes (.rev8 rd rs1)) ∧ (∀ rd rs1 rs2, Decodes (.zeqz rd rs1 rs2)) ∧ (∀ rd rs1 rs2, Decodes (.znez rd rs1 rs2))
      ∧ (∀ rd rs1 imm, Decodes (.addi rd rs1 imm)) ∧ (∀ rd rs1 imm, Decodes (.andi rd rs1 imm)) ∧ (∀ rd rs1 imm, Decodes (.ori rd rs1 imm))
      ∧ (∀ rd imm, Decodes (.lui rd imm)) ∧ (∀ rd imm, Decodes (.auipc rd imm)) ∧ (∀ rd off, Decodes (.jal rd off))
      ∧ (∀ rd rs1 imm, Decodes (.jalr rd rs1 imm)) ∧ (∀ rs1 rs2 off, Decodes (.beq rs1 rs2 off)) ∧ (∀ rs1 rs2 off, Decodes (.bne rs1 rs2 off))
      ∧ (∀ rs1 rs2 off, Decodes (.blt rs1 rs2 off)) ∧ (∀ rs1 rs2 off, Decodes (.bge rs1 rs2 off)) ∧ (∀ imm, Decodes (.bsig imm)) := by
  and_intros <;> intros <;> refine .of_word rfl (by repeat constructor) (by decide) fun n => ?_
  all_goals
    simp +contextual [decodeNat_scalarInteger, answer, maskOf, place, fld_literal, Reads, num, sub01, sub02, sub03, sub0F, instr01, instr02,
      instr03, instr04, instr05, instr06, instr07, instr08, instr09, instr0A, instr0B, instr0C, instr0D, instr0E, instr0F]

/-- Majors 0x10 to 0x17 (R83). -/
theorem decodeNat_scalarMemory (n : Nat) :
    (fld n 26 6 = 0x10 → decodeNat n = answer 0 (instr10 n)) ∧ (fld n 26 6 = 0x11 → decodeNat n = answer 0 (instr11 n))
      ∧ (fld n 26 6 = 0x12 → decodeNat n = answer 0 (instr12 n)) ∧ (fld n 26 6 = 0x13 → decodeNat n = answer 0 (instr13 n))
      ∧ (fld n 26 6 = 0x14 → decodeNat n = answer 0 (instr14 n)) ∧ (fld n 26 6 = 0x15 → decodeNat n = answer 0 (instr15 n))
      ∧ (fld n 26 6 = 0x16 → decodeNat n = answer (sub16 n) (instr16 n)) ∧ (fld n 26 6 = 0x17 → decodeNat n = answer (sub17 n) (instr17 n)) := by
  and_intros <;> intro major <;> simp only [decodeNat_eq, subOf, instrOf, major]

/-- Scalar loads and stores at an immediate offset. -/
@[simp] theorem decodes_scalarMemory :
    (∀ rd rs1 imm, Decodes (.ld rd rs1 imm)) ∧ (∀ rd rs1 imm, Decodes (.lw rd rs1 imm)) ∧ (∀ rd rs1 imm, Decodes (.lwz rd rs1 imm))
      ∧ (∀ rd rs1 imm, Decodes (.lbz rd rs1 imm)) ∧ (∀ rs rs1 imm, Decodes (.sd rs rs1 imm)) ∧ (∀ rs rs1 imm, Decodes (.sw rs rs1 imm)) := by
  and_intros <;> intros <;> refine .of_word rfl (by repeat constructor) (by decide) fun n => ?_
  all_goals
    simp +contextual [decodeNat_scalarMemory, answer, maskOf, place, fld_literal, Reads, num, instr10, instr11, instr12, instr13, instr14, instr15]

/-- Indexed loads, atomics and fences, whose width and scope a description limits (R106, R111). -/
@[simp] theorem decodes_scalarAtomics :
    (∀ rd rs1 rs2 width, Decodes (.lx rd rs1 rs2 width)) ∧ (∀ rd rs1 rs2 width, Decodes (.lsp rd rs1 rs2 width))
      ∧ (∀ rd rs1 rs2 scope ord, Decodes (.amoswapD rd rs1 rs2 scope ord)) ∧ (∀ rd rs1 rs2 scope ord, Decodes (.amoswapW rd rs1 rs2 scope ord))
      ∧ (∀ rd rs1 rs2 scope ord, Decodes (.amoaddD rd rs1 rs2 scope ord)) ∧ (∀ rd rs1 rs2 scope ord, Decodes (.amoaddW rd rs1 rs2 scope ord))
      ∧ (∀ rd rs1 rs2 scope ord, Decodes (.amoandD rd rs1 rs2 scope ord)) ∧ (∀ rd rs1 rs2 scope ord, Decodes (.amoandW rd rs1 rs2 scope ord))
      ∧ (∀ rd rs1 rs2 scope ord, Decodes (.amoorD rd rs1 rs2 scope ord)) ∧ (∀ rd rs1 rs2 scope ord, Decodes (.amoorW rd rs1 rs2 scope ord))
      ∧ (∀ rd rs1 rs2 scope ord, Decodes (.amoxorD rd rs1 rs2 scope ord)) ∧ (∀ rd rs1 rs2 scope ord, Decodes (.amoxorW rd rs1 rs2 scope ord))
      ∧ (∀ rd rs1 rs2 scope ord, Decodes (.amominD rd rs1 rs2 scope ord)) ∧ (∀ rd rs1 rs2 scope ord, Decodes (.amominW rd rs1 rs2 scope ord))
      ∧ (∀ rd rs1 rs2 scope ord, Decodes (.amomaxD rd rs1 rs2 scope ord)) ∧ (∀ rd rs1 rs2 scope ord, Decodes (.amomaxW rd rs1 rs2 scope ord))
      ∧ (∀ rd rs1 rs2 scope ord, Decodes (.amominzD rd rs1 rs2 scope ord)) ∧ (∀ rd rs1 rs2 scope ord, Decodes (.amominzW rd rs1 rs2 scope ord))
      ∧ (∀ rd rs1 rs2 scope ord, Decodes (.amomaxzD rd rs1 rs2 scope ord)) ∧ (∀ rd rs1 rs2 scope ord, Decodes (.amomaxzW rd rs1 rs2 scope ord))
      ∧ (∀ rd rs1 rs2 scope ord, Decodes (.amocasD rd rs1 rs2 scope ord)) ∧ (∀ rd rs1 rs2 scope ord, Decodes (.amocasW rd rs1 rs2 scope ord))
      ∧ (∀ rd rs1 rs2 scope ord, Decodes (.amoaddF32 rd rs1 rs2 scope ord)) ∧ (∀ rd rs1 scope, Decodes (.ldaW rd rs1 scope))
      ∧ (∀ rd rs1 scope, Decodes (.ldaD rd rs1 scope)) ∧ (∀ rs1 rs2 scope, Decodes (.staW rs1 rs2 scope))
      ∧ (∀ rs1 rs2 scope, Decodes (.staD rs1 rs2 scope)) ∧ (∀ scope ord, Decodes (.fence scope ord)) := by
  and_intros <;> intros <;> refine .of_word rfl (by repeat constructor) (by decide) fun n => ?_
  all_goals
    simp +contextual [decodeNat_scalarMemory, answer, maskOf, place, fld_literal, Reads, num, Instr.wellFormed, or_iff_not_imp_left, sub16, sub17,
      instr16, instr17]

/-- Indexed stores, whose width is even (R106). -/
@[simp] theorem decodes_indexedStores :
    (∀ rs rs1 rs2 width, Decodes (.sx rs rs1 rs2 width)) ∧ (∀ rs rs1 rs2 width, Decodes (.ssp rs rs1 rs2 width)) := by
  and_intros <;> intros <;> refine .of_word rfl (by repeat constructor) (by decide) fun n => ?_
  all_goals
    simp +contextual [decodeNat_scalarMemory, answer, maskOf, place, fld_literal, Reads, num, Instr.wellFormed, fld_bit0, sub16, instr16]

/-- Majors 0x18 to 0x1B (R83). -/
theorem decodeNat_scalarFloat (n : Nat) :
    (fld n 26 6 = 0x18 → decodeNat n = answer (sub18 n) (instr18 n)) ∧ (fld n 26 6 = 0x19 → decodeNat n = answer (sub19 n) (instr19 n))
      ∧ (fld n 26 6 = 0x1A → decodeNat n = answer (sub1A n) (instr1A n)) ∧ (fld n 26 6 = 0x1B → decodeNat n = answer (sub1B n) (instr1B n)) := by
  and_intros <;> intro major <;> simp only [decodeNat_eq, subOf, instrOf, major]

/-- Scalar floating point. -/
@[simp] theorem decodes_scalarFloat :
    (∀ rd rs1 rs2, Decodes (.faddF64 rd rs1 rs2)) ∧ (∀ rd rs1 rs2, Decodes (.fsubF64 rd rs1 rs2)) ∧ (∀ rd rs1 rs2, Decodes (.fmulF64 rd rs1 rs2))
      ∧ (∀ rd rs1 rs2, Decodes (.fdivF64 rd rs1 rs2)) ∧ (∀ rd rs1, Decodes (.fsqrtF64 rd rs1)) ∧ (∀ rd rs1 rs2, Decodes (.fmacF64 rd rs1 rs2))
      ∧ (∀ rd rs1 rs2, Decodes (.fmscF64 rd rs1 rs2)) ∧ (∀ rd rs1 rs2, Decodes (.fnmacF64 rd rs1 rs2))
      ∧ (∀ rd rs1 rs2, Decodes (.faddF32 rd rs1 rs2)) ∧ (∀ rd rs1 rs2, Decodes (.fsubF32 rd rs1 rs2))
      ∧ (∀ rd rs1 rs2, Decodes (.fmulF32 rd rs1 rs2)) ∧ (∀ rd rs1 rs2, Decodes (.fdivF32 rd rs1 rs2)) ∧ (∀ rd rs1, Decodes (.fsqrtF32 rd rs1))
      ∧ (∀ rd rs1 rs2, Decodes (.fmacF32 rd rs1 rs2)) ∧ (∀ rd rs1 rs2, Decodes (.fmscF32 rd rs1 rs2))
      ∧ (∀ rd rs1 rs2, Decodes (.fnmacF32 rd rs1 rs2)) ∧ (∀ rd rs1 single ty, Decodes (.ftoi rd rs1 single ty))
      ∧ (∀ rd rs1 single ty, Decodes (.ftrc rd rs1 single ty)) ∧ (∀ rd rs1 single ty, Decodes (.itof rd rs1 single ty))
      ∧ (∀ rd rs1, Decodes (.fnarrowF32 rd rs1)) ∧ (∀ rd rs1, Decodes (.fnarrowF16 rd rs1)) ∧ (∀ rd rs1, Decodes (.fnarrowBf16 rd rs1))
      ∧ (∀ rd rs1, Decodes (.fwidenF32 rd rs1)) ∧ (∀ rd rs1, Decodes (.fwidenF16 rd rs1)) ∧ (∀ rd rs1, Decodes (.fwidenBf16 rd rs1))
      ∧ (∀ rd rs1 rs2 single, Decodes (.feq rd rs1 rs2 single)) ∧ (∀ rd rs1 rs2 single, Decodes (.flt rd rs1 rs2 single))
      ∧ (∀ rd rs1 rs2 single, Decodes (.fle rd rs1 rs2 single)) ∧ (∀ rd rs1 rs2 single, Decodes (.fmin rd rs1 rs2 single))
      ∧ (∀ rd rs1 rs2 single, Decodes (.fmax rd rs1 rs2 single)) ∧ (∀ rd rs1 single, Decodes (.fclass rd rs1 single)) := by
  and_intros <;> intros <;> refine .of_word rfl (by repeat constructor) (by decide) fun n => ?_
  all_goals
    simp +contextual [decodeNat_scalarFloat, answer, maskOf, place, fld_literal, Reads, num, flag, sub18, sub19, sub1A, sub1B, instr18, instr19,
      instr1A, instr1B]

/-- Majors 0x20 to 0x22 (R83). -/
theorem decodeNat_vectorAdd (n : Nat) :
    (fld n 26 6 = 0x20 → decodeNat n = answer (sub20 n) (instr20 n)) ∧ (fld n 26 6 = 0x21 → decodeNat n = answer (sub21 n) (instr21 n))
      ∧ (fld n 26 6 = 0x22 → decodeNat n = answer (sub22 n) (instr22 n)) := by
  and_intros <;> intro major <;> simp only [decodeNat_eq, subOf, instrOf, major]

/-- Shapes, moves and the adding and narrowing of integers. -/
@[simp] theorem decodes_vectorAdd :
    (∀ rd rs1 rs2 sew, Decodes (.vshape rd rs1 rs2 sew)) ∧ (∀ vd vs1 vs2 conv, Decodes (.vmvx vd vs1 vs2 conv))
      ∧ (∀ vd vs1 vs2 conv, Decodes (.vmvxz vd vs1 vs2 conv)) ∧ (∀ vd vs1 vs2 conv, Decodes (.vmvv vd vs1 vs2 conv))
      ∧ (∀ vd vs1 mask conv, Decodes (.vbcast vd vs1 mask conv)) ∧ (∀ vd vs1 mask conv, Decodes (.vmv vd vs1 mask conv))
      ∧ (∀ vd mask conv, Decodes (.vid vd mask conv)) ∧ (∀ vd mask conv, Decodes (.vidr vd mask conv))
      ∧ (∀ vd mask conv, Decodes (.vidf vd mask conv)) ∧ (∀ vd vs1 vs2 mask conv scalar ty, Decodes (.vadd vd vs1 vs2 mask conv scalar ty))
      ∧ (∀ vd vs1 vs2 mask conv scalar ty, Decodes (.vsub vd vs1 vs2 mask conv scalar ty))
      ∧ (∀ vd vs1 vs2 mask conv scalar ty, Decodes (.vrsub vd vs1 vs2 mask conv scalar ty))
      ∧ (∀ vd vs1 vs2 mask conv scalar ty, Decodes (.vmin vd vs1 vs2 mask conv scalar ty))
      ∧ (∀ vd vs1 vs2 mask conv scalar ty, Decodes (.vminz vd vs1 vs2 mask conv scalar ty))
      ∧ (∀ vd vs1 vs2 mask conv scalar ty, Decodes (.vmax vd vs1 vs2 mask conv scalar ty))
      ∧ (∀ vd vs1 vs2 mask conv scalar ty, Decodes (.vmaxz vd vs1 vs2 mask conv scalar ty))
      ∧ (∀ vd vs1 vs2 mask conv scalar ty, Decodes (.vsadd vd vs1 vs2 mask conv scalar ty))
      ∧ (∀ vd vs1 vs2 mask conv scalar ty, Decodes (.vsaddz vd vs1 vs2 mask conv scalar ty))
      ∧ (∀ vd vs1 vs2 mask conv scalar ty, Decodes (.vssub vd vs1 vs2 mask conv scalar ty))
      ∧ (∀ vd vs1 vs2 mask conv scalar ty, Decodes (.vssubz vd vs1 vs2 mask conv scalar ty))
      ∧ (∀ vd vs1 vs2 mask conv scalar ty, Decodes (.vwadd vd vs1 vs2 mask conv scalar ty))
      ∧ (∀ vd vs1 vs2 mask conv scalar ty, Decodes (.vwaddz vd vs1 vs2 mask conv scalar ty))
      ∧ (∀ vd vs1 vs2 mask conv scalar ty, Decodes (.vwsub vd vs1 vs2 mask conv scalar ty))
      ∧ (∀ vd vs1 vs2 mask conv scalar ty, Decodes (.vwsubz vd vs1 vs2 mask conv scalar ty))
      ∧ (∀ vd vs1 mask conv ty, Decodes (.vext vd vs1 mask conv ty)) ∧ (∀ vd vs1 mask conv ty, Decodes (.vextz vd vs1 mask conv ty))
      ∧ (∀ vd vs1 mask conv ty, Decodes (.vnarrow vd vs1 mask conv ty)) ∧ (∀ vd vs1 mask conv ty, Decodes (.vnsat vd vs1 mask conv ty))
      ∧ (∀ vd vs1 mask conv ty, Decodes (.vnsatz vd vs1 mask conv ty)) ∧ (∀ vd vs1 mask conv ty, Decodes (.vnclampz vd vs1 mask conv ty)) := by
  and_intros <;> intros <;> refine .of_word rfl (by repeat constructor) (by decide) fun n => ?_
  all_goals
    simp +contextual [decodeNat_vectorAdd, answer, maskOf, place, fld_literal, Reads, num, flag, sub20, sub21, sub22, instr20, instr21, instr22]

/-- Majors 0x23 to 0x26 (R83). -/
theorem decodeNat_vectorInteger (n : Nat) :
    (fld n 26 6 = 0x23 → decodeNat n = answer (sub23 n) (instr23 n)) ∧ (fld n 26 6 = 0x24 → decodeNat n = answer (sub24 n) (instr24 n))
      ∧ (fld n 26 6 = 0x25 → decodeNat n = answer (sub25 n) (instr25 n)) ∧ (fld n 26 6 = 0x26 → decodeNat n = answer (sub26 n) (instr26 n)) := by
  and_intros <;> intro major <;> simp only [decodeNat_eq, subOf, instrOf, major]

/-- The other integer instructions, compares and masks. -/
@[simp] theorem decodes_vectorInteger :
    (∀ vd vs1 vs2 mask conv scalar ty, Decodes (.vmul vd vs1 vs2 mask conv scalar ty))
      ∧ (∀ vd vs1 vs2 mask conv scalar ty, Decodes (.vmulh vd vs1 vs2 mask conv scalar ty))
      ∧ (∀ vd vs1 vs2 mask conv scalar ty, Decodes (.vmulhz vd vs1 vs2 mask conv scalar ty))
      ∧ (∀ vd vs1 vs2 mask conv scalar ty, Decodes (.vdiv vd vs1 vs2 mask conv scalar ty))
      ∧ (∀ vd vs1 vs2 mask conv scalar ty, Decodes (.vdivz vd vs1 vs2 mask conv scalar ty))
      ∧ (∀ vd vs1 vs2 mask conv scalar ty, Decodes (.vrem vd vs1 vs2 mask conv scalar ty))
      ∧ (∀ vd vs1 vs2 mask conv scalar ty, Decodes (.vremz vd vs1 vs2 mask conv scalar ty))
      ∧ (∀ vd vs1 vs2 mask conv scalar ty, Decodes (.vwmul vd vs1 vs2 mask conv scalar ty))
      ∧ (∀ vd vs1 vs2 mask conv scalar ty, Decodes (.vwmulz vd vs1 vs2 mask conv scalar ty))
      ∧ (∀ vd vs1 vs2 mask conv scalar ty, Decodes (.vand vd vs1 vs2 mask conv scalar ty))
      ∧ (∀ vd vs1 vs2 mask conv scalar ty, Decodes (.vor vd vs1 vs2 mask conv scalar ty))
      ∧ (∀ vd vs1 vs2 mask conv scalar ty, Decodes (.vxor vd vs1 vs2 mask conv scalar ty))
      ∧ (∀ vd vs1 vs2 mask conv scalar ty, Decodes (.vandn vd vs1 vs2 mask conv scalar ty))
      ∧ (∀ vd vs1 vs2 mask conv scalar ty, Decodes (.vsll vd vs1 vs2 mask conv scalar ty))
      ∧ (∀ vd vs1 vs2 mask conv scalar ty, Decodes (.vsrl vd vs1 vs2 mask conv scalar ty))
      ∧ (∀ vd vs1 vs2 mask conv scalar ty, Decodes (.vsra vd vs1 vs2 mask conv scalar ty))
      ∧ (∀ vd vs1 vs2 mask conv scalar ty, Decodes (.vror vd vs1 vs2 mask conv scalar ty))
      ∧ (∀ vd vs1 vs2 mask conv scalar ty, Decodes (.vseq vd vs1 vs2 mask conv scalar ty))
      ∧ (∀ vd vs1 vs2 mask conv scalar ty, Decodes (.vsne vd vs1 vs2 mask conv scalar ty))
      ∧ (∀ vd vs1 vs2 mask conv scalar ty, Decodes (.vslt vd vs1 vs2 mask conv scalar ty))
      ∧ (∀ vd vs1 vs2 mask conv scalar ty, Decodes (.vsltz vd vs1 vs2 mask conv scalar ty))
      ∧ (∀ vd vs1 vs2 mask conv scalar ty, Decodes (.vsle vd vs1 vs2 mask conv scalar ty))
      ∧ (∀ vd vs1 vs2 mask conv scalar ty, Decodes (.vslez vd vs1 vs2 mask conv scalar ty))
      ∧ (∀ vd vs1 vs2 mask conv scalar ty, Decodes (.vsgt vd vs1 vs2 mask conv scalar ty))
      ∧ (∀ vd vs1 vs2 mask conv scalar ty, Decodes (.vsgtz vd vs1 vs2 mask conv scalar ty)) ∧ (∀ vd vs1 vs2 conv, Decodes (.mand vd vs1 vs2 conv))
      ∧ (∀ vd vs1 vs2 conv, Decodes (.mor vd vs1 vs2 conv)) ∧ (∀ vd vs1 vs2 conv, Decodes (.mxor vd vs1 vs2 conv))
      ∧ (∀ vd vs1 vs2 conv, Decodes (.mandn vd vs1 vs2 conv)) ∧ (∀ vd vs1 conv, Decodes (.mnot vd vs1 conv)) ∧ (∀ vd conv, Decodes (.mset vd conv))
      ∧ (∀ vd conv, Decodes (.mclr vd conv)) ∧ (∀ vd vs1 conv, Decodes (.mpop vd vs1 conv)) ∧ (∀ vd vs1 conv, Decodes (.mfirst vd vs1 conv)) := by
  and_intros <;> intros <;> refine .of_word rfl (by repeat constructor) (by decide) fun n => ?_
  all_goals
    simp +contextual [decodeNat_vectorInteger, answer, maskOf, place, fld_literal, Reads, num, flag, sub23, sub24, sub25, sub26, instr23, instr24,
      instr25, instr26]

/-- `vmerge`, whose type shares bits with what tells the mask instructions apart (R130). -/
@[simp] theorem decodes_vmerge :
    ∀ vd vs1 vs2 mask conv scalar ty, Decodes (.vmerge vd vs1 vs2 mask conv scalar ty) := by
  intros
  refine .of_word rfl (by repeat constructor) (by decide) fun n => ?_
  simp +contextual [decodeNat_vectorInteger, answer, maskOf, place, fld_literal, Reads, num, flag, func7_eq, sub26, instr26]

/-- Majors 0x27 to 0x2C (R83). -/
theorem decodeNat_vectorFloat (n : Nat) :
    (fld n 26 6 = 0x27 → decodeNat n = answer (sub27 n) (instr27 n)) ∧ (fld n 26 6 = 0x28 → decodeNat n = answer (sub28 n) (instr28 n))
      ∧ (fld n 26 6 = 0x29 → decodeNat n = answer (sub29 n) (instr29 n)) ∧ (fld n 26 6 = 0x2A → decodeNat n = answer (sub2A n) (instr2A n))
      ∧ (fld n 26 6 = 0x2B → decodeNat n = answer (sub2B n) (instr2B n)) ∧ (fld n 26 6 = 0x2C → decodeNat n = answer (sub2C n) (instr2C n)) := by
  and_intros <;> intro major <;> simp only [decodeNat_eq, subOf, instrOf, major]

/-- Floating-point arithmetic, compares and multiply-add. -/
@[simp] theorem decodes_vectorFloat :
    (∀ vd vs1 vs2 mask conv scalar ty, Decodes (.vfadd vd vs1 vs2 mask conv scalar ty))
      ∧ (∀ vd vs1 vs2 mask conv scalar ty, Decodes (.vfsub vd vs1 vs2 mask conv scalar ty))
      ∧ (∀ vd vs1 vs2 mask conv scalar ty, Decodes (.vfrsub vd vs1 vs2 mask conv scalar ty))
      ∧ (∀ vd vs1 vs2 mask conv scalar ty, Decodes (.vfmul vd vs1 vs2 mask conv scalar ty))
      ∧ (∀ vd vs1 vs2 mask conv scalar ty, Decodes (.vfdiv vd vs1 vs2 mask conv scalar ty))
      ∧ (∀ vd vs1 vs2 mask conv scalar ty, Decodes (.vfrdiv vd vs1 vs2 mask conv scalar ty))
      ∧ (∀ vd vs1 mask conv ty, Decodes (.vfsqrt vd vs1 mask conv ty))
      ∧ (∀ vd vs1 vs2 mask conv scalar ty, Decodes (.vfmin vd vs1 vs2 mask conv scalar ty))
      ∧ (∀ vd vs1 vs2 mask conv scalar ty, Decodes (.vfmax vd vs1 vs2 mask conv scalar ty))
      ∧ (∀ vd vs1 vs2 mask conv scalar ty, Decodes (.vfsgnj vd vs1 vs2 mask conv scalar ty))
      ∧ (∀ vd vs1 vs2 mask conv scalar ty, Decodes (.vfsgnjn vd vs1 vs2 mask conv scalar ty))
      ∧ (∀ vd vs1 vs2 mask conv scalar ty, Decodes (.vfsgnjx vd vs1 vs2 mask conv scalar ty))
      ∧ (∀ vd vs1 vs2 vs3 mask conv bf16, Decodes (.vfmac vd vs1 vs2 vs3 mask conv bf16))
      ∧ (∀ vd vs1 vs2 vs3 mask conv bf16, Decodes (.vfmsc vd vs1 vs2 vs3 mask conv bf16))
      ∧ (∀ vd vs1 vs2 vs3 mask conv bf16, Decodes (.vfnmac vd vs1 vs2 vs3 mask conv bf16))
      ∧ (∀ vd vs1 vs2 vs3 mask conv bf16, Decodes (.vfnmsc vd vs1 vs2 vs3 mask conv bf16))
      ∧ (∀ vd vs1 vs2 vs3 mask conv, Decodes (.vmac vd vs1 vs2 vs3 mask conv))
      ∧ (∀ vd vs1 vs2 vs3 mask conv, Decodes (.vnmac vd vs1 vs2 vs3 mask conv))
      ∧ (∀ vd vs1 vs2 vs3 mask conv, Decodes (.vwmac vd vs1 vs2 vs3 mask conv))
      ∧ (∀ vd vs1 vs2 vs3 mask conv, Decodes (.vwmacz vd vs1 vs2 vs3 mask conv))
      ∧ (∀ vd vs1 vs2 vs3 mask conv, Decodes (.vdot4 vd vs1 vs2 vs3 mask conv))
      ∧ (∀ vd vs1 vs2 vs3 mask conv, Decodes (.vdot4z vd vs1 vs2 vs3 mask conv))
      ∧ (∀ vd vs1 vs2 mask conv scalar ty, Decodes (.vfeq vd vs1 vs2 mask conv scalar ty))
      ∧ (∀ vd vs1 vs2 mask conv scalar ty, Decodes (.vfne vd vs1 vs2 mask conv scalar ty))
      ∧ (∀ vd vs1 vs2 mask conv scalar ty, Decodes (.vflt vd vs1 vs2 mask conv scalar ty))
      ∧ (∀ vd vs1 vs2 mask conv scalar ty, Decodes (.vfle vd vs1 vs2 mask conv scalar ty))
      ∧ (∀ vd vs1 vs2 mask conv scalar ty, Decodes (.vfgt vd vs1 vs2 mask conv scalar ty))
      ∧ (∀ vd vs1 vs2 mask conv scalar ty, Decodes (.vfge vd vs1 vs2 mask conv scalar ty))
      ∧ (∀ vd vs1 mask conv ty, Decodes (.vfclass vd vs1 mask conv ty)) := by
  and_intros <;> intros <;> refine .of_word rfl (by repeat constructor) (by decide) fun n => ?_
  all_goals
    simp +contextual [decodeNat_vectorFloat, answer, maskOf, place, fld_literal, Reads, num, flag, sub27, sub28, sub29, sub2A, instr27, instr28,
      instr29, instr2A]

/-- Conversions and block scales, whose formats a description limits (R134, R135). -/
@[simp] theorem decodes_conversions :
    (∀ vd vs1 mask conv alt src dst, Decodes (.vcvt vd vs1 mask conv alt src dst))
      ∧ (∀ vd vs1 vs3 mask conv fmt, Decodes (.vbsq vd vs1 vs3 mask conv fmt))
      ∧ (∀ vd vs1 vs3 mask conv fmt, Decodes (.vbsdq vd vs1 vs3 mask conv fmt)) := by
  and_intros <;> intros <;> refine .of_word rfl (by repeat constructor) (by decide) fun n => ?_
  all_goals
    simp +contextual [decodeNat_vectorFloat, answer, maskOf, place, fld_literal, Reads, num, flag, Instr.wellFormed, or_iff_not_imp_left, sub2B,
      sub2C, instr2B, instr2C]

/-- Majors 0x2D to 0x2F (R83). -/
theorem decodeNat_vectorPermute (n : Nat) :
    (fld n 26 6 = 0x2D → decodeNat n = answer (sub2D n) (instr2D n)) ∧ (fld n 26 6 = 0x2E → decodeNat n = answer (sub2E n) (instr2E n))
      ∧ (fld n 26 6 = 0x2F → decodeNat n = answer (sub2F n) (instr2F n)) := by
  and_intros <;> intro major <;> simp only [decodeNat_eq, subOf, instrOf, major]

/-- Permutes, ordered reductions and lane threads. -/
@[simp] theorem decodes_vectorPermute :
    (∀ vd vs1 vs2 mask conv ty, Decodes (.vslideup vd vs1 vs2 mask conv ty))
      ∧ (∀ vd vs1 vs2 mask conv ty, Decodes (.vslidedown vd vs1 vs2 mask conv ty))
      ∧ (∀ vd vs1 vs2 mask conv scalar ty, Decodes (.vrgather vd vs1 vs2 mask conv scalar ty))
      ∧ (∀ vd vs1 mask conv ty, Decodes (.vcompress vd vs1 mask conv ty)) ∧ (∀ vd vs1 vs2 mask conv ty, Decodes (.vrowbc vd vs1 vs2 mask conv ty))
      ∧ (∀ vd vs1 vs2 mask conv, Decodes (.vfredo vd vs1 vs2 mask conv)) ∧ (∀ vd vs1 vs2 mask conv, Decodes (.vfredoBf16 vd vs1 vs2 mask conv))
      ∧ (∀ vd vs1 conv, Decodes (.vexit vd vs1 conv)) ∧ (∀ rs1 rs2 mask, Decodes (.lsplit rs1 rs2 mask)) ∧ Decodes .ljoin := by
  and_intros <;> intros <;> refine .of_word rfl (by repeat constructor) (by decide) fun n => ?_
  all_goals
    simp +contextual [decodeNat_vectorPermute, answer, maskOf, place, fld_literal, Reads, num, flag, sub2D, sub2E, sub2F, instr2D, instr2E, instr2F]

/-- Reductions, to a scalar register or per row (R137). -/
@[simp] theorem decodes_reductions :
    (∀ vd vs1 vs2 mask conv toX perRow, Decodes (.vredsum vd vs1 vs2 mask conv toX perRow))
      ∧ (∀ vd vs1 vs2 mask conv toX perRow, Decodes (.vredmin vd vs1 vs2 mask conv toX perRow))
      ∧ (∀ vd vs1 vs2 mask conv toX perRow, Decodes (.vredminz vd vs1 vs2 mask conv toX perRow))
      ∧ (∀ vd vs1 vs2 mask conv toX perRow, Decodes (.vredmax vd vs1 vs2 mask conv toX perRow))
      ∧ (∀ vd vs1 vs2 mask conv toX perRow, Decodes (.vredmaxz vd vs1 vs2 mask conv toX perRow))
      ∧ (∀ vd vs1 vs2 mask conv toX perRow, Decodes (.vfredt vd vs1 vs2 mask conv toX perRow))
      ∧ (∀ vd vs1 vs2 mask conv toX perRow, Decodes (.vfredtBf16 vd vs1 vs2 mask conv toX perRow))
      ∧ (∀ vd vs1 vs2 mask conv toX perRow, Decodes (.vfredmin vd vs1 vs2 mask conv toX perRow))
      ∧ (∀ vd vs1 vs2 mask conv toX perRow, Decodes (.vfredminBf16 vd vs1 vs2 mask conv toX perRow))
      ∧ (∀ vd vs1 vs2 mask conv toX perRow, Decodes (.vfredmax vd vs1 vs2 mask conv toX perRow))
      ∧ (∀ vd vs1 vs2 mask conv toX perRow, Decodes (.vfredmaxBf16 vd vs1 vs2 mask conv toX perRow)) := by
  and_intros <;> intros <;> refine .of_word rfl (by repeat constructor) (by decide) fun n => ?_
  all_goals
    simp +contextual [decodeNat_vectorPermute, answer, maskOf, place, fld_literal, Reads, num, flag, Instr.wellFormed, or_iff_not_imp_left, sub2E,
      instr2E]

/-- Majors 0x30 to 0x35 (R83). -/
theorem decodeNat_vectorMemory (n : Nat) :
    (fld n 26 6 = 0x30 → decodeNat n = answer (sub30 n) (instr30 n)) ∧ (fld n 26 6 = 0x31 → decodeNat n = answer (sub31 n) (instr31 n))
      ∧ (fld n 26 6 = 0x32 → decodeNat n = answer 0 (instr32 n)) ∧ (fld n 26 6 = 0x33 → decodeNat n = answer 0 (instr33 n))
      ∧ (fld n 26 6 = 0x34 → decodeNat n = answer (sub34 n) (instr34 n)) ∧ (fld n 26 6 = 0x35 → decodeNat n = answer (sub35 n) (instr35 n)) := by
  and_intros <;> intro major <;> simp only [decodeNat_eq, subOf, instrOf, major]

/-- Vector loads, stores, atomics and pins, whose token and orientation a description limits (R147, R162). -/
@[simp] theorem decodes_vectorMemory :
    (∀ vd base idx token orient conv mask width, Decodes (.vld vd base idx token orient conv mask width))
      ∧ (∀ vd base idx token orient conv chunk width, Decodes (.vldCw vd base idx token orient conv chunk width))
      ∧ (∀ vd base idx token orient conv mask width, Decodes (.vldIndexed vd base idx token orient conv mask width))
      ∧ (∀ vd base idx token orient conv chunk width, Decodes (.vldIndexedCw vd base idx token orient conv chunk width))
      ∧ (∀ vs base idx token orient conv mask unord width, Decodes (.vst vs base idx token orient conv mask unord width))
      ∧ (∀ vs base idx token conv mask unord width, Decodes (.vstm vs base idx token conv mask unord width))
      ∧ (∀ vs base idx token orient conv mask unord width, Decodes (.vstIndexed vs base idx token orient conv mask unord width))
      ∧ (∀ vs base idx token conv mask unord width, Decodes (.vstmIndexed vs base idx token conv mask unord width))
      ∧ (∀ vs base idx token conv mask, Decodes (.vamoaddW vs base idx token conv mask))
      ∧ (∀ vs base idx token conv mask, Decodes (.vamoaddD vs base idx token conv mask))
      ∧ (∀ vs base idx token conv mask, Decodes (.vamominW vs base idx token conv mask))
      ∧ (∀ vs base idx token conv mask, Decodes (.vamomaxW vs base idx token conv mask))
      ∧ (∀ vs base idx token conv mask, Decodes (.vamoaddF32 vs base idx token conv mask))
      ∧ (∀ vs base idx token orient conv mask, Decodes (.vamoaddF16 vs base idx token orient conv mask))
      ∧ (∀ vs base idx token orient conv mask, Decodes (.vamoaddBf16 vs base idx token orient conv mask))
      ∧ (∀ vs base idx token conv mask, Decodes (.vamoaddWDup vs base idx token conv mask))
      ∧ (∀ vs base idx token conv mask, Decodes (.vamoaddDDup vs base idx token conv mask))
      ∧ (∀ vs base idx token conv mask, Decodes (.vamominWDup vs base idx token conv mask))
      ∧ (∀ vs base idx token conv mask, Decodes (.vamomaxWDup vs base idx token conv mask))
      ∧ (∀ vs base idx token conv mask, Decodes (.vamoaddF32Dup vs base idx token conv mask))
      ∧ (∀ vs base idx token orient conv mask, Decodes (.vamoaddF16Dup vs base idx token orient conv mask))
      ∧ (∀ vs base idx token orient conv mask, Decodes (.vamoaddBf16Dup vs base idx token orient conv mask))
      ∧ (∀ perm base len token, Decodes (.vpin perm base len token)) ∧ (∀ token, Decodes (.vunpin token)) := by
  and_intros <;> intros <;> refine .of_word rfl (by repeat constructor) (by decide) fun n => ?_
  all_goals
    simp +contextual [decodeNat_vectorMemory, answer, maskOf, place, fld_literal, Reads, num, flag, Instr.wellFormed, or_iff_not_imp_left, sub30,
      sub31, sub34, sub35, instr30, instr31, instr32, instr33, instr34, instr35]

/-- Spill frames, of a v register or of one of m0 to m7 (R166). -/
@[simp] theorem decodes_frames :
    (∀ vs base kind token conv, Decodes (.vspill vs base kind token conv)) ∧ (∀ vd base kind token conv, Decodes (.vfill vd base kind token conv)) := by
  and_intros <;> intros <;> refine .of_word rfl (by repeat constructor) (by decide) fun n => ?_
  all_goals
    simp +contextual [decodeNat_vectorMemory, answer, maskOf, place, fld_literal, Reads, num, flag, Instr.wellFormed, or_iff_not_imp_left,
      fld_reg_high, sub35, instr35]
    intros
    split_ifs <;> omega

/-- Majors 0x36 to 0x3B (R83). -/
theorem decodeNat_matrixMessage (n : Nat) :
    (fld n 26 6 = 0x36 → decodeNat n = answer (sub36 n) (instr36 n)) ∧ (fld n 26 6 = 0x37 → decodeNat n = answer (sub37 n) (instr37 n))
      ∧ (fld n 26 6 = 0x38 → decodeNat n = answer (sub38 n) (instr38 n)) ∧ (fld n 26 6 = 0x39 → decodeNat n = answer (sub39 n) (instr39 n))
      ∧ (fld n 26 6 = 0x3A → decodeNat n = answer (sub3A n) (instr3A n)) ∧ (fld n 26 6 = 0x3B → decodeNat n = answer (sub3B n) (instr3B n)) := by
  and_intros <;> intro major <;> simp only [decodeNat_eq, subOf, instrOf, major]

/-- Messages and Sluice copies. -/
@[simp] theorem decodes_messages :
    (∀ xo xc xm, Decodes (.msend xo xc xm)) ∧ (∀ xv xc xm width, Decodes (.mput xv xc xm width)) ∧ (∀ xc xm, Decodes (.mwake xc xm))
      ∧ (∀ rd xe tag, Decodes (.mwait rd xe tag)) ∧ (∀ rd tag, Decodes (.mcount rd tag)) ∧ (∀ rd xc, Decodes (.locq rd xc))
      ∧ (∀ rd xa xp mask ch, Decodes (.scopyin rd xa xp mask ch)) ∧ (∀ rd xa xp mask ch, Decodes (.scopyout rd xa xp mask ch))
      ∧ (∀ rd xa xp mask ch, Decodes (.scopy2inRow rd xa xp mask ch)) ∧ (∀ rd xa xp mask ch, Decodes (.scopy2inCol rd xa xp mask ch))
      ∧ (∀ rd xa xp mask ch, Decodes (.scopy2outRow rd xa xp mask ch)) ∧ (∀ rd xa xp mask ch, Decodes (.scopy2outCol rd xa xp mask ch))
      ∧ (∀ rd xc xp ch, Decodes (.scopyr rd xc xp ch)) ∧ (∀ rd vi xp mask ch, Decodes (.sgatherRow rd vi xp mask ch))
      ∧ (∀ rd vi xp mask ch, Decodes (.sgatherCol rd vi xp mask ch)) ∧ (∀ rd xt ch, Decodes (.swait rd xt ch)) ∧ (∀ rd xs, Decodes (.sfault rd xs))
      ∧ (∀ rd xt ch, Decodes (.sreplay rd xt ch)) := by
  and_intros <;> intros <;> refine .of_word rfl (by repeat constructor) (by decide) fun n => ?_
  all_goals
    simp +contextual [decodeNat_matrixMessage, answer, maskOf, place, fld_literal, Reads, num, sub3A, sub3B, instr3A, instr3B]

/-- Matrix instructions, whose formats a description limits (R173, R179, R180). -/
@[simp] theorem decodes_matrices :
    (∀ vc va vb fmt fromSp orient conv, Decodes (.mmul vc va vb fmt fromSp orient conv))
      ∧ (∀ vc va vb fmt fromSp orient conv, Decodes (.mmulz vc va vb fmt fromSp orient conv))
      ∧ (∀ vc va vb fmt fromSp orient conv, Decodes (.mmulBs vc va vb fmt fromSp orient conv))
      ∧ (∀ vc va vb fmt fromSp orient conv, Decodes (.mmulzBs vc va vb fmt fromSp orient conv)) ∧ (∀ vc fmt conv, Decodes (.mzero vc fmt conv))
      ∧ (∀ vc vd fmt conv, Decodes (.mcvt vc vd fmt conv)) ∧ (∀ vc vd fmt conv, Decodes (.mcvtSr vc vd fmt conv))
      ∧ (∀ vc xc xm fmt conv, Decodes (.mdrain vc xc xm fmt conv)) ∧ (∀ vc xc xm fmt conv, Decodes (.mdrainz vc xc xm fmt conv)) := by
  and_intros <;> intros <;> refine .of_word rfl (by repeat constructor) (by decide) fun n => ?_
  all_goals
    simp +contextual [decodeNat_matrixMessage, answer, maskOf, place, fld_literal, Reads, num, flag, Instr.wellFormed, or_iff_not_imp_left, sub36,
      sub37, sub38, sub39, instr36, instr37, instr38, instr39]

/-- Majors 0x3C to 0x3E (R83). -/
theorem decodeNat_taskSystem (n : Nat) :
    (fld n 26 6 = 0x3C → decodeNat n = answer (sub3C n) (instr3C n)) ∧ (fld n 26 6 = 0x3D → decodeNat n = answer (sub3D n) (instr3D n))
      ∧ (fld n 26 6 = 0x3E → decodeNat n = answer (sub3E n) (instr3E n)) := by
  and_intros <;> intro major <;> simp only [decodeNat_eq, subOf, instrOf, major]

/-- Tasks, binning and the system. -/
@[simp] theorem decodes_taskSystem :
    (∀ chan, Decodes (.warrive chan)) ∧ (∀ chan, Decodes (.wwait chan)) ∧ (∀ rd chan, Decodes (.wtest rd chan)) ∧ Decodes .tend
      ∧ (∀ xv xc xs, Decodes (.thold xv xc xs)) ∧ (∀ xv xc xs, Decodes (.tready xv xc xs)) ∧ (∀ xv xc xs, Decodes (.tenable xv xc xs))
      ∧ (∀ xs xp, Decodes (.tpost xs xp)) ∧ (∀ rd xs, Decodes (.glaunch rd xs)) ∧ (∀ rd xq xn, Decodes (.wreserve rd xq xn))
      ∧ (∀ xq xi, Decodes (.wcommit xq xi)) ∧ (∀ vs1 xs2 mask conv, Decodes (.qpush vs1 xs2 mask conv)) ∧ (∀ xs2, Decodes (.qend xs2))
      ∧ (∀ vs1 xs2 mask conv, Decodes (.pxlock vs1 xs2 mask conv)) ∧ (∀ vs1 mask conv, Decodes (.pxunlock vs1 mask conv))
      ∧ (∀ vs1 xs2 mask conv, Decodes (.pxskip vs1 xs2 mask conv)) ∧ (∀ rd num, Decodes (.sget rd num)) ∧ (∀ rs1 num, Decodes (.sput rs1 num))
      ∧ (∀ num, Decodes (.trap num)) ∧ Decodes .sret ∧ Decodes .mret ∧ Decodes .ifence ∧ (∀ rs1, Decodes (.cinv rs1)) ∧ Decodes .cinvall
      ∧ (∀ rs1, Decodes (.cwb rs1)) ∧ (∀ rs1, Decodes (.cwbinv rs1)) ∧ Decodes .halt := by
  and_intros <;> intros <;> refine .of_word rfl (by repeat constructor) (by decide) fun n => ?_
  all_goals
    simp +contextual [decodeNat_taskSystem, answer, maskOf, place, fld_literal, Reads, num, flag, sub3C, sub3D, sub3E, instr3C, instr3D, instr3E]

/-- Texture and ray instructions, whose token shares bits with what tells the binning instructions apart (R212). -/
@[simp] theorem decodes_textureAndRays :
    (∀ vd vs1 xs2 mask conv token, Decodes (.tsample vd vs1 xs2 mask conv token))
      ∧ (∀ vd vs1 xs2 mask conv token, Decodes (.tsampleLod vd vs1 xs2 mask conv token))
      ∧ (∀ vd vs1 xs2 mask conv token, Decodes (.rquery vd vs1 xs2 mask conv token))
      ∧ (∀ vd vs1 xs2 mask conv token, Decodes (.rqueryAny vd vs1 xs2 mask conv token)) := by
  and_intros <;> intros <;> refine .of_word rfl (by repeat constructor) (by decide) fun n => ?_
  all_goals
    simp +contextual [decodeNat_taskSystem, answer, maskOf, place, fld_literal, Reads, num, flag, Instr.wellFormed, func7_eq, sub3D, instr3D]

/-- `brk`, whose number shares bits with what tells the cache operations apart (R83). -/
@[simp] theorem decodes_brk :
    ∀ num, Decodes (.brk num) := by
  intros
  refine .of_word rfl (by repeat constructor) (by decide) fun n => ?_
  simp +contextual [decodeNat_taskSystem, answer, maskOf, place, fld_literal, Reads, num, func16_high_eq, sub3E, instr3E]

/-- Every well-formed instruction decodes from its word; an event is not well formed. -/
theorem decodes (i : Instr) : Decodes i := by
  cases i with
  | illegalEncoding | hartStateMachineCheck | taskStart | budgetExpiry | freezeMarkArrival | coreCompleteReport | runAheadStart | ownerReserve |
    messageDelivery | drainDelivery | scopyrPartDelivery | taskBitMessage | locqQuery | locqReply | fragmentArrival | reassemblyTimerExpiry |
    decodedPacketAccepted | sprayAck | sprayRequest | sprayProbe | probeIntervalExpiry | weirBroadcast | sluiceChunk | prgResponse |
    pageRequestTimeout | atsInvalidate | frameOpen | binRecord | qendMarkArrival | tileResolve | tileNotification | frameComplete |
    pixelLockGrant | ctxActivate | ctxSave | saveRecordWrite | ctxRestore | ctxRelease | ctxInvalidCommand | queueEnable | queueDisable |
    doorbell | qerrClear | gangLaunchPacket | framePacket | indirectPacket | signalPacket | loadPacket | shootdownPacket | launchCompletion |
    poolDispatch | hostDeviceMemoryAccess | hostAtomicCompleter | hostBar0AccessError | hostSnoop | biasFlipGo | biasPageFlip | postAreaScan |
    functionLevelReset | hotReset | powerOn | standbyEntry | standbyExit | correctedError | leakTick | patrolScrub | basinHeartbeat |
    agentFailed | fatalSequence | siphonHold | siphonCopy | siphonState | siphonFlip | siphonRelease | siphonAbort | waitCycleWalk |
    waitCycleConfirm | scanSite | linkFlitCrcDrop | pathLeakTick | pathRetrain | leaseHeartbeatSend | leaseHeartbeatReceive | leaseLapse |
    leaseClaim | romSidebandTimeout | selfTestComplete | discoveryFlood | discoveryReport | discoveryTimeout | multicastGo | multicastAck |
    multicastTimeout | siteasgWrite | sitegoGo | sitegoClr | ncevPop | ncpost | memoryTrainingStep | ucieTraining | fabricPortTraining |
    pcieTraining | pkgidWrite | pkgidTimeout | powerWindow | spdmGetVersion | spdmGetCapabilities | spdmNegotiateAlgorithms | spdmGetDigests |
    spdmGetCertificate | spdmChallenge | spdmGetMeasurements | spdmUnsupported | registerWrite | leaseHeartbeatAck | leaderLeaseExpiry |
    claimRetry | hostWriteRefusal | configurationRequest | storePerformed => nofun
  | _ => simp

/-! ## No ill-formed instruction is decoded -/

theorem toNat_num (n lo len : Nat) : (num n lo len).toNat = fld n lo len := by
  simp [num, fld]

theorem toNat_flag (n lo : Nat) : (flag n lo).toNat = fld n lo 1 := by
  have bit : fld n lo 1 < 2 := fld_lt n lo 1
  unfold flag
  by_cases set : fld n lo 1 = 1
  · simp [set]
  · simp [show fld n lo 1 = 0 by omega]

/-- A word of this `sub` that stands for this instruction is illegal, or the instruction is well formed (R84). -/
def Sound (sub : Nat) (i : Instr) : Prop := sub = 0 → i.wellFormed = true

theorem Sound.ite {c : Prop} [Decidable c] {a b : Nat} {x y : Instr} (first : Sound a x) (others : Sound b y) :
    Sound (if c then a else b) (if c then x else y) := by
  split
  · exact first
  · exact others

/-- The majors whose fields hold any value. -/
theorem wellFormed_instr (n : Nat) :
    (instr01 n).wellFormed = true ∧ (instr02 n).wellFormed = true ∧ (instr03 n).wellFormed = true ∧ (instr04 n).wellFormed = true
      ∧ (instr05 n).wellFormed = true ∧ (instr06 n).wellFormed = true ∧ (instr07 n).wellFormed = true ∧ (instr08 n).wellFormed = true
      ∧ (instr09 n).wellFormed = true ∧ (instr0A n).wellFormed = true ∧ (instr0B n).wellFormed = true ∧ (instr0C n).wellFormed = true
      ∧ (instr0D n).wellFormed = true ∧ (instr0E n).wellFormed = true ∧ (instr0F n).wellFormed = true ∧ (instr10 n).wellFormed = true
      ∧ (instr11 n).wellFormed = true ∧ (instr12 n).wellFormed = true ∧ (instr13 n).wellFormed = true ∧ (instr14 n).wellFormed = true
      ∧ (instr15 n).wellFormed = true ∧ (instr18 n).wellFormed = true ∧ (instr19 n).wellFormed = true ∧ (instr1A n).wellFormed = true
      ∧ (instr1B n).wellFormed = true ∧ (instr20 n).wellFormed = true ∧ (instr21 n).wellFormed = true ∧ (instr22 n).wellFormed = true
      ∧ (instr23 n).wellFormed = true ∧ (instr24 n).wellFormed = true ∧ (instr25 n).wellFormed = true ∧ (instr26 n).wellFormed = true
      ∧ (instr27 n).wellFormed = true ∧ (instr28 n).wellFormed = true ∧ (instr29 n).wellFormed = true ∧ (instr2A n).wellFormed = true
      ∧ (instr2D n).wellFormed = true ∧ (instr2F n).wellFormed = true ∧ (instr3A n).wellFormed = true ∧ (instr3B n).wellFormed = true
      ∧ (instr3C n).wellFormed = true ∧ (instr3E n).wellFormed = true := by
  simp only [instr01, instr02, instr03, instr04, instr05, instr06, instr07, instr08, instr09, instr0A, instr0B, instr0C, instr0D, instr0E, instr0F,
    instr10, instr11, instr12, instr13, instr14, instr15, instr18, instr19, instr1A, instr1B, instr20, instr21, instr22, instr23, instr24, instr25,
    instr26, instr27, instr28, instr29, instr2A, instr2D, instr2F, instr3A, instr3B, instr3C, instr3E, apply_ite Instr.wellFormed]
  simp only [Instr.wellFormed, ite_self, and_self]

/-- The majors of which a field holds certain values only, or two fields certain values together. -/
theorem sound_instr (n : Nat) :
    Sound (sub16 n) (instr16 n) ∧ Sound (sub17 n) (instr17 n) ∧ Sound (sub2B n) (instr2B n) ∧ Sound (sub2C n) (instr2C n)
      ∧ Sound (sub2E n) (instr2E n) ∧ Sound (sub30 n) (instr30 n) ∧ Sound (sub31 n) (instr31 n) ∧ Sound (sub34 n) (instr34 n)
      ∧ Sound (sub35 n) (instr35 n) ∧ Sound (sub36 n) (instr36 n) ∧ Sound (sub37 n) (instr37 n) ∧ Sound (sub38 n) (instr38 n)
      ∧ Sound (sub39 n) (instr39 n) ∧ Sound (sub3D n) (instr3D n) := by
  and_intros
  all_goals
    simp only [sub16, sub17, sub2B, sub2C, sub2E, sub30, sub31, sub34, sub35, sub36, sub37, sub38, sub39, sub3D, instr16, instr17, instr2B, instr2C,
      instr2E, instr30, instr31, instr34, instr35, instr36, instr37, instr38, instr39, instr3D]
    repeat' apply Sound.ite
    all_goals
      simp only [Sound, Instr.wellFormed, toNat_num, toNat_flag]
      grind [fld_bit0, fld_reg_high]

/-- Stores to memory: a token and orientation 1 together make a multicast (R159). -/
theorem wellFormed_store (n : Nat) : (instr32 n).wellFormed = true ∧ (instr33 n).wellFormed = true := by
  simp only [instr32, instr33]
  constructor
  all_goals
    split
    all_goals
      simp only [Instr.wellFormed, toNat_num, toNat_flag]
      grind

theorem sound (n : Nat) : Sound (subOf n) (instrOf n) := by
  have any := wellFormed_instr n
  have stores := wellFormed_store n
  have certain := sound_instr n
  unfold subOf instrOf
  generalize fld n 26 6 = major
  split <;> simp_all [Sound]

theorem wellFormed_of_decode {w : BitVec 32} {i : Instr} (h : decode w = .ok i) : i.wellFormed = true := by
  unfold decode decodeNat at h
  split at h
  next legal =>
    cases h
    exact sound _ legal
  next => cases h

/-- Settles O56: the fixed bits of each instruction's word lead the decoder to its row, and each operand reads back from its field. -/
theorem encodeDecode : Obligations.EncodeDecode :=
  fun i => ⟨decodes i, fun ill _ h => Bool.false_ne_true (ill.symm.trans (wellFormed_of_decode h))⟩

/-- Settles O55, by evaluating the decoder on each of the fourteen words. -/
theorem decodeWords : Obligations.DecodeWords :=
  ⟨rfl, rfl, rfl, rfl, rfl, rfl, rfl, rfl, rfl, rfl, rfl, rfl, rfl, rfl⟩

end Sys2Proof.Encoding

/-! # Every step completes (O60)

No meaning raises a fault or a refusal: each outcome of an operation is an instruction that completes, waits or traps. -/

namespace Sys2Proof.Machine

/-- A next state, and neither a fault nor a refusal. -/
def Completes (o : Out) : Prop := ∃ t, o = .next t

section

variable (s : State)

/-! ## How an instruction ends -/

theorem completes_next : Completes (.next s) := ⟨s, rfl⟩

theorem completes_raise (t) : Completes (raise s t) := ⟨_, rfl⟩

theorem completes_finish : Completes (finish s) := ⟨_, rfl⟩

theorem completes_finishEnd (target) : Completes (finishEnd s target) := ⟨_, rfl⟩

theorem completes_waiting (reason tag peer) : Completes (waiting s reason tag peer) := ⟨_, rfl⟩

theorem completes_writeRd (rd v) : Completes (writeRd rd v s) := ⟨_, rfl⟩

theorem completes_privileged : Completes (privileged s) := ⟨_, rfl⟩

theorem completes_returnWith (f) : Completes (returnWith s f) := ⟨_, rfl⟩

theorem completes_refuseConvoy (addr) : Completes (refuseConvoy s addr) := ⟨_, rfl⟩

theorem completes_out (r : Res State) : Completes r.out := by
  cases r with
  | ok t => exact completes_finish t
  | error e => exact completes_raise e.1 e.2

/-! ## Scalar memory accesses and cache maintenance -/

theorem completes_store (ea size v) : Completes (store s ea size v) := by
  unfold store
  grind [completes_raise, completes_next]

theorem completes_loadRd (rd ea size sext) : Completes (loadRd rd ea size sext s) := by
  unfold loadRd
  grind [completes_raise, completes_writeRd]

theorem completes_atomic (size zext op f rd rs1 rs2 scope ord) : Completes (atomic size zext op f rd rs1 rs2 scope ord s) := by
  unfold atomic
  grind [completes_raise, completes_writeRd]

theorem completes_maintLine (ea f) : Completes (maintLine s ea f) := by
  unfold maintLine
  grind [completes_raise, completes_finish]

theorem completes_execAmoaddF32 (rd rs1 rs2 scope ord) : Completes (execAmoaddF32 rd rs1 rs2 scope ord s) := by
  unfold execAmoaddF32
  grind [completes_raise, completes_writeRd]

theorem completes_execLsp (rd rs1 rs2 width) : Completes (execLsp rd rs1 rs2 width s) := by
  unfold execLsp
  grind [completes_raise, completes_writeRd]

/-! ## Control transfers, lane regions and system instructions -/

theorem completes_execJalr (rd rs1 imm) : Completes (execJalr rd rs1 imm s) := by
  unfold execJalr
  grind [completes_raise, completes_finishEnd]

theorem completes_execBsig (imm) : Completes (execBsig imm s) := by
  unfold execBsig
  grind [completes_next, completes_finish]

theorem completes_execLsplit (rs1 rs2 mask) : Completes (execLsplit rs1 rs2 mask s) := by
  unfold execLsplit
  grind [completes_raise, completes_finish, completes_waiting, completes_next]

theorem completes_execLjoin : Completes (execLjoin s) := by
  unfold execLjoin
  grind [completes_raise, completes_next]

theorem completes_execSget (rd num) : Completes (execSget rd num s) := by
  unfold execSget
  grind [completes_raise, completes_finish]

theorem completes_execSput (rs1 num) : Completes (execSput rs1 num s) := by
  unfold execSput
  grind [completes_raise, completes_finish]

theorem completes_execSret : Completes (execSret s) := by
  unfold execSret
  grind [completes_privileged, completes_returnWith]

theorem completes_execMret : Completes (execMret s) := by
  unfold execMret
  grind [completes_privileged, completes_returnWith]

theorem completes_execCwb (rs1) : Completes (execCwb rs1 s) := by
  unfold execCwb
  grind [completes_privileged, completes_maintLine]

theorem completes_execHalt : Completes (execHalt s) := by
  unfold execHalt
  grind [completes_privileged, completes_finishEnd, completes_waiting, completes_next]

/-! ## Queued vector and matrix instructions -/

theorem completes_vecOp (c check eff) : Completes (vecOp s c check eff) := by
  unfold vecOp
  grind [completes_raise, completes_refuseConvoy, completes_finish]

theorem completes_genSweep (f rv extra vd mask conv) : Completes (genSweep f rv extra vd mask conv s) := by
  unfold genSweep
  exact completes_vecOp ..

theorem completes_intSweep (f vd vs1 vs2 mask conv scalar ty) : Completes (intSweep f vd vs1 vs2 mask conv scalar ty s) := by
  unfold intSweep
  exact completes_vecOp ..

theorem completes_wideSweep (f unary vd vs1 vs2 mask conv scalar ty) : Completes (wideSweep f unary vd vs1 vs2 mask conv scalar ty s) := by
  unfold wideSweep
  exact completes_vecOp ..

theorem completes_narrowSweep (f vd vs1 mask conv ty) : Completes (narrowSweep f vd vs1 mask conv ty s) := by
  unfold narrowSweep
  exact completes_vecOp ..

theorem completes_cmpSweep (f md vs1 vs2 mask conv scalar ty) : Completes (cmpSweep f md vs1 vs2 mask conv scalar ty s) := by
  unfold cmpSweep
  exact completes_vecOp ..

theorem completes_maskSweep (f md ma mb rm conv) : Completes (maskSweep f md ma mb rm conv s) := by
  unfold maskSweep
  exact completes_vecOp ..

theorem completes_permSweep (f extra two vd vs1 vs2 mask conv ty) : Completes (permSweep f extra two vd vs1 vs2 mask conv ty s) := by
  unfold permSweep
  exact completes_vecOp ..

theorem completes_macSweep (f extra vd vs1 vs2 vs3 mask conv) : Completes (macSweep f extra vd vs1 vs2 vs3 mask conv s) := by
  unfold macSweep
  exact completes_vecOp ..

theorem completes_wmacSweep (signed vd vs1 vs2 vs3 mask conv) : Completes (wmacSweep signed vd vs1 vs2 vs3 mask conv s) := by
  unfold wmacSweep
  exact completes_vecOp ..

theorem completes_fcmpSweep (c md vs1 vs2 mask conv scalar ty) : Completes (fcmpSweep c md vs1 vs2 mask conv scalar ty s) := by
  unfold fcmpSweep
  exact completes_vecOp ..

theorem completes_fpSweep (op unary vd vs1 vs2 mask conv scalar ty) : Completes (fpSweep op unary vd vs1 vs2 mask conv scalar ty s) := by
  unfold fpSweep
  exact completes_vecOp ..

theorem completes_fmaSweep (np nc vd vs1 vs2 vs3 mask conv bf16) : Completes (fmaSweep np nc vd vs1 vs2 vs3 mask conv bf16 s) := by
  unfold fmaSweep
  exact completes_vecOp ..

theorem completes_moveToX (signed vd vs1 vs2 conv) : Completes (moveToX signed vd vs1 vs2 conv s) := by
  unfold moveToX
  exact completes_vecOp ..

theorem completes_reduceOp (red toResult fpChecks vd vs1 vs2 mask conv toX perRow) :
    Completes (reduceOp red toResult fpChecks vd vs1 vs2 mask conv toX perRow s) := by
  unfold reduceOp
  exact completes_vecOp ..

theorem completes_execVmvv (vd vs1 vs2 conv) : Completes (execVmvv vd vs1 vs2 conv s) := by
  unfold execVmvv
  exact completes_vecOp ..

theorem completes_execVmerge (vd vs1 vs2 mask conv scalar ty) : Completes (execVmerge vd vs1 vs2 mask conv scalar ty s) := by
  unfold execVmerge
  exact completes_vecOp ..

theorem completes_execVcvt (vd vs1 mask conv alt src dst) : Completes (execVcvt vd vs1 mask conv alt src dst s) := by
  unfold execVcvt
  exact completes_vecOp ..

theorem completes_execVbsq (vd vs1 vs3 mask conv fmt) : Completes (execVbsq vd vs1 vs3 mask conv fmt s) := by
  unfold execVbsq
  exact completes_vecOp ..

theorem completes_execVbsdq (vd vs1 vs3 mask conv fmt) : Completes (execVbsdq vd vs1 vs3 mask conv fmt s) := by
  unfold execVbsdq
  exact completes_vecOp ..

theorem completes_execVcompress (vd vs1 mask conv ty) : Completes (execVcompress vd vs1 mask conv ty s) := by
  unfold execVcompress
  exact completes_vecOp ..

theorem completes_execVexit (vd vs1 conv) : Completes (execVexit vd vs1 conv s) := by
  unfold execVexit
  exact completes_vecOp ..

theorem completes_execMpop (vd vs1 conv) : Completes (execMpop vd vs1 conv s) := by
  unfold execMpop
  exact completes_vecOp ..

theorem completes_execMfirst (vd vs1 conv) : Completes (execMfirst vd vs1 conv s) := by
  unfold execMfirst
  exact completes_vecOp ..

theorem completes_execMzero (vc fmt conv) : Completes (execMzero vc fmt conv s) := by
  unfold execMzero
  exact completes_vecOp ..

theorem completes_matCvt (sr vc vd fmt conv) : Completes (matCvt sr vc vd fmt conv s) := by
  unfold matCvt
  exact completes_vecOp ..

theorem completes_intRed (f signed vd vs1 vs2 mask conv toX perRow) : Completes (intRed f signed vd vs1 vs2 mask conv toX perRow s) := by
  unfold intRed
  exact completes_reduceOp ..

theorem completes_fpRed (red bf16 vd vs1 vs2 mask conv toX perRow) : Completes (fpRed red bf16 vd vs1 vs2 mask conv toX perRow s) := by
  unfold fpRed
  exact completes_reduceOp ..

theorem completes_orderedRed (bf16 vd vs1 vs2 mask conv) : Completes (orderedRed bf16 vd vs1 vs2 mask conv s) := by
  unfold orderedRed
  exact completes_fpRed ..

theorem completes_vecMem (c check eff) : Completes (vecMem s c check eff) := by
  unfold vecMem
  grind [completes_raise, completes_refuseConvoy, completes_finish]

theorem completes_vecLoad (a vd conv mask ps) : Completes (vecLoad a vd conv mask ps s) := by
  unfold vecLoad
  exact completes_vecMem ..

theorem completes_vecStore (a vs multi conv unord mask) : Completes (vecStore a vs multi conv unord mask s) := by
  unfold vecStore
  exact completes_vecMem ..

theorem completes_vecAtomic (op size dup vs base idx token conv mask) : Completes (vecAtomic op size dup vs base idx token conv mask s) := by
  unfold vecAtomic
  exact completes_vecMem ..

theorem completes_spillFrame (vs base token conv bound) : Completes (spillFrame vs base token conv bound s) := by
  unfold spillFrame
  exact completes_vecMem ..

theorem completes_fillFrame (vd base token conv bound) : Completes (fillFrame vd base token conv bound s) := by
  unfold fillFrame
  exact completes_vecMem ..

theorem completes_matMul (zero bs vc va vb fmt fromSp orient conv) : Completes (matMul zero bs vc va vb fmt fromSp orient conv s) := by
  unfold matMul
  exact completes_vecMem ..

theorem completes_sampleOp (lod vd vs1 xs2 mask conv token) : Completes (sampleOp lod vd vs1 xs2 mask conv token s) := by
  unfold sampleOp
  exact completes_vecMem ..

theorem completes_queryOp (any vd vs1 xs2 mask conv token) : Completes (queryOp any vd vs1 xs2 mask conv token s) := by
  unfold queryOp
  exact completes_vecMem ..

theorem completes_vecLoadCw (form c0 vd base token col conv mc width) : Completes (vecLoadCw form c0 vd base token col conv mc width s) := by
  unfold vecLoadCw
  dsimp only
  split
  · exact completes_raise ..
  · split
    · exact completes_refuseConvoy ..
    · grind [completes_raise, completes_finish, completes_waiting]

theorem completes_matDrain (zero vc xc xm fmt conv) : Completes (matDrain zero vc xc xm fmt conv s) := by
  unfold matDrain
  grind [completes_raise, completes_refuseConvoy, completes_finish, completes_waiting]

theorem completes_execVshape (rd rs1 rs2 sew) : Completes (execVshape rd rs1 rs2 sew s) := by
  unfold execVshape
  grind [completes_raise, completes_finish]

theorem completes_execVpin (perm base len token) : Completes (execVpin perm base len token s) := by
  unfold execVpin
  grind [completes_raise, completes_finish, completes_waiting]

theorem completes_execVunpin (token) : Completes (execVunpin token s) := by
  unfold execVunpin
  grind [completes_finish, completes_waiting]

theorem completes_execVspill (vs base kind token conv) : Completes (execVspill vs base kind token conv s) := by
  unfold execVspill
  split
  · exact completes_spillFrame ..
  · exact completes_vecMem ..

theorem completes_execVfill (vd base kind token conv) : Completes (execVfill vd base kind token conv s) := by
  unfold execVfill
  split
  · exact completes_fillFrame ..
  · exact completes_vecMem ..

/-! ## Messages, sluices, barriers and tasks -/

theorem completes_sendOut (m) : Completes (sendOut s m) := by
  unfold sendOut
  grind [completes_waiting, completes_finish]

theorem completes_execMsend (xo xc xm) : Completes (execMsend xo xc xm s) := by
  unfold execMsend
  grind [completes_raise, completes_sendOut]

theorem completes_execMput (xv xc xm width) : Completes (execMput xv xc xm width s) := by
  unfold execMput
  grind [completes_raise, completes_sendOut]

theorem completes_execMwake (xc xm) : Completes (execMwake xc xm s) := by
  unfold execMwake
  grind [completes_raise, completes_sendOut]

theorem completes_mwaitHead (rd e tag) : Completes (mwaitHead rd e tag s) := by
  unfold mwaitHead
  grind [completes_raise, completes_waiting, completes_finish]

theorem completes_execMwait (rd xe tag) : Completes (execMwait rd xe tag s) := by
  unfold execMwait
  grind [completes_mwaitHead, completes_waiting]

theorem completes_locqRemote (rd c) : Completes (locqRemote rd c s) := by
  unfold locqRemote
  grind [completes_finish, completes_waiting]

theorem completes_execLocq (rd xc) : Completes (execLocq rd xc s) := by
  unfold execLocq
  grind [completes_raise, completes_finish, completes_locqRemote]

theorem completes_sluiceOp (form rd xa xp mask ch) : Completes (sluiceOp form rd xa xp mask ch s) := by
  unfold sluiceOp
  grind [completes_raise, completes_waiting, completes_finish]

theorem completes_gatherOp (form rd vi xp mask ch) : Completes (gatherOp form rd vi xp mask ch s) := by
  unfold gatherOp
  grind [completes_raise, completes_refuseConvoy, completes_waiting, completes_finish]

theorem completes_execSwait (rd xt ch) : Completes (execSwait rd xt ch s) := by
  unfold execSwait
  grind [completes_waiting, completes_finish]

theorem completes_execSfault (rd xs) : Completes (execSfault rd xs s) := by
  unfold execSfault
  grind [completes_raise, completes_finish]

theorem completes_execSreplay (rd xt ch) : Completes (execSreplay rd xt ch s) := by
  unfold execSreplay
  grind [completes_finish]

theorem completes_execWarrive (chan) : Completes (execWarrive chan s) := by
  unfold execWarrive
  grind [completes_raise, completes_finish]

theorem completes_execWwait (chan) : Completes (execWwait chan s) := by
  unfold execWwait
  grind [completes_waiting, completes_finish]

theorem completes_taskBitOp (bit xv xc xs) : Completes (taskBitOp bit xv xc xs s) := by
  unfold taskBitOp
  grind [completes_raise, completes_waiting, completes_finish]

theorem completes_execTend : Completes (execTend s) := by
  unfold execTend
  grind [completes_waiting, completes_next, completes_finishEnd]

theorem completes_execTpost (xs xp) : Completes (execTpost xs xp s) := by
  unfold execTpost
  grind [completes_raise, completes_finish]

theorem completes_execGlaunch (rd xs) : Completes (execGlaunch rd xs s) := by
  unfold execGlaunch
  grind [completes_raise, completes_finish]

theorem completes_execWreserve (rd xq xn) : Completes (execWreserve rd xq xn s) := by
  unfold execWreserve
  grind [completes_raise, completes_finish, completes_next]

theorem completes_execWcommit (xq xi) : Completes (execWcommit xq xi s) := by
  unfold execWcommit
  grind [completes_raise, completes_finish]

/-! ## Graphics -/

theorem completes_pixelOp (vs1 seq mask conv) {eff : List Member → Out} (h : ∀ cv, Completes (eff cv)) :
    Completes (pixelOp vs1 seq mask conv s eff) := by
  unfold pixelOp
  grind [completes_raise, completes_refuseConvoy]

theorem completes_execPxlock (vs1 xs2 mask conv) : Completes (execPxlock vs1 xs2 mask conv s) := by
  unfold execPxlock
  exact completes_pixelOp s _ _ _ _ fun cv => by grind [completes_raise, completes_finish, completes_next]

theorem completes_execPxunlock (vs1 mask conv) : Completes (execPxunlock vs1 mask conv s) := by
  unfold execPxunlock
  exact completes_pixelOp s _ _ _ _ fun cv => by grind [completes_raise, completes_finish]

theorem completes_execPxskip (vs1 xs2 mask conv) : Completes (execPxskip vs1 xs2 mask conv s) := by
  unfold execPxskip
  exact completes_pixelOp s _ _ _ _ fun cv => by grind [completes_raise, completes_finish]

theorem completes_execQpush (vs1 xs2 mask conv) : Completes (execQpush vs1 xs2 mask conv s) := by
  unfold execQpush
  grind [completes_raise, completes_refuseConvoy, completes_finish, completes_waiting]

theorem completes_execQend (xs2) : Completes (execQend xs2 s) := by
  unfold execQend
  grind [completes_raise, completes_finish]

/-! ## The instruction -/

theorem completes_exec (i : Instr) : Completes (exec i s) := by
  cases i with simp only [exec]
  | ld | lw | lwz | lbz | lx | ldaW | ldaD => exact completes_loadRd ..
  | sd | sw | sx | staW | staD => exact completes_store ..
  | amoswapD | amoswapW | amoaddD | amoaddW | amoandD | amoandW | amoorD | amoorW | amoxorD | amoxorW | amominD | amominW | amomaxD | amomaxW |
    amominzD | amominzW | amomaxzD | amomaxzW | amocasD | amocasW => exact completes_atomic ..
  | amoaddF32 => exact completes_execAmoaddF32 ..
  | lsp => exact completes_execLsp ..
  | ssp => exact completes_out _
  | jalr => exact completes_execJalr ..
  | bsig => exact completes_execBsig ..
  | lsplit => exact completes_execLsplit ..
  | ljoin => exact completes_execLjoin ..
  | sget => exact completes_execSget ..
  | sput => exact completes_execSput ..
  | sret => exact completes_execSret ..
  | mret => exact completes_execMret ..
  | cinv => exact completes_maintLine ..
  | cwb | cwbinv => exact completes_execCwb ..
  | halt => exact completes_execHalt ..
  | vshape => exact completes_execVshape ..
  | vpin => exact completes_execVpin ..
  | vunpin => exact completes_execVunpin ..
  | vspill => exact completes_execVspill ..
  | vfill => exact completes_execVfill ..
  | vmvx | vmvxz => exact completes_moveToX ..
  | vmvv => exact completes_execVmvv ..
  | vmerge => exact completes_execVmerge ..
  | vcompress => exact completes_execVcompress ..
  | vexit => exact completes_execVexit ..
  | mpop => exact completes_execMpop ..
  | mfirst => exact completes_execMfirst ..
  | vcvt => exact completes_execVcvt ..
  | vbsq => exact completes_execVbsq ..
  | vbsdq => exact completes_execVbsdq ..
  | vbcast | vmv | vid | vidr | vidf => exact completes_genSweep ..
  | vadd | vsub | vrsub | vmin | vminz | vmax | vmaxz | vsadd | vsaddz | vssub | vssubz | vmul | vmulh | vmulhz | vdiv | vdivz | vrem | vremz |
    vand | vor | vxor | vandn | vsll | vsrl | vsra | vror => exact completes_intSweep ..
  | vwadd | vwaddz | vwsub | vwsubz | vext | vextz | vwmul | vwmulz => exact completes_wideSweep ..
  | vnarrow | vnsat | vnsatz | vnclampz => exact completes_narrowSweep ..
  | vseq | vsne | vslt | vsltz | vsle | vslez | vsgt | vsgtz => exact completes_cmpSweep ..
  | mand | mor | mxor | mandn | mnot | mset | mclr => exact completes_maskSweep ..
  | vmac | vnmac | vdot4 | vdot4z => exact completes_macSweep ..
  | vwmac | vwmacz => exact completes_wmacSweep ..
  | vslideup | vslidedown | vrgather | vrowbc => exact completes_permSweep ..
  | vfadd | vfsub | vfrsub | vfmul | vfdiv | vfrdiv | vfsqrt | vfmin | vfmax | vfsgnj | vfsgnjn | vfsgnjx | vfclass => exact completes_fpSweep ..
  | vfmac | vfmsc | vfnmac | vfnmsc => exact completes_fmaSweep ..
  | vfeq | vfne | vflt | vfle | vfgt | vfge => exact completes_fcmpSweep ..
  | vredsum | vredmin | vredminz | vredmax | vredmaxz => exact completes_intRed ..
  | vfredo | vfredoBf16 => exact completes_orderedRed ..
  | vfredt | vfredtBf16 | vfredmin | vfredminBf16 | vfredmax | vfredmaxBf16 => exact completes_fpRed ..
  | vld | vldIndexed => exact completes_vecLoad ..
  | vldCw | vldIndexedCw => exact completes_vecLoadCw ..
  | vst | vstm | vstIndexed | vstmIndexed => exact completes_vecStore ..
  | vamoaddW | vamoaddD | vamominW | vamomaxW | vamoaddF32 | vamoaddF16 | vamoaddBf16 | vamoaddWDup | vamoaddDDup | vamominWDup | vamomaxWDup |
    vamoaddF32Dup | vamoaddF16Dup | vamoaddBf16Dup => exact completes_vecAtomic ..
  | mzero => exact completes_execMzero ..
  | mcvt | mcvtSr => exact completes_matCvt ..
  | mmul | mmulz | mmulBs | mmulzBs => exact completes_matMul ..
  | mdrain | mdrainz => exact completes_matDrain ..
  | msend => exact completes_execMsend ..
  | mput => exact completes_execMput ..
  | mwake => exact completes_execMwake ..
  | mwait => exact completes_execMwait ..
  | locq => exact completes_execLocq ..
  | scopyin | scopyout | scopy2inRow | scopy2inCol | scopy2outRow | scopy2outCol | scopyr => exact completes_sluiceOp ..
  | sgatherRow | sgatherCol => exact completes_gatherOp ..
  | swait => exact completes_execSwait ..
  | sfault => exact completes_execSfault ..
  | sreplay => exact completes_execSreplay ..
  | warrive => exact completes_execWarrive ..
  | wwait => exact completes_execWwait ..
  | thold | tready | tenable => exact completes_taskBitOp ..
  | tend => exact completes_execTend ..
  | tpost => exact completes_execTpost ..
  | glaunch => exact completes_execGlaunch ..
  | wreserve => exact completes_execWreserve ..
  | wcommit => exact completes_execWcommit ..
  | pxlock => exact completes_execPxlock ..
  | pxunlock => exact completes_execPxunlock ..
  | pxskip => exact completes_execPxskip ..
  | tsample | tsampleLod => exact completes_sampleOp ..
  | rquery | rqueryAny => exact completes_queryOp ..
  | qpush => exact completes_execQpush ..
  | qend => exact completes_execQend ..
  | _ => exact completes_next _

/-! ## The turn of a hart or of a lane -/

theorem completes_runInstr : Completes (runInstr s) := by
  unfold runInstr
  grind [completes_raise, completes_exec]

theorem completes_laneTrap (l) : Completes (laneTrap s l) := completes_raise ..

theorem completes_runLane (l) : Completes (runLane s l) := by
  unfold runLane
  grind [completes_next, completes_laneTrap, completes_exec]

theorem completes_runNext : Completes (runNext s) := by
  unfold runNext
  grind [completes_next, completes_runLane, completes_runInstr]

theorem completes_runDue (t) : Completes (runDue s t) := by
  have ran := completes_runInstr s
  unfold runDue
  grind [completes_next]

theorem completes_runHart : Completes (runHart s) := by
  unfold runHart
  grind [completes_next, completes_runDue, completes_runNext]

theorem completes_boundedRun (i p) : Completes (boundedRun i s p) := by
  unfold boundedRun
  split
  · exact completes_spillFrame ..
  · exact completes_fillFrame ..
  · exact completes_exec ..

theorem completes_stoppedRun (i w p) : Completes (stoppedRun i w s p) := by
  unfold stoppedRun
  grind [completes_boundedRun, completes_exec, completes_next]

theorem completes_runStopped (n) : Completes (runStopped s n) := by
  unfold runStopped
  grind [completes_runHart, completes_stoppedRun, completes_next]

theorem completes_runUpset (target) : Completes (runUpset s target) := by
  unfold runUpset
  grind [completes_runHart, completes_next]

/-! ## The step -/

theorem completes_turn : Completes (turn s) := by
  unfold turn
  grind [completes_runHart, completes_exec, completes_runLane, completes_next, completes_runStopped, completes_runUpset]

/-- The repair log's writer makes a next state of a next state, and passes anything else on (R441). -/
theorem Completes.logged {o : Out} (h : Completes o) : Completes (logged s o) := by
  obtain ⟨t, rfl⟩ := h
  exact completes_next _

end

/-- Settles O60: every turn of the agenda ends in a next state, and what follows the turn keeps it one. -/
theorem everyStepCompletes : Obligations.EveryStepCompletes :=
  fun s => (completes_turn s).logged s

end Sys2Proof.Machine

/-! # The step runs the instruction at the pc (O54) -/

namespace Sys2Proof.Machine

/-! ## The turn that runs an instruction -/

section

variable {s u v : State} {w : BitVec 32} {i : Instr}

theorem instrOfWord_ok (h : decode w = .ok i) : instrOfWord w = i := by
  unfold instrOfWord
  rw [h]

theorem instrOfWord_error {e} (h : decode w = .error e) : instrOfWord w = .illegalEncoding w := by
  unfold instrOfWord
  rw [h]

theorem runInstr_ok (h : fetch u = .ok (w, v)) : runInstr u = exec (instrOfWord w) { v with word := w } := by
  unfold runInstr
  rw [h]

theorem runInstr_error {t : Trap} (h : fetch u = .error (v, t)) : runInstr u = .next (takeTrap v t) := by
  unfold runInstr
  rw [h]
  rfl

/-- No asynchronous cause is due where none is pending, or where the instruction waits for a reply. -/
theorem asyncTurn_eq_none (h : s.h.reply ≠ none ∨ s.h.pending = [] ∧ budgetDue s s.cur = false) : asyncTurn s = none := by
  unfold asyncTurn
  obtain replied | ⟨idle, budget⟩ := h
  · rw [if_pos (Option.isSome_iff_ne_none.mpr replied)]
  · rw [idle, budget]
    exact ite_self _

/-- The turn of a hart that goes on is its instruction. -/
theorem runHart_of_fetches (h : Spec.Fetches u) : runHart u = runInstr u := by
  obtain ⟨run, lanes, quiet, firmware, rom⟩ := h
  unfold runHart runNext
  obtain ⟨ch, run⟩ | run := run <;> simp [run, firmware, rom, asyncTurn_eq_none quiet, lanes]

theorem step_of_fetches (turn : (s.agenda = [] ∧ u = s) ∨ ∃ k r, s.agenda = .run k :: r ∧ u = { s with agenda := r, cur := k })
    (h : Spec.Fetches u) : step s = logged s (runInstr u) := by
  rw [← runHart_of_fetches h]
  unfold step Machine.turn
  obtain ⟨agenda, rfl⟩ | ⟨k, r, agenda, rfl⟩ := turn <;> rw [agenda]

end

/-! ## A word placed where the next step fetches (log 5) -/

section

variable (w : BitVec 32)

/-- The state that holds a word for its next step. -/
abbrev fetching : State := State.reset.withFetchWord 32 w.toNat

theorem agent_fetching : (fetching w).agent = 0 := congrArg (· / 8) (show (fetching w).cur = 0 from rfl)

theorem onCore_fetching : (fetching w).onCore = true := by
  unfold State.onCore
  rw [agent_fetching]
  rfl

theorem core_fetching : (fetching w).c.sp = writeLE (State.reset.coreOf 0).sp 0 4 (w.toNat % 2 ^ 32) ∧ (fetching w).c.spBad = []
    ∧ (fetching w).c.bootFetch = true := by
  unfold State.c
  rw [agent_fetching]
  have placed : (fetching w).coreOf 0 = _ := State.coreOf_setCoreOf_self ..
  rw [placed]
  exact ⟨rfl, rfl, rfl⟩

theorem atFirmware_fetching : (fetching w).atFirmware = false := by
  unfold State.atFirmware
  rw [onCore_fetching, agent_fetching]
  rfl

theorem inRom_fetching : (fetching w).inRom = false := by
  unfold State.inRom
  rw [agent_fetching]
  rfl

theorem fetches_fetching : Spec.Fetches (fetching w) :=
  ⟨.inr rfl, rfl, .inr ⟨rfl, rfl⟩, atFirmware_fetching w, inRom_fetching w⟩

theorem fetch_fetching : fetch (fetching w) = .ok (w, fetching w) := by
  obtain ⟨sp, good, boot⟩ := core_fetching w
  have word : readLE (fetching w).c.sp 0 4 = w.toNat := by
    rw [sp, readLE_writeLE_self rfl]
    omega
  have pc : (fetching w).pc = 0 := rfl
  have priv : (fetching w).priv = 3 := rfl
  unfold fetch fetchAt fetchLoc
  simp [pc, priv, onCore_fetching, boot, good, word, bitsOf]

theorem step_fetching {i : Instr} (legal : i.wellFormed = true) (h : encode i = some w) :
    step (fetching w) = logged (fetching w) (exec i { fetching w with word := w }) := by
  obtain ⟨w', enc, dec⟩ := (Encoding.encodeDecode i).1 legal
  obtain rfl : w = w' := Option.some.inj (h.symm.trans enc)
  rw [step_of_fetches (.inl ⟨rfl, rfl⟩) (fetches_fetching w), runInstr_ok (fetch_fetching w), instrOfWord_ok dec]

end

theorem stepRunsInstruction_turns : Claims.StepRunsInstruction := by
  intro s
  refine ⟨fun u turn goes => ⟨fun w v i fetched dec => ?_, fun w v e fetched dec => ?_, fun v t fetched => ?_⟩,
    fun i r agenda => ?_, fun k l r agenda => ?_, fun k n r agenda => ?_, fun k a r agenda => ?_, fun k n r agenda => ?_, fun e r agenda => ?_,
    fun w i legal enc => step_fetching w legal enc⟩
  · rw [step_of_fetches turn goes, runInstr_ok fetched, instrOfWord_ok dec]
  · rw [step_of_fetches turn goes, runInstr_ok fetched, instrOfWord_error dec]
  · rw [step_of_fetches turn goes, runInstr_error fetched]
  all_goals
    unfold step turn
    rw [agenda]

end Sys2Proof.Machine

/-! # A cause inside an instruction (O54) -/

namespace Sys2Proof.Machine

/-! ## The instructions that stop by element -/

/-- The instructions that write registers element by element, and the reductions. -/
def computes (s : State) (i : Instr) : Bool := (Spec.elemForm i s).isSome || (Spec.fpRedForm i).isSome

/-- A word of the majors that access memory or push. -/
abbrev Accesses (n : Nat) : Prop := (0x30 ≤ n / 2 ^ 26 ∧ n / 2 ^ 26 ≤ 0x35) ∨ n / 2 ^ 26 = 0x3D

section

variable {s v : State} {i : Instr} {w : BitVec 32} {q : Nat × Nat}

theorem unorderedUnder_of_computes (h : computes s i = true) (k : BitVec 3) : unorderedUnder i k = none := by
  unfold unorderedUnder
  split
  · exact absurd h Bool.false_ne_true
  · exact absurd h Bool.false_ne_true
  · exact absurd h Bool.false_ne_true
  · exact absurd h Bool.false_ne_true
  · rfl

theorem boundedRun_of_computes (h : computes s i = true) : boundedRun i v q = exec i (v.boundAt q) := by
  unfold boundedRun
  split
  · exact absurd h Bool.false_ne_true
  · exact absurd h Bool.false_ne_true
  · rfl

/-- Such an instruction performs the elements before its stop and no others. -/
theorem stoppedRun_of_computes (h : computes s i = true) : stoppedRun i w v q = exec i (v.boundAt q) := by
  unfold stoppedRun
  rw [unorderedUnder_of_computes h, ite_self]
  exact boundedRun_of_computes h

theorem instrOf_of_decode (h : decode w = .ok i) : instrOf w.toNat = i := by
  unfold decode decodeNat at h
  split at h <;> cases h
  rfl

theorem computes_ite {c : Prop} [Decidable c] {a b : Instr} (ha : computes s a = false) (hb : computes s b = false) :
    computes s (if c then a else b) = false := by
  split
  · exact ha
  · exact hb

/-- No memory access and no push is one of them. -/
theorem computes_instrOf {n : Nat} (h : Accesses n) : computes s (instrOf n) = false := by
  have major : fld n 26 6 = 0x30 ∨ fld n 26 6 = 0x31 ∨ fld n 26 6 = 0x32 ∨ fld n 26 6 = 0x33 ∨ fld n 26 6 = 0x34 ∨ fld n 26 6 = 0x35
      ∨ fld n 26 6 = 0x3D := by
    unfold fld
    omega
  unfold instrOf
  obtain m | m | m | m | m | m | m := major <;> rw [m]
  · exact computes_ite rfl rfl
  · exact computes_ite rfl rfl
  · exact computes_ite rfl rfl
  · exact computes_ite rfl rfl
  · exact computes_ite rfl (computes_ite rfl (computes_ite rfl (computes_ite rfl (computes_ite rfl (computes_ite rfl rfl)))))
  · unfold instr35
    repeat' refine computes_ite rfl ?_
    rfl
  · unfold instr3D
    repeat' refine computes_ite rfl ?_
    rfl

/-- Such an instruction comes as far as each of its positions. -/
theorem comesTo_of_computes (dec : decode w = .ok i) (h : computes s i = true) : comesTo i w v q = true := by
  have elsewhere : ¬ Accesses w.toNat := fun m =>
    Bool.false_ne_true ((computes_instrOf m).symm.trans (instrOf_of_decode dec ▸ h))
  unfold comesTo
  exact if_neg elsewhere

/-- A word that stops by element stops at its active positions. -/
theorem stops_of_byElement (h : byElement w = true) : stops v w = active v (predicate w) := by
  have notFrame : vectorFrame w = false := by
    unfold byElement at h
    unfold vectorFrame
    grind
  have notPush : ¬ (w.toNat / 2 ^ 26 = 0x3D ∧ bitsOf w.toNat 0 7 = 0) := by
    rintro ⟨m, low⟩
    have op : bitsOf w.toNat 3 4 = 0 := by
      unfold bitsOf at low ⊢
      omega
    unfold byElement at h
    simp only [m, op] at h
    exact Bool.false_ne_true h
  have notBlock : ¬ (w.toNat / 2 ^ 26 = 0x2C ∧ w.getLsbD 2 = false) := by
    rintro ⟨m, bit⟩
    unfold byElement at h
    simp only [m, bit] at h
    exact Bool.false_ne_true h
  unfold stops
  simp only [notFrame, Bool.false_eq_true, if_false, notPush, notBlock, h, if_true]

end

/-! ## Where the sweep is bounded -/

section

variable {s v : State} {j e : Nat}

@[simp] theorem h_boundAt (q : Nat × Nat) : (v.boundAt q).h = { v.h with shape := { v.h.shape with vstop := posWord true q.1 q.2 } } :=
  State.h_setH ..

theorem boundAt_eq : v.setH { v.h with shape := { v.h.shape with vstop := BitVec.ofNat 64 (2 ^ 63 + j * 2 ^ 16 + e) } } = v.boundAt (j, e) := by
  unfold State.boundAt
  rw [posWord_true]

/-- The positions of a bounded sweep come before the bound. -/
theorem before_of_inSweep_boundAt (hj : j < 8) (he : e < 2048) {y x : Nat} (h : Spec.inSweep (v.boundAt (j, e)) true y x = true) :
    y < j ∨ y = j ∧ x < e := by
  have short := (mem_tileOf.mp (inTile_of_inSweep h)).2
  have vl : (v.boundAt (j, e)).h.shape.vl.toNat < 1024 := (v.boundAt (j, e)).h.shape.vl.isLt
  have bits : (posWord true j e).toNat = 2 ^ 63 + j * 2 ^ 16 + e := by
    rw [posWord_true, BitVec.toNat_ofNat]
    omega
  have top : (posWord true j e).getLsbD 63 = true := by
    rw [BitVec.getLsbD, bits, Nat.testBit_eq_decide_div_mod_eq]
    exact decide_eq_true (by omega)
  unfold Spec.inSweep at h
  simp only [h_boundAt, top, Spec.row, Spec.col, bits, Bool.and_eq_true, Bool.not_eq_true', Bool.true_and, decide_eq_false_iff_not] at h
  omega

theorem inSweep_of_activeAt {k : BitVec 3} {y x : Nat} (h : Spec.activeAt s k y x = true) : Spec.inSweep s true y x = true :=
  (Bool.and_eq_true_iff.mp h).1

/-- An element form writes inside its sweep. -/
theorem inSweep_of_writes {i : Instr} {f : Spec.ElemForm} (form : Spec.elemForm i s = some f) {y x : Nat} (h : f.writes y x = true) :
    Spec.inSweep s true y x = true := by
  cases i with
  | vmerge =>
    cases form
    exact h
  | vslideup | vslidedown | vrgather | vrowbc =>
    cases form
    exact inSweep_of_activeAt (Bool.and_eq_true_iff.mp h).1
  | _ => cases form <;> exact inSweep_of_activeAt h

end

/-! ## The trap at the stop -/

section

variable {s v y t : State} {w : BitVec 32} {i : Instr} {n : Nat} {q : Nat × Nat} {p : Pending} {ps : List Pending}

/-- What a trap's entry leaves does not depend on what the entry discards of the hart: its convoy, its checker and what it waits for (R237). -/
theorem trapped_of_harts {H : SMap Hart} {c : BitVec 9} {tval epc restart : Word} (others : ∀ k, k ≠ y.cur → { y with harts := H }.hartOf k = y.hartOf k)
    (hart : ∃ convoy fresh checker wait reply asked, { y with harts := H }.h = { y.h with
      convoy := convoy, fresh := fresh, checker := checker, wait := wait, reply := reply, asked := asked })
    (trapped : Trapped { y with harts := H } t c tval epc restart) : Trapped y t c tval epc restart := by
  obtain ⟨_, _, _, _, _, _, same⟩ := hart
  unfold Trapped atS causeTaken at trapped ⊢
  rw [same] at trapped
  obtain ⟨atSup, atMach, x, vs, m, pins, user, shape, refused, convoy, fresh, checker, lanes, lane, run, harts, rest⟩ := trapped
  exact ⟨atSup, atMach, x, vs, m, pins, user, shape, refused, convoy, fresh, checker, lanes, lane, run, fun k hk => (harts k hk).trans (others k hk), rest⟩

/-- The hart that has performed an instruction's elements before `q` and is stopped there, `ps` its other pending causes. -/
def stoppedHart (h : Hart) (q : Nat × Nat) (ps : List Pending) (rows : Vector Row 32) (flags : BitVec 5) : Hart :=
  { h with v := rows, pending := ps, user := { h.user with fflags := h.user.fflags ||| flags }
           shape := { h.shape with vstart := posWord false q.1 q.2 } }

/-- From `v` the sweep bounded at `q` has written `rows`, raised `flags` and completed. -/
def SweptTo (v t : State) (q : Nat × Nat) (c : Claim) (rows : Vector Row 32) (flags : BitVec 5) : Prop :=
  Spec.VectorDone (v.boundAt q) t c { (v.boundAt q).h with
    v := rows, user := { (v.boundAt q).h.user with fflags := (v.boundAt q).h.user.fflags ||| flags } }

variable {c : Claim} {rows : Vector Row 32} {flags : BitVec 5}

theorem swept_of_sweptTo (done : SweptTo v t q c rows flags) : swept v t = true := by
  obtain ⟨hart, -, -⟩ := done
  unfold swept
  rw [hart]
  simp [Hart.doneAt]

/-- The pending cause is taken at the instruction, with the elements before the stop performed. -/
theorem stopAtPos_trapped (hart : v.lane = none) (pending : v.h.pending = p :: ps) (done : SweptTo v t q c rows flags) :
    Trapped (v.setH (stoppedHart v.h q ps rows flags)) (stopAtPos v t q) p.cause p.tval v.pc 0 := by
  obtain ⟨became, others, frame⟩ := done
  obtain ⟨H, rfl⟩ : ∃ H, t = { v.boundAt q with harts := H } := ⟨_, frame⟩
  set u : State := { v.boundAt q with harts := H }
  rw [h_boundAt] at became
  set g : Hart := { u.h with pc := v.h.pc, shape := { u.h.shape with vstart := posWord false q.1 q.2, vstop := v.h.shape.vstop } } with hg
  set x : State := (u.setH g).setH { g with pending := ps } with hx
  have xh : x.h = { g with pending := ps } := State.h_setH ..
  have due : asyncTurn (u.setH g) = some (takeTrap x (Trap.of p.cause p.tval)) := by
    unfold asyncTurn
    have quiet : g.reply.isSome = false := by rw [hg, became]; rfl
    have waiting : g.pending = p :: ps := by rw [hg, became]; exact pending
    rw [State.h_setH, quiet, waiting]
    rfl
  have taken : stopAtPos v u q = takeTrap x (Trap.of p.cause p.tval) := by
    show (asyncTurn (u.setH g)).getD (u.setH g) = _
    rw [due]
    rfl
  have pc : x.pc = v.pc := by
    have xlane : x.lane = none := hart
    unfold State.pc
    rw [xlane, hart, xh]
  have away (k : Nat) (hk : k ≠ v.cur) : x.hartOf k = (v.setH (stoppedHart v.h q ps rows flags)).hartOf k := by
    rw [State.hartOf_setH_ne v _ hk, hx, State.hartOf_setH_ne (u.setH g) _ hk, State.hartOf_setH_ne u _ hk, others k hk]
    exact State.hartOf_setH_ne v _ hk
  have entry := takeTrapAt_trapped x (Trap.of p.cause p.tval) x.pc
  rw [taken, ← pc]
  refine trapped_of_harts (H := x.harts) away ?_ entry
  refine ⟨g.convoy, g.fresh, g.checker, g.wait, g.reply, g.asked, ?_⟩
  show x.h = _
  rw [xh, State.h_setH, hg, became]
  rfl

end

/-! ## The stop -/

/-- The hart of `s` goes on with the instruction at its pc, which is fetched into `v` and stops by element, `q` its active position number `n`. -/
structure StopsAt (s v : State) (w : BitVec 32) (n : Nat) (q : Nat × Nat) : Prop where
  lanes : s.h.lanes = none
  due : (asyncTurn s).isSome = true
  fetches : s.fetches = true
  fetched : ∃ u, fetch s = .ok (w, u) ∧ v = { u with word := w }
  word : byElement w = true
  position : (active v (predicate w))[n]? = some q

section

variable {s v b t : State} {w : BitVec 32} {i : Instr} {n : Nat} {q : Nat × Nat} {p : Pending} {ps : List Pending} {c : Claim}
  {rows : Vector Row 32} {flags : BitVec 5}

theorem runStopped_of_swept (here : StopsAt s v w n q) (dec : decode w = .ok i) (comp : computes b i = true)
    (answer : exec i (v.boundAt q) = .next t) (done : swept v t = true) : runStopped s n = .next (stopAtPos v t q) := by
  obtain ⟨lanes, due, fetches, ⟨u, fetched, rfl⟩, word, position⟩ := here
  obtain ⟨x, due⟩ := Option.isSome_iff_exists.mp due
  have stop : stopPoint { u with word := w } w n = some q := by
    unfold stopPoint
    rw [stops_of_byElement word, position]
  unfold runStopped
  simp only [due, lanes, fetched, fetches, if_true, stop, instrOfWord_ok dec, comesTo_of_computes dec comp, Bool.true_eq_false, if_false,
    stoppedRun_of_computes comp, answer, done]

/-- An instruction whose sweep up to `q` completes is stopped at `q`, where the pending cause is taken. -/
theorem runStopped_trapped (here : StopsAt s v w n q) (dec : decode w = .ok i) (comp : computes b i = true) (hart : v.lane = none)
    (pending : v.h.pending = p :: ps) (answer : exec i (v.boundAt q) = .next t) (done : SweptTo v t q c rows flags) :
    ∃ t, runStopped s n = .next t ∧ Trapped (v.setH (stoppedHart v.h q ps rows flags)) t p.cause p.tval v.pc 0 :=
  ⟨_, runStopped_of_swept here dec comp answer (swept_of_sweptTo done), stopAtPos_trapped hart pending done⟩

end

/-! ## Element forms and ordered reductions -/

section

variable {s u v b : State} {w : BitVec 32} {i : Instr} {j e : Nat}

theorem fetches_of_run (run : Spec.onTask s.h ∨ s.h.run = .firmware) (firmware : s.atFirmware = false) (rom : s.inRom = false) : s.fetches = true := by
  unfold State.fetches
  rw [firmware, rom]
  obtain ⟨ch, run⟩ | run := run <;> rw [run] <;> rfl

theorem memoryOnly_of_fetch (h : fetch s = .ok (w, u)) : MemoryOnly s u := by
  have kept : ResMemoryOnly s (fetch s) := fetchAt_memoryOnly (MemoryOnly.refl s) _
  rw [h] at kept
  exact kept

theorem posWord_false (row elem : Nat) : posWord false row elem = BitVec.ofNat 64 (row * 2 ^ 16 + elem) := by
  simp [posWord, b2n]

theorem computes_of_elemForm {f : Spec.ElemForm} (h : Spec.elemForm i b = some f) : computes b i = true := by
  unfold computes
  rw [h]
  rfl

theorem computes_of_fpRedForm {r} (h : Spec.fpRedForm i = some r) : computes b i = true := by
  unfold computes
  rw [h]
  exact Bool.or_true _

/-- An element form's sweep up to a bound. -/
theorem elemForm_sweptTo {q : Nat × Nat} {f : Spec.ElemForm} (hart : v.lane = none) (shape : Spec.ShapeOk v.h.shape)
    (form : Spec.elemForm i (v.boundAt q) = some f) (legal : f.legal = true) (joins : Spec.Joins (v.boundAt q) f.claim) :
    ∃ t rows, exec i (v.boundAt q) = .next t ∧ SweptTo v t q f.claim rows (Spec.flagsOver (v.boundAt q) f.writes f.flags)
      ∧ Spec.ElementsWritten v.h.v rows f.vd.toNat f.w f.writes f.val := by
  obtain ⟨t, rows, answer, done, written⟩ := vectorElementResults i (v.boundAt q) f hart (by rw [h_boundAt]; exact shape) form legal joins
  rw [h_boundAt] at written
  exact ⟨t, rows, answer, done, written⟩

/-- What an ordered reduction up to a bound has accumulated, from the running value that a resumed one finds in `vd` (R247). -/
def orderedSum (v b : State) (vd a x : BitVec 5) (k : BitVec 3) (bf : Bool) : Spec.WithFlags :=
  Spec.reduceFp (Spec.sewFmt b bf) (rndOf v.h.user.frm) 0
    (if v.h.shape.vstart ≠ 0 then Spec.el b vd (Spec.sewOf b) 0 0 else (b.x x).toNat % 2 ^ Spec.sewOf b)
    ((Spec.tileOf b).map fun q => if Spec.activeAt b k q.1 q.2 then some (Spec.el b a (Spec.sewOf b) q.1 q.2) else none)

/-- An ordered reduction's sweep up to a bound. -/
theorem ordered_sweptTo {q : Nat × Nat} {vd a x : BitVec 5} {k : BitVec 3} {c bf : Bool} (hart : v.lane = none) (shape : Spec.ShapeOk v.h.shape)
    (nonempty : v.h.shape.vl ≠ 0) (form : Spec.fpRedForm i = some (vd, a, x, k, c, false, false, bf, 0))
    (legal : Spec.redLegal (v.boundAt q) vd a false false)
    (width : if bf then Spec.sewOf (v.boundAt q) = 16 else Spec.sewOf (v.boundAt q) ≠ 8)
    (joins : Spec.Joins (v.boundAt q) (Spec.redClaim (v.boundAt q) vd a k c false false)) :
    ∃ t rows, exec i (v.boundAt q) = .next t
      ∧ SweptTo v t q (Spec.redClaim (v.boundAt q) vd a k c false false) rows (orderedSum v (v.boundAt q) vd a x k bf).2
      ∧ Spec.ElementsWritten v.h.v rows vd.toNat (Spec.sewOf (v.boundAt q)) (fun y x => decide (y = 0 ∧ x = 0))
          (fun _ _ => (orderedSum v (v.boundAt q) vd a x k bf).1) := by
  have reduced := floatReductions i (v.boundAt q) vd a x k c false false bf 0 hart (by rw [h_boundAt]; exact shape) form legal width joins
  have start : (0 = 0 ∧ (v.boundAt q).h.shape.vstart ≠ 0 ∧ (v.boundAt q).h.shape.vl ≠ 0) ↔ v.h.shape.vstart ≠ 0 := by
    rw [h_boundAt]
    exact ⟨fun h => h.2.1, fun h => ⟨rfl, h, nonempty⟩⟩
  have round : (v.boundAt q).h.user.frm = v.h.user.frm := by rw [h_boundAt]
  have sum : Spec.reduceFp (Spec.sewFmt (v.boundAt q) bf) (rndOf (v.boundAt q).h.user.frm) 0
      (if 0 = 0 ∧ (v.boundAt q).h.shape.vstart ≠ 0 ∧ (v.boundAt q).h.shape.vl ≠ 0 then Spec.el (v.boundAt q) vd (Spec.sewOf (v.boundAt q)) 0 0
       else ((v.boundAt q).x x).toNat % 2 ^ Spec.sewOf (v.boundAt q))
      ((Spec.tileOf (v.boundAt q)).map fun p =>
        if Spec.activeAt (v.boundAt q) k p.1 p.2 then some (Spec.el (v.boundAt q) a (Spec.sewOf (v.boundAt q)) p.1 p.2) else none)
      = orderedSum v (v.boundAt q) vd a x k bf := by
    unfold orderedSum
    rw [if_congr start rfl rfl, round]
  have first : (fun y x => decide (x = 0 ∧ y < 1)) = fun y x : Nat => decide (y = 0 ∧ x = 0) := by
    funext y x
    exact decide_eq_decide.mpr (by omega)
  dsimp only at reduced
  rw [sum] at reduced
  unfold Spec.ReducedTo at reduced
  simp only [Bool.false_eq_true, if_false, first] at reduced
  obtain ⟨t, rows, answer, done, written⟩ := reduced
  rw [h_boundAt] at written
  exact ⟨t, rows, answer, done, written⟩

end

theorem stoppedInside : Claims.StoppedInside := by
  intro s u w i n j e p ps hart lanes reply pending run firmware rom fetched dec v b word position shape stops
  have only := memoryOnly_of_fetch fetched
  have vh : v.h = s.h := only.h
  have vlane : v.lane = none := only.2.2.1.trans hart
  have vpc : v.pc = s.pc := by
    unfold State.pc
    rw [vlane, hart, vh]
  have active : Spec.activeAt v (predicate w) j e = true := mem_active.mp (List.mem_of_getElem? position)
  have row : j < 8 := by
    have inTile := row_of_activeAt active
    obtain ⟨rows, -, -⟩ := shape
    rcases rows with r | r | r | r <;> rw [r] at inTile <;> exact inTile.trans_le (by decide)
  have col : e < v.h.shape.vl.toNat := col_of_activeAt active
  have due : (asyncTurn s).isSome = true := by
    unfold asyncTurn
    rw [reply, pending]
    rfl
  have here : StopsAt s v w n (j, e) := ⟨lanes, due, fetches_of_run run firmware rom, ⟨u, fetched, rfl⟩, word, position⟩
  have pended : v.h.pending = p :: ps := by rw [vh, pending]
  have bound : b = v.boundAt (j, e) := boundAt_eq
  clear_value b
  subst bound
  have settled {t : State} {rows : Vector Row 32} {flags : BitVec 5}
      (trapped : Trapped (v.setH (stoppedHart v.h (j, e) ps rows flags)) t p.cause p.tval v.pc 0) : stops t rows flags := by
    rw [vpc] at trapped
    unfold stoppedHart at trapped
    rw [posWord_false] at trapped
    exact trapped
  refine ⟨fun f form legal joins => ?_, fun vd a x k c bf form legal width joins => ?_⟩
  · obtain ⟨t, rows, answer, done, written⟩ := elemForm_sweptTo vlane shape form legal joins
    obtain ⟨t, ran, trapped⟩ := runStopped_trapped here dec (computes_of_elemForm form) vlane pended answer done
    exact ⟨t, rows, ran, settled trapped, written, fun y x h =>
      before_of_inSweep_boundAt row (by have := v.h.shape.vl.isLt; omega) (inSweep_of_writes form h)⟩
  · have nonempty : v.h.shape.vl ≠ 0 := fun z => by
      rw [z] at col
      exact absurd col (Nat.not_lt_zero e)
    obtain ⟨t, rows, answer, done, written⟩ := ordered_sweptTo vlane shape nonempty form legal width joins
    obtain ⟨t, ran, trapped⟩ := runStopped_trapped here dec (computes_of_fpRedForm (b := v) form) vlane pended answer done
    exact ⟨t, rows, ran, settled trapped, written⟩

/-- Settles O54: each turn is one arm of the agenda, and an instruction stopped at a position is its sweep bounded there, with the cause's trap
after it. -/
theorem stepRunsInstruction : Obligations.StepRunsInstruction := ⟨stepRunsInstruction_turns, stoppedInside⟩

end Sys2Proof.Machine

/-! # Scalar instructions that complete or trap (O3, O14) -/

namespace Sys2Proof.Machine

/-! ## Completing in a hart or in a lane -/

section

variable {s u w t : State} {rd : BitVec 5} {v p : Word} {f : BitVec 5}

/-- The hart after one of its threads has written a scalar register of its own (R19, R38). -/
def Hart.regSet (h : Hart) (lane : Option Nat) (rd : BitVec 5) (v : Word) : Hart :=
  match lane with
  | none => { h with x := h.xWith rd v }
  | some l => h.laneSet l rd v

@[simp] theorem Hart.regSet_zero (h : Hart) (lane : Option Nat) (v : Word) : h.regSet lane 0 v = h := by
  cases lane <;> rfl

theorem Hart.regSet_eq (h : Hart) (lane : Option Nat) :
    h.regSet lane rd v = { h with x := (h.regSet lane rd v).x, v := (h.regSet lane rd v).v } := by
  unfold Hart.regSet
  split
  · rfl
  · rw [laneSet_eq]

theorem setX_becomes (s : State) (rd : BitVec 5) (v : Word) : Becomes s (s.setX rd v) (s.h.regSet s.lane rd v) := by
  cases lane : s.lane with
  | none =>
    rw [setX_of_hart s rd v lane]
    exact becomes_setH s _
  | some l => exact setX_of_lane lane

/-- A register of a thread is written, its hart's checker becomes `c` and the thread goes on at `p`: the instruction has completed. A lane
leaves the checker of its hart alone (R140). -/
theorem setPc_scalarDone (b : Becomes s u ((s.h.orFlags f).regSet s.lane rd v)) {c ck : Checker}
    (ofHart : s.lane = none → c = ck) (ofLane : s.lane ≠ none → c = s.h.checker) (p : Word) :
    ScalarDone s (u.setH ({ u.h.running with checker := c }.setPc u.lane p)) rd v f p ck := by
  have done := b.setH ({ u.h.running with checker := c }.setPc u.lane p)
  refine ⟨done.self, fun hart => ?_, fun l r inLane => ?_⟩
  · rw [done.h, b.h, b.lane, hart, setPc_of_hart, ofHart hart]
    rfl
  · obtain ⟨lane, hl, region⟩ := inLane
    rw [done.h, b.h, b.lane, lane, ofLane (by simp [lane])]
    refine ⟨((s.h.orFlags f).laneSet l rd v).v, r.lanes.set (l % 16) { r.lanes.get (Fin.ofNat 16 l) with pc := p }
      (Nat.mod_lt _ (by decide)), ?_, fun n k _ => ?_, lanes_set r.lanes hl fun ln => { ln with pc := p }⟩
    · simp only [Hart.regSet]
      rw [laneSet_eq]
      simp only [Hart.setPc, region, Hart.running, Hart.doneAt, Hart.orFlags]
    · refine Eq.trans ?_ (laneX_laneSet (s.h.orFlags f) hl n k)
      simp only [Hart.regSet]
      rw [laneSet_eq]
      simp only [laneX, Hart.setPc, region, Hart.running, Hart.orFlags]

theorem orFlags_zero (h : Hart) : h.orFlags 0 = h := by simp [Hart.orFlags]

/-- The checker's next value in a lane is its hart's (R140, R257). -/
theorem checkerNext_of_lane (lane : s.lane ≠ none) : s.checkerNext = s.h.checker :=
  if_pos (Option.isSome_iff_ne_none.mpr lane)

/-- The checker's next value and the pc are those before the instruction's register was written. -/
theorem Becomes.afterReg (b : Becomes s u ((s.h.orFlags f).regSet s.lane rd v)) : u.checkerNext = s.checkerNext ∧ u.pc = s.pc := by
  rw [Hart.regSet_eq] at b
  exact ⟨b.checkerNext rfl rfl, b.pc rfl rfl⟩

/-- A thread that writes a register and completes goes on at pc + 4. -/
theorem retire_scalarDone (b : Becomes s u ((s.h.orFlags f).regSet s.lane rd v)) :
    ScalarDone s (retire u) rd v f (s.pc + 4) s.checkerNext := by
  obtain ⟨checker, pc⟩ := b.afterReg
  unfold retire
  rw [checker, pc]
  exact setPc_scalarDone b (fun _ => rfl) checkerNext_of_lane _

/-- An instruction that changes no register of its thread has completed. -/
theorem finish_scalarDone (s : State) : ∃ t, finish s = .next t ∧ ScalarDone s t 0 0 0 (s.pc + 4) s.checkerNext := by
  have same : Becomes s s ((s.h.orFlags 0).regSet s.lane 0 0) := by
    rw [Hart.regSet_zero, orFlags_zero]
    exact becomes_refl s
  exact ⟨_, rfl, retire_scalarDone same⟩

end

/-! ## Control transfers (R75, R103) -/

section

variable {s u : State} {i : Instr} {rd : BitVec 5} {v p : Word}

/-- The trap of a block signature that differs, which is never delegated (R258). -/
theorem signatureTrap_trapped (s : State) (epc block : Word) :
    Trapped s (takeTrapAt s epc (Trap.of 0x160 block) true) 0x160 block epc 0 := by
  have notS : ¬ atS s 0x160 := fun a => absurd a.1 (by simp [causeTaken])
  have forced : takeTrapAt s epc (Trap.of 0x160 block) true = takeTrapAt s epc (Trap.of 0x160 block) false := by
    rw [takeTrapAt_M s _ epc true (fun _ => rfl), takeTrapAt_M s _ epc false (absurd · notS)]
  rw [forced]
  exact takeTrapAt_trapped s (Trap.of 0x160 block) epc

/-- An end word that writes `rd` and goes to `p`: it has its effect, and a signature that differs then traps (R256 to R258). -/
theorem finishEnd_done (b : Becomes s u (s.h.regSet s.lane rd v)) (p : Word) :
    ∃ g, ScalarDone s g rd v 0 p s.checkerNext.close
      ∧ finishEnd u p = .next (if s.lane.isNone && s.checkerNext.differs
          then takeTrapAt g (s.pc + 4) (Trap.of 0x160 s.checkerNext.block) true else g) := by
  rw [← orFlags_zero s.h] at b
  obtain ⟨checker, pc⟩ := b.afterReg
  refine ⟨u.setH ({ u.h.running with checker := if u.lane.isSome then s.checkerNext else s.checkerNext.close }.setPc u.lane p),
    setPc_scalarDone b (fun hart => ?_) (fun lane => ?_) p, ?_⟩
  · rw [b.lane, hart]
    rfl
  · rw [b.lane, if_pos (Option.isSome_iff_ne_none.mpr lane)]
    exact checkerNext_of_lane lane
  · unfold finishEnd retireEnd
    rw [checker, pc, b.lane]

theorem branch_eq (taken : Bool) (off : BitVec 16) (s : State) :
    branch taken off s = finishEnd s (if taken then BitVec.ofInt 64 (s.pc.toInt + 4 * off.toInt) else BitVec.ofInt 64 (s.pc.toInt + 4)) := by
  unfold branch
  rw [offset_eq_ofInt, ← add_ofInt s.pc 4]
  rfl

/-- A control transfer writes its link register, if it has one, and ends its block at its target (R103). -/
theorem exec_of_transfer (h : Spec.transfer i s = some (p, rd)) :
    ∃ u, Becomes s u (s.h.regSet s.lane rd (s.pc + 4)) ∧ exec i s = finishEnd u p := by
  have ends {o : Out} (e : o = finishEnd s p) : ∃ u, Becomes s u (s.h.regSet s.lane 0 (s.pc + 4)) ∧ o = finishEnd u p :=
    ⟨s, by rw [Hart.regSet_zero]; exact becomes_refl s, e⟩
  unfold Spec.transfer at h
  dsimp only at h
  split at h
  case h_1 rd off =>
    cases h
    rw [← offset_eq_ofInt]
    exact ⟨_, setX_becomes .., rfl⟩
  case h_2 rd a imm =>
    split at h
    · next aligned =>
      cases h
      rw [← add_ofInt] at aligned ⊢
      exact ⟨_, setX_becomes .., if_neg (not_not.mpr aligned)⟩
    · cases h
  case h_3 a b off | h_4 a b off | h_5 a b off =>
    cases h
    exact ends (branch_eq ..)
  case h_6 a b off =>
    rw [← bge_condition] at h
    cases h
    exact ends (branch_eq (!(s.x a).slt (s.x b)) off s)
  case h_7 => cases h

theorem controlTransfer : Claims.ControlTransfer := by
  intro i s p rd _ goes same
  obtain ⟨u, put, ends⟩ := exec_of_transfer goes
  obtain ⟨g, done, answer⟩ := finishEnd_done put p
  have quiet : (s.lane.isNone && s.checkerNext.differs) = false := by
    cases lane : s.lane with
    | none => exact same lane
    | some l => rfl
  rw [quiet] at answer
  exact ⟨g, ends.trans answer, done⟩

/-- `jalr` to an address that is no multiple of 4 traps before anything is written (R103). -/
theorem misalignedJump : Claims.MisalignedJump := by
  intro s rd a imm _ misaligned
  have answer : exec (.jalr rd a imm) s = raise s (Trap.of 0x041 (s.x a + imm.signExtend 64)) := if_pos misaligned
  unfold Traps
  rw [answer]
  exact raise_trapped s _

end

/-- Settles O3: every transfer is one end word at its target, and a misaligned `jalr` traps. -/
theorem controlTransfers : Obligations.ControlTransfers := ⟨controlTransfer, misalignedJump⟩

end Sys2Proof.Machine

/-! # Block signatures (O14) -/

namespace Sys2Proof.Machine

/-! ## `bsig` (R104, R256, R257) -/

section

variable {s : State} {imm : BitVec 21}

theorem checking_of_hart (hart : s.lane = none) : s.checking = (s.onCore && s.h.trap.status.sigen) := by
  unfold State.checking
  rw [hart, Option.isNone_none, Bool.and_true]

theorem bsig_unchecked (h : s.checking = false) : exec (.bsig imm) s = finish s := if_neg (Bool.eq_false_iff.mp h)

theorem bsig_checked (h : s.checking = true) : exec (.bsig imm) s
    = if s.h.checker.differs then .next (takeTrapAt s s.pc (Trap.of 0x160 s.h.checker.block) true)
      else .next (s.setH { s.h.running with checker := .armed s.pc imm 0 false, pc := s.pc + 4 }) := if_pos h

theorem checkerNext_of_hart (hart : s.lane = none) :
    s.checkerNext = if s.onCore && s.h.trap.status.sigen then s.h.checker.fold s.word else .idle := by
  unfold State.checkerNext
  rw [checking_of_hart hart, hart]
  rfl

/-- A `bsig` that meets no difference arms the checker with its own address and its immediate (R256). -/
theorem bsig_arms (hart : s.lane = none) (checks : s.checking = true) (same : s.h.checker.differs = false) :
    ∃ t, exec (.bsig imm) s = .next t ∧ ScalarDone s t 0 0 0 (s.pc + 4) (.armed s.pc imm 0 false) := by
  have put : Becomes s s ((s.h.orFlags 0).regSet s.lane 0 0) := by
    rw [Hart.regSet_zero, orFlags_zero]
    exact becomes_refl s
  have done := setPc_scalarDone put (c := .armed s.pc imm 0 false) (fun _ => rfl) (absurd hart) (s.pc + 4)
  rw [hart, setPc_of_hart] at done
  exact ⟨_, by rw [bsig_checked checks, if_neg (Bool.eq_false_iff.mp same)], done⟩

theorem blockSignature : Claims.BlockSignature := by
  intro s imm hart
  refine ⟨fun core enabled => ?_, fun disabled => ?_, fun i p rd goes differs => ?_⟩
  · have enabled : (s.onCore && s.h.trap.status.sigen) = true := by rw [enabled, State.onCore, decide_eq_true core, Bool.and_true]
    have checks : s.checking = true := (checking_of_hart hart).trans enabled
    refine ⟨bsig_arms hart checks, fun differs => ?_, fun b e r armed => ?_⟩
    · unfold Traps
      rw [bsig_checked checks, if_pos differs]
      exact ⟨_, rfl, signatureTrap_trapped ..⟩
    · rw [checkerNext_of_hart hart, enabled, armed]
      rfl
  · have disabled : (s.onCore && s.h.trap.status.sigen) = false := by rw [disabled, Bool.and_false]
    have idle : s.checkerNext = .idle := by
      rw [checkerNext_of_hart hart, disabled]
      rfl
    obtain ⟨t, answer, done⟩ := finish_scalarDone s
    rw [idle] at done
    exact ⟨idle, t, (bsig_unchecked ((checking_of_hart hart).trans disabled)).trans answer, done⟩
  · obtain ⟨u, put, ends⟩ := exec_of_transfer goes
    obtain ⟨g, done, answer⟩ := finishEnd_done put p
    rw [hart, differs] at answer
    exact ⟨g, _, done, ends.trans answer, signatureTrap_trapped ..⟩

theorem laneSignature : Claims.LaneSignature := by
  intro s imm l r inLane
  have lane : s.lane ≠ none := by simp [inLane.1]
  have unchecked : s.checking = false := by
    unfold State.checking
    rw [inLane.1, Option.isNone_some, Bool.and_false, Bool.false_and]
  obtain ⟨t, answer, done⟩ := finish_scalarDone s
  rw [checkerNext_of_lane lane] at done
  exact ⟨checkerNext_of_lane lane, t, (bsig_unchecked unchecked).trans answer, done⟩

end

/-! ## A transfer that goes wrong (R256, R258, R259) -/

section

variable {s u v : State} {w : BitVec 32} {i : Instr} {rd : BitVec 5} {p q : Word}

/-- A branch that goes the other way than its operands say. -/
theorem other_way {taken : Bool} {next dest : Word} (other : q ≠ if taken then dest else next) (way : q = next ∨ q = dest) :
    (dest ≠ next && decide (q = if taken then next else dest)) = true := by
  obtain rfl | rfl := way <;> cases taken <;> simp_all [eq_comm]

/-- The transfers that can go wrong, and where to (log 37). -/
def WrongWay (i : Instr) (v : State) (rd : BitVec 5) (q : Word) : Prop :=
  (∃ a b off, (i = .beq a b off ∨ i = .bne a b off ∨ i = .blt a b off ∨ i = .bge a b off)
      ∧ (q = v.pc + 4 ∨ q = BitVec.ofInt 64 (v.pc.toInt + 4 * off.toInt)))
    ∨ (∃ a imm, i = .jalr rd a imm) ∧ q.toNat % 4 = 0

theorem branch_goesWrong {taken : Bool} {off : BitVec 16}
    (goes : some (if taken then BitVec.ofInt 64 (v.pc.toInt + 4 * off.toInt) else BitVec.ofInt 64 (v.pc.toInt + 4), (0 : BitVec 5)) = some (p, rd))
    (other : q ≠ p) (way : q = v.pc + 4 ∨ q = BitVec.ofInt 64 (v.pc.toInt + 4 * off.toInt)) :
    (v.pc + (off.signExtend 64 <<< 2) ≠ v.pc + 4
      && decide (q = if taken then v.pc + 4 else v.pc + (off.signExtend 64 <<< 2))) = true := by
  obtain ⟨rfl, -⟩ := Prod.mk.inj (Option.some.inj goes)
  rw [← offset_eq_ofInt, ← add_ofInt v.pc 4] at other
  rw [← offset_eq_ofInt] at way
  exact other_way other way

theorem goesWrong_of_wrongWay (goes : Spec.transfer i v = some (p, rd)) (other : q ≠ p) (wrong : WrongWay i v rd q) :
    goesWrong i v q = true := by
  obtain ⟨a, b, off, rfl | rfl | rfl | rfl, way⟩ | ⟨⟨a, imm, rfl⟩, aligned⟩ := wrong
  · exact branch_goesWrong goes other way
  · exact branch_goesWrong goes other way
  · exact branch_goesWrong goes other way
  · simp only [Spec.transfer, ← bge_condition] at goes
    exact branch_goesWrong goes other way
  · unfold Spec.transfer at goes
    dsimp only at goes
    split at goes
    · next word =>
      obtain ⟨rfl, -⟩ := Prod.mk.inj (Option.some.inj goes)
      rw [← add_ofInt] at word other
      simp only [goesWrong, Bool.and_eq_true, decide_eq_true_eq]
      exact ⟨⟨word, aligned⟩, other⟩
    · cases goes

/-- A transfer that has gone wrong, before what its checker finds. -/
theorem goWrong_eq (goes : Spec.transfer i v = some (p, rd)) (wrong : WrongWay i v rd q) :
    ∃ x, Becomes v x (v.h.regSet v.lane rd (v.pc + 4)) ∧ goWrong i v q =
      let g := x.setH { x.h.running with checker := x.checkerNext.close, pc := q }
      match x.checkerNext with
      | .armed b _ _ false => takeTrapAt g (v.pc + 4) (Trap.of 0x160 (b + 1)) true
      | _ => g := by
  obtain ⟨a, b, off, branch, -⟩ | ⟨⟨a, imm, rfl⟩, -⟩ := wrong
  · obtain rfl : rd = 0 := by
      obtain rfl | rfl | rfl | rfl := branch <;> exact (Prod.mk.inj (Option.some.inj goes)).2.symm
    refine ⟨v, by rw [Hart.regSet_zero]; exact becomes_refl v, ?_⟩
    obtain rfl | rfl | rfl | rfl := branch <;> rfl
  · exact ⟨_, setX_becomes .., rfl⟩

/-- The turn of a hart whose transfer goes wrong (log 37). -/
theorem runUpset_of_goesWrong (quiet : asyncTurn s = none) (lanes : s.h.lanes = none) (fetched : fetch s = .ok (w, u)) (dec : decode w = .ok i)
    (core : s.onCore = true) (runs : s.fetches = true) (wrong : goesWrong i { u with word := w } q = true) :
    runUpset s q = .next (goWrong i { u with word := w } q) := by
  unfold runUpset
  simp only [quiet, lanes, fetched, instrOfWord_ok dec, core, runs, wrong, Bool.and_self, if_true]

theorem wrongTransfer : Claims.WrongTransfer := by
  intro s u w i p q rd hart lanes quiet run core firmware fetched dec v goes other wrong
  have only := memoryOnly_of_fetch fetched
  have vHart : v.lane = none := only.2.2.1.trans hart
  have vPc : v.pc = s.pc := by rw [pc_of_hart v vHart, pc_of_hart s hart, show v.h = s.h from only.h]
  have rom : s.inRom = false := by
    unfold State.inRom
    rw [decide_eq_false (by omega), Bool.false_and, Bool.false_and]
  have upset := runUpset_of_goesWrong quiet lanes fetched dec (decide_eq_true core) (fetches_of_run run firmware rom)
    (goesWrong_of_wrongWay goes other wrong)
  obtain ⟨x, put, gone⟩ := goWrong_eq goes wrong
  rw [← orFlags_zero v.h] at put
  have done := setPc_scalarDone put (c := v.checkerNext.close) (fun _ => rfl) (absurd vHart) q
  rw [put.lane, vHart, setPc_of_hart, vPc] at done
  rw [put.afterReg.1, vPc] at gone
  refine ⟨_, done, fun b e r armed => ⟨_, upset, ?_⟩, fun idle => ?_⟩
  · rw [gone, armed]
    exact signatureTrap_trapped ..
  · rw [upset, gone]
    cases ck : v.checkerNext with
    | idle => rfl
    | armed b e r ended =>
      cases ended
      · exact absurd ck (idle b e r)
      · rfl

end

/-- Settles O14: `bsig` by whether the checker runs and finds a difference, and a wrong transfer by the state it leaves before the checker's
comparison. -/
theorem blockSignatures : Obligations.BlockSignatures := ⟨blockSignature, laneSignature, wrongTransfer⟩

end Sys2Proof.Machine

/-! # Stores on their way (O7, O8, O10 to O12): what performing them leaves -/

namespace Sys2Proof.Machine

/-! ## The frame (R283, R391, R392) -/

section

variable {s t u : State}

/-- A property of states that performing any one of the selected stores keeps holds after all of them are performed. -/
theorem performWhere_ind {P : State → Prop} (s : State) (k : Nat) (f : PStore → Bool)
    (start : P (s.setCoreOf k { s.coreOf k with pstores := (s.coreOf k).pstores.filter fun p => !f p }))
    (step : ∀ u p, p ∈ (s.coreOf k).pstores → f p = true → P u → P (performStore u k p)) : P (performWhere s k f) := by
  unfold performWhere
  refine List.foldlRecOn _ _ start fun u hu p hp => ?_
  obtain ⟨mem, selected⟩ := List.mem_filter.mp hp
  exact step u p mem selected hu

/-- From `s` to `t` the cores, device memory, poison, host memory, the event ring and its vector, and the lines that the host holds may have
changed, and nothing else. -/
def StoreFrame (s t : State) : Prop :=
  t = { s with cores := t.cores, mem := t.mem, poison := t.poison, hostMem := t.hostMem
               hostif := { s.hostif with ring := t.hostif.ring, raised := t.hostif.raised, pba := t.hostif.pba, held := t.hostif.held } }

theorem StoreFrame.refl (s : State) : StoreFrame s s := rfl

theorem StoreFrame.trans (a : StoreFrame s u) (b : StoreFrame u t) : StoreFrame s t := by
  unfold StoreFrame at *
  rw [b, a]

theorem storeFrame_setCoreOf (s : State) (k : Nat) (c : Core) : StoreFrame s (s.setCoreOf k c) := rfl

/-- A write to the host changes host memory or the event ring and its vector (R391, R392). -/
theorem hostWrite_changes (s : State) (k h : Nat) (data : List Byte) :
    ∃ m r raised pba, hostWrite s k h data
      = { s with hostMem := m, hostif := { s.hostif with ring := r, raised := raised, pba := pba } } := by
  unfold hostWrite
  split
  · exact emit_frame ..
  · exact ⟨_, _, _, _, rfl⟩

theorem hostWrite_frame (s : State) (k h : Nat) (data : List Byte) : StoreFrame s (hostWrite s k h data) := by
  obtain ⟨_, _, _, _, e⟩ := hostWrite_changes s k h data
  rw [e]
  rfl

theorem performStore_frame (s : State) (k : Nat) (p : PStore) : StoreFrame s (performStore s k p) := by
  unfold performStore
  split
  · rfl
  · exact hostWrite_frame ..
  · rfl

theorem performWhere_frame (s : State) (k : Nat) (f : PStore → Bool) : StoreFrame s (performWhere s k f) :=
  performWhere_ind s k f (storeFrame_setCoreOf ..) fun _ p _ _ a => a.trans (performStore_frame _ k p)

end

/-! ## The stores that stay on their way -/

section

variable (s : State) (k : Nat) (f : PStore → Bool)

theorem emit_cores (type ctx queue a b c : Nat) : (s.emit type ctx queue a b c).cores = s.cores := by
  obtain ⟨_, _, _, _, e⟩ := emit_frame s type ctx queue a b c
  rw [e]

theorem hostWrite_cores (h : Nat) (data : List Byte) : (hostWrite s k h data).cores = s.cores := by
  obtain ⟨_, _, _, _, e⟩ := hostWrite_changes s k h data
  rw [e]

theorem devWrite_pstores (writer : Option Nat) (pa : Nat) (data : List Byte) (j : Nat) :
    ((devWrite s writer pa data).coreOf j).pstores = (s.coreOf j).pstores := by
  refine smGet_map_rel (R := fun c c' => c'.pstores = c.pstores) rfl (fun e => ?_) (fun e => ?_) j s.cores
  · split <;> rfl
  · split <;> rfl

theorem performStore_pstores (p : PStore) (j : Nat) : ((performStore s k p).coreOf j).pstores = (s.coreOf j).pstores := by
  unfold performStore
  split
  · exact devWrite_pstores ..
  · unfold State.coreOf
    rw [hostWrite_cores]
  · rfl

/-- The stores selected are performed and the others stay on their way, in order. -/
theorem performWhere_pstores : ((performWhere s k f).coreOf k).pstores = (s.coreOf k).pstores.filter fun p => !f p :=
  performWhere_ind s k f (congrArg Core.pstores (State.coreOf_setCoreOf_self ..)) fun u p _ _ same => (performStore_pstores u k p k).trans same

theorem flushAll_pstores : ((flushAll s k).coreOf k).pstores = [] := by
  unfold flushAll
  simp [performWhere_pstores]

end

/-! ## Instructions that complete after memories have changed -/

/-- From `s` to `t` no hart, no thread in execution and no word in execution has changed. -/
def SameThread (s t : State) : Prop := t.harts = s.harts ∧ t.cur = s.cur ∧ t.lane = s.lane ∧ t.word = s.word

section

variable {s t u w : State} {g : Hart} {rd : BitVec 5} {v p : Word} {f : BitVec 5} {ck : Checker}

theorem SameThread.refl (s : State) : SameThread s s := ⟨rfl, rfl, rfl, rfl⟩

theorem SameThread.trans (a : SameThread s u) (b : SameThread u t) : SameThread s t := by
  obtain ⟨uHarts, uCur, uLane, uWord⟩ := a
  obtain ⟨tHarts, tCur, tLane, tWord⟩ := b
  exact ⟨tHarts.trans uHarts, tCur.trans uCur, tLane.trans uLane, tWord.trans uWord⟩

theorem MemoryOnly.sameThread (a : MemoryOnly s u) : SameThread s u := by
  obtain ⟨harts, cur, lane, word, -⟩ := a
  exact ⟨harts, cur, lane, word⟩

theorem StoreFrame.sameThread (a : StoreFrame s u) (harts : u.harts = s.harts) : SameThread s u :=
  ⟨harts, (congrArg State.cur a :), (congrArg State.lane a :), (congrArg State.word a :)⟩

theorem SameThread.hartOf (a : SameThread s u) (k : Nat) : u.hartOf k = s.hartOf k := by
  unfold State.hartOf
  rw [a.1]

theorem SameThread.cur (a : SameThread s u) : u.cur = s.cur := a.2.1

theorem SameThread.lane (a : SameThread s u) : u.lane = s.lane := a.2.2.1

theorem SameThread.h (a : SameThread s u) : u.h = s.h := by
  unfold State.h
  rw [a.hartOf, a.cur]

theorem SameThread.agent (a : SameThread s u) : u.agent = s.agent := by
  unfold State.agent
  rw [a.cur]

theorem SameThread.pc (a : SameThread s u) : u.pc = s.pc := by
  unfold State.pc
  rw [a.lane, a.h]

theorem SameThread.x (a : SameThread s u) (r : BitVec 5) : u.x r = s.x r := by
  unfold State.x
  rw [a.lane, a.h]

theorem SameThread.checkerNext (a : SameThread s u) : u.checkerNext = s.checkerNext := by
  obtain ⟨-, -, -, word⟩ := id a
  unfold State.checkerNext State.checking State.onCore
  rw [a.h, a.agent, a.lane, word]

theorem SameThread.hartDone (a : SameThread s u) (done : HartDone u g rd v f p ck) : HartDone s g rd v f p ck := by
  unfold HartDone InLane at *
  rwa [a.h, a.lane] at done

theorem SameThread.others (a : SameThread s u) (b : Becomes u t g) {k : Nat} (other : k ≠ s.cur) : t.hartOf k = s.hartOf k :=
  (b.2.1 k (by rw [a.cur]; exact other)).trans (a.hartOf k)

theorem sameThread_setC (s : State) (c : Core) : SameThread s (s.setC c) := ⟨rfl, rfl, rfl, rfl⟩

/-- A result written to rd completes the instruction, whatever of the memories it has changed. -/
theorem writeRd_after (a : SameThread s u) (b : Becomes u w (u.h.orFlags f)) :
    ∃ t, writeRd rd v w = .next t ∧ Becomes u t t.h ∧ HartDone s t.h rd v f (s.pc + 4) s.checkerNext := by
  have put := b.trans (setX_becomes w rd v)
  rw [b.h, b.lane] at put
  obtain ⟨becomes, done⟩ := retire_scalarDone put
  rw [a.pc, a.checkerNext] at done
  exact ⟨_, rfl, becomes, a.hartDone done⟩

/-- An instruction that writes no register has completed, whatever of the memories it has changed. -/
theorem retire_after (a : SameThread s u) :
    Becomes u (retire u) (retire u).h ∧ HartDone s (retire u).h 0 0 0 (s.pc + 4) s.checkerNext := by
  have same : Becomes u u ((u.h.orFlags 0).regSet u.lane 0 0) := by
    rw [Hart.regSet_zero, orFlags_zero]
    exact becomes_refl u
  obtain ⟨becomes, done⟩ := retire_scalarDone same
  rw [a.pc, a.checkerNext] at done
  exact ⟨becomes, a.hartDone done⟩

/-- A trap taken after memories have changed is at the instruction's own address. -/
theorem raise_after (a : SameThread s u) (c : BitVec 9) (tval : Word) :
    ∃ t, raise u (Trap.of c tval) = .next t ∧ Trapped u t c tval s.pc 0 := by
  rw [← a.pc]
  exact raise_trapped u (Trap.of c tval)

theorem MemoryOnly.agent (a : MemoryOnly s u) : u.agent = s.agent := a.sameThread.agent

/-- The executing core is as before but for its caches and its stores on their way. -/
theorem MemoryOnly.c (a : MemoryOnly s u) : ∃ caches pstores, u.c = { s.c with caches := caches, pstores := pstores } := by
  unfold State.c
  rw [a.agent]
  exact a.coreOf s.agent

theorem flushAll_memoryOnly (s : State) (k : Nat) : MemoryOnly s (flushAll s k) := performWhere_memoryOnly (.refl s) ..

theorem flushDev_memoryOnly (s : State) (k : Nat) : MemoryOnly s (flushDev s k) := performWhere_memoryOnly (.refl s) ..

theorem hostSync_memoryOnly (s : State) (k : Nat) : MemoryOnly s (hostSync s k) := performWhere_memoryOnly (.refl s) ..

end

end Sys2Proof.Machine

/-! # Bytes and values, and scratchpad accesses (O12) -/

namespace Sys2Proof.Machine

/-! ## Little-endian values (R10) -/

section

variable {f g : Nat → Byte}

theorem leOf_succ (f : Nat → Byte) (a n : Nat) : Spec.leOf f a (n + 1) = (f a).toNat + 256 * Spec.leOf f (a + 1) n := by
  unfold Spec.leOf
  rw [List.range_succ_eq_map, List.map_cons, List.sum_cons, List.map_map, pow_zero, mul_one, ← List.sum_map_mul_left]
  refine congrArg (_ + List.sum ·) (List.map_congr_left fun i _ => ?_)
  rw [Function.comp_apply, Nat.succ_eq_add_one, pow_succ, add_assoc, Nat.add_comm 1]
  ring

theorem readLE_eq_leOf (m : Memory) (a n : Nat) : readLE m a n = Spec.leOf (readByte m) a n := by
  induction n generalizing a with
  | zero => rfl
  | succ n ih => rw [leOf_succ, ← ih, readLE]

theorem leOf_congr {a b n : Nat} (h : ∀ i, i < n → f (a + i) = g (b + i)) : Spec.leOf f a n = Spec.leOf g b n := by
  unfold Spec.leOf
  exact congrArg List.sum (List.map_congr_left fun i hi => by rw [h i (List.mem_range.mp hi)])

theorem leOf_lt (f : Nat → Byte) (a n : Nat) : Spec.leOf f a n < 256 ^ n := by
  induction n generalizing a with
  | zero => exact Nat.one_pos
  | succ n ih =>
    have low := (f a).isLt
    have high := ih (a + 1)
    rw [leOf_succ, pow_succ]
    omega

theorem getElem?_leBytes {n i : Nat} (v : Nat) (h : i < n) : (leBytes n v)[i]? = some (Spec.byteOf v i) := by
  induction n generalizing v i with
  | zero => omega
  | succ n ih =>
    cases i with
    | zero => simp [leBytes, Spec.byteOf]
    | succ i =>
      rw [leBytes, List.getElem?_cons_succ, ih _ (by omega), Spec.byteOf, Spec.byteOf, pow_succ', Nat.div_div_eq_div_mul]

theorem getD_leBytes {n i : Nat} (v : Nat) (h : i < n) : (leBytes n v).getD i 0 = Spec.byteOf v i := by
  rw [List.getD_eq_getElem?_getD, getElem?_leBytes v h]
  rfl

/-- The bytes of a memory after the low bytes of a value have been written. -/
theorem readByte_writeBytes_leBytes {m : Memory} (h : m.wf = true) (a n v b : Nat) :
    readByte (writeBytes m a (leBytes n v)) b = Spec.patched (readByte m) a n v b := by
  rw [readByte_writeBytes h, leBytes_length]
  unfold Spec.patched
  split
  · next inside => exact getD_leBytes v (by omega)
  · rfl

/-- A loaded value as its register holds it (R105, R106). -/
theorem extended_eq (sx : Bool) {n : Nat} (hn : 0 < n) (v : Nat) :
    (if sx then sextTo (8 * n) v else BitVec.ofNat 64 v) = Spec.extended sx n v := by
  unfold Spec.extended sextTo
  rw [signedOf_eq_bmod (by omega)]

end

/-! ## The checks of a scratchpad access (R109, R145) -/

section

variable {s u : State} {o : Word} {n v : Nat}

theorem spCheck_beyond (h : 0x40000 ≤ o.toNat) : spCheck s o n = .error (s, Trap.of 0x0E2 o) := if_pos h

theorem spCheck_misaligned (inside : o.toNat < 0x40000) (odd : o.toNat % n ≠ 0) : spCheck s o n = .error (s, Trap.of 0x0E0 o) := by
  unfold spCheck
  rw [if_neg (by omega), if_pos odd]

theorem spCheck_ok (inside : o.toNat < 0x40000) (aligned : o.toNat % n = 0) : spCheck s o n = .ok () := by
  unfold spCheck
  rw [if_neg (by omega), if_neg (not_not.mpr aligned)]

theorem spBadAt_eq_none {c : Core} {o : Nat} (good : ∀ x ∈ c.spBad, ¬ (o / 4 ≤ x ∧ x ≤ (o + n - 1) / 4)) : spBadAt c o n = none := by
  unfold spBadAt
  split
  · rfl
  · rw [List.find?_eq_none]
    intro x hx bad
    obtain ⟨i, hi, rfl⟩ := List.mem_map.mp hx
    have := List.mem_range.mp hi
    exact good _ (List.contains_iff_mem.mp bad) (by omega)

theorem spLoad_error {e : State × Trap} (h : spCheck s o n = .error e) : spLoad s o n = .error e := by
  unfold spLoad
  rw [h]

theorem spLoad_ok (inside : o.toNat < 0x40000) (aligned : o.toNat % n = 0)
    (good : ∀ x ∈ s.c.spBad, ¬ (o.toNat / 4 ≤ x ∧ x ≤ (o.toNat + n - 1) / 4)) :
    spLoad s o n = .ok (Spec.leOf (readByte s.c.sp) o.toNat n) := by
  unfold spLoad
  simp only [spCheck_ok inside aligned, spBadAt_eq_none good, readLE_eq_leOf]

theorem spStore_error {e : State × Trap} (h : spCheck s o n = .error e) : spStore s o n v = .error e := by
  unfold spStore
  rw [h]

theorem spStore_ok (inside : o.toNat < 0x40000) (aligned : o.toNat % n = 0)
    (good : n < 4 → ∀ x ∈ s.c.spBad, ¬ (o.toNat / 4 ≤ x ∧ x ≤ (o.toNat + n - 1) / 4)) :
    spStore s o n v = .ok (s.setC (s.c.spPut o.toNat (leBytes n v))) := by
  unfold spStore
  have correct : (if n < 4 then spBadAt s.c o.toNat n else none) = none := by
    split
    · next part => exact spBadAt_eq_none (good part)
    · rfl
  simp only [spCheck_ok inside aligned, correct]

end

/-! ## `lsp` and `ssp` (R106, R109) -/

section

variable {s u : State} {r a b : BitVec 5} {w : BitVec 3}

theorem lsp_eq : exec (.lsp r a b w) s = match spLoad s (s.x a + s.x b) (2 ^ (w.toNat / 2)) with
    | .error (s, t) => raise s t
    | .ok v => writeRd r (Spec.extended (decide (w.toNat % 2 = 0)) (2 ^ (w.toNat / 2)) v) s := by
  simp only [← extended_eq _ (Nat.two_pow_pos _)]
  rfl

theorem lsp_traps {c : BitVec 9} (h : spCheck s (s.x a + s.x b) (2 ^ (w.toNat / 2)) = .error (s, Trap.of c (s.x a + s.x b))) :
    Traps (.lsp r a b w) s c (s.x a + s.x b) := by
  unfold Traps
  rw [lsp_eq, spLoad_error h]
  exact raise_trapped s _

/-- The state in which `ssp` checks its offset: in strong mode after the core's earlier stores (R306). -/
def State.sspStart (s : State) : State := if s.h.trap.status.mmstrong then flushAll s s.agent else s

theorem sspStart_memoryOnly (s : State) : MemoryOnly s s.sspStart := by
  unfold State.sspStart
  split
  · exact flushAll_memoryOnly ..
  · exact .refl s

theorem ssp_eq : exec (.ssp r a b w) s = Res.out (spStore s.sspStart (s.x a + s.x b) (2 ^ (w.toNat / 2)) (s.x r).toNat) := rfl

theorem ssp_traps {c : BitVec 9}
    (h : spCheck s.sspStart (s.x a + s.x b) (2 ^ (w.toNat / 2)) = .error (s.sspStart, Trap.of c (s.x a + s.x b))) :
    ∃ t, exec (.ssp r a b w) s = .next t ∧ Trapped s.sspStart t c (s.x a + s.x b) s.pc 0 := by
  rw [ssp_eq, spStore_error h]
  exact raise_after (sspStart_memoryOnly s).sameThread ..

/-- A core whose scratchpad alone is written, and its hart completes. -/
theorem becomesOn_retire (u : State) (c : Core) : BecomesOn u (retire (u.setC c)) (retire (u.setC c)).h c :=
  ⟨rfl, (becomesOn_setC_setH u c _).2⟩

theorem ssp_stores (wf : s.c.sp.wf = true) (inside : (s.x a + s.x b).toNat < 0x40000) (aligned : (s.x a + s.x b).toNat % 2 ^ (w.toNat / 2) = 0)
    (good : 2 ^ (w.toNat / 2) < 4 → ∀ x ∈ s.c.spBad,
      ¬ ((s.x a + s.x b).toNat / 4 ≤ x ∧ x ≤ ((s.x a + s.x b).toNat + 2 ^ (w.toNat / 2) - 1) / 4)) :
    let o := (s.x a + s.x b).toNat
    let n := 2 ^ (w.toNat / 2)
    ∃ t c, exec (.ssp r a b w) s = .next t
      ∧ BecomesOn s.sspStart t t.h
          { s.sspStart.c with sp := c, spBad := s.c.spBad.filter fun x => !(decide (o ≤ 4 * x) && decide (4 * x + 4 ≤ o + n)) }
      ∧ HartDone s t.h 0 0 0 (s.pc + 4) s.checkerNext
      ∧ ∀ k, readByte c k = Spec.patched (readByte s.c.sp) o n (s.x r).toNat k := by
  intro o n
  have only := sspStart_memoryOnly s
  obtain ⟨caches, pstores, core⟩ := only.c
  have put : s.sspStart.c.spPut o (leBytes n (s.x r).toNat) = { s.sspStart.c with
      sp := writeBytes s.c.sp o (leBytes n (s.x r).toNat)
      spBad := s.c.spBad.filter fun x => !(decide (o ≤ 4 * x) && decide (4 * x + 4 ≤ o + n)) } := by
    unfold Core.spPut
    rw [core, leBytes_length]
  have answer : exec (.ssp r a b w) s = finish (s.sspStart.setC (s.sspStart.c.spPut o (leBytes n (s.x r).toNat))) := by
    rw [ssp_eq, spStore_ok inside aligned (by rw [core]; exact good)]
    rfl
  rw [put] at answer
  exact ⟨_, _, answer, becomesOn_retire .., (retire_after (only.sameThread.trans (sameThread_setC ..))).2, readByte_writeBytes_leBytes wf o n _⟩

end

theorem scratchpadLoad : Claims.ScratchpadLoad := by
  intro s rd a b w _ o n inside aligned good
  rw [lsp_eq, spLoad_ok inside aligned good]
  obtain ⟨t, answer, becomes, done⟩ := writeRd_after (rd := rd) (f := 0)
    (v := Spec.extended (decide (w.toNat % 2 = 0)) n (Spec.leOf (readByte s.c.sp) o n)) (.refl s) (becomes_orFlags_zero s)
  exact ⟨t, answer, becomes, done⟩

theorem scratchpadStore : Claims.ScratchpadStore := by
  intro s r a b w _ wf o n u inside aligned good
  obtain ⟨t, c, answer, becomes, done, bytes⟩ := ssp_stores (r := r) wf inside aligned good
  refine ⟨t, c, answer, becomes, done, fun strong => ?_, bytes⟩
  have flushed : u = flushAll s s.agent := if_pos strong
  unfold State.c
  rw [flushed, (flushAll_memoryOnly s s.agent).agent]
  exact flushAll_pstores s s.agent

theorem scratchpadAccess : Claims.ScratchpadAccess := by
  intro s r a b w one wf o n
  refine ⟨fun beyond => lsp_traps (spCheck_beyond beyond), fun inside odd => lsp_traps (spCheck_misaligned inside odd),
    ⟨fun beyond => ssp_traps (spCheck_beyond beyond), fun inside odd => ssp_traps (spCheck_misaligned inside odd)⟩,
    fun inside aligned good => scratchpadLoad s r a b w one inside aligned good, fun relaxed inside aligned good => ?_⟩
  have start : s.sspStart = s := if_neg (Bool.eq_false_iff.mp relaxed)
  have stored := ssp_stores (r := r) wf inside aligned good
  rw [start] at stored
  exact stored

/-- Settles O12: the checks of R109 in their order, then one read or one write of exactly the bytes. -/
theorem scratchpadAccesses : Obligations.ScratchpadAccesses := ⟨scratchpadLoad, scratchpadStore, scratchpadAccess⟩

end Sys2Proof.Machine

/-! # Fences and cache maintenance (O11) -/

namespace Sys2Proof.Machine

section

variable {s u : State} {r : BitVec 5} {l : Loc} {ea : Word}

/-! ## Releases (R114, R293, R300) -/

theorem release_eq_released (s : State) (sc : BitVec 3) : release s sc.toNat = Spec.released s sc := rfl

theorem released_memoryOnly (s : State) (sc : BitVec 3) : MemoryOnly s (Spec.released s sc) := by
  unfold Spec.released
  split
  · exact flushDev_memoryOnly ..
  · exact flushAll_memoryOnly ..

theorem order_releases (o : BitVec 2) : o.toNat / 2 = 1 ↔ 2 ≤ o.toNat := by omega

/-- What a release leaves on its way: nothing, or at a narrower scope than system the stores that do not go to device memory. -/
theorem released_pstores (s : State) (sc : BitVec 3) :
    ∀ q ∈ ((Spec.released s sc).coreOf s.agent).pstores, (∀ a, q.loc ≠ .dev a) ∧ sc.toNat ≤ 4 := by
  intro q hq
  unfold Spec.released at hq
  split at hq
  · next narrow =>
    unfold flushDev at hq
    rw [performWhere_pstores] at hq
    refine ⟨fun a dev => ?_, narrow⟩
    have stays := (List.mem_filter.mp hq).2
    rw [dev] at stays
    exact absurd stays Bool.false_ne_true
  · rw [flushAll_pstores] at hq
    exact absurd hq (List.not_mem_nil)

theorem fence_done (s : State) (sc : BitVec 3) (o : BitVec 2) : ∃ t, exec (.fence sc o) s = .next t
    ∧ ScalarDone (if 2 ≤ o.toNat then Spec.released s sc else s) t 0 0 0 (s.pc + 4) s.checkerNext := by
  have answer : exec (.fence sc o) s = finish (if 2 ≤ o.toNat then Spec.released s sc else s) := by
    rw [← release_eq_released]
    simp only [← order_releases]
    rfl
  have same : SameThread s (if 2 ≤ o.toNat then Spec.released s sc else s) := by
    split
    · exact (released_memoryOnly s sc).sameThread
    · exact .refl s
  rw [answer, ← same.pc, ← same.checkerNext]
  exact finish_scalarDone _

/-! ## Caches (R234, R235) -/

theorem flushAll_c_pstores (s : State) : (flushAll s s.agent).c.pstores = [] := by
  unfold State.c
  rw [(flushAll_memoryOnly s s.agent).agent]
  exact flushAll_pstores ..

/-- The instruction completes once every store of the core has been performed; the core's caches alone have changed since. -/
theorem finish_flushed (a : SameThread s u) (caches : Caches) :
    ∃ t, finish ((flushAll u u.agent).setC { (flushAll u u.agent).c with caches := caches }) = .next t
      ∧ HartDone s t.h 0 0 0 (s.pc + 4) s.checkerNext ∧ t.c.caches = caches ∧ t.c.pstores = [] ∧ t.mem = (flushAll u u.agent).mem := by
  have put : (retire ((flushAll u u.agent).setC { (flushAll u u.agent).c with caches := caches })).c
      = { (flushAll u u.agent).c with caches := caches } := State.c_setC (flushAll u u.agent) { (flushAll u u.agent).c with caches := caches }
  refine ⟨_, rfl, (retire_after ((a.trans (flushAll_memoryOnly ..).sameThread).trans (sameThread_setC ..))).2, ?_, ?_, rfl⟩
  · rw [put]
  · rw [put]
    exact flushAll_c_pstores u

theorem maintLine_ok (f : State → Loc → State) (h : maintPlace s ea = .ok (l, u)) : maintLine s ea f = finish (f (flushAll u u.agent) l) := by
  unfold maintLine
  rw [h]

theorem maintPlace_sameThread (h : maintPlace s ea = .ok (l, u)) : SameThread s u := by
  unfold maintPlace at h
  split at h
  · cases h
  · split at h
    · cases h
      exact .refl s
    · split at h
      · cases h
      · next translated =>
        cases h
        exact (translate_memoryOnly (.refl s) _ _ _ _ _ translated).sameThread

/-- A maintenance operation on a line that changes no byte: the stores of the core have been performed. -/
theorem maintLine_done (h : maintPlace s ea = .ok (l, u)) : ∃ t, maintLine s ea (fun s _ => s) = .next t
    ∧ HartDone s t.h 0 0 0 (s.pc + 4) s.checkerNext ∧ t.c.pstores = [] ∧ t.mem = (flushAll u u.agent).mem := by
  rw [maintLine_ok _ h]
  exact ⟨_, rfl, (retire_after ((maintPlace_sameThread h).trans (flushAll_memoryOnly ..).sameThread)).2, flushAll_c_pstores u, rfl⟩

/-- `cinv` drops the line of its address from the core's data cache (R235). -/
theorem cinv_done (h : maintPlace s (s.x r) = .ok (l, u)) : ∃ t, exec (.cinv r) s = .next t
    ∧ HartDone s t.h 0 0 0 (s.pc + 4) s.checkerNext ∧ t.c.pstores = []
    ∧ (∀ pa, l = .dev pa → lineOf pa ∉ t.c.caches.l1d) ∧ t.mem = (flushAll u u.agent).mem := by
  have answer : exec (.cinv r) s = finish (match l with
      | .dev pa => dropLines (flushAll u u.agent) fun k => decide (k = lineOf pa)
      | _ => flushAll u u.agent) := by
    refine Eq.trans (show exec (.cinv r) s = maintLine s (s.x r) fun s l => match l with
      | .dev pa => dropLines s fun k => decide (k = lineOf pa)
      | _ => s from rfl) ((maintLine_ok _ h).trans ?_)
    cases l <;> rfl
  rw [answer]
  cases l with
  | dev pa =>
    obtain ⟨t, done, hart, caches, pstores, mem⟩ := finish_flushed (maintPlace_sameThread h) { (flushAll u u.agent).c.caches with
      l1d := (flushAll u u.agent).c.caches.l1d.filter fun k => !decide (k = lineOf pa) }
    refine ⟨t, done, hart, pstores, fun pa' place => ?_, mem⟩
    obtain rfl := Loc.dev.inj place
    rw [caches]
    simp
  | host | own | ctl | hole =>
    obtain ⟨t, done, hart, pstores, mem⟩ := maintLine_done h
    rw [maintLine_ok _ h] at done
    exact ⟨t, done, hart, pstores, fun _ place => absurd place (by simp), mem⟩

end

theorem fences : Claims.Fences := by
  intro s sc o _
  refine ⟨fence_done s sc o, released_pstores s sc, fun _ => ?_⟩
  obtain ⟨t, answer, hart, caches, pstores, -⟩ := finish_flushed (.refl s) { (flushAll s s.agent).c.caches with l1i := [] }
  exact ⟨t, answer, hart, by rw [caches], pstores⟩

theorem cacheMaintenance : Claims.CacheMaintenance := by
  intro s r _
  refine ⟨?_, fun l u place => ⟨cinv_done place, fun level i line => ?_⟩, fun level i line => ?_⟩
  · obtain ⟨t, answer, hart, caches, pstores, -⟩ := finish_flushed (.refl s) { (flushAll s s.agent).c.caches with
      l1d := (flushAll s s.agent).c.caches.l1d.filter fun _ => !true }
    exact ⟨t, answer, hart, by rw [caches]; simp, pstores⟩
  · have answer : exec i s = maintLine s (s.x r) fun s _ => s := by
      obtain rfl | rfl := line <;> exact if_neg level
    rw [answer]
    exact maintLine_done place
  · have answer : exec i s = raise s (Trap.of 0x043 (s.word.setWidth 64)) := by
      obtain rfl | rfl := line <;> exact if_pos level
    unfold Traps
    rw [answer]
    exact raise_trapped s _

/-- Settles O11: a release performs the stores of its scope, and cache maintenance comes after all of them. -/
theorem fencesAndCaches : Obligations.FencesAndCaches := ⟨fences, cacheMaintenance⟩

end Sys2Proof.Machine

/-! # Loads, stores and atomics as their tables give them (O7 to O10) -/

namespace Sys2Proof.Machine

/-! ## The forms of scalar accesses (R105, R106, R111) -/

section

variable {s u w : State} {i : Instr} {rd a b : BitVec 5} {ea v : Word} {n acc : Nat} {sx : Bool} {sc : BitVec 3} {o : BitVec 2} {f : Spec.AtomForm}

theorem exec_of_loadForm (h : Spec.loadForm i s = some (rd, ea, n, sx)) : 0 < n ∧ exec i s = loadRd rd ea n sx s := by
  unfold Spec.loadForm at h
  split at h <;> cases h
  case h_5 => exact ⟨Nat.two_pow_pos _, rfl⟩
  all_goals exact ⟨by decide, rfl⟩

theorem strongRelease_eq_inMode (s : State) : strongRelease s = Spec.inMode s := rfl

theorem inMode_memoryOnly (s : State) : MemoryOnly s (Spec.inMode s) := by
  unfold Spec.inMode
  split
  · exact flushDev_memoryOnly ..
  · exact .refl s

theorem storeReg_eq (a : BitVec 5) (ea : Word) (n : Nat) (s : State) : storeReg a ea n s = store (Spec.inMode s) ea n (s.x a).toNat := by
  rw [← (inMode_memoryOnly s).sameThread.x]
  rfl

theorem sta_eq (a b : BitVec 5) (n : Nat) (sc : BitVec 3) (s : State) :
    storeReg b (s.x a) n (Spec.released s sc) = store (Spec.inMode (Spec.released s sc)) (s.x a) n (s.x b).toNat := by
  rw [storeReg_eq, (released_memoryOnly s sc).sameThread.x]

/-- A global store comes after its releases. -/
theorem exec_of_storeForm (h : Spec.storeForm i s = some (ea, n, v, w)) : MemoryOnly s w ∧ exec i s = store w ea n v.toNat := by
  have released := (released_memoryOnly s ·)
  unfold Spec.storeForm at h
  split at h <;> cases h
  case h_4 | h_5 => exact ⟨(released _).trans (inMode_memoryOnly _), sta_eq ..⟩
  all_goals exact ⟨inMode_memoryOnly s, storeReg_eq ..⟩

/-- The state after the release that comes before an atomic (R111, R306). -/
def atomStart (s : State) (sc : BitVec 3) (o : BitVec 2) : State := if 2 ≤ o.toNat then Spec.released s sc else Spec.inMode s

theorem atomStart_memoryOnly (s : State) (sc : BitVec 3) (o : BitVec 2) : MemoryOnly s (atomStart s sc o) := by
  unfold atomStart
  split
  · exact released_memoryOnly ..
  · exact inMode_memoryOnly s

theorem atomStart_eq (s : State) (sc : BitVec 3) (o : BitVec 2) :
    (if o.toNat / 2 = 1 then release s sc.toNat else strongRelease s) = atomStart s sc o := by
  simp only [order_releases]
  rfl

/-- The result of a read-modify-write goes to rd. -/
def rmwAnswer (rd : BitVec 5) (zext : Bool) (n : Nat) (r : Res (Nat × State)) : Out :=
  match r with
  | .error (s, t) => raise s t
  | .ok (c, s) => writeRd rd (if zext then BitVec.ofNat 64 c else Spec.extended true n c) s

theorem atomic_eq (n : Nat) (hn : 0 < n) (zext op : Bool) (g : Nat → Nat → Option Nat) (rd a b : BitVec 5) (sc : BitVec 3) (o : BitVec 2) (s : State) :
    atomic n zext op g rd a b sc o s
      = rmwAnswer rd zext n (rmw (atomStart s sc o) (s.x a) n op fun c => g c ((s.x b).toNat % 2 ^ (8 * n))) := by
  unfold atomic rmwAnswer
  dsimp only
  rw [atomStart_eq, (atomStart_memoryOnly s sc o).sameThread.x]
  simp only [← extended_eq true hn, if_true] <;> rfl

/-- A read-modify-write asks for the new value of values of its size alone. -/
theorem rmw_congr {op : Bool} {g g' : Nat → Option Nat} (h : ∀ c, c < 256 ^ n → g c = g' c) : rmw s ea n op g = rmw s ea n op g' := by
  unfold rmw
  simp only [h _ (readLE_lt _ _ _)]

theorem pickSigned_min (n c b : Nat) :
    pickSigned (8 * (n + 1)) false c b = if Spec.signedBytes (n + 1) b ≤ Spec.signedBytes (n + 1) c then b else c := by
  unfold pickSigned
  rw [signedOf_eq_bmod (by omega), signedOf_eq_bmod (by omega)]
  simp only [decide_eq_false_iff_not, not_lt]
  rfl

/-- A value of n bytes is told by its signed value. -/
theorem signedBytes_inj {n c b : Nat} (hc : c < 256 ^ n) (hb : b < 256 ^ n) (h : Spec.signedBytes n c = Spec.signedBytes n b) : c = b := by
  have size : (256 : Nat) ^ n = 2 ^ (8 * n) := (pow_mul 2 8 n).symm
  rw [size] at hc hb
  have same := congrArg (· % ((2 ^ (8 * n) : Nat) : Int)) h
  unfold Spec.signedBytes at same
  simp only [Int.bmod_emod] at same
  rw [← Int.natCast_emod, ← Int.natCast_emod, Nat.mod_eq_of_lt hc, Nat.mod_eq_of_lt hb] at same
  exact Int.natCast_inj.mp same

theorem pickSigned_max {n c b : Nat} (hc : c < 256 ^ (n + 1)) (hb : b < 256 ^ (n + 1)) :
    pickSigned (8 * (n + 1)) true c b = if Spec.signedBytes (n + 1) c ≤ Spec.signedBytes (n + 1) b then b else c := by
  unfold pickSigned
  rw [signedOf_eq_bmod (by omega), signedOf_eq_bmod (by omega)]
  change (if decide (Spec.signedBytes (n + 1) c < Spec.signedBytes (n + 1) b) = true then b else c) = _
  simp only [decide_eq_true_eq]
  rcases lt_trichotomy (Spec.signedBytes (n + 1) c) (Spec.signedBytes (n + 1) b) with less | same | more
  · rw [if_pos less, if_pos less.le]
  · rw [signedBytes_inj hc hb same, ite_self, ite_self]
  · rw [if_neg more.le.not_gt, if_neg more.not_ge]

theorem pickUnsigned_min (c b : Nat) : pickUnsigned false c b = min c b := by
  unfold pickUnsigned
  simp only [decide_eq_false_iff_not]
  split <;> omega

theorem pickUnsigned_max (c b : Nat) : pickUnsigned true c b = max c b := by
  unfold pickUnsigned
  simp only [decide_eq_true_eq]
  split <;> omega

/-- An atomic performs its release and then one read-modify-write, which asks for the new value of values of its size alone. -/
theorem atomic_performs (n : Nat) {g g' : Nat → Nat → Option Nat} (same : ∀ c b, c < 256 ^ (n + 1) → b < 256 ^ (n + 1) → g c b = g' c b)
    (zext op : Bool) (rd a b : BitVec 5) (sc : BitVec 3) (o : BitVec 2) (s : State) :
    MemoryOnly s (atomStart s sc o) ∧ atomic (n + 1) zext op g rd a b sc o s
      = rmwAnswer rd zext (n + 1) (rmw (atomStart s sc o) (s.x a) (n + 1) op fun c => g' c ((s.x b).toNat % 2 ^ (8 * (n + 1)))) := by
  have low : (s.x b).toNat % 2 ^ (8 * (n + 1)) < 256 ^ (n + 1) := by
    rw [show (256 : Nat) ^ (n + 1) = 2 ^ (8 * (n + 1)) from (pow_mul 2 8 _).symm]
    exact Nat.mod_lt _ (Nat.two_pow_pos _)
  rw [atomic_eq _ (Nat.succ_pos n), rmw_congr fun c hc => same c _ hc low]
  exact ⟨atomStart_memoryOnly .., rfl⟩

theorem atomic_performs_self (n : Nat) (g : Nat → Nat → Option Nat) (zext op : Bool) (rd a b : BitVec 5) (sc : BitVec 3) (o : BitVec 2) (s : State) :
    MemoryOnly s (atomStart s sc o) ∧ atomic (n + 1) zext op g rd a b sc o s
      = rmwAnswer rd zext (n + 1) (rmw (atomStart s sc o) (s.x a) (n + 1) op fun c => g c ((s.x b).toNat % 2 ^ (8 * (n + 1)))) :=
  atomic_performs n (fun _ _ _ _ => rfl) ..

/-- An atomic is one read-modify-write after its release, whose old value goes to rd (R111, R112). -/
theorem exec_of_atomForm (h : Spec.atomForm i s = some f) :
    MemoryOnly s f.start ∧ exec i s = rmwAnswer f.rd f.zext f.size (rmw f.start f.ea f.size f.hostOp f.new) := by
  have min (n c b : Nat) (_ : c < 256 ^ (n + 1)) (_ : b < 256 ^ (n + 1)) := congrArg some (pickSigned_min n c b)
  have max (n c b : Nat) (hc : c < 256 ^ (n + 1)) (hb : b < 256 ^ (n + 1)) := congrArg some (pickSigned_max hc hb)
  have minz (n c b : Nat) (_ : c < 256 ^ (n + 1)) (_ : b < 256 ^ (n + 1)) := congrArg some (pickUnsigned_min c b)
  have maxz (n c b : Nat) (_ : c < 256 ^ (n + 1)) (_ : b < 256 ^ (n + 1)) := congrArg some (pickUnsigned_max c b)
  unfold Spec.atomForm at h
  dsimp only at h
  split at h <;> cases h
  case h_1 | h_10 => exact atomic_performs_self 7 _ ..
  case h_2 => exact atomic_performs_self 7 (fun c b => some ((c + b) % 2 ^ 64)) ..
  case h_3 => exact atomic_performs_self 7 (fun c b => some (c &&& b)) ..
  case h_4 => exact atomic_performs_self 7 (fun c b => some (c ||| b)) ..
  case h_5 => exact atomic_performs_self 7 (fun c b => some (c ^^^ b)) ..
  case h_6 => exact atomic_performs 7 (min 7) ..
  case h_7 => exact atomic_performs 7 (max 7) ..
  case h_8 => exact atomic_performs 7 (minz 7) ..
  case h_9 => exact atomic_performs 7 (maxz 7) ..
  case h_11 | h_20 => exact atomic_performs_self 3 _ ..
  case h_12 => exact atomic_performs_self 3 (fun c b => some ((c + b) % 2 ^ 32)) ..
  case h_13 => exact atomic_performs_self 3 (fun c b => some (c &&& b)) ..
  case h_14 => exact atomic_performs_self 3 (fun c b => some (c ||| b)) ..
  case h_15 => exact atomic_performs_self 3 (fun c b => some (c ^^^ b)) ..
  case h_16 => exact atomic_performs 3 (min 3) ..
  case h_17 => exact atomic_performs 3 (max 3) ..
  case h_18 => exact atomic_performs 3 (minz 3) ..
  case h_19 => exact atomic_performs 3 (maxz 3) ..

end

end Sys2Proof.Machine

/-! # Access faults (O9) -/

namespace Sys2Proof.Machine

/-! ## Scalar accesses (R107) -/

section

variable {s u w : State} {i : Instr} {ea : Word} {n acc : Nat} {c : BitVec 9}

theorem canonical_iff (ea : Word) : canonical ea = true ↔ ea.toNat / 2 ^ 55 = 0 ∨ ea.toNat / 2 ^ 55 = 511 := by
  have high : bitsOf ea.toNat 55 9 = ea.toNat / 2 ^ 55 := Nat.mod_eq_of_lt (by omega)
  unfold canonical
  rw [high, Bool.or_eq_true, decide_eq_true_iff, decide_eq_true_iff]

theorem place_noncanonical (h : canonical ea = false) : place w ea n acc = .error (w, Trap.of 0x0E1 ea) := if_pos h

theorem place_misaligned (h : canonical ea = true) (mis : ea.toNat % n ≠ 0) : place w ea n acc = .error (w, Trap.of 0x0E0 ea) := by
  unfold place
  rw [if_neg (by simp [h]), if_pos mis]

/-- The instruction makes one access of n bytes at ea, of the class that `place` takes, in the state w after the releases before it. -/
def AccessesAt (i : Instr) (s w : State) (ea : Word) (n acc : Nat) : Prop :=
  (acc = 0 ∧ ∃ rd sx, Spec.loadForm i s = some (rd, ea, n, sx) ∧ w = s)
    ∨ (acc = 1 ∧ ∃ v, Spec.storeForm i s = some (ea, n, v, w))
    ∨ (acc = 3 ∧ ∃ f, Spec.atomForm i s = some f ∧ f.ea = ea ∧ f.size = n ∧ f.start = w)

theorem AccessesAt.memoryOnly (a : AccessesAt i s w ea n acc) : MemoryOnly s w := by
  rcases a with ⟨-, rd, sx, form, rfl⟩ | ⟨-, v, form⟩ | ⟨-, f, form, -, -, rfl⟩
  · exact .refl w
  · exact (exec_of_storeForm form).1
  · exact (exec_of_atomForm form).1

/-- An access whose place is refused traps with the refusal's cause and address. -/
theorem access_traps (a : AccessesAt i s w ea n acc) (refused : place w ea n acc = .error (w, Trap.of c ea)) :
    ∃ t, exec i s = .next t ∧ Trapped w t c ea s.pc 0 := by
  rcases a with ⟨rfl, rd, sx, form, rfl⟩ | ⟨rfl, v, form⟩ | ⟨rfl, f, form, rfl, rfl, rfl⟩
  · rw [(exec_of_loadForm form).2]
    unfold loadRd load
    rw [refused]
    exact raise_after (.refl w) c ea
  · obtain ⟨before, e⟩ := exec_of_storeForm form
    rw [e]
    unfold store
    rw [refused]
    exact raise_after before.sameThread c ea
  · obtain ⟨before, e⟩ := exec_of_atomForm form
    rw [e]
    unfold rmw rmwAnswer
    rw [refused]
    exact raise_after before.sameThread c f.ea

theorem scalarAccessFault : Claims.AccessFault := by
  intro i s w ea n _ form
  obtain ⟨acc, a⟩ : ∃ acc, AccessesAt i s w ea n acc := by
    rcases form with load | store | atom
    · exact ⟨0, .inl ⟨rfl, load⟩⟩
    · exact ⟨1, .inr (.inl ⟨rfl, store⟩)⟩
    · exact ⟨3, .inr (.inr ⟨rfl, atom⟩)⟩
  refine ⟨fun outside => access_traps a (place_noncanonical ?_), fun inside mis => access_traps a (place_misaligned ?_ mis)⟩
  · rw [← Bool.not_eq_true, canonical_iff]
    exact fun e => e.elim outside.1 outside.2
  · exact (canonical_iff ea).mpr inside

end

/-! ## Vector accesses (R155) -/

section

variable {s : State} {i : Instr} {o : Out} {f : Spec.VecAccess} {t : Trap} {l : List (Option Trap)}

theorem firstTrap_if {p : Prop} [Decidable p] : firstTrap ((if p then some t else none) :: l) = if p then some t else firstTrap l := by
  split <;> rfl

theorem firstTrap_unless {p : Prop} [Decidable p] : firstTrap ((if p then none else some t) :: l) = if p then firstTrap l else some t := by
  split <;> rfl

/-- The check of an element is its access fault, as a trap. -/
theorem check_eq (a : VAcc) (s : State) (j i : Nat) :
    a.check s (fun _ _ => 0) j i = (Spec.accessFault s a j i).map fun e => Trap.of e.1 e.2 := by
  have late : need (decide ((0 : Nat) < 8192)) (BitVec.ofNat 64 0) = none := rfl
  unfold VAcc.check Spec.accessFault
  dsimp only
  rw [late]
  by_cases zero : a.token = 0
  · simp only [if_pos zero, firstTrap_if, firstTrap_unless, ite_not, apply_ite (Option.map fun e : BitVec 9 × Word => Trap.of e.1 e.2)]
    rfl
  · unfold State.pin
    simp only [if_neg zero]
    cases s.h.pins.get a.token.toFin with
    | none => rfl
    | some p =>
      have inside (e : Int) : ((p.base.toNat : Int) ≤ e ∧ e + a.w ≤ p.base.toNat + p.len)
          ↔ ¬ (e < p.base.toNat ∨ ((p.base.toNat + p.len : Nat) : Int) < e + a.w) := by omega
      have outside (v : Word) : canonical v = true ↔ ¬ (v.toNat / 2 ^ 55 ≠ 0 ∧ v.toNat / 2 ^ 55 ≠ 511) := by
        rw [canonical_iff]
        omega
      simp only [firstTrap_if, firstTrap_unless, inside, outside, ite_not, ← Bool.not_eq_true,
        apply_ite (Option.map fun e : BitVec 9 × Word => Trap.of e.1 e.2)]
      rfl

/-- The checks of an access are the first access fault in element order. -/
theorem checks_eq (a : VAcc) (s : State) (ps : List (Nat × Nat)) :
    a.checks s (fun _ _ => 0) ps = (ps.findSome? fun p => Spec.accessFault s a p.1 p.2).map fun e => Trap.of e.1 e.2 := by
  unfold VAcc.checks
  simp only [check_eq]
  exact (List.map_findSome? ..).symm

/-- A vector memory instruction: operand checks that pass where the form is legal, its claim, and the trap of its access checks before anything
is accessed. -/
def ChecksFirst (o : Out) (s : State) (f : Spec.VecAccess) : Prop :=
  ∃ claim check eff, o = vecMem s claim check eff ∧ claim = f.claim ∧ (f.legal = true → check = none)
    ∧ ∀ t, f.acc.checks s (fun _ _ => 0) f.at_ = some t → eff s = .error (s, t)

/-- R155: the first access fault, in element order, is the trap of the instruction. -/
theorem ChecksFirst.traps {c : BitVec 9} {tval : Word} (h : ChecksFirst o s f) (legal : f.legal = true) (joins : Spec.Joins s f.claim)
    (fault : f.at_.findSome? (fun p => Spec.accessFault s f.acc p.1 p.2) = some (c, tval)) : ∃ t, o = .next t ∧ Trapped s t c tval s.pc 0 := by
  obtain ⟨claim, check, eff, e, rfl, pass, first⟩ := h
  have stops := first (Trap.of c tval) (by rw [checks_eq, fault]; rfl)
  have raises : o = raise s (Trap.of c tval) := by
    rw [e]
    unfold vecMem
    simp only [pass legal, joinConvoy_of_joins joins, stops]
  rw [raises]
  exact raise_trapped s (Trap.of c tval)

theorem portOf_eq (token : BitVec 3) : portOf token = Spec.port token := rfl

theorem formRegs_eq (v : VForm) : v.regs s = Spec.indexRegs s v := by
  cases v <;> rfl

theorem checkMemWidth_eq_none (w : Nat) : checkMemWidth s w = none ↔ 8 * w = Spec.sewOf s := need_decide

theorem formCheck_of_indexOk {v : VForm} {vd : Option (BitVec 5)} (h : Spec.indexOk s v vd = true) : v.check s = none := by
  cases v with
  | indexed vi =>
    unfold Spec.indexOk at h
    rw [Bool.and_eq_true, decide_eq_true_iff] at h
    exact (checkGroup_eq_none vi).mpr h.1
  | unit | strided => rfl

theorem formApart_of_indexOk {v : VForm} {vd : BitVec 5} (h : Spec.indexOk s v (some vd) = true) : v.apart s vd = none := by
  cases v with
  | indexed vi =>
    unfold Spec.indexOk at h
    rw [Bool.and_eq_true] at h
    obtain ⟨-, apart⟩ := h
    rw [Option.all_some, Bool.not_eq_true', decide_eq_false_iff_not, ← groupsMeet_eq_false] at apart
    exact need_eq_none.mpr (by rw [apart]; rfl)
  | unit | strided => rfl

theorem active_positions (mask : BitVec 3) : active s mask = Spec.positions s (Spec.activeAt s mask) := active_eq mask

theorem reached_positions (bound : Bool) : reached s bound = Spec.positions s (Spec.inSweep s bound) := reached_eq bound

/-- A load whose access checks fail traps before it reads anything. -/
theorem checks_of_fault {a : VAcc} {ps : List (Nat × Nat)} {e : Res State} (h : a.checks s (fun _ _ => 0) ps = some t) :
    (match a.checks s (fun _ _ => 0) ps with | some t => (.error (s, t) : Res State) | none => e) = .error (s, t) := by
  rw [h]

theorem vecLoad_checksFirst (v : VForm) (vd base : BitVec 5) (token : BitVec 3) (col conv : Bool) (mask : BitVec 3) (width : BitVec 2) :
    ChecksFirst (vecLoad { form := v, base := s.x base, token := token, col := col, w := accBytes width, perm := 0 } vd conv mask
      (fun s => active s mask) s) s (Spec.formLoad s v vd base token col conv mask width) := by
  refine ⟨_, _, _, by unfold vecLoad; rfl, ?_, fun legal => ?_, fun t faults => ?_⟩
  · rw [formRegs_eq]
    rfl
  · unfold Spec.formLoad at legal
    simp only [Bool.and_eq_true, decide_eq_true_iff] at legal
    obtain ⟨⟨start, group, width⟩, index⟩ := legal
    simp only [firstTrap_cons, checkStart_eq_none, checkGroup_eq_none]
    exact ⟨start, group, formCheck_of_indexOk index, (checkMemWidth_eq_none _).mpr width, formApart_of_indexOk index, rfl⟩
  · change VAcc.checks _ s _ (Spec.positions s (Spec.activeAt s mask)) = some t at faults
    rw [← active_positions] at faults
    exact checks_of_fault faults

theorem storeEff_of_fault {a : VAcc} {vs : BitVec 5} {multi unord : Bool} {ps : List (Nat × Nat)}
    (h : a.checks s (fun _ _ => 0) ps = some t) : storeEff a vs multi unord ps s = .error (s, t) := by
  unfold storeEff
  rw [h]

theorem atomEff_of_fault {a : VAcc} {vs : BitVec 5} {op : AtomOp} {dup : Bool} {ps : List (Nat × Nat)}
    (h : a.checks s (fun _ _ => 0) ps = some t) : atomEff a vs op dup ps s = .error (s, t) := by
  unfold atomEff
  rw [h]

theorem vecStore_checksFirst (v : VForm) (vs base : BitVec 5) (token : BitVec 3) (col conv : Bool) (mask : BitVec 3) (width : BitVec 2)
    (unord multi : Bool) :
    ChecksFirst (vecStore { form := v, base := s.x base, token := token, col := col, w := accBytes width, perm := 1 } vs multi conv unord mask s) s
      (Spec.formStore s v vs base token col conv mask width unord multi) := by
  refine ⟨_, _, _, by unfold vecStore; rfl, ?_, fun legal => ?_, fun t faults => ?_⟩
  · rw [formRegs_eq]
    rfl
  · unfold Spec.formStore at legal
    simp only [Bool.and_eq_true, decide_eq_true_iff] at legal
    obtain ⟨⟨start, group, width⟩, index⟩ := legal
    simp only [firstTrap_cons, checkStart_eq_none, checkGroup_eq_none]
    exact ⟨start, group, formCheck_of_indexOk index, (checkMemWidth_eq_none _).mpr width, rfl⟩
  · rw [active_positions]
    exact storeEff_of_fault faults

theorem spillFrame_checksFirst (v base : BitVec 5) (token : BitVec 3) (conv : Bool) :
    ChecksFirst (spillFrame v base token conv false s) s (Spec.formFrame s true v base token conv) := by
  refine ⟨_, _, _, by unfold spillFrame; rfl, rfl, fun legal => ?_, fun t faults => ?_⟩
  · unfold Spec.formFrame at legal
    rw [decide_eq_true_iff] at legal
    simp only [firstTrap_cons, checkStart_eq_none, checkGroup_eq_none]
    exact ⟨legal.1, legal.2, rfl⟩
  · change (frameAcc s base token 1).checks s _ (Spec.positions s (Spec.inSweep s false)) = some t at faults
    rw [← reached_positions] at faults
    exact storeEff_of_fault faults

theorem fillFrame_checksFirst (v base : BitVec 5) (token : BitVec 3) (conv : Bool) :
    ChecksFirst (fillFrame v base token conv false s) s (Spec.formFrame s false v base token conv) := by
  refine ⟨_, _, _, by unfold fillFrame; rfl, rfl, fun legal => ?_, fun t faults => ?_⟩
  · unfold Spec.formFrame at legal
    rw [decide_eq_true_iff] at legal
    simp only [firstTrap_cons, checkStart_eq_none, checkGroup_eq_none]
    exact ⟨legal.1, legal.2, rfl⟩
  · change (frameAcc s base token 0).checks s _ (Spec.positions s (Spec.inSweep s false)) = some t at faults
    rw [← reached_positions] at faults
    exact checks_of_fault faults

/-- The access of a scatter-add atomic (R162). -/
def scatterForm (s : State) (w : Nat) (vs base idx : BitVec 5) (token : BitVec 3) (conv : Bool) (mask : BitVec 3) : Spec.VecAccess :=
  { acc := { form := .indexed idx, base := s.x base, token := token, col := false, w := w, perm := 2 }, reg := vs
    legal := decide (Spec.StartOk s ∧ Spec.Group s vs ∧ Spec.Group s idx ∧ 8 * w = Spec.sewOf s)
    claim := { conv := conv, units := 4, cross := false, rv := Spec.regs s vs ++ Spec.regs s idx, rm := [mask.toNat], wv := [], wm := [] }
    unord := false, multi := false, at_ := Spec.positions s (Spec.activeAt s mask), val := fun j e => Spec.el s vs (8 * w) j e }

theorem vecAtomic_checksFirst (op : State → AtomOp) (size : Nat) (dup : Bool) (vs base idx : BitVec 5) (token : BitVec 3) (conv : Bool)
    (mask : BitVec 3) : ChecksFirst (vecAtomic op size dup vs base idx token conv mask s) s (scatterForm s size vs base idx token conv mask) := by
  refine ⟨_, _, _, by unfold vecAtomic; rfl, rfl, fun legal => ?_, fun t faults => ?_⟩
  · unfold scatterForm at legal
    rw [decide_eq_true_iff] at legal
    obtain ⟨start, group, index, width⟩ := legal
    simp only [firstTrap_cons, checkStart_eq_none, checkGroup_eq_none]
    exact ⟨start, group, index, (checkMemWidth_eq_none _).mpr width, rfl⟩
  · rw [active_positions]
    exact atomEff_of_fault faults

theorem checksFirst_of_vecLoadForm (h : Spec.vecLoadForm i s = some f) : ChecksFirst (exec i s) s f := by
  unfold Spec.vecLoadForm at h
  split at h
  · cases h
    exact vecLoad_checksFirst ..
  · cases h
    exact vecLoad_checksFirst ..
  case h_3 vd base kind token conv =>
    rw [Option.ite_none_right_eq_some] at h
    obtain ⟨zero, h⟩ := h
    cases h
    have frame : exec (.vfill vd base kind token conv) s = fillFrame vd base token conv false s := if_pos zero
    rw [frame]
    exact fillFrame_checksFirst ..
  · cases h

theorem checksFirst_of_vecStoreForm (h : Spec.vecStoreForm i s = some f) (frame : ∀ v b k n c, i = .vspill v b k n c → k = 0) :
    ChecksFirst (exec i s) s f := by
  unfold Spec.vecStoreForm at h
  split at h
  case h_5 v base kind token conv =>
    have zero := frame _ _ _ _ _ rfl
    rw [if_pos zero] at h
    cases h
    have frame : exec (.vspill v base kind token conv) s = spillFrame v base token conv false s := if_pos zero
    rw [frame]
    exact spillFrame_checksFirst ..
  case h_6 => cases h
  all_goals
    cases h
    exact vecStore_checksFirst ..

theorem checksFirst_of_atomAccess {dup : Bool} (h : Spec.atomAccess i s = some (f, dup)) : ChecksFirst (exec i s) s f := by
  unfold Spec.atomAccess at h
  dsimp only at h
  split at h <;> cases h
  case h_6 | h_13 => exact vecAtomic_checksFirst (fun s => packOp s .f16 _) ..
  case h_7 | h_14 => exact vecAtomic_checksFirst (fun s => packOp s .bf16 _) ..
  all_goals exact vecAtomic_checksFirst ..

theorem vectorAccessFault : Claims.VectorAccessFault := by
  intro i s f c tval _ _ form legal joins fault
  have first : ChecksFirst (exec i s) s f := by
    rcases form with load | ⟨store, frame⟩ | ⟨dup, atom⟩
    · exact checksFirst_of_vecLoadForm load
    · exact checksFirst_of_vecStoreForm store frame
    · exact checksFirst_of_atomAccess atom
  exact first.traps legal joins fault

end

/-- Settles O9: an access whose place is refused traps with the refusal, and a vector access checks every element before it accesses one. -/
theorem accessFaults : Obligations.AccessFaults := ⟨scalarAccessFault, vectorAccessFault⟩

end Sys2Proof.Machine

/-! # What a core sees of memory while stores are on their way (O7, O8, O10) -/

namespace Sys2Proof.Machine

/-! ## Bytes of stores on their way (R283, R287, R295) -/

section

variable {ps : List PStore} {q : PStore} {loc : Loc} {b : Byte} {f : PStore → Bool} {a n : Nat}

theorem coreByte_cons : coreByte (q :: ps) loc b = coreByte ps loc ((q.byteAt loc).getD b) := rfl

theorem coreByte_append : coreByte (ps ++ [q]) loc b = (q.byteAt loc).getD (coreByte ps loc b) := by
  unfold coreByte
  rw [List.foldl_append]
  rfl

/-- Stores that do not write a byte may be left out. -/
theorem coreByte_filter (h : ∀ q ∈ ps, f q = false → q.byteAt loc = none) : coreByte (ps.filter f) loc b = coreByte ps loc b := by
  induction ps generalizing b with
  | nil => rfl
  | cons q rest ih =>
    have tail (c : Byte) : coreByte (rest.filter f) loc c = coreByte rest loc c := ih fun p hp => h p (List.mem_cons_of_mem _ hp)
    rw [coreByte_cons, List.filter_cons]
    split
    · rw [coreByte_cons, tail]
    · next out => rw [h q List.mem_cons_self (Bool.not_eq_true _ ▸ out), Option.getD_none, tail]

theorem coreByte_eq_home (h : ∀ q ∈ ps, q.byteAt loc = none) : coreByte ps loc b = b := by
  rw [← coreByte_filter (f := fun _ => false) fun q hq _ => h q hq, List.filter_false]
  rfl

theorem devValue_eq_leOf (m : Memory) (ps : List PStore) (a n : Nat) :
    devValue m ps a n = Spec.leOf (fun x => coreByte ps (.dev x) (readByte m x)) a n := by
  induction n generalizing a with
  | zero => rfl
  | succ n ih => rw [leOf_succ, ← ih, devValue]

theorem byteAt_of_dev {c : Nat} (h : q.loc = .dev c) : q.byteAt (.dev a) = if c ≤ a then q.data[a - c]? else none := by
  unfold PStore.byteAt
  rw [h]

theorem byteAt_of_not_dev (h : q.loc.isDev = false) : q.byteAt (.dev a) = none := by
  unfold PStore.byteAt
  split
  · next e e' => rw [e] at h; cases h
  · next e e' => cases e'
  · rfl

/-- A store that writes a byte of device memory has it among its own. -/
theorem byteAt_eq_none (h : ∀ c, q.loc = .dev c → ¬ (c ≤ a ∧ a < c + q.data.length)) : q.byteAt (.dev a) = none := by
  cases e : q.loc with
  | dev c =>
    rw [byteAt_of_dev e]
    have out := h c e
    split
    · exact List.getElem?_eq_none (by omega)
    · rfl
  | host | own | ctl | hole => exact byteAt_of_not_dev (by rw [e]; rfl)

theorem isDev_of_overlaps (h : q.overlaps a n = true) : q.loc.isDev = true := by
  unfold PStore.overlaps at h
  cases e : q.loc with
  | dev => rfl
  | host | own | ctl | hole => rw [e] at h; cases h

theorem overlaps_of_dev {c : Nat} (h : q.loc = .dev c) : q.overlaps a n = true ↔ c < a + n ∧ a < c + q.data.length := by
  unfold PStore.overlaps
  rw [h, Bool.and_eq_true, decide_eq_true_iff, decide_eq_true_iff]

end

/-! ## Performing stores to device memory -/

section

variable {s t u : State} {k : Nat} {f : PStore → Bool} {a pa n : Nat}

theorem performStore_byte (wf : s.mem.wf = true) (k : Nat) (p : PStore) (a : Nat) :
    (performStore s k p).mem.wf = true ∧ readByte (performStore s k p).mem a = (p.byteAt (.dev a)).getD (readByte s.mem a) := by
  unfold performStore
  split
  · next c e =>
    refine ⟨wf_writeBytes wf .., ?_⟩
    rw [devWrite_mem, readByte_writeBytes wf, byteAt_of_dev e]
    by_cases above : c ≤ a
    · rw [if_pos above, List.getD_eq_getElem?_getD]
      split
      · next inside =>
        rw [List.getElem?_eq_getElem (by omega)]
        rfl
      · next out =>
        rw [List.getElem?_eq_none (by omega)]
        rfl
    · rw [if_neg above, if_neg fun e => above e.1]
      rfl
  · next c e =>
    obtain ⟨_, _, _, _, e'⟩ := hostWrite_changes s k c p.data
    rw [e', byteAt_of_not_dev (by rw [e]; rfl)]
    exact ⟨wf, rfl⟩
  · next dev host =>
    rw [byteAt_eq_none fun c e => (dev c e).elim]
    exact ⟨wf, rfl⟩

theorem performAll_byte (l : List PStore) (wf : s.mem.wf = true) (k a : Nat) :
    (l.foldl (fun s p => performStore s k p) s).mem.wf = true
      ∧ readByte (l.foldl (fun s p => performStore s k p) s).mem a = coreByte l (.dev a) (readByte s.mem a) := by
  induction l generalizing s with
  | nil => exact ⟨wf, rfl⟩
  | cons p rest ih =>
    obtain ⟨wf', byte⟩ := performStore_byte wf k p a
    rw [List.foldl_cons, coreByte_cons, ← byte]
    exact ih wf'

/-- The stores selected are in memory, the newest last. -/
theorem performWhere_byte (wf : s.mem.wf = true) (k : Nat) (f : PStore → Bool) (a : Nat) :
    (performWhere s k f).mem.wf = true
      ∧ readByte (performWhere s k f).mem a = coreByte ((s.coreOf k).pstores.filter f) (.dev a) (readByte s.mem a) :=
  performAll_byte _ (s := s.setCoreOf k { s.coreOf k with pstores := (s.coreOf k).pstores.filter fun p => !f p }) wf k a

/-- Performing stores changes no byte that the core sees where those that write the byte are performed together, or none of them is. -/
theorem sees_performWhere (wf : s.mem.wf = true)
    (h : (∀ q ∈ (s.coreOf k).pstores, f q = true → q.byteAt (.dev a) = none)
      ∨ (∀ q ∈ (s.coreOf k).pstores, f q = false → q.byteAt (.dev a) = none)) :
    Spec.sees (performWhere s k f) k a = Spec.sees s k a := by
  unfold Spec.sees
  rw [performWhere_pstores, (performWhere_byte wf k f a).2]
  rcases h with out | out
  · rw [coreByte_eq_home (ps := (s.coreOf k).pstores.filter f) fun q hq => out q (List.mem_of_mem_filter hq) (List.mem_filter.mp hq).2]
    exact coreByte_filter fun q hq e => out q hq (by simpa using e)
  · rw [coreByte_filter out]
    refine coreByte_eq_home fun q hq => ?_
    obtain ⟨mem, kept⟩ := List.mem_filter.mp hq
    exact out q mem (by simpa using kept)

/-- The stores selected by `bypass` and `fillLine`: those to m + 1 lines from line L. -/
abbrev onLines (L m : Nat) (p : PStore) : Bool := p.overlaps (128 * L) (128 * m + 128)

theorem byteAt_of_not_onLines {q : PStore} {L m : Nat} (h : onLines L m q = false) (low : 128 * L ≤ a) (high : a < 128 * L + 128 * m + 128) :
    q.byteAt (.dev a) = none := by
  refine byteAt_eq_none fun c e inside => ?_
  rw [← Bool.not_eq_true, overlaps_of_dev e] at h
  omega

theorem sees_performLines (wf : s.mem.wf = true) (lines : Spec.StoresInLine s k) (L m a : Nat) :
    Spec.sees (performWhere s k (onLines L m)) k a = Spec.sees s k a := by
  refine sees_performWhere wf ?_
  by_cases inside : 128 * L ≤ a ∧ a < 128 * L + 128 * m + 128
  · exact .inr fun q _ e => byteAt_of_not_onLines e inside.1 inside.2
  · refine .inl fun q hq e => byteAt_eq_none fun c loc own => ?_
    obtain ⟨-, line⟩ := lines q hq c loc
    rw [overlaps_of_dev loc] at e
    omega

/-- The stores that are still on their way write no byte of lines whose stores have been performed. -/
theorem byteAt_performLines {L m : Nat} (low : 128 * L ≤ a) (high : a < 128 * L + 128 * m + 128) :
    ∀ q ∈ ((performWhere s k (onLines L m)).coreOf k).pstores, q.byteAt (.dev a) = none := by
  rw [performWhere_pstores]
  exact fun q hq => byteAt_of_not_onLines (by simpa using (List.mem_filter.mp hq).2) low high

theorem performStore_held (p : PStore) : ∀ l ∈ (performStore s k p).hostif.held, l ∈ s.hostif.held := by
  unfold performStore
  split
  · exact fun l hl => List.mem_of_mem_filter hl
  · obtain ⟨_, _, _, _, e⟩ := hostWrite_changes s k ‹Nat› p.data
    rw [e]
    exact fun _ h => h
  · exact fun _ h => h

theorem performWhere_held : ∀ l ∈ (performWhere s k f).hostif.held, l ∈ s.hostif.held :=
  performWhere_ind (P := fun u => ∀ l ∈ u.hostif.held, l ∈ s.hostif.held) s k f (fun _ h => h)
    fun _ p _ _ before l hl => before l (performStore_held p l hl)

theorem performStore_poison (p : PStore) : ∀ e ∈ (performStore s k p).poison, e ∈ s.poison := by
  unfold performStore
  split
  · exact fun l hl => List.mem_of_mem_filter hl
  · obtain ⟨_, _, _, _, e⟩ := hostWrite_changes s k ‹Nat› p.data
    rw [e]
    exact fun _ h => h
  · exact fun _ h => h

theorem performWhere_poison : ∀ e ∈ (performWhere s k f).poison, e ∈ s.poison :=
  performWhere_ind (P := fun u => ∀ e ∈ u.poison, e ∈ s.poison) s k f (fun _ h => h)
    fun _ p _ _ before e he => before e (performStore_poison p e he)

/-- Performing stores poisons no word. -/
theorem poisonAt_of_subset (fewer : ∀ e ∈ t.poison, e ∈ s.poison) (h : poisonAt s pa n = none) : poisonAt t pa n = none := by
  unfold poisonAt at *
  cases n with
  | zero => cases List.find? _ t.poison <;> rfl
  | succ n =>
    have none (o : Option (Nat × BitVec 3)) :
        (o.bind fun e => if n + 1 = 0 then none else some (8 * e.1, e.2)) = none ↔ o = none := by
      cases o <;> simp
    rw [none, List.find?_eq_none] at *
    exact fun e he => h e (fewer e he)

end

end Sys2Proof.Machine

/-! # What a core sees of host memory, and what bypassing leaves (O7, O8, O10) -/

namespace Sys2Proof.Machine

/-! ## The context of a core and its place in host memory (R361, R391) -/

/-- The two states have the same contexts, the same cores in them and the same answers of the host's pages. -/
def SameContexts (s t : State) : Prop :=
  t.ctxs = s.ctxs ∧ t.hostif.pages = s.hostif.pages ∧ ∀ k, (t.coreOf k).asg = (s.coreOf k).asg ∧ (t.coreOf k).coreid = (s.coreOf k).coreid

section

variable {s t u : State} {k h : Nat} {write : Bool}

theorem SameContexts.ctxOfAgent (a : SameContexts s t) (k : Nat) : ctxOfAgent t k = ctxOfAgent s k := by
  obtain ⟨ctxs, -, cores⟩ := a
  unfold Machine.ctxOfAgent ctxOfRow
  dsimp only
  rw [ctxs, (cores k).1, (cores k).2]

theorem SameContexts.hostPlace (a : SameContexts s t) (k h : Nat) : hostPlace t k h = hostPlace s k h := by
  unfold Machine.hostPlace
  rw [a.ctxOfAgent]

theorem SameContexts.hostPage (a : SameContexts s t) (x : Nat) : hostPage t x = hostPage s x := by
  unfold Machine.hostPage
  rw [a.2.1]

theorem SameContexts.hostRefuses (a : SameContexts s t) (k h : Nat) (write : Bool) : hostRefuses t k h write = hostRefuses s k h write := by
  unfold Machine.hostRefuses
  dsimp only
  rw [a.ctxOfAgent, a.hostPage, a.hostPlace]

theorem SameContexts.trans (a : SameContexts s u) (b : SameContexts u t) : SameContexts s t := by
  obtain ⟨uCtxs, uPages, uCores⟩ := a
  obtain ⟨tCtxs, tPages, tCores⟩ := b
  exact ⟨tCtxs.trans uCtxs, tPages.trans uPages, fun k => ⟨(tCores k).1.trans (uCores k).1, (tCores k).2.trans (uCores k).2⟩⟩

theorem MemoryOnly.sameContexts (a : MemoryOnly s t) (frame : StoreFrame s t) : SameContexts s t := by
  refine ⟨(congrArg State.ctxs frame :), (congrArg (·.hostif.pages) frame :), fun k => ?_⟩
  obtain ⟨_, _, same⟩ := a.coreOf k
  rw [same]
  exact ⟨rfl, rfl⟩

theorem performWhere_sameContexts (s : State) (k : Nat) (f : PStore → Bool) : SameContexts s (performWhere s k f) :=
  (performWhere_memoryOnly (.refl s) k f).sameContexts (performWhere_frame s k f)

theorem hostPlace_add (s : State) (k h : Nat) : hostPlace s k h = hostPlace s k 0 + h := by
  unfold hostPlace Ctx.hostPlace
  split
  · split
    · omega
    · omega
  · omega

end

/-! ## Stores to the host -/

/-- The core's stores to the host that are on their way. -/
def hostStores (s : State) (k : Nat) : List PStore := (s.coreOf k).pstores.filter fun p => !p.loc.isDev

/-- From `s` to `t` harts, device memory, poison, the lines the host holds and cores have changed, but no core's place in a context. -/
def SameHost (s t : State) : Prop :=
  (∃ harts cores mem poison held,
      t = { s with harts := harts, cores := cores, mem := mem, poison := poison, hostif := { s.hostif with held := held } })
    ∧ ∀ k, (t.coreOf k).asg = (s.coreOf k).asg ∧ (t.coreOf k).coreid = (s.coreOf k).coreid

section

variable {s t u : State} {k h : Nat} {f : PStore → Bool}

theorem SameHost.refl (s : State) : SameHost s s := ⟨⟨_, _, _, _, _, rfl⟩, fun _ => ⟨rfl, rfl⟩⟩

theorem SameHost.symm (a : SameHost s t) : SameHost t s := by
  obtain ⟨⟨_, _, _, _, _, rfl⟩, cores⟩ := a
  exact ⟨⟨s.harts, s.cores, s.mem, s.poison, s.hostif.held, rfl⟩, fun k => ⟨(cores k).1.symm, (cores k).2.symm⟩⟩

theorem SameHost.trans (a : SameHost s u) (b : SameHost u t) : SameHost s t := by
  obtain ⟨⟨_, _, _, _, _, rfl⟩, uCores⟩ := a
  obtain ⟨⟨_, _, _, _, _, rfl⟩, tCores⟩ := b
  exact ⟨⟨_, _, _, _, _, rfl⟩, fun k => ⟨(tCores k).1.trans (uCores k).1, (tCores k).2.trans (uCores k).2⟩⟩

theorem SameHost.sameContexts (a : SameHost s t) : SameContexts s t := by
  obtain ⟨⟨_, _, _, _, _, rfl⟩, cores⟩ := a
  exact ⟨rfl, rfl, cores⟩

theorem SameHost.hostMem (a : SameHost s t) : t.hostMem = s.hostMem := by
  obtain ⟨⟨_, _, _, _, _, rfl⟩, -⟩ := a
  rfl

theorem SameHost.hostif (a : SameHost s t) : { t.hostif with held := [] } = { s.hostif with held := [] } := by
  obtain ⟨⟨_, _, _, _, _, rfl⟩, -⟩ := a
  rfl

theorem sameHost_setCoreOf (s : State) {c : Core} (asg : c.asg = (s.coreOf k).asg) (coreid : c.coreid = (s.coreOf k).coreid) :
    SameHost s (s.setCoreOf k c) := by
  refine ⟨⟨s.harts, _, s.mem, s.poison, s.hostif.held, rfl⟩, fun j => ?_⟩
  by_cases e : j = k
  · rw [e, State.coreOf_setCoreOf_self]
    exact ⟨asg, coreid⟩
  · rw [State.coreOf_setCoreOf_ne _ _ e]
    exact ⟨rfl, rfl⟩

theorem devWrite_sameHost (s : State) (writer : Option Nat) (pa : Nat) (data : List Byte) : SameHost s (devWrite s writer pa data) := by
  refine ⟨⟨s.harts, _, _, _, _, rfl⟩, fun k => ?_⟩
  obtain ⟨_, _, same⟩ := (devWrite_memoryOnly (.refl s) writer pa data).coreOf k
  rw [same]
  exact ⟨rfl, rfl⟩

/-- Performing stores to device memory leaves the host as it was. -/
theorem performWhere_sameHost (dev : ∀ p, f p = true → p.loc.isDev = true) : SameHost s (performWhere s k f) := by
  refine performWhere_ind s k f (sameHost_setCoreOf s rfl rfl) fun u p _ selected before => before.trans ?_
  unfold performStore
  split
  · exact devWrite_sameHost ..
  · next e =>
    have no := dev p selected
    rw [e] at no
    cases no
  · exact .refl u

theorem setRing_sameHost (a : SameHost s t) (r : EventRing) : SameHost (s.setRing r) (t.setRing r) := by
  obtain ⟨⟨harts, cores, mem, poison, held, rfl⟩, same⟩ := a
  exact ⟨⟨harts, cores, mem, poison, held, rfl⟩, same⟩

theorem interrupt_held (i : HostIf) (held : List Nat) (v : BitVec 8) :
    ({ i with held := held } : HostIf).interrupt v = ({ i.interrupt v with held := held } : HostIf) := by
  have masked : ({ i with held := held } : HostIf).masked v = i.masked v := rfl
  unfold HostIf.interrupt
  rw [masked]
  cases i.masked v <;> rfl

theorem placeRecord_sameHost (a : SameHost s t) (seq : BitVec 32) (l : List Byte) : SameHost (placeRecord s seq l) (placeRecord t seq l) := by
  obtain ⟨⟨harts, cores, mem, poison, held, rfl⟩, same⟩ := id a
  unfold placeRecord
  dsimp only
  split
  · refine ⟨⟨harts, cores, mem, poison, held, ?_⟩, same⟩
    rw [interrupt_held]
  · exact setRing_sameHost a _

/-- An event is the same whatever device memory holds. -/
theorem emit_sameHost (a : SameHost s t) (type ctx queue x y z : Nat) : SameHost (s.emit type ctx queue x y z) (t.emit type ctx queue x y z) := by
  have ring : t.hostif.ring = s.hostif.ring := by
    obtain ⟨⟨_, _, _, _, _, rfl⟩, -⟩ := a
    rfl
  have duty (r : EventRing) : duties (t.setRing r) = duties (s.setRing r) := by
    obtain ⟨⟨_, _, _, _, _, rfl⟩, -⟩ := a
    rfl
  unfold State.emit
  dsimp only
  rw [ring, duty]
  split
  · exact setRing_sameHost (setRing_sameHost a _) _
  · exact placeRecord_sameHost (setRing_sameHost a _) ..

theorem hostWrite_sameHost (a : SameHost s t) (k h : Nat) (data : List Byte) : SameHost (hostWrite s k h data) (hostWrite t k h data) := by
  unfold hostWrite
  rw [a.sameContexts.hostRefuses, a.sameContexts.ctxOfAgent, a.sameContexts.hostPlace]
  split
  · exact emit_sameHost a ..
  · obtain ⟨⟨harts, c, mem, poison, held, rfl⟩, same⟩ := a
    exact ⟨⟨harts, c, mem, poison, held, rfl⟩, same⟩

theorem performStore_sameHost (a : SameHost s t) (k : Nat) (p : PStore) (host : p.loc.isDev = false) :
    SameHost (performStore s k p) (performStore t k p) := by
  unfold performStore
  split
  · next e => rw [e] at host; cases host
  · exact hostWrite_sameHost a ..
  · exact a

/-- Stores to the host leave the same in it whatever device memory holds. -/
theorem performAll_sameHost (l : List PStore) (host : ∀ p ∈ l, p.loc.isDev = false) (k : Nat) (a : SameHost s t) :
    SameHost (l.foldl (fun v p => performStore v k p) s) (l.foldl (fun v p => performStore v k p) t) := by
  induction l generalizing s t with
  | nil => exact a
  | cons p rest ih => exact ih (fun q hq => host q (List.mem_cons_of_mem _ hq)) (performStore_sameHost a k p (host p List.mem_cons_self))

theorem hostStores_host (s : State) (k : Nat) : ∀ p ∈ hostStores s k, p.loc.isDev = false :=
  fun p hp => by simpa using (List.mem_filter.mp hp).2

/-- The state in which the core's stores to the host have left the list of those on their way and are yet to be performed. -/
def hostTaken (s : State) (k : Nat) : State := s.setCoreOf k { s.coreOf k with pstores := (s.coreOf k).pstores.filter fun p => !!p.loc.isDev }

theorem hostSync_eq (s : State) (k : Nat) : hostSync s k = (hostStores s k).foldl (fun v p => performStore v k p) (hostTaken s k) := rfl

theorem sameHost_hostTaken (s : State) (k : Nat) : SameHost s (hostTaken s k) := sameHost_setCoreOf s rfl rfl

theorem hostTaken_sameHost (a : SameHost s t) (k : Nat) : SameHost (hostTaken s k) (hostTaken t k) :=
  (sameHost_hostTaken s k).symm.trans (a.trans (sameHost_hostTaken t k))

theorem hostSync_sameHost (a : SameHost s t) (same : hostStores t k = hostStores s k) : SameHost (hostSync s k) (hostSync t k) := by
  rw [hostSync_eq, hostSync_eq, same]
  exact performAll_sameHost _ (hostStores_host s k) k (hostTaken_sameHost a k)

/-- One store more to the host is performed behind the others. -/
theorem hostSync_append (a : SameHost s t) {p : PStore} (more : hostStores t k = hostStores s k ++ [p]) (host : p.loc.isDev = false) :
    SameHost (performStore (hostSync s k) k p) (hostSync t k) := by
  rw [hostSync_eq, hostSync_eq, more, List.foldl_append]
  exact performStore_sameHost (performAll_sameHost _ (hostStores_host s k) k (hostTaken_sameHost a k)) k p host

/-- What the core sees of host memory does not depend on device memory. -/
theorem seesHost_congr (a : SameHost s t) (same : hostStores t k = hostStores s k) (x : Nat) : Spec.seesHost t k x = Spec.seesHost s k x := by
  unfold Spec.seesHost
  rw [(hostSync_sameHost a same).hostMem, a.sameContexts.hostPlace]

/-- With no store to the host on its way the core sees what host memory holds. -/
theorem seesHost_eq (none : hostStores s k = []) (x : Nat) : Spec.seesHost s k x = readByte s.hostMem (hostPlace s k 0 + x) := by
  have same : (hostSync s k).hostMem = s.hostMem := by
    show ((hostStores s k).foldl (fun v p => performStore v k p) _).hostMem = _
    rw [none]
    rfl
  unfold Spec.seesHost
  rw [same]

end

end Sys2Proof.Machine

/-! # Loads (O7) -/

namespace Sys2Proof.Machine

/-! ## Bypassing and filling the L1 (R107, R110, R283) -/

/-- From `u` to `w` stores of core k to device memory may have been performed and its copies dropped or filled: its harts see every byte as before,
and the host is as it was. -/
structure DevSync (u w : State) (k : Nat) : Prop where
  sees : ∀ a, Spec.sees w k a = Spec.sees u k a
  sameHost : SameHost u w
  hostStores : hostStores w k = hostStores u k
  held : ∀ l ∈ w.hostif.held, l ∈ u.hostif.held
  poison : ∀ e ∈ w.poison, e ∈ u.poison
  memory : MemoryOnly u w
  frame : StoreFrame u w
  wf : w.mem.wf = true

section

variable {s t u w : State} {k pa n a : Nat}

theorem devSync_refl (wf : u.mem.wf = true) (k : Nat) : DevSync u u k :=
  ⟨fun _ => rfl, .refl u, rfl, fun _ h => h, fun _ h => h, .refl u, .refl u, wf⟩

theorem DevSync.seesHost (d : DevSync u w k) (a : Nat) : Spec.seesHost w k a = Spec.seesHost u k a := seesHost_congr d.sameHost d.hostStores a

theorem DevSync.hostAsIn (d : DevSync u w k) : Spec.HostAsIn u w := ⟨d.held, u, .inl rfl, d.sameHost.hostMem, d.sameHost.hostif⟩

/-- The stores that stay on their way after those to some lines of device memory have been performed. -/
theorem hostStores_performLines (u : State) (k L m : Nat) : hostStores (performWhere u k (onLines L m)) k = hostStores u k := by
  unfold hostStores
  rw [performWhere_pstores, List.filter_filter]
  refine List.filter_congr fun q _ => ?_
  cases e : onLines L m q with
  | true => rw [isDev_of_overlaps e]; rfl
  | false => exact Bool.and_true _

theorem devSync_performLines (wf : u.mem.wf = true) (lines : Spec.StoresInLine u k) (L m : Nat) (f : Caches → Caches) :
    let v := performWhere u k (onLines L m)
    DevSync u (v.setCoreOf k { v.coreOf k with caches := f (v.coreOf k).caches }) k := by
  intro v
  have memory : MemoryOnly u v := performWhere_memoryOnly (.refl u) ..
  have pstores (c : Caches) : ((v.setCoreOf k { v.coreOf k with caches := c }).coreOf k).pstores = (v.coreOf k).pstores := by
    rw [State.coreOf_setCoreOf_self]
  refine ⟨fun a => ?_, (performWhere_sameHost fun _ => isDev_of_overlaps).trans (sameHost_setCoreOf v rfl rfl), ?_, performWhere_held,
    performWhere_poison, memory.setCoreOf k _ _, (performWhere_frame u k _).trans (storeFrame_setCoreOf ..), (performWhere_byte wf k _ 0).1⟩
  · rw [← sees_performLines wf lines L m a]
    unfold Spec.sees
    rw [pstores]
    rfl
  · rw [← hostStores_performLines u k L m]
    unfold hostStores
    rw [pstores]

theorem bypass_devSync (wf : u.mem.wf = true) (lines : Spec.StoresInLine u k) (pa n : Nat) : DevSync u (bypass u k pa n) k :=
  devSync_performLines wf lines (lineOf pa) (lineOf (pa + n - 1) - lineOf pa) fun c => { c with l1d := c.l1d.filter fun l => !touches pa n l }

theorem fillLine_devSync (wf : u.mem.wf = true) (lines : Spec.StoresInLine u k) (pa : Nat) : DevSync u (fillLine u k pa) k := by
  unfold fillLine
  dsimp only
  split
  · exact devSync_refl wf k
  · exact devSync_performLines wf lines (lineOf pa) 0 fun c => { c with l1d := l1Fill c.l1d (lineOf pa) }

/-- Behind a bypass no store on its way writes the bytes accessed. -/
theorem byteAt_bypass (u : State) (k : Nat) (low : pa ≤ a) (high : a < pa + n) :
    ∀ q ∈ ((bypass u k pa n).coreOf k).pstores, q.byteAt (.dev a) = none := by
  have inside : 128 * lineOf pa ≤ a ∧ a < 128 * lineOf pa + 128 * (lineOf (pa + n - 1) - lineOf pa) + 128 := by
    unfold lineOf
    omega
  unfold bypass
  dsimp only
  rw [State.coreOf_setCoreOf_self]
  exact byteAt_performLines inside.1 inside.2

/-- Behind a bypass the core sees what memory holds. -/
theorem sees_bypass (u : State) (k : Nat) (low : pa ≤ a) (high : a < pa + n) : Spec.sees (bypass u k pa n) k a = readByte (bypass u k pa n).mem a :=
  coreByte_eq_home (byteAt_bypass u k low high)

/-! ## The port to the host (R282, R300, R391) -/

theorem hostStores_hostSync (u : State) (k : Nat) : hostStores (hostSync u k) k = [] := by
  unfold hostStores hostSync
  rw [performWhere_pstores, List.filter_filter, List.filter_eq_nil_iff]
  intro q _
  cases q.loc.isDev <;> simp

theorem hostSync_hostPlace (u : State) (k j h : Nat) : hostPlace (hostSync u k) j h = hostPlace u j h := (performWhere_sameContexts u k _).hostPlace j h

theorem seesHost_eq_hostSync (u : State) (k a : Nat) : Spec.seesHost u k a = readByte (hostSync u k).hostMem (hostPlace (hostSync u k) k 0 + a) := by
  rw [hostSync_hostPlace]
  rfl

theorem seesHost_hostSync (u : State) (k a : Nat) : Spec.seesHost (hostSync u k) k a = Spec.seesHost u k a := by
  rw [seesHost_eq (hostStores_hostSync u k), seesHost_eq_hostSync]

theorem sees_hostSync (wf : u.mem.wf = true) (k a : Nat) : Spec.sees (hostSync u k) k a = Spec.sees u k a :=
  sees_performWhere wf (.inl fun _ _ e => byteAt_of_not_dev (by simpa using e))

theorem hostSync_hostRefuses (u : State) (k h : Nat) (write : Bool) : hostRefuses (hostSync u k) k h write = hostRefuses u k h write :=
  (performWhere_sameContexts u k _).hostRefuses ..

theorem hostRead_hostSync (u : State) (k h n : Nat) : hostRead (hostSync u k) k h n = Spec.leOf (Spec.seesHost u k) h n := by
  unfold hostRead
  rw [readLE_eq_leOf]
  refine leOf_congr fun i _ => ?_
  rw [seesHost_eq_hostSync, hostPlace_add, Nat.add_assoc]

/-! ## Where an access goes (R107, R367) -/

theorem place_ok {ea : Word} {n acc : Nat} {p : Place} (h : place s ea n acc = .ok (p, u)) : MemoryOnly s u ∧ (s.priv = 3 → u = s) := by
  unfold place at h
  split at h
  · cases h
  · split at h
    · cases h
    · split at h
      · split at h
        · split at h
          · cases h
          · cases h
            exact ⟨.refl _, fun _ => rfl⟩
        · cases h
          exact ⟨.refl _, fun _ => rfl⟩
      · next low =>
        split at h
        · cases h
        · next e =>
          cases h
          exact ⟨translate_memoryOnly (.refl s) _ _ _ _ _ e, fun m => absurd m low⟩

/-! ## The value of a load -/

/-- From `u` to `w` a load has been performed: every byte that the core sees is as before. -/
structure Loaded (u w : State) : Prop where
  memory : MemoryOnly u w
  frame : StoreFrame u w
  sees : ∀ a, Spec.sees w u.agent a = Spec.sees u u.agent a
  seesHost : ∀ a, Spec.seesHost w u.agent a = Spec.seesHost u u.agent a
  host : Spec.HostAsIn u w

theorem DevSync.loaded (d : DevSync u w u.agent) : Loaded u w := ⟨d.memory, d.frame, d.sees, d.seesHost, d.hostAsIn⟩

theorem loaded_refl (u : State) : Loaded u u :=
  ⟨.refl u, .refl u, fun _ => rfl, fun _ => rfl, fun _ h => h, u, .inl rfl, rfl, rfl⟩

theorem hostSync_loaded (wf : u.mem.wf = true) : Loaded u (hostSync u u.agent) :=
  ⟨hostSync_memoryOnly u _, performWhere_frame .., sees_hostSync wf _, seesHost_hostSync u _, performWhere_held, _, .inr rfl, rfl, rfl⟩

theorem loadDev_ok (clean : poisonAt u pa n = none) (wf : u.mem.wf = true) (lines : Spec.StoresInLine u u.agent) (ea : Word) (io : Bool) :
    ∃ w, loadDev u ea pa n io = .ok (Spec.leOf (Spec.sees u u.agent) pa n, w) ∧ Loaded u w := by
  obtain ⟨w, synced, sync⟩ : ∃ w, (if io = true then bypass u u.agent pa n else fillLine u u.agent pa) = w ∧ DevSync u w u.agent := by
    refine ⟨_, rfl, ?_⟩
    split
    · exact bypass_devSync wf lines pa n
    · exact fillLine_devSync wf lines pa
  have value : devValue w.mem w.c.pstores pa n = Spec.leOf (Spec.sees u u.agent) pa n := by
    rw [devValue_eq_leOf]
    refine leOf_congr fun i _ => ?_
    rw [← sync.sees, ← sync.memory.agent]
    rfl
  refine ⟨w, ?_, sync.loaded⟩
  unfold loadDev
  dsimp only
  rw [clean, Option.isSome_none, Bool.or_false, synced, poisonAt_of_subset sync.poison clean, value]

theorem load_ok {ea : Word} {p : Place} (at_ : place s ea n 0 = .ok (p, u)) (readable : Spec.readable u p.loc n) (wf : u.mem.wf = true)
    (lines : Spec.StoresInLine u u.agent) : ∃ w, load s ea n = .ok (Spec.valueAt u p.loc n, w) ∧ Loaded u w := by
  obtain ⟨loc, io, level⟩ := p
  unfold load
  rw [at_]
  cases loc with
  | dev pa => exact loadDev_ok readable wf lines ea io
  | host h =>
    have accepted : hostRefuses (hostSync u u.agent) (hostSync u u.agent).agent h false = false := by
      rw [(hostSync_memoryOnly u _).agent, hostSync_hostRefuses]
      exact readable
    refine ⟨hostSync u u.agent, ?_, hostSync_loaded wf⟩
    dsimp only
    rw [accepted, (hostSync_memoryOnly u _).agent, hostRead_hostSync]
    rfl
  | own o =>
    refine ⟨u, ?_, loaded_refl u⟩
    dsimp only
    rw [readLE_eq_leOf]
    rfl
  | ctl o => exact ⟨u, rfl, loaded_refl u⟩
  | hole => exact ⟨u, rfl, loaded_refl u⟩

/-! ## Instructions that have completed see the same bytes -/

variable {g : Hart}

theorem Becomes.sees (b : Becomes s t g) (k a : Nat) : Spec.sees t k a = Spec.sees s k a := by
  rw [b.2.2]
  rfl

theorem Becomes.coreOf (b : Becomes s t g) (k : Nat) : t.coreOf k = s.coreOf k := by
  rw [b.2.2]
  rfl

theorem Becomes.sameHost (b : Becomes s t g) : SameHost s t :=
  ⟨⟨t.harts, s.cores, s.mem, s.poison, s.hostif.held, b.2.2⟩, fun k => by rw [b.coreOf]; exact ⟨rfl, rfl⟩⟩

theorem Becomes.seesHost (b : Becomes s t g) (k a : Nat) : Spec.seesHost t k a = Spec.seesHost s k a :=
  seesHost_congr b.sameHost (by unfold Machine.hostStores; rw [b.coreOf]) a

theorem scalarLoad : Claims.ScalarLoad := by
  intro i s u rd ea n sx p _ form at_ readable wf lines
  obtain ⟨size, e⟩ := exec_of_loadForm form
  obtain ⟨before, machine⟩ := place_ok at_
  obtain ⟨w, value, loaded⟩ := load_ok at_ readable wf lines
  have same := before.sameThread.trans loaded.memory.sameThread
  have agent : u.agent = s.agent := before.agent
  obtain ⟨t, done, becomes, hart⟩ := writeRd_after (f := 0) (rd := rd) (v := Spec.extended sx n (Spec.valueAt u p.loc n)) same
    (by rw [orFlags_zero]; exact becomes_refl w)
  have answer : exec i s = .next t := by
    rw [e, ← done]
    unfold loadRd
    rw [value]
    dsimp only
    rw [extended_eq sx size]
  refine ⟨t, answer, hart, fun k other => same.others becomes other, fun a => ⟨?_, ?_⟩, fun k => ?_, ?_, ?_, machine⟩
  · rw [becomes.sees, ← agent, loaded.sees]
  · rw [becomes.seesHost, ← agent, loaded.seesHost]
  · rw [becomes.coreOf, loaded.memory.sp, before.sp]
  · have host := loaded.host
    rw [becomes.2.2]
    exact host
  · have frame := loaded.frame
    unfold StoreFrame at frame
    rw [becomes.2.2, frame]

end

/-- Settles O7: a load reads its bytes where the core sees them, behind stores that its read has performed, and completes in rd. -/
theorem scalarLoads : Obligations.ScalarLoads := scalarLoad

end Sys2Proof.Machine

/-! # Atomics (O10) -/

namespace Sys2Proof.Machine

/-! ## Writes behind the stores on their way (R110, R283, R391) -/

section

variable {s t u w : State} {k pa n v h : Nat}

/-- A write behind a bypass is what the core sees at its bytes. -/
theorem sees_devWrite_bypass (wf : u.mem.wf = true) (lines : Spec.StoresInLine u k) (pa n v : Nat) (a : Nat) :
    Spec.sees (devWrite (bypass u k pa n) none pa (leBytes n v)) k a = Spec.patched (Spec.sees u k) pa n v a := by
  have sync := bypass_devSync wf lines pa n
  rw [Spec.patched, ← sync.sees a]
  unfold Spec.sees
  rw [devWrite_pstores, devWrite_mem, readByte_writeBytes_leBytes sync.wf]
  unfold Spec.patched
  split
  · next inside => exact coreByte_eq_home (byteAt_bypass u k inside.1 inside.2)
  · rfl

theorem readByte_devWrite_leBytes (wf : s.mem.wf = true) (writer : Option Nat) (pa n v a : Nat) :
    readByte (devWrite s writer pa (leBytes n v)).mem a = Spec.patched (readByte s.mem) pa n v a :=
  readByte_writeBytes_leBytes wf pa n v a

theorem hostStores_devWrite (s : State) (writer : Option Nat) (pa : Nat) (data : List Byte) (k : Nat) :
    hostStores (devWrite s writer pa data) k = hostStores s k := by
  unfold hostStores
  rw [devWrite_pstores]

theorem seesHost_devWrite (s : State) (writer : Option Nat) (pa : Nat) (data : List Byte) (k a : Nat) :
    Spec.seesHost (devWrite s writer pa data) k a = Spec.seesHost s k a :=
  seesHost_congr (devWrite_sameHost s writer pa data) (hostStores_devWrite ..) a

/-- What is read behind a bypass is what the core sees. -/
theorem readLE_bypass (wf : u.mem.wf = true) (lines : Spec.StoresInLine u k) (pa n : Nat) :
    readLE (bypass u k pa n).mem pa n = Spec.leOf (Spec.sees u k) pa n := by
  rw [readLE_eq_leOf]
  refine leOf_congr fun i hi => ?_
  rw [← (bypass_devSync wf lines pa n).sees, sees_bypass u k (by omega) (by omega)]

theorem placeRecord_hostWf (wf : s.hostMem.wf = true) (seq : BitVec 32) (l : List Byte) : (placeRecord s seq l).hostMem.wf = true := by
  unfold placeRecord
  dsimp only
  split
  · exact wf_writeBytes wf ..
  · exact wf

/-- Every event keeps host memory canonical. -/
theorem emit_hostWf (wf : s.hostMem.wf = true) (type ctx queue x y z : Nat) : (s.emit type ctx queue x y z).hostMem.wf = true := by
  obtain ⟨-, -, e⟩ | ⟨-, e⟩ := emit_cases s type ctx queue x y z
  · rw [e]
    exact wf
  · rw [e]
    apply placeRecord_hostWf
    exact wf

theorem performStore_hostWf (wf : s.hostMem.wf = true) (k : Nat) (p : PStore) : (performStore s k p).hostMem.wf = true := by
  unfold performStore
  split
  · exact wf
  · unfold hostWrite
    split
    · exact emit_hostWf wf ..
    · exact wf_writeBytes wf ..
  · exact wf

theorem hostSync_hostWf (wf : s.hostMem.wf = true) (k : Nat) : (hostSync s k).hostMem.wf = true :=
  performWhere_ind (P := fun u => u.hostMem.wf = true) s k _ wf fun _ p _ _ before => performStore_hostWf before k p

/-- Performing the stores to the host writes no device memory. -/
theorem hostSync_mem (s : State) (k : Nat) : (hostSync s k).mem = s.mem := by
  refine performWhere_ind (P := fun u => u.mem = s.mem) s k _ rfl fun u p _ host before => Eq.trans ?_ before
  unfold performStore
  split
  · next e =>
    rw [e] at host
    cases host
  · obtain ⟨_, _, _, _, e⟩ := hostWrite_changes u k ‹Nat› p.data
    rw [e]
  · rfl

/-- Once the stores to the host have been performed, those on their way go to device memory. -/
theorem hostSync_onlyDev (s : State) (k : Nat) : ∀ q ∈ ((hostSync s k).coreOf k).pstores, ∃ a, q.loc = .dev a := by
  intro q hq
  unfold hostSync at hq
  rw [performWhere_pstores] at hq
  have dev := (List.mem_filter.mp hq).2
  cases e : q.loc with
  | dev a => exact ⟨a, rfl⟩
  | host | own | ctl | hole => rw [e] at dev; cases dev

/-- The state with the low bytes of a value written to host memory where core k's accesses to h reach it. -/
def putHost (s : State) (k h n v : Nat) : State := { s with hostMem := writeBytes s.hostMem (hostPlace s k h) (leBytes n v) }

theorem hostPlace_putHost (s : State) (k h n v j x : Nat) : hostPlace (putHost s k h n v) j x = hostPlace s j x :=
  SameContexts.hostPlace (s := s) ⟨rfl, rfl, fun _ => ⟨rfl, rfl⟩⟩ j x

/-- A write to host memory behind the core's own writes is what the core sees there. -/
theorem seesHost_putHost (wf : s.hostMem.wf = true) (none : hostStores s k = []) (h n v a : Nat) :
    Spec.seesHost (putHost s k h n v) k a = Spec.patched (Spec.seesHost s k) h n v a := by
  have stays : hostStores (putHost s k h n v) k = [] := none
  rw [seesHost_eq stays, hostPlace_putHost, Spec.patched, seesHost_eq none]
  unfold putHost
  rw [readByte_writeBytes_leBytes wf, hostPlace_add, Spec.patched, Nat.add_sub_add_left]
  exact if_congr (by omega) rfl rfl

/-! ## Read-modify-writes on device memory (R111, R112) -/

/-- From `u` to `w` an atomic on device memory has been performed whose old value the core saw and whose new one, if any, it now sees. -/
structure AtomDone (u w : State) (pa n : Nat) (new : Option Nat) : Prop where
  memory : MemoryOnly u w
  sees : ∀ a, Spec.sees w u.agent a = match new with
    | some v => Spec.patched (Spec.sees u u.agent) pa n v a
    | none => Spec.sees u u.agent a
  written : ∀ v, new = some v → ∀ a, pa ≤ a ∧ a < pa + n → readByte w.mem a = Spec.byteOf v (a - pa)
  hostMem : w.hostMem = u.hostMem

theorem AtomDone.sp (d : AtomDone u w pa n new) (k : Nat) : (w.coreOf k).sp = (u.coreOf k).sp := d.memory.sp k

theorem atomDone_write (wf : u.mem.wf = true) (lines : Spec.StoresInLine u u.agent) (pa n v : Nat) :
    AtomDone u (devWrite (bypass u u.agent pa n) none pa (leBytes n v)) pa n (some v) := by
  have sync := bypass_devSync wf lines pa n
  refine ⟨devWrite_memoryOnly sync.memory .., sees_devWrite_bypass wf lines pa n v, fun _ e a inside => ?_, sync.sameHost.hostMem⟩
  cases e
  rw [readByte_devWrite_leBytes sync.wf, Spec.patched, if_pos inside]

theorem atomDone_read (wf : u.mem.wf = true) (lines : Spec.StoresInLine u u.agent) (pa n : Nat) :
    AtomDone u (bypass u u.agent pa n) pa n none := by
  have sync := bypass_devSync wf lines pa n
  exact ⟨sync.memory, sync.sees, fun _ e => (nomatch e), sync.sameHost.hostMem⟩

theorem rmw_dev {ea : Word} {p : Place} (at_ : place s ea n 3 = .ok (p, u)) (dev : p.loc = .dev pa) (io : p.io = false)
    (clean : poisonAt (bypass u u.agent pa n) pa n = none) (wf : u.mem.wf = true) (lines : Spec.StoresInLine u u.agent) (op : Bool)
    (f : Nat → Option Nat) :
    let old := Spec.leOf (Spec.sees u u.agent) pa n
    ∃ w, rmw s ea n op f = .ok (old, w) ∧ AtomDone u w pa n (f old) := by
  intro old
  have step : rmw s ea n op f = (match f old with
      | some v => .ok (old, devWrite (bypass u u.agent pa n) none pa (leBytes n v))
      | none => .ok (old, bypass u u.agent pa n)) := by
    unfold rmw
    simp only [at_, io, dev, clean, readLE_bypass wf lines] <;> rfl
  rw [step]
  cases f old with
  | some v => exact ⟨_, rfl, atomDone_write wf lines pa n v⟩
  | none => exact ⟨_, rfl, atomDone_read wf lines pa n⟩

theorem atomicResult : Claims.AtomicResult := by
  intro i s u f p pa _ form at_ dev io clean wf lines old
  obtain ⟨before, e⟩ := exec_of_atomForm form
  have placed := before.trans (place_ok at_).1
  obtain ⟨w, value, done⟩ := rmw_dev at_ dev io clean wf lines f.hostOp f.new
  have agent : u.agent = s.agent := placed.agent
  obtain ⟨t, answer, becomes, hart⟩ := writeRd_after (f := 0) (rd := f.rd)
    (v := if f.zext then BitVec.ofNat 64 old else Spec.extended true f.size old) (placed.trans done.memory).sameThread
    (by rw [orFlags_zero]; exact becomes_refl w)
  refine ⟨t, ?_, hart, fun k other => (placed.trans done.memory).sameThread.others becomes other, fun a => ?_, fun v new a inside => ?_, ?_, fun k => ?_⟩
  · rw [e, ← answer]
    unfold rmwAnswer
    rw [value]
  · rw [becomes.sees, ← agent, done.sees] <;> rfl
  · rw [becomes.2.2]
    exact done.written v new a inside
  · rw [becomes.2.2]
    exact done.hostMem
  · rw [becomes.coreOf, done.sp, placed.sp]

/-- `amoadd.f32` is one read-modify-write after its release, whose old value goes to rd with the flags of the sum (R111). -/
theorem exec_amoaddF32 (s : State) (rd a b : BitVec 5) (sc : BitVec 3) (o : BitVec 2) :
    exec (.amoaddF32 rd a b sc o) s
      = (match rmw (atomStart s sc o) (s.x a) 4 false fun c => some (fAdd .f32 (rndOf s.h.user.frm) c (Spec.fpBits .f32 (s.x b))).1 with
        | .error (s, t) => raise s t
        | .ok (c, w) => writeRd rd (Spec.fpWord .f32 c) (w.orFlags (fAdd .f32 (rndOf s.h.user.frm) c (Spec.fpBits .f32 (s.x b))).2)) := by
  have answer : exec (.amoaddF32 rd a b sc o) s = execAmoaddF32 rd a b sc o s := rfl
  have rounding : s.rnd = rndOf s.h.user.frm := rfl
  have addend : fpOperand .f32 (s.x b) = Spec.fpBits .f32 (s.x b) := rfl
  rw [answer]
  unfold execAmoaddF32
  dsimp only
  simp only [rounding, addend, atomStart_eq, (atomStart_memoryOnly s sc o).sameThread.x, fpResult_eq_fpWord] <;> rfl

theorem atomicFloatAdd : Claims.AtomicFloatAdd := by
  intro s u rd a b sc o p pa _ at_ dev io clean wf lines old r
  have placed := (atomStart_memoryOnly s sc o).trans (place_ok at_).1
  change place (atomStart s sc o) (s.x a) 4 3 = _ at at_
  obtain ⟨w, value, done⟩ := rmw_dev at_ dev io clean wf lines false
    fun c => some (fAdd .f32 (rndOf s.h.user.frm) c (Spec.fpBits .f32 (s.x b))).1
  have seen : Spec.leOf (Spec.sees u u.agent) pa 4 = old := rfl
  have sum : fAdd .f32 (rndOf s.h.user.frm) old (Spec.fpBits .f32 (s.x b)) = r := rfl
  clear_value r
  clear_value old
  rw [seen] at value done
  rw [sum] at done
  have agent : u.agent = s.agent := placed.agent
  obtain ⟨t, answer, becomes, hart⟩ := writeRd_after (f := r.2) (rd := rd) (v := Spec.fpWord .f32 old) (placed.trans done.memory).sameThread
    (becomes_orFlags w r.2)
  refine ⟨t, ?_, hart, fun k other => (placed.trans done.memory).sameThread.others becomes other, fun x => ?_, fun x inside => ?_, ?_, fun k => ?_⟩
  · rw [exec_amoaddF32, value, ← answer, ← sum]
  · rw [becomes.sees, ← agent, done.sees]
  · rw [becomes.2.2]
    exact done.written _ rfl x inside
  · rw [becomes.2.2]
    exact done.hostMem
  · rw [becomes.coreOf, done.sp, placed.sp]

/-! ## Atomics on host memory (R113, R392, R394) -/

/-- The host takes an AtomicOp of a size that is routed, on a page that accepts it. -/
def hostTakes (u : State) (h n : Nat) (op : Bool) : Prop :=
  op = true ∧ u.hostif.routes n = true ∧ (hostPage u (hostPlace u u.agent h)).atomicOk = true ∧ hostRefuses u u.agent h true = false

theorem rmw_host_refused {ea : Word} {p : Place} {op : Bool} (at_ : place s ea n 3 = .ok (p, u)) (host : p.loc = .host h) (io : p.io = false)
    (refused : ¬ hostTakes u h n op) (f : Nat → Option Nat) : rmw s ea n op f = .error (u, Trap.of 0x0E3 ea) := by
  have why : op = false ∨ u.hostif.routes n = false ∨ (hostPage u (hostPlace u u.agent h)).atomicOk = false ∨ hostRefuses u u.agent h true = true := by
    unfold hostTakes at refused
    simp only [not_and_or, Bool.not_eq_true, Bool.not_eq_false] at refused
    exact refused
  unfold rmw
  simp only [at_, io, host, if_pos why]
  rfl

/-- From `u` to `w` an atomic on host memory has been performed behind the core's writes to the host. -/
structure HostAtomDone (u w : State) (h n : Nat) (new : Option Nat) : Prop where
  memory : MemoryOnly u w
  seesHost : ∀ a, Spec.seesHost w u.agent a = match new with
    | some v => Spec.patched (Spec.seesHost u u.agent) h n v a
    | none => Spec.seesHost u u.agent a
  onlyDev : ∀ q ∈ (w.coreOf u.agent).pstores, ∃ a, q.loc = .dev a
  mem : w.mem = u.mem

theorem hostAtomDone_write (wf : u.hostMem.wf = true) (h n v : Nat) :
    HostAtomDone u (putHost (hostSync u u.agent) u.agent h n v) h n (some v) := by
  refine ⟨hostSync_memoryOnly u u.agent, fun a => ?_, hostSync_onlyDev u u.agent, hostSync_mem u u.agent⟩
  rw [seesHost_putHost (hostSync_hostWf wf _) (hostStores_hostSync ..)]
  dsimp only
  rw [Spec.patched, seesHost_hostSync]
  rfl

theorem hostAtomDone_read (u : State) (h n : Nat) : HostAtomDone u (hostSync u u.agent) h n none :=
  ⟨hostSync_memoryOnly u u.agent, seesHost_hostSync u u.agent, hostSync_onlyDev u u.agent, hostSync_mem u u.agent⟩

theorem rmw_host {ea : Word} {p : Place} {op : Bool} (at_ : place s ea n 3 = .ok (p, u)) (host : p.loc = .host h) (io : p.io = false)
    (takes : hostTakes u h n op) (wf : u.hostMem.wf = true) (f : Nat → Option Nat) :
    let old := Spec.leOf (Spec.seesHost u u.agent) h n
    ∃ w, rmw s ea n op f = .ok (old, w) ∧ HostAtomDone u w h n (f old) := by
  intro old
  have taken : ¬ (op = false ∨ u.hostif.routes n = false ∨ (hostPage u (hostPlace u u.agent h)).atomicOk = false
      ∨ hostRefuses u u.agent h true = true) := by
    obtain ⟨op, route, page, accepts⟩ := takes
    simp [op, route, page, accepts]
  have place : hostPlace u u.agent h = hostPlace (hostSync u u.agent) u.agent h := (hostSync_hostPlace ..).symm
  have read : readLE (hostSync u u.agent).hostMem (hostPlace u u.agent h) n = old := by
    rw [place]
    exact hostRead_hostSync u u.agent h n
  have step : rmw s ea n op f = (match f old with
      | some v => .ok (old, putHost (hostSync u u.agent) u.agent h n v)
      | none => .ok (old, hostSync u u.agent)) := by
    unfold rmw putHost
    simp only [at_, io, host, if_neg taken, read, ← place] <;> rfl
  rw [step]
  cases f old with
  | some v => exact ⟨_, rfl, hostAtomDone_write wf h n v⟩
  | none => exact ⟨_, rfl, hostAtomDone_read u h n⟩

theorem hostAtomics : Claims.HostAtomics := by
  intro i s u f p h _ form at_ host io routed taken
  obtain ⟨before, e⟩ := exec_of_atomForm form
  have placed := before.trans (place_ok at_).1
  refine ⟨fun refused => ?_, fun op route takes wf => ?_⟩
  · have no : ¬ hostTakes u h f.size f.hostOp := by
      rintro ⟨op, route, page, accepts⟩
      rcases refused with no | no | no
      · exact absurd (op.symm.trans no) (by decide)
      · exact absurd (route.symm.trans no) (by decide)
      · simp [taken, page, accepts] at no
    rw [e, rmw_host_refused at_ host io no]
    exact raise_after placed.sameThread ..
  · have takes : hostTakes u h f.size f.hostOp := by
      simp only [taken, Bool.and_eq_true, Bool.not_eq_true'] at takes
      exact ⟨op, route, takes.1, takes.2⟩
    intro old
    obtain ⟨w, value, done⟩ := rmw_host at_ host io takes wf f.new
    have agent : u.agent = s.agent := placed.agent
    have same := (placed.trans done.memory).sameThread
    obtain ⟨t, answer, becomes, hart⟩ := writeRd_after (f := 0) (rd := f.rd)
      (v := if f.zext then BitVec.ofNat 64 old else Spec.extended true f.size old) same (by rw [orFlags_zero]; exact becomes_refl w)
    have core : t.c = w.coreOf u.agent := by
      unfold State.c State.agent
      rw [becomes.coreOf, becomes.cur, done.memory.cur]
    refine ⟨t, ?_, hart, fun k other => same.others becomes other, fun a => ?_, ?_, ?_, fun k => ?_⟩
    · rw [e, ← answer]
      unfold rmwAnswer
      rw [value]
    · rw [becomes.seesHost, ← agent, done.seesHost] <;> rfl
    · rw [core]
      exact done.onlyDev
    · rw [becomes.2.2]
      exact done.mem
    · rw [becomes.coreOf, done.memory.sp, placed.sp]

theorem hostFloatAddRefused : Claims.HostFloatAddRefused := by
  intro s u rd a b sc o p h _ at_ host io
  have placed := (atomStart_memoryOnly s sc o).trans (place_ok at_).1
  change place (atomStart s sc o) (s.x a) 4 3 = _ at at_
  rw [exec_amoaddF32, rmw_host_refused at_ host io fun takes => absurd takes.1 (by decide)]
  exact raise_after placed.sameThread ..

end

/-- Settles O10: an atomic is one read-modify-write behind a bypass of its line, or behind the core's writes to the host where the host takes it. -/
theorem atomics : Obligations.Atomics := ⟨atomicResult, atomicFloatAdd, hostAtomics, hostFloatAddRefused⟩

end Sys2Proof.Machine

/-! # Stores (O8) -/

namespace Sys2Proof.Machine

/-! ## What a store leaves before its instruction completes (R105 to R108, R283) -/

/-- From `u` to `w` a store of the n low bytes of v at a place outside control space has been accepted: what its core sees, what the scratchpads hold,
and for an I/O page what is in memory. -/
structure Stored (u w : State) (p : Place) (n v : Nat) : Prop where
  thread : SameThread u w
  sees : ∀ a, Spec.sees w u.agent a = match p.loc with
    | .dev pa => Spec.patched (Spec.sees u u.agent) pa n v a
    | _ => Spec.sees u u.agent a
  seesHost : ∀ a, (∀ h, p.loc = .host h → hostRefuses u u.agent h true = false) → Spec.seesHost w u.agent a = match p.loc with
    | .host h => Spec.patched (Spec.seesHost u u.agent) h n v a
    | _ => Spec.seesHost u u.agent a
  sp : ∀ k a, readByte (w.coreOf k).sp a = match p.loc with
    | .own o => if k = u.agent ∧ ¬ (4160 ≤ u.agent ∧ o < 0x20000)
        then Spec.patched (readByte (u.coreOf k).sp) o n v a else readByte (u.coreOf k).sp a
    | _ => readByte (u.coreOf k).sp a
  inMemory : p.io = true → ∀ pa, p.loc = .dev pa → ∀ a, pa ≤ a ∧ a < pa + n → readByte w.mem a = Spec.byteOf v (a - pa)
  onlyDev : p.io = true → ∀ h, p.loc = .host h → ∀ q ∈ (w.coreOf u.agent).pstores, ∃ a, q.loc = .dev a

section

variable {s t u w : State} {n v pa h o : Nat} {io : Bool} {level : Nat}

theorem stored_hole (u : State) (io : Bool) (level n v : Nat) : Stored u u ⟨.hole, io, level⟩ n v where
  thread := .refl u
  sees _ := rfl
  seesHost _ _ := rfl
  sp _ _ := rfl
  inMemory _ _ e := nomatch e
  onlyDev _ _ e := nomatch e

/-! ### An agent's own memory (R109, R448) -/

theorem ownWrite_sameHost (u : State) (o n v : Nat) : SameHost u (ownWrite u o n v) := by
  unfold ownWrite
  split
  · exact .refl u
  · exact sameHost_setCoreOf u rfl rfl

theorem ownWrite_pstores (u : State) (o n v k : Nat) : ((ownWrite u o n v).coreOf k).pstores = (u.coreOf k).pstores := by
  unfold ownWrite
  split
  · rfl
  · by_cases e : k = u.agent
    · rw [e]
      unfold State.setC
      rw [State.coreOf_setCoreOf_self]
      rfl
    · unfold State.setC
      rw [State.coreOf_setCoreOf_ne _ _ e]

theorem ownWrite_sees (u : State) (o n v k a : Nat) : Spec.sees (ownWrite u o n v) k a = Spec.sees u k a := by
  have mem : (ownWrite u o n v).mem = u.mem := by
    unfold ownWrite
    split <;> rfl
  unfold Spec.sees
  rw [ownWrite_pstores, mem]

theorem ownWrite_sp (wf : u.c.sp.wf = true) (o n v k a : Nat) :
    readByte ((ownWrite u o n v).coreOf k).sp a = if k = u.agent ∧ ¬ (4160 ≤ u.agent ∧ o < 0x20000)
      then Spec.patched (readByte (u.coreOf k).sp) o n v a else readByte (u.coreOf k).sp a := by
  unfold ownWrite
  by_cases rom : 4160 ≤ u.agent ∧ o < 0x20000
  · rw [if_pos rom, if_neg fun e => e.2 rom]
  · rw [if_neg rom]
    unfold State.setC
    by_cases e : k = u.agent
    · rw [if_pos ⟨e, rom⟩, e, State.coreOf_setCoreOf_self]
      exact readByte_writeLE wf o n v a
    · rw [if_neg fun f => e f.1, State.coreOf_setCoreOf_ne _ _ e]

theorem stored_own (wf : u.c.sp.wf = true) (o : Nat) (io : Bool) (level n v : Nat) : Stored u (ownWrite u o n v) ⟨.own o, io, level⟩ n v where
  thread := by
    unfold ownWrite
    split
    · exact .refl u
    · exact sameThread_setC ..
  sees := ownWrite_sees u o n v u.agent
  seesHost a _ := seesHost_congr (ownWrite_sameHost u o n v) (by unfold hostStores; rw [ownWrite_pstores]) a
  sp := ownWrite_sp wf o n v
  inMemory _ _ e := nomatch e
  onlyDev _ _ e := nomatch e

/-! ### Stores that are on their way -/

/-- The state with one store more on its way. -/
def sent (u : State) (p : PStore) : State := u.setC { u.c with pstores := u.c.pstores ++ [p] }

theorem sent_sameHost (u : State) (p : PStore) : SameHost u (sent u p) := sameHost_setCoreOf u rfl rfl

theorem sent_pstores (u : State) (p : PStore) : ((sent u p).coreOf u.agent).pstores = (u.coreOf u.agent).pstores ++ [p] := by
  unfold sent State.setC
  rw [State.coreOf_setCoreOf_self]
  rfl

theorem sent_sp (u : State) (p : PStore) (k : Nat) : ((sent u p).coreOf k).sp = (u.coreOf k).sp := by
  unfold sent State.setC
  by_cases e : k = u.agent
  · rw [e, State.coreOf_setCoreOf_self]
    rfl
  · rw [State.coreOf_setCoreOf_ne _ _ e]

theorem sent_sees (u : State) (p : PStore) (a : Nat) :
    Spec.sees (sent u p) u.agent a = (p.byteAt (.dev a)).getD (Spec.sees u u.agent a) := by
  unfold Spec.sees
  rw [sent_pstores, coreByte_append]
  rfl

theorem hostStores_sent (u : State) (p : PStore) :
    hostStores (sent u p) u.agent = hostStores u u.agent ++ [p].filter fun p => !p.loc.isDev := by
  unfold hostStores
  rw [sent_pstores, List.filter_append]

/-- The newest store's bytes are those the core sees. -/
theorem byteAt_leBytes (k pa n v a : Nat) (b : Byte) :
    (({ hart := k, loc := .dev pa, data := leBytes n v } : PStore).byteAt (.dev a)).getD b
      = if pa ≤ a ∧ a < pa + n then Spec.byteOf v (a - pa) else b := by
  rw [byteAt_of_dev rfl]
  dsimp only
  by_cases above : pa ≤ a
  · rw [if_pos above]
    by_cases below : a < pa + n
    · rw [if_pos ⟨above, below⟩, getElem?_leBytes v (by omega)]
      rfl
    · rw [if_neg fun e => below e.2, List.getElem?_eq_none (by rw [leBytes_length]; omega)]
      rfl
  · rw [if_neg above, if_neg fun e => above e.1]
    rfl

theorem stored_dev (u : State) (k pa level n v : Nat) :
    Stored u (sent u { hart := k, loc := .dev pa, data := leBytes n v }) ⟨.dev pa, false, level⟩ n v where
  thread := sameThread_setC ..
  sees a := (sent_sees ..).trans (byteAt_leBytes ..)
  seesHost a _ := seesHost_congr (sent_sameHost ..) ((hostStores_sent ..).trans (List.append_nil _)) a
  sp k a := by rw [sent_sp]
  inMemory io := nomatch io
  onlyDev io := nomatch io

/-! ### Stores to an I/O page of device memory -/

theorem stored_devIo (wf : u.mem.wf = true) (lines : Spec.StoresInLine u u.agent) (pa level n v : Nat) :
    Stored u (devWrite (bypass u u.agent pa n) none pa (leBytes n v)) ⟨.dev pa, true, level⟩ n v where
  thread := (devWrite_memoryOnly (bypass_devSync wf lines pa n).memory ..).sameThread
  sees := sees_devWrite_bypass wf lines pa n v
  seesHost a _ := by rw [seesHost_devWrite, (bypass_devSync wf lines pa n).seesHost]
  sp k a := by rw [(devWrite_memoryOnly (bypass_devSync wf lines pa n).memory ..).sp]
  inMemory _ b e a inside := by
    cases e
    rw [readByte_devWrite_leBytes (bypass_devSync wf lines pa n).wf, Spec.patched, if_pos inside]
  onlyDev _ _ e := nomatch e

/-! ### Stores to the host (R282, R300, R391, R392) -/

/-- A store to the host that accepts it. -/
theorem performStore_accepted {k j : Nat} (accepts : hostRefuses s k h true = false) :
    performStore s k { hart := j, loc := .host h, data := leBytes n v } = putHost s k h n v := by
  have not : ¬ hostRefuses s k h true = true := by
    rw [accepts]
    exact Bool.false_ne_true
  exact if_neg not

theorem performStore_host_sees (s : State) (k j h a : Nat) (data : List Byte) :
    Spec.sees (performStore s k { hart := j, loc := .host h, data := data }) k a = Spec.sees s k a := by
  obtain ⟨_, _, _, _, e⟩ := hostWrite_changes s k h data
  change Spec.sees (hostWrite s k h data) k a = _
  rw [e]
  rfl

theorem performStore_host_pstores (s : State) (k j h i : Nat) (data : List Byte) :
    ((performStore s k { hart := j, loc := .host h, data := data }).coreOf i).pstores = (s.coreOf i).pstores :=
  performStore_pstores s k _ i

theorem seesHost_put_hostSync (wf : u.hostMem.wf = true) (k h n v a : Nat) :
    Spec.seesHost (putHost (hostSync u k) k h n v) k a = Spec.patched (Spec.seesHost u k) h n v a := by
  rw [seesHost_putHost (hostSync_hostWf wf k) (hostStores_hostSync u k), Spec.patched, seesHost_hostSync]
  rfl

/-- A store to the host that is on its way is what the core sees there, where the host accepts it. -/
theorem seesHost_sent (wf : u.hostMem.wf = true) (k : Nat) (accepts : hostRefuses u u.agent h true = false) (n v a : Nat) :
    Spec.seesHost (sent u { hart := k, loc := .host h, data := leBytes n v }) u.agent a = Spec.patched (Spec.seesHost u u.agent) h n v a := by
  have later := hostSync_append (sent_sameHost u { hart := k, loc := .host h, data := leBytes n v }) (hostStores_sent ..) rfl
  rw [performStore_accepted ((hostSync_hostRefuses ..).trans accepts)] at later
  have same : hostStores (putHost (hostSync u u.agent) u.agent h n v) u.agent = [] := hostStores_hostSync u u.agent
  rw [← seesHost_put_hostSync wf, seesHost_eq same, ← later.hostMem, hostPlace_putHost, hostSync_hostPlace,
    ← (sent_sameHost u { hart := k, loc := .host h, data := leBytes n v }).sameContexts.hostPlace]
  rfl

theorem stored_host (wf : u.hostMem.wf = true) (k h level n v : Nat) :
    Stored u (sent u { hart := k, loc := .host h, data := leBytes n v }) ⟨.host h, false, level⟩ n v where
  thread := sameThread_setC ..
  sees a := by rw [sent_sees, byteAt_of_not_dev rfl]; rfl
  seesHost a accepts := seesHost_sent wf k (accepts h rfl) n v a
  sp k a := by rw [sent_sp]
  inMemory io := nomatch io
  onlyDev io := nomatch io

theorem stored_hostIo (memWf : u.mem.wf = true) (wf : u.hostMem.wf = true) (k h level n v : Nat) :
    Stored u (performStore (hostSync u u.agent) u.agent { hart := k, loc := .host h, data := leBytes n v }) ⟨.host h, true, level⟩ n v where
  thread := (performStore_memoryOnly (hostSync_memoryOnly u _) ..).sameThread
  sees a := by rw [performStore_host_sees, sees_hostSync memWf]
  seesHost a accepts := by
    rw [performStore_accepted ((hostSync_hostRefuses ..).trans (accepts h rfl)), seesHost_put_hostSync wf]
  sp k a := by rw [(performStore_memoryOnly (hostSync_memoryOnly u _) ..).sp]
  inMemory _ _ e := nomatch e
  onlyDev _ _ _ := by
    rw [performStore_host_pstores]
    exact hostSync_onlyDev u u.agent

/-- A store outside control space is accepted, and its instruction completes. -/
theorem storeAt_stored (p : Place) (window : ∀ a, p.loc ≠ .ctl a) (memWf : u.mem.wf = true) (hostWf : u.hostMem.wf = true) (spWf : u.c.sp.wf = true)
    (lines : Spec.StoresInLine u u.agent) (n v : Nat) : ∃ w, storeAt u p n v = retire w ∧ Stored u w p n v := by
  obtain ⟨loc, io, level⟩ := p
  cases loc with
  | ctl a => exact absurd rfl (window a)
  | own o => exact ⟨_, rfl, stored_own spWf o io level n v⟩
  | hole => exact ⟨_, rfl, stored_hole u io level n v⟩
  | dev pa =>
    cases io with
    | true => exact ⟨_, rfl, stored_devIo memWf lines pa level n v⟩
    | false => exact ⟨_, rfl, stored_dev u _ pa level n v⟩
  | host h =>
    cases io with
    | true => exact ⟨_, rfl, stored_hostIo memWf hostWf _ h level n v⟩
    | false => exact ⟨_, rfl, stored_host hostWf _ h level n v⟩

theorem scalarStore : Claims.ScalarStore := by
  intro i s w u ea n v p _ form at_ window memWf hostWf spWf lines
  obtain ⟨before, e⟩ := exec_of_storeForm form
  have placed := before.trans (place_ok at_).1
  have agent : u.agent = s.agent := placed.agent
  obtain ⟨x, answer, stored⟩ := storeAt_stored p window memWf hostWf spWf lines n v.toNat
  have same := placed.sameThread.trans stored.thread
  obtain ⟨becomes, hart⟩ := retire_after same
  have core : (retire x).c = x.coreOf u.agent := by
    unfold State.c State.agent
    rw [becomes.coreOf, becomes.cur, stored.thread.cur]
  refine ⟨retire x, ?_, hart, fun k other => same.others becomes other, fun a => ?_, fun a accepts => ?_, fun k a => ?_, fun io pa e a inside => ?_,
    fun io h e => ?_⟩
  · rw [e, ← answer]
    unfold store
    rw [at_]
  · rw [becomes.sees, ← agent, stored.sees] <;> rfl
  · rw [← agent] at accepts
    rw [becomes.seesHost, ← agent, stored.seesHost a accepts] <;> rfl
  · rw [becomes.coreOf, ← agent, stored.sp] <;> rfl
  · rw [becomes.2.2]
    exact stored.inMemory io pa e a inside
  · rw [core]
    exact stored.onlyDev io h e

end

end Sys2Proof.Machine

/-! # Stores that reach memory, and control space (O8) -/

namespace Sys2Proof.Machine

/-! ## One store is performed (R107, R283, R287, R392) -/

section

variable {s : State} {core h pa : Nat} {before after : List PStore} {p : PStore}

theorem storeReady_split (first : ∀ q ∈ before, q.before p = false) : storeReady (before ++ p :: after) before.length = true := by
  unfold storeReady
  simp only [List.getElem?_append_right (Nat.le_refl _), Nat.sub_self, List.getElem?_cons_zero, List.take_left]
  exact List.all_eq_true.mpr fun q hq => by rw [first q hq]; rfl

/-- The state in which a store has left the list of those on their way. -/
def without (s : State) (core : Nat) (before after : List PStore) : State :=
  s.setCoreOf core { s.coreOf core with pstores := before ++ after }

theorem performAt_split (on : (s.coreOf core).pstores = before ++ p :: after) (first : ∀ q ∈ before, q.before p = false) :
    performAt s core before.length = performStore (without s core before after) core p := by
  have item : (before ++ p :: after)[before.length]? = some p := by simp
  have rest : (before ++ p :: after).eraseIdx before.length = before ++ after := by
    rw [List.eraseIdx_append_of_length_le (Nat.le_refl _), Nat.sub_self]
    rfl
  unfold performAt without
  dsimp only
  rw [on, item, storeReady_split first, rest]
  rfl

theorem without_sameHost (s : State) (core : Nat) (before after : List PStore) : SameHost s (without s core before after) :=
  sameHost_setCoreOf s rfl rfl

theorem storesPerformed : Claims.StoresPerformed := by
  intro s core before after p c u on first
  have performed := performAt_split on first
  have context : SameContexts s u := (without_sameHost s core before after).sameContexts
  have pstores : (u.coreOf core).pstores = before ++ after := by
    change ((without s core before after).coreOf core).pstores = _
    unfold without
    rw [State.coreOf_setCoreOf_self]
  refine ⟨fun pa dev wf => ?_, fun h host => ⟨fun accepts wf => ?_, fun refuses => ?_⟩⟩
  · have write : performStore u core p = devWrite u (some core) pa p.data := by
      unfold performStore
      rw [dev]
    refine ⟨_, congrArg Host.Outcome.next (performed.trans write), rfl, fun l hl => ?_, (devWrite_bytes wf (some core) pa p.data · |>.2), ?_, rfl, rfl⟩
    · simpa using (List.mem_filter.mp hl).2
    · rw [devWrite_pstores, pstores]
  · have write : performStore u core p = { u with hostMem := writeBytes s.hostMem (hostPlace s core h) p.data } := by
      unfold performStore hostWrite
      rw [host]
      dsimp only
      rw [context.hostRefuses, accepts, context.hostPlace]
      rfl
    exact ⟨_, congrArg Host.Outcome.next (performed.trans write), rfl, fun a => readByte_writeBytes wf _ a p.data⟩
  · have dropped : performStore u core p = u.emit 0x06 (match ctxOfAgent s core with | some (n, _) => n | none => 0xFF) 0xFFFF h 1 0 := by
      unfold performStore hostWrite
      rw [host]
      dsimp only
      rw [context.hostRefuses, refuses, context.ctxOfAgent]
      rfl
    refine ⟨_, congrArg Host.Outcome.next ?_, dropped⟩
    have item : (s.coreOf core).pstores[before.length]? = some p := (congrArg (·[before.length]?) on).trans (by simp)
    rw [item]
    dsimp only
    rw [host]
    dsimp only
    rw [refuses, if_pos rfl]
    exact performed

end

/-! ## Control space (R443, R444) -/

section

variable {s t u w : State} {i : Instr} {ea v : Word} {d m a j n acc : Nat}

/-- Where a store to a site window goes. -/
theorem ctlWrite_site (hd : d < 4) (hm : m < 1024) (ha : a < 0x100000) (n x : Nat) :
    ctlWrite s (2 ^ 32 * d + 0x10000000 + 0x100000 * m + a) n x
      = sitePut s (1024 * d + m) a (leBytes n x) (regWr (2 ^ 32 * d + 0x10000000 + 0x100000 * m + a) n x) := by
  have die : (2 ^ 32 * d + 0x10000000 + 0x100000 * m + a) / 2 ^ 32 = d := by omega
  have offset : (2 ^ 32 * d + 0x10000000 + 0x100000 * m + a) % 2 ^ 32 = 0x10000000 + 0x100000 * m + a := by omega
  have site : (0x10000000 + 0x100000 * m + a - 0x10000000) / 0x100000 = m := by omega
  have inside : (0x10000000 + 0x100000 * m + a) % 0x100000 = a := by omega
  unfold ctlWrite
  simp only [die, offset]
  rw [if_neg (by omega), if_neg (by omega), if_neg (by omega), if_pos (by omega), site, inside]

/-- A store to the scratchpad of a site window changes its bytes there. -/
theorem sitePut_scratchpad {site : Nat} (ha : a < 0x40000) (wf : (s.coreOf site).sp.wf = true) (n x : Nat) (r : RegWr) (k b : Nat) :
    readByte ((sitePut s site a (leBytes n x) r).coreOf k).sp b
      = if k = site then Spec.patched (readByte (s.coreOf k).sp) a n x b else readByte (s.coreOf k).sp b := by
  unfold sitePut
  dsimp only
  rw [if_pos ha]
  split
  · next e =>
    rw [e, State.coreOf_setCoreOf_self]
    exact readByte_writeBytes_leBytes wf a n x b
  · next e => rw [State.coreOf_setCoreOf_ne _ _ e]

/-- A store to a hart's `mtvec` in a site window writes the address, aligned. -/
theorem sitePut_mtvec {site : Nat} (hj : j < 8) (data : List Byte) (v : Word) :
    ((sitePut s site (0x80300 + 8 * j) data (wholeWr v)).hartOf (8 * site + j)).trap.mtvec = v &&& ~~~3 := by
  have word : (0x80300 + 8 * j) / 8 * 8 = 0x80300 + 8 * j := by omega
  have hart : (0x80300 + 8 * j - 0x80300) / 8 = j := by omega
  have high : bitsOf v.toNat 2 62 = v.toNat / 4 := Nat.mod_eq_of_lt (by omega)
  unfold sitePut
  dsimp only
  rw [word, hart, if_neg (by omega), if_neg (by omega), if_neg (by omega), if_neg (by omega), if_neg (by omega), if_neg (by omega),
    if_pos (by omega), State.hartOf_setHartOf_self, field_wholeWr (by decide), high, and_align_eq]
  rfl

/-- Control space takes aligned accesses of 4 or 8 bytes, and no atomics. -/
theorem place_ctl_refused (machine : w.priv = 3) (low : 2 ^ 50 ≤ ea.toNat) (high : ea.toNat < 2 ^ 51) (refused : n < 4 ∨ acc = 3) :
    place w ea n acc = .error (w, Trap.of 0x0E0 ea) := by
  have inside : canonical ea = true := (canonical_iff ea).mpr (.inl (by omega))
  by_cases aligned : ea.toNat % n = 0
  · have window : physLoc w.agent ea.toNat = .ctl (ea.toNat - 2 ^ 50) := by
      unfold physLoc paLoc
      rw [if_neg (by omega), if_neg (by omega), if_neg (by omega), if_neg (by omega), if_pos ⟨low, high⟩]
    unfold place
    rw [if_neg (by simp [inside]), if_neg (not_not.mpr aligned), if_pos machine, window]
    exact if_pos refused
  · exact place_misaligned inside aligned

theorem controlStore : Claims.ControlStore := by
  intro i s w ea n _
  refine ⟨fun u v p o form at_ window => ?_, fun machine low high form => ?_⟩
  · obtain ⟨before, e⟩ := exec_of_storeForm form
    have placed := before.trans (place_ok at_).1
    obtain ⟨becomes, hart⟩ := retire_after placed.sameThread
    have answer : exec i s = .next (ctlWrite (retire u) o n v.toNat) := by
      rw [e]
      unfold store storeAt
      rw [at_]
      dsimp only
      rw [window]
    refine ⟨_, retire u, answer, becomes.2.2, fun k other => placed.sameThread.others becomes other, hart, rfl, fun d m a hd hm offset => ?_⟩
    intro site
    subst offset
    refine ⟨fun scratch wf k b => ?_, fun j hj reg size => ?_⟩
    · rw [ctlWrite_site hd hm (by omega), sitePut_scratchpad scratch (by rw [becomes.coreOf]; exact wf), becomes.coreOf]
    · subst reg size
      rw [ctlWrite_site hd hm (by omega), regWr_whole (by omega)]
      exact sitePut_mtvec hj _ v
  · obtain ⟨acc, access, refused⟩ : ∃ acc, AccessesAt i s w ea n acc ∧ (n < 4 ∨ acc = 3) := by
      rcases form with ⟨short, load | store⟩ | atom
      · exact ⟨0, .inl ⟨rfl, load⟩, .inl short⟩
      · exact ⟨1, .inr (.inl ⟨rfl, store⟩), .inl short⟩
      · exact ⟨3, .inr (.inr ⟨rfl, atom⟩), .inr rfl⟩
    have level : w.priv = 3 := by
      unfold State.priv
      rw [access.memoryOnly.h]
      exact machine
    exact access_traps access (place_ctl_refused level low high refused)

end

/-- Settles O8: a store is on its way or in memory at the place of its address; control space takes it once its instruction has completed. -/
theorem scalarStores : Obligations.ScalarStores := ⟨scalarStore, storesPerformed, controlStore⟩

end Sys2Proof.Machine
